-- ==== Sys2Proof/Word.lean ====
section
/-!
DEFINITION. The word and byte types of the Fjarbin 9 and the one finite-map type that every sparse store of the
state uses (memory, registers, tiles, canes). Numbers and bit order: R1 to R3.
-/
namespace Sys2Proof

/-- A register, instruction word or clause header: 64 bits (R3). -/
abbrev W64 := BitVec 64

/-- A byte of memory. -/
abbrev Byte := BitVec 8

/-- A sparse store: keys strictly rising, no entry equal to the store's default value. The operations that keep
this form are `fput` and `fdel` of Machine/Bits.lean. -/
abbrev FMap (β : Type) := List (Nat × β)

end Sys2Proof
end

