-- ==== Sys2Proof/Config.lean ====
section
/-! DEFINITION. What the specification leaves to the device or to parties outside it: constants without a body, so that
no proof can rest on their values. Each is named in the assumption log. -/

namespace Sys2Proof.Config

/-- Which of the two neighbours a faithful special function returns: true for the one of greater value. It depends on the
operation, the format and the operand alone, as R290 requires ("the same choice for the same operand every time"). -/
opaque faithfulUp (op fmt operand : Nat) : Bool

/-- The sign of an exact sum of zero whose terms cancel, or whose zero terms have both signs under a directed mode: the
specification gives the value zero and no sign. It depends on the rounding mode and the terms alone (R202). -/
opaque zeroSumNegative (mode : Nat) (terms : List (Int × Int)) : Bool

/-- The SM3 digest of a byte string (R432, R439, R440): the algorithm is not part of the specification's text. -/
opaque sm3 (bytes : List Byte) : Nat

/-- Whether an SM2 signature verifies under a public key over a digest (R432, R439). -/
opaque sm2Verify (key digest sig : Nat) : Bool

/-- The SM2 signature of a digest by the module's identity key (R433, R440). -/
opaque sm2Sign (digest : Nat) : Nat

/-- The Terbex key that the ROM holds (R439). -/
opaque terbexKey : Nat

/-- The bytes of the mask ROM (R440). -/
opaque romImage : List Byte

/-- The module's serial number (R440). -/
opaque serialNumber : Nat

/-- The bytes of the resident service's configuration (R440). -/
opaque serviceConfig : List Byte

/-- The bytes that device k of CXL port p provides, at 4 x p + k: zero where none is attached (R428). -/
opaque cxlCapacity (n : Nat) : Nat

/-- The 16 MiB of HBM4E, by number, in which the service keeps the status block and the access tables (R434, R438): the specification
gives no place. -/
opaque servicePlace : Nat

/-- The address at which the resident service's own code starts on a control core (R434). -/
opaque serviceEntry : Nat

/-- A free value for the n-th use in a run: results the specification leaves open. -/
opaque freeValue (n : Nat) : W64

end Sys2Proof.Config
end

