-- ==== Sys2Proof/Syntax.lean ====
section
/-!
DEFINITION. The instruction set as data: one record per word format of the encoding chapter (R216, R222 to R229, R364),
and the one inductive `Instr` with a constructor per row of the opcode table: instruction words, the cane sequencer's
commands, the halves of a pair word, and the events of the part's other agents.
-/

namespace Sys2Proof

/-- The vector word (R216). -/
structure VWord where
  sw : Bool
  msel : BitVec 3
  rows : BitVec 2
  cols : BitVec 2
  d : BitVec 9
  a : BitVec 9
  b : BitVec 9
  c : BitVec 9
  ty : BitVec 5
  fn : BitVec 7
  deriving DecidableEq, Repr

/-- The second source part of an S-format word: the register form (I = 0) or the immediate form (I = 1) (R222). -/
inductive SSrc where
  | reg (b c : BitVec 6) (imm20 : BitVec 20)
  | imm (imm32 : BitVec 32)
  deriving DecidableEq, Repr

/-- The S format (R222). `msel` is ignored by every word (R33). -/
structure SWord where
  sw : Bool
  msel : BitVec 3
  d : BitVec 6
  a : BitVec 6
  src : SSrc
  f7 : BitVec 7
  deriving DecidableEq, Repr

/-- The C format (R223). -/
structure CWord where
  sw : Bool
  msel : BitVec 3
  ra : BitVec 6
  cf : BitVec 6
  off : BitVec 40
  deriving DecidableEq, Repr

/-- The M format (R224). -/
structure MWord where
  sw : Bool
  msel : BitVec 3
  data : BitVec 9
  index : BitVec 9
  base : BitVec 5
  off : BitVec 20
  width : BitVec 2
  order : BitVec 2
  scope : BitVec 3
  hint : BitVec 2
  deriving DecidableEq, Repr

/-- The X format (R226); `bit4` is the reuse bit, which the tile and pontil words use as .all and .free (R345, R347). -/
structure XWord where
  sw : Bool
  msel : BitVec 3
  tile : BitVec 5
  a : BitVec 9
  base : BitVec 6
  off : BitVec 20
  slot : BitVec 3
  wa : BitVec 2
  wb : BitVec 2
  bit4 : Bool
  sat : Bool
  mix : Bool
  rsv : BitVec 2
  deriving DecidableEq, Repr

/-- The T format (R227). -/
structure TWord where
  sw : Bool
  msel : BitVec 3
  sa : BitVec 6
  sb : BitVec 6
  sc : BitVec 6
  start : BitVec 5
  row : BitVec 10
  wm1 : BitVec 6
  ty : BitVec 5
  f8 : BitVec 8
  deriving DecidableEq, Repr

/-- The N format (R227). -/
structure NWord where
  sw : Bool
  msel : BitVec 3
  sa : BitVec 6
  sb : BitVec 6
  sc : BitVec 6
  sd : BitVec 6
  dev : BitVec 16
  f12 : BitVec 12
  deriving DecidableEq, Repr

/-- The Y format (R228). -/
structure YWord where
  sw : Bool
  msel : BitVec 3
  d : BitVec 6
  a : BitVec 6
  sreg : BitVec 16
  imm24 : BitVec 24
  deriving DecidableEq, Repr

/-- One half of a pair word (R229); the compact opcode is the constructor. -/
structure Half where
  ctype : BitVec 4
  rsv : BitVec 2
  d : BitVec 7
  a : BitVec 7
  b : BitVec 7
  deriving DecidableEq, Repr

/-- A cane command (R364); the opcode is the constructor. -/
structure CaneCmd where
  d : BitVec 10
  a : BitVec 10
  b : BitVec 10
  wm1 : BitVec 6
  wam1 : BitVec 6
  wbm1 : BitVec 6
  i : Bool
  s : Bool
  sat : Bool
  cc : BitVec 3
  rsv : BitVec 2
  deriving DecidableEq, Repr

/-- An entry of an error broadcast on the wire (R169 to R171): the receiving record, grid, cluster and team mask, the entry's
place in its list, the pass, and the sender's device and core. -/
structure ErrMsg where
  station : Nat
  grid : Nat
  cluster : Nat
  teams : Nat
  entry : Nat
  pass : Nat
  device : Nat
  core : Nat
  deriving DecidableEq, Repr

/-- Data that arrives from a device for a global range of the context of a job (R376): an ordinary or fired send. `tag` is the
sender's name for the transfer, `cnt` the receive counter named. With `err` the data are the error bytes of a broadcast entry
(R170). With `ack` it is no data: the device acknowledges that many bytes of this module's transfer `tag` (R498). -/
structure NetMsg where
  job : Nat
  src : Nat
  tag : Nat
  va : Nat
  data : List Byte
  cnt : Option Nat
  err : Option ErrMsg := none
  ack : Option Nat := none
  deriving DecidableEq, Repr

/-- A `net.get` request that arrives at the source device (R376). -/
structure GetReq where
  job : Nat
  requester : Nat
  va : Nat
  bytes : Nat
  tag : Nat
  deriving DecidableEq, Repr

/-- A copy engine's next stretch: the copy's number, and how many units it may move before the event ends (0: all that are left). -/
structure CopyRun where
  id : Nat
  units : Nat
  deriving DecidableEq, Repr

/-- A PLDM stage command (R439): the image's signature, and the channel it comes by: none is the management link, else the job whose
management key signs it, with that signature (R432). -/
structure StageCmd where
  sig : Nat
  chan : Option (Nat × Nat)
  deriving DecidableEq, Repr

/-- A PLDM commit command (R439): whether power fails before the image is written, and the channel as for a stage. -/
structure CommitCmd where
  powerFailed : Bool
  chan : Option (Nat × Nat)
  deriving DecidableEq, Repr

/-- The units that have spares (R460): a physical core site of a die, an L2 slice, a row or a column of an SRAM array, an HBM4E row, 16 lanes
of a link. -/
inductive CulletUnit where
  | core (die site : Nat)
  | slice (die slice : Nat)
  | arrayLine (tower array : Nat) (column : Bool) (line : Nat)
  | dramRow (tower row : Nat)
  | linkLane (link : Nat)
  deriving DecidableEq, Repr

/-- The steps of the part: one constructor per row of the opcode table. -/
inductive Instr where
  | sAdd (w : SWord)
  | sSub (w : SWord)
  | sMul (w : SWord)
  | sMulh (w : SWord)
  | sDiv (w : SWord)
  | sRem (w : SWord)
  | sAnd (w : SWord)
  | sOr (w : SWord)
  | sXor (w : SWord)
  | sAndn (w : SWord)
  | sShl (w : SWord)
  | sShr (w : SWord)
  | sSar (w : SWord)
  | sMin (w : SWord)
  | sMax (w : SWord)
  | sClz (w : SWord)
  | sPopc (w : SWord)
  | sBfx (w : SWord)
  | sBfi (w : SWord)
  | sSxt (w : SWord)
  | sZxt (w : SWord)
  | sCmp (w : SWord)
  | sSel (w : SWord)
  | sMov (w : SWord)
  | sLi (w : SWord)
  | sLih (w : SWord)
  | sLea (w : SWord)
  | sSr (w : SWord)
  | br (w : CWord)
  | bc (w : CWord)
  | bv (w : CWord)
  | join (w : CWord)
  | bx (w : SWord)
  | bt (w : CWord)
  | call (w : CWord)
  | callx (w : SWord)
  | ret (w : SWord)
  | loop (w : CWord)
  | exit (w : SWord)
  | spawn (w : VWord)
  | launch (w : SWord)
  | regroup (w : VWord)
  | yield (w : SWord)
  | nap (w : SWord)
  | ipf (w : CWord)
  | ipin (w : CWord)
  | iunpin (w : CWord)
  | vAdd (w : VWord)
  | vSub (w : VWord)
  | vMul (w : VWord)
  | vMulh (w : VWord)
  | vMad (w : VWord)
  | vAbsd (w : VWord)
  | vMin (w : VWord)
  | vMax (w : VWord)
  | vAnd (w : VWord)
  | vOr (w : VWord)
  | vXor (w : VWord)
  | vAndn (w : VWord)
  | vShl (w : VWord)
  | vShr (w : VWord)
  | vSar (w : VWord)
  | vClz (w : VWord)
  | vPopc (w : VWord)
  | vBfx (w : VWord)
  | vBfi (w : VWord)
  | vSel (w : VWord)
  | vCmp (w : VWord)
  | vMov (w : VWord)
  | vLi (w : VWord)
  | vFroms (w : VWord)
  | vTos (w : VWord)
  | vFadd (w : VWord)
  | vFsub (w : VWord)
  | vFmul (w : VWord)
  | vFma (w : VWord)
  | vFmin (w : VWord)
  | vFmax (w : VWord)
  | vFcmp (w : VWord)
  | vFrnd (w : VWord)
  | vFclass (w : VWord)
  | vFdot2 (w : VWord)
  | vCvt (w : VWord)
  | vQuant (w : VWord)
  | vDequant (w : VWord)
  | vPack (w : VWord)
  | vUnpack (w : VWord)
  | vRcp (w : VWord)
  | vRsq (w : VWord)
  | vSqrt (w : VWord)
  | vExp2 (w : VWord)
  | vLog2 (w : VWord)
  | vSin (w : VWord)
  | vCos (w : VWord)
  | vAct (w : VWord)
  | xShf (w : VWord)
  | xBfly (w : VWord)
  | xBcast (w : VWord)
  | xScan (w : VWord)
  | xRed (w : VWord)
  | xCompact (w : VWord)
  | voteAny (w : VWord)
  | voteAll (w : VWord)
  | voteBal (w : VWord)
  | mAnd (w : VWord)
  | mOr (w : VWord)
  | mXor (w : VWord)
  | mAndn (w : VWord)
  | mPopc (w : VWord)
  | mFfs (w : VWord)
  | mSet (w : VWord)
  | ldG (w : MWord)
  | stG (w : MWord)
  | ldS (w : MWord)
  | stS (w : MWord)
  | ldL (w : MWord)
  | stL (w : MWord)
  | ldX (w : MWord)
  | atAdd (w : VWord)
  | atSub (w : VWord)
  | atMin (w : VWord)
  | atMax (w : VWord)
  | atAnd (w : VWord)
  | atOr (w : VWord)
  | atXor (w : VWord)
  | atXchg (w : VWord)
  | atCas (w : VWord)
  | atCas2 (w : VWord)
  | atFadd (w : VWord)
  | fence (w : SWord)
  | barInit (w : SWord)
  | barArv (w : SWord)
  | barWait (w : SWord)
  | barSync (w : SWord)
  | cbar (w : SWord)
  | lrInit (w : SWord)
  | lrAwait (w : SWord)
  | lrRel (w : SWord)
  | lrFill (w : SWord)
  | lrFillPut (w : SWord)
  | cpIn (w : SWord)
  | cpOut (w : SWord)
  | cpG (w : SWord)
  | cpHalo (w : SWord)
  | cpMc (w : SWord)
  | ccPrf (w : SWord)
  | ccWb (w : SWord)
  | ccInv (w : SWord)
  | ccWays (w : SWord)
  | mxMma (w : XWord)
  | mxMmaf (w : XWord)
  | mxZero (w : XWord)
  | mxLd (w : XWord)
  | mxSt (w : XWord)
  | mxWait (w : XWord)
  | mxRel (w : XWord)
  | plTake (w : XWord)
  | plPass (w : XWord)
  | plPassFree (w : XWord)
  | spOpen (w : SWord)
  | spKeep (w : SWord)
  | spDrop (w : SWord)
  | fbSet (w : SWord)
  | fbTab (w : VWord)
  | fbTabSet (w : VWord)
  | ebSend (w : SWord)
  | paOpen (w : SWord)
  | paOpenRp (w : SWord)
  | paClose (w : SWord)
  | acGet (w : SWord)
  | acWait (w : SWord)
  | wvCommit (w : SWord)
  | rngDraw (w : VWord)
  | twXin (w : TWord)
  | twXout (w : TWord)
  | twRun (w : TWord)
  | twWait (w : TWord)
  | farAdd (w : VWord)
  | farFence (w : TWord)
  | caneVAdd (c : CaneCmd)
  | caneVSub (c : CaneCmd)
  | caneVMul (c : CaneCmd)
  | caneVMad (c : CaneCmd)
  | caneVMin (c : CaneCmd)
  | caneVMax (c : CaneCmd)
  | caneVAnd (c : CaneCmd)
  | caneVOr (c : CaneCmd)
  | caneVXor (c : CaneCmd)
  | caneVAndn (c : CaneCmd)
  | caneVShl (c : CaneCmd)
  | caneVShr (c : CaneCmd)
  | caneVSar (c : CaneCmd)
  | caneVCmp (c : CaneCmd)
  | caneVMov (c : CaneCmd)
  | caneVLi (c : CaneCmd)
  | cPush (c : CaneCmd)
  | cElse (c : CaneCmd)
  | cPop (c : CaneCmd)
  | cBfa (c : CaneCmd)
  | netSend (w : NWord)
  | netGet (w : NWord)
  | netArm (w : NWord)
  | cntInit (w : NWord)
  | cntWait (w : NWord)
  | cntGet (w : NWord)
  | collStep (w : NWord)
  | trap (w : YWord)
  | rte (w : YWord)
  | sysGet (w : YWord)
  | sysSet (w : YWord)
  | bkpt (w : YWord)
  | prio (w : YWord)
  | nop (w : YWord)
  | halt (w : YWord)
  | pairVAdd (h : Half)
  | pairVSub (h : Half)
  | pairVMul (h : Half)
  | pairVMulh (h : Half)
  | pairVAbsd (h : Half)
  | pairVMin (h : Half)
  | pairVMax (h : Half)
  | pairVAnd (h : Half)
  | pairVOr (h : Half)
  | pairVXor (h : Half)
  | pairVAndn (h : Half)
  | pairVShl (h : Half)
  | pairVShr (h : Half)
  | pairVSar (h : Half)
  | pairVMov (h : Half)
  | pairVClz (h : Half)
  | pairVPopc (h : Half)
  | pairVFadd (h : Half)
  | pairVFsub (h : Half)
  | pairVFmul (h : Half)
  | pairVFmin (h : Half)
  | pairVFmax (h : Half)
  | pairVFrnd (h : Half)
  | pairVFclass (h : Half)
  | atinv (w : YWord)
  | accessTableInvalidationDone
  | wake (w : YWord)
  | launchRecordCheck (ctx queue : Nat)
  | gridStart (ctx queue : Nat)
  | clusterPlacement (pick : Nat)
  | taskGroupFormation (ctx grid core : Nat)
  | gatherWindowExpiry (ctx grid core : Nat)
  | taskGroupPlacement (core pick : Nat)
  | taskSteal (ctx core : Nat)
  | candidatePick (core part : Nat)
  | icacheFill (gid : Nat) (slotB : Bool)
  | spinFloorTimeout (gid : Nat) (slotB : Bool)
  | loadResultWrite (id : Nat) (replaced : Bool)
  | wcbTimeout (id : Nat)
  | homeStorePerform (id : Nat)
  | l1RecallReceive (id : Nat)
  | recallBeat (die : Nat)
  | beatReceive (core die : Nat)
  | beatTimeout (core die : Nat)
  | homeAtomicPerform (id : Nat)
  | l2Fill (id : Nat) (bad : Bool)
  | towerWriteAck (id : Nat)
  | farAtomicAtHome (id : Nat)
  | farAtomicTowerCheck (id : Nat)
  | farAtomicAnswer (id : Nat)
  | farAtomicApply (id : Nat)
  | pageWalkComplete (id : Nat)
  | sfuResultWrite (id : Nat)
  | fusionWindowTimeout (id : Nat)
  | matrixPassStart (id : Nat)
  | matrixPassWriteback (id : Nat)
  | tileTransferComplete (id : Nat)
  | copyComplete (run : CopyRun)
  | copyFault (id : Nat)
  | haloSourceRead (run : CopyRun)
  | cpMcDelivery (run : CopyRun) (team : Nat)
  | regroupPair (g h : Nat)
  | napTimeout (gid : Nat) (slotB : Bool)
  | serviceEventSignal (gid : Nat)
  | groupRetire (gid : Nat)
  | taskCounterAdd (id : Nat)
  | gridDoneAdd (ctx grid : Nat)
  | towerBlockComplete (id : Nat)
  | towerScrub (tower : Nat) (bad : Option (Nat × Nat))
  | towerCaneSwitch (tower pair : Nat)
  | netReceive (m : NetMsg)
  | receiveCounterIncrement (id : Nat)
  | netGetLand (id : Nat) (data : List Byte)
  | errorArrival (id : Nat)
  | stationOperation (id : Nat)
  | collChunkFireAtRetire (team : Nat)
  | collResultLand (team : Nat) (msg : List Byte)
  | collAbortReceive (team : Nat) (msg : List Byte)
  | holdSend (ctx : Nat)
  | reductionMessageDrop (hdr : List Byte)
  | unsupportedPacketDrop (port : Nat)
  | portLinkDrop (port : Nat)
  | portRetryTimeout (port : Nat)
  | portRetrain (port : Nat)
  | destinationUnreachable (id : Nat) (failed : Option Nat)
  | preemptSave (ctx : Nat)
  | watchdogExpiry (ctx : Nat)
  | externalWaitTimeout (gid : Nat) (slotB : Bool)
  | culletSwap (u : CulletUnit)
  | timeSyncLoss (die : Nat)
  | sensorSample (readings : List Nat)
  | powerGood (refetched : List Byte)
  | functionReady (entry : Nat)
  | powerOff
  | firmwareStage (image : List Byte) (cmd : StageCmd)
  | firmwareCommit (cmd : CommitCmd)
  | operatorKeyWrite (key : Nat) (viaLink : Bool) (sig : Nat)
  | jobSetup (msg : List Byte)
  | contextCreate (msg : List Byte)
  | contextDestroy (msg : List Byte)
  | caneGrant (msg : List Byte)
  | caneReturn (msg : List Byte)
  | memoryMap (msg : List Byte)
  | memoryUnmap (msg : List Byte)
  | memoryWrite (msg : List Byte)
  | memoryRead (msg : List Byte)
  | launchQueueWrite (msg : List Byte)
  | treeCreate (msg : List Byte)
  | treeFree (msg : List Byte)
  | preEmpt (msg : List Byte)
  | resume (msg : List Byte)
  | telemetry (msg : List Byte)
  | attest (msg : List Byte)
  | power (msg : List Byte)
  | breakpointResume (msg : List Byte)
  | completionTimePassed
  | remoteGetRequest (m : GetReq)
  | cxlWriteAck (id : Nat)
  | remoteSendSourceRelease (id : Nat)
  | remoteStoreAck (id : Nat)
  | malformedServiceMessage (msg : List Byte)
  deriving DecidableEq, Repr

end Sys2Proof
end

