-- ==== Sys2Proof/Decode.lean ====
section
/-! DEFINITION. Decoding (R207, R216, R222 to R232, R364): total functions from bits to an instruction or nothing, and
after them the encoders, written from the same layouts. A word that decodes may still be illegal: the checks of R463
step 2 are in Machine/Check.lean, because an illegal word takes an exception and is no decoding failure. -/

namespace Sys2Proof

/-- Bits [lo + len - 1 : lo] of a word (R2, R5). -/
abbrev bits (w : W64) (lo len : Nat) : BitVec len := w.extractLsb' lo len

/-- The vector word's fields (R216). -/
def decV (w : W64) : VWord :=
  { sw := w.getLsbD 55, msel := bits w 52 3, rows := bits w 50 2, cols := bits w 48 2, d := bits w 39 9, a := bits w 30 9,
    b := bits w 21 9, c := bits w 12 9, ty := bits w 7 5, fn := bits w 0 7 }

/-- The S format's fields, by its I bit (R222). -/
def decS (w : W64) : SWord :=
  { sw := w.getLsbD 55, msel := bits w 52 3, d := bits w 45 6, a := bits w 39 6,
    src := if w.getLsbD 51 then .imm (bits w 7 32) else .reg (bits w 33 6) (bits w 27 6) (bits w 7 20), f7 := bits w 0 7 }

/-- The C format's fields (R223). -/
def decC (w : W64) : CWord :=
  { sw := w.getLsbD 55, msel := bits w 52 3, ra := bits w 46 6, cf := bits w 40 6, off := bits w 0 40 }

/-- The M format's fields (R224). -/
def decM (w : W64) : MWord :=
  { sw := w.getLsbD 55, msel := bits w 52 3, data := bits w 43 9, index := bits w 34 9, base := bits w 29 5, off := bits w 9 20,
    width := bits w 7 2, order := bits w 5 2, scope := bits w 2 3, hint := bits w 0 2 }

/-- The X format's fields (R226). -/
def decX (w : W64) : XWord :=
  { sw := w.getLsbD 55, msel := bits w 52 3, tile := bits w 47 5, a := bits w 38 9, base := bits w 32 6, off := bits w 12 20,
    slot := bits w 9 3, wa := bits w 7 2, wb := bits w 5 2, bit4 := w.getLsbD 4, sat := w.getLsbD 3, mix := w.getLsbD 2,
    rsv := bits w 0 2 }

/-- The T format's fields (R227). -/
def decT (w : W64) : TWord :=
  { sw := w.getLsbD 55, msel := bits w 52 3, sa := bits w 46 6, sb := bits w 40 6, sc := bits w 34 6, start := bits w 29 5,
    row := bits w 19 10, wm1 := bits w 13 6, ty := bits w 8 5, f8 := bits w 0 8 }

/-- The N format's fields (R227). -/
def decN (w : W64) : NWord :=
  { sw := w.getLsbD 55, msel := bits w 52 3, sa := bits w 46 6, sb := bits w 40 6, sc := bits w 34 6, sd := bits w 28 6,
    dev := bits w 12 16, f12 := bits w 0 12 }

/-- The Y format's fields (R228). -/
def decY (w : W64) : YWord :=
  { sw := w.getLsbD 55, msel := bits w 52 3, d := bits w 46 6, a := bits w 40 6, sreg := bits w 24 16, imm24 := bits w 0 24 }

/-- The fields of one half of a pair word (R229). -/
def decHalf (h : BitVec 32) : Half :=
  { ctype := h.extractLsb' 23 4, rsv := h.extractLsb' 21 2, d := h.extractLsb' 14 7, a := h.extractLsb' 7 7,
    b := h.extractLsb' 0 7 }

/-- A cane command's fields (R364). -/
def decCaneCmd (w : W64) : CaneCmd :=
  { d := bits w 46 10, a := bits w 36 10, b := bits w 26 10, wm1 := bits w 20 6, wam1 := bits w 14 6, wbm1 := bits w 8 6,
    i := w.getLsbD 7, s := w.getLsbD 6, sat := w.getLsbD 5, cc := bits w 2 3, rsv := bits w 0 2 }

/-- The major opcode of a word (R216). -/
def majorOp (w : W64) : Nat := (bits w 56 8).toNat

/-- A core word by its major opcode (R232). `none`: an unassigned opcode, or 0xD8 to 0xDB, which only the cane
sequencer decodes (R233). -/
def decodeWord (w : W64) : Option Instr :=
  match majorOp w with
  | 0x01 => some (.sAdd (decS w))
  | 0x02 => some (.sSub (decS w))
  | 0x03 => some (.sMul (decS w))
  | 0x04 => some (.sMulh (decS w))
  | 0x05 => some (.sDiv (decS w))
  | 0x06 => some (.sRem (decS w))
  | 0x07 => some (.sAnd (decS w))
  | 0x08 => some (.sOr (decS w))
  | 0x09 => some (.sXor (decS w))
  | 0x0A => some (.sAndn (decS w))
  | 0x0B => some (.sShl (decS w))
  | 0x0C => some (.sShr (decS w))
  | 0x0D => some (.sSar (decS w))
  | 0x0E => some (.sMin (decS w))
  | 0x0F => some (.sMax (decS w))
  | 0x10 => some (.sClz (decS w))
  | 0x11 => some (.sPopc (decS w))
  | 0x12 => some (.sBfx (decS w))
  | 0x13 => some (.sBfi (decS w))
  | 0x14 => some (.sSxt (decS w))
  | 0x15 => some (.sZxt (decS w))
  | 0x16 => some (.sCmp (decS w))
  | 0x17 => some (.sSel (decS w))
  | 0x18 => some (.sMov (decS w))
  | 0x19 => some (.sLi (decS w))
  | 0x1A => some (.sLih (decS w))
  | 0x1B => some (.sLea (decS w))
  | 0x1C => some (.sSr (decS w))
  | 0x1D => some (.br (decC w))
  | 0x1E => some (.bc (decC w))
  | 0x1F => some (.bv (decC w))
  | 0x20 => some (.join (decC w))
  | 0x21 => some (.bx (decS w))
  | 0x22 => some (.bt (decC w))
  | 0x23 => some (.call (decC w))
  | 0x24 => some (.callx (decS w))
  | 0x25 => some (.ret (decS w))
  | 0x26 => some (.loop (decC w))
  | 0x27 => some (.exit (decS w))
  | 0x28 => some (.spawn (decV w))
  | 0x29 => some (.launch (decS w))
  | 0x2A => some (.regroup (decV w))
  | 0x2B => some (.yield (decS w))
  | 0x2C => some (.nap (decS w))
  | 0x2D => some (.ipf (decC w))
  | 0x2E => some (.ipin (decC w))
  | 0x2F => some (.iunpin (decC w))
  | 0x30 => some (.vAdd (decV w))
  | 0x31 => some (.vSub (decV w))
  | 0x32 => some (.vMul (decV w))
  | 0x33 => some (.vMulh (decV w))
  | 0x34 => some (.vMad (decV w))
  | 0x35 => some (.vAbsd (decV w))
  | 0x36 => some (.vMin (decV w))
  | 0x37 => some (.vMax (decV w))
  | 0x38 => some (.vAnd (decV w))
  | 0x39 => some (.vOr (decV w))
  | 0x3A => some (.vXor (decV w))
  | 0x3B => some (.vAndn (decV w))
  | 0x3C => some (.vShl (decV w))
  | 0x3D => some (.vShr (decV w))
  | 0x3E => some (.vSar (decV w))
  | 0x3F => some (.vClz (decV w))
  | 0x40 => some (.vPopc (decV w))
  | 0x41 => some (.vBfx (decV w))
  | 0x42 => some (.vBfi (decV w))
  | 0x43 => some (.vSel (decV w))
  | 0x44 => some (.vCmp (decV w))
  | 0x45 => some (.vMov (decV w))
  | 0x46 => some (.vLi (decV w))
  | 0x47 => some (.vFroms (decV w))
  | 0x48 => some (.vTos (decV w))
  | 0x49 => some (.vFadd (decV w))
  | 0x4A => some (.vFsub (decV w))
  | 0x4B => some (.vFmul (decV w))
  | 0x4C => some (.vFma (decV w))
  | 0x4D => some (.vFmin (decV w))
  | 0x4E => some (.vFmax (decV w))
  | 0x4F => some (.vFcmp (decV w))
  | 0x50 => some (.vFrnd (decV w))
  | 0x51 => some (.vFclass (decV w))
  | 0x52 => some (.vFdot2 (decV w))
  | 0x53 => some (.vCvt (decV w))
  | 0x54 => some (.vQuant (decV w))
  | 0x55 => some (.vDequant (decV w))
  | 0x56 => some (.vPack (decV w))
  | 0x57 => some (.vUnpack (decV w))
  | 0x58 => some (.vRcp (decV w))
  | 0x59 => some (.vRsq (decV w))
  | 0x5A => some (.vSqrt (decV w))
  | 0x5B => some (.vExp2 (decV w))
  | 0x5C => some (.vLog2 (decV w))
  | 0x5D => some (.vSin (decV w))
  | 0x5E => some (.vCos (decV w))
  | 0x5F => some (.vAct (decV w))
  | 0x60 => some (.xShf (decV w))
  | 0x61 => some (.xBfly (decV w))
  | 0x62 => some (.xBcast (decV w))
  | 0x63 => some (.xScan (decV w))
  | 0x64 => some (.xRed (decV w))
  | 0x65 => some (.xCompact (decV w))
  | 0x66 => some (.voteAny (decV w))
  | 0x67 => some (.voteAll (decV w))
  | 0x68 => some (.voteBal (decV w))
  | 0x69 => some (.mAnd (decV w))
  | 0x6A => some (.mOr (decV w))
  | 0x6B => some (.mXor (decV w))
  | 0x6C => some (.mAndn (decV w))
  | 0x6D => some (.mPopc (decV w))
  | 0x6E => some (.mFfs (decV w))
  | 0x6F => some (.mSet (decV w))
  | 0x70 => some (.ldG (decM w))
  | 0x71 => some (.stG (decM w))
  | 0x72 => some (.ldS (decM w))
  | 0x73 => some (.stS (decM w))
  | 0x74 => some (.ldL (decM w))
  | 0x75 => some (.stL (decM w))
  | 0x76 => some (.ldX (decM w))
  | 0x77 => some (.atAdd (decV w))
  | 0x78 => some (.atSub (decV w))
  | 0x79 => some (.atMin (decV w))
  | 0x7A => some (.atMax (decV w))
  | 0x7B => some (.atAnd (decV w))
  | 0x7C => some (.atOr (decV w))
  | 0x7D => some (.atXor (decV w))
  | 0x7E => some (.atXchg (decV w))
  | 0x7F => some (.atCas (decV w))
  | 0x80 => some (.atCas2 (decV w))
  | 0x81 => some (.atFadd (decV w))
  | 0x82 => some (.fence (decS w))
  | 0x83 => some (.barInit (decS w))
  | 0x84 => some (.barArv (decS w))
  | 0x85 => some (.barWait (decS w))
  | 0x86 => some (.barSync (decS w))
  | 0x87 => some (.cbar (decS w))
  | 0x90 => some (.lrInit (decS w))
  | 0x91 => some (.lrAwait (decS w))
  | 0x92 => some (.lrRel (decS w))
  | 0x93 => some (if (decS w).f7.getLsbD 0 then .lrFillPut (decS w) else .lrFill (decS w))
  | 0x94 => some (.cpIn (decS w))
  | 0x95 => some (.cpOut (decS w))
  | 0x96 => some (.cpG (decS w))
  | 0x97 => some (.cpHalo (decS w))
  | 0x98 => some (.cpMc (decS w))
  | 0x99 => some (.ccPrf (decS w))
  | 0x9A => some (.ccWb (decS w))
  | 0x9B => some (.ccInv (decS w))
  | 0x9C => some (.ccWays (decS w))
  | 0xB0 => some (.mxMma (decX w))
  | 0xB1 => some (.mxMmaf (decX w))
  | 0xB2 => some (.mxZero (decX w))
  | 0xB3 => some (.mxLd (decX w))
  | 0xB4 => some (.mxSt (decX w))
  | 0xB5 => some (.mxWait (decX w))
  | 0xB6 => some (.mxRel (decX w))
  | 0xB7 => some (.plTake (decX w))
  | 0xB8 => some (if (decX w).bit4 then .plPassFree (decX w) else .plPass (decX w))
  | 0xC0 => some (.spOpen (decS w))
  | 0xC1 => some (.spKeep (decS w))
  | 0xC2 => some (.spDrop (decS w))
  | 0xC3 => some (.fbSet (decS w))
  | 0xC4 => some (if (decV w).fn.getLsbD 0 then .fbTabSet (decV w) else .fbTab (decV w))
  | 0xC5 => some (.ebSend (decS w))
  | 0xC6 => some (if (decS w).f7.getLsbD 0 then .paOpenRp (decS w) else .paOpen (decS w))
  | 0xC7 => some (.paClose (decS w))
  | 0xC8 => some (.acGet (decS w))
  | 0xC9 => some (.acWait (decS w))
  | 0xCA => some (.wvCommit (decS w))
  | 0xCB => some (.rngDraw (decV w))
  | 0xD0 => some (.twXin (decT w))
  | 0xD1 => some (.twXout (decT w))
  | 0xD2 => some (.twRun (decT w))
  | 0xD3 => some (.twWait (decT w))
  | 0xD4 => some (.farAdd (decV w))
  | 0xD5 => some (.farFence (decT w))
  | 0xE0 => some (.netSend (decN w))
  | 0xE1 => some (.netGet (decN w))
  | 0xE2 => some (.netArm (decN w))
  | 0xE3 => some (.cntInit (decN w))
  | 0xE4 => some (.cntWait (decN w))
  | 0xE5 => some (.cntGet (decN w))
  | 0xE6 => some (.collStep (decN w))
  | 0xF0 => some (.trap (decY w))
  | 0xF1 => some (.rte (decY w))
  | 0xF2 => some (.sysGet (decY w))
  | 0xF3 => some (if (decY w).sreg = 0x8011#16 then .atinv (decY w)
      else if (decY w).sreg = 0x8021#16 then .wake (decY w) else .sysSet (decY w))
  | 0xF4 => some (.bkpt (decY w))
  | 0xF5 => some (.prio (decY w))
  | 0xF6 => some (.nop (decY w))
  | 0xF7 => some (.halt (decY w))
  | _ => none

/-- A command of the cane sequencer (R364, R365). -/
def decodeCane (w : W64) : Option Instr :=
  match majorOp w with
  | 0x30 => some (.caneVAdd (decCaneCmd w))
  | 0x31 => some (.caneVSub (decCaneCmd w))
  | 0x32 => some (.caneVMul (decCaneCmd w))
  | 0x34 => some (.caneVMad (decCaneCmd w))
  | 0x36 => some (.caneVMin (decCaneCmd w))
  | 0x37 => some (.caneVMax (decCaneCmd w))
  | 0x38 => some (.caneVAnd (decCaneCmd w))
  | 0x39 => some (.caneVOr (decCaneCmd w))
  | 0x3A => some (.caneVXor (decCaneCmd w))
  | 0x3B => some (.caneVAndn (decCaneCmd w))
  | 0x3C => some (.caneVShl (decCaneCmd w))
  | 0x3D => some (.caneVShr (decCaneCmd w))
  | 0x3E => some (.caneVSar (decCaneCmd w))
  | 0x44 => some (.caneVCmp (decCaneCmd w))
  | 0x45 => some (.caneVMov (decCaneCmd w))
  | 0x46 => some (.caneVLi (decCaneCmd w))
  | 0xD8 => some (.cPush (decCaneCmd w))
  | 0xD9 => some (.cElse (decCaneCmd w))
  | 0xDA => some (.cPop (decCaneCmd w))
  | 0xDB => some (.cBfa (decCaneCmd w))
  | _ => none

/-- One half of a pair word (R229, R230). -/
def decodeHalf (h : BitVec 32) : Option Instr :=
  match (h.extractLsb' 27 5).toNat with
  | 0 => some (.pairVAdd (decHalf h))
  | 1 => some (.pairVSub (decHalf h))
  | 2 => some (.pairVMul (decHalf h))
  | 3 => some (.pairVMulh (decHalf h))
  | 4 => some (.pairVAbsd (decHalf h))
  | 5 => some (.pairVMin (decHalf h))
  | 6 => some (.pairVMax (decHalf h))
  | 7 => some (.pairVAnd (decHalf h))
  | 8 => some (.pairVOr (decHalf h))
  | 9 => some (.pairVXor (decHalf h))
  | 10 => some (.pairVAndn (decHalf h))
  | 11 => some (.pairVShl (decHalf h))
  | 12 => some (.pairVShr (decHalf h))
  | 13 => some (.pairVSar (decHalf h))
  | 14 => some (.pairVMov (decHalf h))
  | 15 => some (.pairVClz (decHalf h))
  | 16 => some (.pairVPopc (decHalf h))
  | 17 => some (.pairVFadd (decHalf h))
  | 18 => some (.pairVFsub (decHalf h))
  | 19 => some (.pairVFmul (decHalf h))
  | 20 => some (.pairVFmin (decHalf h))
  | 21 => some (.pairVFmax (decHalf h))
  | 22 => some (.pairVFrnd (decHalf h))
  | 23 => some (.pairVFclass (decHalf h))
  | _ => none

/-- The instruction of a table row's bits: a 32-bit row is a pair half, any other a core word or, where no core decodes it, a cane
command. -/
def decodeTableWord (nbits w : Nat) : Option Instr :=
  if nbits ≤ 32 then decodeHalf (BitVec.ofNat 32 w)
  else match decodeWord (BitVec.ofNat 64 w) with
    | some i => some i
    | none => decodeCane (BitVec.ofNat 64 w)

/-! The encoders. -/

/-- A flag as one bit. -/
def bit1 (b : Bool) : BitVec 1 := BitVec.ofBool b

def encV (op : BitVec 8) (w : VWord) : W64 :=
  op ++ bit1 w.sw ++ w.msel ++ w.rows ++ w.cols ++ w.d ++ w.a ++ w.b ++ w.c ++ w.ty ++ w.fn

def encS (op : BitVec 8) (w : SWord) : W64 :=
  match w.src with
  | .reg b c imm => op ++ bit1 w.sw ++ w.msel ++ 0#1 ++ w.d ++ w.a ++ b ++ c ++ imm ++ w.f7
  | .imm imm => op ++ bit1 w.sw ++ w.msel ++ 1#1 ++ w.d ++ w.a ++ imm ++ w.f7

def encC (op : BitVec 8) (w : CWord) : W64 := op ++ bit1 w.sw ++ w.msel ++ w.ra ++ w.cf ++ w.off

def encM (op : BitVec 8) (w : MWord) : W64 :=
  op ++ bit1 w.sw ++ w.msel ++ w.data ++ w.index ++ w.base ++ w.off ++ w.width ++ w.order ++ w.scope ++ w.hint

def encX (op : BitVec 8) (w : XWord) : W64 :=
  op ++ bit1 w.sw ++ w.msel ++ w.tile ++ w.a ++ w.base ++ w.off ++ w.slot ++ w.wa ++ w.wb ++ bit1 w.bit4 ++ bit1 w.sat ++
    bit1 w.mix ++ w.rsv

def encT (op : BitVec 8) (w : TWord) : W64 :=
  op ++ bit1 w.sw ++ w.msel ++ w.sa ++ w.sb ++ w.sc ++ w.start ++ w.row ++ w.wm1 ++ w.ty ++ w.f8

def encN (op : BitVec 8) (w : NWord) : W64 :=
  op ++ bit1 w.sw ++ w.msel ++ w.sa ++ w.sb ++ w.sc ++ w.sd ++ w.dev ++ w.f12

def encY (op : BitVec 8) (w : YWord) : W64 :=
  op ++ bit1 w.sw ++ w.msel ++ w.d ++ w.a ++ w.sreg ++ w.imm24

def encHalf (cop : BitVec 5) (h : Half) : BitVec 32 := cop ++ h.ctype ++ h.rsv ++ h.d ++ h.a ++ h.b

def encCane (op : BitVec 8) (c : CaneCmd) : W64 :=
  op ++ c.d ++ c.a ++ c.b ++ c.wm1 ++ c.wam1 ++ c.wbm1 ++ bit1 c.i ++ bit1 c.s ++ bit1 c.sat ++ c.cc ++ c.rsv

/-- The encoding of an instruction: the 64-bit word, for a half its 32 bits; `none` for an event, which no word names. -/
def encode : Instr → Option W64
  | .sAdd w => some (encS 0x01 w)
  | .sSub w => some (encS 0x02 w)
  | .sMul w => some (encS 0x03 w)
  | .sMulh w => some (encS 0x04 w)
  | .sDiv w => some (encS 0x05 w)
  | .sRem w => some (encS 0x06 w)
  | .sAnd w => some (encS 0x07 w)
  | .sOr w => some (encS 0x08 w)
  | .sXor w => some (encS 0x09 w)
  | .sAndn w => some (encS 0x0A w)
  | .sShl w => some (encS 0x0B w)
  | .sShr w => some (encS 0x0C w)
  | .sSar w => some (encS 0x0D w)
  | .sMin w => some (encS 0x0E w)
  | .sMax w => some (encS 0x0F w)
  | .sClz w => some (encS 0x10 w)
  | .sPopc w => some (encS 0x11 w)
  | .sBfx w => some (encS 0x12 w)
  | .sBfi w => some (encS 0x13 w)
  | .sSxt w => some (encS 0x14 w)
  | .sZxt w => some (encS 0x15 w)
  | .sCmp w => some (encS 0x16 w)
  | .sSel w => some (encS 0x17 w)
  | .sMov w => some (encS 0x18 w)
  | .sLi w => some (encS 0x19 w)
  | .sLih w => some (encS 0x1A w)
  | .sLea w => some (encS 0x1B w)
  | .sSr w => some (encS 0x1C w)
  | .br w => some (encC 0x1D w)
  | .bc w => some (encC 0x1E w)
  | .bv w => some (encC 0x1F w)
  | .join w => some (encC 0x20 w)
  | .bx w => some (encS 0x21 w)
  | .bt w => some (encC 0x22 w)
  | .call w => some (encC 0x23 w)
  | .callx w => some (encS 0x24 w)
  | .ret w => some (encS 0x25 w)
  | .loop w => some (encC 0x26 w)
  | .exit w => some (encS 0x27 w)
  | .spawn w => some (encV 0x28 w)
  | .launch w => some (encS 0x29 w)
  | .regroup w => some (encV 0x2A w)
  | .yield w => some (encS 0x2B w)
  | .nap w => some (encS 0x2C w)
  | .ipf w => some (encC 0x2D w)
  | .ipin w => some (encC 0x2E w)
  | .iunpin w => some (encC 0x2F w)
  | .vAdd w => some (encV 0x30 w)
  | .vSub w => some (encV 0x31 w)
  | .vMul w => some (encV 0x32 w)
  | .vMulh w => some (encV 0x33 w)
  | .vMad w => some (encV 0x34 w)
  | .vAbsd w => some (encV 0x35 w)
  | .vMin w => some (encV 0x36 w)
  | .vMax w => some (encV 0x37 w)
  | .vAnd w => some (encV 0x38 w)
  | .vOr w => some (encV 0x39 w)
  | .vXor w => some (encV 0x3A w)
  | .vAndn w => some (encV 0x3B w)
  | .vShl w => some (encV 0x3C w)
  | .vShr w => some (encV 0x3D w)
  | .vSar w => some (encV 0x3E w)
  | .vClz w => some (encV 0x3F w)
  | .vPopc w => some (encV 0x40 w)
  | .vBfx w => some (encV 0x41 w)
  | .vBfi w => some (encV 0x42 w)
  | .vSel w => some (encV 0x43 w)
  | .vCmp w => some (encV 0x44 w)
  | .vMov w => some (encV 0x45 w)
  | .vLi w => some (encV 0x46 w)
  | .vFroms w => some (encV 0x47 w)
  | .vTos w => some (encV 0x48 w)
  | .vFadd w => some (encV 0x49 w)
  | .vFsub w => some (encV 0x4A w)
  | .vFmul w => some (encV 0x4B w)
  | .vFma w => some (encV 0x4C w)
  | .vFmin w => some (encV 0x4D w)
  | .vFmax w => some (encV 0x4E w)
  | .vFcmp w => some (encV 0x4F w)
  | .vFrnd w => some (encV 0x50 w)
  | .vFclass w => some (encV 0x51 w)
  | .vFdot2 w => some (encV 0x52 w)
  | .vCvt w => some (encV 0x53 w)
  | .vQuant w => some (encV 0x54 w)
  | .vDequant w => some (encV 0x55 w)
  | .vPack w => some (encV 0x56 w)
  | .vUnpack w => some (encV 0x57 w)
  | .vRcp w => some (encV 0x58 w)
  | .vRsq w => some (encV 0x59 w)
  | .vSqrt w => some (encV 0x5A w)
  | .vExp2 w => some (encV 0x5B w)
  | .vLog2 w => some (encV 0x5C w)
  | .vSin w => some (encV 0x5D w)
  | .vCos w => some (encV 0x5E w)
  | .vAct w => some (encV 0x5F w)
  | .xShf w => some (encV 0x60 w)
  | .xBfly w => some (encV 0x61 w)
  | .xBcast w => some (encV 0x62 w)
  | .xScan w => some (encV 0x63 w)
  | .xRed w => some (encV 0x64 w)
  | .xCompact w => some (encV 0x65 w)
  | .voteAny w => some (encV 0x66 w)
  | .voteAll w => some (encV 0x67 w)
  | .voteBal w => some (encV 0x68 w)
  | .mAnd w => some (encV 0x69 w)
  | .mOr w => some (encV 0x6A w)
  | .mXor w => some (encV 0x6B w)
  | .mAndn w => some (encV 0x6C w)
  | .mPopc w => some (encV 0x6D w)
  | .mFfs w => some (encV 0x6E w)
  | .mSet w => some (encV 0x6F w)
  | .ldG w => some (encM 0x70 w)
  | .stG w => some (encM 0x71 w)
  | .ldS w => some (encM 0x72 w)
  | .stS w => some (encM 0x73 w)
  | .ldL w => some (encM 0x74 w)
  | .stL w => some (encM 0x75 w)
  | .ldX w => some (encM 0x76 w)
  | .atAdd w => some (encV 0x77 w)
  | .atSub w => some (encV 0x78 w)
  | .atMin w => some (encV 0x79 w)
  | .atMax w => some (encV 0x7A w)
  | .atAnd w => some (encV 0x7B w)
  | .atOr w => some (encV 0x7C w)
  | .atXor w => some (encV 0x7D w)
  | .atXchg w => some (encV 0x7E w)
  | .atCas w => some (encV 0x7F w)
  | .atCas2 w => some (encV 0x80 w)
  | .atFadd w => some (encV 0x81 w)
  | .fence w => some (encS 0x82 w)
  | .barInit w => some (encS 0x83 w)
  | .barArv w => some (encS 0x84 w)
  | .barWait w => some (encS 0x85 w)
  | .barSync w => some (encS 0x86 w)
  | .cbar w => some (encS 0x87 w)
  | .lrInit w => some (encS 0x90 w)
  | .lrAwait w => some (encS 0x91 w)
  | .lrRel w => some (encS 0x92 w)
  | .lrFill w => some (encS 0x93 w)
  | .lrFillPut w => some (encS 0x93 w)
  | .cpIn w => some (encS 0x94 w)
  | .cpOut w => some (encS 0x95 w)
  | .cpG w => some (encS 0x96 w)
  | .cpHalo w => some (encS 0x97 w)
  | .cpMc w => some (encS 0x98 w)
  | .ccPrf w => some (encS 0x99 w)
  | .ccWb w => some (encS 0x9A w)
  | .ccInv w => some (encS 0x9B w)
  | .ccWays w => some (encS 0x9C w)
  | .mxMma w => some (encX 0xB0 w)
  | .mxMmaf w => some (encX 0xB1 w)
  | .mxZero w => some (encX 0xB2 w)
  | .mxLd w => some (encX 0xB3 w)
  | .mxSt w => some (encX 0xB4 w)
  | .mxWait w => some (encX 0xB5 w)
  | .mxRel w => some (encX 0xB6 w)
  | .plTake w => some (encX 0xB7 w)
  | .plPass w => some (encX 0xB8 w)
  | .plPassFree w => some (encX 0xB8 w)
  | .spOpen w => some (encS 0xC0 w)
  | .spKeep w => some (encS 0xC1 w)
  | .spDrop w => some (encS 0xC2 w)
  | .fbSet w => some (encS 0xC3 w)
  | .fbTab w => some (encV 0xC4 w)
  | .fbTabSet w => some (encV 0xC4 w)
  | .ebSend w => some (encS 0xC5 w)
  | .paOpen w => some (encS 0xC6 w)
  | .paOpenRp w => some (encS 0xC6 w)
  | .paClose w => some (encS 0xC7 w)
  | .acGet w => some (encS 0xC8 w)
  | .acWait w => some (encS 0xC9 w)
  | .wvCommit w => some (encS 0xCA w)
  | .rngDraw w => some (encV 0xCB w)
  | .twXin w => some (encT 0xD0 w)
  | .twXout w => some (encT 0xD1 w)
  | .twRun w => some (encT 0xD2 w)
  | .twWait w => some (encT 0xD3 w)
  | .farAdd w => some (encV 0xD4 w)
  | .farFence w => some (encT 0xD5 w)
  | .caneVAdd q => some (encCane 0x30 q)
  | .caneVSub q => some (encCane 0x31 q)
  | .caneVMul q => some (encCane 0x32 q)
  | .caneVMad q => some (encCane 0x34 q)
  | .caneVMin q => some (encCane 0x36 q)
  | .caneVMax q => some (encCane 0x37 q)
  | .caneVAnd q => some (encCane 0x38 q)
  | .caneVOr q => some (encCane 0x39 q)
  | .caneVXor q => some (encCane 0x3A q)
  | .caneVAndn q => some (encCane 0x3B q)
  | .caneVShl q => some (encCane 0x3C q)
  | .caneVShr q => some (encCane 0x3D q)
  | .caneVSar q => some (encCane 0x3E q)
  | .caneVCmp q => some (encCane 0x44 q)
  | .caneVMov q => some (encCane 0x45 q)
  | .caneVLi q => some (encCane 0x46 q)
  | .cPush q => some (encCane 0xD8 q)
  | .cElse q => some (encCane 0xD9 q)
  | .cPop q => some (encCane 0xDA q)
  | .cBfa q => some (encCane 0xDB q)
  | .netSend w => some (encN 0xE0 w)
  | .netGet w => some (encN 0xE1 w)
  | .netArm w => some (encN 0xE2 w)
  | .cntInit w => some (encN 0xE3 w)
  | .cntWait w => some (encN 0xE4 w)
  | .cntGet w => some (encN 0xE5 w)
  | .collStep w => some (encN 0xE6 w)
  | .trap w => some (encY 0xF0 w)
  | .rte w => some (encY 0xF1 w)
  | .sysGet w => some (encY 0xF2 w)
  | .sysSet w => some (encY 0xF3 w)
  | .bkpt w => some (encY 0xF4 w)
  | .prio w => some (encY 0xF5 w)
  | .nop w => some (encY 0xF6 w)
  | .halt w => some (encY 0xF7 w)
  | .pairVAdd h => some ((encHalf 0 h).setWidth 64)
  | .pairVSub h => some ((encHalf 1 h).setWidth 64)
  | .pairVMul h => some ((encHalf 2 h).setWidth 64)
  | .pairVMulh h => some ((encHalf 3 h).setWidth 64)
  | .pairVAbsd h => some ((encHalf 4 h).setWidth 64)
  | .pairVMin h => some ((encHalf 5 h).setWidth 64)
  | .pairVMax h => some ((encHalf 6 h).setWidth 64)
  | .pairVAnd h => some ((encHalf 7 h).setWidth 64)
  | .pairVOr h => some ((encHalf 8 h).setWidth 64)
  | .pairVXor h => some ((encHalf 9 h).setWidth 64)
  | .pairVAndn h => some ((encHalf 10 h).setWidth 64)
  | .pairVShl h => some ((encHalf 11 h).setWidth 64)
  | .pairVShr h => some ((encHalf 12 h).setWidth 64)
  | .pairVSar h => some ((encHalf 13 h).setWidth 64)
  | .pairVMov h => some ((encHalf 14 h).setWidth 64)
  | .pairVClz h => some ((encHalf 15 h).setWidth 64)
  | .pairVPopc h => some ((encHalf 16 h).setWidth 64)
  | .pairVFadd h => some ((encHalf 17 h).setWidth 64)
  | .pairVFsub h => some ((encHalf 18 h).setWidth 64)
  | .pairVFmul h => some ((encHalf 19 h).setWidth 64)
  | .pairVFmin h => some ((encHalf 20 h).setWidth 64)
  | .pairVFmax h => some ((encHalf 21 h).setWidth 64)
  | .pairVFrnd h => some ((encHalf 22 h).setWidth 64)
  | .pairVFclass h => some ((encHalf 23 h).setWidth 64)
  | .atinv w => some (encY 0xF3 w)
  | .accessTableInvalidationDone => none
  | .wake w => some (encY 0xF3 w)
  | .launchRecordCheck _ _ => none
  | .gridStart _ _ => none
  | .clusterPlacement _ => none
  | .taskGroupFormation _ _ _ => none
  | .gatherWindowExpiry _ _ _ => none
  | .taskGroupPlacement _ _ => none
  | .taskSteal _ _ => none
  | .candidatePick _ _ => none
  | .icacheFill _ _ => none
  | .spinFloorTimeout _ _ => none
  | .loadResultWrite _ _ => none
  | .wcbTimeout _ => none
  | .homeStorePerform _ => none
  | .l1RecallReceive _ => none
  | .recallBeat _ => none
  | .beatReceive _ _ => none
  | .beatTimeout _ _ => none
  | .homeAtomicPerform _ => none
  | .l2Fill _ _ => none
  | .towerWriteAck _ => none
  | .farAtomicAtHome _ => none
  | .farAtomicTowerCheck _ => none
  | .farAtomicAnswer _ => none
  | .farAtomicApply _ => none
  | .pageWalkComplete _ => none
  | .sfuResultWrite _ => none
  | .fusionWindowTimeout _ => none
  | .matrixPassStart _ => none
  | .matrixPassWriteback _ => none
  | .tileTransferComplete _ => none
  | .copyComplete _ => none
  | .copyFault _ => none
  | .haloSourceRead _ => none
  | .cpMcDelivery _ _ => none
  | .regroupPair _ _ => none
  | .napTimeout _ _ => none
  | .serviceEventSignal _ => none
  | .groupRetire _ => none
  | .taskCounterAdd _ => none
  | .gridDoneAdd _ _ => none
  | .towerBlockComplete _ => none
  | .towerScrub _ _ => none
  | .towerCaneSwitch _ _ => none
  | .netReceive _ => none
  | .receiveCounterIncrement _ => none
  | .netGetLand _ _ => none
  | .errorArrival _ => none
  | .stationOperation _ => none
  | .collChunkFireAtRetire _ => none
  | .collResultLand _ _ => none
  | .collAbortReceive _ _ => none
  | .holdSend _ => none
  | .reductionMessageDrop _ => none
  | .unsupportedPacketDrop _ => none
  | .portLinkDrop _ => none
  | .portRetryTimeout _ => none
  | .portRetrain _ => none
  | .destinationUnreachable _ _ => none
  | .preemptSave _ => none
  | .watchdogExpiry _ => none
  | .externalWaitTimeout _ _ => none
  | .culletSwap _ => none
  | .timeSyncLoss _ => none
  | .sensorSample _ => none
  | .powerGood _ => none
  | .functionReady _ => none
  | .powerOff => none
  | .firmwareStage _ _ => none
  | .firmwareCommit _ => none
  | .operatorKeyWrite _ _ _ => none
  | .jobSetup _ => none
  | .contextCreate _ => none
  | .contextDestroy _ => none
  | .caneGrant _ => none
  | .caneReturn _ => none
  | .memoryMap _ => none
  | .memoryUnmap _ => none
  | .memoryWrite _ => none
  | .memoryRead _ => none
  | .launchQueueWrite _ => none
  | .treeCreate _ => none
  | .treeFree _ => none
  | .preEmpt _ => none
  | .resume _ => none
  | .telemetry _ => none
  | .attest _ => none
  | .power _ => none
  | .breakpointResume _ => none
  | .completionTimePassed => none
  | .remoteGetRequest _ => none
  | .cxlWriteAck _ => none
  | .remoteSendSourceRelease _ => none
  | .remoteStoreAck _ => none
  | .malformedServiceMessage _ => none

end Sys2Proof
end

