-- ==== Sys2Proof/Machine/Bits.lean ====
section
/-! DEFINITION. The operations on sparse stores, and the bit-field, sign-extension and byte-order helpers every other
file uses (R2, R3, R5, R28). -/

namespace Sys2Proof.Machine

/-- The value a sparse store holds at a key; `d` is what an unlisted key reads as. -/
def fget {β : Type} (d : β) (k : Nat) : FMap β → β
  | [] => d
  | (k', v) :: r => if k = k' then v else fget d k r

/-- A sparse store with nothing at a key. -/
def fdel {β : Type} (k : Nat) (m : FMap β) : FMap β := m.filter (fun p => p.1 != k)

/-- A sparse store with `v` at a key, in its place among rising keys. -/
def fins {β : Type} (k : Nat) (v : β) : FMap β → FMap β
  | [] => [(k, v)]
  | (k', v') :: r => if k < k' then (k, v) :: (k', v') :: r else if k = k' then (k, v) :: r else (k', v') :: fins k v r

/-- Write one key of a sparse store: an entry equal to the default is not kept. -/
def fput {β : Type} [DecidableEq β] (d : β) (k : Nat) (v : β) (m : FMap β) : FMap β := if v = d then fdel k m else fins k v m

/-- Every key of the store lies above `lo`, the keys rise strictly and no entry is the default. -/
def fwfFrom {β : Type} [DecidableEq β] (d : β) : Nat → FMap β → Bool
  | _, [] => true
  | lo, (k, v) :: r => decide (lo ≤ k) && decide (v ≠ d) && fwfFrom d (k + 1) r

/-- The canonical form of a sparse store. -/
def fwf {β : Type} [DecidableEq β] (d : β) (m : FMap β) : Bool := fwfFrom d 0 m

/-- Write several keys, in list order. -/
def fputs {β : Type} [DecidableEq β] (d : β) : List (Nat × β) → FMap β → FMap β
  | [], m => m
  | (k, v) :: r, m => fputs d r (fput d k v m)

/-- Bits [lo + len - 1 : lo] of a natural number (R5). -/
def fld (x lo len : Nat) : Nat := (x >>> lo) % 2 ^ len

/-- `x` with bits [lo + len - 1 : lo] replaced by the low bits of `v` (R5). -/
def setFld (x lo len v : Nat) : Nat := x - (fld x lo len) <<< lo + (v % 2 ^ len) <<< lo

/-- The value of the low `w` bits of `x` read as two's complement (R5, R195). -/
def toS (w x : Nat) : Int := let y := x % 2 ^ w; if y < 2 ^ (w - 1) then (y : Int) else (y : Int) - 2 ^ w

/-- An integer reduced modulo 2^w (R195). -/
def wrap (w : Nat) (x : Int) : Nat := (x % (2 ^ w : Nat)).toNat

/-- An integer clamped to a range (R195). -/
def clampI (lo hi x : Int) : Int := if x < lo then lo else if hi < x then hi else x

/-- A natural number as a register value. -/
def r64 (x : Nat) : W64 := BitVec.ofNat 64 x

/-- An integer as a register value, modulo 2^64 (R236). -/
def i64 (x : Int) : W64 := BitVec.ofInt 64 x

/-- sext(x, w) to 64 bits as a natural number below 2^64 (R5). -/
def sx64 (w x : Nat) : Nat := wrap 64 (toS w x)

/-- The `n` low bytes of `x`, least significant first (R3). -/
def toBytes : Nat → Nat → List Byte
  | 0, _ => []
  | n + 1, x => BitVec.ofNat 8 x :: toBytes n (x >>> 8)

/-- The little-endian value of a list of bytes (R3). -/
def ofBytes : List Byte → Nat
  | [] => 0
  | b :: r => b.toNat + ofBytes r <<< 8

/-- `n` bytes of a message or record from offset `o`, little-endian; bytes past the end read as zero (R3). -/
def le (b : List Byte) (o n : Nat) : Nat := ofBytes ((b.drop o).take n)

/-- The least index below `n` whose bit of `x` is set; `n` when none is. -/
def lowBit (n x : Nat) : Nat := ((List.range n).find? (fun i => x.testBit i)).getD n

/-- The number of set bits of `x` below `n`. -/
def popc (n x : Nat) : Nat := ((List.range n).filter (fun i => x.testBit i)).length

/-- The number of leading zero bits of the `w`-bit value `x`. -/
def clz (w x : Nat) : Nat := if x = 0 then w else w - 1 - Nat.log2 x

/-- The low `w` bits of `x`, w ≤ 64, inverted. -/
def notW (w x : Nat) : Nat := (2 ^ w - 1) - x % 2 ^ w

/-- ceil(a / b). -/
def cdiv (a b : Nat) : Nat := (a + b - 1) / b

/-- Replace the first element that satisfies `p`. -/
def replaceFirst {α : Type} (p : α → Bool) (f : α → α) : List α → List α
  | [] => []
  | x :: r => if p x then f x :: r else x :: replaceFirst p f r

/-- The integer square root, found bit by bit from bit `k` down. -/
def isqrtGo (x : Nat) : Nat → Nat → Nat
  | 0, r => r
  | k + 1, r => let t := r + 1 <<< k; isqrtGo x k (if t * t ≤ x then t else r)

/-- The largest r with r * r ≤ x. -/
def isqrt (x : Nat) : Nat := isqrtGo x (Nat.log2 x / 2 + 1) 0

end Sys2Proof.Machine
end

