-- ==== Sys2Proof/Machine/State.lean ====
section
/-! DEFINITION. The state of the module: everything the specification gives it, as plain data, and the state after
package reset. Fields marked "own" are the model's (the schedule, serial numbers) and name their log entry. -/

namespace Sys2Proof.Machine

/-- Why the machine stops. -/
inductive Fault where
  /-- Raised by every word, cane command and pair half whose `exec` is called while no issue slot or sequencer is at
  work (`State.focus` names none, or names a group or tower share that does not exist). No step reaches it, because step
  sets the focus before it calls exec. Safe: the model stops where the hardware has no such situation. -/
  | noIssuer
  deriving DecidableEq, Repr

/-- Why a step is refused. -/
inductive Refusal where
  /-- Raised by the dispatch arm of an instruction that has no meaning yet. Safe. -/
  | notModelled (mnemonic : String)
  deriving DecidableEq, Repr

/-- Who runs now (own, log entry 1): a PC slot of a group (slotB = false: slot A), or a share of a tower word. -/
inductive Focus where
  | idle
  | word (gid : Nat) (slotB : Bool)
  | tower (share : Nat)
  deriving DecidableEq, Repr

/-- Who moves in a turn (own, log entry 1): the issue slot of a partition, the sequencer working on a share, or an event. -/
inductive Move where
  | issue (core part : Nat)
  | sequencer (share : Nat)
  | event (i : Instr)
  deriving DecidableEq, Repr

/-- Errors that strike the part in a turn (R456 to R459, own, log entry 72). `fixed`: a correctable event of a structure, counted for a unit.
The others: a dropped cache line or translation whose parity failed; a timing margin below its threshold; an uncorrectable error
that stays in memory (structure 5 L2 data, 7 LLC, 9 HBM4E, 11 CXL), in a cane's 64-column row group, or in L2 tags; an error that the
next word of a slot finds in its registers, accumulators or local memory (structures 0 to 2), or one that ends an operation of an engine. -/
inductive Upset where
  | fixed (structure_ : Nat) (unit : Option CulletUnit)
  | l1Line (core line : Nat)
  | codeLine (core line : Nat)
  | translation (unit ctx va : Nat)
  | margin (unit : CulletUnit)
  | memory (pa structure_ : Nat)
  | cane (tower array row group : Nat)
  | tags (die slice : Nat)
  | word (gid : Nat) (slotB : Bool) (structure_ addr : Nat)
  | engine (id structure_ addr : Nat)
  deriving DecidableEq, Repr

/-- One turn of the schedule: nanoseconds that pass, the errors that strike, then who moves (own, log entry 1). -/
structure Turn where
  dt : Nat
  move : Move
  upsets : List Upset := []
  deriving DecidableEq, Repr

/-- The scoreboard classes, numbered as the wait set's bits (R75). -/
inductive Cls where
  | loads | stcomp | sfu | tiles | copy | tower | net | far | bar | none
  deriving DecidableEq, Repr

/-- The scopes of ordering (R135), coded as R224 codes them; `none` is no ordering. -/
inductive Scope where
  | ln | gr | tm | cl | dv | sy
  deriving DecidableEq, Repr

/-- What a tower fault keeps of its stopped share (R487): its resume state's number, the tower, the block's address and the
command's index. -/
structure TowerRef where
  id : Nat
  tower : Nat
  addr : Nat
  idx : Nat
  deriving DecidableEq, Repr

/-- What a fault record says beside the place it happened at (R444); `share` names the resume state of a tower fault (R487). -/
structure FInfo where
  cls : Nat
  code : Nat
  addr : Nat := 0
  index : Nat := 0
  unit : Nat := 0
  eng : Nat := 0
  lanes : Option W64 := none
  done : W64 := 0#64
  lane : Option Nat := none
  share : Option TowerRef := none
  deriving DecidableEq, Repr

/-- Why a slot is parked and what wakes it (R80). Every park but `marker` and `bkpt` leaves its word not performed: the
word runs again when the slot wakes (R87). -/
inductive Park where
  /-- a switch marker: every outstanding result of the group (R78) -/
  | marker
  /-- trap entry, before the handler's first word: loads, special function, tiles, store completion (R446) -/
  | drain
  /-- an absent line of a team's allocation (R95) -/
  | line (team line : Nat)
  /-- the partition's pontil (R86) -/
  | pontil
  /-- a team or cluster barrier phase (R313, R315) -/
  | barrier (b phase : Nat)
  | cbarrier (k phase : Nat)
  /-- `lr.await`, by header (R320) -/
  | await (hdr : Nat)
  /-- a full lehr of a team, or a zero free-slot counter of a multicast channel (R322, R323, R328) -/
  | lehrFull (team hdr : Nat)
  | mcZero (hdr mask : Nat)
  /-- waiting at `regroup`, with the group it pairs with once one is found (R48) -/
  | regroup (key : W64) (drained : Bool) (mate : Option Nat := none)
  /-- `nap`: deadline, watched 128-byte line (physical), cause once woken (R254) -/
  | nap (deadline : Option Nat) (line : Option Nat) (cause : Nat)
  /-- the release of a fence, a station word, a launch (R136, R138) -/
  | release (sc : Scope)
  /-- far.fence (R374), tw.wait with its count (R372), cnt.wait (R378), ac.wait (R163) -/
  | farFence
  | twWait (keep : Nat)
  | cnt (k v : Nat)
  | ac (sr ctr v : Nat)
  /-- a station operation of the group to be answered by the record's home (R354) -/
  | station
  /-- matrix words issued before a serial number that write one of these tiles (32 and above: parisons), or any (R334, R345) -/
  | tile (locs : Option (List Nat)) (before : Nat)
  /-- bytes that the word reads at their homes itself, or through the L1 unless `home` (R106, R137) -/
  | read (pas : List Nat) (home : Bool)
  /-- a page walk the word needs (R124) -/
  | walk (page : Nat)
  /-- `coll.step.wait` (R381) -/
  | coll
  /-- `bkpt`, until the service resumes it (R265); `halt`, until WAKE (R429) -/
  | bkpt (imm : Nat)
  | halt
  /-- the other slot while a handler runs (R267); a slot of a stopped team (R87) -/
  | handler
  /-- `yield`: another candidate starts a clause first (R253) -/
  | yield
  deriving DecidableEq, Repr

/-- The states of a PC slot (R41); parking is separate, in `Slot.park`. -/
inductive SlotSt where
  | free
  | running
  | waiting (join : Nat)
  deriving DecidableEq, Repr

/-- A spin detector's record of the last qualifying taking (R83). -/
structure Spin where
  count : Nat := 0
  s : List W64 := []
  m : List W64 := []
  exec : W64 := 0#64
  lines : List Nat := []
  deriving DecidableEq, Repr

/-- What a station operation answered (R354). -/
inductive StRes where
  | ok (v : W64)
  | bad (f : FInfo)
  deriving DecidableEq, Repr

/-- A PC slot (R32, R41): clause address, lane mask, state; the clause read at its start (R210) with the index of the next
word; the entries on its divergence stack, which lie in local memory (R42); scheduling state (R82 to R84); the station operation
it waits for, with its answer once the record's home has performed it (R354); the word whose switch marker parked it, by clause
and index (R78, R497); since when it has waited on an external source (R455); at the floor, the clauses of its loop (R84). -/
structure Slot where
  st : SlotSt := .free
  clause : Nat := 0
  mask : W64 := 0#64
  started : Bool := false
  hdr : W64 := 0#64
  words : List W64 := []
  idx : Nat := 0
  half : Bool := false
  park : Option Park := none
  depth : Nat := 0
  skip : Nat := 0
  last : Nat := 0
  lastPrio : Option Nat := none
  everStarted : Bool := false
  starts : List Nat := []
  spin : Spin := {}
  floor : Option (Nat × List Nat) := none
  waitSince : Nat := 0
  stop : Option (Nat × Option StRes) := none
  marked : Option (Nat × Nat × W64) := none
  extSince : Nat := 0
  loop : List Nat := []
  deriving DecidableEq, Repr

/-- A replay that is due (R269, R449): the slot, clause address and word index, whether that is the faulting word (`exact`), which then
acts on `lanes` alone, whether bit 0 of DONE was set, and the tower share to restart, at a clause start or marker when `atHdr`
(R487). -/
structure Replay where
  slotB : Bool
  clause : Nat
  idx : Nat
  lanes : W64
  exact : Bool
  drop : Bool
  tower : Option TowerRef := none
  atHdr : Bool := false
  deriving DecidableEq, Repr

/-- Handler state of a group (R267, R270): the slot with the lanes it held at entry (R269), EPC, EIDX, DONE, the record, the lanes of the
record, the word a replay would reissue for those lanes (none after a trap or a fault at a clause start), the park the other slot had
before it was parked for the handler, the resume state of a tower fault with whether a clause start or a marker raised it (R487), for
a fault at a switch marker the clause and word after the marked one, the replay that was due where a fault at a clause start or a marker
came before it (R449), and whether a switch marker held the group. -/
structure Handler where
  slotB : Bool
  epc : Nat
  eidx : Nat
  done : W64
  frec : List W64
  lanes : W64
  mask : W64 := 0#64
  word : Option (Nat × Nat) := none
  other : Option Park := none
  tower : Option TowerRef := none
  atHdr : Bool := false
  mark : Option (Nat × Nat) := none
  before : Option Replay := none
  hold : Bool := false
  deriving DecidableEq, Repr

/-- A fault an engine left for the group's waiting word (R447), with the class that word waits on, the tile it belongs to, the number of
the tower word, the receive counter a remote transfer names, and the tower command's index or the far atomic's lane (R495). -/
structure Due where
  cls : Cls
  info : FInfo
  word : Nat := 0
  tile : Option Nat := none
  cnt : Option Nat := none
  key : Nat := 0
  deriving DecidableEq, Repr

/-- A line waiting in a group's write-combining buffer (R103): physical 128-byte line, its merged bytes by physical
address, the time the first entered, a serial number, the slots that stored (bit 0 A, bit 1 B), the clause and index of the first
store's word with its active lanes, and the bytes that a misaligned store wrote (R130). -/
structure Wcb where
  id : Nat
  line : Nat
  since : Nat
  bytes : FMap (Option Byte)
  hint : Nat
  by_ : Nat := 0
  pc : Nat × Nat := (0, 0)
  lanes : W64 := 0#64
  loose : List Nat := []
  deriving DecidableEq, Repr

/-- A group (R31, R32). `twCount` counts its tower words; `twTime` and `farTime` are the largest completion times of its towers'
writes and of its far atomics (R144, R146); `replay` holds at most one replay a slot (R449); `walkFail` the failed walks of a slot's
word: slot, page, code, index (R473); `pontil`: it held the pontil when it was set aside (R88);
`hold`: a switch marker of a slot that has gone on, or is free, parks the group (R78); `curPrio`: its issue priority at its last clause start (R263). `v` is keyed by 64 x register + lane; `acc` and `par` by (tile x 64 + lane) x 64 + column. -/
structure Group where
  gid : Nat
  ctx : Nat
  grid : Nat
  cluster : Nat
  team : Nat
  tidx : Nat
  num : Nat
  width : Nat
  core : Nat
  part : Nat
  rows : Nat
  accN : Nat
  parN : Nat
  depthD : Nat
  task : Bool := false
  s : FMap W64 := []
  v : FMap W64 := []
  m : FMap W64 := []
  slotA : Slot := {}
  slotB : Slot := {}
  flags : BitVec 5 := 0#5
  wct : Nat := 0
  pass : W64 := 0#64
  draw : W64 := 0#64
  prio : Nat := 0
  base : Nat := 0
  handler : Option Handler := none
  replay : List Replay := []
  due : List Due := []
  scr : FMap W64 := []
  tstat : BitVec 2 := 0#2
  twCount : Nat := 0
  twTime : Nat := 0
  farTime : Nat := 0
  latch : Option (Nat × List W64) := none
  acc : FMap (BitVec 32) := []
  par : FMap (BitVec 32) := []
  spec : Option (Nat × Nat) := none
  seed : BitVec 32 := 0#32
  table : FMap (BitVec 16) := []
  wcb : List Wcb := []
  walkFail : List (Bool × Nat × Nat × Nat) := []
  counters : List Nat := []
  resident : Nat := 0
  pontil : Bool := false
  hold : Bool := false
  curPrio : Nat := 0
  deriving DecidableEq, Repr

/-- A multicast channel (R328): the lehr offset and one free-slot counter per receiver %team. -/
structure McChan where
  off : Nat
  free : FMap Nat
  deriving DecidableEq, Repr

/-- The chunk of a team's collective (R380): fired, landed, its round, whether it fired at retirement, the fault an abort or a
failed access left, the segments of the result that have landed (R427), and the completion time of its result's writes. -/
structure Chunk where
  fired : Bool := false
  landed : Bool := false
  round : Nat := 0
  dead : Bool := false
  abort : Option FInfo := none
  got : List Nat := []
  wct : Nat := 0
  deriving DecidableEq, Repr

/-- A team (R26): its allocation with, for each line, the copies in flight that have yet to deliver it (R95), faulted ranges (R481), lehr engine side (rel by header; the fault of
each faulted slot by header and slot, R320; by header x 64 + slot, the sender of a slot that `cp.mc` reserved, plus one, R321),
multicast channels, inbound count (R483), and the sixteen barriers (R312): (count n, arrivals a, phase number) by barrier,
and by barrier x 32 + %group the phase of the group's last arrival plus one (0: never arrived); `opened` lists the station records its
groups opened a pass on (R453). -/
structure Team where
  tid : Nat
  ctx : Nat
  grid : Nat
  cluster : Nat
  tidx : Nat
  core : Nat
  task : Bool
  groups : Nat
  width : Nat
  lines : Nat
  prog : Nat
  depthD : Nat
  mem : FMap Byte := []
  absent : FMap Nat := []
  ranges : List (List Nat) := []
  bars : FMap (Nat × Nat × Nat) := []
  barLast : FMap Nat := []
  rel : FMap Nat := []
  slotFault : List (Nat × Nat × FInfo) := []
  mcOwner : FMap Nat := []
  mc : List McChan := []
  inbound : Nat := 0
  retired : Bool := false
  chunk : Chunk := {}
  opened : List Nat := []
  deriving DecidableEq, Repr

/-- A placed cluster and its four cluster barriers (R58, R312): (n, a, phase) by barrier, and by barrier x 4,096 +
32 x %team + %group the phase of the last arrival plus one. -/
structure Cluster where
  ctx : Nat
  grid : Nat
  idx : Nat
  w : Nat
  h : Nat
  bars : FMap (Nat × Nat × Nat) := []
  barLast : FMap Nat := []
  deriving DecidableEq, Repr

/-- A collective of a grid (R379). -/
structure Coll where
  op : Nat
  members : Nat
  rank : Nat
  cgroup : Nat
  tree : Nat
  chunk : Nat
  buffer : Nat
  total : Nat
  dctr : Option Nat
  deriving DecidableEq, Repr

/-- A started grid (R59): its record, queue, start order, clusters placed and ended, tasks outstanding, the largest
completion time its groups received (R67), and the rounds of chunks aborted before their teams were placed (R427, R501). -/
structure Grid where
  grid : Nat
  ctx : Nat
  queue : Nat
  prio : Nat
  order : Nat
  lrec : List Byte
  next : Nat := 0
  ended : Nat := 0
  tasks : Nat := 0
  wct : Nat := 0
  coll : Option Coll := none
  formed : FMap Nat := []
  rounds : FMap Nat := []
  done : Bool := false
  deriving DecidableEq, Repr

/-- A task in a pool (R53): what `spawn` gave it, the time it entered, and when it may be gathered: the serial number of its `spawn`,
whose group's earlier stores and atomics must have completion times, the largest of which must have passed (R258). -/
structure Task where
  ctx : Nat
  grid : Nat
  core : Nat
  age : Nat
  entry : Nat
  record : List Byte
  counter : Nat
  since : Nat
  ready : Nat
  gid : Nat
  wct : Nat
  deriving DecidableEq, Repr

/-- A task group formed and not yet placed (R55, R70). -/
structure Formed where
  ctx : Nat
  grid : Nat
  core : Nat
  tasks : List Task
  draw : W64
  passes : Nat := 0
  deriving DecidableEq, Repr

/-- An armed send (R377). -/
structure Armed where
  loc : Option Nat
  src : Nat
  dst : Nat
  bytes : Nat
  dev : Nat
  trig : Nat
  thr : Nat
  cnt : Option Nat
  deriving DecidableEq, Repr

/-- Whether a context runs (R87, R448): stopping with its cause class, or set aside with it; cause 0x100 is a
pre-emption request. -/
inductive Run where
  | running
  | stopping (cause : Nat)
  | aside (cause : Nat)
  deriving DecidableEq, Repr

/-- A context (R119, R430). Queues hold 256-byte records, each with the address it was read at; counters are the 512 receive counters.
`asideAt` and `held`: when it was set aside, and when its last hold messages left (R500); `maps`: its mapped pages by virtual address,
physical address and size; `tabs`: the page tables the service placed for it, by address and size; `wct`: the largest completion time of
the service's writes for it, which a launch-queue request releases (R150). -/
structure Context where
  ctx : Nat
  job : Nat
  root : Nat
  qprio : Nat
  key : W64
  watchdog : Nat
  extTimeout : Nat
  pool : Nat
  save : Nat
  queues : FMap (List (Nat × List Byte)) := []
  pairs : Nat := 0
  ways : FMap Nat := []
  run : Run := .running
  counters : FMap W64 := []
  armed : List Armed := []
  nextGrid : Nat := 1
  checked : FMap Nat := []
  progress : Nat := 0
  asideAt : Nat := 0
  held : Nat := 0
  debugger : Bool := false
  maps : List (Nat × Nat × Nat) := []
  tabs : List (Nat × Nat) := []
  wct : Nat := 0
  deriving DecidableEq, Repr

/-- A home's record of a 1,024-byte line (R102, R106). -/
structure Home where
  lease : Nat := 0
  pend : Nat := 0
  marks : Nat := 0
  deriving DecidableEq, Repr

/-- A copy of a 128-byte line in a core's L1 (R101). -/
structure L1Line where
  core : Nat
  line : Nat
  expiry : Nat
  data : BitVec 1024
  deriving DecidableEq, Repr

/-- A line of a core's instruction cache (R104): no expiry means pinned, for the context named; `stale`: pinned, and still to be fetched
again. -/
structure ILine where
  core : Nat
  line : Nat
  expiry : Option Nat
  pinCtx : Nat
  data : BitVec 1024
  stale : Bool := false
  deriving DecidableEq, Repr

/-- A line an L2 slice or a tower's LLC holds (R105, R110): way, valid and dirty sectors. Its bytes are those of
`State.mem`, because no level ever disagrees with the home's value in what a party can read (log entry 3). -/
structure CLine where
  line : Nat
  way : Nat
  valid : BitVec 8
  dirty : BitVec 8
  deriving DecidableEq, Repr

/-- A translation held by a core's TLB or a tower's translation cache (R123, R125); towers count from 128. `part`: it stands in that
partition's first level; none: in the core's second level, or in a tower's cache. -/
structure Tlb where
  unit : Nat
  ctx : Nat
  va : Nat
  size : Nat
  pa : Nat
  rights : Nat
  rmost : Bool
  part : Option Nat := none
  deriving DecidableEq, Repr

/-- The access a lane of a word makes: lane, virtual address (or local offset), the physical address of each byte (R225), and whether its
pages are read-mostly (R102). -/
structure Lane where
  lane : Nat
  va : Nat
  pas : List Nat
  rmost : Bool := false
  deriving DecidableEq, Repr

/-- The atomic operations (R306). -/
inductive AtOp where
  | add | sub | min | max | and | or | xor | xchg | cas | fadd
  deriving DecidableEq, Repr

/-- What a fused matrix pass word carries (R338 to R343): its tile (32 and above: parison, R349), the lanes with their A rows, and where B comes from. -/
structure Pass where
  mmaf : Bool
  tile : Nat
  lanes : List (Nat × W64)
  team : Nat
  baddr : Nat
  slot : Nat
  wa : Nat
  wb : Nat
  sat : Bool
  mix : Bool
  seed : BitVec 32
  table : FMap (BitVec 16)
  row0 : Nat
  col0 : Nat
  window : Nat
  deriving DecidableEq, Repr

/-- The kinds of a copy (R323 to R328). -/
inductive CopyKind where
  | cin | cout | cg | halo | mc
  deriving DecidableEq, Repr

/-- A receiver a multicast has yet to serve (R328, R482): its %team, the lehr slot reserved there, the bytes it has received, and
whether its allocation's inbound count holds the write (R483). -/
structure McRecv where
  team : Nat
  slot : Option Nat := none
  at_ : Nat := 0
  counted : Bool := true
  deriving DecidableEq, Repr

/-- A copy in flight: local side by team and offset, global sides by virtual address, the lehr slot it reserved
(team, header, index), the physical 1,024-byte lines it marked with the byte offset by which each is written (R106), the cluster barrier
phase a halo waits for, how many bytes have moved; a multicast's source bytes read so far, what its source met, the receivers not yet
served and those it failed, with their faults. -/
structure Copy where
  kind : CopyKind
  team : Nat
  src : Nat
  srcLocal : Bool
  dst : Nat
  bytes : Nat
  slot : Option (Nat × Nat × Nat)
  marks : List (Nat × Nat)
  hint : Nat
  k : Nat := 0
  phase : Nat := 0
  desc : List Byte := []
  at_ : Nat := 0
  data : List Byte := []
  srcBad : Option FInfo := none
  recv : List McRecv := []
  failed : List (Nat × FInfo) := []
  wct : Nat := 0
  deriving DecidableEq, Repr

/-- The words of a tower (R361, R362). -/
inductive TwKind where
  | xin | xout | run
  deriving DecidableEq, Repr

/-- One selected tower's share of a tower word (R359, R368): the word's number in its group, the driven canes (keys into
`State.canes`) in element order from element `first`, the transfer's address and fields, or the block's local address, commands,
global addresses and next command with each cane's active bit and stack once it has begun (R366); `carry`: what the word's shares that
are over leave for the status word (R371). -/
structure Share where
  kind : TwKind
  word : Nat
  tower : Nat
  ctx : Nat
  team : Nat
  canes : List Nat
  first : Nat
  addr : Nat
  row : Nat
  w : Nat
  ty : Nat
  bc : Option W64
  sat : Bool
  hint : Nat
  block : List W64
  gaddr : List Nat
  idx : Nat
  active : List (Bool × List Bool)
  status : BitVec 2 := 0#2
  carry : BitVec 2 := 0#2
  begun : Bool := false
  deriving DecidableEq, Repr

/-- A tower's resume state for a context (R370, R487): its number and the stopped share, whose block address, command index,
active bits and stacks it keeps. -/
structure Resume where
  id : Nat
  tower : Nat
  ctx : Nat
  share : Share
  deriving DecidableEq, Repr

/-- A transfer to or from another device (R376, R377): local side by team or virtual address; `sent`: when a send's data, read from its
source, or a get's request went out, or was last acknowledged; `port`: where it left (R498); `acked`: the bytes a send's destination has
acknowledged, or those of a get that have landed (R497); `wct` the completion time of a get's writes. -/
structure Xfer where
  loc : Option Nat
  addr : Nat
  remote : Nat
  bytes : Nat
  dev : Nat
  cnt : Option Nat
  fired : Bool
  sent : Option Nat := none
  port : Option Nat := none
  acked : Nat := 0
  wct : Nat := 0
  deriving DecidableEq, Repr

/-- A delivery of an error broadcast to one team (R169 to R171): `entry` is its place in the list; `good` tells whether every
earlier delivery of that entry succeeded, so that the last one may advance the counter; `wct` the completion time of the sender's earlier
writes (R149); `counted`: the receiving allocation's inbound count holds it (R483). -/
structure Arrival where
  station : Nat
  grid : Nat
  cluster : Nat
  tidx : Nat
  entry : Nat
  good : Bool
  pass : Nat
  data : List Byte
  device : Nat
  core : Nat
  wct : Nat := 0
  counted : Bool := false
  deriving DecidableEq, Repr

/-- The station operations (R156). -/
inductive StKind where
  | openPass (replay : Bool)
  | closePass
  | commit (v mask : Nat)
  deriving DecidableEq, Repr

/-- An operation in flight; the events of the opcode table move it on. -/
inductive Op where
  /-- a global load: destination register code (or scalar number + 512), second register for `ld.x`; `own` holds the bytes
  of the group's own stores that were waiting when it issued, with the store's serial number (R128) -/
  | load (lanes : List Lane) (dst : Nat) (pair : Bool) (acq : Option Scope) (hint : Nat) (own : List (Nat × Byte × Nat))
  /-- a value already fixed: register x 64 + lane (or 2^20 + scalar number) with the value to write -/
  | value (regs : List (Nat × W64))
  /-- a remote local load (R97) -/
  | remoteLoad (team : Nat) (lanes : List Lane) (dst z : Nat) (acq : Bool)
  /-- a remote local store (R97, R304) -/
  | remoteStore (team width : Nat) (bytes : List (Nat × Byte))
  /-- a store on its way to its home: bytes by physical address, its release scope, hint -/
  | store (bytes : List (Nat × Byte)) (rel : Option Scope) (hint : Nat) (unitOp : Bool)
  /-- an atomic: lanes with operands b and c -/
  | atomic (op : AtOp) (signed : Bool) (lanes : List (Lane × Nat × Nat)) (dst : Nat) (acq rel : Bool) (sc : Scope)
  /-- a far atomic of one lane, by stage 0 to home, 1 at the tower, 2 accepted, 3 refused with its fault (R116) -/
  | far (lane : Lane) (bfp : Bool) (val : List Byte) (stage : Nat) (bad : Option FInfo) (answered applied : Bool)
  /-- a page walk of a die's walkers, by die, or of a tower's, from 128 (R124, R125), and those that wait for it: a group's slot, or an
  operation in flight -/
  | walk (unit ctx page : Nat) (who : List (Nat × Bool))
  /-- queued special-function results and the flags they raise (R289) -/
  | sfu (core part : Nat) (regs : List (Nat × W64)) (flags : BitVec 5)
  /-- a fusion window (R344) -/
  | window (core part : Nat) (rows : Nat) (opened : Nat) (started : Bool)
  /-- a matrix pass word; its B bytes once its pass has started (R341) -/
  | pass (p : Pass) (b : Option (List Byte))
  /-- `mx.ld` (store = false) and `mx.st` (R346) -/
  | tileXfer (store : Bool) (tile : Nat) (lanes : List Nat) (team addr : Nat)
  /-- `mx.zero`, `sp.open` or `sp.keep`: each tile or parison with where its rows come from (none: zero), and the lanes (R345,
  R348) -/
  | tileSet (pairs : List (Nat × Option Nat)) (lanes : List Nat)
  | copy (c : Copy)
  | share (t : Share)
  /-- net.send or a fired send, an entry of a broadcast to another device; net.get (R376, R170) -/
  | send (x : Xfer)
  | get (x : Xfer)
  /-- received data whose counter is to rise once its completion time has passed (R145) -/
  | received (ctx : Nat) (cnt : Option Nat) (wct : Nat)
  /-- `eb.send` reading its source, local (team, offset) or global, with its pass and the list's entries (R170); a delivery
  (R171) -/
  | ebSource (loc : Option Nat) (src bytes pass : Nat) (entries : List (List Byte))
  | arrival (a : Arrival)
  /-- a station operation on the record at a physical address; once its second line is written, the completion time it waits
  for, the first line's bytes and the answer (R156) -/
  | station (kind : StKind) (sr : Nat) (n : Nat) (ctr : Option Nat) (late : Option (Nat × List (Nat × Byte) × StRes))
  /-- an arrival at a team barrier that waits for its team-scope release (R313) -/
  | barArrive (team b : Nat)
  /-- a recall of a 1,024-byte line on its way to a core, and the time by which its copies are dropped (R131) -/
  | recall (core line deadline : Nat)
  /-- a write sent to the tower whose acknowledgement is due (R106) -/
  | towerWrite (line : Nat)
  /-- a write-back of `cc.wb` whose acknowledgement is due (R330) -/
  | writeBack (line : Nat)
  /-- a CXL device's acknowledgement due (R135) -/
  | cxlWrite (line : Nat)
  /-- completion counter adds (address, number) of a retired task group of n tasks of a grid, due at a time (R57) -/
  | taskAdd (grid n : Nat) (adds : List (Nat × Nat)) (due : Nat)
  /-- a collective contribution whose chunk is still to be read (R380) -/
  | chunkOut (team : Nat)
  deriving DecidableEq, Repr

/-- An operation in flight with its issuing group (0: none), context, scoreboard class and the core it came from; `word` is the
serial number at which its word began, which the operations of one word share; `by_` names the issuing slots (bit 0 A, bit 1 B);
`pc` is the clause and index of that word and `lanes` its active lanes (R444); `fails` the walks that failed for it: page, code, index (R473); of a misaligned access
`loose` are the bytes still to be performed one by one, a load's by their place in it, and `got` those a load has read (R130). -/
structure Flight where
  id : Nat
  word : Nat
  gid : Nat
  ctx : Nat
  core : Nat
  cls : Cls
  op : Op
  by_ : Nat := 0
  pc : Nat × Nat := (0, 0)
  lanes : W64 := 0#64
  fails : List (Nat × Nat × Nat) := []
  loose : List Nat := []
  got : List (Nat × Byte) := []
  deriving DecidableEq, Repr

/-- A partition (R15, R76): the slots whose clause is being issued (several when packed, R81), whether that packing ends
with the word they stand at (R452), and the pontil's holder. -/
structure Part where
  core : Nat
  part : Nat
  cur : List (Nat × Bool) := []
  ending : Bool := false
  pontil : Option Nat := none
  deriving DecidableEq, Repr

/-- An access-table entry (R438): target kind 0 L2 homes, 1 towers, 2 network engines, 3 CXL ports, 4 management. -/
structure AtEntry where
  target : Nat
  ctx : Nat
  eng : Nat
  base : Nat
  size : Nat
  rd : Bool
  w : Bool
  atomic : Bool
  deriving DecidableEq, Repr

/-- A job (R430, R432): keys, this module's device number, device table with the endpoint address of each number's service, the last
sequence number accepted, the device numbers marked lost (R503). -/
structure Job where
  job : Nat
  key : Nat
  mgmtKey : Nat
  self : Nat
  table : List Nat
  ends : List (Nat × Nat) := []
  seq : Nat
  lost : List Nat := []
  deriving DecidableEq, Repr

/-- A message to a client (R433): code, dir (1 reply, 2 notice), job, sequence number, context, status, payload, signature. -/
structure Msg where
  code : Nat
  dir : Nat
  job : Nat
  seq : Nat
  ctx : Nat
  status : Nat
  payload : List Byte
  sig : Nat
  deriving DecidableEq, Repr

/-- A reduction-profile message: the fields of its header (kind 0 contribution, 1 result, 2 hold, 3 abort) and its data (R427). -/
structure RedMsg where
  tree : Nat
  chunk : Nat
  kind : Nat
  op : Nat
  rank : Nat
  round : Nat
  seg : Nat := 0
  status : Nat := 0
  data : List Byte := []
  deriving DecidableEq, Repr

/-- A message to another device, a switch or the fabric manager (R375, R380, R427, R500, R503). -/
inductive Out where
  | data (dev : Nat) (m : NetMsg)
  | getReq (dev : Nat) (r : GetReq)
  | getData (dev tag : Nat) (data : List Byte) (failed : Option Nat)
  | failed (dev tag off : Nat)
  | red (m : RedMsg)
  | fatal
  deriving DecidableEq, Repr

/-- The power states (R442). -/
inductive Power where
  | active | idle | standby | off
  deriving DecidableEq, Repr

/-- A Gloper log entry (R437): time, kind (0 power, 1 status change, 2 firmware, 3 uncorrectable, 4 cullet,
5 attestation), detail. -/
structure LogEntry where
  time : Nat
  kind : Nat
  detail : Nat
  deriving DecidableEq, Repr

/-- Firmware (R439): the running image, the persistent image with its signature, whether its write was interrupted, the staged image
with its signature. -/
structure Firmware where
  running : List Byte := []
  stored : List Byte := []
  sig : Nat := 0
  torn : Bool := false
  staged : Option (List Byte × Nat) := none
  deriving DecidableEq, Repr

/-- A reduction tree the service created (R426): identifier, switches, and whether it has been freed since (R499). -/
structure Tree where
  tree : Nat
  switches : List Nat
  freed : Bool := false
  deriving DecidableEq, Repr

/-- A service request that is still being performed (R431): its code, whom to answer, the way pairs it switches with the (tower, pair)
reports received (R112), and for an unmap the physical ranges it gives up and the serial number before which accesses must be
performed (R126). -/
structure Wait where
  code : Nat
  job : Nat
  seq : Nat
  ctx : Nat
  pairs : Nat := 0
  done : List (Nat × Nat) := []
  ranges : List (Nat × Nat) := []
  mark : Nat := 0
  deriving DecidableEq, Repr

/-- The whole machine. `fatalSent`: every client's context is dead and the fabric manager has heard of it (R503); `atPrev`: the access tables before the change whose invalidation runs (R441); `queued`: accepted requests that wait for earlier ones (R431); `mgmtOut`: the Gloper controller's answers to PLDM
commands, each with the job of its channel (none: the management link) and its status (R437, R439); `sites`: the physical site of a
logical core plus one, where it is not the one of its own place (R12); `failedSites`: sites out of use, by die; `unitEvents`: correctable
events of units with their times, and `margins` the units whose timing margin is low (R457, R460). -/
structure State where
  time : Nat
  turns : List Turn
  focus : Focus
  nextId : Nat
  freeCount : Nat
  power : Power
  cap : Nat
  throttle : FMap Nat
  status : List (Nat × Nat)
  corr : FMap Nat
  dropPackets : Nat
  dropReductions : Nat
  log : List LogEntry
  sensors : List Nat
  sampled : Nat
  firmware : Firmware
  operatorKey : Option Nat
  jobs : List Job
  trees : List Tree
  atTable : List AtEntry
  atRemoved : List AtEntry
  atPrev : List AtEntry
  atBase : Nat
  atBusy : Bool
  ctxSel : Nat
  stBlk : Nat
  waits : List Wait
  queued : List (List Byte)
  mgmtOut : List (Option Nat × Nat)
  msgs : List Msg
  noticeSeq : Nat
  outs : List Out
  mem : FMap Byte
  cxlMem : FMap Byte
  cxlCaps : FMap Nat
  l2 : List CLine
  plru : FMap Nat
  llc : List CLine
  homes : FMap Home
  l1 : List L1Line
  icache : List ILine
  recallSent : FMap Nat
  recallSeen : FMap Nat
  beatSent : FMap Nat
  beatSeq : FMap Nat
  beatTime : FMap Nat
  blind : FMap Nat
  tlb : List Tlb
  ctxs : List Context
  grids : List Grid
  gridSeq : Nat
  dispPassed : FMap Nat
  lastDie : Nat
  taskAge : Nat
  pool : List Task
  formed : List Formed
  clusters : List Cluster
  teams : List Team
  groups : List Group
  parts : List Part
  canes : FMap (BitVec 1024)
  badMem : FMap Nat
  badCane : FMap Nat
  resumes : List Resume
  pend : List Flight
  spares : FMap Nat
  sites : FMap Nat
  failedSites : List (Nat × Nat)
  unitEvents : List (CulletUnit × Nat)
  margins : List CulletUnit
  fatalSent : Bool
  deriving DecidableEq, Repr

/-- The machine right after package reset (R434): no firmware has run, every status entry reads off, device time is zero
(R20), memory lists nothing. The values the specification does not give are named in log entries 1, 2 and 5. -/
def State.reset : State :=
  { time := 0, turns := [], focus := .idle, nextId := 1, freeCount := 0, power := .off, cap := 0, throttle := [],
    status := List.replicate 130 (0, 0), corr := [], dropPackets := 0, dropReductions := 0, log := [], sensors := [],
    sampled := 0, firmware := {}, operatorKey := none, jobs := [], trees := [], atTable := [], atRemoved := [], atPrev := [],
    atBase := 0, atBusy := false, ctxSel := 0, stBlk := 0, waits := [], queued := [], mgmtOut := [], msgs := [], noticeSeq := 0, outs := [], mem := [], cxlMem := [],
    cxlCaps := [], l2 := [], plru := [], llc := [], homes := [], l1 := [], icache := [], recallSent := [], recallSeen := [],
    beatSent := [], beatSeq := [], beatTime := [], blind := [], tlb := [], ctxs := [], grids := [], gridSeq := 0, dispPassed := [],
    lastDie := 3, taskAge := 0, pool := [], formed := [], clusters := [], teams := [], groups := [], parts := [], canes := [], badMem := [], badCane := [],
    resumes := [], pend := [], spares := [], sites := [], failedSites := [], unitEvents := [], margins := [], fatalSent := false }

end Sys2Proof.Machine
end

