-- ==== Sys2Proof/Machine/Ops.lean ====
section
/-! DEFINITION. The named operations over registers, memory and in-flight work; how a word completes, parks, transfers or
faults; taking an exception (R446 to R448, R267) and returning from one (R269). -/

namespace Sys2Proof.Machine

/-! Lookup and update by identity. -/

def getG (s : State) (gid : Nat) : Option Group := s.groups.find? (fun g => g.gid == gid)
def putG (s : State) (g : Group) : State := { s with groups := replaceFirst (fun h => h.gid == g.gid) (fun _ => g) s.groups }
def getT (s : State) (tid : Nat) : Option Team := s.teams.find? (fun t => t.tid == tid)
def putT (s : State) (t : Team) : State := { s with teams := replaceFirst (fun u => u.tid == t.tid) (fun _ => t) s.teams }
def getC (s : State) (c : Nat) : Option Context := s.ctxs.find? (fun x => x.ctx == c)
def putC (s : State) (c : Context) : State := { s with ctxs := replaceFirst (fun x => x.ctx == c.ctx) (fun _ => c) s.ctxs }
def getGrid (s : State) (c n : Nat) : Option Grid := s.grids.find? (fun x => x.ctx == c && x.grid == n)
def putGrid (s : State) (g : Grid) : State :=
  { s with grids := replaceFirst (fun x => x.ctx == g.ctx && x.grid == g.grid) (fun _ => g) s.grids }
def getCl (s : State) (c n k : Nat) : Option Cluster := s.clusters.find? (fun x => x.ctx == c && x.grid == n && x.idx == k)
def putCl (s : State) (k : Cluster) : State :=
  { s with clusters := replaceFirst (fun x => x.ctx == k.ctx && x.grid == k.grid && x.idx == k.idx) (fun _ => k) s.clusters }
def getF (s : State) (id : Nat) : Option Flight := s.pend.find? (fun f => f.id == id)
def putF (s : State) (f : Flight) : State := { s with pend := replaceFirst (fun x => x.id == f.id) (fun _ => f) s.pend }
def dropF (s : State) (id : Nat) : State := { s with pend := s.pend.filter (fun f => f.id != id) }

/-- A value the specification leaves open: the next free value (log entry 6). -/
def openValue (s : State) : W64 := Config.freeValue s.freeCount
def tickFree (s : State) : State := { s with freeCount := s.freeCount + 1 }

/-- A list without its k-th element. -/
def dropNth {α : Type} (k : Nat) (l : List α) : List α := l.take k ++ l.drop (k + 1)

/-- The slot of a group that issues now: bit 0 slot A, bit 1 slot B. -/
def slotBit (s : State) (gid : Nat) : Nat := match s.focus with | .word g b => if g = gid then (if b then 2 else 1) else 0 | _ => 0

/-- The clause and index of the word a group's issuing slot stands at. -/
def wordAt (s : State) (gid : Nat) : Nat × Nat :=
  match s.focus, getG s gid with
  | .word g b, some x => if g = gid then (if b then (x.slotB.clause, x.slotB.idx) else (x.slotA.clause, x.slotA.idx)) else (0, 0)
  | _, _ => (0, 0)

/-- The active lanes of a word of a slot, and of a per-lane word those it has done once it is performed (R33, R444, R450). -/
def markLanes (g : Group) (sl : Slot) (w : W64) : W64 × W64 :=
  let op := majorOp w
  let m := (bits w 52 3).toNat
  let masked := decide (0x28 ≤ op ∧ op ≤ 0xD4) && !decide (0x82 ≤ op ∧ op ≤ 0x9C) && !decide (0xB5 ≤ op ∧ op ≤ 0xC3)
  let lanes := if masked && decide (m ≠ 0) then sl.mask &&& fget 0#64 m g.m else sl.mask
  let perLane := decide (op = 0x28) || [0x70, 0x71, 0x74, 0x75, 0x76].contains op || decide (0x77 ≤ op ∧ op ≤ 0x81) || decide (op = 0xD4)
  (lanes, if perLane then lanes else 0#64)

/-- The active lanes of the word a slot stands at. -/
def standLanes (g : Group) (sl : Slot) : W64 := (markLanes g sl (sl.words.getD sl.idx 0#64)).1

/-- The active lanes of the word a group's issuing slot stands at. -/
def lanesAt (s : State) (gid : Nat) : W64 :=
  match s.focus, getG s gid with
  | .word g b, some x => if g = gid then standLanes x (if b then x.slotB else x.slotA) else 0#64
  | _, _ => 0#64

/-- Issue an operation: it gets the next serial number and joins those in flight. -/
def launchOp (s : State) (gid ctx core : Nat) (cls : Cls) (op : Op) : State :=
  { s with nextId := s.nextId + 1,
           pend := s.pend ++ [({ id := s.nextId, word := s.nextId, gid := gid, ctx := ctx, core := core, cls := cls, op := op,
                                 by_ := slotBit s gid, pc := wordAt s gid, lanes := lanesAt s gid } : Flight)] }

/-- The same for one of several operations of a word that began at serial number `word`. -/
def launchPart (s : State) (word gid ctx core : Nat) (cls : Cls) (op : Op) : State :=
  { s with nextId := s.nextId + 1,
           pend := s.pend ++ [({ id := s.nextId, word := word, gid := gid, ctx := ctx, core := core, cls := cls, op := op,
                                 by_ := slotBit s gid, pc := wordAt s gid, lanes := lanesAt s gid } : Flight)] }

/-- The same for a misaligned access, whose bytes are performed one by one (R130). -/
def launchLoose (s : State) (word gid ctx core : Nat) (cls : Cls) (op : Op) (loose : List Nat) : State :=
  { s with nextId := s.nextId + 1,
           pend := s.pend ++ [({ id := s.nextId, word := word, gid := gid, ctx := ctx, core := core, cls := cls, op := op,
                                 by_ := slotBit s gid, pc := wordAt s gid, lanes := lanesAt s gid, loose := loose } : Flight)] }

def getPart (s : State) (core part : Nat) : Part :=
  (s.parts.find? (fun p => p.core == core && p.part == part)).getD { core := core, part := part }
def putPart (s : State) (p : Part) : State :=
  if s.parts.any (fun q => q.core == p.core && q.part == p.part)
  then { s with parts := replaceFirst (fun q => q.core == p.core && q.part == p.part) (fun _ => p) s.parts }
  else { s with parts := s.parts ++ [p] }

/-- Progress of a context (R454). -/
def progressed (s : State) (ctx : Nat) : State := match getC s ctx with | some c => putC s { c with progress := s.time } | none => s

/-! Registers (R32, R34). -/

/-- s0 reads as zero (R32). -/
def rs (g : Group) (n : Nat) : W64 := if n = 0 then 0#64 else fget 0#64 n g.s
/-- A write to s0 is discarded (R32, R236). -/
def ws (g : Group) (n : Nat) (v : W64) : Group := if n = 0 then g else { g with s := fput 0#64 n v g.s }
def rv (g : Group) (reg lane : Nat) : W64 := fget 0#64 (reg * 64 + lane) g.v
def wv (g : Group) (reg lane : Nat) (v : W64) : Group := { g with v := fput 0#64 (reg * 64 + lane) v g.v }
/-- The lanes that exist (R31). -/
def widthMask (g : Group) : W64 := BitVec.ofNat 64 (2 ^ g.width - 1)
/-- Mask mk, k from 1 to 7. -/
def rm (g : Group) (k : Nat) : W64 := fget 0#64 k g.m
/-- Writes to the bits of lanes that do not exist are ignored (R31, R299). -/
def wm (g : Group) (k : Nat) (v : W64) : Group := { g with m := fput 0#64 k (v &&& widthMask g) g.m }
def slotOf (g : Group) (b : Bool) : Slot := if b then g.slotB else g.slotA
def setSlot (g : Group) (b : Bool) (x : Slot) : Group := if b then { g with slotB := x } else { g with slotA := x }
/-- Sticky flags are only ever set by instructions (R179). -/
def raiseFlags (g : Group) (f : BitVec 5) : Group := { g with flags := g.flags ||| f }
/-- The lanes of a mask, in increasing order. -/
def lanesOf (m : W64) : List Nat := (List.range 64).filter (fun i => m.getLsbD i)
def lanesMask (l : List Nat) : W64 := BitVec.ofNat 64 (l.foldl (fun a i => a ||| (1 <<< i)) 0)

/-! The issuing word. -/

/-- The slot that issues: its group, the slot letter, the raw word, and the lanes active for it (R33, R449). -/
structure Issue where
  g : Group
  b : Bool
  w : W64
  active : W64
  exec : W64
  replay : Bool

/-- The replay a slot owes (R449). -/
def replayOn (g : Group) (b : Bool) : Option Replay := g.replay.find? (fun r => r.slotB == b)

def issuer (s : State) (w : W64) (msel : Nat) (perLane : Bool) : Option Issue :=
  match s.focus with
  | .word gid b =>
    (getG s gid).map (fun g =>
      let sl := slotOf g b
      let base := if msel = 0 then sl.mask else sl.mask &&& rm g msel
      let mine := replayOn g b
      let due := match mine with
        | some r => r.clause == sl.clause && r.idx == sl.idx
        | none => false
      let lanes := match mine with | some r => if r.exact then r.lanes else base &&& r.lanes | none => 0#64
      { g := g, b := b, w := w, active := if due && perLane then lanes else base, exec := sl.mask, replay := due })
  | _ => none

/-- The slot of an issuing word. -/
def Issue.slot (x : Issue) : Slot := slotOf x.g x.b
/-- The clause header's address of the issuing word. -/
def Issue.hdrAddr (x : Issue) : Nat := x.slot.clause
/-- The header of the clause that follows (R207). -/
def Issue.nextClause (x : Issue) : Nat := x.slot.clause + 8 * (fld x.slot.hdr.toNat 60 4 + 2)

/-- What a word's meaning answers. -/
inductive Res where
  /-- performed; execution goes on at the next word -/
  | ok (s : State)
  /-- performed; the slot continues at a clause -/
  | jump (s : State) (target : Nat)
  /-- not performed: the slot parks and the word runs again when it wakes (R80, R87) -/
  | park (s : State) (p : Park)
  /-- a fault of the word; the state holds what the done lanes performed -/
  | bad (s : State) (f : FInfo)
  /-- performed, and the slot's position is already settled -/
  | done (s : State)

/-! In-flight results by class (R75). -/

/-- Does an operation count in a class? An atomic that returns values counts in loads and in store completion (R309). -/
def inClass (f : Flight) (c : Cls) : Bool :=
  match f.op with
  | .atomic _ _ _ dst _ _ _ => c == .stcomp || (c == .loads && dst != 352)
  | _ => f.cls == c

/-- Is class `c` quiet for the group? The write-combining buffer counts as stores without completion times. -/
def quiet (s : State) (g : Group) (c : Cls) : Bool :=
  s.pend.all (fun f => f.gid != g.gid || !inClass f c) && (c != .stcomp || g.wcb.isEmpty)

/-- All nine classes (R75), in wait-set bit order. -/
def allCls : List Cls := [.loads, .stcomp, .sfu, .tiles, .copy, .tower, .net, .far, .bar]

def allQuiet (s : State) (g : Group) : Bool := allCls.all (quiet s g)

/-- Is every class of a wait set (bits [56:48] of a header) quiet? -/
def waitQuiet (s : State) (g : Group) (hdr : W64) : Bool :=
  (List.range 9).all (fun k => !hdr.getLsbD (48 + k) || quiet s g (allCls.getD k .none))

/-- The condition a release at a scope waits for (R135, R136), once the write-combining buffer is drained: at .tm earlier
accesses performed at their homes; at .cl and .dv also their completion times past; at .sy also every earlier CXL write acknowledged.
Remote local accesses count from .cl on. `before`: the serial number the release stands at. -/
def releaseReady (s : State) (g : Group) (sc : Scope) (before : Nat) : Bool :=
  let mine := s.pend.filter (fun f => f.gid == g.gid && f.id < before)
  let home := g.wcb.all (fun e => decide (before ≤ e.id)) &&
    mine.all (fun f => match f.op with | .store .. => false | .atomic .. => false | .load .. => false | _ => true)
  let remote := mine.all (fun f => match f.op with | .remoteStore .. => false | .remoteLoad .. => false | _ => true)
  match sc with
  | .ln => true
  | .gr => true
  | .tm => home
  | .cl => home && remote && decide (g.wct < s.time)
  | .dv => home && remote && decide (g.wct < s.time)
  | .sy => home && remote && decide (g.wct < s.time) &&
      s.pend.all (fun f => match f.op with | .cxlWrite _ => decide (before ≤ f.id) | _ => true)

/-- The scope a code names (R224); none for 6 and 7. -/
def scopeOf (n : Nat) : Option Scope :=
  match n with
  | 0 => some .ln | 1 => some .gr | 2 => some .tm | 3 => some .cl | 4 => some .dv | 5 => some .sy | _ => none

/-- The bytes of a write-combining line; every listed one is present. -/
def wcbBytes (e : Wcb) : List (Nat × Byte) := e.bytes.filterMap (fun p => p.2.map (fun b => (p.1, b)))

/-- Drain a group's write-combining buffer: each waiting line is sent to its home (R103). -/
def drainWcb (s : State) (gid : Nat) : State :=
  match getG s gid with
  | none => s
  | some g =>
    let s1 := putG s { g with wcb := [] }
    { s1 with
      pend := s1.pend ++ g.wcb.map (fun e =>
        { id := e.id, word := e.id, gid := gid, ctx := g.ctx, core := g.core, cls := .stcomp, op := .store (wcbBytes e) none e.hint false,
          by_ := e.by_, pc := e.pc, lanes := e.lanes, loose := e.loose }) }

/-! The fault record (R444) and delivery (R448). -/

def laneField (f : FInfo) : Nat := match f.lane with | some l => 2 ^ 63 + l * 2 ^ 57 | none => 0

/-- A fault record of a group's slot. `hdr`: the fault is at the clause header, not at a word (R444, R447). -/
def mkRecord (s : State) (g : Group) (b hdr : Bool) (f : FInfo) (lanes : W64) : List W64 :=
  let sl := slotOf g b
  let team := if g.task then 0xF else g.tidx
  [ r64 (f.cls * 2 ^ 56 + f.code % 2 ^ 24 * 2 ^ 32 + g.ctx * 2 ^ 20 + g.core % 128 * 2 ^ 13 + g.part * 2 ^ 11 + g.num * 2 ^ 6 +
      team * 4 + (if b then 2 else 0)),
    r64 ((if g.task then 0xFFFFFFFF else g.cluster) * 2 ^ 32 + g.grid % 2 ^ 32),
    r64 (if hdr then sl.clause else sl.idx * 2 ^ 60 + (sl.clause + 8 * (sl.idx + 1)) % 2 ^ 57),
    lanes, f.done, r64 f.addr,
    r64 (laneField f + f.eng * 2 ^ 48 + f.unit % 256 * 2 ^ 40 + f.index % 2 ^ 32),
    r64 s.time ]

def recordBytes (r : List W64) : List Byte := (r.map (fun q => toBytes 8 q.toNat)).flatten

/-- A message of the service as bytes, up to its signature (R433). -/
def msgBytes (m : Msg) : List Byte :=
  toBytes 2 m.code ++ toBytes 1 m.dir ++ [0#8] ++ toBytes 4 m.payload.length ++ toBytes 8 m.job ++ toBytes 8 m.seq ++ toBytes 2 m.ctx ++
    toBytes 2 m.status ++ List.replicate 36 0#8 ++ m.payload

/-- Send a message, signed by the identity key over its digest (R433). -/
def sendMsg (s : State) (m : Msg) : State := { s with msgs := s.msgs ++ [{ m with sig := Config.sm2Sign (Config.sm3 (msgBytes m)) }] }

/-- Send a notice of the service to a job's client (R433): code 32 a fault record, 33 a breakpoint. -/
def notice (s : State) (job ctx code : Nat) (payload : List Byte) : State :=
  sendMsg { s with noticeSeq := s.noticeSeq + 1 }
    { code := code, dir := 2, job := job, seq := s.noticeSeq, ctx := ctx, status := 0, payload := payload, sig := 0 }

def jobOf (s : State) (ctx : Nat) : Nat := match getC s ctx with | some c => c.job | none => 0

/-- Stop a context as a pre-emption does (R448, R87), with the cause that decides whether it may resume. -/
def stopCtx (s : State) (ctx cause : Nat) : State :=
  match getC s ctx with
  | none => s
  | some c => match c.run with
    | .running => putC s { c with run := .stopping cause }
    | .stopping k => if cause = 0x19 ∨ cause = 0x1A then putC s { c with run := .stopping cause } else putC s { c with run := .stopping k }
    | .aside k => if cause = 0x19 ∨ cause = 0x1A then putC s { c with run := .aside cause } else putC s { c with run := .aside k }

/-- The trap field of a group's launch record (R61); control cores have none. -/
def trapOf (s : State) (g : Group) : Nat := match getGrid s g.ctx g.grid with | some r => le r.lrec 48 8 | none => 0

/-- The classes R443 delivers to the handler. -/
def toHandler (cls : Nat) : Bool := cls < 0x19 || cls = 0x1B || cls = 0x1E

/-- Which lanes the record names as the word's lanes (R444, R449): those given, else the slot's. -/
def recLanes (g : Group) (b : Bool) (f : FInfo) : W64 := f.lanes.getD (slotOf g b).mask

/-- The replays of a group once slot `b` owes `r`; the other slot's stays (R449). -/
def setReplay (g : Group) (b : Bool) (r : Option Replay) : Group := { g with replay := g.replay.filter (fun q => q.slotB != b) ++ r.toList }

/-- What a group keeps while its handler runs (R267, R270): where `rte` resumes, the record, the lanes a replay repeats, and the park
of the other slot. -/
def newHandler (s : State) (g : Group) (b hdr : Bool) (f : FInfo) (epc eidx : Nat) : Handler :=
  { slotB := b, epc := epc, eidx := eidx, done := f.done, frec := mkRecord s g b hdr f (recLanes g b f), lanes := recLanes g b f,
    mask := (slotOf g b).mask, word := if hdr ∨ f.cls = 0 then none else some (epc, eidx), other := (slotOf g (!b)).park, tower := f.share,
    atHdr := hdr, before := if hdr then replayOn g b else none, hold := g.hold }

def setHandler (g : Group) (h : Option Handler) : Group := { g with handler := h }

/-- The slot of the handler: at the trap clause, once the group is settled (R446, R268). -/
def entrySlot (sl : Slot) (trap : Nat) : Slot := { sl with clause := trap, idx := 0, half := false, started := false, park := some .drain }

/-- The other slot parks until `rte`, at its next clause boundary (R267, R452). -/
def parkOther (g : Group) (b : Bool) : Group :=
  let other := slotOf g (!b)
  match other.st with
  | .free => g
  | _ => if other.started then g else setSlot g (!b) { other with park := some .handler }

/-- The group at the entry of its handler. -/
def entryGroup (s : State) (g : Group) (b hdr : Bool) (f : FInfo) (epc eidx : Nat) : Group :=
  parkOther (setSlot { setHandler (setReplay g b none) (some (newHandler s g b hdr f epc eidx)) with hold := false } b
    (entrySlot (slotOf g b) (trapOf s g))) b

/-- A replay that stays due behind a fault at a clause start or a marker; what the fault owes a tower comes with it (R449, R487). -/
def owedAt (r : Replay) (tower : Option TowerRef) : Replay :=
  match tower, r.tower with
  | some q, _ => { r with tower := some q, atHdr := true }
  | none, some _ => r
  | none, none => { r with atHdr := true }

/-- The replay due when the context resumes after the service took the record (R448, R449). -/
def serviceReplay (g : Group) (b hdr : Bool) (f : FInfo) (epc eidx : Nat) : Replay :=
  if hdr then
    owedAt ((replayOn g b).getD { slotB := b, clause := epc, idx := eidx, lanes := BitVec.allOnes 64, exact := false, drop := false }) f.share
  else { slotB := b, clause := epc, idx := eidx, lanes := recLanes g b f &&& ~~~f.done, exact := true, drop := false, tower := f.share }

/-- The group as a resume finds it. -/
def stoppedGroup (s : State) (g : Group) (b hdr : Bool) (f : FInfo) (epc eidx : Nat) : Group :=
  setSlot (setReplay g b (if f.cls = 0 then none else some (serviceReplay g b hdr f epc eidx))) b
    { slotOf g b with clause := epc, idx := eidx, half := false, started := false, park := none, waitSince := s.time, extSince := s.time }

/-- TAKING AN EXCEPTION (R446 to R448, R267, R268). `epc`, `eidx`: where `rte` resumes. The slot continues at the trap
clause once the group's loads, special-function results, tiles and stores are settled; the other slot parks until `rte`, at its next
clause boundary (R452).
Without a handler, or inside one, the record goes to the service, which stops the context; the slot stands where a resume
continues. -/
def takeException (s : State) (g : Group) (b hdr : Bool) (f : FInfo) (epc eidx : Nat) : State :=
  if trapOf s g ≠ 0 ∧ g.handler.isNone ∧ toHandler f.cls then drainWcb (putG s (entryGroup s g b hdr f epc eidx)) g.gid
  else
    notice (stopCtx (drainWcb (putG s (stoppedGroup s g b hdr f epc eidx)) g.gid) g.ctx f.cls) (jobOf s g.ctx) g.ctx 32
      (recordBytes (mkRecord s g b hdr f (recLanes g b f)))

/-- Does the job of a context know a device (R375, R498)? A number marked lost stays known (R503, log entry 41). -/
def knowsDev (s : State) (ctx dev : Nat) : Bool :=
  match s.jobs.find? (fun j => j.job == jobOf s ctx) with | some j => dev == j.self || j.table.contains dev || j.lost.contains dev | none => false
def lostDev (s : State) (ctx dev : Nat) : Bool :=
  match s.jobs.find? (fun j => j.job == jobOf s ctx) with | some j => j.lost.contains dev | none => false

/-- An entry of the Gloper controller's log of 65,536, the oldest giving way (R437). -/
def logEvent (s : State) (kind detail : Nat) : State :=
  { s with log := (s.log.reverse.take 65535).reverse ++ [{ time := s.time, kind := kind, detail := detail }] }

/-- A record of class 0x1C, 0x1D or 0x1E with no group to receive it (R443, R447, R495, R497): it goes to the service, which
logs each of class 0x1D (R495; DESIGN CHOICE, log entry 108: in the log of R437, as kind 6). -/
def serviceRecord (s : State) (ctx : Nat) (f : FInfo) (q1 : Nat) : State :=
  notice (if f.cls = 0x1D then logEvent s 6 f.code else s) (jobOf s ctx) ctx 32 (recordBytes
    [ r64 (f.cls * 2 ^ 56 + f.code * 2 ^ 32 + ctx * 2 ^ 20), r64 q1, 0#64, 0#64, 0#64, r64 f.addr,
      r64 (laneField f + f.eng * 2 ^ 48 + f.unit % 256 * 2 ^ 40 + f.index % 2 ^ 32), r64 s.time ])

/-- The grid of a group receives a completion time, which its completion waits for (R67). -/
def feedGrid (s : State) (gid t : Nat) : State :=
  match getG s gid with
  | none => s
  | some g => match getGrid s g.ctx g.grid with
    | none => s
    | some r => putGrid s { r with wct := max r.wct t }

/-! Machine checks (R456 to R458). -/

/-- A group as it stood at the word of an operation in flight, for a record that names that word. -/
def atWord (g : Group) (b : Bool) (pc : Nat × Nat) : Group := setSlot g b { slotOf g b with clause := pc.1, idx := pc.2 }

/-- An uncorrectable error in the data of an operation: a machine check of its group at that access, or of its context when the group has
gone; the service stops the context, which only a destroy ends (R448, R458). `code` numbers the structures of R456 from 0. -/
def machineCheck (s : State) (f : Flight) (code addr eng unit index : Nat) : State :=
  let e : FInfo := { cls := 0x19, code := code, addr := addr, eng := eng, unit := unit, index := index }
  match getG s f.gid with
  | none => stopCtx (serviceRecord s f.ctx e 0) f.ctx 0x19
  | some g =>
    let b := decide (f.by_ = 2)
    notice (stopCtx (drainWcb s g.gid) g.ctx 0x19) (jobOf s g.ctx) g.ctx 32
      (recordBytes (mkRecord s (atWord g b f.pc) b false e f.lanes))

/-! Progress of a slot. -/

/-- Take a slot out of its partition's current clause. -/
def leavePart (s : State) (g : Group) (b : Bool) : State :=
  let p := getPart s g.core g.part
  putPart s { p with cur := p.cur.filter (fun q => q != (g.gid, b)) }

/-- The next word of a packed clause is issued for the next packed slot (R81); where a fault ended the packing the slot goes on alone
(R452). -/
def rotatePart (s : State) (g : Group) (b : Bool) : State :=
  let p := getPart s g.core g.part
  if p.ending then leavePart s g b
  else putPart s { p with cur := p.cur.filter (fun q => q != (g.gid, b)) ++ (if p.cur.any (fun q => q == (g.gid, b)) then [(g.gid, b)] else []) }

/-- The word a slot of a packed clause stands at. -/
def placeOf (s : State) (q : Nat × Bool) : Nat := match getG s q.1 with | some g => (slotOf g q.2).idx | none => 0

/-- A fault of a packed slot ends the packing at its word: the slots that have performed that word leave at once, the others once they
have (R452). -/
def endPacking (s : State) (g : Group) (b : Bool) : State :=
  let p := getPart s g.core g.part
  let me := placeOf s (g.gid, b)
  let stay := p.cur.filter (fun q => q != (g.gid, b) && placeOf s q == me)
  putPart s { p with cur := stay, ending := !stay.isEmpty }

/-- A slot set to start at a clause (R244). -/
def atClause (sl : Slot) (target : Nat) : Slot :=
  { sl with clause := target, idx := 0, half := false, started := false, park := none }

/-- The word a slot stands at, kept while its switch marker parks the slot. -/
def markOf (sl : Slot) : Option (Nat × Nat × W64) := some (sl.clause, sl.idx, sl.words.getD sl.idx 0#64)

/-- Does a switch marker park the group: is a result outstanding, or a fault of an engine to be raised by a wait (R78, R447)? -/
def markHolds (s : State) (g : Group) (sw : Bool) : Bool := sw && !(allQuiet s g && g.due.isEmpty)

/-- A switch marker parks the slot until every result of the group has returned (R78). -/
def switchPark (s : State) (g : Group) (sw : Bool) : Option Park := if markHolds s g sw then some .marker else none

/-- The marker of a word after which its slot is free, waits at a join, or goes on elsewhere parks the group (R78). -/
def holdGroup (s : State) (gid : Nat) (sw : Bool) : State :=
  match getG s gid with | none => s | some g => putG s { g with hold := markHolds s g sw }

/-- The slot after the first half of a pair word (R229). -/
def halfDone (sl : Slot) : Slot := { sl with half := true, park := none }

/-- The slot after a performed word: at the next word of its clause, or at the clause that follows it (R207). -/
def slotAfter (sl : Slot) (park : Option Park) (since : Nat) : Slot :=
  if sl.idx < fld sl.hdr.toNat 60 4 then { sl with idx := sl.idx + 1, half := false, park := park, waitSince := since, extSince := since, marked := markOf sl }
  else { atClause sl (sl.clause + 8 * (fld sl.hdr.toNat 60 4 + 2)) with park := park, waitSince := since, extSince := since, marked := markOf sl }

/-- The slot after a transfer (R244). -/
def slotJump (sl : Slot) (target : Nat) (park : Option Park) (since : Nat) : Slot :=
  { atClause sl target with park := park, waitSince := since, extSince := since, marked := markOf sl }

/-- The slot of a group moves on after a word has been performed: the second half of a pair, the next word, or the next
clause (R207, R214, R229); a switch marker parks it until every result has returned (R78), and ends a packing (R81). -/
def advance (s : State) (gid : Nat) (b pair : Bool) (sw : Bool) : State :=
  match getG s gid with
  | none => s
  | some g =>
    let sl := slotOf g b
    let g0 := setReplay g b none
    if pair && !sl.half then putG s (setSlot g0 b (halfDone sl))
    else
      let mark := switchPark s g sw
      let more := decide (sl.idx < fld sl.hdr.toNat 60 4)
      let s1 := putG s (setSlot g0 b (slotAfter sl mark (if more && !sw then sl.waitSince else s.time)))
      if more && mark.isNone && !(sw && decide (1 < (getPart s g.core g.part).cur.length)) then rotatePart s1 g0 b else leavePart s1 g0 b

/-- The slot continues at `target` (R244). -/
def jumpTo (s : State) (gid : Nat) (b : Bool) (target : Nat) (sw : Bool) : State :=
  match getG s gid with
  | none => s
  | some g =>
    let g0 := setReplay g b none
    leavePart (putG s (setSlot g0 b (slotJump (slotOf g b) target (switchPark s g sw) s.time))) g0 b

/-- Is a park the same wait on an external source as another (R453)? -/
def sameWait (p q : Park) : Bool :=
  match p, q with
  | .cnt _ _, .cnt _ _ => true
  | .coll, .coll => true
  | .ac _ _ _, .ac _ _ _ => true
  | .nap _ _ _, .nap _ _ _ => true
  | .await _, .await _ => true
  | _, _ => false

/-- The slot parks at its word (R80); it leaves the clause being issued. -/
def parkAt (s : State) (gid : Nat) (b : Bool) (p : Park) : State :=
  match getG s gid with
  | none => s
  | some g =>
    let sl := slotOf g b
    leavePart (putG s (setSlot g b { sl with
      park := some p, waitSince := match sl.park with | some _ => sl.waitSince | none => s.time,
      extSince := match sl.park with | some q => if sameWait q p then sl.extSince else s.time | none => s.time })) g b

/-- A fault at the issuing word (R446): EPC and EIDX name the word. -/
def raiseAt (s : State) (gid : Nat) (b : Bool) (f : FInfo) : State :=
  match getG s gid with
  | none => s
  | some g => takeException (endPacking s g b) g b false f (slotOf g b).clause (slotOf g b).idx

/-- Settle what a word's meaning answered. -/
def settle (x : Issue) (pair : Bool) (r : Res) : State :=
  match r with
  | .ok s => advance s x.g.gid x.b pair (!pair && x.w.getLsbD 55)
  | .jump s t => jumpTo s x.g.gid x.b t (x.w.getLsbD 55)
  | .park s p => parkAt s x.g.gid x.b p
  | .bad s f => raiseAt s x.g.gid x.b { f with lanes := some (f.lanes.getD x.active) }
  | .done s => s

/-- A meaning that only changes the issuing group. -/
def okG (s : State) (g : Group) : Res := .ok (putG s g)

/-- A fault that leaves the state as it was. -/
def badW (s : State) (cls code addr index : Nat) : Res := .bad s { cls := cls, code := code, addr := addr, index := index }

/-- The replay a return at EPC and EIDX makes due (R449, R450, R487); a replay that a fault at a clause start came before stays due when
the return names its word. -/
def replayOf (h : Handler) : Replay :=
  let same := decide (h.word = some (h.epc, h.eidx))
  let hdrSame := h.atHdr && decide (h.eidx = 0)
  let fresh : Replay :=
    { slotB := h.slotB, clause := h.epc, idx := h.eidx,
      lanes := if same then h.lanes &&& ~~~h.done else BitVec.allOnes 64,
      exact := same, drop := h.done.getLsbD 0, tower := if same || hdrSame then h.tower else none, atHdr := h.atHdr }
  match h.before with
  | some r => if (h.epc = r.clause ∧ h.eidx = r.idx) ∨ (h.mark.isSome ∧ same) then { owedAt r h.tower with drop := if h.tower.isSome then fresh.drop else r.drop } else fresh
  | none => fresh

/-- Where a return puts the handler's slot (R269): at word EIDX of the clause at EPC. After a fault at a switch marker a return to the
marked word repeats the marker's wait alone, because that word was performed. -/
def returnSlot (s : State) (sl : Slot) (h : Handler) : Slot :=
  let back := { sl with clause := h.epc, idx := h.eidx, mask := h.mask, half := false, started := false, park := none,
                        waitSince := s.time, extSince := s.time }
  match h.mark, h.word with
  | some (c, i), some w => if w = (h.epc, h.eidx) then { back with clause := c, idx := i, park := some .marker } else back
  | _, _ => back

/-- The other slot's park after a return (R267). -/
def unparkOther (h : Handler) (sl : Slot) : Slot := { sl with park := match sl.park with | some .handler => h.other | p => p }

/-- RETURN FROM AN EXCEPTION (R269): the handler's slot resumes with the lanes it held, the other slot is unparked, and the faulting
word, when it is named, issues again for the record's lanes that are not in DONE (R449). -/
def returnException (s : State) (g : Group) (h : Handler) : State :=
  let g1 := setReplay { setHandler g none with hold := h.hold } h.slotB (some (replayOf h))
  let g2 := setSlot g1 h.slotB (returnSlot s (slotOf g h.slotB) h)
  let g3 := setSlot g2 (!h.slotB) (unparkOther h (slotOf g (!h.slotB)))
  leavePart (putG s g3) g h.slotB

/-- A kept fault raised while a slot is parked by a switch marker (R447, R497): the record names the marked word; without a
handler the slot stands where its wait is repeated. -/
def raiseMarker (s : State) (gid : Nat) (b : Bool) (f : FInfo) : State :=
  match getG s gid with
  | none => s
  | some g =>
    let sl := slotOf g b
    match sl.marked with
    | none => takeException s g b true f sl.clause 0
    | some (c, i, _) =>
      let s1 := takeException s (setSlot g b { sl with clause := c, idx := i }) b false f c i
      match getG s1 gid with
      | none => s1
      | some g1 => match g1.handler with
        | some h =>
          if g.handler.isNone then putG s1 { g1 with handler := some { h with mark := some (sl.clause, sl.idx), atHdr := true, before := replayOn g b } }
          else putG s1 (setSlot g1 b { sl with park := some .marker })
        | none =>
          let owed := (replayOn g b).orElse (fun _ => (replayOn g1 b).map (fun r => { r with exact := false, lanes := BitVec.allOnes 64 }))
          putG s1 (setSlot (setReplay g1 b (owed.map (fun r => owedAt r f.share))) b { sl with park := some .marker })

end Sys2Proof.Machine
end

