-- ==== Sys2Proof/Machine/Check.lean ====
section
/-! DEFINITION. The checks a word meets before its effect: the clause header (R208), decoding (class 0x01, R463 step 2),
privilege (class 0x02), block bounds (class 0x03), in that order; then how a word runs. -/

namespace Sys2Proof.Machine

/-- A mask of `len` bits from bit `lo`. -/
def fm (lo len : Nat) : Nat := (2 ^ len - 1) <<< lo

/-- What a word form uses and allows: the bits that are not reserved for it (R217), register codes with whether each is
allowed (R218), type codes (R221), coded fields by their lowest bit, column pairs of accumulator fragments (R219), its unit
class (R211), whether it ends its clause (R214), whether a control core executes it (R233), and the vector register blocks it
names, each with its rows and columns (R38). -/
structure Form where
  used : Nat
  regs : List (Nat × Bool) := []
  types : List (Nat × Bool) := []
  coded : List (Nat × Bool) := []
  frags : List (Nat × Bool) := []
  unit : Nat := 0
  ends : Bool := false
  ctl : Bool := false
  blocks : List (Nat × Nat × Nat) := []
  deriving DecidableEq, Repr

/-- op, sw and msel stand in every format. -/
def headBits : Nat := fm 52 12

/-- Which of its two forms an S-format word takes (R236). -/
inductive IForm where
  | no | yes | only
  deriving DecidableEq, Repr

def dS : Nat := fm 45 6
def aS : Nat := fm 39 6
def bS : Nat := fm 33 6
def cS : Nat := fm 27 6
def iS : Nat := fm 7 20

/-- The form of an S-format word: the bits each of its forms uses. A form the word does not take is code 6 at the I bit, whatever that
form's own operand field [38:7] holds (R236; log entry 21). -/
def formS (w : SWord) (k : IForm) (regUsed immUsed : Nat) : Form :=
  match w.src, k with
  | .reg _ _ _, .only => { used := headBits + fm 7 32 + immUsed, coded := [(51, false)], ctl := true }
  | .imm _, .no => { used := headBits + fm 51 1 + fm 7 32 + (regUsed &&& (dS + aS + fm 0 7)), coded := [(51, false)], ctl := true }
  | .reg _ _ _, _ => { used := headBits + regUsed, ctl := true }
  | .imm _, _ => { used := headBits + fm 51 1 + fm 7 32 + immUsed, ctl := true }

/-- Add a coded field check to a form whose I bit is right. -/
def Form.code (f : Form) (l : List (Nat × Bool)) : Form := { f with coded := f.coded ++ l }

/-- The form of an arithmetic scalar word in both forms; `f` are the bits of f7 it uses. -/
def formAlu (w : SWord) (f : Nat) : Form := formS w .yes (dS + aS + bS + f) (dS + aS + f)

/-- An S-format word of register form only, outside the scalar family. -/
def formR (w : SWord) (used unit : Nat) : Form := { formS w .no used 0 with unit := unit, ctl := false }

/-- A C-format word (R223); msel is ignored (R244). -/
def formC (used : Nat) (ends ctl : Bool) : Form := { used := headBits + fm 0 40 + used, ends := ends, ctl := ctl }

/-- A Y-format word (R228). -/
def formY (used : Nat) (ends : Bool) : Form := { used := headBits + used, ends := ends, ctl := true }

def imm20 (w : SWord) : Nat := match w.src with | .reg _ _ i => i.toNat | .imm i => i.toNat % 2 ^ 20

/-- pos + width of a bitfield word is at most 64 (R240). -/
def bfOk (w : SWord) : Bool := decide (fld (imm20 w) 0 6 + fld (imm20 w) 6 6 + 1 ≤ 64)

/-! The vector word's operands (R216 to R220). -/

/-- Where an operand field may point. -/
inductive Opd where
  /-- unused: the field is reserved -/
  | none
  /-- a vector register -/
  | vec
  /-- a vector register, a scalar or an accumulator fragment -/
  | src
  /-- a scalar code -/
  | sca
  /-- a vector register or a scalar (a destination) -/
  | vs
  /-- a mask to be read, exec included; with scalars; with vector registers -/
  | msk | mskS | mskV
  /-- a mask to be written -/
  | mskD
  /-- a mask to be written, or a scalar -/
  | mskDS
  /-- the field holds an immediate -/
  | imm
  deriving DecidableEq, Repr

def isVec (c : Nat) : Bool := decide (c < 320)
def isAcc (c : Nat) : Bool := decide (320 ≤ c ∧ c < 352)
def isSca (c : Nat) : Bool := decide (352 ≤ c ∧ c < 416)
def isMask (c : Nat) : Bool := decide (448 ≤ c ∧ c < 456)

/-- Is a register code in the set its field allows (R218)? -/
def opdOk (k : Opd) (c : Nat) : Bool :=
  match k with
  | .none => true
  | .imm => true
  | .vec => isVec c
  | .src => isVec c || isAcc c || isSca c
  | .sca => isSca c
  | .vs => isVec c || isSca c
  | .msk => isMask c
  | .mskS => isMask c || isSca c
  | .mskV => isMask c || isVec c
  | .mskD => isMask c && decide (c ≠ 448)
  | .mskDS => (isMask c && decide (c ≠ 448)) || isSca c

/-- Does a field of this kind use its nine bits? -/
def opdUsed (k : Opd) (lo : Nat) : Nat := match k with | .none => 0 | _ => fm lo 9

/-- The widths of the type codes 0 to 20 (R28, R221). -/
def tyWidth (t : Nat) : Nat :=
  match t with
  | 0 => 64 | 1 => 64 | 2 => 64
  | 3 => 32 | 4 => 32 | 5 => 32 | 6 => 32
  | 7 => 16 | 8 => 16 | 9 => 16 | 10 => 16
  | 11 => 8 | 12 => 8 | 13 => 8 | 14 => 8 | 15 => 8 | 16 => 8
  | 17 => 4 | 18 => 4 | 19 => 2 | 20 => 2
  | _ => 64

/-- .iN types (R5). -/
def tySigned (t : Nat) : Bool := [0, 3, 7, 11, 17, 19].contains t
/-- The type classes I, IB and ANY of R274, and the float types of R273. -/
def tyI (t : Nat) : Bool := [0, 1, 3, 4, 7, 8, 11, 12, 17, 18, 19, 20].contains t
def tyIB (t : Nat) : Bool := tyI t || [2, 5, 9, 13].contains t
def tyAny (t : Nat) : Bool := decide (t ≤ 20)
def tyF (t : Nat) : Bool := [6, 9, 10].contains t
def tyB64 (t : Nat) : Bool := decide (t = 2)

/-- The types of a fragment (R219). -/
def tyFrag (t : Nat) : Bool := [6, 3, 4, 5, 2].contains t

/-- The form of a vector word: msel used or not, a block extent or 1 x 1, operand kinds, further bits of c, the bits of fn
it uses, the types it accepts. -/
def formV (w : VWord) (msel ext : Bool) (d a b c : Opd) (cBits fnBits : Nat) (ty : Nat → Bool) : Form :=
  let acc := (decide (a = .src) && isAcc w.a.toNat) || (decide (b = .src) && isAcc w.b.toNat)
  let both := decide (a = .src) && isAcc w.a.toNat && (decide (b = .src) && isAcc w.b.toNat)
  let n := if isAcc w.a.toNat && decide (a = .src) then w.a.toNat - 320 else w.b.toNat - 320
  let er := if ext then w.rows.toNat + 1 else 1
  let ec := if ext then w.cols.toNat + 1 else 1
  let p := w.c.toNat % 32
  let vecs (k : Opd) (x : BitVec 9) : List Nat :=
    match k with | .none => [] | .imm => [] | _ => if isVec x.toNat then [x.toNat] else []
  { used := fm 55 9 + (if msel then fm 52 3 else 0) + (if ext then fm 48 4 else 0) + opdUsed d 39 + opdUsed a 30 +
      opdUsed b 21 + (if acc ∧ c = .none ∧ cBits = 0 then fm 12 5 else (opdUsed c 12 ||| cBits)) + fm 7 5 + fnBits,
    regs := [(w.d.toNat, opdOk d w.d.toNat), (w.a.toNat, opdOk a w.a.toNat), (w.b.toNat, opdOk b w.b.toNat),
             (w.c.toNat, opdOk c w.c.toNat)],
    types := [(w.ty.toNat, ty w.ty.toNat)],
    frags := if acc then
        [(p, decide (c = .none) && decide (cBits = 0) && !both && tyFrag w.ty.toNat && decide (n + er - 1 ≤ 31) &&
             decide (p + ec - 1 ≤ 31))]
      else [],
    blocks := (vecs d w.d ++ vecs a w.a ++ vecs b w.b ++ vecs c w.c).map (fun r => (r, er, ec)) }

/-- The shift words (R275). -/
def formShift (w : VWord) : Form :=
  if w.fn.getLsbD 0 then formV w true true .vec .src .none .none (fm 12 6) (fm 0 1) tyIB
  else formV w true true .vec .src .src .none 0 (fm 0 1) tyIB

/-- The block registers overlap (R294). -/
def blocksMeet (w : VWord) : Bool :=
  let regs (x : BitVec 9) : List Nat :=
    (List.range (w.rows.toNat + 1)).flatMap (fun i => (List.range (w.cols.toNat + 1)).map (fun j => x.toNat + 16 * i + j))
  (regs w.d).any (fun r => (regs w.c).contains r)

/-- The raw types of R285. -/
def tyRaw (t : Nat) : Bool := [2, 5, 13].contains t

/-- `v.cvt` (R284, R285). -/
def formCvt (w : VWord) : Form :=
  let src := w.c.toNat % 32
  let mode := w.fn.toNat % 8
  let ws := tyWidth src
  let wd := tyWidth w.ty.toNat
  let raw := tyRaw src || tyRaw w.ty.toNat
  let sat := w.b.getLsbD 5
  let ftz := w.b.getLsbD 6
  let f := formV w true true .vec .src .none .none (fm 12 5) 0 (fun t => decide (t ≤ 20))
  { f with
    used := f.used + fm 21 5 + (if mode = 5 then 0 else fm 26 2) + fm 0 3 +
      (if mode = 4 then fm 3 4 else if mode = 5 then fm 3 3 else 0),
    types := f.types ++ [(src, decide (src ≤ 20))],
    coded := [(0, decide (mode ≤ 5)),
              (if mode ≠ 0 then 0 else if sat then 26 else 27, !raw || (decide (mode = 0) && !sat && !ftz)),
              (21, decide (w.b.toNat % 32 < max ws wd / min ws wd))] }

/-- `x.scan` and `x.red` (R296). -/
def formScan (w : VWord) (scan : Bool) : Form :=
  let op := w.fn.toNat % 8
  let arith := decide (op ≤ 2)
  let isF := arith && tyF w.ty.toNat
  let isAdd := decide (op = 0) && tyI w.ty.toNat
  let toS := !scan && isSca w.d.toNat
  let f := formV w true (!toS) (if scan then .vec else .vs) .src .none .none 0
    (fm 0 3 + (if scan then fm 3 1 else 0) + (if isAdd then fm 4 1 else 0) + (if isF then fm 5 1 else 0))
    (fun t => if arith then tyI t || tyF t else tyIB t)
  f.code [(0, decide (op ≤ 5))]

/-- The base of a quantising word's scalar pair is s0 to s62 (R287). -/
def quantBase (w : VWord) (f : Form) : Form := { f with regs := f.regs ++ [(w.c.toNat, decide (w.c.toNat ≤ 414))] }

/-- The raw types a packing word takes without saturation (R286). -/
def tyRaw4 (t : Nat) : Bool := [2, 5, 9, 13].contains t

/-- `x.bfly` (R294). -/
def formBfly (width : Nat) (w : VWord) : Form :=
  (formV w true true .vec .src .src .vec 0 (fm 0 4) tyAny).code
    [(0, decide (2 ^ (w.fn.toNat % 16) < width * (64 / tyWidth w.ty.toNat))), (12, !blocksMeet w)]

/-- `far.add` (R373); its extent is a block-bounds check. -/
def formFar (w : VWord) : Form :=
  let f := formV w true false .none .vec .vec .none 0 0 (fun t => t == 6 || t == 22)
  { f with used := f.used + fm 48 4, unit := 5,
           blocks := f.blocks.map (fun r => if r.1 = w.b.toNat ∧ w.ty.toNat = 22 then (r.1, 4, 4) else r) }

/-- The M words (R224, R300): the order the word allows beside none, its data and index sets, whether it is local or scalar. -/
def formM (w : MWord) (order : Nat) (scalar loc pair : Bool) : Form :=
  let d := w.data.toNat
  let ix := w.index.toNat
  let o := w.order.toNat
  let sc := w.scope.toNat
  { used := 2 ^ 64 - 1,
    regs := [(d, if scalar then isSca d else isVec d && (!pair || decide (d % 16 ≤ 14))),
             (ix, decide (ix = 511) || (!scalar && isVec ix))],
    coded := [(0, !loc || decide (w.hint.toNat ≤ 1)),
              (2, if o = 0 then decide (sc = 0) else if loc then decide (1 ≤ sc ∧ sc ≤ 3) else decide (1 ≤ sc ∧ sc ≤ 5)),
              (5, decide (o = 0 ∨ o = order)),
              (7, !pair || decide (w.width.toNat = 3))],
    unit := 2, ctl := scalar,
    blocks := (if isVec d && !scalar then [(d, 1, if pair then 2 else 1)] else []) ++ (if isVec ix then [(ix, 1, 1)] else []) }

/-- The atomic words (R306, R307). -/
def formAt (w : VWord) (cas : Bool) (ty : Nat → Bool) : Form :=
  let wide := decide (w.ty.toNat = 21)
  let f := formV w true false (if w.d.toNat = 352 then .sca else .vec) .vec .vs (if cas then .vs else .none) 0 (fm 2 5) ty
  let ok (k : Nat) : Bool := isVec k && decide (k % 16 ≤ 14)
  { f with
    regs := f.regs ++ (if wide then [(w.d.toNat, decide (w.d.toNat = 352) || ok w.d.toNat), (w.b.toNat, ok w.b.toNat),
                                     (w.c.toNat, ok w.c.toNat)] else []),
    coded := [(2, decide (1 ≤ fld w.fn.toNat 2 3 ∧ fld w.fn.toNat 2 3 ≤ 5))],
    unit := 2,
    blocks := f.blocks.map (fun r => if wide ∧ r.1 ≠ w.a.toNat then (r.1, 1, 2) else r) }

def tyInt32 (t : Nat) : Bool := [0, 1, 3, 4].contains t
def tyRaw32 (t : Nat) : Bool := [2, 5].contains t

/-- The X words (R226): the fields used. -/
def formX (used : Nat) : Form := { used := fm 55 9 + used, unit := 4 }

/-- A pass word's A register (R338). -/
def formPass (w : XWord) (used : Nat) : Form :=
  let a := w.a.toNat
  { formX (fm 52 3 + used) with regs := [(a, isVec a)], blocks := if isVec a then [(a, 1, 1)] else [] }

/-- The T words (R227). -/
def formT (used : Nat) : Form := { used := headBits + used, unit := 5 }

/-- The N words (R227). -/
def formN (used : Nat) : Form := { used := fm 55 9 + used, unit := 6 }

/-- The bits of imm20 a station word uses: bit 4, and the counter when bit 4 is set (R353). -/
def ctrBits (w : SWord) : Nat := fm 11 1 + (if (imm20 w).testBit 4 then fm 7 4 else 0)

/-- The bits of f12 and of the device fields a transfer word uses (R376). -/
def netBits (w : NWord) : Nat :=
  fm 9 3 + (if w.f12.getLsbD 9 then fm 0 9 else 0) + (if w.f12.getLsbD 11 then fm 28 6 else fm 12 16)

def saN : Nat := fm 46 6
def sbN : Nat := fm 40 6
def scN : Nat := fm 34 6
def sdN : Nat := fm 28 6

/-- The form of every core word; `width` is the group's W, which bounds a butterfly's j (R294). Cane commands, pair halves and
events have no form: the sequencer checks its commands (R365), and a pair word is checked whole (R467). `exit` and `nop` take a zero msel as
every other field of theirs (R252, R264; log entry 95). `m.set` takes the sources of its row of R299, a scalar or a vector; a mask code is
refused there with code 4, though the rule's first sentences list mask codes too: DESIGN CHOICE (log entry 112). -/
def form (width : Nat) (i : Instr) : Option Form :=
  match i with
  | .sAdd w => some (formAlu w 0)
  | .sSub w => some (formAlu w 0)
  | .sMul w => some (formAlu w 0)
  | .sMulh w => some (formAlu w (fm 0 1))
  | .sDiv w => some (formAlu w (fm 0 1))
  | .sRem w => some (formAlu w (fm 0 1))
  | .sAnd w => some (formAlu w 0)
  | .sOr w => some (formAlu w 0)
  | .sXor w => some (formAlu w 0)
  | .sAndn w => some (formAlu w 0)
  | .sShl w => some (formAlu w 0)
  | .sShr w => some (formAlu w 0)
  | .sSar w => some (formAlu w 0)
  | .sMin w => some (formAlu w (fm 0 1))
  | .sMax w => some (formAlu w (fm 0 1))
  | .sClz w => some (formS w .no (dS + aS) 0)
  | .sPopc w => some (formS w .no (dS + aS) 0)
  | .sBfx w => some ((formS w .no (dS + aS + fm 7 12 + fm 0 1) 0).code [(7, bfOk w)])
  | .sBfi w => some ((formS w .no (dS + aS + bS + fm 7 12) 0).code [(7, bfOk w)])
  | .sSxt w => some (formS w .no (dS + aS + fm 7 6) 0)
  | .sZxt w => some (formS w .no (dS + aS + fm 7 6) 0)
  | .sCmp w => some ((formAlu w (fm 0 4)).code [(0, decide (w.f7.toNat % 8 ≤ 5))])
  | .sSel w => some (formS w .no (dS + aS + bS + cS) 0)
  | .sMov w => some (formS w .no (dS + aS) 0)
  | .sLi w => some (formS w .only 0 dS)
  | .sLih w => some (formS w .only 0 (dS + aS))
  | .sLea w => some (formS w .yes (dS + (if w.f7.getLsbD 6 then 0 else aS) + bS + iS + fm 6 1 + fm 0 2) (dS + aS))
  | .sSr w => some ((formS w .no (dS + iS) 0).code [(7, decide (imm20 w ≤ 10))])
  | .br _ => some (formC 0 true true)
  | .bc _ => some (formC (fm 46 6 + fm 40 3) true true)
  | .bv w => some ((formC (fm 40 4) true false).code [(40, decide (w.cf.toNat % 8 ≠ 0))])
  | .join _ => some (formC 0 true true)
  | .bx w => some ({ formR w (aS) 0 with ends := true, ctl := true })
  | .bt _ => some (formC (fm 46 6 + fm 40 6) true true)
  | .call _ => some (formC (fm 46 6) true true)
  | .callx w => some ({ formR w (dS + aS) 0 with ends := true, ctl := true })
  | .ret w => some ({ formR w (aS) 0 with ends := true, ctl := true })
  | .loop w => some ((formC (fm 40 6) true true).code [(40, decide (w.cf.toNat ≠ 0))])
  | .exit w => some ({ formR w 0 0 with ends := true, ctl := true, used := fm 55 9 + (match w.src with | .reg _ _ _ => 0 | .imm _ => fm 51 1 + fm 7 32) })
  | .spawn w => some ({ formV w true false .none .vec .vec .sca 0 0 tyB64 with unit := 2 })
  | .launch w => some ({ formR w (dS + aS + bS) 2 with ctl := true })
  | .regroup w => some ({ formV w false true .sca .sca .vec (if w.fn.getLsbD 0 then .vec else .none) 0 (fm 0 1) tyB64 with ends := true })
  | .yield w => some ({ formR w (0) 0 with ends := true, ctl := true })
  | .nap w => some ({ formR w (dS + aS + bS) 0 with ctl := true })
  | .ipf _ => some (formC (fm 40 6) false true)
  | .ipin _ => some (formC (fm 40 6) false true)
  | .iunpin _ => some (formC (fm 40 6) false true)
  | .vAdd w => some (formV w true true .vec .src .src .none 0 (fm 0 1) tyI)
  | .vSub w => some (formV w true true .vec .src .src .none 0 (fm 0 1) tyI)
  | .vMul w => some (formV w true true .vec .src .src .none 0 (fm 0 1) tyI)
  | .vMulh w => some (formV w true true .vec .src .src .none 0 0 tyI)
  | .vMad w => some (formV w true true .vec .src .src .vec 0 (fm 0 1) tyI)
  | .vAbsd w => some (formV w true true .vec .src .src .none 0 0 tyI)
  | .vMin w => some (formV w true true .vec .src .src .none 0 0 tyI)
  | .vMax w => some (formV w true true .vec .src .src .none 0 0 tyI)
  | .vAnd w => some (formV w true true .vec .src .src .none 0 0 tyIB)
  | .vOr w => some (formV w true true .vec .src .src .none 0 0 tyIB)
  | .vXor w => some (formV w true true .vec .src .src .none 0 0 tyIB)
  | .vAndn w => some (formV w true true .vec .src .src .none 0 0 tyIB)
  | .vShl w => some (formShift w)
  | .vShr w => some (formShift w)
  | .vSar w => some (formShift w)
  | .vClz w => some (formV w true true .vec .src .none .none 0 0 tyIB)
  | .vPopc w => some (formV w true true .vec .src .none .none 0 0 tyIB)
  | .vBfx w => some ((formV w true true .vec .src .none .none (fm 12 6) (fm 0 6) tyI).code [(12, decide (fld w.c.toNat 0 6 + fld w.fn.toNat 0 6 + 1 ≤ tyWidth w.ty.toNat))])
  | .vBfi w => some ((formV w true true .vec .src .src .none (fm 12 6) (fm 0 6) tyIB).code [(12, decide (fld w.c.toNat 0 6 + fld w.fn.toNat 0 6 + 1 ≤ tyWidth w.ty.toNat))])
  | .vSel w => some (formV w true true .vec .src .src .vec 0 0 tyAny)
  | .vCmp w => some ((formV w true true .vec .src .src .none 0 (fm 0 3) tyI).code [(0, decide (w.fn.toNat % 8 ≤ 5))])
  | .vMov w => some (formV w true true .vec .src .none .none 0 0 tyAny)
  | .vLi w => some (formV w true true .vec .none .imm .imm 0 0 tyIB)
  | .vFroms w => some ((if w.fn.getLsbD 0 then formV w false false .vec .sca .none .imm 0 (fm 0 1) tyAny else formV w false false .vec .sca .sca .none 0 (fm 0 1) tyAny))
  | .vTos w => some ((if w.fn.getLsbD 0 then formV w false false .sca .src .none .imm 0 (fm 0 1) tyAny else formV w false false .sca .src .sca .none 0 (fm 0 1) tyAny))
  | .vFadd w => some (formV w true true .vec .src .src .none 0 (fm 0 3) tyF)
  | .vFsub w => some (formV w true true .vec .src .src .none 0 (fm 0 3) tyF)
  | .vFmul w => some (formV w true true .vec .src .src .none 0 (fm 0 3) tyF)
  | .vFma w => some (formV w true true .vec .src .src .vec 0 (fm 0 3) tyF)
  | .vFmin w => some (formV w true true .vec .src .src .none 0 (fm 2 1) tyF)
  | .vFmax w => some (formV w true true .vec .src .src .none 0 (fm 2 1) tyF)
  | .vFcmp w => some (formV w true true .vec .src .src .none 0 (fm 0 4) tyF)
  | .vFrnd w => some (formV w true true .vec .src .none .none 0 (fm 0 3) tyF)
  | .vFclass w => some (formV w true true .vec .src .none .none 0 0 tyF)
  | .vFdot2 w => some (formV w true true .vec .src .src .vec 0 (fm 0 3) (fun t => t == 9 || t == 10))
  | .vCvt w => some (formCvt w)
  | .vQuant w => some (formV w false true .vec .src .none .sca 0 (fm 0 1) tyAny |> quantBase w)
  | .vDequant w => some (formV w false true .vec .src .src .sca 0 0 tyAny |> quantBase w)
  | .vPack w => some ((formV w true true .vec .src .src .none 0 (fm 0 1) (fun t => tyIB t && decide (tyWidth t ≤ 32))).code [(0, !(w.fn.getLsbD 0 && tyRaw4 w.ty.toNat))])
  | .vUnpack w => some (formV w true true .vec .src .none .none 0 (fm 0 1) (fun t => tyIB t && decide (tyWidth t ≤ 32)))
  | .vRcp w => some ({ formV w true true .vec .src .none .none 0 (fm 2 1) tyF with unit := 1 })
  | .vRsq w => some ({ formV w true true .vec .src .none .none 0 (fm 2 1) tyF with unit := 1 })
  | .vSqrt w => some ({ formV w true true .vec .src .none .none 0 (fm 2 1) tyF with unit := 1 })
  | .vExp2 w => some ({ formV w true true .vec .src .none .none 0 (fm 2 1) tyF with unit := 1 })
  | .vLog2 w => some ({ formV w true true .vec .src .none .none 0 (fm 2 1) tyF with unit := 1 })
  | .vSin w => some ({ formV w true true .vec .src .none .none 0 (fm 2 1) tyF with unit := 1 })
  | .vCos w => some ({ formV w true true .vec .src .none .none 0 (fm 2 1) tyF with unit := 1 })
  | .vAct w => some ({ (formV w true true .vec .src .none .none 0 (fm 0 5) tyF).code [(0, decide (w.fn.toNat % 8 ≤ 4))] with unit := 1 })
  | .xShf w => some (formV w true true .vec .src .src .none 0 (fm 6 1) tyAny)
  | .xBfly w => some (formBfly width w)
  | .xBcast w => some ((if w.fn.getLsbD 0 then formV w true true .vec .src .none .imm 0 (fm 0 1 + fm 6 1) tyAny else formV w true true .vec .src .sca .none 0 (fm 0 1 + fm 6 1) tyAny))
  | .xScan w => some (formScan w true)
  | .xRed w => some (formScan w false)
  | .xCompact w => some (formV w true true .vec .src .src .none 0 0 tyAny)
  | .voteAny w => some (formV w true false .sca .mskV .none .none 0 0 tyB64)
  | .voteAll w => some (formV w true false .sca .mskV .none .none 0 0 tyB64)
  | .voteBal w => some (formV w true false .mskDS .mskV .none .none 0 0 tyB64)
  | .mAnd w => some (formV w false false .mskD .mskS .mskS .none 0 0 tyB64)
  | .mOr w => some (formV w false false .mskD .mskS .mskS .none 0 0 tyB64)
  | .mXor w => some (formV w false false .mskD .mskS .mskS .none 0 0 tyB64)
  | .mAndn w => some (formV w false false .mskD .mskS .mskS .none 0 0 tyB64)
  | .mPopc w => some (formV w false false .sca .mskS .none .none 0 0 tyB64)
  | .mFfs w => some (formV w false false .sca .mskS .none .none 0 0 tyB64)
  | .mSet w => some (formV w false false .mskD .vs .none .none 0 0 tyB64)
  | .ldG w => some (formM w 1 false false false)
  | .stG w => some (formM w 2 false false false)
  | .ldS w => some (formM w 1 true false false)
  | .stS w => some (formM w 2 true false false)
  | .ldL w => some (formM w 1 false true false)
  | .stL w => some (formM w 2 false true false)
  | .ldX w => some (formM w 1 false false true)
  | .atAdd w => some (formAt w false tyInt32)
  | .atSub w => some (formAt w false tyInt32)
  | .atMin w => some (formAt w false tyInt32)
  | .atMax w => some (formAt w false tyInt32)
  | .atAnd w => some (formAt w false tyRaw32)
  | .atOr w => some (formAt w false tyRaw32)
  | .atXor w => some (formAt w false tyRaw32)
  | .atXchg w => some (formAt w false tyRaw32)
  | .atCas w => some (formAt w true tyRaw32)
  | .atCas2 w => some (formAt w true (fun t => t == 21))
  | .atFadd w => some (formAt w false (fun t => t == 6))
  | .fence w => some ((formR w (fm 0 3) 2).code [(0, decide (w.f7.toNat % 8 ≤ 5))])
  | .barInit w => some (formR w (aS + fm 7 4) 2)
  | .barArv w => some (formR w (fm 7 4) 2)
  | .barWait w => some (formR w (fm 7 4) 2)
  | .barSync w => some (formR w (fm 7 4) 2)
  | .cbar w => some (formR w (fm 7 2) 2)
  | .lrInit w => some (formR w (aS + bS + cS) 3)
  | .lrAwait w => some (formR w (dS + aS) 3)
  | .lrRel w => some (formR w (aS) 3)
  | .lrFill w => some (formR w (dS + aS) 3)
  | .lrFillPut w => some (formR w (aS + bS + fm 0 1) 3)
  | .cpIn w => some (formR w ((if w.f7.getLsbD 2 then dS else 0) + aS + bS + cS + fm 0 3) 3)
  | .cpOut w => some (formR w ((if w.f7.getLsbD 2 then dS else 0) + aS + bS + cS + fm 0 3) 3)
  | .cpG w => some (formR w ((if w.f7.getLsbD 2 then dS else 0) + aS + bS + cS + fm 0 3) 3)
  | .cpHalo w => some (formR w (aS + fm 7 2 + fm 0 2) 3)
  | .cpMc w => some (formR w (aS + bS + cS + fm 7 12 + fm 0 2 + fm 3 1) 3)
  | .ccPrf w => some (formR w (aS + bS + fm 0 3) 3)
  | .ccWb w => some (formR w (aS + bS + fm 0 1) 3)
  | .ccInv w => some (formR w (aS + bS) 3)
  | .ccWays w => some (formR w (aS) 3)
  | .mxMma w => some (formPass w (fm 2 50))
  | .mxMmaf w => some (formPass w (fm 32 20 + fm 4 8))
  | .mxZero _ => some (formX (fm 47 8))
  | .mxLd _ => some (formX (fm 47 8 + fm 12 26))
  | .mxSt _ => some (formX (fm 47 8 + fm 12 26))
  | .mxWait w => some (formX (fm 52 3 + fm 4 1 + (if w.bit4 then 0 else fm 47 5)))
  | .mxRel _ => some (formX (fm 52 3))
  | .plTake _ => some (formX 0)
  | .plPass _ => some (formX (fm 47 5))
  | .plPassFree _ => some (formX (fm 4 1))
  | .spOpen w => some (formR w (fm 7 9) 4)
  | .spKeep w => some (formR w (0) 4)
  | .spDrop w => some (formR w (0) 4)
  | .fbSet w => some (formR w (aS) 4)
  | .fbTab w => some ({ formV w true false .none .vec .none .none 0 0 (fun t => t == 9) with unit := 4 })
  | .fbTabSet w => some ({ formV w true false .none .vec .none .none 0 (fm 0 1) (fun t => t == 9) with unit := 4 })
  | .ebSend w => some (formR w (dS + aS + bS + cS + fm 0 1) 6)
  | .paOpen w => some (formR w (dS + aS + bS + ctrBits w) 6)
  | .paOpenRp w => some (formR w (dS + aS + bS + ctrBits w + fm 0 1) 6)
  | .paClose w => some (formR w (aS + bS + ctrBits w) 6)
  | .acGet w => some (formR w (dS + aS + ctrBits w) 6)
  | .acWait w => some (formR w (aS + bS + ctrBits w) 6)
  | .wvCommit w => some (formR w (aS + bS + cS + ctrBits w) 6)
  | .rngDraw w => some (formV w true true .vec .none .none .none 0 0 tyB64)
  | .twXin w => some ({ formT (saN + sbN + scN + fm 8 21 + fm 0 2 + fm 3 2) with types := [(w.ty.toNat, decide (w.ty.toNat ≤ 22))] })
  | .twXout w => some ({ formT (saN + sbN + scN + fm 8 21 + fm 0 2 + fm 3 2) with types := [(w.ty.toNat, decide (w.ty.toNat ≤ 22))] })
  | .twRun _ => some (formT (saN + sbN + scN + fm 29 5))
  | .twWait _ => some ({ formT 0 with used := fm 55 9 + saN + sbN })
  | .farAdd w => some (formFar w)
  | .farFence _ => some (formT 0)
  | .caneVAdd _ => none
  | .caneVSub _ => none
  | .caneVMul _ => none
  | .caneVMad _ => none
  | .caneVMin _ => none
  | .caneVMax _ => none
  | .caneVAnd _ => none
  | .caneVOr _ => none
  | .caneVXor _ => none
  | .caneVAndn _ => none
  | .caneVShl _ => none
  | .caneVShr _ => none
  | .caneVSar _ => none
  | .caneVCmp _ => none
  | .caneVMov _ => none
  | .caneVLi _ => none
  | .cPush _ => none
  | .cElse _ => none
  | .cPop _ => none
  | .cBfa _ => none
  | .netSend w => some (formN (saN + sbN + scN + netBits w))
  | .netGet w => some (formN (saN + sbN + scN + netBits w))
  | .netArm w => some (formN (saN + sbN + scN + sdN + fm 9 2 + (if w.f12.getLsbD 9 then fm 0 9 else 0)))
  | .cntInit _ => some (formN (saN + fm 0 9))
  | .cntWait _ => some (formN (saN + fm 0 9))
  | .cntGet _ => some (formN (sdN + fm 0 9))
  | .collStep _ => some (formN (fm 0 1))
  | .trap _ => some (formY (fm 0 24) true)
  | .rte _ => some (formY 0 true)
  | .sysGet _ => some (formY (fm 46 6 + fm 24 16) false)
  | .sysSet _ => some (formY (fm 40 6 + fm 24 16) false)
  | .bkpt _ => some (formY (fm 0 24) false)
  | .prio _ => some (formY (fm 0 3) false)
  | .nop _ => some ({ formY 0 false with used := fm 55 9 })
  | .halt _ => some (formY 0 true)
  | .pairVAdd _ => none
  | .pairVSub _ => none
  | .pairVMul _ => none
  | .pairVMulh _ => none
  | .pairVAbsd _ => none
  | .pairVMin _ => none
  | .pairVMax _ => none
  | .pairVAnd _ => none
  | .pairVOr _ => none
  | .pairVXor _ => none
  | .pairVAndn _ => none
  | .pairVShl _ => none
  | .pairVShr _ => none
  | .pairVSar _ => none
  | .pairVMov _ => none
  | .pairVClz _ => none
  | .pairVPopc _ => none
  | .pairVFadd _ => none
  | .pairVFsub _ => none
  | .pairVFmul _ => none
  | .pairVFmin _ => none
  | .pairVFmax _ => none
  | .pairVFrnd _ => none
  | .pairVFclass _ => none
  | .atinv _ => some (formY (fm 40 6 + fm 24 16) false)
  | .accessTableInvalidationDone => none
  | .wake _ => some (formY (fm 40 6 + fm 24 16) false)
  | .launchRecordCheck _ _ => none
  | .gridStart _ _ => none
  | .clusterPlacement _ => none
  | .taskGroupFormation _ _ _ => none
  | .gatherWindowExpiry _ _ _ => none
  | .taskGroupPlacement _ _ => none
  | .taskSteal _ _ => none
  | .candidatePick _ _ => none
  | .icacheFill _ _ => none
  | .spinFloorTimeout _ _ => none
  | .loadResultWrite _ _ => none
  | .wcbTimeout _ => none
  | .homeStorePerform _ => none
  | .l1RecallReceive _ => none
  | .recallBeat _ => none
  | .beatReceive _ _ => none
  | .beatTimeout _ _ => none
  | .homeAtomicPerform _ => none
  | .l2Fill _ _ => none
  | .towerWriteAck _ => none
  | .farAtomicAtHome _ => none
  | .farAtomicTowerCheck _ => none
  | .farAtomicAnswer _ => none
  | .farAtomicApply _ => none
  | .pageWalkComplete _ => none
  | .sfuResultWrite _ => none
  | .fusionWindowTimeout _ => none
  | .matrixPassStart _ => none
  | .matrixPassWriteback _ => none
  | .tileTransferComplete _ => none
  | .copyComplete _ => none
  | .copyFault _ => none
  | .haloSourceRead _ => none
  | .cpMcDelivery _ _ => none
  | .regroupPair _ _ => none
  | .napTimeout _ _ => none
  | .serviceEventSignal _ => none
  | .groupRetire _ => none
  | .taskCounterAdd _ => none
  | .gridDoneAdd _ _ => none
  | .towerBlockComplete _ => none
  | .towerScrub _ _ => none
  | .towerCaneSwitch _ _ => none
  | .netReceive _ => none
  | .receiveCounterIncrement _ => none
  | .netGetLand _ _ => none
  | .errorArrival _ => none
  | .stationOperation _ => none
  | .collChunkFireAtRetire _ => none
  | .collResultLand _ _ => none
  | .collAbortReceive _ _ => none
  | .holdSend _ => none
  | .reductionMessageDrop _ => none
  | .unsupportedPacketDrop _ => none
  | .portLinkDrop _ => none
  | .portRetryTimeout _ => none
  | .portRetrain _ => none
  | .destinationUnreachable _ _ => none
  | .preemptSave _ => none
  | .watchdogExpiry _ => none
  | .externalWaitTimeout _ _ => none
  | .culletSwap _ => none
  | .timeSyncLoss _ => none
  | .sensorSample _ => none
  | .powerGood _ => none
  | .functionReady _ => none
  | .powerOff => none
  | .firmwareStage _ _ => none
  | .firmwareCommit _ => none
  | .operatorKeyWrite _ _ _ => none
  | .jobSetup _ => none
  | .contextCreate _ => none
  | .contextDestroy _ => none
  | .caneGrant _ => none
  | .caneReturn _ => none
  | .memoryMap _ => none
  | .memoryUnmap _ => none
  | .memoryWrite _ => none
  | .memoryRead _ => none
  | .launchQueueWrite _ => none
  | .treeCreate _ => none
  | .treeFree _ => none
  | .preEmpt _ => none
  | .resume _ => none
  | .telemetry _ => none
  | .attest _ => none
  | .power _ => none
  | .breakpointResume _ => none
  | .completionTimePassed => none
  | .remoteGetRequest _ => none
  | .cxlWriteAck _ => none
  | .remoteSendSourceRelease _ => none
  | .remoteStoreAck _ => none
  | .malformedServiceMessage _ => none

/-! The order of the checks (R463). -/

def firstBad (l : List (Nat × Bool)) : Option Nat := (l.find? (fun p => !p.2)).map Prod.fst

/-- An illegal header's lowest offending bit (R208). -/
def headerBad (hdr : Nat) : Option Nat :=
  let low := hdr % 2 ^ 32
  let beyond := fld hdr 32 16 >>> (fld hdr 60 4 + 1) <<< (fld hdr 60 4 + 1)
  if low ≠ 0 then some (lowBit 32 low) else if beyond ≠ 0 then some (32 + lowBit 16 beyond) else none

/-- The system registers (R261, R429): may one of this number be read, or written? -/
def sregReadable (n : Nat) : Bool :=
  decide (n ≤ 4) || decide (0x100 ≤ n ∧ n ≤ 0x107) || decide (0x110 ≤ n ∧ n ≤ 0x112) || decide (0x120 ≤ n ∧ n ≤ 0x123) ||
    decide (0x8000 ≤ n ∧ n ≤ 0x8004) || decide (n = 0x8010 ∨ n = 0x8011 ∨ n = 0x8020 ∨ n = 0x8021)
def sregWritable (n : Nat) : Bool :=
  decide (n = 0) || decide (0x110 ≤ n ∧ n ≤ 0x112) || decide (0x120 ≤ n ∧ n ≤ 0x123) ||
    decide (0x8000 ≤ n ∧ n ≤ 0x8004) || decide (n = 0x8010 ∨ n = 0x8011 ∨ n = 0x8021)

/-- The system register a word reads (false) or writes (true). -/
def sregOf (i : Instr) : Option (Nat × Bool) :=
  match i with
  | .sysGet w => some (w.sreg.toNat, false)
  | .sysSet w => some (w.sreg.toNat, true)
  | .atinv w => some (w.sreg.toNat, true)
  | .wake w => some (w.sreg.toNat, true)
  | _ => none

/-- Is a register of this number absent, or read-only and written (code 11)? A register of the service's range named by
another context is left to the privilege check. -/
def sregBad (ctx : Nat) (i : Instr) : Option Nat :=
  match sregOf i with
  | none => none
  | some (n, wr) =>
    if 0x8000 ≤ n ∧ ctx ≠ 0 then none
    else if wr then (if sregWritable n then none else some n) else (if sregReadable n then none else some n)

/-- A word's own bits against its form: reserved fields, register codes, types, coded fields, fragments (codes 2, 4, 5, 6 and
13). -/
def wordBad (f : Form) (w : Nat) : Option (Nat × Nat) :=
  let un := w &&& (2 ^ 64 - 1 - f.used)
  if un ≠ 0 then some (2, lowBit 64 un)
  else match firstBad f.regs with
    | some c => some (4, c)
    | none => match firstBad f.types with
      | some c => some (5, c)
      | none => match firstBad f.coded with
        | some c => some (6, c)
        | none => none

/-- Where the word stands: unit class, clause end, control core (codes 7, 8 and 9). -/
def placeBad (g : Group) (sl : Slot) (f : Form) (op : Nat) : Option (Nat × Nat) :=
  let h := sl.hdr.toNat
  let cls := fld h 57 3
  if f.unit ≠ 0 ∧ cls ≠ 7 ∧ cls ≠ f.unit then some (7, cls)
  else if f.ends ∧ sl.idx ≠ fld h 60 4 then some (8, 0)
  else if 96 ≤ g.core ∧ !f.ctl then some (9, op)
  else none

/-- Decoding (R463 step 2): the code and index of a class 0x01 fault. -/
def decodeBad (g : Group) (sl : Slot) (i : Instr) (f : Form) (w : Nat) : Option (Nat × Nat) :=
  match wordBad f w with
  | some c => some c
  | none => match placeBad g sl f (w / 2 ^ 56) with
    | some c => some c
    | none =>
      match i, g.handler with
      | .rte _, none => some (10, 0)
      | _, _ => match sregBad g.ctx i with
        | some n => some (11, n)
        | none => (firstBad f.frags).map (fun p => (13, p))

/-- Privilege (R463 step 3). -/
def privBad (g : Group) (i : Instr) : Option (Nat × Nat) :=
  match i with
  | .halt _ => if g.core < 96 then some (1, 0xF7) else none
  | _ => match sregOf i with
    | some (n, _) => if 0x8000 ≤ n ∧ g.ctx ≠ 0 then some (2, n) else none
    | none => none

/-- Block bounds (R39, R463 step 4). -/
def blockBad (rows : Nat) (l : List (Nat × Nat × Nat)) : Option (Nat × Nat) :=
  match l.find? (fun b => decide (rows ≤ b.1 / 16 + b.2.1 - 1)) with
  | some b => some (1, b.1)
  | none => match l.find? (fun b => decide (15 < b.1 % 16 + b.2.2 - 1)) with
    | some b => some (2, b.1)
    | none => none

/-- The extent of `far.add` (R373). -/
def farExtent (i : Instr) : Option (Nat × Nat) :=
  match i with
  | .farAdd w =>
    let want := if w.ty.toNat = 22 then 3 else 0
    if w.rows.toNat = want ∧ w.cols.toNat = want then none else some (3, w.rows.toNat * 4 + w.cols.toNat)
  | _ => none

/-- The fate of a word before its operands are looked at (R463 steps 2 to 4). -/
def wordFault (g : Group) (sl : Slot) (i : Instr) (w : Nat) : Option FInfo :=
  match form g.width i with
  | none => none
  | some f =>
    match decodeBad g sl i f w with
    | some (c, x) => some { cls := 1, code := c, index := x }
    | none => match privBad g i with
      | some (c, x) => some { cls := 2, code := c, index := x }
      | none => match blockBad g.rows f.blocks with
        | some (c, x) => some { cls := 3, code := c, index := x }
        | none => (farExtent i).map (fun p => { cls := 3, code := p.1, index := p.2 })

/-- An illegal header starts no word of its clause (R208). -/
def headerFault (s : State) (g : Group) (b : Bool) : Option State :=
  let sl := slotOf g b
  if sl.idx ≠ 0 ∨ sl.half then none
  else (headerBad sl.hdr.toNat).map (fun bit =>
    leavePart (takeException s g b true { cls := 1, code := 3, index := bit } sl.clause 0) g b)

/-- RUNNING A WORD: header, decoding, privilege and block checks, then the body, then the slot's progress. -/
def runWord (i : Instr) (msel : Nat) (perLane : Bool) (s : State) (body : State → Issue → Res) :
    Host.Outcome State Fault Refusal :=
  match issuer s ((encode i).getD 0#64) msel perLane with
  | none => .fault .noIssuer
  | some x =>
    .next (match headerFault s x.g x.b with
      | some s' => s'
      | none => settle x false (match wordFault x.g x.slot i x.w.toNat with
        | some f => .bad s f
        | none => body s x))

/-- A word no table row names (R233): code 1, after the header check. -/
def runUnknown (s : State) (g : Group) (b : Bool) (w : W64) : State :=
  match headerFault s g b with
  | some s' => s'
  | none => raiseAt s g.gid b { cls := 1, code := 1, index := w.toNat / 2 ^ 56, lanes := some (slotOf g b).mask }


/-! Pair halves (R229 to R231, R467). -/

/-- The compact opcode and fields of a half. -/
def halfOf (i : Instr) : Option (Nat × Half) :=
  match i with
  | .pairVAdd h => some (0, h)
  | .pairVSub h => some (1, h)
  | .pairVMul h => some (2, h)
  | .pairVMulh h => some (3, h)
  | .pairVAbsd h => some (4, h)
  | .pairVMin h => some (5, h)
  | .pairVMax h => some (6, h)
  | .pairVAnd h => some (7, h)
  | .pairVOr h => some (8, h)
  | .pairVXor h => some (9, h)
  | .pairVAndn h => some (10, h)
  | .pairVShl h => some (11, h)
  | .pairVShr h => some (12, h)
  | .pairVSar h => some (13, h)
  | .pairVMov h => some (14, h)
  | .pairVClz h => some (15, h)
  | .pairVPopc h => some (16, h)
  | .pairVFadd h => some (17, h)
  | .pairVFsub h => some (18, h)
  | .pairVFmul h => some (19, h)
  | .pairVFmin h => some (20, h)
  | .pairVFmax h => some (21, h)
  | .pairVFrnd h => some (22, h)
  | .pairVFclass h => some (23, h)
  | _ => none

/-- The type code of a compact type (R230). -/
def ctypeCode (c : Nat) : Option Nat :=
  match c with
  | 0 => some 11 | 1 => some 12 | 2 => some 7 | 3 => some 8 | 4 => some 3 | 5 => some 4 | 6 => some 0 | 7 => some 1
  | 8 => some 6 | 9 => some 10 | 10 => some 9 | 11 => some 17 | 12 => some 18 | 13 => some 19 | 14 => some 20
  | _ => none

/-- One-source compact operations (R229). -/
def oneSource (cop : Nat) : Bool := [14, 15, 16, 22, 23].contains cop

/-- A half's own bits: code 2 with the lowest offending bit of the word, or code 12 with the half (R468); `lo` is the half's lowest bit in
the word. Every operation below 17 counts as an integer one, `v.mov` (14) too, so that a float type is illegal with it (R230 does not say
which kind `v.mov` is): DESIGN CHOICE (log entry 109). -/
def halfBad (cop : Nat) (h : Half) (lo which : Nat) : Option (Nat × Nat) :=
  if oneSource cop ∧ h.b.toNat ≠ 0 then some (2, lo + lowBit 7 h.b.toNat)
  else if h.rsv.toNat ≠ 0 then some (2, lo + 21 + lowBit 2 h.rsv.toNat)
  else match ctypeCode h.ctype.toNat with
    | none => some (12, which)
    | some t => if (decide (17 ≤ cop)) = tyF t then none else some (12, which)

/-- The raw half's code 2 or 12. -/
def rawHalfBad (h : BitVec 32) (lo which : Nat) : Option (Nat × Nat) :=
  match (decodeHalf h).bind halfOf with
  | none => if (decHalf h).rsv.toNat ≠ 0 then some (2, lo + 21 + lowBit 2 (decHalf h).rsv.toNat) else some (12, which)
  | some (cop, x) => halfBad cop x lo which

/-- The lower code first; the second half's on a tie only when the first has none (R463). -/
def lowerCode (a b : Option (Nat × Nat)) : Option (Nat × Nat) :=
  match a, b with
  | none, _ => b
  | _, none => a
  | some x, some y => if y.1 < x.1 then b else if x.1 = 2 ∧ y.1 = 2 ∧ y.2 < x.2 then b else a

/-- A pair word is checked whole before either half issues (R467): decoding, control core, block bounds. -/
def pairFault (g : Group) (w : Nat) : Option FInfo :=
  let h0 : BitVec 32 := BitVec.ofNat 32 (w / 2 ^ 32)
  let h1 : BitVec 32 := BitVec.ofNat 32 w
  match lowerCode (lowerCode (rawHalfBad h0 32 0) (rawHalfBad h1 0 1)) (if 96 ≤ g.core then some (9, w / 2 ^ 56) else none) with
  | some (c, x) => some { cls := 1, code := c, index := x }
  | none =>
      let regs (h : BitVec 32) : List (Nat × Nat × Nat) :=
        let x := decHalf h
        let cop := (h.extractLsb' 27 5).toNat
        [(x.d.toNat, 1, 1), (x.a.toNat, 1, 1)] ++ (if oneSource cop then [] else [(x.b.toNat, 1, 1)])
      (blockBad g.rows (regs h0 ++ regs h1)).map (fun p => { cls := 3, code := p.1, index := p.2 })

/-- RUNNING A PAIR HALF: before the first half both halves are checked. The second half ends the word. -/
def runHalf (s : State) (body : State → Issue → Res) : Host.Outcome State Fault Refusal :=
  match issuer s 0#64 0 false with
  | none => .fault .noIssuer
  | some x =>
    .next (match headerFault s x.g x.b with
      | some s' => s'
      | none => settle x true (if x.slot.half then body s x
          else match pairFault x.g (x.slot.words.getD x.slot.idx 0#64).toNat with
            | some f => .bad s f
            | none => body s x))

end Sys2Proof.Machine
end

