-- ==== Sys2Proof/Machine/Operands.lean ====
section
/-! DEFINITION. The operand forms: scalar sources (R222, R236), clause targets (R223), vector sources with scalars and
accumulator fragments (R38, R40, R219, R220), sub-elements (R28), masks (R298, R299) and M-format addresses (R225). -/

namespace Sys2Proof.Machine

/-! Scalar operands. -/

/-- The second source: register b, or the sign-extended immediate (R236). -/
def srcB (g : Group) (w : SWord) : W64 :=
  match w.src with
  | .reg b _ _ => rs g b.toNat
  | .imm i => i.signExtend 64

/-- The third source, register c (register form only). -/
def srcC (g : Group) (w : SWord) : W64 :=
  match w.src with
  | .reg _ c _ => rs g c.toNat
  | .imm _ => 0#64

/-- The register numbers of b and c in a register form. -/
def numB (w : SWord) : Nat := match w.src with | .reg b _ _ => b.toNat | .imm _ => 0
def numC (w : SWord) : Nat := match w.src with | .reg _ c _ => c.toNat | .imm _ => 0

/-- A C-format target: the clause header's address plus 8 x sext(off, 40), as a virtual address of 57 bits (R223). -/
def targetC (x : Issue) (off : BitVec 40) : Nat := wrap 64 ((x.hdrAddr : Int) + 8 * off.toInt)

/-! Blocks and sub-elements. -/

/-- The registers of a block in row-major order (R38). -/
def blockRegs (base er ec : Nat) : List Nat :=
  (List.range er).flatMap (fun i => (List.range ec).map (fun j => base + 16 * i + j))

/-- The register offsets (row, column) of a block's registers, in the same order. -/
def blockCells (er ec : Nat) : List (Nat × Nat) :=
  (List.range er).flatMap (fun i => (List.range ec).map (fun j => (i, j)))

def rowsV (w : VWord) : Nat := w.rows.toNat + 1
def colsV (w : VWord) : Nat := w.cols.toNat + 1

/-- Sub-element k of width w of a lane register (R28). -/
def elem (w k : Nat) (v : W64) : Nat := fld v.toNat (k * w) w

/-- A lane register from its sub-elements, the first at the low end. -/
def pack (w : Nat) (l : List Nat) : W64 := r64 (l.foldr (fun e a => a * 2 ^ w + e % 2 ^ w) 0)

/-- The sub-elements of a lane register. -/
def elems (w : Nat) (v : W64) : List Nat := (List.range (64 / w)).map (fun k => elem w k v)

/-- `v` with sub-element k replaced. -/
def setElem (w k e : Nat) (v : W64) : W64 := r64 (setFld v.toNat (k * w) w e)

/-- Where a matrix word of the group that names tile N acts: the tile, or 32 + its parison while speculation is open over the
tile (R349). -/
def tileLoc (g : Group) (n : Nat) : Nat :=
  match g.spec with
  | some (t, c) => if t ≤ n ∧ n < t + c then 32 + (n - t) else n
  | none => n

/-- The value lane L owns at a column of a tile or parison (R333). -/
def locGet (g : Group) (loc lane col : Nat) : BitVec 32 :=
  if loc < 32 then fget 0#32 ((loc * 64 + lane) * 64 + col) g.acc else fget 0#32 (((loc - 32) * 64 + lane) * 64 + col) g.par

def locPut (g : Group) (loc lane col : Nat) (v : BitVec 32) : Group :=
  if loc < 32 then { g with acc := fput 0#32 ((loc * 64 + lane) * 64 + col) v g.acc }
  else { g with par := fput 0#32 (((loc - 32) * 64 + lane) * 64 + col) v g.par }

/-- The value a fragment read of tile N finds (R333, R349). -/
def accGet (g : Group) (n lane col : Nat) : BitVec 32 := locGet g (tileLoc g n) lane col

/-- What a source code supplies to a lane at block cell (i, j): a vector register, an accumulator fragment with column
pair p + j of tile N + i, or a scalar (R219, R220). -/
def readSrc (g : Group) (code p i j lane : Nat) : W64 :=
  if isVec code then rv g (code + 16 * i + j) lane
  else if isAcc code then
    let t := code - 320 + i
    (accGet g t lane (2 * (p + j) + 1)) ++ (accGet g t lane (2 * (p + j)))
  else if isSca code then rs g (code - 352)
  else 0#64

/-- The accumulator tiles a word's sources read (R219). -/
def fragTiles (w : VWord) (useA useB : Bool) : List Nat :=
  let t (c : Nat) : List Nat := if isAcc c then (List.range (rowsV w)).map (fun i => c - 320 + i) else []
  (if useA then t w.a.toNat else []) ++ (if useB then t w.b.toNat else [])

/-- Write a list of (register, lane, value). -/
def wvs (g : Group) (l : List (Nat × Nat × W64)) : Group := l.foldl (fun g x => wv g x.1 x.2.1 x.2.2) g

/-- A mask operand: exec, m1 to m7 or, where allowed, a scalar (R299). -/
def readMask (x : Issue) (code : Nat) : W64 :=
  if code = 448 then x.exec
  else if isMask code then rm x.g (code - 448)
  else if isSca code then rs x.g (code - 352)
  else 0#64

/-- A write by register code to a scalar (352 to 415) or a mask (449 to 455). -/
def writeCode (g : Group) (code : Nat) (v : W64) : Group :=
  if isSca code then ws g (code - 352) v else if isMask code then wm g (code - 448) v else g

/-! M-format addresses (R225). -/

/-- Bytes per lane. -/
def widthM (w : MWord) : Nat := 2 ^ w.width.toNat

/-- The lanes with their global addresses; `z` is the access size. -/
def lanesM (x : Issue) (w : MWord) (z : Nat) : List (Nat × Nat) :=
  let base := (rs x.g w.base.toNat).toNat
  (lanesOf x.active).map (fun l =>
    let ix : Int := if w.index.toNat = 511 then (l * z : Nat) else (rv x.g w.index.toNat l).toInt
    (l, wrap 64 ((base : Int) + w.off.toInt + ix)))

end Sys2Proof.Machine
end

