-- ==== Sys2Proof/Machine/Num.lean ====
section
/-! DEFINITION. The number formats and their arithmetic: decoding (R173 to R175), NaN conversion (R176), exact values and the
one rounding (R180 to R185), lg6 (R191 to R194), integers (R187, R195), format slots (R186), the random source (R188 to
R190) and block floating point (R203 to R205). Flag words are those of R179: 16 invalid, 8 divide-by-zero, 4 overflow,
2 underflow, 1 inexact. -/

namespace Sys2Proof.Machine

/-! Formats and values. -/

/-- A floating format: width, exponent and fraction widths, bias (R173). -/
structure Fmt where
  w : Nat
  ew : Nat
  fw : Nat
  bias : Nat
  deriving DecidableEq, Repr

def fmtF32 : Fmt := ⟨32, 8, 23, 127⟩
def fmtF16 : Fmt := ⟨16, 5, 10, 15⟩
def fmtB16 : Fmt := ⟨16, 8, 7, 127⟩
def fmtF8a : Fmt := ⟨8, 4, 3, 7⟩
def fmtF8b : Fmt := ⟨8, 5, 2, 15⟩

/-- f8a has no infinity (R173). -/
def Fmt.isF8a (f : Fmt) : Bool := decide (f.ew = 4)

/-- A decoded value: a NaN with its sign, whether it signals, and its payload left-aligned in 22 bits; an infinity; or
(-1)^neg x m x 2^e, where m = 0 is a signed zero (R174, R175). -/
inductive FV where
  | nan (neg sig : Bool) (pay : Nat)
  | inf (neg : Bool)
  | num (neg : Bool) (m : Nat) (e : Int)
  deriving DecidableEq, Repr

def FV.isNan : FV → Bool | .nan .. => true | _ => false
def FV.isSig : FV → Bool | .nan _ s _ => s | _ => false
def FV.isInf : FV → Bool | .inf _ => true | _ => false
def FV.isZero : FV → Bool | .num _ 0 _ => true | _ => false
def FV.neg : FV → Bool | .nan n _ _ => n | .inf n => n | .num n _ _ => n
/-- The value with its sign inverted. -/
def FV.flip : FV → FV | .nan n s p => .nan (!n) s p | .inf n => .inf (!n) | .num n m e => .num (!n) m e

/-- Decode a pattern (R174, R175); with ftz a subnormal reads as zero with its sign (R184). -/
def decF (f : Fmt) (ftz : Bool) (x : Nat) : FV :=
  let neg := x.testBit (f.w - 1)
  let e := fld x f.fw f.ew
  let fr := fld x 0 f.fw
  if f.isF8a then
    if e = 15 ∧ fr = 7 then .nan neg false 0
    else if e = 0 then .num neg (if ftz then 0 else fr) (-9)
    else .num neg (8 + fr) ((e : Int) - 10)
  else if e = 2 ^ f.ew - 1 then
    if fr = 0 then .inf neg
    else .nan neg (!fr.testBit (f.fw - 1)) (fld fr 0 (f.fw - 1) <<< (23 - f.fw))
  else if e = 0 then .num neg (if ftz then 0 else fr) (1 - (f.bias : Int) - f.fw)
  else .num neg (2 ^ f.fw + fr) ((e : Int) - f.bias - f.fw)

def signBit (f : Fmt) (neg : Bool) : Nat := if neg then 2 ^ (f.w - 1) else 0

/-- The default NaN (R175). -/
def defNan (f : Fmt) : Nat := if f.isF8a then 0x7F else (2 ^ f.ew - 1) <<< f.fw + 2 ^ (f.fw - 1)

/-- A NaN in a format: sign kept, quieted, the payload's most significant bits kept (R176). -/
def encNan (f : Fmt) (neg : Bool) (pay : Nat) : Nat :=
  signBit f neg + defNan f + (if f.isF8a then 0 else pay >>> (23 - f.fw))

/-- The largest finite value's pattern without sign (R173). -/
def maxPat (f : Fmt) : Nat := if f.isF8a then 0x7E else (2 ^ f.ew - 1) <<< f.fw - 1

/-- An infinity's pattern; in f8a the NaN (R182). -/
def infPat (f : Fmt) (neg : Bool) : Nat := signBit f neg + (if f.isF8a then 0x7F else (2 ^ f.ew - 1) <<< f.fw)

/-! Rounding. -/

/-- How a result rounds: mode 0 .rn, 1 .rz, 2 .ru, 3 .rd, 4 stochastic with r bits of value rnd, 5 away from zero (the upper
neighbour of a faithful result); ftz; overflow behaviour 0 the format's default, 1 saturate, 2 IEEE (R180, R185, R186). -/
structure Rnd where
  mode : Nat := 0
  r : Nat := 0
  rnd : Nat := 0
  ftz : Bool := false
  ovf : Nat := 0
  deriving DecidableEq, Repr

/-- The integer part, and the discarded part as rem / 2^sh, of m x 2^e in units of 2^q. -/
def scaleTo (m : Nat) (e q : Int) : Nat × Nat × Nat :=
  if q ≤ e then (m <<< (e - q).toNat, 0, 0)
  else let sh := (q - e).toNat; (m >>> sh, m % 2 ^ sh, sh)

/-- Is a magnitude rounded up? `st` says that a positive part below the last bit of rem was dropped. -/
def roundUp (k : Rnd) (neg : Bool) (i rem sh : Nat) (st : Bool) : Bool :=
  let inexact := decide (rem ≠ 0) || st
  match k.mode with
  | 0 => if sh = 0 then false else
      decide (2 ^ (sh - 1) < rem) || (decide (rem = 2 ^ (sh - 1)) && (st || decide (i % 2 = 1)))
  | 1 => false
  | 2 => inexact && !neg
  | 3 => inexact && neg
  | 4 => decide (k.rnd < (rem <<< k.r) >>> sh)
  | _ => inexact

/-- A magnitude rounded to units of 2^q: the count of units, and whether it is inexact. -/
def roundTo (k : Rnd) (neg : Bool) (m : Nat) (e q : Int) (st : Bool) : Nat × Bool :=
  let p := scaleTo m e q
  (p.1 + (if roundUp k neg p.1 p.2.1 p.2.2 st then 1 else 0), decide (p.2.1 ≠ 0) || st)

/-- Does overflow saturate in this format (R186)? -/
def saturates (f : Fmt) (ovf : Nat) : Bool := decide (ovf = 1) || (decide (ovf = 0) && decide (f.w = 8))

/-- The result of an overflow (R182). -/
def overflowPat (f : Fmt) (k : Rnd) (neg : Bool) : Nat :=
  let toMax := saturates f k.ovf || decide (k.mode = 1) || (decide (k.mode = 2) && neg) || (decide (k.mode = 3) && !neg)
  if toMax then signBit f neg + maxPat f else infPat f neg

/-- THE ONE ROUNDING (R181 to R185): (-1)^neg x m x 2^e, plus a positive part below the last bit of m where `st` says so, to
a format; m is not zero. The pattern and the flags. -/
def roundF (f : Fmt) (k : Rnd) (neg : Bool) (m : Nat) (e : Int) (st : Bool) : Nat × Nat :=
  let top : Int := (Nat.log2 m : Int) + e
  let emin : Int := 1 - (f.bias : Int)
  let q : Int := max top emin - f.fw
  let (i, inexact) := roundTo k neg m e q st
  -- the pattern's exponent and fraction in one number: a carry out of the fraction raises the exponent
  let pat := (q - emin + f.fw).toNat <<< f.fw + i
  let iu := (roundTo k neg m e (top - f.fw) st).1
  let tiny := decide (top < emin) && !(decide (top = emin - 1) && decide (iu = 2 ^ (f.fw + 1)))
  let base := (if inexact then 1 else 0) + (if tiny && inexact then 2 else 0)
  if maxPat f < pat then (overflowPat f k neg, 5)
  else if i < 2 ^ f.fw ∧ i ≠ 0 ∧ k.ftz then (signBit f neg, 3)
  else (signBit f neg + pat, base)

/-- A value to a format: NaN conversion, infinities and zeros included; a signalling NaN raises invalid (R176, R177, R182). -/
def encF (f : Fmt) (k : Rnd) (v : FV) : Nat × Nat :=
  match v with
  | .nan n s p => (encNan f n p, if s then 16 else 0)
  | .inf n =>
    if saturates f k.ovf then (signBit f n + maxPat f, 0) else (infPat f n, if f.isF8a then 16 else 0)
  | .num n 0 _ => (signBit f n, 0)
  | .num n m e => roundF f k n m e false

/-! lg6 (R191 to R194). -/

/-- T of R192. -/
def lgT (p : Nat) : Nat := [256, 304, 362, 431].getD p 0

/-- Decode an lg6 value to its linear value (R191, R192). -/
def decLg (x : Nat) : FV :=
  let b := x % 64
  if b = 16 then .num false 0 0
  else if b = 48 then .nan false false 0
  else
    let l := toS 5 b
    .num (b.testBit 5) (lgT (l % 4).toNat) (l / 4 - 8)

/-- The L field of a rounded log magnitude in quarters, with the overflow and zero rules of R194. Under IEEE overflow an L above
3.75 gives the NaN in every rounding mode (log entry 71). -/
def lgPat (k : Rnd) (neg : Bool) (l : Int) (exact : Bool) : Nat × Nat :=
  let s := if neg then 32 else 0
  if 15 < l then (if k.ovf = 2 then 48 else s + 15, 5)
  else if l ≤ -16 then (16, 3)
  else (s + wrap 5 l, if exact then 0 else 1)

/-- Convert a linear value to lg6 (R185, R194). floor(4 log2 x) is the logarithm of x^4, and so on. -/
def encLg (k : Rnd) (v : FV) : Nat × Nat :=
  match v with
  | .nan _ s _ => (48, if s then 16 else 0)
  | .inf n => if k.ovf = 2 then (48, 16) else ((if n then 32 else 0) + 15, 0)
  | .num _ 0 _ => (16, 0)
  | .num n m e =>
    let fl (t : Nat) : Int := (Nat.log2 (m ^ t) : Int) + t * e
    let exact := decide (m = 2 ^ Nat.log2 m)
    let i := fl 4
    let away := (decide (k.mode = 2) && !n) || (decide (k.mode = 3) && n)
    if k.mode = 0 then lgPat k n ((fl 8 + 1) / 2) exact
    else if k.mode = 4 then
      let t := fl (4 * 2 ^ k.r) - i * 2 ^ k.r
      lgPat k n (if (k.rnd : Int) < t then i + 1 else i) exact
    else if away then
      let l := if exact then i else i + 1
      if l < -15 then ((if n then 32 else 0) + wrap 5 (-15), 1) else lgPat k n l exact
    else lgPat k n i exact

/-! Integers. -/

/-- A float to an integer range: rounded, saturated with invalid, a NaN giving 0 with invalid (R187, R199). A negative value to
an unsigned range is out of it. -/
def floatToInt (k : Rnd) (lo hi : Int) (v : FV) : Int × Nat :=
  match v with
  | .nan .. => (0, 16)
  | .inf n => (if n then lo else hi, 16)
  | .num _ 0 _ => (0, 0)
  | .num n m e =>
    let (i, inexact) := roundTo k n m e 0 false
    let x : Int := if n then -(i : Int) else i
    if x < lo ∨ (n ∧ lo = 0) then (lo, 16) else if hi < x then (hi, 16) else (x, if inexact then 1 else 0)

/-- An integer as an exact value. -/
def intFV (x : Int) : FV := .num (decide (x < 0)) x.natAbs 0

/-! Exact sums (R181). -/

/-- A signed term m x 2^e. -/
def termOf (v : FV) : Int × Int := match v with | .num n m e => (if n then -(m : Int) else m, e) | _ => (0, 0)

/-- The exact sum of terms, at the least exponent among them. -/
def exactSum (l : List (Int × Int)) : Int × Int :=
  let low := l.foldl (fun a t => min a t.2) (match l with | t :: _ => t.2 | [] => 0)
  (l.foldl (fun a t => a + t.1 * 2 ^ (t.2 - low).toNat) 0, low)

/-- Insert a term into a list in increasing order. -/
def insTerm (t : Int × Int) : List (Int × Int) → List (Int × Int)
  | [] => [t]
  | h :: r => if t.1 < h.1 ∨ (t.1 = h.1 ∧ t.2 ≤ h.2) then t :: h :: r else h :: insTerm t r

/-- The open sign of a zero sum: it depends on the terms, not on their order (R201, R296; log entry 30). -/
def zeroSign (mode : Nat) (l : List FV) : Bool := Config.zeroSumNegative mode ((l.map termOf).foldr insTerm [])

/-- The exact sum of finite values as a value. A sum of zeros of one sign keeps it; under .rn zeros of both signs give +0,
which R292's identity -0 requires; another zero has an open sign (log entry 30). -/
def sumFV (mode : Nat) (l : List FV) : FV :=
  let (t, e) := exactSum (l.map termOf)
  if t ≠ 0 then .num (decide (t < 0)) t.natAbs e
  else if l.all FV.isZero then
    if l.all FV.neg then .num true 0 0
    else if l.all (fun v => !v.neg) ∨ mode = 0 then .num false 0 0
    else .num (zeroSign mode l) 0 0
  else .num (zeroSign mode l) 0 0

/-- A finite product (R181); the sign of a zero is the exclusive or of the signs. -/
def mulFV (a b : FV) : FV :=
  match a, b with
  | .num n m e, .num n' m' e' => .num (n != n') (m * m') (e + e')
  | _, _ => .num false 0 0

/-- Sums of products and addends under R177: NaNs taken in `order`, invalid operations, infinities, then the exact sum.
The value and the invalid flag. -/
def dotFV (mode : Nat) (order : List FV) (prods : List (FV × FV)) (adds : List FV) : FV × Nat :=
  let clean := prods.filter (fun p => !p.1.isNan && !p.2.isNan)
  let zeroInf := clean.any (fun p => (p.1.isZero && p.2.isInf) || (p.1.isInf && p.2.isZero))
  let infs := (clean.filter (fun p => (p.1.isInf || p.2.isInf) && !p.1.isZero && !p.2.isZero)).map (fun p => p.1.neg != p.2.neg)
    ++ (adds.filter FV.isInf).map FV.neg
  let bad := zeroInf || (infs.contains true && infs.contains false)
  match order.find? FV.isNan with
  | some (.nan n _ p) => (.nan n false p, if bad || order.any FV.isSig then 16 else 0)
  | _ =>
    if bad then (.nan false false 0, 16)
    else match infs with
      | n :: _ => (.inf n, 0)
      | [] => (sumFV mode (clean.map (fun p => mulFV p.1 p.2) ++ adds), 0)

/-- A sum of products rounded once to a format. -/
def dotF (f : Fmt) (k : Rnd) (order : List FV) (prods : List (FV × FV)) (adds : List FV) : Nat × Nat :=
  let (v, inv) := dotFV k.mode order prods adds
  let r := encF f k v
  (r.1, r.2 ||| inv)

/-- Order on values that are not NaNs: -1, 0 or 1; -0 equals +0. -/
def cmpFV (a b : FV) : Int :=
  let key (v : FV) : Int := match v with
    | .inf n => if n then -2 else 2
    | .num n m _ => if m = 0 then 0 else if n then -1 else 1
    | .nan .. => 0
  if key a = key b ∧ (key a = 1 ∨ key a = -1) then
    let d := (exactSum [termOf a, termOf b.flip]).1
    if d < 0 then -1 else if 0 < d then 1 else 0
  else if key a < key b then -1 else if key b < key a then 1 else 0

/-! Format slots (R186, R187). -/

/-- A format slot's fields. -/
structure Slot16 where
  ftz : Bool
  ovf : Nat
  r : Nat
  sr : Bool
  rnd : Nat
  n : Nat
  rot : Bool
  scale : Bool
  block : Nat
  el : Nat
  deriving DecidableEq, Repr

/-- The integer element formats (R187). -/
def elInt (c : Nat) : Bool := decide (6 ≤ c ∧ c ≤ 14)

/-- The type code of an element format (R187, R221). -/
def elTy (c : Nat) : Nat := [6, 10, 9, 14, 15, 16, 19, 17, 11, 7, 20, 18, 12, 8, 3].getD c 0

/-- Read a slot; none when it is malformed (R186). -/
def slotDec (lo hi : Nat) : Option Slot16 :=
  let ovf := fld lo 19 2
  let sc := fld lo 7 3
  let blk := fld lo 4 3
  let el := fld lo 0 4
  let rot := lo.testBit 10
  let good := decide (hi = 0) && decide (fld lo 23 41 = 0) && decide (ovf ≠ 3) && decide (sc ≤ 1) && decide (blk ≤ 4) &&
    decide (el ≠ 15) && (decide (blk = 0) == decide (sc = 0)) &&
    (!rot || (decide (blk ≠ 0) && [1, 2, 3, 4, 5, 6, 7, 8].contains el)) && !(decide (ovf = 2) && elInt el)
  if good then some
    { ftz := lo.testBit 21, ovf := ovf, r := fld lo 15 4, sr := lo.testBit 14, rnd := fld lo 12 2,
      n := if lo.testBit 11 then 64 else 32, rot := rot, scale := decide (sc = 1),
      block := [0, 8, 16, 32, 64].getD blk 0, el := el }
  else none

/-- Slot k of a grid's launch record (R61). -/
def gridSlot (s : State) (g : Group) (k : Nat) : Option Slot16 :=
  match getGrid s g.ctx g.grid with
  | some r => slotDec (le r.lrec (128 + 16 * k) 8) (le r.lrec (136 + 16 * k) 8)
  | none => none

/-- A slot's default rounding (R180, R186); rnd is the element's random value. -/
def Slot16.round (t : Slot16) (rnd : Nat) : Rnd :=
  { mode := if t.sr then 4 else t.rnd, r := if t.sr then t.r else 0, rnd := rnd, ftz := t.ftz, ovf := t.ovf }

/-! Conversion between types (R176, R182, R187, R192, R194, R195, R285). -/

/-- The floating format of a type code; f32 for the others. -/
def fmtTy (t : Nat) : Fmt := match t with | 9 => fmtB16 | 10 => fmtF16 | 14 => fmtF8a | 15 => fmtF8b | _ => fmtF32
def tyFloat (t : Nat) : Bool := [6, 9, 10, 14, 15, 16].contains t

/-- Decode a float type's pattern. -/
def decTy (t : Nat) (ftz : Bool) (x : Nat) : FV := if t = 16 then decLg x else decF (fmtTy t) ftz x
/-- Encode to a float type. -/
def encTy (t : Nat) (k : Rnd) (v : FV) : Nat × Nat := if t = 16 then encLg k v else encF (fmtTy t) k v

/-- The integer a pattern of an integer type stands for. -/
def intTy (t x : Nat) : Int := if tySigned t then toS (tyWidth t) x else (x % 2 ^ tyWidth t : Nat)
/-- The range of an integer type (R195). -/
def minTy (t : Nat) : Int := if tySigned t then -(2 ^ (tyWidth t - 1) : Nat) else 0
def maxTy (t : Nat) : Int := if tySigned t then (2 ^ (tyWidth t - 1) : Nat) - 1 else (2 ^ tyWidth t : Nat) - 1

/-- A pattern of type `src` as type `dst`: the pattern and the flags. -/
def convTy (dst src : Nat) (k : Rnd) (x : Nat) : Nat × Nat :=
  if [2, 5, 13].contains dst ∨ [2, 5, 13].contains src then (x % 2 ^ tyWidth src % 2 ^ tyWidth dst, 0)
  else if tyFloat src then
    if tyFloat dst then encTy dst k (decTy src k.ftz x)
    else let (v, fl) := floatToInt k (minTy dst) (maxTy dst) (decTy src k.ftz x); (wrap (tyWidth dst) v, fl)
  else if tyFloat dst then encTy dst k (intFV (intTy src x))
  else (wrap (tyWidth dst) (if k.ovf = 1 then clampI (minTy dst) (maxTy dst) (intTy src x) else intTy src x), 0)

/-! The random source (R188 to R190). -/

/-- The mixing of R188. -/
def mix64 (z : Nat) : Nat :=
  let z1 := ((z ^^^ (z >>> 30)) * 0xBF58476D1CE4E5B9) % 2 ^ 64
  let z2 := ((z1 ^^^ (z1 >>> 27)) * 0x94D049BB133111EB) % 2 ^ 64
  z2 ^^^ (z2 >>> 31)

/-- The random word of a key and a ticket (R188). -/
def rngWord (key c g n : Nat) : Nat :=
  mix64 ((key + c * 0x9E3779B97F4A7C15 + g * 0xC2B2AE3D27D4EB4F + n * 0xD6E8FEB86659FD93) % 2 ^ 64)

/-- A group's random word at a draw count (R188). -/
def groupWord (s : State) (g : Group) (n : Nat) : Nat :=
  let key := match getC s g.ctx with | some c => c.key.toNat | none => 0
  if g.task then rngWord key 0xFFFFFFFF (1024 + 32 * g.core + g.num) (n % 2 ^ 64)
  else rngWord key g.cluster (32 * g.tidx + g.num) (n % 2 ^ 64)

/-- The r random bits of register j, lane L, sub-element k, with P destination sub-elements (R190). -/
def rndBits (s : State) (g : Group) (j lane k p r : Nat) : Nat :=
  let n := g.draw.toNat + (j * g.width + lane) * cdiv p 4 + k / 4
  fld (groupWord s g n) (16 * (k % 4)) r

/-- The draw count after a stochastic word over `regs` registers (R190). -/
def drawAfter (g : Group) (regs p : Nat) : Group := { g with draw := g.draw + r64 (regs * g.width * cdiv p 4) }

/-! Block floating point (R203 to R205). -/

/-- A bfp block: exponent and 32 mantissas. -/
structure Bfp where
  e : Nat
  m : List Int
  deriving DecidableEq, Repr

def bfpMax : Int := 2 ^ 23 - 1

/-- An integer divided by 2^n, to nearest, ties to even (R205). -/
def shiftRne (x : Int) (n : Nat) : Int :=
  let i := x.natAbs >>> n
  let rem := x.natAbs % 2 ^ n
  let up := decide (n ≠ 0) && (decide (2 ^ (n - 1) < rem) || (decide (rem = 2 ^ (n - 1)) && decide (i % 2 = 1)))
  let v : Int := (i + (if up then 1 else 0) : Nat)
  if x < 0 then -v else v

/-- Steps 5 and 6 of R205: renormalise sums outside the range; the overflow bit. -/
def bfpNorm (e : Nat) (l : List Int) : Bfp × Bool :=
  if l.all (fun x => decide (-(2 ^ 23 : Int) ≤ x ∧ x ≤ bfpMax)) then (⟨e, l⟩, false)
  else if e = 255 then (⟨255, l.map (fun x => if bfpMax < x then bfpMax else if x < -(2 ^ 23 : Int) then -bfpMax else x)⟩, true)
  else (⟨e + 1, l.map (fun x => shiftRne x 1)⟩, false)

/-- R205. -/
def bfpAdd (a b : Bfp) : Bfp × Bool :=
  let e := max a.e b.e
  let al (x : Bfp) : List Int := x.m.map (fun m => shiftRne m (e - x.e))
  bfpNorm e ((al a).zip (al b) |>.map (fun p => p.1 + p.2))

/-- R204: a block of 32 f32 patterns, with the completion status: bit 0 invalid, bit 1 overflow. -/
def bfpOfF32 (l : List Nat) : Bfp × Nat :=
  if l.any (fun x => fld x 23 8 == 255) then
    (⟨255, l.map (fun x => if x.testBit 31 then -bfpMax else bfpMax)⟩, 1)
  else
    -- a zero contributes no exponent; a subnormal's counts as 1
    let big := l.foldl (fun a x => if x % 2 ^ 31 = 0 then a else max a (max 1 (fld x 23 8))) 0
    let e := if big = 0 then 0 else big + 1
    let mant (x : Nat) : Int := match decF fmtF32 false x with
      | .num n m k =>
        let (i, _) := roundTo {} n m (k + 150 - e) 0 false
        if n then -(i : Int) else i
      | _ => 0
    let (b, big) := bfpNorm e (l.map mant)
    (b, if big then 2 else 0)

/-- A bfp element as f32 (R204). -/
def f32OfBfp (e : Nat) (m : Int) : Nat := (encF fmtF32 {} (.num (decide (m < 0)) m.natAbs ((e : Int) - 150))).1

/-- A block from its 128 bytes, and back (R203). -/
def bfpOfBytes (b : List Byte) : Bfp := ⟨le b 96 1, (List.range 32).map (fun k => toS 24 (le b (3 * k) 3))⟩
def bytesOfBfp (x : Bfp) : List Byte :=
  (x.m.map (fun m => toBytes 3 (wrap 24 m))).flatten ++ [BitVec.ofNat 8 x.e] ++ List.replicate 31 0#8

end Sys2Proof.Machine
end

