-- ==== Sys2Proof/Machine/Flags.lean ====
section
/-! DEFINITION. The floating operations on patterns with the sticky flags each raises (R177 to R184, R278 to R283): every
function answers the result's pattern and the flags of R179. -/

namespace Sys2Proof.Machine

/-- A + B, or A - B with `sub`; -0 and NaN signs as R177 and R181 give them. -/
def addF (f : Fmt) (k : Rnd) (sub : Bool) (a b : Nat) : Nat × Nat :=
  let x := decF f k.ftz a
  let y := decF f k.ftz b
  -- a subtracted NaN keeps its own sign (R177 rule 1)
  dotF f k [x, y] [] [x, if sub ∧ !y.isNan then y.flip else y]

def mulF (f : Fmt) (k : Rnd) (a b : Nat) : Nat × Nat :=
  let x := decF f k.ftz a
  let y := decF f k.ftz b
  dotF f k [x, y] [(x, y)] []

/-- A x B + C, rounded once (R181). -/
def fmaF (f : Fmt) (k : Rnd) (a b c : Nat) : Nat × Nat :=
  let x := decF f k.ftz a
  let y := decF f k.ftz b
  let z := decF f k.ftz c
  dotF f k [x, y, z] [(x, y)] [z]

/-- One f32 result of `v.fdot2` (R283). -/
def dot2F (f : Fmt) (k : Rnd) (a0 a1 b0 b1 c : Nat) : Nat × Nat :=
  let x0 := decF f k.ftz a0
  let x1 := decF f k.ftz a1
  let y0 := decF f k.ftz b0
  let y1 := decF f k.ftz b1
  let z := decF fmtF32 k.ftz c
  dotF fmtF32 k [x0, x1, y0, y1, z] [(x0, y0), (x1, y1)] [z]

/-- `v.fmin` and `v.fmax` (R178): -0 is less than +0, a lone quiet NaN is passed over. -/
def minmaxF (f : Fmt) (ftz mx : Bool) (a b : Nat) : Nat × Nat :=
  let x := decF f ftz a
  let y := decF f ftz b
  let k : Rnd := {}
  let less : Bool := decide (cmpFV x y < 0) || (x.isZero && y.isZero && x.neg && !y.neg)
  let pick (v : FV) : Nat × Nat := match v with | .inf n => (infPat f n, 0) | v => encF f k v
  if (x.isNan && y.isNan) || x.isSig || y.isSig then
    let v := if x.isNan then x else y
    ((encF f k v).1, if x.isSig || y.isSig then 16 else 0)
  else if x.isNan then pick y
  else if y.isNan then pick x
  else if less = mx then pick y else pick x

/-- The conditions of `v.fcmp` (R281): does it hold, and the flags. -/
def cmpF (f : Fmt) (ftz : Bool) (cc a b : Nat) : Bool × Nat :=
  let x := decF f ftz a
  let y := decF f ftz b
  let un := x.isNan || y.isNan
  let c := cmpFV x y
  let inv := if decide (2 ≤ cc ∧ cc ≤ 5) then un else (x.isSig || y.isSig)
  let r := match cc with
    | 0 => !un && decide (c = 0)
    | 1 => un || decide (c ≠ 0)
    | 2 => !un && decide (c < 0)
    | 3 => !un && decide (c ≤ 0)
    | 4 => !un && decide (0 < c)
    | 5 => !un && decide (0 ≤ c)
    | 6 => un
    | _ => !un
  (r, if inv then 16 else 0)

/-- `v.frnd` (R282): an integral value of the same format, with the operand's sign; no inexact. -/
def rndF (f : Fmt) (k : Rnd) (a : Nat) : Nat × Nat :=
  match decF f k.ftz a with
  | .nan n s p => (encNan f n p, if s then 16 else 0)
  | .inf n => (infPat f n, 0)
  | .num n 0 _ => (signBit f n, 0)
  | .num n m e =>
    let i := (roundTo k n m e 0 false).1
    if i = 0 then (signBit f n, 0) else ((roundF f {} n i 0 false).1, 0)

/-- `v.fclass` (R282). -/
def classF (f : Fmt) (a : Nat) : Nat :=
  match decF f false a with
  | .nan _ s _ => if s then 0 else 1
  | .inf n => if n then 2 else 9
  | .num n 0 _ => if n then 5 else 6
  | .num n m _ => if m < 2 ^ f.fw then (if n then 4 else 7) else (if n then 3 else 8)

/-- The f32 sum of `far.add` and `at.fadd`: rounded once under .rn (R116, R306). -/
def addF32 (a b : Nat) : Nat := (addF fmtF32 {} false a b).1

end Sys2Proof.Machine
end

