-- ==== Sys2Proof/Machine/Xlate.lean ====
section
/-! DEFINITION. Physical memory, its backing (R98 to R100, R428), address translation (R119 to R125, R472) and the access
tables (R438, R493, R494). -/

namespace Sys2Proof.Machine

/-! Physical memory as its homes hold it. What an unlisted byte reads as is zero (log entry 2). -/

/-- What a byte of memory that nothing has written reads as. -/
def memDefault : Byte := 0#8

/-- One byte at its home. -/
def rdByte (s : State) (pa : Nat) : Byte := fget memDefault pa s.mem

/-- `n` bytes at their homes. -/
def rdBytes (s : State) (pa n : Nat) : List Byte := (List.range n).map (fun i => rdByte s (pa + i))

/-- The granule that 8 bytes in error belong to, by the structure the error was found in: 64 bytes in HBM4E, else those 8 (R456): its first
byte and its size. -/
def granule (k code : Nat) : Nat × Nat := if code = 9 then (k / 8 * 64, 64) else (8 * k, 8)

/-- The bytes in error, by 8, that a write leaves in error: those whose granule it does not write whole (R458). -/
def badAfter (l : List (Nat × Byte)) (m : FMap Nat) : FMap Nat :=
  m.filter (fun p => let g := granule p.1 p.2; !(List.range g.2).all (fun i => l.any (fun q => q.1 == g.1 + i)))

/-- An uncorrectable error at an address, in all of its granule (R456, R458). -/
def markBad (s : State) (pa code : Nat) : State :=
  let g := granule (pa / 8) code
  { s with badMem := (List.range (g.2 / 8)).foldl (fun m i => fput 0 (g.1 / 8 + i) code m) s.badMem }

/-- Write bytes at their homes, in list order; the memory keeps its canonical form. -/
def wrBytes (s : State) (l : List (Nat × Byte)) : State :=
  { s with mem := fputs memDefault l s.mem, badMem := badAfter l s.badMem }

/-- The first of these bytes that lies in a granule with an uncorrectable error, with the structure that detects it (R458). -/
def badAt (s : State) (pas : List Nat) : Option (Nat × Nat) :=
  if s.badMem.isEmpty then none
  else pas.findSome? (fun p => match fget 0 (p / 8) s.badMem with | 0 => none | c => some (p, c))

/-- The canonical form of memory: addresses strictly rising, none reads as the default. -/
def Memory.wf (m : FMap Byte) : Bool := fwf memDefault m

def hbmTop : Nat := 0x10C388D0000
def cxlBase : Nat := 2 ^ 44

/-- Is a physical address in the CXL range (R98)? -/
def isCxl (pa : Nat) : Bool := decide (cxlBase ≤ pa ∧ pa < 2 ^ 45)

/-- The bytes the devices of a CXL port hold together (R428). -/
def portCap (s : State) (port : Nat) : Nat := (List.range 4).foldl (fun a k => a + fget 0 (port * 4 + k) s.cxlCaps) 0

/-- How much of an aligned page or table lies in backed ranges: 0 none, 1 part, 2 all (R98, R100, R428). A table lies in one
4 KiB granule; a page's granules go round the four ports. -/
def backing (s : State) (pa size : Nat) : Nat :=
  if pa < cxlBase then (if pa + size ≤ hbmTop then 2 else if pa < hbmTop then 1 else 0)
  else if isCxl pa then
    let gr := (pa - cxlBase) / 4096
    if size ≤ 4096 then (if gr / 4 * 4096 + pa % 4096 + size ≤ portCap s (gr % 4) then 2
      else if gr / 4 * 4096 + pa % 4096 < portCap s (gr % 4) then 1 else 0)
    else
      let o := gr / 4 * 4096
      let caps := (List.range 4).map (portCap s)
      if caps.all (fun c => decide (o + size / 4 ≤ c)) then 2 else if caps.all (fun c => decide (c ≤ o)) then 0 else 1
  else 0

/-- The tower of an HBM address (R99). -/
def towerOf (pa : Nat) : Nat :=
  let g := pa / 4096
  (List.range 8).foldl (fun t k => t ^^^ fld g (4 * k) 4) 0

/-- The die of an address's home (R99, R100). -/
def dieOf (pa : Nat) : Nat := if isCxl pa then ((pa - cxlBase) / 4096) % 4 else towerOf pa / 4

/-- The logical slice of an address's home on its die. -/
def sliceOf (pa : Nat) : Nat :=
  let n := pa / 1024
  fld n 0 8 ^^^ fld n 8 8 ^^^ fld n 16 8 ^^^ fld n 24 8 ^^^ fld n 32 8

/-! Translation. -/

/-- What a walk gives: a page, or the code and index of a translation fault (R472). -/
inductive Walk where
  | page (va pa size rights : Nat) (rmost : Bool)
  | bad (code index : Nat)
  deriving DecidableEq, Repr

/-- The size of the page a leaf at a level maps, and of the table a level's entries stand in. -/
def pageSize (level : Nat) : Nat := match level with | 0 => 2 ^ 16 | 1 => 2 ^ 21 | _ => 2 ^ 30
def tableSize (level : Nat) : Nat := if level = 0 then 256 else 4096
def levelIndex (level va : Nat) : Nat := if level = 0 then fld va 16 5 else fld va (12 + 9 * level) 9

/-- One entry of the walk (R120, R121, R472): malformed before unbacked, both before any right. -/
def walkEntry (s : State) (level va e : Nat) : Walk ⊕ Nat :=
  let addr := fld e 8 44 * 256
  if e % 2 = 0 then .inl (.bad 1 level)
  else if fld e 52 12 ≠ 0 ∨ fld e 6 1 ≠ 0 ∨ fld e 2 1 ≠ 0 then .inl (.bad 2 level)
  else if fld e 1 1 = 1 then
    if 3 ≤ level ∨ addr % pageSize level ≠ 0 ∨ backing s addr (pageSize level) = 1 then .inl (.bad 2 level)
    else if backing s addr (pageSize level) = 0 then .inl (.bad 4 level)
    else .inl (.page (va - va % pageSize level) addr (pageSize level) (fld e 3 3) (fld e 7 1 == 1))
  else if level = 0 ∨ addr % tableSize (level - 1) ≠ 0 ∨ backing s addr (tableSize (level - 1)) = 1 then .inl (.bad 2 level)
  else if backing s addr (tableSize (level - 1)) = 0 then .inl (.bad 4 level)
  else .inr addr

/-- The walk from a level's table (R120). -/
def walkFrom (s : State) (va : Nat) : Nat → Nat → Walk
  | level, table =>
    let e := ofBytes (rdBytes s (table + 8 * levelIndex level va) 8)
    match level with
    | 0 => match walkEntry s 0 va e with | .inl w => w | .inr _ => .bad 2 0
    | k + 1 => match walkEntry s (k + 1) va e with | .inl w => w | .inr next => walkFrom s va k next

/-- The entries a walk reads from a level's table on. -/
def trailFrom (s : State) (va : Nat) : Nat → Nat → List Nat
  | level, table =>
    let a := table + 8 * levelIndex level va
    match level with
    | 0 => [a]
    | k + 1 => match walkEntry s (k + 1) va (ofBytes (rdBytes s a 8)) with | .inl _ => [a] | .inr next => a :: trailFrom s va k next

/-- The root table of a context (R119). -/
def rootOf (s : State) (ctx : Nat) : Nat := match getC s ctx with | some c => c.root | none => 0

/-- A whole walk. -/
def walk (s : State) (ctx va : Nat) : Walk :=
  if (getC s ctx).isNone then .bad 1 4
  else if backing s (rootOf s ctx) 4096 ≠ 2 then .bad 4 4
  else walkFrom s va 4 (rootOf s ctx)

/-- The physical addresses of the entries a whole walk reads at their homes (R121, R474). -/
def walkTrail (s : State) (ctx va : Nat) : List Nat :=
  if (getC s ctx).isNone ∨ backing s (rootOf s ctx) 4096 ≠ 2 then [] else trailFrom s va 4 (rootOf s ctx)

/-- Rights: bit 0 rd, bit 1 w, bit 2 x (R122, R472). -/
def rightsOk (have_ need : Nat) : Bool := decide (have_ &&& need = need)

/-- What a translation gives: the physical address and whether the page is read-mostly, or the fault's code and index. -/
inductive Xlat where
  | ok (pa : Nat) (rmost : Bool)
  | bad (code index : Nat)
  deriving DecidableEq, Repr

/-- The tier before the rights (R472). -/
def usePage (va need : Nat) (hbm : Bool) (w : Walk) : Xlat :=
  match w with
  | .bad c i => .bad c i
  | .page v p _ r m =>
    if hbm && isCxl p then .bad 5 0
    else if rightsOk r need then .ok (p + (va - v)) m else .bad 3 need

/-- A translation a core's second level or a tower's cache holds (R123, R125). -/
def tlbFind (s : State) (unit ctx va : Nat) : Option Tlb :=
  s.tlb.find? (fun t => t.unit == unit && t.ctx == ctx && t.part.isNone && decide (t.va ≤ va ∧ va < t.va + t.size))

/-- A translation that a partition's first level or its core's second level holds (R123). -/
def tlbFindPart (s : State) (core part ctx va : Nat) : Option Tlb :=
  s.tlb.find? (fun t => t.unit == core && t.ctx == ctx && (t.part.isNone || t.part == some part) &&
    decide (t.va ≤ va ∧ va < t.va + t.size))

/-- The set of a second-level TLB a translation stands in (log entry 73). -/
def tlbSet (t : Tlb) : Nat := t.va / t.size % 1024

/-- Do two translations compete for the same entries: a first level of 64, a set of 8, or a tower's cache of 4,096 (R123, R125)? -/
def tlbMates (a b : Tlb) : Bool :=
  a.unit == b.unit && a.part == b.part && (a.part.isSome || decide (128 ≤ a.unit) || tlbSet a == tlbSet b)

/-- A translation enters a cache that does not hold it; a full one gives up an entry of its own choice (log entry 73). -/
def tlbAdd (s : State) (t : Tlb) : State :=
  let cap := if t.part.isSome then 64 else if 128 ≤ t.unit then 4096 else 8
  if s.tlb.any (fun x => tlbMates x t && x.ctx == t.ctx && x.va == t.va && x.size == t.size) then s
  else
    let mates := s.tlb.filter (fun x => tlbMates x t)
    if mates.length < cap then { s with tlb := s.tlb ++ [t] }
    else
      let kept := dropNth ((openValue s).toNat % mates.length) mates
      { tickFree s with tlb := s.tlb.filter (fun x => !tlbMates x t) ++ kept ++ [t] }

/-- An engine's translation: its unit's held entry, else a walk of its own (R124, R125, log entry 9). No page lies at 2^57 or
above (R119). -/
def xlate (s : State) (unit ctx va need : Nat) (hbm : Bool) : Xlat :=
  if 2 ^ 57 ≤ va then .bad 1 4
  else match tlbFind s unit ctx va with
  | some t => usePage va need hbm (.page t.va t.pa t.size t.rights t.rmost)
  | none => usePage va need hbm (walk s ctx va)

/-! Access tables. -/

/-- Rights of a table entry, as bits 0 rd, 1 w, 2 atomic. -/
def AtEntry.rights (e : AtEntry) : Nat := (if e.rd then 1 else 0) + (if e.w then 2 else 0) + (if e.atomic then 4 else 0)

/-- The check at a target (R438): none when allowed, else the violation's code and index (R493). While an invalidation runs,
an entry it removes may still allow (R494). -/
def accessBad (s : State) (target ctx eng pa n need : Nat) : Option (Nat × Nat) :=
  let l := (s.atTable ++ s.atRemoved).filter (fun e =>
    e.target == target && e.ctx == ctx && e.eng == eng && decide (e.base ≤ pa ∧ pa + n ≤ e.base + e.size))
  if l.any (fun e => rightsOk e.rights need) then none
  else match l with
    | [] => some (1, eng)
    | e :: _ => some (2, eng + (need &&& (7 - e.rights)) * 16)

/-- The check of a memory access at its targets (R438): the L2 home's table, and for bytes of the CXL tier the table of their port too. -/
def accessCheck (s : State) (ctx eng pa n need : Nat) : Option (Nat × Nat) :=
  match accessBad s 0 ctx eng pa n need with
  | some r => some r
  | none => if isCxl pa then accessBad s 3 ctx eng pa n need else none

/-- Does a byte range stay below 2^57 (R119)? -/
def vaOk (va : Nat) : Bool := decide (va < 2 ^ 57)

/-- A unit's range of at most 8 bytes, or a longer one that crosses a page, byte by byte: the physical addresses, or the
translation fault with the address that failed. -/
def xlateBytes (s : State) (unit ctx va n need : Nat) (hbm : Bool) : List Nat × Option (Nat × Nat × Nat) :=
  let first := xlate s unit ctx va need hbm
  let last := xlate s unit ctx (va + n - 1) need hbm
  match first, last with
  | .bad c i, _ => ([], some (c, i, va))
  | .ok p _, .ok q _ =>
    if va / 65536 = (va + n - 1) / 65536 then ((List.range n).map (fun i => p + i), none)
    else
      let k := 65536 - va % 65536
      ((List.range n).map (fun i => if i < k then p + i else q + i - (n - 1)), none)
  | .ok _ _, .bad c i => ([], some (c, i, va + n - 1 - (va + n - 1) % 65536))

end Sys2Proof.Machine
end

