-- ==== Sys2Proof/Machine/Local.lean ====
section
/-! DEFINITION. A team's local memory (R62, R93 to R97), its presence bits and faulted ranges (R95, R481), and the divergence
stacks in it (R42). -/

namespace Sys2Proof.Machine

/-- Bytes of an allocation (R62). -/
def lmSize (t : Team) : Nat := t.lines * 128

/-- Where the stack of a group's slot starts (R42, R62). -/
def stackBase (t : Team) (num : Nat) (b : Bool) : Nat :=
  (if t.task then t.prog * 128 + num * (t.width * 64 + 32 * t.depthD) + t.width * 64
   else t.prog * 128 + num * (32 * t.depthD)) + (if b then 16 * t.depthD else 0)

/-- Where the argument area of a task group's number starts (R62). -/
def argBase (t : Team) (num : Nat) : Nat := t.prog * 128 + num * (t.width * 64 + 32 * t.depthD)

/-- Does a range meet a divergence-stack area? -/
def stackHit (t : Team) (off n : Nat) : Bool :=
  (List.range (if t.task then 32 else t.groups)).any (fun k =>
    let b := stackBase t k false
    decide (0 < t.depthD ∧ off < b + 32 * t.depthD ∧ b < off + n))

/-- R93: 1 a range outside the allocation, 2 one that reaches a stack area. -/
def localBad (t : Team) (off n : Nat) : Option Nat :=
  if lmSize t < off + n then some 1 else if stackHit t off n then some 2 else none

def lrd (t : Team) (off n : Nat) : List Byte := (List.range n).map (fun i => fget 0#8 (off + i) t.mem)
def lrdN (t : Team) (off n : Nat) : Nat := ofBytes (lrd t off n)
def lwr (t : Team) (l : List (Nat × Byte)) : Team := { t with mem := fputs 0#8 l t.mem }
/-- Bytes with their addresses. -/
def at_ (off : Nat) (l : List Byte) : List (Nat × Byte) := (List.range l.length).zip l |>.map (fun p => (off + p.1, p.2))

/-- The lines of a byte range. -/
def linesOf (off n : Nat) : List Nat :=
  if n = 0 then [] else (List.range ((off + n - 1) / 128 - off / 128 + 1)).map (fun i => off / 128 + i)

/-- Is a line in a faulted range (R481)? -/
def inRange (t : Team) (line : Nat) : Bool := t.ranges.any (fun r => r.contains line)

/-- A line is absent while a copy in flight has yet to deliver it, or in a faulted range (R95, R481). -/
def isAbsent (t : Team) (line : Nat) : Bool := decide (fget 0 line t.absent ≠ 0) || inRange t line
/-- The first absent line of a range. -/
def absentLine (t : Team) (off n : Nat) : Option Nat := (linesOf off n).find? (isAbsent t)
/-- Take lines out of every faulted range; an empty range is freed (R481). -/
def dropRanges (t : Team) (l : List Nat) : Team :=
  { t with ranges := (t.ranges.map (fun r => r.filter (fun x => !l.contains x))).filter (fun r => !r.isEmpty) }

/-- A copy clears the presence bits of its destination lines, each of which now waits for one more copy (R95). A line that was in a
faulted range leaves it (R481). -/
def clearLines (t : Team) (off n : Nat) : Team :=
  let ls := linesOf off n
  dropRanges { t with absent := ls.foldl (fun m k => fput 0 k (fget 0 k m + 1) m) t.absent } ls

/-- These lines wait for a copy no more, because it has delivered its bytes of them or has faulted; a line is present when every copy
that named it has delivered (R95). -/
def setLines (t : Team) (ls : List Nat) : Team :=
  { t with absent := ls.foldl (fun m k => fput 0 k (fget 0 k m - 1) m) t.absent }

/-- The team of a group. -/
def teamOf (s : State) (g : Group) : Option Team := getT s g.team

/-- The team with an index in a group's cluster, retired or not (R27). -/
def clusterTeamAny (s : State) (g : Group) (k : Nat) : Option Team :=
  if g.task then none
  else s.teams.find? (fun t => t.ctx == g.ctx && t.grid == g.grid && t.cluster == g.cluster && t.tidx == k && !t.task)

/-- The living team with an index in a group's cluster (R27, R97). -/
def clusterTeam (s : State) (g : Group) (k : Nat) : Option Team :=
  if g.task then none
  else s.teams.find? (fun t => t.ctx == g.ctx && t.grid == g.grid && t.cluster == g.cluster && t.tidx == k && !t.task && !t.retired)

/-- The die of a core: 24 compute cores a die, then two control cores a die (R10, R13). -/
def dieOfCore (c : Nat) : Nat := if c < 96 then c / 24 else (c - 96) / 2

/-! Divergence stacks. -/

/-- Push an entry (R42): kind, address, mask. -/
def stackPush (s : State) (g : Group) (b : Bool) (kind : Nat) (addr : Nat) (m : W64) : State :=
  match teamOf s g with
  | none => s
  | some t =>
    let o := stackBase t g.num b + 16 * (slotOf g b).depth
    putT s (lwr t (at_ o (toBytes 8 (kind * 2 ^ 63 + addr % 2 ^ 57) ++ toBytes 8 m.toNat)))

/-- The top entry of a stack: kind, address, mask. -/
def stackTop (s : State) (g : Group) (b : Bool) : Option (Nat × Nat × W64) :=
  match teamOf s g, (slotOf g b).depth with
  | some t, k + 1 =>
    let o := stackBase t g.num b + 16 * k
    let q := lrdN t o 8
    some (q / 2 ^ 63, q % 2 ^ 57, r64 (lrdN t (o + 8) 8))
  | _, _ => none

/-- Slot B's stack becomes slot A's (R41). -/
def stackMove (s : State) (g : Group) : State :=
  match teamOf s g with
  | none => s
  | some t => putT s (lwr t (at_ (stackBase t g.num false) (lrd t (stackBase t g.num true) (16 * g.slotB.depth))))

/-- After a change of slot states: lanes waiting at a join whose other slot is free go on (R44 case 3), and slot B becomes slot
A when slot A is free (R41). -/
def settleSlots (s : State) (gid : Nat) : State :=
  match getG s gid with
  | none => s
  | some g =>
    let go (x other : Slot) : Slot := match x.st, other.st with
      | .waiting j, .free => { atClause x j with st := .running, waitSince := s.time, extSince := s.time }
      | _, _ => x
    let g1 := { g with slotA := go g.slotA g.slotB, slotB := go g.slotB g.slotA }
    match g1.slotA.st, g1.slotB.st with
    | .free, .free => putG s g1
    | .free, _ =>
      let s1 := stackMove s g1
      let toA (r : Replay) : Replay := { r with slotB := false }
      let h := g1.handler.map (fun h => if h.slotB then { h with slotB := false, before := h.before.map toA } else h)
      let r := g1.replay.map toA
      let p := getPart s1 g1.core g1.part
      putPart (putG s1 { g1 with slotA := g1.slotB, slotB := {}, handler := h, replay := r })
        { p with cur := p.cur.map (fun q => if q == (gid, true) then (gid, false) else q) }
    | _, _ => putG s g1

end Sys2Proof.Machine
end

