-- ==== Sys2Proof/Machine/Cache.lean ====
section
/-! DEFINITION. The tags of the L2 slices and of the towers' LLC (R105, R107 to R110), the homes' per-line state (R102, R106),
the L1 data caches (R101, R134), and recalls (R131, R476). Bytes are those of `State.mem`, which every level agrees with at
its home (log entry 3); an L1 or instruction-cache line carries bytes of its own. -/

namespace Sys2Proof.Machine

def home (s : State) (line : Nat) : Home := fget {} line s.homes
def setHome (s : State) (line : Nat) (h : Home) : State := { s with homes := fput {} line h s.homes }

/-! L2. -/

/-- The set of a line, over the whole package (R99, R105). -/
def setOf (line : Nat) : Nat := (dieOf (line * 1024) * 256 + sliceOf (line * 1024)) * 32 + line / 256 % 32

/-- Point the four nodes of a pseudo-LRU tree away from a way (R105); node 1 is the root. -/
def plruTouch (t w : Nat) : Nat :=
  ([3, 2, 1, 0].foldl (fun a k =>
    let b := fld w k 1
    (setFld a.1 a.2 1 (1 - b), 2 * a.2 + b)) (t, 1)).1

/-- Is some allowed way below a node of depth `d` (0: root)? -/
def plruHas (allowed node d : Nat) : Bool :=
  let lo := (node - 2 ^ d) * 2 ^ (4 - d)
  fld allowed lo (2 ^ (4 - d)) != 0

/-- The way a pseudo-LRU tree gives up, among the allowed ones. -/
def plruVictim (t allowed : Nat) : Nat :=
  ([0, 1, 2, 3].foldl (fun n d =>
    let c := 2 * n + fld t n 1
    if plruHas allowed c (d + 1) then c else 2 * n + (1 - fld t n 1)) 1) - 16

def l2Find (s : State) (line : Nat) : Option CLine := s.l2.find? (fun c => c.line == line)
def l2Has (s : State) (line sector : Nat) : Bool :=
  match l2Find s line with | some c => c.valid.getLsbD sector | none => false

def promote (s : State) (line : Nat) : State :=
  match l2Find s line with
  | none => s
  | some c => { s with plru := fput 0 (setOf line) (plruTouch (fget 0 (setOf line) s.plru) c.way) s.plru }

/-- The way pairs in cane mode, or on their way there or back, as a mask (R110 to R112). -/
def caneMask (s : State) : Nat := s.waits.foldl (fun a w => a ||| w.pairs) (s.ctxs.foldl (fun a c => a ||| c.pairs) 0)

/-- The LLC set of a line, over the package (R110). -/
def llcSet (line : Nat) : Nat :=
  let pa := line * 1024
  towerOf pa * 24576 + (4 * (pa / 4096 / 16) + pa % 4096 / 1024) % 24576

/-- Sectors arrive in the LLC, from HBM4E or dirty from an L2: merged into a held line, else allocated in the lowest free way, else in
place of way 0's line, whose dirty sectors go to HBM4E (R108, R110; replacement is the device's own, log entry 3). -/
def llcPut (s : State) (line : Nat) (valid dirty : BitVec 8) : State :=
  if s.llc.any (fun c => c.line == line) then
    let grow (c : CLine) : CLine := { c with valid := c.valid ||| valid, dirty := c.dirty ||| dirty }
    { s with llc := replaceFirst (fun c => c.line == line) grow s.llc }
  else
    let mates := s.llc.filter (fun c => llcSet c.line == llcSet line)
    let used := caneMask s
    match (List.range 16).find? (fun w => !used.testBit (w / 2) && mates.all (fun c => c.way != w)) with
    | some w => { s with llc := s.llc ++ [{ line := line, way := w, valid := valid, dirty := dirty }] }
    | none =>
      { s with llc := s.llc.filter (fun c => !(llcSet c.line == llcSet line && c.way == 0)) ++
          [{ line := line, way := 0, valid := valid, dirty := dirty }] }

/-- Sectors of a CXL line go to its device, whose acknowledgement is then due (R118, R331). -/
def cxlOut (s : State) (gid line : Nat) (sectors : BitVec 8) : State :=
  let bytes := (List.range 8).flatMap (fun k =>
    if sectors.getLsbD k then (List.range 128).map (fun i => (line * 1024 + 128 * k + i, rdByte s (line * 1024 + 128 * k + i)))
    else [])
  launchOp { s with cxlMem := fputs 0#8 bytes s.cxlMem } gid 0 0 .none (.cxlWrite line)

/-- L2_EVICTION (R105): the line's dirty sectors go to the tower and the line is dropped. -/
def l2Evict (s : State) (c : CLine) : State :=
  let s1 := { s with l2 := s.l2.filter (fun x => x.line != c.line) }
  if c.dirty = 0#8 then s1
  else if isCxl (c.line * 1024) then cxlOut s1 0 c.line c.dirty
  else llcPut s1 c.line c.dirty c.dirty

/-- Allocate or extend a line's sectors in its slice, within the allowed ways (R105, R109). A new line takes the lowest-numbered free
allowed way before the pseudo-LRU tree is asked, and the tree passes by subtrees without an allowed way: DESIGN CHOICE (log entry 74). -/
def l2Put (s : State) (line : Nat) (valid dirty : BitVec 8) (allowed : Nat) : State :=
  match l2Find s line with
  | some _ =>
    let grow (c : CLine) : CLine := { c with valid := c.valid ||| valid, dirty := c.dirty ||| dirty }
    { s with l2 := replaceFirst (fun c => c.line == line) grow s.l2 }
  | none =>
    let mates := s.l2.filter (fun c => setOf c.line == setOf line)
    match (List.range 16).find? (fun w => allowed.testBit w && mates.all (fun c => c.way != w)) with
    | some w => { s with l2 := s.l2 ++ [{ line := line, way := w, valid := valid, dirty := dirty }] }
    | none =>
      let w := plruVictim (fget 0 (setOf line) s.plru) allowed
      let s1 := match mates.find? (fun c => c.way == w) with | some c => l2Evict s c | none => s
      { s1 with l2 := s1.l2 ++ [{ line := line, way := w, valid := valid, dirty := dirty }] }

/-- The ways a hint may allocate in for a context, on the line's die (R107, R109); zero allocates nothing. -/
def hintWays (s : State) (ctx hint line : Nat) : Nat :=
  if hint = 1 ∨ hint = 2 then 0
  else if hint = 3 then (match getC s ctx with | some c => fget 0xF000 (dieOf (line * 1024)) c.ways | none => 0xF000)
  else 0xFFFF

/-- A load is served at a home: sectors fill and the line is promoted as its hint says (R107). -/
def homeTouch (s : State) (ctx hint pa : Nat) : State :=
  let line := pa / 1024
  let sec := pa / 128 % 8
  if l2Has s line sec then (if hint = 2 then s else promote s line)
  else
    let w := hintWays s ctx hint line
    if w = 0 then s
    else
      let s1 := promote (l2Put s line (1#8 <<< sec) 0#8 w) line
      if isCxl pa then s1 else llcPut s1 line (1#8 <<< sec) 0#8

/-- May an access that needs a sector from its tower start its fill (R106)? -/
def fillFree (s : State) (line : Nat) : Bool := decide ((home s line).pend = 0)

/-- A load that reaches a home waits for engine marks and, when it misses, for the tower-pending count (R106). -/
def homeReady (s : State) (pa : Nat) : Bool :=
  let line := pa / 1024
  let sec := pa / 128 % 8
  decide ((home s line).marks = 0) && (l2Has s line sec || fillFree s line)

/-- Bytes that go past the L2 to the tower or the CXL device: the tower-pending count rises until the acknowledgement
(R106, R107). -/
def towerOut (s : State) (gid line : Nat) (sectors : BitVec 8) : State :=
  if isCxl (line * 1024) then cxlOut s gid line sectors
  else
    let s1 := if s.llc.any (fun c => c.line == line) then llcPut s line sectors sectors else s
    let h := home s1 line
    launchOp (setHome s1 line { h with pend := h.pend + 1 }) gid 0 0 .none (.towerWrite line)

/-- A store's effect on the home's line tags by its hint (R105, R107). -/
def homeStoreTags (s : State) (gid ctx hint pa : Nat) : State :=
  let line := pa / 1024
  let sec := pa / 128 % 8
  let bit := 1#8 <<< sec
  if l2Has s line sec then
    let s1 := if hint = 2 then s else promote s line
    let mark (c : CLine) : CLine := { c with dirty := if hint = 2 then c.dirty &&& ~~~bit else c.dirty ||| bit }
    let s2 := { s1 with l2 := replaceFirst (fun c => c.line == line) mark s1.l2 }
    if hint = 2 then towerOut s2 gid line bit else s2
  else
    let w := hintWays s ctx hint line
    if w = 0 then towerOut s gid line bit
    else promote (l2Put s line bit bit w) line

/-- Must a store of n bytes at an address first fill its sector (R105)? -/
def storeNeedsFill (s : State) (ctx hint pa n : Nat) : Bool :=
  !l2Has s (pa / 1024) (pa / 128 % 8) && decide (n < 128) && decide (hintWays s ctx hint (pa / 1024) ≠ 0)

/-! L1 and leases. -/

/-- A live copy of a 128-byte line in a core's L1: unexpired, and its home's die not counted as missing (R101, R476). -/
def l1Live (s : State) (core line : Nat) : Option L1Line :=
  s.l1.find? (fun x => x.core == core && x.line == line && decide (s.time < x.expiry) &&
    decide (fget 0 (core * 4 + dieOf (line * 128)) s.blind = 0))

/-- Byte k of a 128-byte line. -/
def lineByte (d : BitVec 1024) (k : Nat) : Byte := d.extractLsb' (8 * k) 8

/-- A 128-byte line from its bytes. -/
def lineOfBytes (l : List Byte) : BitVec 1024 := BitVec.ofNat 1024 (ofBytes l)

/-- A store passes through its core's L1: a live copy takes its bytes, with its expiry unchanged (R103, R134). -/
def l1Store (s : State) (core : Nat) (bytes : List (Nat × Byte)) : State :=
  { s with l1 := s.l1.map (fun x =>
      let mine := bytes.filter (fun p => p.1 / 128 == x.line)
      if x.core != core || mine.isEmpty then x
      else { x with data := BitVec.ofNat 1024 (mine.foldl (fun d p => setFld d (8 * (p.1 % 128)) 8 p.2.toNat) x.data.toNat) }) }

/-- The lease a home grants now: 512 ns, 8,000 ns on a read-mostly page (R102). -/
def leaseEnd (s : State) (rmost : Bool) : Nat := s.time + (if rmost then 8000 else 512)

/-- The home records a granted lease in its line's bound (R102). -/
def grant (s : State) (line expiry : Nat) : State :=
  let h := home s line
  setHome s line { h with lease := max h.lease expiry }

/-- The number of a slice and core's recall sequence (R476). -/
def recallKey (line core : Nat) : Nat := (dieOf (line * 1024) * 256 + sliceOf (line * 1024)) * 128 + core

/-- R131: every L1 and instruction cache of the package is sent a recall of the line; no copy is used 198 ns after p. -/
def sendRecalls (s : State) (line : Nat) : State :=
  let cap := s.time + 198
  let s1 := { s with
    l1 := s.l1.map (fun x => if x.line / 8 == line then { x with expiry := min x.expiry cap } else x),
    icache := s.icache.map (fun x => if x.line / 8 == line then { x with expiry := x.expiry.map (min cap) } else x) }
  (List.range 104).foldl (fun s c =>
    let s2 := { s with recallSent := fput 0 (recallKey line c) (fget 0 (recallKey line c) s.recallSent + 1) s.recallSent }
    launchOp s2 0 0 c .none (.recall c line cap)) s1

/-- R131: the completion time a home gives a store performed now, with its recall when the lease bound lies far ahead. -/
def completion (s : State) (line : Nat) : State × Nat :=
  let b := (home s line).lease
  if b ≤ s.time + 1000 then (s, max s.time b + 2)
  else
    let s1 := sendRecalls s line
    let h := home s1 line
    (setHome s1 line { h with lease := s.time + 198 }, s.time + 200)

end Sys2Proof.Machine
end

