-- ==== Sys2Proof/Machine/Mem.lean ====
section
/-! DEFINITION. Global accesses of group words: the per-lane checks of R463 step 6, loads and stores on their way to the homes
(R101 to R103, R128, R134, R137), and what a performed write wakes (R84, R254). -/

namespace Sys2Proof.Machine

/-! Per-lane checks. -/

/-- What one lane's checks give: the physical address of each byte, a fault, or a page that has yet to be walked. -/
inductive LaneRes where
  | ok (l : Lane)
  | bad (f : FInfo)
  | miss (page : Nat)
  deriving DecidableEq, Repr

/-- The slot a group's issuing word belongs to; slot A when none issues. -/
def focusB (s : State) (gid : Nat) : Bool := match s.focus with | .word g b => g == gid && b | _ => false

/-- How a group's core translates an address of a word: a TLB entry, a failed walk of this word, or a miss (R123, R124, R473). -/
def wordXlat (s : State) (g : Group) (va need : Nat) : Xlat ⊕ Nat :=
  match tlbFindPart s g.core g.part g.ctx va with
  | some t => .inl (usePage va need false (.page t.va t.pa t.size t.rights t.rmost))
  | none =>
    match g.walkFail.find? (fun p => p.1 == focusB s g.gid && p.2.1 == va / 65536) with
    | some (_, _, c, i) => .inl (.bad c i)
    | none => .inr (va / 65536)

/-- Of faults of one class the one with the lowest code, the first of equals (R463). -/
def lowestCode (l : List FInfo) : Option FInfo :=
  l.foldl (fun a f => match a with
    | none => some f
    | some b => if f.code < b.code then some f else some b) none

/-- The bytes of one access of a group word: address, alignment, translation and access table, in that order (R463). `need`:
rights rd 1, w 2; `acc` the access-table rights. -/
def laneCheck (s : State) (g : Group) (lane va z need acc : Nat) (aligned : Bool) (alignCode : Nat) : LaneRes :=
  if 2 ^ 57 ≤ va ∨ 2 ^ 57 < va + z then .bad { cls := 6, code := 1, addr := va, lane := some lane }
  else if aligned ∧ va % z ≠ 0 then .bad { cls := 4, code := alignCode, addr := va, lane := some lane }
  else
    match wordXlat s g va need, wordXlat s g (va + z - 1) need with
    | .inr p, _ => .miss p
    | _, .inr p => .miss p
    | .inl (.bad c i), .inl (.bad d j) =>
      if d < c then .bad { cls := 7, code := d, addr := va + z - 1 - (va + z - 1) % 65536, index := j, lane := some lane }
      else .bad { cls := 7, code := c, addr := va, index := i, lane := some lane }
    | .inl (.bad c i), _ => .bad { cls := 7, code := c, addr := va, index := i, lane := some lane }
    | _, .inl (.bad c i) => .bad { cls := 7, code := c, addr := va + z - 1 - (va + z - 1) % 65536, index := i, lane := some lane }
    | .inl (.ok p m), .inl (.ok q k2) =>
      let k := 65536 - va % 65536
      let pas := (List.range z).map (fun i => if i < k then p + i else q + i - (z - 1))
      match lowestCode (pas.filterMap (fun a => (accessCheck s g.ctx 0 a 1 acc).map (fun r =>
          ({ cls := 0x18, code := r.1, addr := a, index := r.2, lane := some lane } : FInfo)))) with
      | some f => .bad f
      | none => .ok { lane := lane, va := va, pas := pas, rmost := m && k2 }

/-- The rank of a class at step 6 (R463). -/
def rank (c : Nat) : Nat := match c with | 6 => 0 | 4 => 1 | 5 => 2 | 0x10 => 3 | 7 => 4 | 0x17 => 4 | _ => 5

/-- The record's fault among failing lanes: the class that ranks first, its lowest lane (R464). -/
def pickFault (l : List FInfo) : Option FInfo :=
  l.foldl (fun a f => match a with
    | none => some f
    | some b => if rank f.cls < rank b.cls then some f else some b) none

/-- The fault of a word that makes several accesses as one: the class that ranks first, its lowest code (R463). -/
def wordFaultOf (l : List FInfo) : Option FInfo :=
  match pickFault l with | none => none | some f => lowestCode (l.filter (fun e => e.cls == f.cls))

def goodLanes (l : List LaneRes) : List Lane := l.filterMap (fun r => match r with | .ok x => some x | _ => none)
def badLanes (l : List LaneRes) : List FInfo := l.filterMap (fun r => match r with | .bad f => some f | _ => none)
def missPage (l : List LaneRes) : Option Nat := l.findSome? (fun r => match r with | .miss p => some p | _ => none)

/-- A page walk of a die's or tower's walkers for a waiter: it joins a walk of the same context and page already in flight there, or
queues behind those (R124, R125). -/
def joinWalk (s : State) (unit ctx page core : Nat) (who : Nat × Bool) : State :=
  let same (f : Flight) : Bool := match f.op with | .walk u c p _ => u == unit && c == ctx && p == page | _ => false
  let join (f : Flight) : Flight := match f.op with
    | .walk u c p l => { f with op := .walk u c p (if l.contains who then l else l ++ [who]) }
    | _ => f
  if s.pend.any same then { s with pend := s.pend.map (fun f => if same f then join f else f) }
  else launchOp s 0 ctx core .none (.walk unit ctx page [who])

/-- A page walk for a group's word, by the walkers of its core's die (R124). -/
def startWalk (s : State) (g : Group) (page : Nat) : State := joinWalk s (dieOfCore g.core) g.ctx page g.core (g.gid, focusB s g.gid)

/-- A page walk that an operation in flight needs, by the walkers of its core's die or of a tower's base die (R124, R125). -/
def flightWalk (s : State) (f : Flight) (unit page : Nat) : State :=
  joinWalk s (if 128 ≤ unit then unit else dieOfCore f.core) f.ctx page f.core (f.id, false)

/-- How a unit translates an address for an operation in flight: a held entry, a walk that failed for it, or the page to be walked first
(R124, R125). No page lies at 2^57 or above (R119). -/
def flightXlate (s : State) (f : Flight) (unit va need : Nat) (hbm : Bool) : Xlat ⊕ Nat :=
  if 2 ^ 57 ≤ va then .inl (.bad 1 4)
  else match tlbFind s unit f.ctx va with
  | some t => .inl (usePage va need hbm (.page t.va t.pa t.size t.rights t.rmost))
  | none => match f.fails.find? (fun p => p.1 == va / 65536) with
    | some (_, c, i) => .inl (.bad c i)
    | none => .inr (va / 65536)

/-- A group without the failed walks of one slot's word. -/
def walkDone (g : Group) (b : Bool) : Group := { g with walkFail := g.walkFail.filter (fun p => p.1 != b) }

/-- A word is done with its walks: their failures are forgotten, so that a later access walks again (R473). -/
def clearWalks (s : State) (gid : Nat) : State :=
  match getG s gid with
  | none => s
  | some g => putG s (walkDone g (focusB s gid))

/-- End a per-lane word: the done lanes stand, and a failing lane raises the record (R464). -/
def finishLanes (s : State) (x : Issue) (good : List Nat) (bad : List FInfo) : Res :=
  let s1 := clearWalks s x.g.gid
  match pickFault bad with
  | none => .ok s1
  | some f => .bad s1 { f with done := lanesMask good }

/-! Stores under way. -/

/-- The last of a list of bytes at an address. -/
def lastAt {β : Type} (pa : Nat) (l : List (Nat × β)) : Option β :=
  l.foldl (fun a p => if p.1 = pa then some p.2 else a) none

/-- Of a list of pending bytes, the one at an address that was issued last, by serial number. -/
def newestAt (pa : Nat) (l : List (Nat × Byte × Nat)) : Option (Byte × Nat) :=
  l.foldl (fun a p => if p.1 ≠ pa then a else match a with
    | none => some p.2
    | some b => if b.2 ≤ p.2.2 then some p.2 else some b) none

/-- The stores of the groups that pass `p` still on their way: address, byte, serial number; `units`: with the writes of core-unit atomics
(R141). -/
def pendingBytes (s : State) (units : Bool) (p : Nat → Bool) : List (Nat × Byte × Nat) :=
  s.pend.flatMap (fun f => match f.op with
    | .store b _ _ u => if p f.gid && (units || !u) then b.map (fun x => (x.1, x.2, f.id)) else []
    | _ => []) ++
  s.groups.flatMap (fun g => if p g.gid then g.wcb.flatMap (fun e => (wcbBytes e).map (fun x => (x.1, x.2, e.id))) else [])

def ownPending (s : State) (gid : Nat) : List (Nat × Byte × Nat) := pendingBytes s true (fun g => g == gid)

/-- Does a group run on this core? -/
def onCore (s : State) (core gid : Nat) : Bool := match getG s gid with | some g => g.core == core | none => false

/-- The stores of a core's groups still on their way (R134). -/
def corePending (s : State) (core : Nat) : List (Nat × Byte × Nat) := pendingBytes s true (onCore s core)

/-- Has another group of the core a store to any of these bytes still on its way? A load that would read it is served at the home,
so that no group reads a value that has yet to enter the coherence order (R128, R129, log entry 75). -/
def othersPending (s : State) (core gid : Nat) (pas : List Nat) : Bool :=
  (pendingBytes s true (fun g => g != gid && onCore s core g)).any (fun x => pas.contains x.1)

/-- Is a byte of a group's store of this serial number still on its way? -/
def stillPending (s : State) (gid id pa : Nat) : Bool :=
  (pendingBytes s false (fun g => g == gid)).any (fun x => x.1 == pa && x.2.2 == id)

/-- A byte as the core's atomic unit holds it for a load of serial number `id`: the last of the unit's writes still on their way, up to one
of the group's own that comes after the load (R128, R129, R141). -/
def unitByte (s : State) (core gid id pa : Nat) : Option Byte :=
  let l := s.pend.filterMap (fun f => match f.op with
    | .store b _ _ true => if f.core = core then (lastAt pa b).map (fun x => (f.gid == gid && decide (id < f.id), x)) else none
    | _ => none)
  (l.takeWhile (fun q => !q.1)).getLast?.map (fun q => q.2)

/-- The bytes of a waiting line that are to be performed one by one, once a byte has been merged (R130). -/
def wcbLoose (l : List Nat) (a : Nat) (loose : Bool) : List Nat := l.filter (fun x => x != a) ++ (if loose then [a] else [])

/-- Merge a store's bytes into the group's write-combining buffer; a full line is sent (R103). `loose`: the bytes of its misaligned lanes. -/
def wcbPut (s : State) (gid hint : Nat) (loose : List Nat) (bytes : List (Nat × Byte)) : State :=
  bytes.foldl (fun s p =>
    match getG s gid with
    | none => s
    | some g =>
      let line := p.1 / 128
      match g.wcb.find? (fun e => e.line == line) with
      | some e =>
        let e1 : Wcb := { e with bytes := fput none p.1 (some p.2) e.bytes, hint := hint, by_ := e.by_ ||| slotBit s gid,
                                 loose := wcbLoose e.loose p.1 (loose.contains p.1) }
        if 128 ≤ e1.bytes.length then
          let s1 := putG s { g with wcb := g.wcb.filter (fun y => y.id != e.id) }
          { s1 with pend := s1.pend ++ [{ id := e.id, word := e.id, gid := gid, ctx := g.ctx, core := g.core, cls := .stcomp,
                                          op := .store (wcbBytes e1) none hint false, by_ := e1.by_, pc := e1.pc,
                                          lanes := e1.lanes, loose := e1.loose }] }
        else putG s { g with wcb := replaceFirst (fun y => y.id == e.id) (fun _ => e1) g.wcb }
      | none =>
        let e : Wcb :=
          { id := s.nextId, line := line, since := s.time, bytes := fput none p.1 (some p.2) [], hint := hint, by_ := slotBit s gid,
            pc := wordAt s gid, lanes := lanesAt s gid, loose := wcbLoose [] p.1 (loose.contains p.1) }
        { putG s { g with wcb := g.wcb ++ [e] } with nextId := s.nextId + 1 }) s

/-- Send bytes at once, one operation a 128-byte line: a release store, or a core-unit atomic's write (R136, R141). -/
def sendStores (s : State) (g : Group) (rel : Option Scope) (hint : Nat) (unitOp : Bool) (bytes : List (Nat × Byte)) : State :=
  let lines := (bytes.map (fun p => p.1 / 128)).eraseDups
  let word := s.nextId
  lines.foldl (fun s k =>
    launchPart s word g.gid g.ctx g.core .stcomp (.store (bytes.filter (fun p => p.1 / 128 == k)) rel hint unitOp)) s

/-- The bytes a store's lanes write, in increasing lane order, so that a higher lane overrides a lower (R304). -/
def laneBytes (l : List Lane) (z : Nat) (val : Nat → W64) : List (Nat × Byte) :=
  l.flatMap (fun x => x.pas.zip (toBytes z (val x.lane).toNat))

/-- Is a lane's access misaligned, so that its bytes are single-copy atomic one by one (R130, R302)? -/
def laneLoose (l : Lane) : Bool := decide (l.va % l.pas.length ≠ 0)

/-- The bytes of a store's misaligned lanes. -/
def looseBytes (l : List Lane) : List Nat := (l.filter laneLoose).flatMap (fun x => x.pas)

/-! Loads. -/

/-- Is an acquire of the group of a word before serial number `id` still to return its value (R137)? -/
def acquiring (s : State) (gid id : Nat) : Bool :=
  s.pend.any (fun f => f.gid == gid && decide (f.word < id) && (match f.op with
    | .load _ _ _ (some _) _ _ => true
    | .atomic _ _ _ _ acq _ _ => acq
    | .remoteLoad _ _ _ _ acq => acq
    | _ => false))

/-- Does an operation in flight read any of these bytes for its group? -/
def readsBytes (o : Op) (pas : List Nat) : Bool :=
  match o with
  | .load lanes _ _ _ _ _ => lanes.any (fun l => l.pas.any (fun p => pas.contains p))
  | .atomic _ _ lanes _ _ _ _ => lanes.any (fun l => l.1.pas.any (fun p => pas.contains p))
  | _ => false

/-- Registers by key: register x 64 + lane, or 2^20 + scalar. -/
def applyRegs (g : Group) (l : List (Nat × W64)) : Group :=
  l.foldl (fun g p => if 2 ^ 20 ≤ p.1 then ws g (p.1 - 2 ^ 20) p.2 else wv g (p.1 / 64) (p.1 % 64) p.2) g

/-- Where a loaded value of z bytes goes: dst is a register code, or 512 + scalar; the upper half of 16 bytes goes to the next
register (R303). -/
def loadRegs (dst lane : Nat) (bytes : List Byte) (pair : Bool) : List (Nat × W64) :=
  if 512 ≤ dst then [(2 ^ 20 + (dst - 512), r64 (ofBytes bytes))]
  else if pair then [(dst * 64 + lane, r64 (ofBytes (bytes.take 8))), ((dst + 1) * 64 + lane, r64 (ofBytes (bytes.drop 8)))]
  else [(dst * 64 + lane, r64 (ofBytes bytes))]

/-- A load that finds all its bytes in live L1 copies (R101): none when some line is missing. The group's own stores that are on their
way come before the copy's bytes (R128). -/
def l1Bytes (s : State) (core gid : Nat) (pas : List Nat) : Option (List Byte) :=
  if othersPending s core gid pas then none
  else
    let own := ownPending s gid
    pas.mapM (fun p => (l1Live s core (p / 128)).map (fun x => match newestAt p own with
      | some (b, _) => b
      | none => lineByte x.data (p % 128)))

/-- The spin detector's record of the lines a slot loads in a pass around its loop (R83): at most five, of which the fifth tells that
there were more than four. Lines of local memory are kept as `localLine` numbers them. -/
def noteLines (s : State) (gid : Nat) (b : Bool) (lines : List Nat) : State :=
  match getG s gid with
  | none => s
  | some g =>
    let sl := slotOf g b
    let add := lines.eraseDups.filter (fun k => !sl.spin.lines.contains k)
    putG s (setSlot g b { sl with spin := { sl.spin with lines := (sl.spin.lines ++ add).take 5 } })

/-- The number of a line of a team's local memory among the lines a spin detector records, past every physical line. -/
def localLine (tid line : Nat) : Nat := 2 ^ 52 + tid * 8192 + line

/-- Issue a load's lanes (R101, R128, R137): a lane that hits is fixed at once, the others go to their homes, one operation for each
128-byte line, and one for each misaligned lane, whose bytes are read one by one (R130; log entry 85). -/
def issueLoad (s : State) (x : Issue) (lanes : List Lane) (dst : Nat) (pair : Bool) (acq : Option Scope) (hint : Nat) : State :=
  let gid := x.g.gid
  let word := s.nextId
  let own := ownPending s gid
  let atHome := match acq with | some .cl => true | some .dv => true | some .sy => true | _ => false
  let free := !atHome && !acquiring s gid s.nextId
  let hit (l : Lane) : Option (List Byte) :=
    if free && s.pend.all (fun f => f.gid != gid || !readsBytes f.op l.pas) then l1Bytes s x.g.core gid l.pas else none
  let hits := lanes.filterMap (fun l => (hit l).map (fun b => (l, b)))
  let rest := lanes.filter (fun l => (hit l).isNone)
  let s1 := if hits.isEmpty then s
    else launchOp s gid x.g.ctx x.g.core .loads (.value (hits.flatMap (fun p => loadRegs dst p.1.lane p.2 pair)))
  let mine (part : List Lane) : List (Nat × Byte × Nat) := own.filter (fun p => part.any (fun l => l.pas.contains p.1))
  let whole := rest.filter (fun l => !laneLoose l)
  let keys := (whole.map (fun l => (l.pas.headD 0) / 128)).eraseDups
  let s2 := keys.foldl (fun s k =>
    let part := whole.filter (fun l => (l.pas.headD 0) / 128 == k)
    launchPart s word gid x.g.ctx x.g.core .loads (.load part dst pair acq hint (mine part))) s1
  let s3 := (rest.filter laneLoose).foldl (fun s l =>
    launchLoose s word gid x.g.ctx x.g.core .loads (.load [l] dst pair acq hint (mine [l])) (List.range l.pas.length)) s2
  noteLines s3 gid x.b (lanes.flatMap (fun l => l.pas.map (fun p => p / 128)))

/-- Fix a home load's bytes: the group's own latest store before it while that still waits, else what the core's atomic unit holds, else
the home's (R128, R129). `id`: the load's serial number; `own`: the group's stores that waited when it issued. -/
def homeLoadBytes (s : State) (core gid id : Nat) (own : List (Nat × Byte × Nat)) (pas : List Nat) : List Byte :=
  pas.map (fun p => match newestAt p (own.filter (fun q => q.1 == p && stillPending s gid q.2.2 p)) with
    | some (b, _) => b
    | none => (unitByte s core gid id p).getD (rdByte s p))

/-- A line arrives in a core's L1 of 4,096 lines under a new lease, with the stores of the core's groups that are on their way; a full L1
gives up a line of its own choice (R92, R101, R102, R134; log entry 73). -/
def l1Install (s : State) (core line : Nat) (rmost : Bool) : State :=
  let e := leaseEnd s rmost
  let mine := corePending s core
  let bytes := (List.range 128).map (fun i =>
    match newestAt (line * 128 + i) mine with | some (b, _) => b | none => rdByte s (line * 128 + i))
  let held := s.l1.filter (fun x => x.core == core && x.line != line)
  let kept := if held.length < 4096 then held else dropNth ((openValue s).toNat % held.length) held
  let s1 := { (if held.length < 4096 then s else tickFree s) with
    l1 := s.l1.filter (fun x => x.core != core) ++ kept ++ [{ core := core, line := line, expiry := e, data := lineOfBytes bytes }] }
  grant s1 (line / 8) e

def l1Drop (s : State) (core line : Nat) : State :=
  { s with l1 := s.l1.filter (fun x => !(x.core == core && x.line == line)) }

/-- May a word of a group read these bytes now: no earlier acquire or load of them is out (R129, R137), and they are in the L1, unless
only the homes count, or their homes can answer (R106)? -/
def readReady (s : State) (g : Group) (pas : List Nat) (home : Bool) : Bool :=
  !acquiring s g.gid s.nextId && s.pend.all (fun f => f.gid != g.gid || !readsBytes f.op pas) &&
    ((!home && (l1Bytes s g.core g.gid pas).isSome) || pas.all (homeReady s))

/-- A plain load at group scope that its word waits for (`v.quant`'s header record, R287): an earlier load of the same bytes or
an earlier acquire of the group comes first, and the home answers when it is free to (R106); older copies in the L1 give way (R129). None: not yet. Data in error is a machine
check of the word (R458). -/
def readNow (s : State) (g : Group) (pas : List Nat) : Option (FInfo ⊕ State × List Byte) :=
  if !readReady s g pas false then none
  else match l1Bytes s g.core g.gid pas with
    | some b => some (.inr (s, b))
    | none =>
      match badAt s pas with
      | some (q, c) => some (.inl { cls := 0x19, code := c, addr := q })
      | none =>
        let lines := (pas.map (fun p => p / 128)).eraseDups
        some (.inr (lines.foldl (fun s k => homeTouch (l1Drop s g.core k) g.ctx 0 (k * 128)) s,
          homeLoadBytes s g.core g.gid s.nextId (ownPending s g.gid) pas))

/-! What a performed write wakes. -/

/-- What a nap's park becomes when an event of this cause reaches it: a deadline that has passed came first (R254). -/
def napCause (now cause : Nat) (d l : Option Nat) : Park := .nap d l (match d with | some t => if t ≤ now then 1 else cause | none => cause)

/-- A nap on a written line wakes with cause 2; a slot at the floor on it returns to its priority when another party wrote (R84,
R254). -/
def wakeSlot (now line : Nat) (nap floor : Bool) (sl : Slot) : Slot :=
  let hit : Bool := match sl.park with | some (.nap _ (some l) 0) => nap && l == line | _ => false
  let p := match sl.park with
    | some (.nap d l 0) => if hit then some (napCause now 2 d l) else sl.park
    | p => p
  let f := match sl.floor with
    | some (t, ls) => if floor && decide (ls.length ≤ 4) && ls.contains line then none else some (t, ls)
    | none => none
  let x := { sl with park := p, extSince := if hit then now else sl.extSince }
  if sl.floor.isSome ∧ f.isNone then { x with floor := f, spin := {} } else x

/-- A party `gid` (0: an engine or another device) has changed these lines; `by_` names the slots of the group that wrote, for which
the other slot is another party to a nap (R254). -/
def wakeKeys (s : State) (gid by_ : Nat) (keys : List Nat) : State :=
  let up (g : Group) (k : Nat) : Group :=
    let other := g.gid != gid
    { g with slotA := wakeSlot s.time k (other || by_.testBit 1) other g.slotA,
             slotB := wakeSlot s.time k (other || by_.testBit 0) other g.slotB }
  { s with groups := s.groups.map (fun g => keys.eraseDups.foldl up g) }

/-- NAP_LINE_WAKE: a write to these bytes has been performed at their homes. -/
def wakeLines (s : State) (gid by_ : Nat) (pas : List Nat) : State := wakeKeys s gid by_ (pas.map (fun p => p / 128))

/-- Bytes of a team's local memory have been written (R84). -/
def wakeLocal (s : State) (tid gid : Nat) (offs : List Nat) : State := wakeKeys s gid 3 (offs.map (fun o => localLine tid (o / 128)))

/-- Bytes are written at their homes by a party (R127), which wakes watchers. -/
def performBy (s : State) (gid by_ : Nat) (bytes : List (Nat × Byte)) : State :=
  wakeLines (wrBytes s bytes) gid by_ (bytes.map Prod.fst)
def performWrite (s : State) (gid : Nat) (bytes : List (Nat × Byte)) : State := performBy s gid 0 bytes

/-- A group receives a completion time (R133). -/
def feedWct (s : State) (gid t : Nat) : State :=
  match getG s gid with
  | none => s
  | some g => putG s { g with wct := max g.wct t }

/-- A store or atomic has its completion time, for its group and for the tasks that group spawned after it (R133, R258). -/
def feedStore (s : State) (f : Flight) (t : Nat) : State :=
  let up (k : Task) : Task := if k.gid = f.gid ∧ f.word < k.ready then { k with wct := max k.wct t } else k
  feedWct { s with pool := s.pool.map up } f.gid t

/-- The sectors that bytes lie in, and the bytes of one. -/
def sectorsOf (bytes : List (Nat × Byte)) : List Nat := (bytes.map (fun p => p.1 / 128)).eraseDups
def sectorPart (bytes : List (Nat × Byte)) (k : Nat) : List (Nat × Byte) := bytes.filter (fun p => p.1 / 128 == k)

/-- May an engine's write of bytes at their homes be made now: part of a sector the slice does not hold is filled first, which no
tower-pending write allows (R105, R106)? -/
def engineFree (s : State) (ctx hint : Nat) (bytes : List (Nat × Byte)) : Bool :=
  (sectorsOf bytes).all (fun k => !storeNeedsFill s ctx hint (128 * k) (sectorPart bytes k).length || fillFree s (k / 8))

/-- An engine's write within one sector: it is filled where it must be, the bytes are performed, with their completion time (R105, R131,
R142). -/
def sectorWrite (s : State) (ctx hint k : Nat) (bytes : List (Nat × Byte)) : State × Nat :=
  let s0 := if storeNeedsFill s ctx hint (128 * k) bytes.length then homeTouch s ctx hint (128 * k) else s
  completion (homeStoreTags (performWrite s0 0 bytes) 0 ctx hint (128 * k)) (k / 8)

/-- An engine's write of bytes at their homes, sector by sector, with the largest completion time. -/
def engineWrite (s : State) (ctx hint : Nat) (bytes : List (Nat × Byte)) : State × Nat :=
  (sectorsOf bytes).foldl (fun a k => let r := sectorWrite a.1 ctx hint k (sectorPart bytes k); (r.1, max a.2 r.2)) (s, 0)

/-- An engine's read at homes of these bytes: each sector fills and each line is promoted as the hint says (R105, R107, R109). -/
def engineRead (s : State) (ctx hint : Nat) (pas : List Nat) : State :=
  ((pas.map (fun p => p / 128)).eraseDups).foldl (fun s k => homeTouch s ctx hint (k * 128)) s

end Sys2Proof.Machine
end

