-- ==== Sys2Proof/Machine/Load.lean ====
section
/-! DEFINITION. The load and store words (R300 to R305). -/

namespace Sys2Proof.Machine

/-- The scope of an ordered M word; none without an order. -/
def orderScope (w : MWord) : Option Scope := if w.order.toNat = 0 then none else scopeOf w.scope.toNat

/-- A release word waits (R136): none when it may perform, else the state with the write-combining buffer draining and the
park. -/
def releaseWait (s : State) (g : Group) (sc : Scope) : Option (State × Park) :=
  let s1 := drainWcb s g.gid
  match getG s1 g.gid with
  | none => none
  | some g1 => if releaseReady s1 g1 sc s1.nextId then none else some (s1, .release sc)

/-- The lanes of a global M word, checked. -/
def checkLanes (s : State) (x : Issue) (l : List (Nat × Nat)) (z need acc : Nat) (aligned : Bool) (code : Nat) : List LaneRes :=
  l.map (fun p => laneCheck s x.g p.1 p.2 z need acc aligned code)

/-- Perform a global load of checked lanes (R303). An acquire drains the write-combining buffer (R103). -/
def globalLoad (s : State) (x : Issue) (w : MWord) (z dst : Nat) (pair : Bool) (l : List (Nat × Nat)) (perLane : Bool) : Res :=
  let acq := orderScope w
  let res := checkLanes s x l z 1 1 (acq.isSome || pair) 1
  match missPage res with
  | some p => .park (startWalk s x.g p) (.walk p)
  | none =>
    let good := goodLanes res
    let s0 := if acq.isSome then drainWcb s x.g.gid else s
    let s1 := issueLoad s0 x good dst pair acq w.hint.toNat
    if perLane then finishLanes s1 x (good.map (fun a => a.lane)) (badLanes res)
    else finishLanes s1 x [] ((badLanes res).map (fun f => { f with lane := none }))

def execLdG (w : MWord) (s : State) : Host.Outcome State Fault Refusal :=
  runWord (.ldG w) w.msel.toNat true s (fun s x =>
    globalLoad s x w (widthM w) w.data.toNat false (lanesM x w (widthM w)) true)
/-- 16 bytes at one point of the coherence order, into two registers (R303). -/
def execLdX (w : MWord) (s : State) : Host.Outcome State Fault Refusal :=
  runWord (.ldX w) w.msel.toNat true s (fun s x => globalLoad s x w 16 w.data.toNat true (lanesM x w 16) true)

/-- The address of a scalar M word. -/
def scalarAddr (x : Issue) (w : MWord) : Nat := wrap 64 ((rs x.g w.base.toNat).toNat + w.off.toInt)

def execLdS (w : MWord) (s : State) : Host.Outcome State Fault Refusal :=
  runWord (.ldS w) 0 false s (fun s x =>
    globalLoad s x w (widthM w) (512 + (w.data.toNat - 352)) false [(0, scalarAddr x w)] false)

/-- Perform a global store of checked lanes (R304): a plain store enters the write-combining buffer, a release goes to the home
once what precedes it is ordered. Every store passes through the core's L1 (R134). -/
def globalStore (s : State) (x : Issue) (w : MWord) (z : Nat) (l : List (Nat × Nat)) (val : Nat → W64) (perLane : Bool) : Res :=
  let rel := orderScope w
  let res := checkLanes s x l z 2 2 rel.isSome 1
  match missPage res with
  | some p => .park (startWalk s x.g p) (.walk p)
  | none =>
    match rel.bind (releaseWait s x.g) with
    | some (s1, p) => .park s1 p
    | none =>
      let good := goodLanes res
      let bytes := laneBytes good z val
      let s1 := l1Store s x.g.core bytes
      let s2 := match rel with
        | none => wcbPut s1 x.g.gid w.hint.toNat (looseBytes good) bytes
        | some sc => sendStores (drainWcb s1 x.g.gid) x.g (some sc) w.hint.toNat false bytes
      if perLane then finishLanes s2 x (good.map (fun a => a.lane)) (badLanes res)
      else finishLanes s2 x [] ((badLanes res).map (fun f => { f with lane := none }))

def execStG (w : MWord) (s : State) : Host.Outcome State Fault Refusal :=
  runWord (.stG w) w.msel.toNat true s (fun s x =>
    globalStore s x w (widthM w) (lanesM x w (widthM w)) (rv x.g w.data.toNat) true)
def execStS (w : MWord) (s : State) : Host.Outcome State Fault Refusal :=
  runWord (.stS w) 0 false s (fun s x =>
    globalStore s x w (widthM w) [(0, scalarAddr x w)] (fun _ => rs x.g (w.data.toNat - 352)) false)

/-! Local loads and stores (R93 to R97, R301). -/

/-- The lanes of a local word with their local addresses, an exact sum (R301). -/
def lanesLocal (x : Issue) (w : MWord) : List (Nat × Int) :=
  let z := widthM w
  let base := fld (rs x.g w.base.toNat).toNat 0 32
  (lanesOf x.active).map (fun l =>
    (l, (base : Int) + w.off.toInt + (if w.index.toNat = 511 then ((l * z : Nat) : Int) else (rv x.g w.index.toNat l).toInt)))

/-- The team a local word reaches: the issuing one, or with .rm one of its cluster (R301). -/
def localTeam (s : State) (x : Issue) (w : MWord) : Option Team :=
  if w.hint.toNat = 1 then clusterTeam s x.g (fld (rs x.g w.base.toNat).toNat 32 8) else teamOf s x.g

/-- Does a .rm word name a team of its cluster that has retired (R97, R484)? -/
def localGone (s : State) (x : Issue) (w : MWord) : Bool :=
  let k := fld (rs x.g w.base.toNat).toNat 32 8
  decide (w.hint.toNat = 1) && !x.g.task && (clusterTeam s x.g k).isNone && (match getCl s x.g.ctx x.g.grid x.g.cluster with
    | some c => decide (k < c.w * c.h)
    | none => false)

/-- The checks of one lane of a local word in the order of R463 step 6: alignment, local address, an absent line of a faulted
copy. A store for a team that has retired is not checked against R93 (R484); a load is checked against the size all teams of the
cluster share. -/
def localCheck (x : Issue) (w : MWord) (gone load : Bool) (own : Option Team) (t : Option Team) (lane : Nat) (la : Int) : Option FInfo :=
  let z := widthM w
  let base := (rs x.g w.base.toNat).toNat
  let rm := decide (w.hint.toNat = 1)
  let high := if rm then base / 2 ^ 40 ≠ 0 else base / 2 ^ 32 ≠ 0
  let a := wrap 64 la
  if w.order.toNat ≠ 0 ∧ la % z ≠ 0 then some { cls := 4, code := 1, addr := a, lane := some lane }
  else match (if gone then own else t) with
    | none => some { cls := 5, code := 3, addr := a, index := if rm then fld base 32 8 else 0, lane := some lane }
    | some t =>
      match (if gone && !load then none else if la < 0 then some 1 else localBad t la.toNat z) with
      | some c => some { cls := 5, code := c, addr := a, lane := some lane }
      | none =>
        if high then some { cls := 5, code := 4, addr := base, lane := some lane }
        else if gone then none
        else match (linesOf la.toNat z).find? (fun k => isAbsent t k && inRange t k) with
          | some _ => some { cls := 0x10, code := 4, addr := a, eng := 1, lane := some lane }
          | none => none

/-- The local word's checked lanes: those that pass, with their addresses, the faults, and a line still to arrive. -/
def localLanes (s : State) (x : Issue) (w : MWord) (load : Bool) : List (Nat × Nat) × List FInfo × Option (Nat × Nat) :=
  let t := localTeam s x w
  let gone := localGone s x w
  let l := (lanesLocal x w).map (fun p => (p.1, p.2, localCheck x w gone load (teamOf s x.g) t p.1 p.2))
  let good := l.filterMap (fun p => match p.2.2 with | none => some (p.1, p.2.1.toNat) | some _ => none)
  let bad := l.filterMap (fun p => p.2.2)
  let wait := match t with
    | some t => (good.findSome? (fun p => absentLine t p.2 (widthM w))).map (fun k => (t.tid, k))
    | none => none
  (good, bad, wait)

/-- A load from the issuing team is fixed at the port at once; one from another team is served there later (R96, R97). An
earlier acquire of the group returns first (R137). A team that has retired gives no stated value. -/
def execLdL (w : MWord) (s : State) : Host.Outcome State Fault Refusal :=
  runWord (.ldL w) w.msel.toNat true s (fun s x =>
    let (good, bad, wait) := localLanes s x w true
    let z := widthM w
    let dst := w.data.toNat
    match wait, localTeam s x w with
    | some (t, k), _ => .park s (.line t k)
    | none, none =>
      let lanes := good.map (fun p => ({ lane := p.1, va := p.2, pas := [] } : Lane))
      let s0 := if (orderScope w).isSome then drainWcb s x.g.gid else s
      finishLanes (if good.isEmpty then s0
          else launchOp s0 x.g.gid x.g.ctx x.g.core .loads (.remoteLoad 0 lanes dst z (orderScope w).isSome))
        x (good.map (fun p => p.1)) bad
    | none, some t =>
      let s0 := noteLines (if (orderScope w).isSome then drainWcb s x.g.gid else s) x.g.gid x.b
        (good.flatMap (fun p => (linesOf p.2 z).map (localLine t.tid)))
      if t.tid = x.g.team then
        if acquiring s x.g.gid s.nextId then .park s (.read [] false)
        else
          let regs := good.flatMap (fun p => loadRegs dst p.1 (lrd t p.2 z) false)
          finishLanes (if regs.isEmpty then s0 else launchOp s0 x.g.gid x.g.ctx x.g.core .loads (.value regs)) x
            (good.map (fun p => p.1)) bad
      else
        let lanes := good.map (fun p => ({ lane := p.1, va := p.2, pas := [] } : Lane))
        finishLanes (if good.isEmpty then s0
            else launchOp s0 x.g.gid x.g.ctx x.g.core .loads (.remoteLoad t.tid lanes dst z (orderScope w).isSome)) x
          (good.map (fun p => p.1)) bad)

/-- A local store is performed at the port; one to another team travels there and is acknowledged (R96, R97, R304); one for a team
that has retired already is dropped and reported once (R484). -/
def execStL (w : MWord) (s : State) : Host.Outcome State Fault Refusal :=
  runWord (.stL w) w.msel.toNat true s (fun s x =>
    let (good, bad, wait) := localLanes s x w false
    let z := widthM w
    match wait, localTeam s x w with
    | some (t, k), _ => .park s (.line t k)
    | none, none =>
      match (orderScope w).bind (releaseWait s x.g) with
      | some (s1, p) => .park s1 p
      | none =>
        let s0 := if (orderScope w).isSome then drainWcb s x.g.gid else s
        finishLanes (if good.isEmpty then s0
            else serviceRecord s0 x.g.ctx { cls := 0x1D, code := 1, eng := 1, unit := fld (rs x.g w.base.toNat).toNat 32 8 } 0)
          x (good.map (fun p => p.1)) bad
    | none, some t =>
      match (orderScope w).bind (releaseWait s x.g) with
      | some (s1, p) => .park s1 p
      | none =>
        if acquiring s x.g.gid s.nextId ∧ t.tid = x.g.team then .park s (.read [] false)
        else
          let s0 := if (orderScope w).isSome then drainWcb s x.g.gid else s
          let bytes := good.flatMap (fun p => at_ p.2 (toBytes z (rv x.g w.data.toNat p.1).toNat))
          let s1 :=
            if bytes.isEmpty then s0
            else if t.tid = x.g.team then wakeLocal (putT s0 (lwr t bytes)) t.tid x.g.gid (bytes.map Prod.fst)
            else launchOp (putT s0 { t with inbound := t.inbound + 1 }) x.g.gid x.g.ctx x.g.core .stcomp
              (.remoteStore t.tid z bytes)
          finishLanes s1 x (good.map (fun p => p.1)) bad)

end Sys2Proof.Machine
end

