-- ==== Sys2Proof/Machine/Fetch.lean ====
section
/-! DEFINITION. The instruction cache (R104, R210, R260): its lines, reading through it, and the fate of a fetch (R122, R249). -/

namespace Sys2Proof.Machine

/-- A usable instruction-cache line: under its lease or pinned with no recall overdue, its home's die not counted as missing
(R104, R131, R476). -/
def iLive (s : State) (core line : Nat) : Option ILine :=
  s.icache.find? (fun x => x.core == core && x.line == line && !x.stale &&
    (match x.expiry with
     | some e => decide (s.time < e)
     | none => s.pend.all (fun f => match f.op with
        | .recall c l d => !(c == core && l == line / 8 && decide (d ≤ s.time))
        | _ => true)) &&
    decide (fget 0 (core * 4 + dieOf (line * 128)) s.blind = 0))

/-- The bytes of a line as the homes hold it. -/
def homeLine (s : State) (line : Nat) : BitVec 1024 := lineOfBytes (rdBytes s (line * 128) 128)

/-- The lines an instruction cache of 1,024 keeps beside a new one: a full cache gives up an unpinned line of its own choice (R92, R104;
log entry 73). -/
def iKeep (s : State) (core line : Nat) : List ILine :=
  let held := s.icache.filter (fun x => x.core == core && x.line != line)
  let pins := held.filter (fun x => x.expiry.isNone)
  let loose := held.filter (fun x => x.expiry.isSome)
  if held.length < 1024 then held else pins ++ dropNth ((openValue s).toNat % loose.length) loose

/-- A line arrives in an instruction cache from its home, under a lease or pinned for a context (R104, R105). -/
def iInstall (s : State) (core line : Nat) (rmost : Bool) (pin : Option Nat) : State :=
  let e := match pin with | some _ => none | none => some (leaseEnd s rmost)
  let full := decide (1024 ≤ (s.icache.filter (fun x => x.core == core && x.line != line)).length)
  let s1 := { (if full then tickFree s else s) with
    icache := s.icache.filter (fun x => x.core != core) ++ iKeep s core line ++
                [{ core := core, line := line, expiry := e, pinCtx := pin.getD 0, data := homeLine s line }] }
  grant (homeTouch s1 0 0 (line * 128)) (line / 8) (match pin with | some _ => 2 ^ 64 | none => leaseEnd s rmost)

/-- The context a core's line is pinned for. -/
def pinOf (s : State) (core line : Nat) : Option Nat :=
  (s.icache.find? (fun x => x.core == core && x.line == line && x.expiry.isNone)).map (fun x => x.pinCtx)

/-- The page of a virtual address in the translations a group's partition and core hold (R123, R124). -/
def codePage (s : State) (g : Group) (va : Nat) : Option Tlb := if 2 ^ 57 ≤ va then none else tlbFindPart s g.core g.part g.ctx va

/-- How a slot's fetch translates a byte of code: by a held translation, by a walk that failed for the slot, or not before its page has been
walked (R124, R473). No page lies at 2^57 or above (R119). -/
def codeXlat (s : State) (g : Group) (b : Bool) (va : Nat) : Xlat ⊕ Nat :=
  if 2 ^ 57 ≤ va then .inl (.bad 1 4)
  else match codePage s g va with
  | some t => .inl (usePage va 4 false (.page t.va t.pa t.size t.rights t.rmost))
  | none => match g.walkFail.find? (fun p => p.1 == b && p.2.1 == va / 65536) with
    | some (_, _, c, i) => .inl (.bad c i)
    | none => .inr (va / 65536)

/-- The page a slot's fetch of a byte of code must have walked first. -/
def fetchMiss (s : State) (g : Group) (b : Bool) (va : Nat) : Option Nat := match codeXlat s g b va with | .inr p => some p | .inl _ => none

/-- What a translated fetch of the byte at a virtual address meets (R122, R249, R438): none when it may be fetched. -/
def fetchFault (s : State) (g : Group) (b : Bool) (va : Nat) : Option FInfo :=
  match codeXlat s g b va with
  | .inr _ => none
  | .inl (.bad c i) => some { cls := 7, code := c, addr := va, index := i }
  | .inl (.ok pa _) => (accessCheck s g.ctx 0 pa 1 1).map (fun r => { cls := 0x18, code := r.1, addr := pa, index := r.2 })

/-- Where a byte of code that may be fetched lies, and whether its page is read-mostly: none before its translation is held, or when it may
not be fetched. -/
def codeAt (s : State) (g : Group) (va : Nat) : Option (Nat × Bool) :=
  match codePage s g va with
  | none => none
  | some t => match usePage va 4 false (.page t.va t.pa t.size t.rights t.rmost) with
    | .bad _ _ => none
    | .ok pa m => if (accessCheck s g.ctx 0 pa 1 1).isSome then none else some (pa, m)

/-- Bring the lines of `n` bytes from a virtual address into the group's instruction cache where they are not live: a home answers when it
may (R106), a pinned line stays pinned (R104), and CXL lines are not held (R92). -/
def iFill (s : State) (g : Group) (va n : Nat) : State :=
  (linesOf va n).foldl (fun s k =>
    match codeAt s g (k * 128) with
    | none => s
    | some (pa, m) =>
      let line := pa / 128
      match iLive s g.core line with
      | some _ => s
      | none => if isCxl (line * 128) || !homeReady s (line * 128) then s else iInstall s g.core line m (pinOf s g.core line)) s

/-- The first data in error that a fetch of these bytes would take from their homes: lines that are not live in the instruction cache are
read whole (R456, R458). -/
def codeBad (s : State) (g : Group) (va n : Nat) : Option (Nat × Nat) :=
  if s.badMem.isEmpty then none
  else (linesOf va n).findSome? (fun k => match codeAt s g (k * 128) with
    | none => none
    | some (pa, _) => if (iLive s g.core (pa / 128)).isSome then none
      else badAt s ((List.range 128).map (fun i => pa / 128 * 128 + i)))

/-- Eight bytes of code at their home. -/
def homeQuad (s : State) (pa : Nat) : W64 := r64 (ofBytes (rdBytes s pa 8))

/-- An 8-byte word of code through the instruction cache: none when its line is not live there. A CXL page's line is held by no
instruction cache (R92): its words are read at their home when it may answer (log entry 76). -/
def iQuad (s : State) (g : Group) (va : Nat) : Option W64 :=
  match codeAt s g va with
  | none => none
  | some (pa, _) =>
    if isCxl pa then (if homeReady s pa then some (homeQuad s pa) else none)
    else (iLive s g.core (pa / 128)).map (fun x => x.data.extractLsb' (8 * (pa % 128)) 64)

/-- An 8-byte word that an instruction reads through the instruction cache after a fill (R251, R269): a core that counts the home's die as
missing serves no hit on its lines, and the word comes from the home (R476). None: the home cannot answer yet. -/
def iWord (s : State) (g : Group) (va : Nat) : Option W64 :=
  match iQuad s g va, codeAt s g va with
  | some q, _ => some q
  | none, some (pa, _) => if homeReady s pa then some (homeQuad s pa) else none
  | none, none => none

/-- A machine check at a slot's word, or at its clause's header: what it needed was in error (R458, R474). -/
def slotCheck (s : State) (g : Group) (b hdr : Bool) (code addr : Nat) : State :=
  let e : FInfo := { cls := 0x19, code := code, addr := addr }
  notice (stopCtx (drainWcb s g.gid) g.ctx 0x19) (jobOf s g.ctx) g.ctx 32 (recordBytes (mkRecord s g b hdr e (if hdr then (slotOf g b).mask else standLanes g (slotOf g b))))

/-- Where the lines of a clause after its header's begin. -/
def clauseTail (a : Nat) (hdr : W64) : List Nat :=
  (linesOf a (8 * (fld hdr.toNat 60 4 + 2))).filterMap (fun k => if k * 128 ≤ a then none else some (k * 128))

/-- Is the whole clause at a header's address in the group's instruction cache (R74)? -/
def clauseReady (s : State) (g : Group) (hdr : Nat) : Bool :=
  match iQuad s g hdr with
  | none => false
  | some h => (List.range (fld h.toNat 60 4 + 1)).all (fun i => (iQuad s g (hdr + 8 * (i + 1))).isSome)

/-- The clause's words (R210). -/
def clauseWords (s : State) (g : Group) (hdr : Nat) : List W64 :=
  match iQuad s g hdr with
  | none => []
  | some h => (List.range (fld h.toNat 60 4 + 1)).map (fun i => (iQuad s g (hdr + 8 * (i + 1))).getD 0#64)

end Sys2Proof.Machine
end

