-- ==== Sys2Proof/Machine/Control.lean ====
section
/-! DEFINITION. The control words: branches, divergence, calls, tables, loops, exit, yield, nap, and instruction prefetch
and pinning (R41 to R46, R83, R243 to R255, R260). -/

namespace Sys2Proof.Machine

/-- What a transfer to a clause meets before it is made: its page has yet to be walked, or may not be fetched, and then the word has not
been performed (R124, R249). `s0` is the state before the word. -/
def transferStop (s0 : State) (x : Issue) (target : Nat) : Option Res :=
  match fetchMiss s0 x.g x.b target, fetchFault s0 x.g x.b target with
  | some p, _ => some (.park (startWalk s0 x.g p) (.walk p))
  | none, some f => some (.bad (clearWalks s0 x.g.gid) f)
  | none, none => none

/-- The slot continues at a clause. -/
def transfer (s0 s : State) (x : Issue) (target : Nat) : Res := (transferStop s0 x target).getD (.jump s target)

/-- As `transfer`, with the slots settled afterwards (R41, R44). -/
def transferSettle (s0 s : State) (x : Issue) (target : Nat) : Res :=
  (transferStop s0 x target).getD (.done (settleSlots (jumpTo s x.g.gid x.b target (x.w.getLsbD 55)) x.g.gid))

/-- SPIN_DETECT (R83): a taken branch to the slot's own clause or one of the three started before it, not above it; the
eighth consecutive such taking with scalars, masks and exec unchanged lowers the slot to the floor. -/
def spinTake (s : State) (x : Issue) (target : Nat) : State :=
  match getG s x.g.gid with
  | none => s
  | some g =>
    let sl := slotOf g x.b
    let near := sl.starts.take 4
    if sl.clause < target ∨ !near.contains target then s
    else
      let regs := (List.range 64).map (rs g)
      let masks := (List.range 7).map (fun k => rm g (k + 1))
      let same := decide (sl.spin.count ≠ 0) && decide (sl.spin.s = regs) && decide (sl.spin.m = masks) && decide (sl.spin.exec = sl.mask)
      let n := if same then sl.spin.count + 1 else 1
      let loop := near.take ((near.findIdx (fun c => c == target)) + 1)
      let sl1 := { sl with spin := { count := n, s := regs, m := masks, exec := sl.mask, lines := [] } }
      putG s (setSlot g x.b (if 8 ≤ n ∧ sl.floor.isNone
        then { sl1 with floor := some (s.time, sl.spin.lines), loop := loop } else sl1))

/-- A taken branch of `br`, `bc`, `bv` or `loop`. -/
def branch (s0 s : State) (x : Issue) (target : Nat) : Res :=
  (transferStop s0 x target).getD (.jump (spinTake s x target) target)

def execBr (w : CWord) (s : State) : Host.Outcome State Fault Refusal :=
  runWord (.br w) 0 false s (fun s x => branch s s x (targetC x w.off))

/-- The conditions of `bc` on a signed scalar (R245). -/
def bcHolds (c : Nat) (v : W64) : Bool :=
  match c with
  | 0 => decide (v.toInt = 0) | 1 => decide (v.toInt ≠ 0) | 2 => decide (v.toInt < 0) | 3 => decide (0 ≤ v.toInt)
  | 4 => decide (v.toInt ≤ 0) | 5 => decide (0 < v.toInt) | 6 => v.getLsbD 0 | _ => !v.getLsbD 0

def execBc (w : CWord) (s : State) : Host.Outcome State Fault Refusal :=
  runWord (.bc w) 0 false s (fun s x =>
    if bcHolds (w.cf.toNat % 8) (rs x.g w.ra.toNat) then branch s s x (targetC x w.off) else .ok s)

/-- The group with its slot's mask changed. -/
def withMask (g : Group) (b : Bool) (m : W64) : Group := setSlot g b { slotOf g b with mask := m }

/-- R43. A slot that `bv` takes again counts its wait from this clock and has started no clause (log entry 94). -/
def execBv (w : CWord) (s : State) : Host.Outcome State Fault Refusal :=
  runWord (.bv w) 0 false s (fun s x =>
    let c := rm x.g (w.cf.toNat % 8)
    let t := x.exec &&& (if w.cf.getLsbD 3 then ~~~c else c)
    let f := x.exec &&& ~~~t
    let target := targetC x w.off
    if f = 0#64 then branch s s x target
    else if t = 0#64 then .ok s
    else match (slotOf x.g (!x.b)).st with
      | .free =>
        match transferStop s x target with
        | some r => r
        | none =>
          let other : Slot := { st := .running, clause := target, mask := t, last := s.time, waitSince := s.time, extSince := s.time }
          .ok (putG s (setSlot (withMask x.g x.b f) (!x.b) other))
      | _ =>
        let sl := x.slot
        if x.g.depthD ≤ sl.depth then .bad s { cls := 9, code := 1, index := sl.depth }
        else
          let s1 := stackPush s x.g x.b 0 x.nextClause f
          transfer s (putG s1 (setSlot x.g x.b { sl with mask := t, depth := sl.depth + 1 })) x target)

/-- R44 cases 3 to 6: nothing on the slot's own stack answers the join. -/
def joinOther (s : State) (x : Issue) (j : Nat) : Res :=
  let sl := x.slot
  let other := slotOf x.g (!x.b)
  match other.st with
  | .free => transfer s s x j
  | .waiting a =>
    if a ≠ j then .bad s { cls := 9, code := 3, addr := j }
    else if other.depth ≠ 0 then .bad s { cls := 9, code := 2, addr := j, index := other.depth }
    else transferSettle s (putG s (setSlot (withMask x.g x.b (sl.mask ||| other.mask)) (!x.b) {})) x j
  | .running => .done (holdGroup (leavePart (putG s (setSlot x.g x.b { sl with st := .waiting j, park := none })) x.g x.b) x.g.gid (x.w.getLsbD 55))

/-- R44. -/
def execJoin (w : CWord) (s : State) : Host.Outcome State Fault Refusal :=
  runWord (.join w) 0 false s (fun s x =>
    let j := targetC x w.off
    let sl := x.slot
    match stackTop s x.g x.b with
    | some (0, p, m) =>
      let s1 := stackPush s (setSlot x.g x.b { sl with depth := sl.depth - 1 }) x.b 1 j sl.mask
      .jump (putG s1 (withMask x.g x.b m)) p
    | some (_, a, m) =>
      if a = j then transfer s (putG s (setSlot x.g x.b { sl with depth := sl.depth - 1, mask := sl.mask ||| m })) x j
      else joinOther s x j
    | none => joinOther s x j)

/-- R249: bits [2:0] before bits [63:57]. -/
def targetBad (t : Nat) : Option FInfo :=
  if t % 8 ≠ 0 then some { cls := 8, code := 1, addr := t }
  else if 2 ^ 57 ≤ t then some { cls := 8, code := 2, addr := t }
  else none

/-- A transfer to a register target (R248, R249). -/
def indirect (s0 s : State) (x : Issue) (t : Nat) : Res :=
  match targetBad t with
  | some f => .bad s0 f
  | none => transfer s0 s x t

def execBx (w : SWord) (s : State) : Host.Outcome State Fault Refusal :=
  runWord (.bx w) 0 false s (fun s x => indirect s s x (rs x.g w.a.toNat).toNat)

/-- The address of the header after the calling word's clause (R248). -/
def linkOf (x : Issue) : W64 := r64 x.nextClause

def execCall (w : CWord) (s : State) : Host.Outcome State Fault Refusal :=
  runWord (.call w) 0 false s (fun s x => transfer s (putG s (ws x.g w.ra.toNat (linkOf x))) x (targetC x w.off))
def execCallx (w : SWord) (s : State) : Host.Outcome State Fault Refusal :=
  runWord (.callx w) 0 false s (fun s x =>
    indirect s (putG s (ws x.g w.d.toNat (linkOf x))) x (rs x.g w.a.toNat).toNat)
def execRet (w : SWord) (s : State) : Host.Outcome State Fault Refusal :=
  runWord (.ret w) 0 false s (fun s x => indirect s s x (rs x.g w.a.toNat).toNat)

/-- R246. -/
def execLoop (w : CWord) (s : State) : Host.Outcome State Fault Refusal :=
  runWord (.loop w) 0 false s (fun s x =>
    let n := rs x.g w.cf.toNat - 1#64
    let s1 := putG s (ws x.g w.cf.toNat n)
    if n ≠ 0#64 then branch s s1 x (targetC x w.off) else .ok s1)

/-- R251: the table is read through the instruction cache. -/
def execBt (w : CWord) (s : State) : Host.Outcome State Fault Refusal :=
  runWord (.bt w) 0 false s (fun s x =>
    let i := (rs x.g w.ra.toNat).toNat
    if w.cf.toNat < i then .ok s
    else
      let a := (targetC x w.off + 8 * i) % 2 ^ 64
      match transferStop s x a, codeBad s x.g a 8 with
      | some r, _ => r
      | none, some (p, c) => .bad s { cls := 0x19, code := c, addr := p }
      | none, none =>
        let s1 := iFill s x.g a 8
        match iWord s1 x.g a with
        | none => .park s (.read ((codeAt s x.g a).map Prod.fst).toList true)
        | some q =>
          let t := q.toNat
          match targetBad t with
          | some _ => .bad s { cls := 8, code := 3, addr := t, index := i }
          | none => transfer s1 s1 x t)

/-- R253: the next clause waits for another candidate's clause start. -/
def execYield (w : SWord) (s : State) : Host.Outcome State Fault Refusal :=
  runWord (.yield w) 0 false s (fun s x =>
    .done (holdGroup (leavePart (putG s (setSlot x.g x.b { atClause x.slot x.nextClause with park := some .yield })) x.g x.b) x.g.gid
      (x.w.getLsbD 55)))

/-- R254. The park's cause is what the word writes once the slot has woken. -/
def execNap (w : SWord) (s : State) : Host.Outcome State Fault Refusal :=
  runWord (.nap w) 0 false s (fun s x =>
    let a := (rs x.g w.a.toNat).toNat
    let b := (rs x.g (numB w)).toNat
    let fin (c : Nat) : Res := okG (clearWalks s x.g.gid) (ws (walkDone x.g x.b) w.d.toNat (r64 c))
    match x.slot.park with
    | some (.nap d l c) =>
      if c ≠ 0 then fin c
      else match d with
        | some t => if t ≤ s.time then fin 1 else .park s (.nap d l 0)
        | none => .park s (.nap d l 0)
    | _ =>
      if a = 0 ∧ b = 0 then fin 0
      else
        let dl := if a = 0 then none else some (s.time + min a 1000000000)
        if b = 0 then .park s (.nap dl none 0)
        else match laneCheck s x.g 0 b 1 1 1 false 1 with
          | .bad f => .bad (clearWalks s x.g.gid) { f with lane := none }
          | .miss p => .park (startWalk s x.g p) (.walk p)
          | .ok l => .park (clearWalks s x.g.gid) (.nap dl (some (l.pas.headD 0 / 128)) 0))

/-- The virtual 128-byte lines of a prefetch word (R260). -/
def ipLines (x : Issue) (w : CWord) : List Nat :=
  (List.range (w.cf.toNat + 1)).map (fun i => targetC x w.off / 128 + i)

/-- The page of a prefetch word's lines that must be walked first. -/
def ipMiss (s : State) (x : Issue) (w : CWord) : Option Nat := (ipLines x w).findSome? (fun k => fetchMiss s x.g x.b (k * 128))

/-- A hint: a line that cannot be translated, or that is in error, is skipped (R260). -/
def execIpf (w : CWord) (s : State) : Host.Outcome State Fault Refusal :=
  runWord (.ipf w) 0 false s (fun s x =>
    match ipMiss s x w with
    | some p => .park (startWalk s x.g p) (.walk p)
    | none =>
      let good := (ipLines x w).filter (fun k => (codeBad s x.g (k * 128) 1).isNone)
      .ok (clearWalks (good.foldl (fun s k => iFill s x.g (k * 128) 1) s) x.g.gid))

/-- Lines a core has pinned (R260). -/
def pinned (s : State) (core : Nat) : Nat := (s.icache.filter (fun l => l.core == core && l.expiry.isNone)).length

def execIpin (w : CWord) (s : State) : Host.Outcome State Fault Refusal :=
  runWord (.ipin w) 0 false s (fun s x =>
    match ipMiss s x w, (ipLines x w).findSome? (fun k => fetchFault s x.g x.b (k * 128)),
        (ipLines x w).findSome? (fun k => codeBad s x.g (k * 128) 1) with
    | some p, _, _ => .park (startWalk s x.g p) (.walk p)
    | none, some f, _ => .bad (clearWalks s x.g.gid) f
    | none, none, some (p, c) => .bad s { cls := 0x19, code := c, addr := p }
    | none, none, none =>
      let lines := (ipLines x w).filterMap (fun k => codeAt s x.g (k * 128))
      if lines.any (fun l => (pinOf s x.g.core (l.1 / 128)).isNone && !isCxl l.1 && !homeReady s l.1) then .park s (.read (lines.map Prod.fst) true)
      else .ok (clearWalks (lines.foldl (fun s l =>
        let line := l.1 / 128
        if (pinOf s x.g.core line).isSome || isCxl (line * 128) then s
        else iInstall s x.g.core line l.2 (if pinned s x.g.core < 512 then some x.g.ctx else none)) s) x.g.gid))

/-- An unpinned line's unbounded lease ends now, so its next use fetches it again (R260). -/
def execIunpin (w : CWord) (s : State) : Host.Outcome State Fault Refusal :=
  runWord (.iunpin w) 0 false s (fun s x =>
    match ipMiss s x w with
    | some p => .park (startWalk s x.g p) (.walk p)
    | none =>
    let lines := (ipLines x w).filterMap (fun k => (codeAt s x.g (k * 128)).map (fun l => l.1 / 128))
    let unpin (l : ILine) : ILine :=
      if l.core == x.g.core && lines.contains l.line && l.expiry.isNone && l.pinCtx == x.g.ctx
      then { l with expiry := some s.time, pinCtx := 0 } else l
    .ok (clearWalks { s with icache := s.icache.map unpin } x.g.gid))

end Sys2Proof.Machine
end

