-- ==== Sys2Proof/Machine/Scalar.lean ====
section
/-! DEFINITION. The scalar words (R236 to R243). -/

namespace Sys2Proof.Machine

/-- Signed or unsigned reading of a 64-bit value: u = f7[0] (R237). -/
def readU (u : Bool) (v : W64) : Int := if u then (v.toNat : Int) else v.toInt

/-- s.div's quotient (R239). -/
def divS (u : Bool) (a b : W64) : W64 :=
  if b = 0#64 then BitVec.allOnes 64
  else if u then a / b else i64 (a.toInt.tdiv b.toInt)

/-- s.rem's remainder (R239). -/
def remS (u : Bool) (a b : W64) : W64 :=
  if b = 0#64 then a
  else if u then a % b else i64 (a.toInt.tmod b.toInt)

/-- The conditions of `s.cmp` and `v.cmp` (R237, R276). -/
def condHolds (c : Nat) (a b : Int) : Bool :=
  match c with
  | 0 => decide (a = b) | 1 => decide (a ≠ b) | 2 => decide (a < b) | 3 => decide (a ≤ b) | 4 => decide (b < a)
  | 5 => decide (b ≤ a) | _ => false

/-- s.bfx (R240). -/
def bfxS (u : Bool) (a : W64) (imm : Nat) : W64 :=
  let pos := fld imm 0 6
  let wd := fld imm 6 6 + 1
  let x := fld a.toNat pos wd
  if u then r64 x else r64 (sx64 wd x)

/-- s.bfi (R240). -/
def bfiS (a b : W64) (imm : Nat) : W64 := r64 (setFld a.toNat (fld imm 0 6) (fld imm 6 6 + 1) b.toNat)

/-- What special register `code` holds for the slot that reads it (R27, R235, R242). -/
def specialReg (s : State) (x : Issue) (code : Nat) : W64 :=
  let low := lowBit 64 x.exec.toNat
  match code with
  | 0 => r64 low
  | 1 => r64 (low % 8)
  | 2 => r64 x.g.num
  | 3 => r64 (if x.g.task then 0xFFFFFFFF else x.g.tidx)
  | 4 => r64 (if x.g.task then 0xFFFFFFFF else x.g.cluster)
  | 5 => r64 x.g.grid
  | 6 => r64 x.g.core
  | 7 => r64 s.time
  | 8 => r64 x.g.wct
  | 9 => x.g.pass
  | 10 => r64 (if x.b then 1 else 0)
  | _ => 0#64

/-- A scalar word writes one function of its sources to d, once, whatever its mask select (R33, R236). -/
def scalarWord (i : Instr) (w : SWord) (s : State) (f : Issue → W64 → W64 → W64) : Host.Outcome State Fault Refusal :=
  runWord i 0 false s (fun s x => okG s (ws x.g w.d.toNat (f x (rs x.g w.a.toNat) (srcB x.g w))))

def execSAdd (w : SWord) (s : State) : Host.Outcome State Fault Refusal := scalarWord (.sAdd w) w s (fun _ a b => a + b)
def execSSub (w : SWord) (s : State) : Host.Outcome State Fault Refusal := scalarWord (.sSub w) w s (fun _ a b => a - b)
def execSMul (w : SWord) (s : State) : Host.Outcome State Fault Refusal := scalarWord (.sMul w) w s (fun _ a b => a * b)
/-- Bits [127:64] of the exact product. -/
def execSMulh (w : SWord) (s : State) : Host.Outcome State Fault Refusal :=
  scalarWord (.sMulh w) w s (fun _ a b => i64 ((readU (w.f7.getLsbD 0) a * readU (w.f7.getLsbD 0) b) / 2 ^ 64))
def execSDiv (w : SWord) (s : State) : Host.Outcome State Fault Refusal :=
  scalarWord (.sDiv w) w s (fun _ a b => divS (w.f7.getLsbD 0) a b)
def execSRem (w : SWord) (s : State) : Host.Outcome State Fault Refusal :=
  scalarWord (.sRem w) w s (fun _ a b => remS (w.f7.getLsbD 0) a b)
def execSAnd (w : SWord) (s : State) : Host.Outcome State Fault Refusal := scalarWord (.sAnd w) w s (fun _ a b => a &&& b)
def execSOr (w : SWord) (s : State) : Host.Outcome State Fault Refusal := scalarWord (.sOr w) w s (fun _ a b => a ||| b)
def execSXor (w : SWord) (s : State) : Host.Outcome State Fault Refusal := scalarWord (.sXor w) w s (fun _ a b => a ^^^ b)
def execSAndn (w : SWord) (s : State) : Host.Outcome State Fault Refusal :=
  scalarWord (.sAndn w) w s (fun _ a b => a &&& ~~~b)
def execSShl (w : SWord) (s : State) : Host.Outcome State Fault Refusal :=
  scalarWord (.sShl w) w s (fun _ a b => a <<< (b.toNat % 64))
def execSShr (w : SWord) (s : State) : Host.Outcome State Fault Refusal :=
  scalarWord (.sShr w) w s (fun _ a b => a >>> (b.toNat % 64))
def execSSar (w : SWord) (s : State) : Host.Outcome State Fault Refusal :=
  scalarWord (.sSar w) w s (fun _ a b => a.sshiftRight (b.toNat % 64))
def execSMin (w : SWord) (s : State) : Host.Outcome State Fault Refusal :=
  scalarWord (.sMin w) w s (fun _ a b => if readU (w.f7.getLsbD 0) a ≤ readU (w.f7.getLsbD 0) b then a else b)
def execSMax (w : SWord) (s : State) : Host.Outcome State Fault Refusal :=
  scalarWord (.sMax w) w s (fun _ a b => if readU (w.f7.getLsbD 0) a ≤ readU (w.f7.getLsbD 0) b then b else a)
def execSClz (w : SWord) (s : State) : Host.Outcome State Fault Refusal :=
  scalarWord (.sClz w) w s (fun _ a _ => r64 (clz 64 a.toNat))
def execSPopc (w : SWord) (s : State) : Host.Outcome State Fault Refusal :=
  scalarWord (.sPopc w) w s (fun _ a _ => r64 (popc 64 a.toNat))
def execSBfx (w : SWord) (s : State) : Host.Outcome State Fault Refusal :=
  scalarWord (.sBfx w) w s (fun _ a _ => bfxS (w.f7.getLsbD 0) a (imm20 w))
def execSBfi (w : SWord) (s : State) : Host.Outcome State Fault Refusal :=
  scalarWord (.sBfi w) w s (fun _ a b => bfiS a b (imm20 w))
def execSSxt (w : SWord) (s : State) : Host.Outcome State Fault Refusal :=
  scalarWord (.sSxt w) w s (fun _ a _ => r64 (sx64 (fld (imm20 w) 0 6 + 1) a.toNat))
def execSZxt (w : SWord) (s : State) : Host.Outcome State Fault Refusal :=
  scalarWord (.sZxt w) w s (fun _ a _ => r64 (fld a.toNat 0 (fld (imm20 w) 0 6 + 1)))
def execSCmp (w : SWord) (s : State) : Host.Outcome State Fault Refusal :=
  scalarWord (.sCmp w) w s (fun _ a b =>
    if condHolds (w.f7.toNat % 8) (readU (w.f7.getLsbD 3) a) (readU (w.f7.getLsbD 3) b) then 1#64 else 0#64)
def execSSel (w : SWord) (s : State) : Host.Outcome State Fault Refusal :=
  scalarWord (.sSel w) w s (fun x a b => if srcC x.g w ≠ 0#64 then a else b)
def execSMov (w : SWord) (s : State) : Host.Outcome State Fault Refusal := scalarWord (.sMov w) w s (fun _ a _ => a)
def execSLi (w : SWord) (s : State) : Host.Outcome State Fault Refusal := scalarWord (.sLi w) w s (fun _ _ b => b)
/-- (A and 0xFFFF_FFFF) or (imm32 shl 32). -/
def execSLih (w : SWord) (s : State) : Host.Outcome State Fault Refusal :=
  scalarWord (.sLih w) w s (fun _ a b => (a &&& 0xFFFFFFFF#64) ||| (b <<< 32))
/-- R241: the register form adds base, shifted index and imm20; the immediate form adds A and the immediate. -/
def execSLea (w : SWord) (s : State) : Host.Outcome State Fault Refusal :=
  scalarWord (.sLea w) w s (fun x a b =>
    match w.src with
    | .imm _ => a + b
    | .reg _ _ imm => (if w.f7.getLsbD 6 then r64 x.hdrAddr else a) + (b <<< (w.f7.toNat % 4)) + imm.signExtend 64)
def execSSr (w : SWord) (s : State) : Host.Outcome State Fault Refusal :=
  runWord (.sSr w) 0 false s (fun s x => okG s (ws x.g w.d.toNat (specialReg s x (imm20 w))))

end Sys2Proof.Machine
end

