-- ==== Sys2Proof/Machine/VInt.lean ====
section
/-! DEFINITION. The vector integer and logic words (R271 to R279) and the pair halves of the same operations (R229, R230). -/

namespace Sys2Proof.Machine

/-! Blocks of results. -/

/-- Results for every register of the destination block and every active lane, as (register, lane, value). -/
def mapBlock (x : Issue) (w : VWord) (f : Nat → Nat → Nat → W64) : List (Nat × Nat × W64) :=
  (blockCells (rowsV w) (colsV w)).flatMap (fun c =>
    (lanesOf x.active).map (fun l => (w.d.toNat + 16 * c.1 + c.2, l, f c.1 c.2 l)))

/-- The column pair a fragment reads (R219). -/
def fragPair (w : VWord) : Nat := w.c.toNat % 32

/-- The tiles and parisons a matrix operation in flight writes, and those it touches (R334). -/
def locWrites (o : Op) : List Nat :=
  match o with
  | .pass p _ => [p.tile]
  | .tileXfer false t _ _ _ => [t]
  | .tileSet l _ => l.map Prod.fst
  | _ => []
def locTouches (o : Op) : List Nat :=
  match o with
  | .tileXfer _ t _ _ _ => [t]
  | .tileSet l _ => l.flatMap (fun p => p.1 :: p.2.toList)
  | o => locWrites o

/-- Does a matrix word of the group issued before a serial number remain to write one of these places (none: any)? -/
def tileBusy (s : State) (gid : Nat) (locs : Option (List Nat)) (before : Nat) : Bool :=
  s.pend.any (fun f => f.gid == gid && decide (f.id < before) && (match locs with
    | some l => (locWrites f.op).any (fun k => l.contains k)
    | none => !(locWrites f.op).isEmpty))

/-- The serial number before which a word waits for tiles: where it stood when it first parked. -/
def tileMark (s : State) (x : Issue) : Nat := match x.slot.park with | some (.tile _ b) => b | _ => s.nextId

/-- The kept fault of a matrix word on these places (R447), and the group without it. -/
def tileDue (g : Group) (locs : Option (List Nat)) : Option (FInfo × Group) :=
  let hit (d : Due) : Bool := d.cls == .tiles && (match locs, d.tile with
    | some l, some t => l.contains t | some _, none => false | none, _ => true)
  match g.due.find? hit with
  | some d => some (d.info, { g with due := replaceFirst hit (fun d => { d with cls := .none }) g.due |>.filter (fun d => d.cls != .none) })
  | none => none

/-- Wait for tiles: the kept fault that the waiting word raises once they are written, or `wait` before that. -/
def waitTiles (s : State) (x : Issue) (locs : Option (List Nat)) (wait : Nat → Res) : Option Res :=
  let m := tileMark s x
  if tileBusy s x.g.gid locs m then some (wait m)
  else (tileDue x.g locs).map (fun r => .bad (putG s r.2) r.1)

/-- A word whose sources hold fragments takes the matrix-operand fate when a tile is at or beyond the group's (R332; the record names
the last tile), and holds the issue slot for the tiles it reads: its slot stays where it is, and the partition issues no other word
(R79, R334). -/
def tileHold (s : State) (x : Issue) (w : VWord) (useA useB : Bool) : Option Res :=
  match fragTiles w useA useB with
  | [] => none
  | l =>
    let last := l.foldl max 0
    if x.g.accN ≤ last then some (.bad s { cls := 0x12, code := 1, index := last })
    else waitTiles s x (some (l.map (tileLoc x.g))) (fun _ => .done s)

/-- A vector word: sources are read before any destination is written (R40), inactive lanes are unchanged (R33). -/
def vecWord (i : Instr) (w : VWord) (s : State) (useB useC : Bool) (f : W64 → W64 → W64 → W64) :
    Host.Outcome State Fault Refusal :=
  runWord i w.msel.toNat false s (fun s x =>
    match tileHold s x w true useB with
    | some r => r
    | none =>
      let rd (c : BitVec 9) (i j l : Nat) : W64 := readSrc x.g c.toNat (fragPair w) i j l
      okG s (wvs x.g (mapBlock x w (fun i j l =>
        f (rd w.a i j l) (if useB then rd w.b i j l else 0#64) (if useC then rd w.c i j l else 0#64)))))

/-! Elements. -/

/-- Apply a function of one, two or three sub-elements at each position (R28, R29). -/
def each1 (w : Nat) (f : Nat → Nat) (a : W64) : W64 := pack w ((List.range (64 / w)).map (fun k => f (elem w k a)))
def each2 (w : Nat) (f : Nat → Nat → Nat) (a b : W64) : W64 :=
  pack w ((List.range (64 / w)).map (fun k => f (elem w k a) (elem w k b)))
def each3 (w : Nat) (f : Nat → Nat → Nat → Nat) (a b c : W64) : W64 :=
  pack w ((List.range (64 / w)).map (fun k => f (elem w k a) (elem w k b) (elem w k c)))

/-- A sub-element as the type reads it (R274). -/
def readT (t e : Nat) : Int := if tySigned t then toS (tyWidth t) e else (e : Int)

/-- The least and greatest values of a type (R195). -/
def loT (t : Nat) : Int := if tySigned t then -(2 ^ (tyWidth t - 1) : Nat) else 0
def hiT (t : Nat) : Int := if tySigned t then (2 ^ (tyWidth t - 1) : Nat) - 1 else (2 ^ tyWidth t : Nat) - 1

/-- Reduce modulo 2^w, or clamp to the type's range with .sat (R195). -/
def writeT (t : Nat) (sat : Bool) (v : Int) : Nat := wrap (tyWidth t) (if sat then clampI (loT t) (hiT t) v else v)

/-- The integer operations on two sub-elements. -/
def addE (t : Nat) (sat : Bool) (a b : Nat) : Nat := writeT t sat (readT t a + readT t b)
def subE (t : Nat) (sat : Bool) (a b : Nat) : Nat := writeT t sat (readT t a - readT t b)
def mulE (t : Nat) (sat : Bool) (a b : Nat) : Nat := writeT t sat (readT t a * readT t b)
def mulhE (t : Nat) (a b : Nat) : Nat := wrap (tyWidth t) (readT t a * readT t b / (2 ^ tyWidth t : Nat))
def madE (t : Nat) (sat : Bool) (a b c : Nat) : Nat := writeT t sat (readT t a * readT t b + readT t c)
def absdE (t : Nat) (a b : Nat) : Nat := (readT t a - readT t b).natAbs % 2 ^ tyWidth t
def minE (t : Nat) (a b : Nat) : Nat := if readT t a ≤ readT t b then a else b
def maxE (t : Nat) (a b : Nat) : Nat := if readT t a ≤ readT t b then b else a
/-- Shifts; a count of w or more gives zero, or copies of the sign bit (R275). -/
def shlE (w a n : Nat) : Nat := if w ≤ n then 0 else (a <<< n) % 2 ^ w
def shrE (w a n : Nat) : Nat := if w ≤ n then 0 else a >>> n
def sarE (w a n : Nat) : Nat := wrap w (toS w a / (2 ^ (min n w) : Nat))
def bfxE (t pos wd a : Nat) : Nat := if tySigned t then wrap (tyWidth t) (toS wd (fld a pos wd)) else fld a pos wd
def ones (w : Nat) : Nat := 2 ^ w - 1

def tyV (w : VWord) : Nat := w.ty.toNat
def widV (w : VWord) : Nat := tyWidth w.ty.toNat
def sat0 (w : VWord) : Bool := w.fn.getLsbD 0

def execVAdd (w : VWord) (s : State) : Host.Outcome State Fault Refusal :=
  vecWord (.vAdd w) w s true false (fun a b _ => each2 (widV w) (addE (tyV w) (sat0 w)) a b)
def execVSub (w : VWord) (s : State) : Host.Outcome State Fault Refusal :=
  vecWord (.vSub w) w s true false (fun a b _ => each2 (widV w) (subE (tyV w) (sat0 w)) a b)
def execVMul (w : VWord) (s : State) : Host.Outcome State Fault Refusal :=
  vecWord (.vMul w) w s true false (fun a b _ => each2 (widV w) (mulE (tyV w) (sat0 w)) a b)
def execVMulh (w : VWord) (s : State) : Host.Outcome State Fault Refusal :=
  vecWord (.vMulh w) w s true false (fun a b _ => each2 (widV w) (mulhE (tyV w)) a b)
def execVMad (w : VWord) (s : State) : Host.Outcome State Fault Refusal :=
  vecWord (.vMad w) w s true true (fun a b c => each3 (widV w) (madE (tyV w) (sat0 w)) a b c)
def execVAbsd (w : VWord) (s : State) : Host.Outcome State Fault Refusal :=
  vecWord (.vAbsd w) w s true false (fun a b _ => each2 (widV w) (absdE (tyV w)) a b)
def execVMin (w : VWord) (s : State) : Host.Outcome State Fault Refusal :=
  vecWord (.vMin w) w s true false (fun a b _ => each2 (widV w) (minE (tyV w)) a b)
def execVMax (w : VWord) (s : State) : Host.Outcome State Fault Refusal :=
  vecWord (.vMax w) w s true false (fun a b _ => each2 (widV w) (maxE (tyV w)) a b)
def execVAnd (w : VWord) (s : State) : Host.Outcome State Fault Refusal :=
  vecWord (.vAnd w) w s true false (fun a b _ => a &&& b)
def execVOr (w : VWord) (s : State) : Host.Outcome State Fault Refusal :=
  vecWord (.vOr w) w s true false (fun a b _ => a ||| b)
def execVXor (w : VWord) (s : State) : Host.Outcome State Fault Refusal :=
  vecWord (.vXor w) w s true false (fun a b _ => a ^^^ b)
def execVAndn (w : VWord) (s : State) : Host.Outcome State Fault Refusal :=
  vecWord (.vAndn w) w s true false (fun a b _ => a &&& ~~~b)

/-- A shift word: the count is sub-element B, or c[17:12] with fn[0] = 1 (R275). -/
def shiftWord (i : Instr) (w : VWord) (s : State) (f : Nat → Nat → Nat → Nat) : Host.Outcome State Fault Refusal :=
  if sat0 w then vecWord i w s false false (fun a _ _ => each1 (widV w) (fun e => f (widV w) e (w.c.toNat % 64)) a)
  else vecWord i w s true false (fun a b _ => each2 (widV w) (fun e n => f (widV w) e n) a b)

def execVShl (w : VWord) (s : State) : Host.Outcome State Fault Refusal := shiftWord (.vShl w) w s shlE
def execVShr (w : VWord) (s : State) : Host.Outcome State Fault Refusal := shiftWord (.vShr w) w s shrE
def execVSar (w : VWord) (s : State) : Host.Outcome State Fault Refusal := shiftWord (.vSar w) w s sarE
def execVClz (w : VWord) (s : State) : Host.Outcome State Fault Refusal :=
  vecWord (.vClz w) w s false false (fun a _ _ => each1 (widV w) (clz (widV w)) a)
def execVPopc (w : VWord) (s : State) : Host.Outcome State Fault Refusal :=
  vecWord (.vPopc w) w s false false (fun a _ _ => each1 (widV w) (popc (widV w)) a)
/-- pos from c[17:12], width - 1 from fn[5:0] (R277). -/
def execVBfx (w : VWord) (s : State) : Host.Outcome State Fault Refusal :=
  vecWord (.vBfx w) w s false false (fun a _ _ =>
    each1 (widV w) (bfxE (tyV w) (w.c.toNat % 64) (w.fn.toNat % 64 + 1)) a)
def execVBfi (w : VWord) (s : State) : Host.Outcome State Fault Refusal :=
  vecWord (.vBfi w) w s true false (fun a b _ =>
    each2 (widV w) (fun x y => setFld x (w.c.toNat % 64) (w.fn.toNat % 64 + 1) y) a b)
def execVSel (w : VWord) (s : State) : Host.Outcome State Fault Refusal :=
  vecWord (.vSel w) w s true true (fun a b c => each3 (widV w) (fun x y z => if z ≠ 0 then x else y) a b c)
def execVCmp (w : VWord) (s : State) : Host.Outcome State Fault Refusal :=
  vecWord (.vCmp w) w s true false (fun a b _ => each2 (widV w) (fun x y =>
    if condHolds (w.fn.toNat % 8) (readT (tyV w) x) (readT (tyV w) y) then ones (widV w) else 0) a b)
def execVMov (w : VWord) (s : State) : Host.Outcome State Fault Refusal :=
  vecWord (.vMov w) w s false false (fun a _ _ => a)

/-- The signed 18-bit immediate of b and c in every sub-element (R278). -/
def execVLi (w : VWord) (s : State) : Host.Outcome State Fault Refusal :=
  runWord (.vLi w) w.msel.toNat false s (fun s x =>
    let v := wrap (widV w) (toS 18 (w.b.toNat * 512 + w.c.toNat))
    okG s (wvs x.g (mapBlock x w (fun _ _ _ => pack (widV w) (List.replicate (64 / widV w) v)))))

/-- The element index: a scalar read as unsigned, or c (R279, R295). -/
def elemIndex (g : Group) (w : VWord) : Nat :=
  if sat0 w then w.c.toNat else (rs g (w.b.toNat - 352)).toNat

/-- R279: the element's lane must be in exec. -/
def execVFroms (w : VWord) (s : State) : Host.Outcome State Fault Refusal :=
  runWord (.vFroms w) 0 false s (fun s x =>
    let p := 64 / widV w
    let e := elemIndex x.g w
    if e / p < 64 ∧ x.exec.getLsbD (e / p) then
      okG s (wv x.g w.d.toNat (e / p)
        (setElem (widV w) (e % p) (rs x.g (w.a.toNat - 352)).toNat (rv x.g w.d.toNat (e / p))))
    else .ok s)

/-- A scalar from an element: sign-extended for .iN, zero-extended otherwise. -/
def extend (t e : Nat) : W64 := if tySigned t then r64 (sx64 (tyWidth t) e) else r64 e

/-- R279: an element beyond the group gives 0; its lane need not be active. -/
def execVTos (w : VWord) (s : State) : Host.Outcome State Fault Refusal :=
  runWord (.vTos w) 0 false s (fun s x =>
    match tileHold s x w true false with
    | some r => r
    | none =>
      let p := 64 / widV w
      let e := elemIndex x.g w
      let v := if e / p < x.g.width
        then extend (tyV w) (elem (widV w) (e % p) (readSrc x.g w.a.toNat (fragPair w) 0 0 (e / p))) else 0#64
      okG s (ws x.g (w.d.toNat - 352) v))

/-! The integer and logic pair halves (R230): extent 1 x 1, exec the only mask. -/

/-- Run a half that maps registers a and b to d in the lanes of exec. -/
def intHalf (h : Half) (s : State) (f : Nat → W64 → W64 → W64) : Host.Outcome State Fault Refusal :=
  runHalf s (fun s x =>
    let t := (ctypeCode h.ctype.toNat).getD 0
    okG s (wvs x.g ((lanesOf x.exec).map (fun l =>
      (h.d.toNat, l, f t (rv x.g h.a.toNat l) (rv x.g h.b.toNat l))))))

def execPairVAdd (h : Half) (s : State) : Host.Outcome State Fault Refusal :=
  intHalf h s (fun t a b => each2 (tyWidth t) (addE t false) a b)
def execPairVSub (h : Half) (s : State) : Host.Outcome State Fault Refusal :=
  intHalf h s (fun t a b => each2 (tyWidth t) (subE t false) a b)
def execPairVMul (h : Half) (s : State) : Host.Outcome State Fault Refusal :=
  intHalf h s (fun t a b => each2 (tyWidth t) (mulE t false) a b)
def execPairVMulh (h : Half) (s : State) : Host.Outcome State Fault Refusal :=
  intHalf h s (fun t a b => each2 (tyWidth t) (mulhE t) a b)
def execPairVAbsd (h : Half) (s : State) : Host.Outcome State Fault Refusal :=
  intHalf h s (fun t a b => each2 (tyWidth t) (absdE t) a b)
def execPairVMin (h : Half) (s : State) : Host.Outcome State Fault Refusal :=
  intHalf h s (fun t a b => each2 (tyWidth t) (minE t) a b)
def execPairVMax (h : Half) (s : State) : Host.Outcome State Fault Refusal :=
  intHalf h s (fun t a b => each2 (tyWidth t) (maxE t) a b)
def execPairVAnd (h : Half) (s : State) : Host.Outcome State Fault Refusal := intHalf h s (fun _ a b => a &&& b)
def execPairVOr (h : Half) (s : State) : Host.Outcome State Fault Refusal := intHalf h s (fun _ a b => a ||| b)
def execPairVXor (h : Half) (s : State) : Host.Outcome State Fault Refusal := intHalf h s (fun _ a b => a ^^^ b)
def execPairVAndn (h : Half) (s : State) : Host.Outcome State Fault Refusal := intHalf h s (fun _ a b => a &&& ~~~b)
def execPairVShl (h : Half) (s : State) : Host.Outcome State Fault Refusal :=
  intHalf h s (fun t a b => each2 (tyWidth t) (shlE (tyWidth t)) a b)
def execPairVShr (h : Half) (s : State) : Host.Outcome State Fault Refusal :=
  intHalf h s (fun t a b => each2 (tyWidth t) (shrE (tyWidth t)) a b)
def execPairVSar (h : Half) (s : State) : Host.Outcome State Fault Refusal :=
  intHalf h s (fun t a b => each2 (tyWidth t) (sarE (tyWidth t)) a b)
def execPairVMov (h : Half) (s : State) : Host.Outcome State Fault Refusal := intHalf h s (fun _ a _ => a)
def execPairVClz (h : Half) (s : State) : Host.Outcome State Fault Refusal :=
  intHalf h s (fun t a _ => each1 (tyWidth t) (clz (tyWidth t)) a)
def execPairVPopc (h : Half) (s : State) : Host.Outcome State Fault Refusal :=
  intHalf h s (fun t a _ => each1 (tyWidth t) (popc (tyWidth t)) a)

end Sys2Proof.Machine
end

