-- ==== Sys2Proof/Machine/Atomic.lean ====
section
/-! DEFINITION. The atomic words (R306 to R310). A word checks its lanes, waits as a release where asked, drains the
write-combining buffer and sends one operation for each line; HOME_ATOMIC_PERFORM performs it (R127, R141). -/

namespace Sys2Proof.Machine

/-- Bytes per lane of an atomic word. -/
def widthA (w : VWord) : Nat := if w.ty.toNat = 21 then 16 else widV w / 8

/-- A lane's operand: a vector register, a scalar for every lane, or a register pair of .b128 (R307). -/
def atOperand (g : Group) (code lane z : Nat) : Nat :=
  if isSca code then (rs g (code - 352)).toNat % 2 ^ (8 * z)
  else if z = 16 then (rv g code lane).toNat + (rv g (code + 1) lane).toNat * 2 ^ 64
  else (rv g code lane).toNat % 2 ^ (8 * z)

def atOrder (w : VWord) : Nat := fld w.fn.toNat 5 2
def atScope (w : VWord) : Scope := (scopeOf (fld w.fn.toNat 2 3)).getD .dv

/-- Run an atomic word. -/
def atomicWord (i : Instr) (w : VWord) (s : State) (op : AtOp) (useC : Bool) : Host.Outcome State Fault Refusal :=
  runWord i w.msel.toNat true s (fun s x =>
    let z := widthA w
    let res := checkLanes s x ((lanesOf x.active).map (fun l => (l, (rv x.g w.a.toNat l).toNat))) z 3 4 true 2
    match missPage res with
    | some p => .park (startWalk s x.g p) (.walk p)
    | none =>
      let rel := decide (2 ≤ atOrder w)
      let acq := decide (atOrder w % 2 = 1)
      match (if rel then releaseWait s x.g (atScope w) else none) with
      | some (s1, p) => .park s1 p
      | none =>
        let good := goodLanes res
        let lanes := good.map (fun l =>
          (l, atOperand x.g w.b.toNat l.lane z, if useC then atOperand x.g w.c.toNat l.lane z else 0))
        let s1 := drainWcb s x.g.gid
        let keys := (lanes.map (fun l => l.1.pas.headD 0 / 128)).eraseDups
        let word := s1.nextId
        let s2 := keys.foldl (fun s k =>
          launchPart s word x.g.gid x.g.ctx x.g.core .stcomp
            (.atomic op (tySigned w.ty.toNat) (lanes.filter (fun l => l.1.pas.headD 0 / 128 == k)) w.d.toNat acq rel (atScope w))) s1
        finishLanes (noteLines s2 x.g.gid x.b (good.flatMap (fun l => l.pas.map (fun p => p / 128)))) x (good.map (fun a => a.lane)) (badLanes res))

def execAtAdd (w : VWord) (s : State) : Host.Outcome State Fault Refusal := atomicWord (.atAdd w) w s .add false
def execAtSub (w : VWord) (s : State) : Host.Outcome State Fault Refusal := atomicWord (.atSub w) w s .sub false
def execAtMin (w : VWord) (s : State) : Host.Outcome State Fault Refusal := atomicWord (.atMin w) w s .min false
def execAtMax (w : VWord) (s : State) : Host.Outcome State Fault Refusal := atomicWord (.atMax w) w s .max false
def execAtAnd (w : VWord) (s : State) : Host.Outcome State Fault Refusal := atomicWord (.atAnd w) w s .and false
def execAtOr (w : VWord) (s : State) : Host.Outcome State Fault Refusal := atomicWord (.atOr w) w s .or false
def execAtXor (w : VWord) (s : State) : Host.Outcome State Fault Refusal := atomicWord (.atXor w) w s .xor false
def execAtXchg (w : VWord) (s : State) : Host.Outcome State Fault Refusal := atomicWord (.atXchg w) w s .xchg false
def execAtCas (w : VWord) (s : State) : Host.Outcome State Fault Refusal := atomicWord (.atCas w) w s .cas true
def execAtCas2 (w : VWord) (s : State) : Host.Outcome State Fault Refusal := atomicWord (.atCas2 w) w s .cas true
def execAtFadd (w : VWord) (s : State) : Host.Outcome State Fault Refusal := atomicWord (.atFadd w) w s .fadd false

/-- What an atomic writes to a location of z bytes that holds m: none when it writes nothing (R306, R310). -/
def atResult (op : AtOp) (signed : Bool) (z m b c : Nat) : Option Nat :=
  let w := 8 * z
  let rd (x : Nat) : Int := if signed then toS w x else (x : Int)
  match op with
  | .add => some ((m + b) % 2 ^ w)
  | .sub => some (wrap w ((m : Int) - b))
  | .min => some (if rd m ≤ rd b then m else b)
  | .max => some (if rd m ≤ rd b then b else m)
  | .and => some (m &&& b)
  | .or => some (m ||| b)
  | .xor => some (m ^^^ b)
  | .xchg => some b
  | .cas => if m = b then some c else none
  | .fadd => some (addF32 m b)

/-! The event HOME_ATOMIC_PERFORM. -/

/-- Bytes as the core's atomic unit sees them: the home's, overlaid with the unit's own writes that are still on their way, in the order
the unit made them (R141). -/
def unitBytes (s : State) (core : Nat) (pas : List Nat) : List Byte :=
  let lies := s.pend.flatMap (fun f => match f.op with
    | .store b _ _ u => if u && f.core == core then b else []
    | _ => [])
  pas.map (fun p => (lastAt p lies).getD (rdByte s p))

/-- Apply the lanes of one operation in order, each seeing those before it (R308): the bytes written, and each lane's old value
as bytes. -/
def atLanes (op : AtOp) (signed : Bool) (rd : List Nat → List Byte) :
    List (Lane × Nat × Nat) → List (Nat × Byte) × List (Nat × List Byte)
  | l => l.foldl (fun acc x =>
      let old := (x.1.pas.zip (rd x.1.pas)).map (fun p => (lastAt p.1 acc.1).getD p.2)
      let wr := match atResult op signed x.1.pas.length (ofBytes old) x.2.1 x.2.2 with
        | some v => x.1.pas.zip (toBytes x.1.pas.length v)
        | none => []
      (acc.1 ++ wr, acc.2 ++ [(x.1.lane, old)])) ([], [])

/-- The old values to the destination registers (R303, R308). -/
def atWriteBack (s : State) (gid dst : Nat) (old : List (Nat × List Byte)) : State :=
  if dst = 352 then s
  else match getG s gid with
    | none => s
    | some g => putG s (applyRegs g (old.flatMap (fun p => loadRegs dst p.1 p.2 (decide (p.2.length = 16)))))

/-- Has every operation of the group that must come before this one come about: earlier acquires (R137), and earlier accesses
to the same bytes (R128)? -/
def accessTurn (s : State) (f : Flight) (pas : List Nat) (self : Bool) : Bool :=
  !acquiring s f.gid f.word &&
    s.pend.all (fun o => o.gid != f.gid || !decide (o.id < f.id) || (match o.op with
      | .store b _ _ _ => self || b.all (fun p => !pas.contains p.1)
      | .atomic _ _ l _ _ _ _ => l.all (fun y => y.1.pas.all (fun p => !pas.contains p))
      | .load l _ _ _ _ _ => l.all (fun y => y.pas.all (fun p => !pas.contains p))
      | _ => true))

/-- Is a write of the issuing core's atomic unit to any of these bytes still on its way, which a group of the core may have read (R128)? -/
def unitPending (s : State) (f : Flight) (pas : List Nat) : Bool :=
  s.pend.any (fun o => o.core == f.core && (match o.op with | .store b _ _ true => b.any (fun p => pas.contains p.1) | _ => false))

/-- May an atomic's lines be used at their homes now: no tower-pending write, no engine mark (R106)? -/
def atomicReady (s : State) (pas : List Nat) : Bool :=
  pas.all (fun p => homeReady s p && decide ((home s (p / 1024)).pend = 0))

end Sys2Proof.Machine
end

