-- ==== Sys2Proof/Machine/Lehr.lean ====
section
/-! DEFINITION. The lehr: its header (R317, R318), reserving, filling, faulting and releasing slots (R319 to R322, R480, R481). -/

namespace Sys2Proof.Machine

/-- A lehr header's fields (R317); `lines` and `cnt` are the slot size and count themselves. -/
structure Lehr where
  lines : Nat
  cnt : Nat
  held : Nat
  aw : Nat
  wr : Nat
  filled : Nat
  fault : Nat
  time : Nat
  deriving DecidableEq, Repr

def lehrRead (t : Team) (h : Nat) : Lehr :=
  let q := lrdN t h 8
  { lines := fld q 32 13 + 1, cnt := fld q 24 6 + 1, held := fld q 16 7, aw := fld q 8 7, wr := fld q 0 6,
    filled := lrdN t (h + 8) 8, fault := lrdN t (h + 16) 8, time := lrdN t (h + 24) 8 }

def lehrWrite (t : Team) (h : Nat) (l : Lehr) : Team :=
  lwr t (at_ h (toBytes 8 ((l.lines - 1) * 2 ^ 32 + (l.cnt - 1) * 2 ^ 24 + l.held * 2 ^ 16 + l.aw * 2 ^ 8 + l.wr) ++
    toBytes 8 l.filled ++ toBytes 8 l.fault ++ toBytes 8 l.time))

/-- The oldest held slot, kept with the engine side (R317). -/
def lehrRel (t : Team) (h : Nat) : Nat := fget 0 h t.rel

/-- Where slot k begins (R318). -/
def slotAddr (h : Nat) (l : Lehr) (k : Nat) : Nat := 128 * cdiv (h + 32) 128 + 128 * l.lines * k

/-- wr: the first slot from rel on, among the held ones, that is not filled (R317, R321). -/
def lehrWr (l : Lehr) (rel : Nat) : Nat :=
  match (List.range l.held).find? (fun k => !l.filled.testBit ((rel + k) % l.cnt)) with
  | some k => (rel + k) % l.cnt
  | none => (rel + l.held) % l.cnt

def lehrSet (t : Team) (h : Nat) (l : Lehr) : Team := lehrWrite t h { l with wr := lehrWr l (lehrRel t h) }

/-- Reserve the next slot: its number. The lehr is not full. -/
def lehrReserve (t : Team) (h : Nat) : Team × Nat :=
  let l := lehrRead t h
  (lehrWrite t h { l with held := l.held + 1, wr := lehrWr { l with held := l.held + 1 } (lehrRel t h) },
    (lehrRel t h + l.held) % l.cnt)

/-- A team whose lehr header a party (0: an engine) has written; slots that watch the header's line are woken (R84, R317). -/
def putLehr (s : State) (gid : Nat) (t : Team) (h : Nat) : State := wakeLocal (putT s t) t.tid gid [h]

def lehrFull (t : Team) (h : Nat) : Bool := let l := lehrRead t h; decide (l.cnt ≤ l.held)

/-- Mark a slot filled, with the completion time of the writes that filled it (R320, R325). -/
def lehrFill (t : Team) (h k time : Nat) : Team :=
  let l := lehrRead t h
  lehrSet t h { l with filled := l.filled ||| 2 ^ k, time := max l.time time }

/-- Mark a slot faulted (R480). -/
def lehrFaultSlot (t : Team) (h k time : Nat) (f : FInfo) : Team :=
  let l := lehrRead t h
  let t1 := lehrSet t h { l with fault := l.fault ||| 2 ^ k, time := max l.time time }
  { t1 with slotFault := t1.slotFault.filter (fun e => !(e.1 == h && e.2.1 == k)) ++ [(h, k, f)] }

/-- A copy or a net.get that faults leaves the local lines it has not delivered in a faulted range; with all eight in use they
become present, and the service hears of it (R481). Either way they wait for that copy no more. -/
def faultLines (s : State) (tid : Nat) (lines : List Nat) (index : Nat) : State :=
  match getT s tid with
  | none => s
  | some t =>
    let t1 := setLines t lines
    if lines.isEmpty then s
    else if t.ranges.length < 8 then putT s { t1 with ranges := t.ranges ++ [lines] }
    else stopCtx (serviceRecord (putT s t1) t.ctx { cls := 0x1D, code := 6, eng := 1, index := index } 0) t.ctx 0x1D

/-! The words. -/

/-- The checks of a word on a header's place: its alignment (R317), then its local range (R93), then presence (R95). -/
def headerCheck (t : Team) (h : Nat) : Option (FInfo ⊕ Nat) :=
  if h % 32 ≠ 0 then some (.inl { cls := 0x0E, code := 6, addr := h })
  else match localBad t h 32 with
    | some c => some (.inl { cls := 5, code := c, addr := h })
    | none => match absentLine t h 32 with
      | some k => if inRange t k then some (.inl { cls := 0x10, code := 4, addr := h, eng := 1 }) else some (.inr k)
      | none => none

/-- Run a word on a lehr of the issuing team. -/
def lehrWord (i : Instr) (w : SWord) (s : State) (f : State → Issue → Team → Nat → Res) : Host.Outcome State Fault Refusal :=
  runWord i 0 false s (fun s x =>
    match teamOf s x.g with
    | none => .ok s
    | some t =>
      let h := (rs x.g w.a.toNat).toNat
      match headerCheck t h with
      | some (.inl e) => .bad s e
      | some (.inr k) => .park s (.line t.tid k)
      | none => match f s x t h with
        | .ok s1 => .ok (progressed s1 x.g.ctx)
        | r => r)

/-- R319: the operands' checks come before the header's place. -/
def execLrInit (w : SWord) (s : State) : Host.Outcome State Fault Refusal :=
  runWord (.lrInit w) 0 false s (fun s x =>
    match teamOf s x.g with
    | none => .ok s
    | some t =>
      let h := (rs x.g w.a.toNat).toNat
      let n := (srcB x.g w).toNat
      let z := (srcC x.g w).toNat
      let l : Lehr := { lines := z, cnt := n, held := 0, aw := 0, wr := 0, filled := 0, fault := 0, time := 0 }
      let from_ := slotAddr h l 0
      if n = 0 ∨ 64 < n ∨ z = 0 ∨ 8192 < z then badW s 0x0E 1 h 0
      else if (localBad t from_ (128 * n * z)).isSome then badW s 0x0E 2 h 0
      else match headerCheck t h with
        | some (.inl e) => .bad s e
        | some (.inr k) => .park s (.line t.tid k)
        | none =>
          let held := (lehrRead t h).held
          if held ≠ 0 then badW s 0x0E 3 h held
          else .ok (progressed (putLehr s x.g.gid (lehrWrite { t with rel := fput 0 h 0 t.rel } h l) h) x.g.ctx))

/-- Is another slot of the team already waiting at this header (R320: awaits are served in the order they reach the port)? -/
def awaitBefore (s : State) (g : Group) (b : Bool) (h : Nat) : Bool :=
  let me := slotOf g b
  let parked : Bool := match me.park with | some (.await k) => k == h | _ => false
  let mine := if parked then me.waitSince else s.time
  s.groups.any (fun o => o.team == g.team && [false, true].any (fun c =>
    let sl := slotOf o c
    match sl.park with
    | some (.await k) => k == h && !(o.gid == g.gid && c == b) &&
        (decide (sl.waitSince < mine) || (decide (sl.waitSince = mine) && (!parked || decide (o.gid < g.gid) || (o.gid == g.gid && b))))
    | _ => false))

/-- May an await return now: its slot filled and the completion time past, or faulted (R320, R143)? -/
def awaitReady (s : State) (t : Team) (h : Nat) : Bool :=
  let l := lehrRead t h
  let r := (lehrRel t h + l.aw) % l.cnt
  decide (l.aw < l.held) && (l.fault.testBit r || (l.filled.testBit r && decide (l.time < s.time)))

/-- R320. Raising a copy's fault here changes nothing: the group that issued the copy raises it at its own wait as well (R479). -/
def execLrAwait (w : SWord) (s : State) : Host.Outcome State Fault Refusal :=
  lehrWord (.lrAwait w) w s (fun s x t h =>
    if awaitBefore s x.g x.b h ∨ !awaitReady s t h then .park s (.await h)
    else
      let l := lehrRead t h
      let r := (lehrRel t h + l.aw) % l.cnt
      if l.fault.testBit r then
        let f := match t.slotFault.find? (fun e => e.1 == h && e.2.1 == r) with
          | some e => e.2.2
          | none => { cls := 0x10, code := 1, eng := 1, unit := r }
        .bad s f
      else .ok (putLehr (putG s (ws x.g w.d.toNat (r64 (slotAddr h l r)))) x.g.gid (lehrSet t h { l with aw := l.aw + 1 }) h))

/-- A released slot that `cp.mc` reserved returns its count to the sender (R321, R482). -/
def mcReturn (s : State) (gid : Nat) (t : Team) (h k : Nat) : State :=
  let t1 := { t with mcOwner := fput 0 (h * 64 + k) 0 t.mcOwner }
  let s1 := putLehr s gid t1 h
  match fget 0 (h * 64 + k) t.mcOwner with
  | 0 => s1
  | o + 1 => match getT s1 o with
    | none => s1
    | some u =>
      let up (c : McChan) : McChan := if c.off = h then { c with free := fput 0 t.tidx (fget 0 t.tidx c.free + 1) c.free } else c
      putT s1 { u with mc := u.mc.map up }

/-- R321, R481. -/
def execLrRel (w : SWord) (s : State) : Host.Outcome State Fault Refusal :=
  lehrWord (.lrRel w) w s (fun s x t h =>
    let l := lehrRead t h
    let r := lehrRel t h
    let faulted := l.fault.testBit r
    if l.held = 0 ∨ (l.aw = 0 ∧ !faulted) then badW s 0x0E 4 h r
    else
      let lines := (List.range l.lines).map (fun i => slotAddr h l r / 128 + i)
      let t1 := if faulted then dropRanges t lines else t
      let t2 := { t1 with rel := fput 0 h ((r + 1) % l.cnt) t1.rel,
                          slotFault := t1.slotFault.filter (fun e => !(e.1 == h && e.2.1 == r)) }
      let l1 := { l with filled := setFld l.filled r 1 0, fault := setFld l.fault r 1 0, aw := l.aw - 1, held := l.held - 1 }
      .ok (mcReturn s x.g.gid (lehrSet t2 h l1) h r))

/-- R322, the reserving form. -/
def execLrFill (w : SWord) (s : State) : Host.Outcome State Fault Refusal :=
  lehrWord (.lrFill w) w s (fun s x t h =>
    if lehrFull t h then .park s (.lehrFull t.tid h)
    else
      let l := lehrRead t h
      let (t1, k) := lehrReserve t h
      .ok (putLehr (putG s (ws x.g w.d.toNat (r64 (slotAddr h l k)))) x.g.gid t1 h))

/-- The reserved, unfilled slot that starts at an address (R322). -/
def slotAt (t : Team) (h a : Nat) : Option Nat :=
  let l := lehrRead t h
  ((List.range l.held).map (fun k => (lehrRel t h + k) % l.cnt)).find? (fun k =>
    !l.filled.testBit k && decide (slotAddr h l k = a))

/-- R322, the marking form: a release at team scope first. -/
def execLrFillPut (w : SWord) (s : State) : Host.Outcome State Fault Refusal :=
  lehrWord (.lrFillPut w) w s (fun s x t h =>
    match releaseWait s x.g .tm with
    | some (s1, p) => .park s1 p
    | none => match slotAt t h (srcB x.g w).toNat with
      | none => badW s 0x0E 5 h 0
      | some k => .ok (putLehr s x.g.gid (lehrFill t h k 0) h))

end Sys2Proof.Machine
end

