-- ==== Sys2Proof/Machine/Regroup.lean ====
section
/-! DEFINITION. `regroup` (R47 to R52, R256): the word waits, the event REGROUP_PAIR merges two waiting groups, and a team whose
other groups all wait lets each waiting group continue alone (R48). -/

namespace Sys2Proof.Machine

/-! Team and cluster barriers as their holders keep them (R312 to R315). -/

def barOf (t : Team) (b : Nat) : Nat × Nat × Nat := fget (0, 0, 0) b t.bars
def setBar (t : Team) (b : Nat) (v : Nat × Nat × Nat) : Team := { t with bars := fput (0, 0, 0) b v t.bars }

/-- A phase completes when the arrivals reach the count (R312, BARRIER_PHASE_COMPLETE). -/
def barPhase (v : Nat × Nat × Nat) : Nat × Nat × Nat := if 0 < v.1 ∧ v.1 ≤ v.2.1 then (v.1, 0, v.2.2 + 1) else v

/-- The phase of a group's last arrival plus one; 0: it never arrived. -/
def barLastOf (t : Team) (b num : Nat) : Nat := fget 0 (b * 32 + num) t.barLast

/-- Has the group arrived in the current phase? -/
def barArrived (t : Team) (b num : Nat) : Bool := decide (barLastOf t b num = (barOf t b).2.2 + 1)

/-- Is an arrival of the group at a barrier still to be registered? -/
def barPending (s : State) (gid b : Nat) : Bool :=
  s.pend.any (fun f => f.gid == gid && (match f.op with | .barArrive _ b' => b' == b | _ => false))

/-- Has the phase of the group's last arrival completed? -/
def barDone (s : State) (g : Group) (b : Nat) : Bool :=
  match teamOf s g with
  | none => true
  | some t => !barPending s g.gid b && !barArrived t b g.num

/-- The cluster of a group; a task group has none (R54). -/
def clusterOf (s : State) (g : Group) : Option Cluster := if g.task then none else getCl s g.ctx g.grid g.cluster

def cbarOf (k : Cluster) (b : Nat) : Nat × Nat × Nat := fget (0, 0, 0) b k.bars
def cbarKey (b tidx num : Nat) : Nat := b * 4096 + 32 * tidx + num

/-- Has a group arrived in a cluster barrier's current phase? -/
def cbarArrived (k : Cluster) (b : Nat) (g : Group) : Bool :=
  decide (fget 0 (cbarKey b g.tidx g.num) k.barLast = (cbarOf k b).2.2 + 1)

/-! Waiting at `regroup`. -/

/-- The key of a group that waits at a regroup, with its results returned and no partner yet (R48, R52). -/
def regroupKey (g : Group) : Option W64 :=
  match g.slotA.st, g.slotA.park with
  | .running, some (.regroup k true none) => some k
  | _, _ => none

/-- The regroup word a group waits at. -/
def regroupWord (g : Group) : Option VWord :=
  match decodeWord (g.slotA.words.getD g.slotA.idx 0#64) with
  | some (.regroup w) => some w
  | _ => none

/-- Do two groups meet the conditions of R48? -/
def regroupMatch (g h : Group) : Bool :=
  match regroupKey g, regroupKey h with
  | some a, some b =>
    g.gid != h.gid && g.team == h.team && a == b && g.slotA.clause == h.slotA.clause && g.slotA.idx == h.slotA.idx &&
      decide ((lanesOf g.slotA.mask).length + (lanesOf h.slotA.mask).length ≤ g.width)
  | _, _ => false

/-- Is a group parked at a barrier whose phase has not completed, in every slot that is not free? A group with one slot parked at a barrier
and the other waiting at a join does not count as parked at a barrier: DESIGN CHOICE (log entry 77). -/
def atBarrier (s : State) (g : Group) : Bool :=
  let ok (x : Slot) : Bool := match x.st, x.park with
    | .free, _ => true
    | _, some (.barrier b _) => !barDone s g b
    | _, some (.cbarrier b _) => (match clusterOf s g with | some k => cbarArrived k b g | none => false)
    | _, _ => false
  (g.slotA.st != .free || g.slotB.st != .free) && ok g.slotA && ok g.slotB

/-- A waiting group goes on with v in its destination (R49, R50). -/
def regroupGo (s : State) (gid : Nat) (v : W64) : State :=
  match getG s gid with
  | none => s
  | some g => match regroupWord g with
    | none => s
    | some w => advance (putG s (ws g (w.d.toNat - 352) v)) gid false false w.sw

/-- R48: when every group of the team waits without a partner, is at a barrier or has retired, each waiting group continues alone. No two of
them match, because a group that came to a `regroup` paired with a waiting group it matched. -/
def regroupRelease (s : State) (tid : Nat) : State :=
  let mine := s.groups.filter (fun g => g.team == tid)
  let waiting := mine.filter (fun g => (regroupKey g).isSome)
  if mine.all (fun g => (regroupKey g).isSome || atBarrier s g) && waiting.all (fun g => waiting.all (fun h => !regroupMatch g h))
  then waiting.foldl (fun s g => regroupGo s g.gid 0#64) s
  else s

/-- The waiting group that one which comes to a `regroup` pairs with: the lowest-numbered match (R48). -/
def regroupMate (s : State) (g : Group) : Option Group :=
  (s.groups.filter (fun h => regroupMatch g h)).foldl (fun a h => match a with
    | none => some h
    | some m => if h.num < m.num then some h else some m) none

/-- A group at a `regroup` with its partner. -/
def mated (g : Group) (key : W64) (m : Option Nat) : Group := { g with slotA := { g.slotA with park := some (.regroup key true m) } }

/-- A group that waits at its `regroup` pairs at once with the group it matches; REGROUP_PAIR merges the pair (R48). -/
def regroupSeek (s : State) (gid : Nat) (key : W64) : State :=
  match getG s gid with
  | none => s
  | some g => match regroupMate s g with
    | none => regroupRelease s g.team
    | some h => putG (putG s (mated g key (some h.gid))) (mated h key (some gid))

/-- A group comes to its `regroup`. -/
def regroupWait (s : State) (gid : Nat) (b : Bool) (key : W64) : State := regroupSeek (parkAt s gid b (.regroup key true none)) gid key

/-- R47, R52: the group's results return first, a kept fault among them raised here (R447), then it waits. -/
def execRegroup (w : VWord) (s : State) : Host.Outcome State Fault Refusal :=
  runWord (.regroup w) 0 false s (fun s x =>
    if (slotOf x.g (!x.b)).st ≠ .free then badW s 0x0A 1 0 0
    else if x.slot.depth ≠ 0 then badW s 0x0A 2 0 x.slot.depth
    else if x.g.spec.isSome then badW s 0x0A 3 0 0
    else
      let key := rs x.g (w.a.toNat - 352)
      if !allQuiet s x.g then .park (drainWcb s x.g.gid) (.regroup key false)
      else match x.g.due with
        | d :: r => .bad (putG s { x.g with due := r }) d.info
        | [] => .done (regroupWait s x.g.gid x.b key))

/-- R45, R252: the slot's stack decides what follows; a slot without lanes becomes free, which may leave its group parked at a
barrier and so release the waiting groups of its team (R48). -/
def execExit (w : SWord) (s : State) : Host.Outcome State Fault Refusal :=
  runWord (.exit w) 0 false s (fun s x =>
    let sl := x.slot
    match stackTop s x.g x.b with
    | some (_, a, m) =>
      .done (settleSlots (jumpTo (putG s (setSlot x.g x.b { sl with depth := sl.depth - 1, mask := m })) x.g.gid x.b a
        (x.w.getLsbD 55)) x.g.gid)
    | none => .done (regroupRelease (settleSlots (holdGroup (leavePart (putG s (setSlot x.g x.b {})) x.g x.b) x.g.gid (x.w.getLsbD 55))
        x.g.gid) x.g.team))

end Sys2Proof.Machine
end

