-- ==== Sys2Proof/Machine/Sync.lean ====
section
/-! DEFINITION. Fences (R138, R311), team barriers (R312 to R314, R316) and cluster barriers (R315). -/

namespace Sys2Proof.Machine

/-! Fences. -/

/-- A group-scope fence waits for nothing, but keeps the group's later accesses behind its earlier loads: each load in flight
orders what follows it as a group-scope acquire does (R135, R137, R138; log entry 33). -/
def fenceLoads (s : State) (gid : Nat) : State :=
  let mark (f : Flight) : Flight :=
    if f.gid != gid then f
    else match f.op with
      | .load l d p none h o => { f with op := .load l d p (some .gr) h o }
      | .atomic op sg l d _ r sc => { f with op := .atomic op sg l d true r sc }
      | .remoteLoad t l d z _ => { f with op := .remoteLoad t l d z true }
      | _ => f
  { s with pend := s.pend.map mark }

def execFence (w : SWord) (s : State) : Host.Outcome State Fault Refusal :=
  runWord (.fence w) 0 false s (fun s x =>
    match (scopeOf (w.f7.toNat % 8)).getD .ln with
    | .ln => .ok (drainWcb s x.g.gid)
    | .gr => .ok (fenceLoads (drainWcb s x.g.gid) x.g.gid)
    | sc => match releaseWait s x.g sc with
      | some (s1, p) => .park s1 p
      | none => .ok (fenceLoads s x.g.gid))

/-! Team barriers. -/

/-- Register an arrival (R312). -/
def barArriveNow (s : State) (tid b num : Nat) : State :=
  match getT s tid with
  | none => s
  | some t =>
    let v := barOf t b
    let t1 := { t with barLast := fput 0 (b * 32 + num) (v.2.2 + 1) t.barLast }
    putT s (setBar t1 b (barPhase (v.1, v.2.1 + 1, v.2.2)))

/-- Why an arrival is refused at its word (R313, R462): a barrier without a count, or a second arrival in a phase, an arrival that still
waits for its release being one. -/
def arriveBad (s : State) (gid : Nat) (t : Team) (b num : Nat) : Option FInfo :=
  if (barOf t b).1 = 0 then some { cls := 0x0D, code := 3, index := b }
  else if barArrived t b num ∨ barPending s gid b then some { cls := 0x0D, code := 4, index := b }
  else none

/-- Register a group's arrivals whose team-scope release is complete (R313, R136). -/
def settleArrivals (s : State) (gid : Nat) : State :=
  (s.pend.filter (fun f => f.gid == gid)).foldl (fun s f =>
    match f.op, getG s gid with
    | .barArrive tid b, some g => if releaseReady s g .tm f.id then barArriveNow (dropF s f.id) tid b g.num else s
    | _, _ => s) s

/-- An arrival of the issuing group as a team-scope release (R313): refused, registered at once when nothing precedes it, else registered
by `settleArrivals`. -/
def arriveBar (s : State) (x : Issue) (t : Team) (b : Nat) : State ⊕ FInfo :=
  match arriveBad s x.g.gid t b x.g.num with
  | some f => .inr f
  | none =>
    let s1 := drainWcb s x.g.gid
    let free : Bool := match getG s1 x.g.gid with | some g => releaseReady s1 g .tm s1.nextId | none => true
    let queued := s1.pend.any (fun f => f.gid == x.g.gid && (match f.op with | .barArrive _ _ => true | _ => false))
    .inl (if free && !queued then barArriveNow s1 x.g.team b x.g.num
      else launchOp s1 x.g.gid x.g.ctx x.g.core .bar (.barArrive x.g.team b))

/-- Park at a barrier, which may let the groups that wait at a regroup go on (R48). -/
def parkBar (s : State) (x : Issue) (b : Nat) : Res :=
  let ph := match teamOf s x.g with | some t => (barOf t b).2.2 | none => 0
  .done (regroupRelease (parkAt s x.g.gid x.b (.barrier b ph)) x.g.team)

def barNum (w : SWord) : Nat := imm20 w % 16

def execBarInit (w : SWord) (s : State) : Host.Outcome State Fault Refusal :=
  runWord (.barInit w) 0 false s (fun s x =>
    let b := barNum w
    let n := (rs x.g w.a.toNat).toNat
    match teamOf s x.g with
    | none => .ok s
    | some t =>
      if n = 0 ∨ 32 < n then badW s 0x0D 1 0 b
      else if 0 < (barOf t b).2.1 then badW s 0x0D 2 0 b
      else .ok (putT s (setBar t b (barPhase (n, 0, (barOf t b).2.2)))))

def execBarArv (w : SWord) (s : State) : Host.Outcome State Fault Refusal :=
  runWord (.barArv w) 0 false s (fun s x =>
    match teamOf s x.g with
    | none => .ok s
    | some t => match arriveBar s x t (barNum w) with
      | .inr f => .bad s f
      | .inl s1 => .ok s1)

def execBarWait (w : SWord) (s : State) : Host.Outcome State Fault Refusal :=
  runWord (.barWait w) 0 false s (fun s x =>
    let b := barNum w
    match teamOf s x.g with
    | none => .ok s
    | some t =>
      if barLastOf t b x.g.num = 0 ∧ !barPending s x.g.gid b then badW s 0x0D 5 0 b
      else if barDone s x.g b then .ok s else parkBar s x b)

/-- `bar.arv` then `bar.wait`; a word that has arrived already waits (R313, R316). -/
def execBarSync (w : SWord) (s : State) : Host.Outcome State Fault Refusal :=
  runWord (.barSync w) 0 false s (fun s x =>
    let b := barNum w
    match teamOf s x.g with
    | none => .ok s
    | some t =>
      let waits : Bool := match x.slot.park with | some (.barrier k _) => k == b | _ => false
      if waits then (if barDone s x.g b then .ok s else parkBar s x b)
      else match arriveBar s x t b with
        | .inr f => .bad s f
        | .inl s1 => if barDone s1 x.g b then .ok s1 else parkBar s1 x b)

/-! Cluster barriers. -/

/-- R315, R139: a release and an acquire at cluster scope. -/
def execCbar (w : SWord) (s : State) : Host.Outcome State Fault Refusal :=
  runWord (.cbar w) 0 false s (fun s x =>
    let b := imm20 w % 4
    match clusterOf s x.g with
    | none => badW s 0x0D 3 0 b
    | some k =>
      let v := cbarOf k b
      let waits : Bool := match x.slot.park with | some (.cbarrier j _) => j == b | _ => false
      if waits ∨ cbarArrived k b x.g then
        (if cbarArrived k b x.g then .done (regroupRelease (parkAt s x.g.gid x.b (.cbarrier b v.2.2)) x.g.team) else .ok s)
      else match releaseWait s x.g .cl with
        | some (s1, p) => .park s1 p
        | none =>
          let v1 := barPhase (v.1, v.2.1 + 1, v.2.2)
          let s1 := putCl s { k with bars := fput (0, 0, 0) b v1 k.bars,
                                     barLast := fput 0 (cbarKey b x.g.tidx x.g.num) (v.2.2 + 1) k.barLast }
          if v1.2.2 = v.2.2 then .done (regroupRelease (parkAt s1 x.g.gid x.b (.cbarrier b v.2.2)) x.g.team) else .ok s1)

/-! HOME_ATOMIC_PERFORM (R127, R141, R308, R309). -/

/-- The issuing core's L1 copies take what an atomic read, then what it wrote (R128, R134, R308). -/
def atL1 (s : State) (core : Nat) (lanes : List (Lane × Nat × Nat)) (r : List (Nat × Byte) × List (Nat × List Byte)) : State :=
  l1Store (l1Store s core ((lanes.zip r.2).flatMap (fun p => p.1.1.pas.zip p.2.2))) core r.1

/-- HOME_ATOMIC_PERFORM. At group and team scope the core's unit reads and writes, and the write goes on to the home as a store with the
atomic's place in the group's order; a read part that the core's L1 does not serve fills and promotes at its home (R105, R128, R141). -/
def execHomeAtomicPerform (id : Nat) (s : State) : Host.Outcome State Fault Refusal :=
  .next (match getF s id with
    | some f => match f.op with
      | .atomic op sg lanes dst _ _ sc =>
        let pas := lanes.flatMap (fun l => l.1.pas)
        let line := pas.headD 0 / 1024
        if sc = .gr ∨ sc = .tm then
          if accessTurn s f pas false && pas.all (homeReady s) then
            match badAt s pas with
            | some (pa, c) => machineCheck (dropF s id) f c pa 0 0 0
            | none =>
              let r := atLanes op sg (unitBytes s f.core) lanes
              let s0 := if pas.all (fun p => (l1Live s f.core (p / 128)).isSome) then s else engineRead s f.ctx 0 pas
              let s1 := dropF (atWriteBack (atL1 s0 f.core lanes r) f.gid dst r.2) id
              let s2 := if r.1.isEmpty then s1 else { s1 with pend := s1.pend ++ [{ f with cls := .stcomp, op := .store r.1 none 0 true }] }
              settleArrivals s2 f.gid
          else s
        else if accessTurn s f pas false && !unitPending s f pas && atomicReady s pas then
          match badAt s pas with
          | some (pa, c) => machineCheck (dropF s id) f c pa 0 0 0
          | none =>
            let r := atLanes op sg (fun l => l.map (rdByte s)) lanes
            let s1 := homeTouch s f.ctx 0 (pas.headD 0)
            let s2 := dropF (atWriteBack (atL1 (performBy s1 f.gid f.by_ r.1) f.core lanes r) f.gid dst r.2) id
            let s3 := if r.1.isEmpty then s2
              else
                let (s4, t) := completion (homeStoreTags s2 f.gid f.ctx 0 (pas.headD 0)) line
                feedStore s4 f t
            settleArrivals s3 f.gid
        else s
      | _ => s
    | none => s)

end Sys2Proof.Machine
end

