-- ==== Sys2Proof/Machine/Copy.lean ====
section
/-! DEFINITION. The copy words (R323 to R329), the copy engine's events (R142, R475, R479 to R484) and the cache-control words
(R330, R331). -/

namespace Sys2Proof.Machine

/-! Engine marks (R106). -/

/-- The 64 KiB pieces of a range. -/
def piecesOf (a n : Nat) : List Nat := if n = 0 then [] else (List.range ((a + n - 1) / 65536 - a / 65536 + 1)).map (fun i => (a / 65536 + i) * 65536)

/-- The first page of a range that has yet to be walked for a word with these rights (R124). -/
def rangeMiss (s : State) (g : Group) (a n need : Nat) : Option Nat :=
  (piecesOf a n).findSome? (fun v => if 2 ^ 57 ≤ v then none else match wordXlat s g v need with | .inr p => some p | .inl _ => none)

/-- The 1,024-byte lines of a word's global destination, each with the offset by which the range has written it. Pages that fail their
translation give none: the engine meets the fault there (R475). -/
def markLines (s : State) (g : Group) (va n : Nat) : List (Nat × Nat) :=
  (List.range (cdiv (va % 1024 + n) 1024)).foldl (fun l i =>
    let a := if i = 0 then va else va - va % 1024 + 1024 * i
    let e := min n (va - va % 1024 + 1024 * (i + 1) - va)
    if 2 ^ 57 ≤ a then l
    else match wordXlat s g a 2 with
      | .inl (.ok p _) => l.filter (fun q => q.1 != p / 1024) ++ [(p / 1024, e)]
      | _ => l) []

def addMarks (s : State) (l : List (Nat × Nat)) : State :=
  l.foldl (fun s q => let h := home s q.1; setHome s q.1 { h with marks := h.marks + 1 }) s
def dropMarks (s : State) (l : List (Nat × Nat)) : State :=
  l.foldl (fun s q => let h := home s q.1; setHome s q.1 { h with marks := h.marks - 1 }) s

/-! Operand checks at issue, lowest code first (R468 class 0x0F). -/

def countBad (n : Nat) : Option FInfo :=
  if n < 8 ∨ 2 ^ 30 < n ∨ n % 8 ≠ 0 then some { cls := 0x0F, code := 1, index := n % 2 ^ 32 } else none
def globalBad (a : Nat) : Option FInfo :=
  if a % 8 ≠ 0 ∨ 2 ^ 57 ≤ a then some { cls := 0x0F, code := 2, addr := a } else none
def offsetBad (a : Nat) : Option FInfo := if a % 8 ≠ 0 then some { cls := 0x0F, code := 2, addr := a } else none
def rangeBad (t : Team) (a n : Nat) : Option FInfo :=
  if (localBad t a n).isSome then some { cls := 0x0F, code := 3, addr := a } else none

/-- The first fault of a list of checks. -/
def firstFault (l : List (Option FInfo)) : Option FInfo := l.findSome? id

/-- Issue a copy: an engine command drains the write-combining buffer (R142) and marks global destination lines; a lehr whose slot it
reserved has changed (R454). -/
def issueCopy (s : State) (x : Issue) (c : Copy) : State :=
  let s0 := if c.slot.isSome ∨ c.kind = .mc then progressed s x.g.ctx else s
  launchOp (addMarks (drainWcb s0 x.g.gid) c.marks) x.g.gid x.g.ctx x.g.core .copy (.copy c)

/-- Issue a copy whose global destination is marked at its homes (R106, R323). The word has had the pages of the range walked, as for any
access of a word (R124). -/
def issueMarked (s : State) (x : Issue) (c : Copy) : State :=
  issueCopy (clearWalks s x.g.gid) x { c with marks := markLines s x.g c.dst c.bytes }

/-- Where a copy word with .lr puts its bytes or its completion: the lehr's checks after the copy-operand ones (R323), then the
full lehr's park. The header's change wakes those that watch it (R84). -/
def withSlot (s : State) (gid : Nat) (t : Team) (h n : Nat) (fit : Bool) (f : State → Team → Nat → Res) : Res :=
  let l := lehrRead t h
  let small : Bool := fit && decide (h % 32 = 0) && (localBad t h 32).isNone && (absentLine t h 32).isNone &&
    (decide (l.lines * 128 < n) || (localBad t (slotAddr h l ((lehrRel t h + l.held) % l.cnt)) n).isSome)
  if small then .bad s { cls := 0x0F, code := 3, addr := h }
  else match headerCheck t h with
    | some (.inl e) => .bad s e
    | some (.inr k) => .park s (.line t.tid k)
    | none =>
      if lehrFull t h then .park s (.lehrFull t.tid h)
      else let (t1, k) := lehrReserve t h; f (wakeLocal s t.tid gid [h]) t1 k

def hintS (w : SWord) : Nat := w.f7.toNat % 4
def lrS (w : SWord) : Bool := w.f7.getLsbD 2

/-- R324. -/
def execCpIn (w : SWord) (s : State) : Host.Outcome State Fault Refusal :=
  runWord (.cpIn w) 0 false s (fun s x =>
    let a := (rs x.g w.a.toNat).toNat
    let b := (srcB x.g w).toNat
    let n := (srcC x.g w).toNat
    match teamOf s x.g with
    | none => .ok s
    | some t =>
      let c : Copy := { kind := .cin, team := t.tid, src := b, srcLocal := false, dst := a, bytes := n, slot := none, marks := [], hint := hintS w }
      if lrS w then
        match firstFault [countBad n, globalBad b] with
        | some e => .bad s e
        | none => withSlot s x.g.gid t a n true (fun s0 t1 k =>
            let d := slotAddr a (lehrRead t1 a) k
            let s1 := issueCopy (putT s0 (clearLines t1 d n)) x { c with dst := d, slot := some (t.tid, a, k) }
            okG s1 (ws ((getG s1 x.g.gid).getD x.g) w.d.toNat (r64 d)))
      else
        match firstFault [countBad n, globalBad b, offsetBad a, rangeBad t a n] with
        | some e => .bad s e
        | none => .ok (issueCopy (putT s (clearLines t a n)) x c))

/-- R325. -/
def execCpOut (w : SWord) (s : State) : Host.Outcome State Fault Refusal :=
  runWord (.cpOut w) 0 false s (fun s x =>
    let a := (rs x.g w.a.toNat).toNat
    let b := (srcB x.g w).toNat
    let n := (srcC x.g w).toNat
    match teamOf s x.g with
    | none => .ok s
    | some t =>
      let c : Copy := { kind := .cout, team := t.tid, src := a, srcLocal := true, dst := b, bytes := n, slot := none, marks := [], hint := hintS w }
      match firstFault [countBad n, offsetBad a, globalBad b, rangeBad t a n] with
      | some e => .bad s e
      | none =>
        let h := (rs x.g w.d.toNat).toNat
        match rangeMiss s x.g b n 2 with
        | some p => .park (startWalk s x.g p) (.walk p)
        | none =>
          if lrS w then withSlot s x.g.gid t h n false (fun s0 t1 k => .ok (issueMarked (putT s0 t1) x { c with slot := some (t.tid, h, k) }))
          else .ok (issueMarked s x c))

def execCpG (w : SWord) (s : State) : Host.Outcome State Fault Refusal :=
  runWord (.cpG w) 0 false s (fun s x =>
    let a := (rs x.g w.a.toNat).toNat
    let b := (srcB x.g w).toNat
    let n := (srcC x.g w).toNat
    match teamOf s x.g with
    | none => .ok s
    | some t =>
      let c : Copy := { kind := .cg, team := t.tid, src := a, srcLocal := false, dst := b, bytes := n, slot := none, marks := [], hint := hintS w }
      let meet : Option FInfo := if a < b + n ∧ b < a + n then some { cls := 0x0F, code := 4, addr := a } else none
      match firstFault [countBad n, globalBad a, globalBad b, meet] with
      | some e => .bad s e
      | none =>
        let h := (rs x.g w.d.toNat).toNat
        match rangeMiss s x.g b n 2 with
        | some p => .park (startWalk s x.g p) (.walk p)
        | none =>
          if lrS w then withSlot s x.g.gid t h n false (fun s0 t1 k => .ok (issueMarked (putT s0 t1) x { c with slot := some (t.tid, h, k) }))
          else .ok (issueMarked s x c))

/-! `cp.halo` (R326, R327). -/

/-- A halo descriptor's fields. -/
structure Halo where
  team : Nat
  dst : Nat
  src : Nat
  dstride : Nat
  sstride : Nat
  rows : Nat
  len : Nat
  good : Bool
  deriving DecidableEq, Repr

def haloDec (b : List Byte) : Halo :=
  let p := le b 0 8
  let q := le b 8 8
  let h : Halo := { team := fld p 56 4, dst := fld p 36 20, src := fld p 16 20, dstride := fld q 44 20, sstride := fld q 24 20,
                    rows := fld q 13 11 + 1, len := 8 * (fld q 0 13 + 1), good := true }
  { h with good := decide (fld p 60 4 = 0) && decide (fld p 0 16 = 0) && decide (le b 16 16 = 0) &&
      [h.dst, h.src, h.dstride, h.sstride].all (fun v => decide (v % 8 = 0)) }

/-- The (source, destination) offsets of a halo's 8-byte units in row order. -/
def haloUnits (h : Halo) : List (Nat × Nat) :=
  (List.range h.rows).flatMap (fun r => (List.range (h.len / 8)).map (fun i =>
    (h.src + r * h.sstride + 8 * i, h.dst + r * h.dstride + 8 * i)))

def haloLines (h : Halo) : List Nat := ((List.range h.rows).flatMap (fun r => linesOf (h.dst + r * h.dstride) h.len)).eraseDups

/-- The cluster-barrier phase in which the group next arrives (R327). -/
def nextPhase (k : Cluster) (b : Nat) (g : Group) : Nat := if cbarArrived k b g then (cbarOf k b).2.2 + 1 else (cbarOf k b).2.2

/-- A row of a halo outside either allocation. -/
def haloRowBad (own src : Team) (h : Halo) : Option Nat :=
  (List.range h.rows).find? (fun r =>
    (localBad own (h.dst + r * h.dstride) h.len).isSome || (localBad src (h.src + r * h.sstride) h.len).isSome)

def execCpHalo (w : SWord) (s : State) : Host.Outcome State Fault Refusal :=
  runWord (.cpHalo w) 0 false s (fun s x =>
    let a := (rs x.g w.a.toNat).toNat
    let k := imm20 w % 4
    match teamOf s x.g with
    | none => .ok s
    | some t =>
      match firstFault [offsetBad a, rangeBad t a 32, if a % 32 ≠ 0 then some { cls := 0x0F, code := 5, addr := a } else none] with
      | some e => .bad s e
      | none =>
        match absentLine t a 32 with
        | some l => if inRange t l then .bad s { cls := 0x10, code := 4, addr := a, eng := 1 } else .park s (.line t.tid l)
        | none =>
          let d := lrd t a 32
          let h := haloDec d
          match clusterOf s x.g with
          | some cl =>
            if !h.good ∨ cl.w * cl.h ≤ h.team then badW s 0x0F 5 a 0
            else match haloRowBad t ((clusterTeamAny s x.g h.team).getD t) h with
              | some r => badW s 0x0F 5 a r
              | none =>
                let t1 := (haloLines h).foldl (fun t l => clearLines t (l * 128) 128) t
                .ok (issueCopy (putT s t1) x
                  { kind := .halo, team := t.tid, src := a, srcLocal := true, dst := 0, bytes := h.rows * h.len, slot := none,
                    marks := [], hint := hintS w, k := k, phase := nextPhase cl k x.g, desc := d })
          | none => badW s 0x0F 5 a 0)

/-! `cp.mc` (R328, R482, R484). -/

/-- The receivers of a mask, by %team. -/
def mcTeams (mask : Nat) : List Nat := (List.range 12).filter (fun m => mask.testBit m)

/-- Is a team of the cluster retired or gone? -/
def mcGone (s : State) (g : Group) (m : Nat) : Bool := (clusterTeam s g m).isNone

/-- The channel of an offset, with a counter for each receiver named for the first time at its lehr's slot count. -/
def mcChannel (s : State) (g : Group) (t : Team) (h : Nat) (ms : List Nat) : McChan :=
  let c := (t.mc.find? (fun c => c.off == h)).getD { off := h, free := [] }
  ms.foldl (fun c m =>
    if c.free.any (fun p => p.1 == 4096 + m) then c
    else match clusterTeam s g m with
      | some u => { c with free := fput 0 (4096 + m) 1 (fput 0 m (lehrRead u h).cnt c.free) }
      | none => c) c

/-- Set a team's channel. -/
def putChannel (t : Team) (c : McChan) : Team :=
  if t.mc.any (fun d => d.off == c.off) then { t with mc := replaceFirst (fun d => d.off == c.off) (fun _ => c) t.mc }
  else { t with mc := t.mc ++ [c] }

/-- May a receiver's lehr give a slot now (R328)? Its header's line is present and the lehr is not full. -/
def mcFree (u : Team) (h : Nat) : Bool := (headerCheck u h).isNone && !lehrFull u h

/-- A slot that cannot take a multicast's bytes: it is too small, or lies outside what R93 lets the receiver have. -/
def mcSlotBad (u : Team) (h k bytes : Nat) : Bool :=
  let l := lehrRead u h
  decide (l.lines * 128 < bytes) || (localBad u (slotAddr h l k) bytes).isSome

/-- A multicast reserves a slot at a receiver, as `cp.in` does: the slot's presence bits are cleared, and the slot knows its sender
(R95, R321, R328). -/
def mcReserve (u : Team) (h bytes sender : Nat) : Team × Nat :=
  let (u1, k) := lehrReserve u h
  let u2 := { u1 with mcOwner := fput 0 (h * 64 + k) (sender + 1) u1.mcOwner }
  (if mcSlotBad u h k bytes then u2 else clearLines u2 (slotAddr h (lehrRead u1 h) k) bytes, k)

/-- At issue a multicast counts its write into each living receiver (R483) and reserves a slot where the lehr is not full (R95, R328). -/
def mcIssue (s : State) (g : Group) (h bytes sender : Nat) (ms : List Nat) : State × List McRecv :=
  ms.foldl (fun p m => match clusterTeam p.1 g m with
    | none => (p.1, p.2 ++ [{ team := m, counted := false }])
    | some u =>
      let u1 := { u with inbound := u.inbound + 1 }
      if mcFree u1 h then
        let (u2, k) := mcReserve u1 h bytes sender
        (putLehr p.1 g.gid u2 h, p.2 ++ [{ team := m, slot := some k }])
      else (putT p.1 u1, p.2 ++ [{ team := m }])) (s, [])

def execCpMc (w : SWord) (s : State) : Host.Outcome State Fault Refusal :=
  runWord (.cpMc w) 0 false s (fun s x =>
    let h := (rs x.g w.a.toNat).toNat
    let b := (srcB x.g w).toNat
    let n := (srcC x.g w).toNat
    let mask := imm20 w % 4096
    let loc := w.f7.getLsbD 3
    let ms := mcTeams mask
    match teamOf s x.g with
    | none => .ok s
    | some t =>
      let cn := match clusterOf s x.g with | some k => k.w * k.h | none => 0
      let live := ms.filter (fun m => !mcGone s x.g m)
      let small : Bool := decide (h % 32 = 0) && live.any (fun m => match clusterTeam s x.g m with
        | some u => (localBad u h 32).isSome || ((absentLine u h 32).isNone && decide ((lehrRead u h).lines * 128 < n)) | none => false)
      let badMask : Option FInfo := if mask = 0 ∨ ms.any (fun m => decide (cn ≤ m)) then some { cls := 0x0F, code := 6, index := mask } else none
      match firstFault [countBad n, if loc then offsetBad b else globalBad b, if loc then rangeBad t b n else none,
                        if small then some { cls := 0x0F, code := 3, addr := h } else none, badMask] with
      | some e => .bad s e
      | none =>
        if h % 32 ≠ 0 then badW s 0x0E 6 h 0
        else if 4 ≤ t.mc.length ∧ t.mc.all (fun c => c.off != h) then badW s 0x0F 7 h 0
        else
          let c := mcChannel s x.g t h ms
          if live.any (fun m => decide (fget 0 m c.free = 0)) then .park (putT s (putChannel t c)) (.mcZero h mask)
          else
            let c1 := { c with free := live.foldl (fun f m => fput 0 m (fget 0 m f - 1) f) c.free }
            let (s2, recv) := mcIssue (putT s (putChannel t c1)) x.g h n t.tid ms
            .ok (issueCopy s2 x { kind := .mc, team := t.tid, src := b, srcLocal := loc, dst := h, bytes := n, slot := none,
                                  marks := [], hint := hintS w, recv := recv }))

/-! The engine: one 8-byte unit after another (R323, R475). -/

/-- What reading a unit meets: its bytes, with the physical address of global ones; a fault, or an uncorrectable error at a byte with its
structure (R458); a page to walk first, or a wait. -/
inductive UnitRes where
  | ok (l : List Byte) (pa : Option Nat)
  | bad (f : FInfo)
  | walk (page : Nat)
  | wait
  deriving DecidableEq, Repr

def copyInfo (code addr index : Nat) : FInfo := { cls := 0x10, code := code, addr := addr, index := index, eng := 1 }

/-- What an engine's access to data in error raises (R458). -/
def checkInfo (code addr eng index : Nat) : FInfo := { cls := 0x19, code := code, addr := addr, eng := eng, index := index }

/-- Read the unit of a source at byte offset i. -/
def readUnit (s : State) (f : Flight) (loc : Bool) (team src i : Nat) : UnitRes :=
  let a := src + i
  if loc then
    match getT s team with
    | none => .wait
    | some t => match absentLine t a 8 with
      | some k => if inRange t k then .bad (copyInfo 4 a i) else .wait
      | none => .ok (lrd t a 8) none
  else match flightXlate s f f.core a 1 false with
    | .inr p => .walk p
    | .inl (.bad _ _) => .bad (copyInfo 1 a i)
    | .inl (.ok p _) => match accessCheck s f.ctx 1 p 8 1 with
      | some _ => .bad (copyInfo 3 a i)
      | none =>
        if !homeReady s p then .wait
        else match badAt s ((List.range 8).map (fun k => p + k)) with
          | some (q, c) => .bad (checkInfo c q 1 i)
          | none => .ok (rdBytes s p 8) (some p)

/-- A unit read at a home fills its sector as the copy's hint says (R105, R107, R109). -/
def unitTouch (s : State) (f : Flight) (hint : Nat) (pa : Option Nat) : State :=
  match pa with | some p => engineRead s f.ctx hint [p] | none => s

/-- What writing a unit meets. -/
inductive UnitWrite where
  | ok (s : State) (wct : Nat)
  | bad (f : FInfo)
  | walk (page : Nat)
  | wait
  deriving DecidableEq, Repr

/-- Write a unit of a global destination. -/
def writeUnit (s : State) (f : Flight) (hint dst i : Nat) (l : List Byte) : UnitWrite :=
  let a := dst + i
  match flightXlate s f f.core a 2 false with
  | .inr p => .walk p
  | .inl (.bad _ _) => .bad (copyInfo 2 a i)
  | .inl (.ok p _) => match accessCheck s f.ctx 1 p 8 2 with
    | some _ => .bad (copyInfo 3 a i)
    | none =>
      if !engineFree s f.ctx hint (at_ p l) then .wait
      else let (s1, t) := engineWrite s f.ctx hint (at_ p l); .ok s1 t

/-- How far a copy has come: the state, the bytes delivered, the largest completion time, a fault, or what the next unit waits for: a
page's walk, or something else. -/
structure Prog where
  s : State
  done : Nat
  wct : Nat
  bad : Option FInfo := none
  walk : Option Nat := none
  wait : Bool := false

/-- Bytes arrive in a team's local memory from an engine (R84). -/
def landLocal (s : State) (t : Team) (off : Nat) (l : List Byte) : State :=
  wakeLocal (putT s (lwr t (at_ off l))) t.tid 0 (l.mapIdx (fun k _ => off + k))

/-- Move the units of a copy with one destination range, in order, until one fails or must wait. -/
def moveUnits (f : Flight) (c : Copy) : List Nat → Prog → Prog
  | [], p => p
  | i :: r, p =>
    match readUnit p.s f c.srcLocal c.team c.src i with
    | .wait => { p with wait := true }
    | .walk g => { p with walk := some g, wait := true }
    | .bad e => { p with bad := some e }
    | .ok l pa =>
      let s1 := unitTouch p.s f c.hint pa
      match c.kind with
      | .cin => match getT s1 c.team with
        | none => moveUnits f c r { p with s := s1, done := i + 8 }
        | some t => moveUnits f c r { p with s := landLocal s1 t (c.dst + i) l, done := i + 8 }
      | _ => match writeUnit s1 f c.hint c.dst i l with
        | .bad e => { p with bad := some e }
        | .walk g => { p with walk := some g, wait := true }
        | .wait => { p with wait := true }
        | .ok s2 t => moveUnits f c r { p with s := s2, done := i + 8, wct := max p.wct t }

def unitOffsets (n : Nat) : List Nat := (List.range (n / 8)).map (fun k => 8 * k)

/-- The units an engine moves in one go: at most `n` more after the first `from_` bytes, or all (n = 0). -/
def nextUnits (bytes from_ n : Nat) : List Nat :=
  let l := (unitOffsets bytes).drop (from_ / 8)
  if n = 0 then l else l.take n

/-- R142: an engine command follows the group's earlier stores, atomics and acquires. -/
def engineTurn (s : State) (f : Flight) : Bool :=
  !acquiring s f.gid f.word &&
    s.pend.all (fun o => o.gid != f.gid || !decide (o.word < f.word) || (match o.op with
      | .store .. => false | .atomic .. => false | _ => true)) &&
    (match getG s f.gid with | some g => g.wcb.all (fun e => decide (f.word ≤ e.id)) | none => true)

/-- Run a copy with one source and one destination range on from where it stands, for at most `n` units (0: for all); its own marks
do not hold it, and it marks on the lines it has yet to write (R106). -/
def runCopy (s : State) (f : Flight) (c : Copy) (n : Nat) : Prog :=
  moveUnits f c (nextUnits c.bytes c.at_ n) { s := dropMarks s c.marks, done := c.at_, wct := c.wct }

/-- The marks of lines a copy has yet to write. -/
def marksLeft (c : Copy) (done : Nat) : List (Nat × Nat) := c.marks.filter (fun q => decide (done < q.2))

/-- A kept fault takes its place: tower faults in tower order, one for each tower, where a later fault of a tower replaces an earlier one
as its resume state does (R370, R486; DESIGN CHOICE, log entry 103); at most four far-atomic notices, a fifth counted in index [31:16] of
the last (R492). -/
def keepDue (l : List Due) (d : Due) : List Due :=
  match d.cls with
  | .tower =>
    let rest := l.filter (fun e => !(e.cls == .tower && e.info.unit == d.info.unit))
    rest.takeWhile (fun e => !(e.cls == .tower && decide (d.info.unit < e.info.unit))) ++ [d] ++
      rest.dropWhile (fun e => !(e.cls == .tower && decide (d.info.unit < e.info.unit)))
  | .far =>
    let fars := l.filter (fun e => e.cls == .far)
    match fars.getLast? with
    | some z =>
      if fars.length < 4 then l ++ [d]
      else
        let n := min (fld z.info.index 16 16 + 1) 65535
        let z1 := { z with info := { z.info with index := setFld z.info.index 16 16 n } }
        (replaceFirst (fun e => e == z) (fun _ => z1) l.reverse).reverse
    | none => l ++ [d]
  | _ => l ++ [d]

/-- The record of a kept fault when its group has gone, in the terms of R495: tower and command index, tower and lane, or a copy's byte
offset. -/
def goneFault (d : Due) (code : Nat) : FInfo :=
  { cls := 0x1D, code := code, eng := d.info.eng, unit := if code = 5 then 0 else d.info.unit, index := if code = 5 then d.info.index else d.key }

/-- Keep an engine's fault for the group's waiting word (R447), or report it to the service when the group has gone (R495). -/
def addDue (s : State) (f : Flight) (d : Due) (service : Nat) : State :=
  match getG s f.gid with
  | some g => putG s { g with due := keepDue g.due d }
  | none => serviceRecord s f.ctx (goneFault d service) 0

/-- The lehr slot of a copy is filled, with the copy's completion time where it has one (R324, R325). -/
def fillSlot (s : State) (c : Copy) (time : Nat) : State :=
  match c.slot with
  | none => s
  | some (tid, h, k) => match getT s tid with | some t => putLehr s 0 (lehrFill t h k time) h | none => s

/-- The slot is faulted (R480). -/
def faultSlot (s : State) (c : Copy) (time : Nat) (e : FInfo) : State :=
  match c.slot with
  | none => s
  | some (tid, h, k) => match getT s tid with | some t => putLehr s 0 (lehrFaultSlot t h k time e) h | none => s

/-- Whole lines of a local destination that a copy has delivered, and those it has not. -/
def splitLines (dst n done : Nat) : List Nat × List Nat :=
  let ls := linesOf dst n
  (ls.filter (fun k => decide (min ((k + 1) * 128) (dst + n) ≤ dst + done)),
   ls.filter (fun k => !decide (min ((k + 1) * 128) (dst + n) ≤ dst + done)))

/-- The lines of a destination that a copy has completed between two points: they become present (R95). -/
def linesBetween (dst n from_ upto : Nat) : List Nat :=
  let old := (splitLines dst n from_).1
  (splitLines dst n upto).1.filter (fun k => !old.contains k)

/-- The presence bits of a copy's destination once it has come this far (R95). -/
def landLines (s : State) (c : Copy) (done : Nat) : State :=
  match c.kind, getT s c.team with
  | .cin, some t => putT s (setLines t (linesBetween c.dst c.bytes c.at_ done))
  | _, _ => s

/-- A copy that stands at a unit keeps what it has delivered, and asks for the walk it needs (R124). -/
def pauseCopy (p : Prog) (f : Flight) (c : Copy) : State :=
  let s1 := addMarks (landLines p.s c p.done) (marksLeft c p.done)
  let f1 := { f with op := .copy { c with at_ := p.done, wct := p.wct, marks := marksLeft c p.done } }
  match p.walk with
  | some g => flightWalk (putF s1 f1) f1 f.core g
  | none => putF s1 f1

/-- COPY_COMPLETE: the engine moves up to `run.units` units (0: all that are left), keeping what it delivered where a unit must wait; with every
unit delivered the copy ends (R324, R325). -/
def execCopyComplete (run : CopyRun) (s : State) : Host.Outcome State Fault Refusal :=
  .next (match getF s run.id with
    | some f => match f.op with
      | .copy c =>
        if (c.kind = .cin ∨ c.kind = .cout ∨ c.kind = .cg) ∧ engineTurn s f then
          let p := runCopy s f c run.units
          if p.wait ∨ p.bad.isSome ∨ p.done ≠ c.bytes then pauseCopy p f c
          else
            let s1 := landLines p.s c p.done
            dropF (fillSlot (if c.kind = .cin then s1 else feedWct s1 f.gid p.wct) c p.wct) run.id
        else s
      | _ => s
    | none => s)

/-- The team a halo reads from, while it has not retired (R483). -/
def haloSource (s : State) (f : Flight) (c : Copy) : Option Team :=
  match getT s c.team with
  | none => none
  | some t => s.teams.find? (fun u => u.ctx == f.ctx && u.grid == t.grid && u.cluster == t.cluster && !u.task && !u.retired &&
      u.tidx == (haloDec c.desc).team)

/-- Is the phase a halo waits for over (R327)? -/
def haloPhase (s : State) (c : Copy) : Bool :=
  match getT s c.team with
  | none => true
  | some t => match getCl s t.ctx t.grid t.cluster with | some k => decide (c.phase < (cbarOf k c.k).2.2) | none => true

/-- The lines of a halo's destination whose units have all been written once `done` bytes have. -/
def haloDone (h : Halo) (done : Nat) : List Nat :=
  let left := ((haloUnits h).drop (done / 8)).map (fun p => p.2 / 128)
  (haloLines h).filter (fun k => !left.contains k)

/-- The units a halo's engine may move now: those before the first whose source line is absent, at most `n` (0: no such bound). -/
def haloNext (u : Team) (h : Halo) (from_ n : Nat) : List (Nat × Nat) :=
  let l := (haloUnits h).drop (from_ / 8)
  (if n = 0 then l else l.take n).takeWhile (fun p => (absentLine u p.1 8).isNone)

/-- A halo's team once these units have been written, and how far the copy has come. -/
def haloMove (t u : Team) (h : Halo) (from_ : Nat) (units : List (Nat × Nat)) : Team × Nat :=
  let done := from_ + 8 * units.length
  let old := haloDone h from_
  (setLines (lwr t (units.flatMap (fun p => at_ p.2 (lrd u p.1 8)))) ((haloDone h done).filter (fun k => !old.contains k)), done)

/-- HALO_SOURCE_READ: after the phase the source rows are read and the destination rows written, up to `run.units` units of them (0: all), as
far as the source is present (R95, R327). -/
def execHaloSourceRead (run : CopyRun) (s : State) : Host.Outcome State Fault Refusal :=
  .next (match getF s run.id with
    | some f => match f.op with
      | .copy c =>
        if c.kind = .halo ∧ engineTurn s f ∧ haloPhase s c then
          match haloSource s f c, getT s c.team with
          | some u, some t =>
            let h := haloDec c.desc
            let units := haloNext u h c.at_ run.units
            let (t1, done) := haloMove t u h c.at_ units
            let s1 := wakeLocal (putT s t1) t.tid 0 (units.map (fun p => p.2))
            if done = c.bytes then dropF s1 run.id else putF s1 { f with op := .copy { c with at_ := done } }
          | _, _ => s
        else s
      | _ => s
    | none => s)

/-! Delivering a multicast: one source read that every receiver shares (R482). -/

/-- Read on the shared source, up to `n` units (0: all that are left). -/
def mcReadUnits (f : Flight) : List Nat → State × Copy × Option Nat → State × Copy × Option Nat
  | [], p => p
  | i :: r, (s, c, _) =>
    match readUnit s f c.srcLocal c.team c.src i with
    | .wait => (s, c, none)
    | .walk g => (s, c, some g)
    | .bad e => (s, { c with srcBad := some e }, none)
    | .ok l pa => mcReadUnits f r (unitTouch s f c.hint pa, { c with data := c.data ++ l }, none)

def mcRead (s : State) (f : Flight) (c : Copy) (n : Nat) : State × Copy × Option Nat :=
  if c.srcBad.isSome then (s, c, none) else mcReadUnits f (nextUnits c.bytes c.data.length n) (s, c, none)

/-- A receiver no longer owes anything to a multicast. -/
def mcServed (c : Copy) (m : Nat) : Copy := { c with recv := c.recv.filter (fun r => r.team != m) }
def mcFailed (c : Copy) (m : Nat) (e : FInfo) : Copy := { mcServed c m with failed := c.failed ++ [(m, e)] }

/-- A receiver's own fault: its reserved slot is faulted, and the multicast has no more to do there (R480, R482). -/
def mcRefuse (s : State) (c : Copy) (u : Team) (r : McRecv) (k : Nat) (e : FInfo) : State × Copy :=
  (putLehr s 0 (lehrFaultSlot { u with inbound := u.inbound - 1 } c.dst k 0 { e with unit := k }) c.dst, mcFailed c r.team { e with unit := k })

/-- Take the bytes read so far to a receiver whose slot is reserved (R328, R480, R482): whole lines become present, the slot is filled when
every byte is, and faulted where the source has stopped or the slot cannot take them. -/
def mcLand (s : State) (c : Copy) (u : Team) (r : McRecv) (k : Nat) : State × Copy :=
  let h := c.dst
  let d := slotAddr h (lehrRead u h) k
  let done := c.data.length
  if mcSlotBad u h k c.bytes then mcRefuse s c u r k (copyInfo 2 d 0) else
  let s1 := landLocal s u (d + r.at_) (c.data.drop r.at_)
  let u1 := (getT s1 u.tid).getD u
  let u2 := setLines u1 (linesBetween d c.bytes r.at_ done)
  let free := { u2 with inbound := u2.inbound - 1 }
  if done = c.bytes then (putLehr s1 0 (lehrFill free h k 0) h, mcServed c r.team)
  else match c.srcBad with
    | some e =>
      (faultLines (putLehr s1 0 (lehrFaultSlot free h k 0 { e with unit := k }) h) u.tid (splitLines d c.bytes done).2 done, mcFailed c r.team e)
    | none => (putT s1 u2, { c with recv := replaceFirst (fun q => q.team == r.team) (fun _ => { r with at_ := done }) c.recv })

/-- Serve a receiver: reserve its slot where that is still to be done, then take the bytes there. A header in a faulted range faults the slot
that is next (R481, R482). -/
def mcServe (s : State) (c : Copy) (u : Team) (r : McRecv) : State × Copy :=
  let h := c.dst
  match r.slot with
  | some k => mcLand s c u r k
  | none =>
    match headerCheck u h with
    | some (.inl e) =>
      if e.cls ≠ 0x10 then (putT s { u with inbound := u.inbound - 1 }, mcFailed c r.team (copyInfo 2 h 0))
      else if lehrFull u h then (s, c)
      else
        let (u1, k) := lehrReserve u h
        mcRefuse s c { u1 with mcOwner := fput 0 (h * 64 + k) (c.team + 1) u1.mcOwner } r k e
    | some (.inr _) => (s, c)
    | none =>
      if lehrFull u h then (s, c)
      else
        let (u1, k) := mcReserve u h c.bytes c.team
        mcLand (putLehr s 0 u1 h) c u1 { r with slot := some k } k

/-- The lowest receiver that a multicast failed, with its fault (R482). -/
def lowestFailed (l : List (Nat × FInfo)) : Option (Nat × FInfo) :=
  l.foldl (fun a p => match a with | none => some p | some q => if p.1 < q.1 then some p else some q) none

/-- A multicast with no receiver left ends, raising its fault once, naming the lowest receiver whose slot faulted (R482). -/
def endMc (s : State) (f : Flight) (c : Copy) : State :=
  if c.recv.isEmpty then
    match lowestFailed c.failed with
    | none => dropF s f.id
    | some (m, e) =>
      if e.cls = 0x19 then machineCheck (dropF s f.id) f e.code e.addr 1 m e.index
      else addDue (dropF s f.id) f { cls := .copy, info := { e with unit := m } } 5
  else putF s { f with op := .copy c }

/-- CP_MC_DELIVERY: the engine reads up to `run.units` more units of the source (0: all) and serves one receiver; a retired receiver's bytes are
dropped and reported (R484). -/
def execCpMcDelivery (run : CopyRun) (m : Nat) (s : State) : Host.Outcome State Fault Refusal :=
  .next (match getF s run.id with
    | some f => match f.op with
      | .copy c =>
        match getT s c.team, c.recv.find? (fun r => r.team == m) with
        | some t, some r =>
          if c.kind = .mc ∧ engineTurn s f then
            let lost : FInfo := { cls := 0x1D, code := 1, eng := 1, unit := m, index := r.at_ }
            match s.teams.find? (fun u => u.ctx == f.ctx && u.grid == t.grid && u.cluster == t.cluster && u.tidx == m && !u.task) with
            | none => endMc (serviceRecord s f.ctx lost 0) f (mcServed c m)
            | some u =>
              if u.retired then endMc (serviceRecord (putT s { u with inbound := u.inbound - (if r.counted then 1 else 0) }) f.ctx lost 0) f (mcServed c m)
              else match mcRead s f c run.units with
                | (s1, c1, some g) => flightWalk (putF s1 { f with op := .copy c1 }) { f with op := .copy c1 } f.core g
                | (s1, c1, none) =>
                  let (s2, c2) := mcServe s1 c1 ((getT s1 u.tid).getD u) r
                  endMc (progressed s2 f.ctx) f c2
          else s
        | _, _ => s
      | _ => s
    | none => s)

/-- A faulted copy's record goes to its group's waiting word; data in error is a machine check instead (R447, R458). -/
def copyFailed (s : State) (f : Flight) (e : FInfo) : State :=
  if e.cls = 0x19 then machineCheck s f e.code e.addr 1 e.unit e.index else addDue s f { cls := .copy, info := e } 5

/-- The first unit of a halo that is to move next and finds its source line in a faulted range, with its source offset. -/
def haloStop (u : Team) (h : Halo) (from_ : Nat) : Option Nat :=
  match ((haloUnits h).drop (from_ / 8)).head? with
  | none => none
  | some p => match absentLine u p.1 8 with | some k => if inRange u k then some p.1 else none | none => none

/-- A halo ends with a fault: the lines it has not completed stay absent, in a faulted range (R480, R481). -/
def failHalo (s : State) (f : Flight) (c : Copy) (code addr : Nat) : State :=
  let h := haloDec c.desc
  let ok := haloDone h c.at_
  copyFailed (faultLines (dropF s f.id) c.team ((haloLines h).filter (fun k => !ok.contains k)) c.at_) f (copyInfo code addr c.at_)

/-- COPY_FAULT: a copy stops at its first failing unit, keeping what it delivered (R480). -/
def execCopyFault (id : Nat) (s : State) : Host.Outcome State Fault Refusal :=
  .next (match getF s id with
    | some f => match f.op with
      | .copy c =>
        if c.kind = .halo then
          if engineTurn s f ∧ (getT s c.team).isSome then
            match haloSource s f c with
            | none => failHalo s f c 5 c.src
            | some u => if haloPhase s c then (match haloStop u (haloDec c.desc) c.at_ with | none => s | some a => failHalo s f c 4 a) else s
          else s
        else if c.kind ≠ .mc ∧ engineTurn s f then
          let p := runCopy s f c 0
          match p.bad with
          | some e0 =>
            let e := { e0 with unit := match c.slot with | some (_, _, k) => k | none => 0 }
            let s1 := landLines p.s c p.done
            let s2 := if c.kind = .cin then faultLines s1 c.team (splitLines c.dst c.bytes p.done).2 p.done else feedWct s1 f.gid p.wct
            copyFailed (dropF (faultSlot s2 c p.wct e) id) f e
          | none => s
        else s
      | _ => s
    | none => s)

/-! Cache control (R330). -/

/-- The physical 128-byte lines of a range, where its group's translations give them the rd right, with the page's read-mostly mark. -/
def physLines (s : State) (g : Group) (a n : Nat) : List (Nat × Bool) :=
  (linesOf a n).filterMap (fun k => match wordXlat s g (k * 128) 1 with
    | .inl (.ok p m) => if k * 128 < 2 ^ 57 then some (p / 128, m) else none
    | _ => none)

/-- A hint: what cannot be translated, may not be read or is in error is skipped (R330). With .na or .by a prefetch to the L1 fills the L1 under
a lease and leaves the L2 as it is: DESIGN CHOICE (log entry 102). -/
def execCcPrf (w : SWord) (s : State) : Host.Outcome State Fault Refusal :=
  runWord (.ccPrf w) 0 false s (fun s x =>
    let a := (rs x.g w.a.toNat).toNat
    let n := (srcB x.g w).toNat
    let hint := fld w.f7.toNat 1 2
    match rangeMiss s x.g a n 1 with
    | some p => .park (startWalk s x.g p) (.walk p)
    | none => .ok (clearWalks ((physLines s x.g a n).foldl (fun s p =>
      if !homeReady s (p.1 * 128) ∨ (accessCheck s x.g.ctx 0 (p.1 * 128) 128 1).isSome ∨
        (badAt s ((List.range 128).map (fun k => p.1 * 128 + k))).isSome then s
      else
        let s1 := homeTouch s x.g.ctx hint (p.1 * 128)
        if w.f7.getLsbD 0 ∧ !isCxl (p.1 * 128) then l1Install s1 x.g.core p.1 p.2 else s1) s) x.g.gid))

/-- The fate of a range at the word: its addresses, and of the pages that fail the first with the lowest code (R330, R463). -/
def ccCheck (s : State) (x : Issue) (a n : Nat) : Option (FInfo ⊕ Nat) :=
  if 2 ^ 57 < a + n then some (.inl { cls := 6, code := 1, addr := a })
  else match rangeMiss s x.g a n 1 with
    | some p => some (.inr p)
    | none => (lowestCode ((piecesOf a n).filterMap (fun v => match wordXlat s x.g v 1 with
      | .inl (.bad c i) => some ({ cls := 7, code := c, addr := if v < a then a else v, index := i } : FInfo)
      | _ => none))).map .inl

/-- A range word: check, then act. -/
def ccWord (i : Instr) (w : SWord) (s : State) (f : State → Issue → List (Nat × Bool) → State) : Host.Outcome State Fault Refusal :=
  runWord i 0 false s (fun s x =>
    let a := (rs x.g w.a.toNat).toNat
    let n := (srcB x.g w).toNat
    if n = 0 then .ok s
    else match ccCheck s x a n with
    | some (.inl e) => .bad (clearWalks s x.g.gid) e
    | some (.inr p) => .park (startWalk s x.g p) (.walk p)
    | none => .ok (f (clearWalks s x.g.gid) x (physLines s x.g a n)))

/-- Write the dirty sectors of a line back and keep them clean; with .hbm the LLC writes them on (R330). -/
def writeBackLine (s : State) (x : Issue) (hbm : Bool) (line sector : Nat) : State :=
  let bit := 1#8 <<< sector
  let dirty := match l2Find s line with | some c => c.dirty.getLsbD sector | none => false
  let s1 := if dirty then
      let clean (c : CLine) : CLine := { c with dirty := c.dirty &&& ~~~bit }
      let s2 := { s with l2 := replaceFirst (fun c => c.line == line) clean s.l2 }
      if isCxl (line * 1024) then
        let bytes := (List.range 128).map (fun i => (line * 1024 + 128 * sector + i, rdByte s (line * 1024 + 128 * sector + i)))
        launchOp { s2 with cxlMem := fputs 0#8 bytes s2.cxlMem } x.g.gid x.g.ctx x.g.core .copy (.cxlWrite line)
      else launchOp (llcPut s2 line bit bit) x.g.gid x.g.ctx x.g.core .copy (.writeBack line)
    else s
  if hbm then
    let clean (c : CLine) : CLine := { c with dirty := c.dirty &&& ~~~bit }
    { s1 with llc := replaceFirst (fun c => c.line == line) clean s1.llc }
  else s1

def execCcWb (w : SWord) (s : State) : Host.Outcome State Fault Refusal :=
  ccWord (.ccWb w) w s (fun s x l => l.foldl (fun s p => writeBackLine s x (w.f7.getLsbD 0) (p.1 / 8) (p.1 % 8)) s)
def execCcInv (w : SWord) (s : State) : Host.Outcome State Fault Refusal :=
  ccWord (.ccInv w) w s (fun s x l => l.foldl (fun s p => l1Drop s x.g.core p.1) (drainWcb s x.g.gid))
def execCcWays (w : SWord) (s : State) : Host.Outcome State Fault Refusal :=
  runWord (.ccWays w) 0 false s (fun s x =>
    let v := (rs x.g w.a.toNat).toNat
    if 2 ^ 16 ≤ v then badW s 0x0F 8 0 0
    else match getC s x.g.ctx with
      | none => .ok s
      | some c => .ok (putC s { c with ways := fput 0xF000 (dieOfCore x.g.core) v c.ways }))

end Sys2Proof.Machine
end

