-- ==== Sys2Proof/Machine/Matrix.lean ====
section
/-! DEFINITION. The matrix words, the pontil, parisons and the punty (R85, R86, R166, R167, R200, R201, R332 to R352), and the
events of the brick arrays. -/

namespace Sys2Proof.Machine

/-! Pairings (R335, R336). -/

/-- A pairing: integer or float, element code, bits of an A and of a B element, depth K, signedness of A and B. -/
structure Pairing where
  int : Bool
  el : Nat
  sa : Nat
  sb : Nat
  k : Nat
  sgA : Bool
  sgB : Bool
  deriving DecidableEq, Repr

/-- The pairing of a slot's element with width codes; none when R335 has no row for it. -/
def pairing (el wa wb : Nat) (mix : Bool) : Option Pairing :=
  let fl (c sz k : Nat) : Option Pairing := if wa = c ∧ wb = c then some ⟨false, el, sz, sz, k, false, false⟩ else none
  match el with
  | 1 => fl 3 16 1
  | 2 => fl 2 16 1
  | 3 => fl 1 8 4
  | 4 => fl 1 8 4
  | 5 => fl 0 8 8
  | _ =>
    if 6 ≤ el ∧ el ≤ 13 then
      let sa := 2 ^ (wa + 1)
      let sb := 2 ^ (wb + 1)
      let p := (sa / 2) * (sb / 2)
      let sg := decide (el ≤ 9)
      some ⟨true, el, sa, sb, if p ≤ 16 then 16 / p else 1, sg, sg != mix⟩
    else none

/-- Bytes of B (R337). -/
def bBytes (p : Pairing) (scale : Bool) : Nat := p.k * 8 * p.sb + (if scale then 64 else 0)

/-- The operand checks of a pass word, lowest code first (R463). -/
def passBad (g : Group) (w : XWord) (mmaf : Bool) (t : Option Slot16) (hi : Nat) : Option FInfo :=
  let k := w.slot.toNat
  let bad (c i : Nat) : Option FInfo := some { cls := 0x12, code := c, index := i }
  if g.accN ≤ w.tile.toNat then bad 1 w.tile.toNat
  else match t with
    | none => bad 3 k
    | some t => match pairing t.el w.wa.toNat w.wb.toNat w.mix with
      | none => bad 3 k
      | some p =>
        if !p.int ∧ (w.sat ∨ w.mix) then bad 4 k
        else if t.scale ∧ (p.el = 5 ∨ t.block < p.k) then bad 5 k
        else if mmaf ∧ (hi ≠ 0 ∨ !([2, 3, 4].contains p.el)) then bad 6 k
        else none

/-- The local address of a matrix word: s[base][19:0] + off (R338, R345). -/
def mxAddr (g : Group) (w : XWord) : Nat := fld (rs g w.base.toNat).toNat 0 20 + w.off.toNat

/-- The local-address fate of n bytes there, lowest code first (R337, R345). -/
def mxAddrBad (t : Team) (base a align n : Nat) : Option FInfo :=
  if stackHit t a n then some { cls := 5, code := 2, addr := a }
  else if base / 2 ^ 20 ≠ 0 then some { cls := 5, code := 4, addr := base }
  else if a % align ≠ 0 ∨ lmSize t < a + n then some { cls := 5, code := 5, addr := a }
  else none

/-- A line of a faulted range among those a matrix word reads (R481). -/
def mxFaulted (t : Team) (a n : Nat) : Option FInfo :=
  if (linesOf a n).any (fun k => isAbsent t k && inRange t k) then some { cls := 0x10, code := 4, addr := a, eng := 1 } else none

/-! Fusion (R344). -/

/-- The raw contents of a group's format slot. -/
def rawSlot (s : State) (g : Group) (k : Nat) : Nat × Nat :=
  match getGrid s g.ctx g.grid with
  | some r => (le r.lrec (128 + 16 * k) 8, le r.lrec (136 + 16 * k) 8)
  | none => (0, 0)

/-- Do two pass words meet the first three conditions of R344? -/
def passMeet (s : State) (g : Group) (p : Pass) (h : Group) (q : Pass) : Bool :=
  p.mmaf == q.mmaf && p.wa == q.wa && p.wb == q.wb && p.mix == q.mix && p.sat == q.sat && rawSlot s g p.slot == rawSlot s h q.slot &&
    (if p.mmaf then p.seed == q.seed && p.table == q.table && p.row0 == q.row0 && p.col0 == q.col0
     else p.team == q.team && p.baddr == q.baddr)

/-- May a word of the group join a window: its words meet the conditions, and a holder of the pontil fuses only with itself
(R85). -/
def windowMeet (s : State) (g : Group) (p : Pass) (wid : Nat) : Bool :=
  s.pend.all (fun f => match f.op with
    | .pass q none => q.window != wid ||
        ((match getG s f.gid with | some h => passMeet s g p h q | none => false) &&
          ((getPart s g.core g.part).pontil.isNone || f.gid == g.gid))
    | _ => true)

/-- The open windows of a partition, oldest first, with their rows. -/
def openWindows (s : State) (core part : Nat) : List (Nat × Nat) :=
  s.pend.filterMap (fun f => match f.op with
    | .window c p rows _ false => if c = core ∧ p = part then some (f.id, rows) else none
    | _ => none)

/-- A window's pass starts as soon as its B lines are present. -/
def closeWindow (s : State) (id : Nat) : State :=
  match getF s id with
  | some f => match f.op with
    | .window c p rows o _ => putF s { f with op := .window c p rows o true }
    | _ => s
  | none => s

/-- A pass word enters a window with its rows (R344). -/
def enterWindow (s : State) (g : Group) (rows : Nat) (p : Pass) : State :=
  let ws := openWindows s g.core g.part
  let fresh (s : State) : State :=
    let id := s.nextId
    launchOp (launchOp s 0 g.ctx g.core .none (.window g.core g.part rows s.time (decide (rows = 64)))) g.gid g.ctx g.core .tiles
      (.pass { p with window := id } none)
  match ws.find? (fun w => windowMeet s g p w.1 && decide (w.2 + rows ≤ 64)) with
  | some (id, r) =>
    let up (f : Flight) : Flight := match f.op with
      | .window c q _ o _ => { f with op := .window c q (r + rows) o (decide (r + rows = 64)) }
      | _ => f
    launchOp { s with pend := replaceFirst (fun f => f.id == id) up s.pend } g.gid g.ctx g.core .tiles
      (.pass { p with window := id } none)
  | none =>
    match ws.find? (fun w => windowMeet s g p w.1) with
    | some (id, _) => fresh (closeWindow s id)
    | none => match ws with
      | (id, _) :: _ => if 4 ≤ ws.length then fresh (closeWindow s id) else fresh s
      | [] => fresh s

/-- The octets with an active lane (R339). -/
def octets (act : W64) (width : Nat) : Nat :=
  ((List.range (width / 8)).filter (fun o => (List.range 8).any (fun i => act.getLsbD (8 * o + i)))).length

/-- A pass word (R338 to R344). With no active lane it still meets the check of its local address, which is the word's own, but not that of
an absent line in a faulted range, which is shared state (R339, R463 step 6): DESIGN CHOICE (log entry 113). -/
def passWord (i : Instr) (w : XWord) (mmaf : Bool) (s : State) : Host.Outcome State Fault Refusal :=
  runWord i w.msel.toNat false s (fun s x =>
    let g := x.g
    let base := (rs g w.base.toNat).toNat
    let t := gridSlot s g w.slot.toNat
    match passBad g w mmaf t (base / 2 ^ 32), t, teamOf s g with
    | some f, _, _ => .bad s f
    | none, some t, some tm =>
      match pairing t.el w.wa.toNat w.wb.toNat w.mix with
      | none => .ok s
      | some pr =>
        let n := bBytes pr t.scale
        let a := mxAddr g w
        let rows := 8 * octets x.active g.width
        let held : Option FInfo := match (getPart s g.core g.part).pontil with
          | some h => if h = g.gid then none
              else some { cls := 0x13, code := 1, index := match getG s h with | some o => o.num | none => 0 }
          | none => none
        match firstFault [if mmaf then none else mxAddrBad tm base a 16 n,
                          if mmaf ∨ rows = 0 then none else mxFaulted tm a n, if rows = 0 then none else held] with
        | some f => .bad s f
        | none =>
          let code := w.a.toNat
          let val := match g.latch with
            | some (c, l) => if c = code then l else (List.range g.width).map (rv g code)
            | none => (List.range g.width).map (rv g code)
          let g1 := { g with latch := if w.bit4 then some (code, val) else none }
          let s1 := putG s g1
          if rows = 0 then .ok s1
          else .ok (enterWindow s1 g1 rows
            { mmaf := mmaf, tile := tileLoc g w.tile.toNat,
              lanes := (lanesOf x.active).map (fun l => (l, val.getD l 0#64)), team := tm.tid,
              baddr := if mmaf then 0 else a, slot := w.slot.toNat, wa := w.wa.toNat, wb := w.wb.toNat, sat := w.sat, mix := w.mix,
              seed := g.seed, table := g.table, row0 := fld base 0 16, col0 := fld base 16 16, window := 0 })
    | _, _, _ => .ok s)

def execMxMma (w : XWord) (s : State) : Host.Outcome State Fault Refusal := passWord (.mxMma w) w false s
def execMxMmaf (w : XWord) (s : State) : Host.Outcome State Fault Refusal := passWord (.mxMmaf w) w true s

/-! A pass's arithmetic (R200, R201). -/

/-- A generated element (R167), a b16 pattern. -/
def punty (seed : BitVec 32) (table : FMap (BitVec 16)) (i j : Nat) : Nat :=
  let x0 := seed.toNat ^^^ ((i % 65536) * 65536 + j % 65536)
  let x1 := x0 * 0x2C1B3C6D % 2 ^ 32
  let x2 := x1 ^^^ (x1 >>> 15)
  let x3 := x2 * 0x297A2D39 % 2 ^ 32
  (fget 0#16 (x3 >>> 28) table).toNat ^^^ (if x3.testBit 27 then 0x8000 else 0)

/-- The exact value of an lg6 product, whose logarithms add (R193). -/
def mulLg (x y : Nat) : FV :=
  let a := x % 64
  let b := y % 64
  if a = 48 ∨ b = 48 then .nan false false 0
  else if a = 16 ∨ b = 16 then .num false 0 0
  else
    let l := toS 5 a + toS 5 b
    .num (a.testBit 5 != b.testBit 5) (lgT (l % 4).toNat) (l / 4 - 8)

/-- The exact product of two elements, and whether it is 0 x infinity. -/
def passProd (p : Pairing) (ftz : Bool) (x y : Nat) : FV × Bool :=
  if p.int then
    (intFV ((if p.sgA then toS p.sa x else (x % 2 ^ p.sa : Nat)) * (if p.sgB then toS p.sb y else (y % 2 ^ p.sb : Nat))), false)
  else if p.el = 5 then (mulLg x y, false)
  else
    let f := fmtTy (elTy p.el)
    let a := decF f ftz x
    let b := decF f ftz y
    if a.isNan ∨ b.isNan then (.nan false false 0, false)
    else if (a.isZero ∧ b.isInf) ∨ (a.isInf ∧ b.isZero) then (.nan false false 0, true)
    else if a.isInf ∨ b.isInf then (.inf (a.neg != b.neg), false)
    else (mulFV a b, false)

/-- A product scaled by 2^(Ea - 127) x 2^(Eb - 127); a scale of 255 is a NaN (R197, R200). -/
def scaleProd (ea eb : Nat) (v : FV) : FV :=
  if ea = 255 ∨ eb = 255 then .nan false false 0
  else match v with
    | .num n m e => .num n m (e + ea + eb - 254)
    | v => v

/-- The new tile value and flags of a float or scaled pass: the special-value rules in order, then one exact sum rounded once
(R200). -/
def combineF (ftz : Bool) (old : Nat) (terms : List (FV × Bool)) : Nat × Nat :=
  let o := decF fmtF32 ftz old
  let infs := ((o :: terms.map Prod.fst).filter FV.isInf).map FV.neg
  let inv := terms.any Prod.snd || (infs.contains true && infs.contains false)
  if o.isNan then (match o with | .nan n _ p => encNan fmtF32 n p | _ => defNan fmtF32, 0)
  else if inv then (defNan fmtF32, 16)
  else if terms.any (fun t => t.1.isNan) then (defNan fmtF32, 0)
  else match infs with
    | n :: _ => (infPat fmtF32 n, 0)
    | [] =>
      let r := encF fmtF32 { ftz := ftz } (sumFV 0 (o :: terms.map Prod.fst))
      (r.1, r.2 &&& 20)

/-- An unscaled integer pass: the sum modulo 2^32, or clamped once (R200). -/
def combineI (sat : Bool) (old : Nat) (sum : Int) : Nat :=
  let t := toS 32 old + sum
  wrap 32 (if sat then clampI (-(2 ^ 31)) (2 ^ 31 - 1) t else t)

/-- Element (k, n) of B: local bytes read as one number, or generated and converted to the slot's format (R337, R343). -/
def bElem (p : Pass) (pr : Pairing) (b : Nat) (k n : Nat) : Nat :=
  if p.mmaf then
    let f := punty p.seed p.table (p.row0 + k) (p.col0 + n)
    if pr.el = 2 then f else (convTy (elTy pr.el) 9 { ovf := 1 } f).1
  else fld b (k * 64 * pr.sb + n * pr.sb) pr.sb

/-- One tile value after a pass, with the flags it raises. -/
def passCell (t : Slot16) (p : Pass) (pr : Pairing) (b : Nat) (a : W64) (old : Nat) (n : Nat) : Nat × Nat :=
  let xs := (List.range pr.k).map (fun k => (fld a.toNat (k * pr.sa) pr.sa, bElem p pr b k n))
  let prods := xs.map (fun x => passProd pr t.ftz x.1 x.2)
  if pr.int ∧ !t.scale then
    (combineI (p.sat || decide (t.ovf = 1)) old
      (prods.foldl (fun a v => a + (termOf v.1).1) 0), 0)
  else
    let ea := fld a.toNat 56 8
    let eb := if p.mmaf then 127 else fld b (8 * (pr.k * 8 * pr.sb + n)) 8
    combineF t.ftz old (if t.scale then prods.map (fun v => (scaleProd ea eb v.1, v.2)) else prods)

/-- A pass's rows written for its group, and the flags. -/
def passRows (t : Slot16) (p : Pass) (pr : Pairing) (b : Nat) (g : Group) : Group :=
  p.lanes.foldl (fun g la =>
    (List.range 64).foldl (fun g n =>
      let r := passCell t p pr b la.2 (locGet g p.tile la.1 n).toNat n
      raiseFlags (locPut g p.tile la.1 n (BitVec.ofNat 32 r.1)) (BitVec.ofNat 5 r.2)) g) g

/-! The order of a group's matrix words on a tile (R334). -/

/-- Has every earlier matrix word of the group on these places taken effect? -/
def tileTurn (s : State) (f : Flight) : Bool :=
  s.pend.all (fun o => o.gid != f.gid || !decide (o.id < f.id) || (locTouches o.op).all (fun l => !(locTouches f.op).contains l))

/-- Rows set from a tile, a parison or zero. -/
def setRows (g : Group) (pairs : List (Nat × Option Nat)) (lanes : List Nat) : Group :=
  pairs.foldl (fun h p => lanes.foldl (fun h l => (List.range 64).foldl (fun h c =>
    locPut h p.1 l c (match p.2 with | some q => locGet g q l c | none => 0#32)) h) h) g

/-- Perform the group's waiting `mx.zero`, `sp.open` and `sp.keep` whose turn has come. -/
def settleTiles (s : State) (gid : Nat) : State :=
  (s.pend.filter (fun f => f.gid == gid)).foldl (fun s f =>
    match f.op, getG s gid with
    | .tileSet pairs lanes, some g => if tileTurn s f then dropF (putG s (setRows g pairs lanes)) f.id else s
    | _, _ => s) s

/-- Keep a matrix word's fault for the first word that waits for its tile (R447). -/
def tileFault (s : State) (f : Flight) (loc addr : Nat) : State :=
  settleTiles (addDue (dropF s f.id) f { cls := .tiles, info := { cls := 0x10, code := 4, addr := addr, eng := 1 }, tile := some loc } 5)
    f.gid

/-! Events. -/

/-- FUSION_WINDOW_TIMEOUT: four core clocks (8/3 ns) after a window opened, its pass starts (R344). -/
def execFusionWindowTimeout (id : Nat) (s : State) : Host.Outcome State Fault Refusal :=
  .next (match getF s id with
    | some f => match f.op with
      | .window _ _ _ o false => if 8 ≤ 3 * (s.time - o) then closeWindow s id else s
      | _ => s
    | none => s)

/-- The pass words of a window that have not read B. -/
def windowPasses (s : State) (id : Nat) : List (Flight × Pass) :=
  s.pend.filterMap (fun f => match f.op with
    | .pass p none => if p.window = id then some (f, p) else none
    | _ => none)

/-- The B bytes of a pass: their local range. -/
def bRange (s : State) (f : Flight) (p : Pass) : Nat :=
  match getG s f.gid with
  | some g => match gridSlot s g p.slot with
    | some t => match pairing t.el p.wa p.wb p.mix with | some pr => bBytes pr t.scale | none => 0
    | none => 0
  | none => 0

/-- MATRIX_PASS_START: a started window reads B once its lines are present (R341, R342). -/
def execMatrixPassStart (id : Nat) (s : State) : Host.Outcome State Fault Refusal :=
  .next (match getF s id, windowPasses s id with
    | some f, (f0, p) :: r =>
      match f.op with
      | .window _ _ _ _ true =>
        let ps := (f0, p) :: r
        let give (b : List Byte) : State :=
          let set (o : Flight) : Flight := match o.op with
            | .pass q none => if q.window = id then { o with op := .pass q (some b) } else o
            | _ => o
          dropF { s with pend := s.pend.map set } id
        if p.mmaf then give []
        else match getT s p.team with
          | none => s
          | some t =>
            let n := bRange s f0 p
            if (mxFaulted t p.baddr n).isSome then ps.foldl (fun s q => tileFault s q.1 q.2.tile p.baddr) (dropF s id)
            else if (absentLine t p.baddr n).isSome then s
            else give (lrd t p.baddr n)
      | _ => s
    | some f, [] => (match f.op with | .window _ _ _ _ true => dropF s id | _ => s)
    | none, _ => s)

/-- MATRIX_PASS_WRITEBACK: a pass word's rows are written to its group's tile or parison, with the flags (R200, R341). -/
def execMatrixPassWriteback (id : Nat) (s : State) : Host.Outcome State Fault Refusal :=
  .next (match getF s id with
    | some f => match f.op, getG s f.gid with
      | .pass p (some b), some g =>
        if tileTurn s f then
          let g1 := match gridSlot s g p.slot with
            | some t => (match pairing t.el p.wa p.wb p.mix with
              | some pr => passRows t p pr (ofBytes b) g
              | none => g)
            | none => g
          settleTiles (dropF (putG s g1) id) f.gid
        else s
      | _, _ => s
    | none => s)

/-- The bytes of lane L's row in local memory (R345). -/
def rowBytes (g : Group) (loc lane : Nat) : List Byte :=
  (List.range 64).flatMap (fun c => toBytes 4 (locGet g loc lane c).toNat)

/-- TILE_TRANSFER_COMPLETE: an `mx.ld` or `mx.st` moves its rows at the port (R346). -/
def execTileTransferComplete (id : Nat) (s : State) : Host.Outcome State Fault Refusal :=
  .next (match getF s id with
    | some f => match f.op, getG s f.gid with
      | .tileXfer store loc lanes tid addr, some g =>
        (match getT s tid with
        | none => s
        | some t =>
          let ls := lanes.flatMap (fun l => linesOf (addr + 256 * l) 256)
          if !tileTurn s f then s
          else if ls.any (fun k => isAbsent t k && inRange t k) then tileFault s f loc addr
          else if ls.any (isAbsent t) then s
          else if store then
            let bytes := lanes.flatMap (fun l => at_ (addr + 256 * l) (rowBytes g loc l))
            settleTiles (dropF (wakeLocal (putT s (lwr t bytes)) tid f.gid (bytes.map Prod.fst)) id) f.gid
          else
            let g1 := lanes.foldl (fun g l => (List.range 64).foldl (fun g c =>
              locPut g loc l c (BitVec.ofNat 32 (lrdN t (addr + 256 * l + 4 * c) 4))) g) g
            settleTiles (dropF (putG s g1) id) f.gid)
      | _, _ => s
    | none => s)

/-! Tile words (R345, R346). -/

def tileBad (g : Group) (n : Nat) : Option FInfo :=
  if g.accN ≤ n then some { cls := 0x12, code := 1, index := n } else none

def execMxZero (w : XWord) (s : State) : Host.Outcome State Fault Refusal :=
  runWord (.mxZero w) w.msel.toNat false s (fun s x =>
    match tileBad x.g w.tile.toNat with
    | some f => .bad s f
    | none =>
      let ls := lanesOf x.active
      if ls.isEmpty then .ok s
      else .ok (settleTiles (launchOp s x.g.gid x.g.ctx x.g.core .tiles (.tileSet [(tileLoc x.g w.tile.toNat, none)] ls)) x.g.gid))

/-- `mx.ld` and `mx.st` (R345). With no active lane the word meets the check of its whole local range, but no line of it is asked for (R463
step 6): DESIGN CHOICE (log entry 113). -/
def xferWord (i : Instr) (w : XWord) (store : Bool) (s : State) : Host.Outcome State Fault Refusal :=
  runWord i w.msel.toNat false s (fun s x =>
    let base := (rs x.g w.base.toNat).toNat
    let a := mxAddr x.g w
    match teamOf s x.g with
    | none => .ok s
    | some t =>
      let ls := lanesOf x.active
      match firstFault ([tileBad x.g w.tile.toNat, mxAddrBad t base a 128 (256 * x.g.width)] ++
          ls.map (fun l => (mxFaulted t (a + 256 * l) 256).map (fun f => { f with addr := a }))) with
      | some f => .bad s f
      | none =>
        if ls.isEmpty then .ok s
        else .ok (launchOp s x.g.gid x.g.ctx x.g.core .tiles (.tileXfer store (tileLoc x.g w.tile.toNat) ls t.tid a)))

def execMxLd (w : XWord) (s : State) : Host.Outcome State Fault Refusal := xferWord (.mxLd w) w false s
def execMxSt (w : XWord) (s : State) : Host.Outcome State Fault Refusal := xferWord (.mxSt w) w true s

def execMxWait (w : XWord) (s : State) : Host.Outcome State Fault Refusal :=
  runWord (.mxWait w) 0 false s (fun s x =>
    let n := w.tile.toNat
    match (if w.bit4 then none else tileBad x.g n) with
    | some f => .bad s f
    | none =>
      let locs := if w.bit4 then none else some [n, tileLoc x.g n]
      (waitTiles s x locs (fun m => .park s (.tile locs m))).getD (.ok s))

def execMxRel (w : XWord) (s : State) : Host.Outcome State Fault Refusal :=
  runWord (.mxRel w) 0 false s (fun s x => okG s { x.g with latch := none })

/-! The pontil (R85, R86, R347). -/

/-- Lexicographic order. -/
def lexLt : List Nat → List Nat → Bool
  | a :: r, b :: t => if a < b then true else if b < a then false else lexLt r t
  | [], _ :: _ => true
  | _, [] => false

/-- The place of a slot in the order of R76: urgent first, then priority with the floor last, then the longest without a clause
start, the lower group number, slot A. A slot inside a clause stands at the priority its group had at its last clause start (R263).
"Longest without issuing" among urgent candidates is read as longest without a clause start too:
DESIGN CHOICE (log entry 79). -/
def pickKey (g : Group) (b : Bool) : List Nat :=
  let sl := slotOf g b
  let last := if sl.everStarted then sl.last else g.resident
  let urgent := decide (128 ≤ sl.skip)
  [if urgent then 0 else 1, if urgent then 0 else if sl.floor.isSome then 8 else 7 - min (if sl.started then g.curPrio else g.prio) 7, last, g.num, if b then 1 else 0]

/-- The first slot in the order of R76. -/
def firstSlot (l : List (Group × Bool)) : Option (Group × Bool) :=
  l.foldl (fun a c => match a with
    | none => some c
    | some d => if lexLt (pickKey c.1 c.2) (pickKey d.1 d.2) then some c else some d) none

/-- The pontil is freed: a parked taker receives it in the order of R76 (R86). The groups of a context set aside are not resident and
receive nothing (R87). -/
def pontilFree (s : State) (core part : Nat) : State :=
  let waiting (sl : Slot) : Bool := match sl.park with | some .pontil => true | _ => false
  let here (g : Group) : Bool := g.core == core && g.part == part &&
    (match getC s g.ctx with | some c => (match c.run with | .aside _ => false | _ => true) | none => true)
  let l := (s.groups.filter here).flatMap (fun g =>
    [false, true].filterMap (fun b => if waiting (slotOf g b) then some (g, b) else none))
  putPart s { getPart s core part with pontil := (firstSlot l).map (fun c => c.1.gid) }

def execPlTake (w : XWord) (s : State) : Host.Outcome State Fault Refusal :=
  runWord (.plTake w) 0 false s (fun s x =>
    let p := getPart s x.g.core x.g.part
    match p.pontil with
    | none => .ok (putPart s { p with pontil := some x.g.gid })
    | some h => if h = x.g.gid then .ok s else .park s .pontil)

def execPlPass (w : XWord) (s : State) : Host.Outcome State Fault Refusal :=
  runWord (.plPass w) 0 false s (fun s x =>
    let p := getPart s x.g.core x.g.part
    if p.pontil ≠ some x.g.gid then badW s 0x13 2 0 0
    else match s.groups.find? (fun g => g.team == x.g.team && g.core == x.g.core && g.part == x.g.part && g.num == w.tile.toNat) with
      | none => badW s 0x13 3 0 w.tile.toNat
      | some h => .ok (putPart s { p with pontil := some h.gid }))

def execPlPassFree (w : XWord) (s : State) : Host.Outcome State Fault Refusal :=
  runWord (.plPassFree w) 0 false s (fun s x =>
    if (getPart s x.g.core x.g.part).pontil ≠ some x.g.gid then badW s 0x13 2 0 0
    else .ok (pontilFree s x.g.core x.g.part))

/-! Parisons (R348, R349). -/

/-- Every lane of the group. -/
def allLanes (g : Group) : List Nat := List.range g.width

def execSpOpen (w : SWord) (s : State) : Host.Outcome State Fault Refusal :=
  runWord (.spOpen w) 0 false s (fun s x =>
    let n := imm20 w % 32
    let c := fld (imm20 w) 5 4 + 1
    if x.g.accN < n + c then badW s 0x12 1 0 (n + c - 1)
    else if x.g.parN < c then badW s 0x12 2 0 c
    else if x.g.spec.isSome then badW s 0x12 7 0 0
    else
      let pairs := (List.range c).map (fun k => (32 + k, some (n + k)))
      .ok (settleTiles (launchOp (putG s { x.g with spec := some (n, c) }) x.g.gid x.g.ctx x.g.core .tiles
        (.tileSet pairs (allLanes x.g))) x.g.gid))

def execSpKeep (w : SWord) (s : State) : Host.Outcome State Fault Refusal :=
  runWord (.spKeep w) 0 false s (fun s x =>
    match x.g.spec with
    | none => badW s 0x12 8 0 0
    | some (n, c) =>
      let pairs := (List.range c).map (fun k => (n + k, some (32 + k)))
      .ok (settleTiles (launchOp (putG s { x.g with spec := none }) x.g.gid x.g.ctx x.g.core .tiles
        (.tileSet pairs (allLanes x.g))) x.g.gid))

def execSpDrop (w : SWord) (s : State) : Host.Outcome State Fault Refusal :=
  runWord (.spDrop w) 0 false s (fun s x =>
    if x.g.spec.isNone then badW s 0x12 8 0 0 else okG s { x.g with spec := none })

/-! The punty context (R350 to R352). A pass word keeps the context it issued under, so a context changes at once. -/

/-- A reserved byte of a feedback record that is not zero (R166). -/
def feedbackBad (b : List Byte) : Option Nat :=
  ([4, 5, 6, 7] ++ (List.range 24).map (fun i => 40 + i)).find? (fun i => decide (b.getD i 0#8 ≠ 0#8))

def execFbSet (w : SWord) (s : State) : Host.Outcome State Fault Refusal :=
  runWord (.fbSet w) 0 false s (fun s x =>
    let a := (rs x.g w.a.toNat).toNat
    match laneCheck s x.g 0 a 64 1 1 true 4 with
    | .bad f => .bad (clearWalks s x.g.gid) { f with lane := none }
    | .miss p => .park (startWalk s x.g p) (.walk p)
    | .ok l =>
      match readNow s x.g l.pas with
      | none => .park s (.read l.pas false)
      | some (.inl e) => .bad (clearWalks s x.g.gid) { e with lane := none }
      | some (.inr (s1, b)) =>
        let s2 := clearWalks s1 x.g.gid
        match feedbackBad b with
        | some i => badW s2 0x12 9 a i
        | none =>
          let tab := (List.range 16).foldl (fun m k => fput 0#16 k (BitVec.ofNat 16 (le b (8 + 2 * k) 2)) m) []
          okG s2 { walkDone x.g x.b with seed := BitVec.ofNat 32 (le b 0 4), table := tab })

/-- Entry k against sub-element k mod 4 of lane k div 4 (R352). -/
def tabWord (i : Instr) (w : VWord) (set : Bool) (s : State) : Host.Outcome State Fault Refusal :=
  runWord i w.msel.toNat false s (fun s x =>
    let step (g : Group) (k : Nat) : Group :=
      if !x.active.getLsbD (k / 4) then g
      else
        let e := elem 16 (k % 4) (rv x.g w.a.toNat (k / 4))
        let r := if set then (e, 0) else addF fmtB16 {} false (fget 0#16 k g.table).toNat e
        raiseFlags { g with table := fput 0#16 k (BitVec.ofNat 16 r.1) g.table } (BitVec.ofNat 5 r.2)
    okG s ((List.range 16).foldl step x.g))

def execFbTab (w : VWord) (s : State) : Host.Outcome State Fault Refusal := tabWord (.fbTab w) w false s
def execFbTabSet (w : VWord) (s : State) : Host.Outcome State Fault Refusal := tabWord (.fbTabSet w) w true s

end Sys2Proof.Machine
end

