-- ==== Sys2Proof/Machine/Station.lean ====
section
/-! DEFINITION. Station records and the station words (R151 to R165, R353 to R356), `eb.send` (R169, R170) and error arrivals
(R171, R172, R479, R483, R484, R495). -/

namespace Sys2Proof.Machine

/-! The record (R151 to R154), read at its homes by physical address. -/

def recQ (s : State) (pa off : Nat) : Nat := ofBytes (rdBytes s (pa + off) 8)
def recTiles (s : State) (pa : Nat) : Nat := fld (recQ s pa 0) 0 4 + 1
def recSlots (s : State) (pa : Nat) : Nat := fld (recQ s pa 0) 6 6 + 1
/-- A reserved field of the header is set (R152). -/
def recBad (s : State) (pa : Nat) : Bool :=
  decide (fld (recQ s pa 0) 37 27 ≠ 0) || decide (fld (recQ s pa 0) 4 2 ≠ 0) ||
    (rdBytes s (pa + 8) 56).any (fun b => decide (b ≠ 0#8))
def tileOff (t : Nat) : Nat := 192 + 32 * t
def retOff (k : Nat) : Nat := 704 + 16 * k
def newest (s : State) (pa t : Nat) : Nat := fld (recQ s pa (tileOff t + 24)) 32 1

/-- Changes of a record: (offset, 8-byte value). -/
abbrev RecChange := List (Nat × Nat)

/-- A counter is raised to at least n (R163). -/
def ctrChange (s : State) (pa n : Nat) (c : Option Nat) : RecChange :=
  match c with
  | some c => [(64 + 8 * c, max (recQ s pa (64 + 8 * c)) n)]
  | none => []

/-- Hold count b of tile t changes by one, modulo 2^16 (R153). -/
def holdChange (s : State) (pa t b : Nat) (up : Bool) : Nat × Nat :=
  let q := recQ s pa (tileOff t + 24)
  (tileOff t + 24, setFld q (16 * b) 16 (if up then fld q (16 * b) 16 + 1 else fld q (16 * b) 16 + 65535))

/-- A refusal by the record's home; the word puts the record's address into it. -/
def stBad (code index : Nat) : StRes × RecChange := (.bad { cls := 0x14, code := code, index := index, eng := 7 }, [])

/-- R158, R160. -/
def stOpen (s : State) (pa n : Nat) (c : Option Nat) (replay : Bool) : StRes × RecChange :=
  let k := n % recSlots s pa
  let o := retOff k
  let q := recQ s pa (o + 8)
  let again := replay && decide (recQ s pa o = n)
  if q.testBit 63 ∧ !again then stBad 2 k
  else if recBad s pa then stBad 10 0
  else if q.testBit 63 then (.ok (r64 (q % 65536)), [(o + 8, setFld q 62 1 1)])
  else
    let ts := List.range (recTiles s pa)
    let bind := ts.foldl (fun a t => a + newest s pa t * 2 ^ t) 0
    (.ok (r64 bind), ts.map (fun t => holdChange s pa t (newest s pa t) true) ++ [(o, n), (o + 8, 2 ^ 63 + bind)] ++ ctrChange s pa n c)

/-- R159. -/
def stClose (s : State) (pa n : Nat) (c : Option Nat) : StRes × RecChange :=
  let k := n % recSlots s pa
  let o := retOff k
  let q := recQ s pa (o + 8)
  if !q.testBit 63 ∨ recQ s pa o ≠ n then stBad 3 k
  else if recBad s pa then stBad 10 0
  else
    (.ok 0#64, (List.range (recTiles s pa)).map (fun t => holdChange s pa t (fld q t 1) false) ++ [(o + 8, setFld q 63 1 0)] ++
      ctrChange s pa n c)

/-- Version held in buffer b of tile t (R153). -/
def verOf (s : State) (pa t b : Nat) : Nat := fld (recQ s pa (tileOff t + 16)) (if b = 0 then 32 else 0) 32

/-- R161: all checks before any change, the lowest code first (R463). -/
def stCommit (s : State) (pa n : Nat) (c : Option Nat) (v mask : Nat) : StRes × RecChange :=
  let ts := (List.range 16).filter (fun t => mask.testBit t)
  let other (t : Nat) : Nat := 1 - newest s pa t
  let held (t : Nat) : Bool := decide (fld (recQ s pa (tileOff t + 24)) (16 * other t) 16 ≠ 0)
  let have_ := ts.filter (fun t => decide (t < recTiles s pa))
  match ts.find? (fun t => decide (recTiles s pa ≤ t)) with
  | some t => stBad 4 t
  | none => match have_.find? (fun t => decide (v ≤ verOf s pa t (newest s pa t))) with
    | some t => stBad 5 t
    | none => match have_.find? held with
      | some t => stBad 6 t
      | none =>
        if recBad s pa then stBad 10 0
        else (.ok 0#64,
          ts.flatMap (fun t =>
            [(tileOff t + 16, setFld (recQ s pa (tileOff t + 16)) (if other t = 0 then 32 else 0) 32 v),
             (tileOff t + 24, setFld (recQ s pa (tileOff t + 24)) 32 1 (other t))]) ++ ctrChange s pa n c)

/-! The home (R156). -/

/-- The bytes of a record's changes within one of its two lines. -/
def recBytes (pa line : Nat) (l : RecChange) : List (Nat × Byte) :=
  (l.filter (fun p => p.1 / 1024 == line)).flatMap (fun p => at_ (pa + p.1) (toBytes 8 p.2))

/-- An address in each sector of a record, which a station operation reads as a whole (R156). -/
def recSectors (pa : Nat) : List Nat := (List.range 16).map (fun k => pa + 128 * k)

/-- May the home perform an operation on the record now: none is half done, and every sector of it can be read and written (R106)? -/
def recFree (s : State) (pa : Nat) : Bool :=
  s.pend.all (fun f => match f.op with | .station _ p _ _ (some _) => p != pa | _ => true) && (recSectors pa).all (homeReady s)

/-- The slot that waits for a station operation gets its answer. -/
def answerStation (s : State) (f : Flight) (r : StRes) : State :=
  let put (sl : Slot) : Slot := match sl.stop with
    | some (i, _) => if i = f.id then { sl with stop := some (i, some r) } else sl
    | none => sl
  match getG s f.gid with
  | some g => dropF (putG s { g with slotA := put g.slotA, slotB := put g.slotB }) f.id
  | none => dropF s f.id

/-- The first line's bytes are written at their home, the mark is taken away, the operation is over (R156 steps 3, 4). The group's grid is
not complete before these bytes' completion time has passed (R67, R408; log entry 81). -/
def endStation (s : State) (f : Flight) (pa : Nat) (marked : Bool) (first : List (Nat × Byte)) (r : StRes) : State :=
  let (s1, t) := engineWrite s f.ctx 0 first
  answerStation (feedGrid (if marked then dropMarks s1 [((pa + 1024) / 1024, 0)] else s1) f.gid t) f r

/-- STATION_OPERATION: the home performs one operation on a record, whose sectors it reads (R105), once the group's earlier acquires have
returned (R137). When the second line changes, it is marked and written, and the first line follows once the second line's completion time
has passed. -/
def stationPerform (s : State) (f : Flight) : State :=
  match f.op with
  | .station kind pa n c none =>
    if !recFree s pa || acquiring s f.gid f.word then s
    else match badAt s ((List.range 2048).map (fun k => pa + k)) with
    | some (q, c) => answerStation s f (.bad { cls := 0x19, code := c, addr := q, eng := 7 })
    | none =>
      let (r, ch) := match kind with
        | .openPass rp => stOpen s pa n c rp
        | .closePass => stClose s pa n c
        | .commit v m => stCommit s pa n c v m
      let s0 := engineRead s f.ctx 0 (recSectors pa)
      let first := recBytes pa 0 ch
      match recBytes pa 1 ch with
      | [] => endStation s0 f pa false first r
      | second =>
        let (s1, t) := engineWrite s0 f.ctx 0 second
        putF (addMarks s1 [((pa + 1024) / 1024, 0)]) { f with op := .station kind pa n c (some (t, first, r)) }
  | .station _ pa _ _ (some (t, first, r)) => if t < s.time ∧ engineFree s f.ctx 0 first then endStation s f pa true first r else s
  | _ => s

/-! The words. -/

/-- The counter a station word names (R353). -/
def ctrOf (w : SWord) : Option Nat := if (imm20 w).testBit 4 then some (imm20 w % 16) else none

/-- The operand checks of a station word, lowest code first (R353, R354, R463). -/
def stOperand (g : Group) (w : SWord) (pass need commit : Bool) : Option FInfo :=
  let a := (rs g w.a.toNat).toNat
  let bad (c : Nat) : Option FInfo := some { cls := 0x14, code := c, addr := a }
  if pass ∧ srcB g w = 0#64 then bad 1
  else if a % 2048 ≠ 0 then bad 7
  else if need ∧ (ctrOf w).isNone then bad 8
  else if commit ∧ fld (srcC g w).toNat 16 16 ≠ 0 then bad 11
  else none

/-- A record's address, translation (rd and w) and access-table entry (R354). -/
def recCheck (s : State) (g : Group) (va need : Nat) : LaneRes :=
  if 2 ^ 57 ≤ va then .bad { cls := 6, code := 1, addr := va }
  else match wordXlat s g va 3 with
    | .inr p => .miss p
    | .inl (.bad c i) => .bad { cls := 7, code := c, addr := va, index := i }
    | .inl (.ok pa _) =>
      match accessCheck s g.ctx 0 pa 2048 need with
      | some (c, i) => .bad { cls := 0x18, code := c, addr := pa, index := i }
      | none => .ok { lane := 0, va := va, pas := [pa] }

/-- Run `pa.open`, `pa.close` or `wv.commit`: once as a release where it is one, then park until the home has answered (R354);
`fin` is what an answer does. -/
def stWord (i : Instr) (w : SWord) (s : State) (rel : Bool) (kind : Issue → StKind) (fin : State → Issue → W64 → Res) :
    Host.Outcome State Fault Refusal :=
  runWord i 0 false s (fun s x =>
    let a := (rs x.g w.a.toNat).toNat
    let clear (s : State) : State := match getG s x.g.gid with
      | some g => putG s (setSlot (walkDone g x.b) x.b { slotOf g x.b with stop := none })
      | none => s
    match x.slot.stop with
    | some (_, some (.ok v)) => fin (clear s) x v
    | some (_, some (.bad f)) => .bad (clear s) { f with addr := if f.cls = 0x19 then f.addr else a }
    | some (_, none) => .park s .station
    | none =>
      match stOperand x.g w true false (match kind x with | .commit .. => true | _ => false) with
      | some f => .bad s f
      | none => match recCheck s x.g a 3 with
        | .bad f => .bad (clear s) f
        | .miss p => .park (startWalk s x.g p) (.walk p)
        | .ok l =>
          match (if rel then releaseWait s x.g .dv else none) with
          | some (s1, p) => .park s1 p
          | none =>
            let s1 := drainWcb s x.g.gid
            let id := s1.nextId
            let s2 := launchOp s1 x.g.gid x.g.ctx x.g.core .none (.station (kind x) (l.pas.headD 0) (srcB x.g w).toNat (ctrOf w) none)
            match getG s2 x.g.gid with
            | none => .park s2 .station
            | some g => .park (putG s2 (setSlot g x.b { slotOf g x.b with stop := some (id, none) })) .station)

/-- A group of a team has opened a pass on a record (R453): from now on the team's awaits on its error lehr are waits on an external source,
which begin now (R455). -/
def teamOpened (s : State) (tid pa : Nat) : State :=
  match getT s tid with
  | none => s
  | some t =>
    if t.opened.contains pa then s
    else
      let up (sl : Slot) : Slot := match sl.park with
        | some (.await h) => if h = fld (recQ s pa 0) 12 20 then { sl with extSince := s.time } else sl
        | _ => sl
      { putT s { t with opened := t.opened ++ [pa] } with
        groups := s.groups.map (fun g => if g.team = tid then { g with slotA := up g.slotA, slotB := up g.slotB } else g) }

/-- The answered `pa.open` sets %pass, and the record counts as opened by the team (R453); its bind value returns in the loads class (R354, R355). -/
def openDone (w : SWord) (s : State) (x : Issue) (v : W64) : Res :=
  match getG s x.g.gid with
  | none => .ok s
  | some g =>
    let pa := match recCheck s g (rs x.g w.a.toNat).toNat 3 with | .ok l => l.pas | _ => []
    .ok (launchOp (pa.foldl (fun s p => teamOpened s g.team p) (putG s { g with pass := srcB x.g w })) g.gid g.ctx g.core .loads (.value [(2 ^ 20 + w.d.toNat, v)]))

def execPaOpen (w : SWord) (s : State) : Host.Outcome State Fault Refusal :=
  stWord (.paOpen w) w s false (fun _ => .openPass false) (openDone w)
def execPaOpenRp (w : SWord) (s : State) : Host.Outcome State Fault Refusal :=
  stWord (.paOpenRp w) w s false (fun _ => .openPass true) (openDone w)
def execPaClose (w : SWord) (s : State) : Host.Outcome State Fault Refusal :=
  stWord (.paClose w) w s true (fun _ => .closePass) (fun s _ _ => .ok s)
/-- s[c][63:32] is the version, s[c][15:0] the tile mask (R353). -/
def execWvCommit (w : SWord) (s : State) : Host.Outcome State Fault Refusal :=
  stWord (.wvCommit w) w s true (fun x => .commit (fld (srcC x.g w).toNat 32 32) (fld (srcC x.g w).toNat 0 16)) (fun s _ _ => .ok s)

/-- R163, R354: read at the home, as `ld.s.acq.dv` of the counter. -/
def execAcGet (w : SWord) (s : State) : Host.Outcome State Fault Refusal :=
  runWord (.acGet w) 0 false s (fun s x =>
    let a := (rs x.g w.a.toNat).toNat
    match stOperand x.g w false true false with
    | some f => .bad s f
    | none => match recCheck s x.g a 1 with
      | .bad f => .bad (clearWalks s x.g.gid) f
      | .miss p => .park (startWalk s x.g p) (.walk p)
      | .ok l =>
        let pa := l.pas.headD 0 + 64 + 8 * (imm20 w % 16)
        let lane : Lane := { lane := 0, va := a, pas := (List.range 8).map (fun i => pa + i) }
        .ok (clearWalks (issueLoad (drainWcb s x.g.gid) x [lane] (512 + w.d.toNat) false (some .dv) 0) x.g.gid))

/-- May `ac.wait` go on: the counter, read at its home in the group's turn, is at least v (R163, R137)? -/
def acReady (s : State) (gid pa c v : Nat) : Bool :=
  !acquiring s gid s.nextId && homeReady s (pa + 64 + 8 * c) && decide (v ≤ recQ s pa (64 + 8 * c))

/-- The counter was read at its home, so no older copy of it in the L1 serves a later load (R129). -/
def execAcWait (w : SWord) (s : State) : Host.Outcome State Fault Refusal :=
  runWord (.acWait w) 0 false s (fun s x =>
    let a := (rs x.g w.a.toNat).toNat
    match stOperand x.g w true true false with
    | some f => .bad s f
    | none => match recCheck s x.g a 1 with
      | .bad f => .bad (clearWalks s x.g.gid) f
      | .miss p => .park (startWalk s x.g p) (.walk p)
      | .ok l =>
        let pa := l.pas.headD 0
        let c := imm20 w % 16
        let v := (srcB x.g w).toNat
        let s1 := clearWalks (drainWcb s x.g.gid) x.g.gid
        if !acReady s1 x.g.gid pa c v then .park s1 (.ac pa c v)
        else match badAt s1 [pa + 64 + 8 * c] with
          | some (q, k) => .bad s1 { cls := 0x19, code := k, addr := q }
          | none => .ok (l1Drop (engineRead s1 x.g.ctx 0 [pa + 64 + 8 * c]) x.g.core ((pa + 64 + 8 * c) / 128)))

/-! `eb.send` (R169, R170, R356). -/

/-- The operands: the list in d, the source in a, the length in b, the pass in c. A zero pass, for which no record stands, is code 1 with the
list's address: DESIGN CHOICE (log entry 105). -/
def ebOperand (g : Group) (t : Team) (w : SWord) : Option FInfo :=
  let l := (rs g w.d.toNat).toNat
  let a := (rs g w.a.toNat).toNat
  let n := (srcB g w).toNat
  let bad (c x : Nat) : Option FInfo := some { cls := 0x14, code := c, addr := x }
  if srcC g w = 0#64 then bad 1 l
  else if l % 32 ≠ 0 then bad 9 l
  else if a % 8 ≠ 0 ∨ n % 8 ≠ 0 ∨ n < 8 ∨ 65536 < n ∨ (w.f7.getLsbD 0 ∧ (localBad t a n).isSome) then bad 9 a
  else if 2 ^ 57 ≤ l then some { cls := 6, code := 1, addr := l }
  else if !w.f7.getLsbD 0 ∧ (2 ^ 57 ≤ a ∨ 2 ^ 57 < a + n) then some { cls := 6, code := 1, addr := a }
  else none

def ebDevice (e : List Byte) : Option Nat := if (le e 16 8).testBit 63 then some (fld (le e 16 8) 47 16) else none
def ebTeams (e : List Byte) : Nat := fld (le e 16 8) 35 12

/-- A malformed entry (R169). -/
def entryBad (s : State) (ctx : Nat) (e : List Byte) : Bool :=
  decide (fld (le e 0 8) 57 7 ≠ 0) || decide (fld (le e 16 8) 0 35 ≠ 0) || decide (le e 24 8 ≠ 0) || decide (ebTeams e = 0) ||
    (match ebDevice e with | some d => !knowsDev s ctx d | none => false)

/-- The entries' bytes, 32 each. -/
def splitEntries (n : Nat) (b : List Byte) : List (List Byte) := (List.range n).map (fun k => (b.drop (32 * k)).take 32)

def execEbSend (w : SWord) (s : State) : Host.Outcome State Fault Refusal :=
  runWord (.ebSend w) 0 false s (fun s x =>
    match teamOf s x.g with
    | none => .ok s
    | some t =>
      let l := (rs x.g w.d.toNat).toNat
      match ebOperand x.g t w with
      | some f => .bad s f
      | none => match laneCheck s x.g 0 l 32 1 1 true 1 with
        | .bad f => .bad (clearWalks s x.g.gid) { f with lane := none }
        | .miss p => .park (startWalk s x.g p) (.walk p)
        | .ok hd =>
          match releaseWait s x.g .tm with
          | some (s1, p) => .park s1 p
          | none =>
            if !readReady s x.g hd.pas true then .park s (.read hd.pas true)
            else match badAt s hd.pas with
            | some (q, c) => .bad s { cls := 0x19, code := c, addr := q }
            | none =>
              let h := hd.pas.map (rdByte s)
              if fld (le h 0 8) 6 58 ≠ 0 ∨ (h.drop 8).any (fun b => decide (b ≠ 0#8)) then badW s 0x14 9 l 0
              else
                let cnt := fld (le h 0 8) 0 6 + 1
                let res := (List.range cnt).map (fun k => laneCheck s x.g 0 (l + 32 + 32 * k) 32 1 1 true 1)
                match missPage res, wordFaultOf (badLanes res) with
                | some p, _ => .park (startWalk s x.g p) (.walk p)
                | none, some f => .bad (clearWalks s x.g.gid) { f with lane := none }
                | none, none =>
                  let pas := (goodLanes res).flatMap (fun y => y.pas)
                  if !readReady s x.g pas true then .park s (.read pas true)
                  else match badAt s pas with
                  | some (q, c) => .bad s { cls := 0x19, code := c, addr := q }
                  | none =>
                    let es := splitEntries cnt (pas.map (rdByte s))
                    match es.findIdx? (entryBad s x.g.ctx) with
                    | some k => badW s 0x14 9 l k
                    | none =>
                      let src := (rs x.g w.a.toNat).toNat
                      .ok (clearWalks (launchOp (engineRead s x.g.ctx 0 (hd.pas ++ pas)) x.g.gid x.g.ctx x.g.core .net
                        (.ebSource (if w.f7.getLsbD 0 then some t.tid else none) src (srcB x.g w).toNat (srcC x.g w).toNat es)) x.g.gid))

/-- What an engine's read of a global range gave: the bytes before its end, the physical address of each unit, and why it ended early
(none inside: a walk or a home comes first). -/
structure RangeRead where
  bytes : List Byte := []
  pas : List Nat := []
  stop : Option (Option FInfo) := none
  deriving DecidableEq, Repr

/-- Bytes of a global range at their homes, in 8-byte units (R475): those before the first unit that fails or must wait. `xl` translates
an address with the rd right. -/
def readRange (s : State) (ctx eng : Nat) (xl : Nat → Xlat ⊕ Nat) (va n : Nat) : RangeRead :=
  (List.range (cdiv n 8)).foldl (fun acc k => match acc.stop with
    | some _ => acc
    | none =>
      let a := va + 8 * k
      match xl a with
      | .inr _ => { acc with stop := some none }
      | .inl (.bad c i) => { acc with stop := some (some { cls := 7, code := c, addr := a, index := i, eng := eng }) }
      | .inl (.ok p _) => match accessCheck s ctx eng p 8 1 with
        | some (c, i) => { acc with stop := some (some { cls := 0x18, code := c, addr := p, index := i, eng := eng }) }
        | none =>
          let m := min 8 (n - 8 * k)
          if !homeReady s p then { acc with stop := some none }
          else match badAt s ((List.range m).map (fun i => p + i)) with
            | some (q, c) => { acc with stop := some (some (checkInfo c q eng (8 * k))) }
            | none => { acc with bytes := acc.bytes ++ rdBytes s p m, pas := acc.pas ++ [p] }) {}

/-- How an operation in flight translates its source (R124). -/
def readXlate (s : State) (f : Flight) (a : Nat) : Xlat ⊕ Nat := flightXlate s f f.core a 1 false

/-- The walk an operation in flight needs before it can read a range: the first page that is not held (R124). -/
def askWalk (s : State) (f : Flight) (va n : Nat) : State :=
  match (piecesOf va n).findSome? (fun a => match readXlate s f (max a va) with | .inr p => some p | .inl _ => none) with
  | some p => flightWalk s f f.core p
  | none => s

/-- The source of a send or broadcast: its bytes, and why they end early. What an armed send reads from the allocation of a team
that has retired is not stated: free values (log entry 6). A source line in a faulted range stops it there (R479, R481). -/
def readSource (s : State) (f : Flight) (loc : Option Nat) (src n : Nat) : RangeRead :=
  match loc with
  | none => readRange s f.ctx 4 (readXlate s f) src n
  | some tid => match (getT s tid).filter (fun t => !t.retired) with
    | none => { bytes := (List.range n).map (fun k => (Config.freeValue (s.freeCount + k)).setWidth 8) }
    | some t => match (linesOf src n).find? (isAbsent t) with
      | none => { bytes := lrd t src n }
      | some k =>
        let off := k * 128 - src
        { bytes := lrd t src off, stop := some (if inRange t k then some (copyInfo 4 (src + off) off) else none) }

/-- A source that cannot be read on yet: a global one may need a walk first. -/
def sourceWait (s : State) (f : Flight) (loc : Option Nat) (src n : Nat) : State :=
  match loc with | none => askWalk s f src n | some _ => s

/-- The receiving team of an arrival, placed and not retired (R172). -/
def arrivalTeam (s : State) (ctx : Nat) (a : Arrival) : Option Team :=
  s.teams.find? (fun t => t.ctx == ctx && t.grid == a.grid && t.cluster == a.cluster && t.tidx == a.tidx && !t.task && !t.retired)

/-- A broadcast entry becomes one arrival for each of its teams in this package (R170); a placed team's inbound count rises
(R483). -/
def addArrivals (s : State) (word ctx wct : Nat) (e : ErrMsg) (data : List Byte) : State :=
  ((List.range 12).filter (fun m => e.teams.testBit m)).foldl (fun s m =>
    let a : Arrival := { station := e.station, grid := e.grid, cluster := e.cluster, tidx := m, entry := e.entry, good := true,
                         pass := e.pass, data := data, device := e.device, core := e.core, wct := wct }
    match arrivalTeam s ctx a with
    | some t => launchPart (putT s { t with inbound := t.inbound + 1 }) word 0 ctx e.core .none (.arrival { a with counted := true })
    | none => launchPart s word 0 ctx e.core .none (.arrival a)) s

/-- This module's device number in a context's job. -/
def selfDev (s : State) (ctx : Nat) : Nat := match s.jobs.find? (fun j => j.job == jobOf s ctx) with | some j => j.self | none => 0

/-- The ports that carry traffic (R435, R498), and the one a packet leaves on: whichever of them the device takes (log entry 104). -/
def readyPorts (s : State) : List Nat := (List.range 8).filter (fun p => decide ((s.status.getD p (0, 0)).1 = 2))
def pickPort (s : State) : Option Nat := match readyPorts s with | [] => none | l => some (l.getD ((openValue s).toNat % l.length) 0)

/-- A record with no group to receive it: a fabric fault goes to the service as it is, any other fault of the network's is of class 0x1D
(R447, R497), for which the specification gives no code: that of a copy, DESIGN CHOICE (log entry 106). -/
def groupless (s : State) (ctx : Nat) (e : FInfo) : State :=
  serviceRecord s ctx (if e.cls = 0x1E then e else { cls := 0x1D, code := 5, eng := e.eng, index := e.index }) 0

/-- `eb.send` has read its source: the entries set out (R170) with the completion time of the writes its group made before it (R149). One to
another device is a transfer of its own, which fails at once when the device is marked lost or no port is up (R498); one that names this
device by its number is delivered in the package. -/
def sendEntries (s : State) (f : Flight) (pass : Nat) (es : List (List Byte)) (data : List Byte) : State :=
  let self := selfDev s f.ctx
  let word := s.nextId
  let wct := match getG s f.gid with | some g => g.wct | none => 0
  ((List.range es.length).zip es).foldl (fun s p =>
    let e : ErrMsg := { station := fld (le p.2 0 8) 0 57, grid := fld (le p.2 8 8) 32 32, cluster := fld (le p.2 8 8) 0 32,
                        teams := ebTeams p.2, entry := p.1, pass := pass, device := self, core := f.core }
    match (ebDevice p.2).filter (fun d => d != self) with
    | none => addArrivals s word f.ctx wct e data
    | some d =>
      let port := pickPort s
      if lostDev s f.ctx d ∨ port.isNone then groupless s f.ctx { cls := 0x1E, code := 1, addr := e.station, unit := 0xFF, eng := 4 }
      else
      let m : NetMsg := { job := jobOf s f.ctx, src := self, tag := s.nextId, va := e.station, data := data, cnt := none, err := some e }
      launchOp { tickFree s with outs := s.outs ++ [.data d m] } 0 f.ctx f.core .none
        (.send { loc := none, addr := 0, remote := e.station, bytes := data.length, dev := d, cnt := none, fired := true,
                 sent := some s.time, port := port })) s

/-! Error arrivals. -/

/-- A delivery that does not land: reported as class 0x1D; the entry's counter will not advance (R172, R484, R495). -/
def dropArrival (s : State) (f : Flight) (a : Arrival) (code : Nat) : State :=
  let spoil (o : Flight) : Flight := match o.op with
    | .arrival b => if o.word = f.word ∧ b.entry = a.entry then { o with op := .arrival { b with good := false } } else o
    | _ => o
  let s1 := dropF { s with pend := s.pend.map spoil } f.id
  serviceRecord s1 f.ctx { cls := 0x1D, code := code, eng := 8, unit := a.tidx, index := if code = 2 then a.entry else 0 } 0

/-- RCV_COUNTER_ADVANCE: the last arrival of an entry has landed (R171). -/
def advanceRcv (s : State) (f : Flight) (a : Arrival) (pa : Nat) : State :=
  let left := s.pend.any (fun o => match o.op with | .arrival b => o.word == f.word && b.entry == a.entry | _ => false)
  if left ∨ !a.good ∨ recBad s pa ∨ !(recQ s pa 0).testBit 36 then s
  else progressed (engineWrite s f.ctx 0 (recBytes pa 0 (ctrChange s pa a.pass (some (fld (recQ s pa 0) 32 4))))).1 f.ctx

/-- The reserved bits of a lehr header that its table says must be zero (R317); the device ignores bits [7:6] (R4). -/
def lehrMalformed (t : Team) (h : Nat) : Bool :=
  let q := lrdN t h 8
  decide (fld q 45 19 ≠ 0 ∨ fld q 30 2 ≠ 0 ∨ fld q 23 1 ≠ 0 ∨ fld q 15 1 ≠ 0)

/-- The 64-byte arrival record (R171). -/
def arrivalRecord (a : Arrival) : List Byte :=
  toBytes 8 a.pass ++ toBytes 4 a.data.length ++ toBytes 2 a.device ++ toBytes 1 a.core ++ List.replicate 49 0#8

/-- An arrival is over for its team: its count falls, where it was counted (R483). -/
def uncount (t : Team) (a : Arrival) : Team := { t with inbound := t.inbound - (if a.counted then 1 else 0) }

/-- Land an arrival in a team's error lehr (R171): the slot is filled; it is filled and faulted when the retention slot is not open with the
pass, or when it is too small, and then it gets the arrival record alone. That the size is tested before the retention slot, so that
such a slot is faulted with that code alone, are DESIGN CHOICE (log entry 80). -/
def landArrival (s : State) (f : Flight) (a : Arrival) (t : Team) (pa h : Nat) : State :=
  let l := lehrRead t h
  let (t1, k) := lehrReserve t h
  let d := slotAddr h l k
  let small := decide (128 * l.lines < 64 + a.data.length)
  let bytes := arrivalRecord a ++ (if small then [] else a.data)
  let t2 := lwr t1 (at_ d bytes)
  let o := retOff (a.pass % recSlots s pa)
  let opened := (recQ s pa (o + 8)).testBit 63 && decide (recQ s pa o = a.pass)
  let time := max s.time a.wct
  let t3 := lehrFill t2 h k time
  let t4 := if small ∨ !opened then lehrFaultSlot t3 h k time { cls := 0x10, code := if small then 7 else 6, addr := d, eng := 8, unit := k } else t3
  let s1 := dropF (putLehr s 0 (uncount t4 a) h) f.id
  advanceRcv (wakeLocal s1 t.tid 0 (bytes.mapIdx (fun i _ => d + i))) f a pa

/-- Does the slot an arrival is to take lie outside what R93 lets the team have? -/
def arrivalOutside (t : Team) (h : Nat) (a : Arrival) : Bool :=
  let l := lehrRead t h
  (localBad t (slotAddr h l ((lehrRel t h + l.held) % l.cnt)) (min (128 * l.lines) (64 + a.data.length))).isSome

/-- ERROR_ARRIVAL: a delivery is performed, refused or dropped; it waits while the ring is full or the record is half changed. That a
misaligned station address counts as an unreadable record, and a reserved bit set in the record's header, an elehr that is no multiple of 32,
or a slot outside the allocation as a malformed header (code 2 of R495) is DESIGN CHOICE (log entry 107). -/
def arrivalPerform (s : State) (f : Flight) (a : Arrival) : State :=
  match arrivalTeam s f.ctx a with
  | none =>
    let back (t : Team) : Team := if t.ctx = f.ctx ∧ t.grid = a.grid ∧ t.cluster = a.cluster ∧ t.tidx = a.tidx ∧ !t.task
      then uncount t a else t
    dropArrival { s with teams := s.teams.map back } f a 1
  | some t =>
    let refuse : State := dropArrival (putT s (uncount t a)) f a 2
    if a.station % 2048 ≠ 0 then refuse
    else match flightXlate s f f.core a.station 3 false with
      | .inr p => flightWalk s f f.core p
      | .inl (.bad _ _) => refuse
      | .inl (.ok pa _) =>
        if (accessCheck s f.ctx 0 pa 2048 3).isSome then refuse
        else if !recFree s pa then s
        else match badAt s ((List.range 2048).map (fun k => pa + k)) with
        | some (q, c) => machineCheck (dropF (putT s (uncount t a)) f.id) f c q 8 a.tidx 0
        | none =>
          let h := fld (recQ s pa 0) 12 20
          if recBad s pa ∨ h % 32 ≠ 0 ∨ (localBad t h 32).isSome ∨ lehrMalformed t h ∨ arrivalOutside t h a then refuse
          else if (absentLine t h 32).isSome ∨ lehrFull t h then s
          else landArrival (engineRead s f.ctx 0 (recSectors pa)) f a t pa h

def execErrorArrival (id : Nat) (s : State) : Host.Outcome State Fault Refusal :=
  .next (match getF s id with
    | some f => match f.op with | .arrival a => arrivalPerform s f a | _ => s
    | none => s)

/-- STATION_OPERATION, an arrival on the record included (R156). -/
def execStationOperation (id : Nat) (s : State) : Host.Outcome State Fault Refusal :=
  .next (match getF s id with
    | some f => match f.op with | .arrival a => arrivalPerform s f a | _ => stationPerform s f
    | none => s)

end Sys2Proof.Machine
end

