-- ==== Sys2Proof/Machine/Tower.lean ====
section
/-! DEFINITION. Cane partitions (R111 to R115), tower transfers (R359 to R361), `tw.run` and its restart (R362, R363, R370, R487),
tower status and `tw.wait` (R371, R372), far atomics (R116, R117, R373, R374, R490 to R492). -/

namespace Sys2Proof.Machine

/-! Canes (R114). -/

/-- The k-th pair a context holds, counted from its lowest. -/
def pairAt (pairs k : Nat) : Nat := ((List.range 8).filter (fun i => pairs.testBit i)).getD k 0

/-- The key of a cane: (((tower x 8 + pair) x 384 + array of the pair) x 1,024 + column. -/
def caneKey (pairs tower arr col : Nat) : Nat := ((tower * 8 + pairAt pairs (arr / 384)) * 384 + arr % 384) * 1024 + col

/-- The cane at an offset of a segment (R114, R359). -/
def segCane (pairs tower seg off : Nat) : Nat := caneKey pairs tower (6 * popc 8 pairs * seg + off / 1024) (off % 1024)

def caneGet (s : State) (k : Nat) : Nat := (fget 0#1024 k s.canes).toNat
def canePut (s : State) (k v : Nat) : State := { s with canes := fput 0#1024 k (BitVec.ofNat 1024 v) s.canes }
/-- Bits of a cane from a base row (R115). -/
def rowGet (s : State) (k row w : Nat) : Nat := fld (caneGet s k) row w
def rowPut (s : State) (k row w v : Nat) : State := canePut s k (setFld (caneGet s k) row w v)

/-! Selection (R359). -/

/-- What a tower word selects: towers, segments by lane rank, first cane, count, the context's pairs. -/
structure TwSel where
  towers : List Nat
  segs : List Nat
  f : Nat
  n : Nat
  pairs : Nat
  deriving DecidableEq, Repr

def sregT (g : Group) (r : BitVec 6) : Nat := (rs g r.toNat).toNat

/-- Codes 1 and 2 of class 0x15 (R359). While a cane return is under way the context holds no partition any more: DESIGN CHOICE (log
entry 114). -/
def twSelect (s : State) (x : Issue) (w : TWord) : TwSel ⊕ FInfo :=
  let bad (c : Nat) : TwSel ⊕ FInfo := .inr { cls := 0x15, code := c }
  match getC s x.g.ctx with
  | none => bad 1
  | some c =>
    let b := sregT x.g w.sb
    let q := sregT x.g w.sc
    let seg := fld b 16 6
    let f := fld q 0 16
    let n := fld q 16 16
    let lanes := lanesOf x.active
    if c.pairs = 0 ∨ s.waits.any (fun w => w.code == 5 && w.ctx == c.ctx) then bad 1
    else if fld b 22 42 ≠ 0 ∨ fld q 32 32 ≠ 0 ∨ fld b 0 16 = 0 ∨ lanes.isEmpty ∨ seg % x.g.width ≠ 0 ∨ 64 < seg + x.g.width ∨
        n = 0 ∨ 6144 * popc 8 c.pairs < f + n then bad 2
    else .inl { towers := (List.range 16).filter (fun t => b.testBit t), segs := lanes.map (fun l => seg + l), f := f, n := n, pairs := c.pairs }

/-- The driven canes of one tower in element order, from the element of its rank (R360). -/
def selCanes (q : TwSel) (tower : Nat) : List Nat :=
  q.segs.flatMap (fun g => (List.range q.n).map (fun i => segCane q.pairs tower g (q.f + i)))

/-- Issue a tower word: one share for each selected tower (R371); an engine command drains the write-combining buffer (R142). -/
def issueTower (s : State) (x : Issue) (q : TwSel) (sh : Share) : State :=
  let s0 := drainWcb s x.g.gid
  match getG s0 x.g.gid with
  | none => s0
  | some g =>
    let s1 := putG s0 { g with twCount := g.twCount + 1 }
    let base := s1.nextId
    ((List.range q.towers.length).zip q.towers).foldl (fun s p =>
      launchPart s base g.gid g.ctx g.core .tower (.share { sh with
        word := g.twCount + 1, tower := p.2, canes := selCanes q p.2, first := p.1 * q.segs.length * q.n })) s1

/-! Transfers (R360, R361). -/

/-- The block types: .f32, .b16 and .bfp. -/
def tyBlock (t : Nat) : Bool := [6, 9, 22].contains t
/-- Every type of R360. -/
def tyTower (t : Nat) : Bool := tyBlock t || tyI t || [2, 5, 13].contains t
/-- Bits of a memory element; a .bfp element stands for 1 of the 32 in 128 bytes. -/
def twWidth (t : Nat) : Nat := if t = 22 then 32 else tyWidth t

/-- Codes 3 and 4 of class 0x15 (R360, R361). -/
def xferBad (g : Group) (w : TWord) (q : TwSel) (out : Bool) : Option FInfo :=
  let t := w.ty.toNat
  let wd := w.wm1.toNat + 1
  let blk := tyBlock t
  let bc := w.f8.getLsbD 0
  let sat := w.f8.getLsbD 1
  let a := sregT g w.sa
  let me := twWidth t
  if 1024 < w.row.toNat + wd ∨ !tyTower t ∨ (blk ∧ wd ≠ 32) ∨ (!bc ∧ (2 ^ 57 ≤ a ∨
      (if blk then q.f % 32 ≠ 0 ∨ q.n % 32 ≠ 0 ∨ a % 128 ≠ 0 else a % 8 ≠ 0 ∨ q.n * me % 64 ≠ 0))) then
    some { cls := 0x15, code := 3, addr := if bc then 0 else a }
  else if (bc ∧ (out ∨ blk)) ∨ (sat ∧ (blk ∨ (if out then wd ≤ me else me ≤ wd))) then some { cls := 0x15, code := 4 }
  else none

def xferT (i : Instr) (w : TWord) (out : Bool) (s : State) : Host.Outcome State Fault Refusal :=
  runWord i w.msel.toNat false s (fun s x =>
    match twSelect s x w with
    | .inr f => .bad s f
    | .inl q => match xferBad x.g w q out with
      | some f => .bad s f
      | none =>
        .ok (issueTower s x q
          { kind := if out then .xout else .xin, word := 0, tower := 0, ctx := x.g.ctx, team := x.g.team, canes := [], first := 0,
            addr := sregT x.g w.sa, row := w.row.toNat, w := w.wm1.toNat + 1, ty := w.ty.toNat,
            bc := if !out && w.f8.getLsbD 0 then some (rs x.g w.sa.toNat) else none, sat := w.f8.getLsbD 1,
            hint := fld w.f8.toNat 3 2, block := [], gaddr := [], idx := 0, active := [] }))

def execTwXin (w : TWord) (s : State) : Host.Outcome State Fault Refusal := xferT (.twXin w) w false s
def execTwXout (w : TWord) (s : State) : Host.Outcome State Fault Refusal := xferT (.twXout w) w true s

/-- The bytes of memory a share's elements take. -/
def shareRange (sh : Share) : Nat × Nat :=
  (sh.addr + sh.first * twWidth sh.ty / 8, sh.canes.length * twWidth sh.ty / 8)

/-- What a tower's translation of a global range gives: the physical address of each byte, a fault, or a page whose walk comes first. -/
inductive Pages where
  | ok (pas : List Nat)
  | bad (f : FInfo)
  | walk (page : Nat)
  deriving DecidableEq, Repr

/-- A tower's global range, its pages translated before anything moves (R125, R370). -/
def towerPages (s : State) (f : Flight) (tower va n need : Nat) : Pages :=
  (List.range n).foldl (fun acc i => match acc with
    | .ok l =>
      let a := va + i
      if i ≠ 0 ∧ a % 65536 ≠ 0 then .ok (l ++ [l.getLastD 0 + 1])
      else match flightXlate s f (128 + tower) a need true with
        | .inr p => .walk p
        | .inl (.bad c k) => .bad { cls := 7, code := c, addr := a, index := k }
        | .inl (.ok p _) => match accessCheck s f.ctx 2 p (min (n - i) (65536 - a % 65536)) (if need = 2 then 2 else 1) with
          | some (c, k) => .bad { cls := 0x18, code := c, addr := p, index := k }
          | none => .ok (l ++ [p])
    | r => r) (.ok [])

/-- The bytes of a range at their homes, for a tower that reads them (R105, R142, R458): a wait, an error, or the state with the sectors
filled and the bytes. -/
def towerRead (s : State) (f : Flight) (hint : Nat) (pas : List Nat) : Option ((Nat × Nat) ⊕ State × List Byte) :=
  if !pas.all (homeReady s) then none
  else match badAt s pas with
    | some e => some (.inl e)
    | none => some (.inr (engineRead s f.ctx hint pas, pas.map (rdByte s)))

/-! Errors in canes (R456, R488): a row group is 64 columns of one row of an array. -/

/-- The row group of a cane's row. -/
def rowGroup (k row : Nat) : Nat := (k / 1024 * 1024 + row) * 16 + k % 1024 / 64

/-- Is a row group among these canes and rows, and how many of its columns? -/
def groupCols (canes : List Nat) (g : Nat) : Nat :=
  (canes.filter (fun k => decide (k / 1024 = g / 16384) && decide (k % 1024 / 64 = g % 16))).length
def inRows (r : Nat × Nat) (g : Nat) : Bool := decide (r.1 ≤ g / 16 % 1024) && decide (g / 16 % 1024 < r.1 + r.2)

/-- The row groups in error that a command on these canes reads: among its source rows, and among its destination rows where it writes only
part of the group, whose check bits are recomputed from the rest (log entry 82). -/
def caneErrors (s : State) (canes : List Nat) (srcs : List (Nat × Nat)) (d : Nat × Nat) : List Nat :=
  (s.badCane.map Prod.fst).filter (fun g =>
    let n := groupCols canes g
    decide (0 < n) && (srcs.any (fun r => inRows r g) || (inRows d g && decide (n < 64))))

/-- A row group that a command writes whole is good again (R488). -/
def caneMend (s : State) (canes : List Nat) (d : Nat × Nat) : State :=
  { s with badCane := s.badCane.filter (fun p => !(inRows d p.1 && decide (64 ≤ groupCols canes p.1))) }

/-- A tower's share ends in a machine check of its group (R458, R488). `row`: the array and row in error, or the address in memory. -/
def checkShare (s : State) (f : Flight) (sh : Share) (code addr : Nat) : State :=
  machineCheck (dropF { s with resumes := s.resumes.filter (fun r => !(r.tower == sh.tower && r.ctx == f.ctx)) } f.id)
    f code addr 2 sh.tower sh.idx

/-- A value cut or extended between widths (R361): `to_` bits from `from_` bits. -/
def cutTo (sg sat : Bool) (from_ to_ x : Nat) : Nat :=
  let v : Int := if sg then toS from_ x else (x % 2 ^ from_ : Nat)
  if from_ ≤ to_ then wrap to_ v
  else if sat then wrap to_ (if sg then clampI (-(2 ^ (to_ - 1) : Nat)) ((2 ^ (to_ - 1) : Nat) - 1) v else clampI 0 ((2 ^ to_ : Nat) - 1) v)
  else x % 2 ^ to_

/-- The blocks of a share: positions of 32 canes each. -/
def shareBlocks (sh : Share) : List (List Nat) := (List.range (sh.canes.length / 32)).map (fun k => (sh.canes.drop (32 * k)).take 32)

/-- A bfp block written into 32 canes at a base row (R206, R360). -/
def putBlock (s : State) (canes : List Nat) (row : Nat) (b : Bfp) : State :=
  (canes.zip b.m).foldl (fun s p => rowPut s p.1 row 32 (wrap 24 p.2 + b.e % 256 * 2 ^ 24)) s

def getBlock (s : State) (canes : List Nat) (row : Nat) : Bfp :=
  ⟨rowGet s (canes.headD 0) (row + 24) 8, canes.map (fun k => toS 24 (rowGet s k row 24))⟩

/-- `tw.xin` moves its share: the canes, and the status. -/
def moveIn (s : State) (sh : Share) (data : List Byte) : State × Nat :=
  if tyBlock sh.ty then
    let me := twWidth sh.ty
    ((List.range (sh.canes.length / 32)).zip (shareBlocks sh)).foldl (fun a p =>
      let raw := (data.drop (p.1 * 4 * me)).take (4 * me)
      let (b, st) := if sh.ty = 22 then (bfpOfBytes raw, 0)
        else bfpOfF32 ((List.range 32).map (fun k => if sh.ty = 9 then le raw (2 * k) 2 * 65536 else le raw (4 * k) 4))
      (putBlock a.1 p.2 sh.row b, a.2 ||| st)) (s, 0)
  else
    let me := twWidth sh.ty
    let big := ofBytes data
    (((List.range sh.canes.length).zip sh.canes).foldl (fun s p =>
      let x := match sh.bc with | some v => v.toNat % 2 ^ me | none => fld big (p.1 * me) me
      rowPut s p.2 sh.row sh.w (cutTo (tySigned sh.ty) sh.sat me sh.w x)) s, 0)

/-- The bytes `tw.xout` writes for its share. -/
def moveOut (s : State) (sh : Share) : List Byte :=
  if tyBlock sh.ty then
    (shareBlocks sh).flatMap (fun cs =>
      let b := getBlock s cs sh.row
      if sh.ty = 22 then bytesOfBfp b
      else b.m.flatMap (fun m => if sh.ty = 9 then
          toBytes 2 (encF fmtB16 {} (.num (decide (m < 0)) m.natAbs ((b.e : Int) - 150))).1
        else toBytes 4 (f32OfBfp b.e m)))
  else
    let me := twWidth sh.ty
    let big := ((List.range sh.canes.length).zip sh.canes).foldl (fun a p =>
      a + cutTo (tySigned sh.ty) sh.sat sh.w me (rowGet s p.2 sh.row sh.w) <<< (p.1 * me)) 0
    toBytes (sh.canes.length * me / 8) big

/-! The progress of a share. -/

/-- What a share that is over leaves of status goes to another share of its word, and with the last one into the group's status word,
because a tower word counts there only once it completes (R371). -/
def wordStatus (s : State) (gid word : Nat) (st : BitVec 2) : State :=
  let mate (o : Flight) : Bool := o.gid == gid && (match o.op with | .share t => t.word == word | _ => false)
  match s.pend.find? mate with
  | some o => (match o.op with | .share t => putF s { o with op := .share { t with carry := t.carry ||| st } } | _ => s)
  | none => (match getG s gid with | some g => putG s { g with tstat := g.tstat ||| st } | none => s)

/-- A share has completed (R371). -/
def finishShare (s : State) (f : Flight) (sh : Share) (st wct : Nat) : State :=
  let s1 := dropF s f.id
  match getG s1 f.gid with
  | some g => wordStatus (putG s1 { g with twTime := max g.twTime wct, wct := max g.wct wct }) f.gid sh.word (sh.carry ||| BitVec.ofNat 2 st)
  | none => s1

/-- A share stops (R370, R485): its fault is kept for the group's waiting word; a block leaves its resume state. -/
def stopShare (s : State) (f : Flight) (sh : Share) (e : FInfo) : State :=
  let run := match sh.kind with | .run => true | _ => false
  let s1 := dropF s f.id
  let others := s1.resumes.filter (fun r => !(r.tower == sh.tower && r.ctx == f.ctx))
  let kept : List Resume := others ++ [{ id := f.id, tower := sh.tower, ctx := f.ctx, share := { sh with carry := 0#2 } }]
  let s2 := if run then { s1 with resumes := kept } else s1
  let ref : Option TowerRef := if run then some ⟨f.id, sh.tower, sh.addr, sh.idx⟩ else none
  let e1 := { e with eng := 2, unit := sh.tower, index := if e.cls = 0x18 then e.index else sh.idx, share := ref }
  addDue (wordStatus s2 f.gid sh.word sh.carry) f { cls := .tower, word := sh.word, info := e1, key := sh.idx } 4

/-- Tower words of one group to one tower run in issue order (R368), after what R142 names. -/
def shareTurn (s : State) (f : Flight) (sh : Share) : Bool :=
  engineTurn s f && s.pend.all (fun o => o.gid != f.gid || !decide (o.id < f.id) || (match o.op with
    | .share t => t.tower != sh.tower
    | _ => true))

/-- `tw.xin` at one tower: memory is read at its homes, then the canes are written. -/
def shareIn (s : State) (f : Flight) (sh : Share) : State :=
  let rows := (sh.row, sh.w)
  let move (s : State) (data : List Byte) : State :=
    match caneErrors s sh.canes [] rows with
    | g :: _ => checkShare s f sh 8 (g / 16)
    | [] =>
      let (s1, st) := moveIn s sh data
      finishShare (caneMend s1 sh.canes rows) f sh st 0
  match sh.bc with
  | some _ => move s []
  | none =>
    let (va, n) := shareRange sh
    match towerPages s f sh.tower va n 1 with
    | .bad e => stopShare s f sh e
    | .walk p => flightWalk s f (128 + sh.tower) p
    | .ok pas => match towerRead s f sh.hint pas with
      | none => s
      | some (.inl (q, c)) => checkShare s f sh c q
      | some (.inr (s1, data)) => move s1 data

/-- `tw.xout` at one tower. -/
def shareOut (s : State) (f : Flight) (sh : Share) : State :=
  let (va, n) := shareRange sh
  match towerPages s f sh.tower va n 2 with
  | .bad e => stopShare s f sh e
  | .walk p => flightWalk s f (128 + sh.tower) p
  | .ok pas => match caneErrors s sh.canes [(sh.row, sh.w)] (0, 0) with
    | g :: _ => checkShare s f sh 8 (g / 16)
    | [] =>
      let bytes := pas.zip (moveOut s sh)
      if !engineFree s f.ctx sh.hint bytes then s
      else
        let (s1, t) := engineWrite s f.ctx sh.hint bytes
        finishShare s1 f sh 0 t

/-- TOWER_BLOCK_COMPLETE: a transfer moves its share, or a block has run its last command (R371). -/
def execTowerBlockComplete (id : Nat) (s : State) : Host.Outcome State Fault Refusal :=
  .next (match getF s id with
    | some f => match f.op with
      | .share sh =>
        if !shareTurn s f sh then s
        else match sh.kind with
          | .run => if sh.begun ∧ sh.block.length ≤ sh.idx then finishShare s f sh sh.status.toNat 0 else s
          | .xin => shareIn s f sh
          | .xout => shareOut s f sh
      | _ => s
    | none => s)

/-! `tw.run` (R362, R363). -/

/-- What reading a command block through the port gives. -/
inductive BlockRes where
  | bad (f : FInfo)
  | wait (line : Nat)
  | ok (hdr : Nat) (gaddr : List Nat) (cmds : List W64)
  deriving DecidableEq, Repr

/-- The local-address fate of n bytes of a command block, lowest code first (R362). -/
def cmdBlockBad (t : Team) (a n : Nat) : Option FInfo :=
  if stackHit t a n then some { cls := 5, code := 2, addr := a }
  else if lmSize t < a + n ∨ a % 8 ≠ 0 then some { cls := 5, code := 6, addr := a }
  else none

/-- The first absent line of n bytes of a block: a fault in a faulted range (R481), else the line to wait for. -/
def blockAbsent (t : Team) (a n : Nat) : Option BlockRes :=
  (absentLine t a n).map (fun k => if inRange t k then .bad { cls := 0x10, code := 4, addr := a, eng := 1 } else .wait k)

/-- The header is read first, when its line is present, and tells the block's length (R362, R363). -/
def readBlock (t : Team) (a : Nat) : BlockRes :=
  match cmdBlockBad t a 48, blockAbsent t a 8 with
  | some f, _ => .bad f
  | none, some r => r
  | none, none =>
    let n := lrdN t a 8 % 32 + 1
    match cmdBlockBad t a (40 + 8 * n), blockAbsent t a (40 + 8 * n) with
    | some f, _ => .bad f
    | none, some r => r
    | none, none => .ok (lrdN t a 8) ((List.range 4).map (fun k => lrdN t (a + 8 + 8 * k) 8))
        ((List.range n).map (fun k => r64 (lrdN t (a + 40 + 8 * k) 8)))

def execTwRun (w : TWord) (s : State) : Host.Outcome State Fault Refusal :=
  runWord (.twRun w) w.msel.toNat false s (fun s x =>
    match twSelect s x w, teamOf s x.g with
    | .inr f, _ => .bad s f
    | .inl _, none => .ok s
    | .inl q, some t =>
      let a := sregT x.g w.sa
      match readBlock t a with
      | .bad f => .bad s f
      | .wait k => .park s (.line t.tid k)
      | .ok h ga cmds =>
        if h / 32 ≠ 0 ∨ cmds.length ≤ w.start.toNat then badW s 0x15 5 a w.start.toNat
        else .ok (issueTower s x q
          { kind := .run, word := 0, tower := 0, ctx := x.g.ctx, team := t.tid, canes := [], first := 0, addr := a, row := 0, w := 0,
            ty := 0, bc := none, sat := false, hint := 0, block := cmds, gaddr := ga, idx := w.start.toNat, active := [] }))

/-- A share begins at its tower (R366, R370): with the saved masks when it names the stopped block's address and index, where a column the
stopped run did not drive is inactive; else every driven column is active with an empty stack. Any `tw.run` clears the resume state. -/
def beginShare (s : State) (f : Flight) (sh : Share) : State :=
  if sh.begun then s
  else
    let saved := s.resumes.find? (fun r => r.tower == sh.tower && r.ctx == f.ctx &&
      r.share.addr == sh.addr && r.share.idx == sh.idx)
    let act := match saved with
      | some r => sh.canes.map (fun k =>
          ((r.share.canes.zip r.share.active).find? (fun p => p.1 == k)).elim (false, []) (fun p => p.2))
      | none => sh.canes.map (fun _ => (true, []))
    putF { s with resumes := s.resumes.filter (fun r => !(r.tower == sh.tower && r.ctx == f.ctx)) }
      { f with op := .share { sh with active := act, begun := true } }

/-! `tw.wait` (R372, R447, R486, R487). -/

/-- Restart a stopped share at its saved index with its saved masks, the block read afresh (R487); a block that can no longer be read, or
whose header R363 refuses, is a fault that leaves the restart owed. -/
def restartShare (s : State) (g : Group) (b : Bool) (q : TowerRef) : Res :=
  let done (s : State) : State := match getG s g.gid with
    | some g => putG s (setReplay g b ((replayOn g b).map (fun r => { r with tower := none })))
    | none => s
  match s.resumes.find? (fun r => r.id == q.id) with
  | none => .bad (done s) { cls := 0x15, code := 8, addr := q.addr, index := q.idx, unit := q.tower, eng := 2 }
  | some r =>
    match getT s r.share.team with
    | none => .ok (done s)
    | some t => match readBlock t r.share.addr with
      | .bad f => .bad s { f with share := some q }
      | .wait k => .park s (.line t.tid k)
      | .ok h ga cmds =>
        if h / 32 ≠ 0 ∨ cmds.length ≤ r.share.idx then .bad s { cls := 0x15, code := 5, addr := r.share.addr, index := r.share.idx, share := some q }
        else
        let s1 := { s with resumes := s.resumes.filter (fun r => r.id != q.id) }
        .ok (done (launchOp s1 g.gid g.ctx g.core .tower (.share { r.share with block := cmds, gaddr := ga, begun := true })))

/-- What a replay owes to a tower fault: nothing, a share to clear (bit 0 of DONE), or one to restart. -/
def towerReplay (s : State) (g : Group) (b : Bool) (atHdr : Bool) : Option Res :=
  match replayOn g b with
  | none => none
  | some r =>
    if r.atHdr != atHdr then none
    else match r.tower with
      | none => none
      | some q =>
        if r.drop then
          let s1 := { s with resumes := s.resumes.filter (fun x => x.id != q.id) }
          some (.ok (putG s1 (setReplay g b (some { r with tower := none }))))
        else some (restartShare s g b q)

/-- Does a tower word of the group, among those a `tw.wait` waits for, remain: all but the `keep` most recently issued? -/
def twNamed (g : Group) (keep word : Nat) : Bool := decide (keep ≤ g.twCount - word)
def twBusy (s : State) (g : Group) (keep : Nat) : Bool :=
  s.pend.any (fun f => f.gid == g.gid && (match f.op with | .share sh => twNamed g keep sh.word | _ => false))

def execTwWait (w : TWord) (s : State) : Host.Outcome State Fault Refusal :=
  runWord (.twWait w) 0 false s (fun s x =>
    let keep := sregT x.g w.sa
    let go (s : State) (g : Group) : Res :=
      if twBusy s g keep then .park s (.twWait keep)
      else
        let mine (d : Due) : Bool := d.cls == .tower && twNamed g keep d.word
        match g.due.find? mine with
        | some d => .bad (putG s { g with due := g.due.erase d }) d.info
        | none =>
          if g.twTime < s.time then okG s { ws g w.sb.toNat (r64 g.tstat.toNat) with tstat := 0#2 }
          else .park s (.twWait keep)
    match (if x.replay then towerReplay s x.g x.b false else none) with
    | none => go s x.g
    | some (.ok s1) => (match getG s1 x.g.gid with | some g => go s1 g | none => .ok s1)
    | some r => r)

/-! Far atomics. -/

def farZ (w : VWord) : Nat := if w.ty.toNat = 22 then 128 else 4

/-- A lane of `far.add`: alignment, then the core's translation, which the far-atomic fault stands for (R373, R491). -/
def farLane (s : State) (g : Group) (lane va z : Nat) : LaneRes :=
  let bad4 : LaneRes := .bad { cls := 0x17, code := 4, addr := va, index := lane, lane := some lane }
  if va % z ≠ 0 then .bad { cls := 4, code := 3, addr := va, lane := some lane }
  else if 2 ^ 57 ≤ va then bad4
  else match wordXlat s g va 3 with
    | .inr p => .miss p
    | .inl (.bad _ _) => bad4
    | .inl (.ok p _) => if isCxl p then bad4 else .ok { lane := lane, va := va, pas := (List.range z).map (fun i => p + i) }

/-- The operand bytes of a lane (R373): register j of the block holds bytes 8j to 8j + 7. -/
def farOperand (g : Group) (w : VWord) (lane : Nat) : List Byte :=
  if w.ty.toNat = 22 then (blockRegs w.b.toNat 4 4).flatMap (fun r => toBytes 8 (rv g r lane).toNat)
  else toBytes 4 (rv g w.b.toNat lane).toNat

def execFarAdd (w : VWord) (s : State) : Host.Outcome State Fault Refusal :=
  runWord (.farAdd w) w.msel.toNat true s (fun s x =>
    let res := (lanesOf x.active).map (fun l => farLane s x.g l (rv x.g w.a.toNat l).toNat (farZ w))
    match missPage res with
    | some p => .park (startWalk s x.g p) (.walk p)
    | none =>
      let good := goodLanes res
      let s1 := drainWcb s x.g.gid
      let word := s1.nextId
      let s2 := good.foldl (fun s l =>
        launchPart s word x.g.gid x.g.ctx x.g.core .far
          (.far l (decide (w.ty.toNat = 22)) (farOperand x.g w l.lane) 0 none false false)) s1
      finishLanes s2 x (good.map (fun l => l.lane)) (badLanes res))

/-- R374, R146: every earlier far atomic answered, and its completion time past. -/
def execFarFence (w : TWord) (s : State) : Host.Outcome State Fault Refusal :=
  runWord (.farFence w) 0 false s (fun s x =>
    if !quiet s x.g .far then .park s .farFence
    else match x.g.due.find? (fun d => d.cls == .far) with
      | some d => .bad (putG s { x.g with due := x.g.due.erase d }) d.info
      | none => if x.g.farTime < s.time then .ok s else .park s .farFence)

/-- Run an event on a far atomic in flight. -/
def farEvent (id : Nat) (s : State) (h : Flight → Lane → Bool → List Byte → Nat → Option FInfo → Bool → Bool → State) :
    Host.Outcome State Fault Refusal :=
  .next (match getF s id with
    | some f => match f.op with
      | .far l bfp v st c an ap => h f l bfp v st c an ap
      | _ => s
    | none => s)

/-- Do two far atomics name a common byte? -/
def farMeet (a b : Lane) : Bool := a.pas.any (fun p => b.pas.contains p)

/-- FAR_ATOMIC_AT_HOME: in its group's turn (R142, R117) the home writes the line's dirty sectors to the tower, drops its copy,
raises the tower-pending count and sends the request on (R116). -/
def execFarAtomicAtHome (id : Nat) (s : State) : Host.Outcome State Fault Refusal :=
  farEvent id s (fun f l bfp v st c an ap =>
    let first := s.pend.all (fun o => o.gid != f.gid || !decide (o.id < f.id) || (match o.op with
      | .far m _ _ 0 _ _ _ => !farMeet l m
      | _ => true))
    if st ≠ 0 ∨ !engineTurn s f ∨ !first then s
    else
      let line := l.pas.headD 0 / 1024
      let s1 := match l2Find s line with | some e => l2Evict s e | none => s
      let h := home s1 line
      putF (setHome s1 line { h with pend := h.pend + 1 }) { f with op := .far l bfp v 1 c an ap })

/-- What the tower's check finds (R125, R490, R491, R493): none when it accepts, its fault, or a page whose walk comes first. -/
def farCheck (s : State) (f : Flight) (l : Lane) : Option (FInfo ⊕ Nat) :=
  let t := towerOf (l.pas.headD 0)
  let info (cls c a i : Nat) : Option (FInfo ⊕ Nat) := some (.inl { cls := cls, code := c, addr := a, index := i, eng := 3, unit := t })
  match flightXlate s f (128 + t) l.va 3 true with
  | .inr p => some (.inr p)
  | .inl (.bad 3 _) => info 0x17 2 l.va l.lane
  | .inl (.bad 5 _) => info 0x17 3 l.va l.lane
  | .inl (.bad _ _) => info 0x17 1 l.va l.lane
  | .inl (.ok p _) => match accessBad s 1 f.ctx 3 p l.pas.length 4 with
    | some (c, i) => info 0x18 c p i
    | none => none

/-- Has every earlier far atomic of the group on the location reached the tower's unit (R117, R373)? -/
def farTurn (s : State) (f : Flight) (l : Lane) : Bool :=
  s.pend.all (fun o => o.gid != f.gid || !decide (o.id < f.id) || (match o.op with
    | .far m _ _ st _ _ _ => decide (2 ≤ st) || !farMeet l m
    | _ => true))

/-- FAR_ATOMIC_TOWER_CHECK: the tower accepts or refuses, one group's in issue and lane order; accepted adds are applied in the order they
came (R117, R373). -/
def execFarAtomicTowerCheck (id : Nat) (s : State) : Host.Outcome State Fault Refusal :=
  farEvent id s (fun f l bfp v st c an ap =>
    if st ≠ 1 ∨ !farTurn s f l then s
    else match farCheck s f l with
      | some (.inr p) => flightWalk s f (128 + towerOf (l.pas.headD 0)) p
      | some (.inl e) => putF s { f with op := .far l bfp v 3 (some e) an ap }
      | none => let s1 := dropF s id; { s1 with pend := s1.pend ++ [{ f with op := .far l bfp v 2 c an ap }] })

/-- FAR_ATOMIC_ANSWER: the home answers with a completion time, or with a fault notice and a falling count (R116, R490). -/
def execFarAtomicAnswer (id : Nat) (s : State) : Host.Outcome State Fault Refusal :=
  farEvent id s (fun f l bfp v st c an ap =>
    let line := l.pas.headD 0 / 1024
    if an then s
    else if st = 2 then
      let (s1, t) := completion s line
      let s2 := match getG s1 f.gid with | some g => putG s1 { g with farTime := max g.farTime t } | none => s1
      if ap then dropF s2 id else putF s2 { f with cls := .none, op := .far l bfp v st c true ap }
    else match c with
      | none => s
      | some e =>
        let h := home s line
        addDue (dropF (setHome s line { h with pend := h.pend - 1 }) id) f { cls := .far, info := e, key := l.lane } 3)

/-- The sum a far atomic leaves (R373): M first. -/
def farSum (bfp : Bool) (old v : List Byte) : List Byte :=
  if bfp then bytesOfBfp (bfpAdd (bfpOfBytes old) (bfpOfBytes v)).1 else toBytes 4 (addF32 (ofBytes old) (ofBytes v))

/-- FAR_ATOMIC_APPLY: the add is applied to the LLC line, which fills on a miss whatever the hint, and acknowledged (R116). A
store that came to the home after the request has superseded the location in the L2 (R117). A location in error is not added to: the group that
issued the atomic takes the machine check (R458). -/
def execFarAtomicApply (id : Nat) (s : State) : Host.Outcome State Fault Refusal :=
  farEvent id s (fun f l bfp v st c an ap =>
    let pa := l.pas.headD 0
    let line := pa / 1024
    let first := (s.pend.takeWhile (fun o => o.id != id)).all (fun o => match o.op with
      | .far m _ _ 2 _ _ false => !farMeet l m
      | _ => true)
    let held := l2Has s line (pa / 128 % 8)
    if st ≠ 2 ∨ ap ∨ !first then s
    else match (if held then none else badAt s l.pas) with
    | some (q, e) =>
      let h := home s line
      machineCheck (dropF (setHome s line { h with pend := h.pend - 1 }) id) f e q 3 (towerOf pa) l.lane
    | none =>
      let s1 := llcPut s line (1#8 <<< (pa / 128 % 8)) (1#8 <<< (pa / 128 % 8))
      let s2 := if held then s1
        else performWrite s1 0 (l.pas.zip (farSum bfp (l.pas.map (rdByte s1)) v))
      let h := home s2 line
      let s3 := setHome s2 line { h with pend := h.pend - 1 }
      if an then dropF s3 id else putF s3 { f with op := .far l bfp v st c an true })

end Sys2Proof.Machine
end

