-- ==== Sys2Proof/Machine/Cane.lean ====
section
/-! DEFINITION. The commands of the cane sequencer (R364 to R367, R370). -/

namespace Sys2Proof.Machine

/-- Does a row range end above row 1,023 (R365)? -/
def rowsBad (r : Nat × Nat) : Bool := decide (1024 < r.1 + r.2)

/-- Do a source range and the destination meet where R365 forbids it? -/
def rowsMeet (mul : Bool) (d r : Nat × Nat) : Bool :=
  decide (r.1 < d.1 + d.2) && decide (d.1 < r.1 + r.2) && (mul || r != d)

/-- A breach of the fields of R364 and R365. `im`: 0 no immediate, 1 allowed, 2 required; `extra`: what the row itself adds;
`d` and `srcs`: the destination and source rows. -/
def caneBad (c : CaneCmd) (im : Nat) (satOk mul cc extra : Bool) (d : Nat × Nat) (srcs : List (Nat × Nat)) : Bool :=
  decide (c.rsv ≠ 0#2) || (decide (im = 0) && c.i) || (decide (im = 2) && !c.i) || (c.sat && !satOk) ||
  (!mul && (decide (c.wam1 ≠ 0#6) || decide (c.wbm1 ≠ 0#6))) || (!cc && decide (c.cc ≠ 0#3)) || extra ||
  rowsBad d || srcs.any rowsBad || srcs.any (rowsMeet mul d)

/-- What a command does to its share: the canes written with the share's masks and status, a fault, a page whose walk comes first, a wait, or
an error in the memory it reads (structure and address). -/
inductive CaneRes where
  | ok (s : State) (sh : Share)
  | bad (f : FInfo)
  | walk (page : Nat)
  | wait
  | check (code addr : Nat)

/-- The canes of active columns. -/
def activeCanes (sh : Share) : List Nat := (sh.canes.zip sh.active).filterMap (fun p => if p.2.1 then some p.1 else none)

/-- A share whose columns of some arrays take no part. -/
def dropArrays (sh : Share) (l : List Nat) : Share :=
  { sh with active := (sh.canes.zip sh.active).map (fun p => if l.contains (p.1 / 1024) then (false, []) else p.2) }

/-- Run a command on the share whose sequencer is at work: a breach stops the tower's share (R370), as does what `run` finds; else
the command after it is next. `cols`, `srcs` and `d`: the columns it acts on and the rows it reads and writes there. An array in which it
meets a row group in error writes nothing, and the group takes a machine check (R488). -/
def runCane (s : State) (bad : Bool) (cols : Share → List Nat) (srcs : List (Nat × Nat)) (d : Nat × Nat)
    (run : State → Flight → Share → CaneRes) : Host.Outcome State Fault Refusal :=
  match s.focus with
  | .tower id =>
    match getF s id with
    | some f => match f.op with
      | .share sh =>
        .next (if bad then stopShare s f sh { cls := 0x15, code := 6, addr := sh.addr }
          else
            let errs := caneErrors s (cols sh) srcs d
            let sh0 := dropArrays sh (errs.map (fun g => g / 16384))
            match run s f (if errs.isEmpty then sh else sh0) with
            | .bad e => stopShare s f sh e
            | .walk p => flightWalk s f (128 + sh.tower) p
            | .wait => s
            | .check c a => checkShare s f sh c a
            | .ok s1 sh1 => match errs with
              | g :: _ => checkShare (caneMend s1 (cols sh0) d) f sh 8 (g / 16)
              | [] => putF (caneMend s1 (cols sh) d) { f with op := .share { sh1 with idx := sh.idx + 1 } })
      | _ => .fault .noIssuer
    | none => .fault .noIssuer
  | _ => .fault .noIssuer

/-- A word that is no command takes the cane-operand fate (R365). -/
def runNoCommand (s : State) : Host.Outcome State Fault Refusal := runCane s true activeCanes [] (0, 0) (fun s _ sh => .ok s sh)

/-- A command that computes a value in each active column (R366): `f` gives the destination's bits from the column's. -/
def caneValue (d dw : Nat) (f : Nat → Nat) (s : State) (_ : Flight) (sh : Share) : CaneRes :=
  .ok ((sh.canes.zip sh.active).foldl (fun s p => if p.2.1 then rowPut s p.1 d dw (f (caneGet s p.1)) else s) s) sh

/-- Run a command of that kind: its breach, its source rows, its destination rows and its value. -/
def runValue (c : CaneCmd) (im : Nat) (satOk mul cc extra : Bool) (d : Nat × Nat) (srcs : List (Nat × Nat)) (f : Nat → Nat) (s : State) :
    Host.Outcome State Fault Refusal :=
  runCane s (caneBad c im satOk mul cc extra d srcs) activeCanes srcs d (caneValue d.1 d.2 f)

/-- Rows of a column as an operand, by its signedness. -/
def colNum (sg : Bool) (v row w : Nat) : Int := if sg then toS w (fld v row w) else (fld v row w : Nat)
/-- The width of d, a and b. -/
def caneW (c : CaneCmd) : Nat := c.wm1.toNat + 1
/-- The immediate's bits at the operand's width. -/
def caneImm (c : CaneCmd) : Nat := wrap (caneW c) (toS 10 c.b.toNat)
/-- Operands A and B of a column. -/
def caneA (c : CaneCmd) (v : Nat) : Int := colNum c.s v c.a.toNat (caneW c)
def caneB (c : CaneCmd) (v : Nat) : Int := if c.i then (if c.s then toS (caneW c) (caneImm c) else ((caneImm c) : Nat)) else colNum c.s v c.b.toNat (caneW c)
/-- A result taken to w bits: reduced, or clamped with sat. -/
def caneTake (c : CaneCmd) (x : Int) : Nat :=
  wrap (caneW c) (if c.sat then (if c.s then clampI (-(2 ^ (caneW c - 1) : Nat)) ((2 ^ (caneW c - 1) : Nat) - 1) x else clampI 0 ((2 ^ (caneW c) : Nat) - 1) x)
    else x)

/-- The rows of a command with operands a and b. -/
def caneSrcs (c : CaneCmd) : List (Nat × Nat) := (c.a.toNat, caneW c) :: (if c.i then [] else [(c.b.toNat, caneW c)])

/-- A command of the shape d, a, b. -/
def caneAB (c : CaneCmd) (satOk : Bool) (f : Int → Int → Int) (s : State) : Host.Outcome State Fault Refusal :=
  runValue c 1 satOk false false false (c.d.toNat, caneW c) (caneSrcs c) (fun v => caneTake c (f (caneA c v) (caneB c v))) s

def execCaneVAdd (c : CaneCmd) (s : State) : Host.Outcome State Fault Refusal := caneAB c true (fun a b => a + b) s
def execCaneVSub (c : CaneCmd) (s : State) : Host.Outcome State Fault Refusal := caneAB c true (fun a b => a - b) s
def execCaneVMin (c : CaneCmd) (s : State) : Host.Outcome State Fault Refusal := caneAB c false (fun a b => min a b) s
def execCaneVMax (c : CaneCmd) (s : State) : Host.Outcome State Fault Refusal := caneAB c false (fun a b => max a b) s

/-- `v.mul` and `v.mad`: products of operands of widths wa and wb, to w bits once. -/
def caneMul (c : CaneCmd) (acc : Bool) (s : State) : Host.Outcome State Fault Refusal :=
  let wa := c.wam1.toNat + 1
  let wb := c.wbm1.toNat + 1
  let srcs := [(c.a.toNat, wa), (c.b.toNat, wb)]
  let d := (c.d.toNat, caneW c)
  runCane s (caneBad c 0 true true false false d srcs) activeCanes (if acc then d :: srcs else srcs) d (caneValue d.1 d.2 (fun v =>
    caneTake c (colNum c.s v c.a.toNat wa * colNum c.s v c.b.toNat wb + (if acc then colNum c.s v c.d.toNat (caneW c) else 0))))

def execCaneVMul (c : CaneCmd) (s : State) : Host.Outcome State Fault Refusal := caneMul c false s
def execCaneVMad (c : CaneCmd) (s : State) : Host.Outcome State Fault Refusal := caneMul c true s

/-- A bitwise command. -/
def caneBits (c : CaneCmd) (f : Nat → Nat → Nat) (s : State) : Host.Outcome State Fault Refusal :=
  runValue c 1 false false false false (c.d.toNat, caneW c) (caneSrcs c)
    (fun v => f (fld v c.a.toNat (caneW c)) (if c.i then (caneImm c) else fld v c.b.toNat (caneW c))) s

def execCaneVAnd (c : CaneCmd) (s : State) : Host.Outcome State Fault Refusal := caneBits c (fun a b => a &&& b) s
def execCaneVOr (c : CaneCmd) (s : State) : Host.Outcome State Fault Refusal := caneBits c (fun a b => a ||| b) s
def execCaneVXor (c : CaneCmd) (s : State) : Host.Outcome State Fault Refusal := caneBits c (fun a b => a ^^^ b) s
def execCaneVAndn (c : CaneCmd) (s : State) : Host.Outcome State Fault Refusal := caneBits c (fun a b => a - (a &&& b)) s

/-- A shift by the immediate count; a count of w or more acts as R275 states. -/
def caneShift (c : CaneCmd) (f : Nat → Nat → Nat) (s : State) : Host.Outcome State Fault Refusal :=
  runValue c 2 false false false (decide (fld c.b.toNat 6 4 ≠ 0)) (c.d.toNat, caneW c) [(c.a.toNat, caneW c)]
    (fun v => f (fld v c.a.toNat (caneW c)) (fld c.b.toNat 0 6)) s

def execCaneVShl (c : CaneCmd) (s : State) : Host.Outcome State Fault Refusal :=
  caneShift c (fun a n => if (caneW c) ≤ n then 0 else a * 2 ^ n % 2 ^ (caneW c)) s
def execCaneVShr (c : CaneCmd) (s : State) : Host.Outcome State Fault Refusal :=
  caneShift c (fun a n => if (caneW c) ≤ n then 0 else a / 2 ^ n) s
def execCaneVSar (c : CaneCmd) (s : State) : Host.Outcome State Fault Refusal :=
  caneShift c (fun a n => wrap (caneW c) (toS (caneW c) a / (2 ^ min n (caneW c) : Nat))) s

/-- `v.cmp`: one row. -/
def execCaneVCmp (c : CaneCmd) (s : State) : Host.Outcome State Fault Refusal :=
  runValue c 1 false false true (decide (5 < c.cc.toNat)) (c.d.toNat, 1) (caneSrcs c)
    (fun v => if condHolds c.cc.toNat (caneA c v) (caneB c v) then 1 else 0) s

def execCaneVMov (c : CaneCmd) (s : State) : Host.Outcome State Fault Refusal :=
  runValue c 0 false false false (decide (c.b ≠ 0#10)) (c.d.toNat, caneW c) [(c.a.toNat, caneW c)] (fun v => fld v c.a.toNat (caneW c)) s

def execCaneVLi (c : CaneCmd) (s : State) : Host.Outcome State Fault Refusal :=
  runValue c 2 false false false (decide (c.a ≠ 0#10)) (c.d.toNat, caneW c) [] (fun _ => (caneImm c)) s

/-! Masks (R366). -/

/-- The fields a mask command leaves zero; `ccOk`: bit [2] is .not. -/
def stackBad (c : CaneCmd) (ccOk aOk : Bool) : Bool :=
  caneBad c 0 false false true
    (c.s || decide (c.wm1 ≠ 0#6) || decide (c.d ≠ 0#10) || decide (c.b ≠ 0#10) || (!aOk && decide (c.a ≠ 0#10)) ||
      decide (c.cc.toNat / (if ccOk then 2 else 1) ≠ 0)) (0, 1) []

/-- A mask command acts on every driven column, or none when `bad` holds of some column's depth (R366, R370); `reads` are the rows it
reads there. -/
def caneStack (c : CaneCmd) (ccOk aOk : Bool) (reads : List (Nat × Nat)) (bad : Nat → Bool) (f : Nat → Bool × List Bool → Bool × List Bool) (s : State) :
    Host.Outcome State Fault Refusal :=
  runCane s (stackBad c ccOk aOk) (fun sh => sh.canes) reads (0, 0) (fun s _ sh =>
    if sh.active.any (fun p => bad p.2.length) then .bad { cls := 0x15, code := 7, addr := sh.addr }
    else .ok s { sh with active := (sh.canes.zip sh.active).map (fun p => f (caneGet s p.1) p.2) })

def execCPush (c : CaneCmd) (s : State) : Host.Outcome State Fault Refusal :=
  caneStack c true true [(c.a.toNat, 1)] (fun d => decide (4 ≤ d))
    (fun v p => (p.1 && (decide (fld v c.a.toNat 1 = 1) != c.cc.getLsbD 0), p.1 :: p.2)) s
def execCElse (c : CaneCmd) (s : State) : Host.Outcome State Fault Refusal :=
  caneStack c false false [] (fun d => decide (d = 0)) (fun _ p => (p.2.headD false && !p.1, p.2)) s
def execCPop (c : CaneCmd) (s : State) : Host.Outcome State Fault Refusal :=
  caneStack c false false [] (fun d => decide (d = 0)) (fun _ p => (p.2.headD false, p.2.drop 1)) s

/-! `c.bfa` (R367). -/

/-- The blocks that take part: the first cane of each block whose column 0 is driven and active, with its element. -/
def bfaBlocks (sh : Share) : List (Nat × Nat) :=
  ((List.range sh.canes.length).zip (sh.canes.zip sh.active)).filterMap (fun p =>
    if p.2.1 % 32 = 0 ∧ p.2.2.1 then some (p.2.1, sh.first + p.1) else none)

/-- The columns of the blocks that take part. -/
def bfaCanes (sh : Share) : List Nat := (bfaBlocks sh).flatMap (fun p => (List.range 32).map (fun j => p.1 + j))

/-- The pages of every block are translated before anything is written (R370). -/
def bfaPages (s : State) (f : Flight) (sh : Share) (g : Nat) : Pages :=
  (bfaBlocks sh).foldl (fun a p => match a with
    | .ok l => (match towerPages s f sh.tower (g + 128 * (p.2 / 32)) 128 1 with | .ok pas => .ok (l ++ pas) | r => r)
    | r => r) (.ok [])

/-- The sums written, one block after another; the status bit of an overflow (R205). -/
def bfaWrite (c : CaneCmd) (s : State) (sh : Share) (mem : List Byte) : CaneRes :=
  let blks := bfaBlocks sh
  let r := ((List.range blks.length).zip blks).foldl (fun (a : State × Bool) p =>
    let canes := (List.range 32).map (fun j => p.2.1 + j)
    let b := if c.i then bfpOfBytes ((mem.drop (128 * p.1)).take 128) else getBlock a.1 canes c.b.toNat
    let (x, ov) := bfpAdd (getBlock a.1 canes c.a.toNat) b
    (putBlock a.1 canes c.d.toNat x, a.2 || ov)) (s, false)
  .ok r.1 { sh with status := if r.2 then sh.status ||| 2#2 else sh.status }

/-- The memory form reads its blocks at their homes when these may answer (R106, R142). -/
def bfaMemory (c : CaneCmd) (s : State) (f : Flight) (sh : Share) : CaneRes :=
  let g := sh.gaddr.getD (c.b.toNat % 4) 0
  if 2 ^ 57 ≤ g then .bad { cls := 0x15, code := 6, addr := sh.addr }
  else match bfaPages s f sh g with
    | .bad e => .bad e
    | .walk p => .walk p
    | .ok pas => match towerRead s f 0 pas with
      | none => .wait
      | some (.inl (q, e)) => .check e q
      | some (.inr (s1, mem)) => bfaWrite c s1 sh mem

def execCBfa (c : CaneCmd) (s : State) : Host.Outcome State Fault Refusal :=
  let srcs := (c.a.toNat, 32) :: (if c.i then [] else [(c.b.toNat, 32)])
  let d := (c.d.toNat, 32)
  runCane s (caneBad c 1 false false false (c.s || decide (c.wm1 ≠ 31#6) || (c.i && decide (fld c.b.toNat 2 8 ≠ 0))) d srcs) bfaCanes srcs d
    (fun s f sh => if c.i then bfaMemory c s f sh else bfaWrite c s sh [])

end Sys2Proof.Machine
end

