-- ==== Sys2Proof/Machine/VFloat.lean ====
section
/-! DEFINITION. The vector float words (R280 to R283) and the float pair halves (R229, R230). Flags are the OR over the active
lanes and sub-elements (R179). -/

namespace Sys2Proof.Machine

/-- Sub-element results with their flags, packed. -/
def packF (w : Nat) (l : List (Nat × Nat)) : W64 × Nat := (pack w (l.map Prod.fst), l.foldl (fun a x => a ||| x.2) 0)

def each1F (w : Nat) (f : Nat → Nat × Nat) (a : W64) : W64 × Nat :=
  packF w ((List.range (64 / w)).map (fun k => f (elem w k a)))
def each2F (w : Nat) (f : Nat → Nat → Nat × Nat) (a b : W64) : W64 × Nat :=
  packF w ((List.range (64 / w)).map (fun k => f (elem w k a) (elem w k b)))
def each3F (w : Nat) (f : Nat → Nat → Nat → Nat × Nat) (a b c : W64) : W64 × Nat :=
  packF w ((List.range (64 / w)).map (fun k => f (elem w k a) (elem w k b) (elem w k c)))

/-- Write results and raise their flags. -/
def writeF (g : Group) (l : List (Nat × Nat × W64 × Nat)) : Group :=
  raiseFlags (wvs g (l.map (fun x => (x.1, x.2.1, x.2.2.1)))) (BitVec.ofNat 5 (l.foldl (fun a x => a ||| x.2.2.2) 0))

/-- A vector word whose results raise flags. -/
def vecWordF (i : Instr) (w : VWord) (s : State) (useB useC : Bool) (f : W64 → W64 → W64 → W64 × Nat) :
    Host.Outcome State Fault Refusal :=
  runWord i w.msel.toNat false s (fun s x =>
    match tileHold s x w true useB with
    | some r => r
    | none =>
      let rd (c : BitVec 9) (i j l : Nat) : W64 := readSrc x.g c.toNat (fragPair w) i j l
      okG s (writeF x.g ((blockCells (rowsV w) (colsV w)).flatMap (fun c =>
        (lanesOf x.active).map (fun l =>
          (w.d.toNat + 16 * c.1 + c.2, l,
            f (rd w.a c.1 c.2 l) (if useB then rd w.b c.1 c.2 l else 0#64) (if useC then rd w.c c.1 c.2 l else 0#64)))))))

/-- The mode and ftz of an arithmetic word (R280). -/
def rndV (w : VWord) : Rnd := { mode := w.fn.toNat % 4, ftz := w.fn.getLsbD 2 }
def fmtV (w : VWord) : Fmt := fmtTy w.ty.toNat

def execVFadd (w : VWord) (s : State) : Host.Outcome State Fault Refusal :=
  vecWordF (.vFadd w) w s true false (fun a b _ => each2F (widV w) (addF (fmtV w) (rndV w) false) a b)
def execVFsub (w : VWord) (s : State) : Host.Outcome State Fault Refusal :=
  vecWordF (.vFsub w) w s true false (fun a b _ => each2F (widV w) (addF (fmtV w) (rndV w) true) a b)
def execVFmul (w : VWord) (s : State) : Host.Outcome State Fault Refusal :=
  vecWordF (.vFmul w) w s true false (fun a b _ => each2F (widV w) (mulF (fmtV w) (rndV w)) a b)
def execVFma (w : VWord) (s : State) : Host.Outcome State Fault Refusal :=
  vecWordF (.vFma w) w s true true (fun a b c => each3F (widV w) (fmaF (fmtV w) (rndV w)) a b c)
def execVFmin (w : VWord) (s : State) : Host.Outcome State Fault Refusal :=
  vecWordF (.vFmin w) w s true false (fun a b _ => each2F (widV w) (minmaxF (fmtV w) (w.fn.getLsbD 2) false) a b)
def execVFmax (w : VWord) (s : State) : Host.Outcome State Fault Refusal :=
  vecWordF (.vFmax w) w s true false (fun a b _ => each2F (widV w) (minmaxF (fmtV w) (w.fn.getLsbD 2) true) a b)
def execVFcmp (w : VWord) (s : State) : Host.Outcome State Fault Refusal :=
  vecWordF (.vFcmp w) w s true false (fun a b _ => each2F (widV w) (fun x y =>
    let r := cmpF (fmtV w) (w.fn.getLsbD 3) (w.fn.toNat % 8) x y
    (if r.1 then ones (widV w) else 0, r.2)) a b)
def execVFrnd (w : VWord) (s : State) : Host.Outcome State Fault Refusal :=
  vecWordF (.vFrnd w) w s false false (fun a _ _ => each1F (widV w) (rndF (fmtV w) (rndV w)) a)
def execVFclass (w : VWord) (s : State) : Host.Outcome State Fault Refusal :=
  vecWordF (.vFclass w) w s false false (fun a _ _ => each1F (widV w) (fun x => (classF (fmtV w) x, 0)) a)
/-- Two f32 results from four 16-bit products (R283). -/
def execVFdot2 (w : VWord) (s : State) : Host.Outcome State Fault Refusal :=
  vecWordF (.vFdot2 w) w s true true (fun a b c => packF 32 ((List.range 2).map (fun k =>
    dot2F (fmtV w) (rndV w) (elem 16 (2 * k) a) (elem 16 (2 * k + 1) a) (elem 16 (2 * k) b) (elem 16 (2 * k + 1) b) (elem 32 k c))))

/-! Pair halves: .rn, no ftz (R230). -/

/-- Run a float half. -/
def floatHalf (h : Half) (s : State) (f : Fmt → Nat → Nat → Nat × Nat) : Host.Outcome State Fault Refusal :=
  runHalf s (fun s x =>
    let t := (ctypeCode h.ctype.toNat).getD 6
    okG s (writeF x.g ((lanesOf x.exec).map (fun l =>
      (h.d.toNat, l, each2F (tyWidth t) (f (fmtTy t)) (rv x.g h.a.toNat l) (rv x.g h.b.toNat l))))))

def execPairVFadd (h : Half) (s : State) : Host.Outcome State Fault Refusal := floatHalf h s (fun f => addF f {} false)
def execPairVFsub (h : Half) (s : State) : Host.Outcome State Fault Refusal := floatHalf h s (fun f => addF f {} true)
def execPairVFmul (h : Half) (s : State) : Host.Outcome State Fault Refusal := floatHalf h s (fun f => mulF f {})
def execPairVFmin (h : Half) (s : State) : Host.Outcome State Fault Refusal := floatHalf h s (fun f => minmaxF f false false)
def execPairVFmax (h : Half) (s : State) : Host.Outcome State Fault Refusal := floatHalf h s (fun f => minmaxF f false true)
def execPairVFrnd (h : Half) (s : State) : Host.Outcome State Fault Refusal := floatHalf h s (fun f a _ => rndF f {} a)
def execPairVFclass (h : Half) (s : State) : Host.Outcome State Fault Refusal := floatHalf h s (fun f a _ => (classF f a, 0))

end Sys2Proof.Machine
end

