-- ==== Sys2Proof/Machine/Cross.lean ====
section
/-! DEFINITION. The cross-lane words, votes and mask words (R292 to R299) and `rng.draw` (R357). -/

namespace Sys2Proof.Machine

/-! Moves (R293 to R295). -/

/-- What an element-moving word takes from a lane (R292): with .z an inactive lane supplies zero. -/
def fromLane (x : Issue) (z : Bool) (rd : Nat → W64) (lane : Nat) : W64 :=
  if x.g.width ≤ lane ∨ (z ∧ !x.active.getLsbD lane) then 0#64 else rd lane

/-- A cross-lane word: for each register of the block, the values of every active lane from the lanes' source registers. -/
def crossWord (i : Instr) (w : VWord) (s : State) (useB : Bool)
    (f : Issue → (Nat → W64) → (Nat → W64) → Nat → W64) : Host.Outcome State Fault Refusal :=
  runWord i w.msel.toNat false s (fun s x =>
    match tileHold s x w true useB with
    | some r => r
    | none =>
      okG s (wvs x.g ((blockCells (rowsV w) (colsV w)).flatMap (fun c =>
        let ra (l : Nat) : W64 := readSrc x.g w.a.toNat (fragPair w) c.1 c.2 l
        let rb (l : Nat) : W64 := if useB then readSrc x.g w.b.toNat (fragPair w) c.1 c.2 l else 0#64
        (lanesOf x.active).map (fun l => (w.d.toNat + 16 * c.1 + c.2, l, f x ra rb l))))))

def execXShf (w : VWord) (s : State) : Host.Outcome State Fault Refusal :=
  crossWord (.xShf w) w s true (fun x ra rb l =>
    let n := 64 / widV w
    let b := (rb l).toNat
    let v := fromLane x (w.fn.getLsbD 6) ra (fld b 0 6)
    pack (widV w) ((List.range n).map (fun k => elem (widV w) ((k + fld b 8 6) % n) v)))

/-- Two destination blocks: both are computed before either is written (R40, R294). -/
def execXBfly (w : VWord) (s : State) : Host.Outcome State Fault Refusal :=
  runWord (.xBfly w) w.msel.toNat false s (fun s x =>
    match tileHold s x w true true with
    | some r => r
    | none =>
      let wd := widV w
      let n := 64 / wd
      let j := w.fn.toNat % 16
      let out (e : Bool) (base : Nat) : List (Nat × Nat × W64) :=
        (blockCells (rowsV w) (colsV w)).flatMap (fun c =>
          let src (b : Bool) (i : Nat) : Nat :=
            elem wd (i % n) (readSrc x.g (if b then w.b.toNat else w.a.toNat) (fragPair w) c.1 c.2 (i / n))
          (lanesOf x.active).map (fun l =>
            (base + 16 * c.1 + c.2, l, pack wd ((List.range n).map (fun k =>
              let i := l * n + k
              let bit := i.testBit j
              if e == bit then src e i else src bit (i ^^^ 2 ^ j))))))
      okG s (wvs x.g (out false w.d.toNat ++ out true w.c.toNat)))

def execXBcast (w : VWord) (s : State) : Host.Outcome State Fault Refusal :=
  crossWord (.xBcast w) w s false (fun x ra _ _ =>
    let n := 64 / widV w
    let e := elemIndex x.g w
    let v := elem (widV w) (e % n) (fromLane x (w.fn.getLsbD 6) ra (e / n))
    pack (widV w) (List.replicate n v))

/-! Scans and reductions (R296). -/

/-- What a scan or reduction combines with: op 0 add, 1 min, 2 max, 3 and, 4 or, 5 xor. -/
structure ScanOp where
  op : Nat
  t : Nat
  sat : Bool
  ftz : Bool
  deriving DecidableEq, Repr

/-- Is it a float operation? -/
def ScanOp.isF (o : ScanOp) : Bool := decide (o.op ≤ 2) && tyF o.t

/-- The identity of an operation (R292). -/
def ScanOp.ident (o : ScanOp) : Nat :=
  if o.isF then (if o.op = 0 then signBit (fmtTy o.t) true else defNan (fmtTy o.t))
  else match o.op with
    | 1 => wrap (tyWidth o.t) (hiT o.t)
    | 2 => wrap (tyWidth o.t) (loT o.t)
    | 3 => ones (tyWidth o.t)
    | _ => 0

/-- The minimum or maximum of elements in order under R178. A lone element is combined with itself, so that it too is read under
.ftz and a signaling NaN is quieted (R184, R296). -/
def foldMinMax (f : Fmt) (ftz mx : Bool) (h : Nat) (r : List Nat) : Nat :=
  (if r.isEmpty then [h] else r).foldl (fun a e => (minmaxF f ftz mx a e).1) h

/-- Combine elements in order (R296). A cross-lane word sets no flag (R273). -/
def ScanOp.combine (o : ScanOp) (l : List Nat) : Nat :=
  match l with
  | [] => o.ident
  | h :: r =>
    let f := fmtTy o.t
    match o.op with
    | 0 =>
      if o.isF then let v := l.map (decF f o.ftz); (dotF f { ftz := o.ftz } v [] v).1
      else writeT o.t o.sat (l.foldl (fun a e => a + readT o.t e) 0)
    | 1 => if o.isF then foldMinMax f o.ftz false h r else r.foldl (minE o.t) h
    | 2 => if o.isF then foldMinMax f o.ftz true h r else r.foldl (maxE o.t) h
    | 3 => r.foldl (fun a e => a &&& e) h
    | 4 => r.foldl (fun a e => a ||| e) h
    | _ => r.foldl (fun a e => a ^^^ e) h

def scanOp (w : VWord) : ScanOp :=
  { op := w.fn.toNat % 8, t := w.ty.toNat, sat := w.fn.getLsbD 4, ftz := w.fn.getLsbD 5 }

/-- The elements a scan or reduction combines, in element order (R292). -/
def scanElems (x : Issue) (w : VWord) (c : Nat × Nat) : List Nat :=
  (List.range x.g.width).flatMap (fun l =>
    if x.active.getLsbD l then elems (widV w) (readSrc x.g w.a.toNat (fragPair w) c.1 c.2 l)
    else List.replicate (64 / widV w) (scanOp w).ident)

def execXScan (w : VWord) (s : State) : Host.Outcome State Fault Refusal :=
  runWord (.xScan w) w.msel.toNat false s (fun s x =>
    match tileHold s x w true false with
    | some r => r
    | none =>
      let n := 64 / widV w
      let ex := w.fn.getLsbD 3
      okG s (wvs x.g ((blockCells (rowsV w) (colsV w)).flatMap (fun c =>
        let v := scanElems x w c
        (lanesOf x.active).map (fun l =>
          (w.d.toNat + 16 * c.1 + c.2, l, pack (widV w) ((List.range n).map (fun k =>
            (scanOp w).combine (v.take (l * n + k + (if ex then 0 else 1)))))))))) )

def execXRed (w : VWord) (s : State) : Host.Outcome State Fault Refusal :=
  runWord (.xRed w) w.msel.toNat false s (fun s x =>
    match tileHold s x w true false with
    | some r => r
    | none =>
      if isSca w.d.toNat then
        okG s (ws x.g (w.d.toNat - 352) (extend w.ty.toNat ((scanOp w).combine (scanElems x w (0, 0)))))
      else
        okG s (wvs x.g ((blockCells (rowsV w) (colsV w)).flatMap (fun c =>
          let r := (scanOp w).combine (scanElems x w c)
          (lanesOf x.active).map (fun l =>
            (w.d.toNat + 16 * c.1 + c.2, l, pack (widV w) (List.replicate (64 / widV w) r)))))))

/-- R297: selected elements go to the elements of the lanes of exec, in increasing order; the rest of those receive zero. -/
def execXCompact (w : VWord) (s : State) : Host.Outcome State Fault Refusal :=
  runWord (.xCompact w) w.msel.toNat false s (fun s x =>
    match tileHold s x w true true with
    | some r => r
    | none =>
      let wd := widV w
      let n := 64 / wd
      okG s (wvs x.g ((blockCells (rowsV w) (colsV w)).flatMap (fun c =>
        let sel := (lanesOf x.active).flatMap (fun l =>
          let a := elems wd (readSrc x.g w.a.toNat (fragPair w) c.1 c.2 l)
          let b := elems wd (readSrc x.g w.b.toNat (fragPair w) c.1 c.2 l)
          (a.zip b).filterMap (fun p => if p.2 ≠ 0 then some p.1 else none))
        let lanes := lanesOf x.exec
        ((List.range lanes.length).zip lanes).map (fun p =>
          (w.d.toNat + 16 * c.1 + c.2, p.2, pack wd ((List.range n).map (fun k => sel.getD (p.1 * n + k) 0))))))))

/-! Votes (R298). -/

/-- The lanes that count. -/
def voteLanes (x : Issue) (w : VWord) : List Nat :=
  (lanesOf x.active).filter (fun l =>
    if isMask w.a.toNat then (readMask x w.a.toNat).getLsbD l else decide (rv x.g w.a.toNat l ≠ 0#64))

def voteWord (i : Instr) (w : VWord) (s : State) (f : Issue → List Nat → W64) : Host.Outcome State Fault Refusal :=
  runWord i w.msel.toNat false s (fun s x => okG s (writeCode x.g w.d.toNat (f x (voteLanes x w))))

def execVoteAny (w : VWord) (s : State) : Host.Outcome State Fault Refusal :=
  voteWord (.voteAny w) w s (fun _ l => if l.isEmpty then 0#64 else 1#64)
def execVoteAll (w : VWord) (s : State) : Host.Outcome State Fault Refusal :=
  voteWord (.voteAll w) w s (fun x l => if l.length = (lanesOf x.active).length then 1#64 else 0#64)
def execVoteBal (w : VWord) (s : State) : Host.Outcome State Fault Refusal :=
  voteWord (.voteBal w) w s (fun _ l => lanesMask l)

/-! Mask words (R299). -/

def maskWord (i : Instr) (w : VWord) (s : State) (f : W64 → W64 → W64) : Host.Outcome State Fault Refusal :=
  runWord i 0 false s (fun s x => okG s (writeCode x.g w.d.toNat (f (readMask x w.a.toNat) (readMask x w.b.toNat))))

def execMAnd (w : VWord) (s : State) : Host.Outcome State Fault Refusal := maskWord (.mAnd w) w s (fun a b => a &&& b)
def execMOr (w : VWord) (s : State) : Host.Outcome State Fault Refusal := maskWord (.mOr w) w s (fun a b => a ||| b)
def execMXor (w : VWord) (s : State) : Host.Outcome State Fault Refusal := maskWord (.mXor w) w s (fun a b => a ^^^ b)
def execMAndn (w : VWord) (s : State) : Host.Outcome State Fault Refusal := maskWord (.mAndn w) w s (fun a b => a &&& ~~~b)
def execMPopc (w : VWord) (s : State) : Host.Outcome State Fault Refusal :=
  maskWord (.mPopc w) w s (fun a _ => r64 (popc 64 a.toNat))
def execMFfs (w : VWord) (s : State) : Host.Outcome State Fault Refusal :=
  maskWord (.mFfs w) w s (fun a _ => r64 (lowBit 64 a.toNat))
def execMSet (w : VWord) (s : State) : Host.Outcome State Fault Refusal :=
  runWord (.mSet w) 0 false s (fun s x =>
    okG s (writeCode x.g w.d.toNat
      (if isVec w.a.toNat then lanesMask ((lanesOf x.exec).filter (fun l => decide (rv x.g w.a.toNat l ≠ 0#64)))
       else readMask x w.a.toNat)))

/-- R357. -/
def execRngDraw (w : VWord) (s : State) : Host.Outcome State Fault Refusal :=
  runWord (.rngDraw w) w.msel.toNat false s (fun s x =>
    let ec := colsV w
    let n0 := x.g.draw.toNat
    let g1 := wvs x.g (mapBlock x w (fun i j l => r64 (groupWord s x.g (n0 + (i * ec + j) * x.g.width + l))))
    okG s { g1 with draw := x.g.draw + r64 (rowsV w * ec * x.g.width) })

end Sys2Proof.Machine
end

