-- ==== Sys2Proof/Machine/System.lean ====
section
/-! DEFINITION. The system words (R261 to R270) and the service's registers (R429). -/

namespace Sys2Proof.Machine

/-- R267: EPC names the next clause and EIDX is 0. -/
def execTrap (w : YWord) (s : State) : Host.Outcome State Fault Refusal :=
  runWord (.trap w) 0 false s (fun s x =>
    .done (leavePart (takeException s x.g x.b false { cls := 0, code := w.imm24.toNat } x.nextClause 0) x.g x.b))

/-- R269: EPC's form, then its fetch, then EIDX against the clause there, then the fetch of the clause's other lines; all inside the handler,
so a fault goes to the service (R268). -/
def execRte (w : YWord) (s : State) : Host.Outcome State Fault Refusal :=
  runWord (.rte w) 0 false s (fun s x =>
    match x.g.handler with
    | none => badW s 1 10 0 0
    | some h =>
      match targetBad h.epc with
      | some f => .bad s f
      | none => match transferStop s x h.epc, codeBad s x.g h.epc 8 with
        | some r, _ => r
        | none, some (p, c) => .bad s { cls := 0x19, code := c, addr := p }
        | none, none =>
          let s1 := iFill s x.g h.epc 8
          match iWord s1 x.g h.epc with
          | none => .park s (.read ((codeAt s x.g h.epc).map Prod.fst).toList true)
          | some q =>
            if fld q.toNat 60 4 < h.eidx then .bad s { cls := 8, code := 4, addr := h.epc, index := h.eidx }
            else match (clauseTail h.epc q).findSome? (transferStop s x) with
              | some r => r
              | none => .done (holdGroup (returnException s1 x.g h) x.g.gid (x.w.getLsbD 55)))

/-- Does reading this system register give a value the specification does not state? A context that does not exist, and WAKE,
which is written only (R429). -/
def sregOpen (s : State) (n : Nat) : Bool :=
  decide (n = 0x8021) || (decide (0x8001 ≤ n ∧ n ≤ 0x8004 ∧ n ≠ 0x8003) && (getC s s.ctxSel).isNone)

/-- What a system register holds for the slot that reads it (R261, R429). -/
def sregRead (s : State) (x : Issue) (n : Nat) : W64 :=
  let h := x.g.handler
  let c := getC s s.ctxSel
  if n = 0 then x.g.flags.setWidth 64
  else if n = 1 then x.g.draw
  else if n = 2 then (if x.slot.floor.isSome then BitVec.allOnes 64 else r64 x.g.prio)
  else if n = 3 then r64 x.slot.depth
  else if n = 4 then r64 x.g.ctx
  else if 0x100 ≤ n ∧ n ≤ 0x107 then (match h with | some h => h.frec.getD (n - 0x100) 0#64 | none => 0#64)
  else if n = 0x110 then (match h with | some h => r64 h.epc | none => 0#64)
  else if n = 0x111 then (match h with | some h => r64 h.eidx | none => 0#64)
  else if n = 0x112 then (match h with | some h => h.done | none => 0#64)
  else if 0x120 ≤ n ∧ n ≤ 0x123 then fget 0#64 (n - 0x120) x.g.scr
  else if sregOpen s n then openValue s
  else if n = 0x8000 then r64 s.ctxSel
  else if n = 0x8001 then (match c with | some c => r64 c.root | none => 0#64)
  else if n = 0x8002 then (match c with | some c => r64 c.qprio | none => 0#64)
  else if n = 0x8004 then (match c with | some c => r64 c.pairs | none => 0#64)
  else if n = 0x8010 then r64 s.atBase
  else if n = 0x8011 then (if s.atBusy then 1#64 else 0#64)
  else if n = 0x8020 then r64 s.stBlk
  else 0#64

def execSysGet (w : YWord) (s : State) : Host.Outcome State Fault Refusal :=
  runWord (.sysGet w) 0 false s (fun s x =>
    let n := w.sreg.toNat
    let s1 := putG s (ws x.g w.d.toNat (sregRead s x n))
    .ok (if sregOpen s n then tickFree s1 else s1))

/-- A write to the handler's registers is ignored outside a handler (R261). -/
def withHandler (g : Group) (f : Handler → Handler) : Group := { g with handler := g.handler.map f }

/-- Change the context CTXSEL names. -/
def withSel (s : State) (f : Context → Context) : State :=
  match getC s s.ctxSel with | some c => putC s (f c) | none => s

/-- WAKE restarts halted control cores at the clause after their `halt` (R429). -/
def wakeCores (s : State) (v : W64) : State :=
  let up (x : Slot) : Slot := match x.park with | some .halt => { x with park := none } | _ => x
  { s with groups := s.groups.map (fun g =>
      if 96 ≤ g.core ∧ v.getLsbD (g.core - 96) then { g with slotA := up g.slotA, slotB := up g.slotB } else g) }

/-! The access tables in memory (R438). Each target's entries stand in a row, ended by one without rights, at ATBASE plus 1 MiB times the
target's number (log entry 86). -/

/-- An entry of 32 bytes. -/
def atBytes (e : AtEntry) : List Byte :=
  toBytes 8 (e.ctx + e.eng * 2 ^ 12 + e.target * 2 ^ 16 + e.rights * 2 ^ 24) ++ toBytes 8 e.base ++ toBytes 8 e.size ++ toBytes 8 0

/-- The entry of a target that 32 bytes hold; none ends the table. -/
def atEntryOf (target : Nat) (b : List Byte) : Option AtEntry :=
  let q := le b 0 8
  if fld q 24 3 = 0 then none
  else some { target := target, ctx := fld q 0 12, eng := fld q 12 4, base := le b 8 8 / 65536 * 65536, size := le b 16 8 / 65536 * 65536,
              rd := q.testBit 24, w := q.testBit 25, atomic := q.testBit 26 }

/-- The entries of a target from an address on, at most `n`. -/
def readTable (s : State) (target : Nat) : Nat → Nat → List AtEntry
  | 0, _ => []
  | n + 1, a => match atEntryOf target (rdBytes s a 32) with
    | none => []
    | some e => e :: readTable s target n (a + 32)

/-- The tables as memory holds them. -/
def tablesAt (s : State) : List AtEntry := (List.range 5).flatMap (fun t => readTable s t 32767 (s.atBase + 2 ^ 20 * t))

/-- The service writes the tables in memory. -/
def writeTables (s : State) : State :=
  performWrite s 0 ((List.range 5).flatMap (fun t =>
    at_ (s.atBase + 2 ^ 20 * t) ((s.atTable.filter (fun e => e.target == t)).flatMap atBytes ++ List.replicate 32 0#8)))

/-- ATINV: the targets take the tables as memory holds them, and the invalidation of the entries that are gone runs until every access they
allowed has been performed (R438, R494). -/
def startInvalidation (s : State) : State :=
  let new := tablesAt s
  { s with atBusy := true, atPrev := if s.atBusy then s.atPrev else s.atTable, atTable := new, atRemoved := s.atRemoved ++ s.atTable.filter (fun e => !new.contains e) }

/-- A write to a system register (R261, R429). -/
def sregWrite (s : State) (g : Group) (n : Nat) (v : W64) : State :=
  if n = 0 then putG s { g with flags := v.setWidth 5 }
  else if n = 0x110 then putG s (withHandler g (fun h => { h with epc := v.toNat }))
  else if n = 0x111 then putG s (withHandler g (fun h => { h with eidx := v.toNat % 16 }))
  else if n = 0x112 then putG s (withHandler g (fun h => { h with done := v }))
  else if 0x120 ≤ n ∧ n ≤ 0x123 then putG s { g with scr := fput 0#64 (n - 0x120) v g.scr }
  else if n = 0x8000 then { s with ctxSel := v.toNat }
  else if n = 0x8001 then withSel s (fun c => { c with root := v.toNat })
  else if n = 0x8002 then withSel s (fun c => { c with qprio := v.toNat % 2 ^ 48 })
  else if n = 0x8003 then withSel s (fun c => { c with key := v })
  else if n = 0x8004 then withSel s (fun c => { c with pairs := v.toNat % 256 })
  else if n = 0x8010 then { s with atBase := v.toNat }
  else if n = 0x8011 then startInvalidation s
  else if n = 0x8021 then wakeCores s v
  else s

def execSysSet (w : YWord) (s : State) : Host.Outcome State Fault Refusal :=
  runWord (.sysSet w) 0 false s (fun s x => .ok (sregWrite s x.g w.sreg.toNat (rs x.g w.a.toNat)))
/-- `sys.set` of ATINV starts an access-table invalidation (R429, R438). -/
def execAtinv (w : YWord) (s : State) : Host.Outcome State Fault Refusal :=
  runWord (.atinv w) 0 false s (fun s x => .ok (sregWrite s x.g w.sreg.toNat (rs x.g w.a.toNat)))
def execWake (w : YWord) (s : State) : Host.Outcome State Fault Refusal :=
  runWord (.wake w) 0 false s (fun s x => .ok (sregWrite s x.g w.sreg.toNat (rs x.g w.a.toNat)))

/-- R265: the record goes to the service; with a debugger the slot parks at the following word until it is resumed. -/
def execBkpt (w : YWord) (s : State) : Host.Outcome State Fault Refusal :=
  runWord (.bkpt w) 0 false s (fun s x =>
    let r := mkRecord s x.g x.b false { cls := 0, code := w.imm24.toNat } x.exec
    let s1 := notice s (jobOf s x.g.ctx) x.g.ctx 33 (recordBytes r)
    match getC s x.g.ctx with
    | some c =>
      if c.debugger then
        let s2 := advance s1 x.g.gid x.b false false
        match getG s2 x.g.gid with
        | none => .done s2
        | some g =>
          let imm := w.imm24.toNat + (if w.sw then 2 ^ 24 else 0)
          .done (leavePart (putG s2 (setSlot g x.b { slotOf g x.b with park := some (.bkpt imm) })) g x.b)
      else .ok s1
    | none => .ok s1)

/-- R263. -/
def execPrio (w : YWord) (s : State) : Host.Outcome State Fault Refusal :=
  runWord (.prio w) 0 false s (fun s x => okG s { x.g with prio := min (w.imm24.toNat % 8) x.g.base })
def execNop (w : YWord) (s : State) : Host.Outcome State Fault Refusal :=
  runWord (.nop w) 0 false s (fun s _ => .ok s)
/-- R264: a control core stops until WAKE restarts it at the next clause. -/
def execHalt (w : YWord) (s : State) : Host.Outcome State Fault Refusal :=
  runWord (.halt w) 0 false s (fun s x =>
    .done (leavePart (putG s (setSlot x.g x.b { atClause x.slot x.nextClause with park := some .halt })) x.g x.b))

end Sys2Proof.Machine
end

