-- ==== Sys2Proof/Machine/Net.lean ====
section
/-! DEFINITION. The network words (R375 to R378), their events (R145, R376, R377, R497, R498), and collectives (R379 to R382,
R501). -/

namespace Sys2Proof.Machine

/-! Receive counters (R375). -/

def counterOf (s : State) (ctx k : Nat) : W64 := match getC s ctx with | some c => fget 0#64 k c.counters | none => 0#64

/-- ARMED_SEND_FIRE (R377): the armed sends a counter's value makes ready fire, in arming order. -/
def fireReady (s : State) (ctx k : Nat) : State :=
  match getC s ctx with
  | none => s
  | some c =>
    let ready (a : Armed) : Bool := a.trig == k && decide (a.thr ≤ (fget 0#64 k c.counters).toNat)
    let s1 := putC s { c with armed := c.armed.filter (fun a => !ready a) }
    (c.armed.filter ready).foldl (fun s a =>
      launchOp s 0 ctx 255 .none (.send { loc := a.loc, addr := a.src, remote := a.dst, bytes := a.bytes, dev := a.dev, cnt := a.cnt,
                                          fired := true })) s1

/-- A counter changes (R375), which is progress of its context (R454). -/
def counterSet (s : State) (ctx k : Nat) (v : W64) : State :=
  match getC s ctx with
  | none => s
  | some c => fireReady (putC s { c with counters := fput 0#64 k v c.counters, progress := s.time }) ctx k

def counterAdd (s : State) (ctx k : Nat) : State := counterSet s ctx k (counterOf s ctx k + 1#64)

/-! The transfer words. -/

def sregN (g : Group) (r : BitVec 6) : W64 := rs g r.toNat
/-- The counter field, when cnt is set. -/
def ctrN (w : NWord) : Option Nat := if w.f12.getLsbD 9 then some (fld w.f12.toNat 0 9) else none
def locN (w : NWord) : Bool := w.f12.getLsbD 10

/-- The device a transfer word names: dev, or s[sd] with .dr and for `net.arm`. -/
def devN (g : Group) (w : NWord) (arm : Bool) : Nat :=
  if arm || w.f12.getLsbD 11 then fld (sregN g w.sd).toNat 0 16 else w.dev.toNat

/-- The operand checks of a transfer (R376, R377), lowest code first, then the local range. -/
def netBad (s : State) (g : Group) (t : Team) (w : NWord) (arm : Bool) : Option FInfo :=
  let a := (sregN g w.sa).toNat
  let b := (sregN g w.sb).toNat
  let n := (sregN g w.sc).toNat
  let d := (sregN g w.sd).toNat
  let dev := devN g w arm
  let addrBad (x : Nat) (glob : Bool) : Bool := decide (x % 8 ≠ 0) || (glob && decide (2 ^ 57 ≤ x))
  if addrBad a (!locN w) then some { cls := 0x16, code := 1, addr := a }
  else if addrBad b true then some { cls := 0x16, code := 1, addr := b }
  else if n < 8 ∨ 2 ^ 30 < n ∨ n % 8 ≠ 0 then some { cls := 0x16, code := 1, addr := a }
  else if !knowsDev s g.ctx dev then some { cls := 0x16, code := 2, index := dev }
  else if (arm ∧ fld d 25 7 ≠ 0) ∨ (!arm ∧ w.f12.getLsbD 11 ∧ 2 ^ 16 ≤ d) then some { cls := 0x16, code := 5 }
  else if locN w then (localBad t a n).map (fun c => { cls := 5, code := c, addr := a })
  else none

/-- The transfer a word describes. -/
def xferOf (g : Group) (t : Team) (w : NWord) (arm : Bool) : Xfer :=
  { loc := if locN w then some t.tid else none, addr := (sregN g w.sa).toNat, remote := (sregN g w.sb).toNat,
    bytes := (sregN g w.sc).toNat, dev := devN g w arm, cnt := ctrN w, fired := false }

/-- Run a transfer word whose operands are good. -/
def netWord (i : Instr) (w : NWord) (arm : Bool) (s : State) (f : State → Issue → Team → Xfer → Res) : Host.Outcome State Fault Refusal :=
  runWord i 0 false s (fun s x =>
    match teamOf s x.g with
    | none => .ok s
    | some t => match netBad s x.g t w arm with
      | some e => .bad s e
      | none => f s x t (xferOf x.g t w arm))

/-! Failure (R497, R498). -/

def netFault (code va off unit : Nat) : FInfo := { cls := 0x1E, code := code, addr := va + off, index := off, unit := unit, eng := 4 }

/-- A fault of a transfer is kept for its group's word that waits on the network, or on the counter it names here, or goes to the service,
which does not stop the context (R447, R497); data in error is a machine check (R458). -/
def netDue (s : State) (f : Flight) (cnt : Option Nat) (e : FInfo) : State :=
  if e.cls = 0x19 then machineCheck s f e.code e.addr e.eng 0 e.index
  else match getG s f.gid with
  | some g => putG s { g with due := keepDue g.due { cls := .net, info := e, cnt := cnt } }
  | none => groupless s f.ctx e

/-- A transfer ends in a fault after `off` delivered bytes: a get's undelivered local lines take a faulted range (R481). -/
def failXfer (s : State) (f : Flight) (x : Xfer) (isGet : Bool) (off : Nat) (e : FInfo) : State :=
  let s1 := dropF s f.id
  let s2 := if isGet then
      match x.loc with
      | none => s1
      | some tid => match getT s1 tid with
        | none => s1
        | some t =>
          let ok := linesBetween x.addr x.bytes x.acked off
          faultLines (putT s1 (setLines { t with inbound := t.inbound - 1 } ok)) tid (splitLines x.addr x.bytes off).2 off
    else s1
  netDue s2 f (if isGet then x.cnt else none) e

/-- A transfer fails as unreachable at the first unit that was not delivered (R496, R498); `port` is where it left, 0xFF when on none. -/
def loseXfer (s : State) (f : Flight) (x : Xfer) (isGet : Bool) : State :=
  failXfer s f x isGet x.acked (netFault 1 x.remote x.acked (x.port.getD 0xFF))

/-- Every transfer of a job under way to a device marked lost fails at once (R498, R503). -/
def failLost (s : State) (job : Nat) : State :=
  s.pend.foldl (fun s f => match f.op with
    | .send x => if jobOf s f.ctx = job ∧ lostDev s f.ctx x.dev then loseXfer s f x false else s
    | .get x => if jobOf s f.ctx = job ∧ lostDev s f.ctx x.dev then loseXfer s f x true else s
    | _ => s) s

/-! The transfer words. -/

/-- Issue a transfer; to a device marked lost it fails at once (R498). -/
def issueXfer (s : State) (x : Issue) (y : Xfer) (isGet : Bool) : State :=
  let s1 := launchOp s x.g.gid x.g.ctx x.g.core .net (if isGet then .get y else .send y)
  match (if lostDev s x.g.ctx y.dev then getF s1 s.nextId else none) with | some f => loseXfer s1 f y isGet | none => s1

def execNetSend (w : NWord) (s : State) : Host.Outcome State Fault Refusal :=
  netWord (.netSend w) w false s (fun s x _ y => .ok (issueXfer (drainWcb s x.g.gid) x y false))

/-- `net.get`: a local destination's lines become absent and the allocation's inbound count rises (R376, R483); the request goes out in the
group's turn (R142). -/
def execNetGet (w : NWord) (s : State) : Host.Outcome State Fault Refusal :=
  netWord (.netGet w) w false s (fun s x t y =>
    let s1 := drainWcb s x.g.gid
    let s2 := if locN w then
        let t1 := clearLines t y.addr y.bytes
        putT s1 { t1 with inbound := t1.inbound + 1 }
      else s1
    .ok (issueXfer s2 x y true))

/-- Can a transfer leave for its device: it is this module itself, or known to be there and some port carries traffic (R498)? -/
def canLeave (s : State) (f : Flight) (x : Xfer) : Bool := !lostDev s f.ctx x.dev && (x.dev == selfDev s f.ctx || !(readyPorts s).isEmpty)

/-- The port a transfer leaves on: none within this module. -/
def leavePort (s : State) (f : Flight) (x : Xfer) : Option Nat := if x.dev = selfDev s f.ctx then none else pickPort s

/-- A get's request leaves once the group's earlier accesses have been performed (R142). -/
def sendGet (s : State) (f : Flight) (x : Xfer) : State :=
  if x.sent.isSome ∨ !engineTurn s f then s
  else if !canLeave s f x then loseXfer s f x true
  else
    let r : GetReq := { job := jobOf s f.ctx, requester := selfDev s f.ctx, va := x.remote, bytes := x.bytes, tag := f.id }
    putF { tickFree s with outs := s.outs ++ [.getReq x.dev r] } { f with op := .get { x with sent := some s.time, port := leavePort s f x } }

/-- R377. The counter store checks how many sends are armed. -/
def execNetArm (w : NWord) (s : State) : Host.Outcome State Fault Refusal :=
  netWord (.netArm w) w true s (fun s x _ y =>
    match getC s x.g.ctx with
    | none => .ok s
    | some c =>
      let d := (sregN x.g w.sd).toNat
      if 256 ≤ c.armed.length then badW s 0x16 3 0 0
      else
        let a : Armed := { loc := y.loc, src := y.addr, dst := y.remote, bytes := y.bytes, dev := y.dev, trig := fld d 16 9,
                           thr := fld d 32 32, cnt := y.cnt }
        .ok (fireReady (putC s { c with armed := c.armed ++ [a] }) x.g.ctx a.trig))

/-! The counter words (R378). -/

def ctrW (w : NWord) : Nat := fld w.f12.toNat 0 9

def execCntInit (w : NWord) (s : State) : Host.Outcome State Fault Refusal :=
  runWord (.cntInit w) 0 false s (fun s x => .ok (counterSet s x.g.ctx (ctrW w) (sregN x.g w.sa)))

/-- A get that names the counter and has failed raises its fault here (R447). -/
def execCntWait (w : NWord) (s : State) : Host.Outcome State Fault Refusal :=
  runWord (.cntWait w) 0 false s (fun s x =>
    match x.g.due.find? (fun d => d.cnt == some (ctrW w)) with
    | some d => .bad (putG s { x.g with due := x.g.due.erase d }) d.info
    | none => if sregN x.g w.sa ≤ counterOf s x.g.ctx (ctrW w) then .ok s else .park s (.cnt (ctrW w) (sregN x.g w.sa).toNat))

def execCntGet (w : NWord) (s : State) : Host.Outcome State Fault Refusal :=
  runWord (.cntGet w) 0 false s (fun s x =>
    .ok (launchOp s x.g.gid x.g.ctx x.g.core .loads (.value [(2 ^ 20 + w.sd.toNat, counterOf s x.g.ctx (ctrW w))])))

/-- Is a message to this module itself under way? -/
def hasOut (s : State) (m : Out) : Bool := s.outs.contains m
def takeOut (s : State) (m : Out) : State := { s with outs := s.outs.erase m }

/-- DESTINATION_UNREACHABLE: with no acknowledgement for 100 ms, or to a device marked lost, a transfer fails with code 1; `failed`: the
destination answered that its range failed at this byte, code 2. -/
def execDestinationUnreachable (id : Nat) (failed : Option Nat) (s : State) : Host.Outcome State Fault Refusal :=
  let go (f : Flight) (x : Xfer) (isGet : Bool) : State :=
    match failed with
    | some off =>
      if isGet then (if x.sent.isSome ∧ x.dev ≠ selfDev s f.ctx ∧ off = x.acked then failXfer s f x true off (netFault 2 x.remote off 0) else s)
      else if x.dev = selfDev s f.ctx then
        (if hasOut s (.failed x.dev id off) then failXfer (takeOut s (.failed x.dev id off)) f x isGet off (netFault 2 x.remote off 0) else s)
      else failXfer s f x isGet off (netFault 2 x.remote off 0)
    | none =>
      let late : Bool := match x.sent with | some t => decide (x.dev ≠ selfDev s f.ctx ∧ t + 100000000 ≤ s.time) | none => false
      if lostDev s f.ctx x.dev ∨ late then loseXfer s f x isGet else s
  .next (match getF s id with
    | some f => match f.op with
      | .send x => go f x false
      | .get x => go f x true
      | _ => s
    | none => s)

/-! Collectives: the chunk (R379, R380). -/

/-- The teams per cluster of a grid: its rectangle's cores (R58). -/
def gridPer (g : Grid) : Nat := (fld (le g.lrec 16 8) 32 3 + 1) * (fld (le g.lrec 16 8) 35 2 + 1)

/-- The chunk a team owns (R380): its index, global address and bytes. -/
def chunkOf (s : State) (t : Team) : Option (Coll × Nat × Nat × Nat) :=
  match getGrid s t.ctx t.grid with
  | none => none
  | some g => match g.coll with
    | none => none
    | some c =>
      if t.task then none
      else
        let k := t.cluster * gridPer g + t.tidx
        let o := k * c.chunk
        some (c, k, c.buffer + o, min c.chunk (c.total - o))

/-- Fire a team's chunk: alone, or with no data, it lands at once (R382); else its bytes are to be read (R380). -/
def fireChunk (s : State) (gid core : Nat) (t : Team) (retire : Bool) : State :=
  match chunkOf s t with
  | none => s
  | some (c, _, _, _) =>
    let ch := { t.chunk with fired := true, dead := retire }
    if c.members = 1 ∨ c.total = 0 then
      let s1 := putT s { t with chunk := { ch with landed := true } }
      match c.dctr with | some k => counterAdd s1 t.ctx k | none => s1
    else launchOp (putT s { t with chunk := ch }) gid t.ctx core .none (.chunkOut t.tid)

/-- Can a group of a team still wait for its chunk: is the communication group resident (R381)? -/
def chunkWaiter (s : State) (t : Team) : Bool :=
  match chunkOf s t with | some (c, _, _, _) => s.groups.any (fun g => g.team == t.tid && g.num == c.cgroup) | none => false

/-- A collective's fault: the chunk is "not fired" again, and the fault is kept with it for `coll.step.wait`; with no group left to wait for
it, as when the chunk fired at retirement, it goes to the service (R497, R501). -/
def chunkFault (s : State) (t : Team) (e : FInfo) : State :=
  let ch := { t.chunk with fired := false, got := [] }
  if chunkWaiter s t then putT s { t with chunk := { ch with abort := some e } } else groupless (putT s { t with chunk := ch }) t.ctx e

/-- A chunk is aborted (R501, R502): it returns to "not fired", its waiter hears of it, and it fires next as a new round (R427). -/
def abortChunk (s : State) (t : Team) (k status : Nat) : State :=
  let t1 := { t with chunk := { t.chunk with round := t.chunk.round + 1 } }
  if t.chunk.fired then
    chunkFault { s with pend := s.pend.filter (fun f => match f.op with | .chunkOut u => u != t.tid | _ => true) } t1
      { cls := 0x1E, code := 3, addr := status, index := k, eng := 5 }
  else putT s t1

/-- The 32-byte header of a message, and its data (R427). -/
def redBytes (m : RedMsg) : List Byte :=
  toBytes 4 m.tree ++ toBytes 4 m.chunk ++ toBytes 1 (m.kind * 16 + m.op) ++ [0#8] ++ toBytes 2 m.rank ++ toBytes 4 m.round ++
    toBytes 4 m.seg ++ toBytes 2 m.data.length ++ [0#8, 0#8] ++ toBytes 8 m.status ++ m.data

/-- The segments of a chunk of n bytes, 4,096 bytes each (R427). -/
def segCount (n : Nat) : Nat := max 1 (cdiv n 4096)

/-- The data bytes of a segment's message: the last segment's are rounded up to a multiple of 128 (R427, log entry 83). -/
def segLen (n seg : Nat) : Nat := cdiv (min 4096 (n - 4096 * seg)) 128 * 128

/-- The contributions of a chunk: its segments, the last filled up with zeros. -/
def chunkMsgs (c : Coll) (k round : Nat) (data : List Byte) : List Out :=
  (List.range (segCount data.length)).map (fun i =>
    let part := (data.drop (4096 * i)).take 4096
    .red { tree := c.tree, chunk := k, kind := 0, op := c.op, rank := c.rank, round := round, seg := i,
           data := part ++ List.replicate (segLen data.length i - part.length) 0#8 })

/-- The team that owns a chunk of a tree here. -/
def chunkTeam (s : State) (tree chunk : Nat) : Option (Team × Nat) :=
  s.teams.findSome? (fun t => match chunkOf s t with
    | some (c, k, _, n) => if c.tree = tree ∧ k = chunk ∧ t.chunk.fired then some (t, n) else none
    | none => none)

/-- Is an abort's status word malformed (R502): a reserved reason, a reserved bit, a rank where there is none, or another chunk's number? -/
def statusBad (st chunk : Nat) : Bool :=
  let reason := fld st 56 8
  decide (reason = 0 ∨ 5 < reason ∨ fld st 32 8 ≠ 0 ∨ (3 < reason ∧ fld st 40 16 ≠ 0) ∨ fld st 0 32 ≠ chunk)

/-- Is a reduction-profile message malformed (R427): a reserved kind, a reserved field that is set, or a length that does not match
its segment? -/
def redBad (s : State) (b : List Byte) : Bool :=
  let kind := fld (le b 8 1) 4 4
  let n := le b 20 2
  let misfit : Bool := match chunkTeam s (le b 0 4) (le b 4 4) with
    | some (_, m) => decide (kind ≤ 1) && (decide (segCount m ≤ le b 16 4) || decide (n ≠ segLen m (le b 16 4)))
    | none => false
  decide (b.length < 32 ∨ 3 < kind ∨ le b 9 1 ≠ 0 ∨ le b 22 2 ≠ 0 ∨ 4096 < n ∨ n % 128 ≠ 0 ∨ b.length ≠ 32 + n ∨
    (2 ≤ kind ∧ n ≠ 0) ∨ (kind ≠ 3 ∧ le b 24 8 ≠ 0) ∨ ((kind = 1 ∨ kind = 3) ∧ le b 10 2 ≠ 0)) || misfit ||
    (decide (kind = 3) && statusBad (le b 24 8) (le b 4 4))

/-- Send a chunk whose fault-free bytes are at hand; with no port up it waits for one (R498). -/
def sendChunk (s : State) (f : Flight) (t : Team) : State :=
  match chunkOf s t with
  | none => dropF s f.id
  | some (c, k, va, n) =>
    let r := readRange s f.ctx 5 (readXlate s f) va n
    match r.stop with
    | some none => askWalk s f va n
    | some (some e) => if e.cls = 0x19 then machineCheck (dropF s f.id) f e.code e.addr 5 0 e.index else chunkFault (dropF s f.id) t e
    | none =>
      if (readyPorts s).isEmpty then s else
      let s1 := engineRead s f.ctx 0 r.pas
      dropF { s1 with outs := s1.outs ++ chunkMsgs c k t.chunk.round r.bytes } f.id

/-- R381. -/
def execCollStep (w : NWord) (s : State) : Host.Outcome State Fault Refusal :=
  runWord (.collStep w) 0 false s (fun s x =>
    match teamOf s x.g with
    | none => .ok s
    | some t => match chunkOf s t with
      | none => badW s 0x16 4 0 x.g.num
      | some (c, _, _, _) =>
        if x.g.task ∨ x.g.num ≠ c.cgroup then badW s 0x16 4 0 x.g.num
        else
          let wait := w.f12.getLsbD 0
          match (if wait then t.chunk.abort else none) with
          | some e => .bad (putT s { t with chunk := { t.chunk with abort := none } }) e
          | none =>
            let s1 := if t.chunk.fired then s else fireChunk (drainWcb s x.g.gid) x.g.gid x.g.core t false
            if !wait then .ok s1
            else
              let landed : Bool := match getT s1 t.tid with | some u => u.chunk.landed && decide (u.chunk.wct < s1.time) | none => true
              if landed ∨ c.members = 1 ∨ c.total = 0 then .ok s1 else .park s1 .coll)

/-- COLL_CHUNK_FIRE_AT_RETIRE: a retired team's unfired chunk fires once its stores have been performed at their homes. -/
def execCollChunkFireAtRetire (tid : Nat) (s : State) : Host.Outcome State Fault Refusal :=
  .next (match getT s tid with
    | none => s
    | some t =>
      if t.retired ∧ !t.chunk.fired ∧ !t.chunk.dead ∧ (chunkOf s t).isSome then
        let s1 := fireChunk s 0 t.core t true
        match s1.pend.find? (fun f => match f.op with | .chunkOut k => k == tid | _ => false), getT s1 tid with
        | some f, some t1 =>
          let s2 := sendChunk s1 f t1
          if (getF s2 f.id).isSome then s else s2
        | _, _ => s1
      else s)

/-- The table entries that the network engine's walks of a range read (R121, R474). -/
def rangeTrail (s : State) (ctx va n : Nat) : List Nat :=
  (piecesOf va n).flatMap (fun a => if a < 2 ^ 57 then walkTrail s ctx a else [])

/-- The first byte in error among the table entries of a range. -/
def trailBad (s : State) (ctx va n : Nat) : Option (Nat × Nat) :=
  badAt s ((rangeTrail s ctx va n).flatMap (fun a => (List.range 8).map (fun i => a + i)))

/-- A machine check of a context whose access no group waits for (R448, R458, R474). -/
def ctxCheck (s : State) (ctx code addr eng : Nat) : State :=
  stopCtx (serviceRecord s ctx { cls := 0x19, code := code, addr := addr, eng := eng } 0) ctx 0x19

/-- Units written at their homes by the network engine (R145, R376, R380): the state, the largest completion time, and the byte
and fault at which it stopped. -/
def receiveUnits (s : State) (ctx eng va : Nat) (data : List Byte) : State × Nat × Option (Nat × FInfo) :=
  (List.range (cdiv data.length 8)).foldl (fun acc k => match acc with
    | (_, _, some _) => acc
    | (s, t, none) =>
      let a := va + 8 * k
      let unit := (data.drop (8 * k)).take 8
      match xlate s 255 ctx a 2 false with
      | .bad c i => (s, t, some (8 * k, { cls := 7, code := c, addr := a, index := i, eng := eng }))
      | .ok p _ => match accessCheck s ctx eng p unit.length 2 with
        | some (c, i) => (s, t, some (8 * k, { cls := 0x18, code := c, addr := p, index := i, eng := eng }))
        | none => let (s1, u) := engineWrite s ctx 0 (at_ p unit); (s1, max t u, none)) (s, 0, none)

/-- May the network engine write these bytes at their homes now: the walks' entries can be read, and as far as they translate, no unit waits
for a fill (R105, R106)? -/
def receiveFree (s : State) (ctx va : Nat) (data : List Byte) : Bool :=
  (rangeTrail s ctx va data.length).all (homeReady s) &&
  (List.range (cdiv data.length 8)).all (fun k =>
    match xlate s 255 ctx (va + 8 * k) 2 false with
    | .bad _ _ => true
    | .ok p _ => engineFree s ctx 0 (at_ p ((data.drop (8 * k)).take 8)))

/-- COLL_RESULT_LAND: one segment of the combined result overwrites its part of the chunk; once all have, the counter is due when the writes'
times have passed (R380, R427). -/
def execCollResultLand (tid : Nat) (msg : List Byte) (s : State) : Host.Outcome State Fault Refusal :=
  .next (match getT s tid with
    | none => s
    | some t => match chunkOf s t with
      | none => s
      | some (c, k, va, n) =>
        let reading := s.pend.any (fun f => match f.op with | .chunkOut k => k == tid | _ => false)
        let seg := le msg 16 4
        let mine := decide (fld (le msg 8 1) 4 4 = 1 ∧ le msg 0 4 = c.tree ∧ le msg 4 4 = k ∧ le msg 12 4 = t.chunk.round)
        let data := (msg.drop 32).take (min 4096 (n - 4096 * seg))
        if !t.chunk.fired ∨ t.chunk.landed ∨ reading ∨ redBad s msg ∨ !mine ∨ segCount n ≤ seg ∨ t.chunk.got.contains seg ∨
            !receiveFree s t.ctx (va + 4096 * seg) data ∨ s.trees.any (fun u => u.tree == c.tree && u.freed) then s
        else match trailBad s t.ctx (va + 4096 * seg) data.length with
        | some (q, e) => ctxCheck s t.ctx e q 5
        | none => match receiveUnits s t.ctx 5 (va + 4096 * seg) data with
          | (s1, _, some (_, e)) => chunkFault s1 t e
          | (s1, w, none) =>
            let got := t.chunk.got ++ [seg]
            let wct := max t.chunk.wct w
            if got.length < segCount n then putT s1 { t with chunk := { t.chunk with got := got, wct := wct } }
            else
              let s2 := putT s1 { t with chunk := { t.chunk with landed := true, got := got, wct := wct } }
              match c.dctr with
              | some k => launchOp s2 0 t.ctx t.core .none (.received t.ctx (some k) wct)
              | none => s2)

/-- An abort for a chunk whose team has not been placed yet: it will fire as a later round (R427, R501). -/
def abortUnplaced (s : State) (msg : List Byte) : State :=
  let k := le msg 4 4
  let waits (g : Grid) : Bool := match g.coll with
    | some c => c.tree == le msg 0 4 && decide (g.next * gridPer g ≤ k) && fget 0 k g.rounds == le msg 12 4
    | none => false
  match s.grids.find? waits with
  | some g => if fld (le msg 8 1) 4 4 = 3 ∧ !redBad s msg then putGrid s { g with rounds := fput 0 k (le msg 12 4 + 1) g.rounds } else s
  | none => s

/-- COLL_ABORT_RECEIVE: an abort message for a team's chunk in its present round, of which no result has been sent (R427, R501, R502). -/
def execCollAbortReceive (tid : Nat) (msg : List Byte) (s : State) : Host.Outcome State Fault Refusal :=
  .next (match getT s tid with
    | none => abortUnplaced s msg
    | some t => match chunkOf s t with
      | none => s
      | some (c, k, _, _) =>
        let mine := decide (fld (le msg 8 1) 4 4 = 3 ∧ le msg 0 4 = c.tree ∧ le msg 4 4 = k ∧ le msg 12 4 = t.chunk.round)
        if !mine ∨ redBad s msg ∨ t.chunk.landed ∨ !t.chunk.got.isEmpty then s else abortChunk s t k (le msg 24 8))

/-! Sources, arrivals and landings. -/

/-- REMOTE_SEND_SOURCE_RELEASE: a send, a broadcast or a chunk finishes reading its source, which completes the command and is progress
(R376, R454); a get's request leaves (R75, R142, R377). -/
def execRemoteSendSourceRelease (id : Nat) (s : State) : Host.Outcome State Fault Refusal :=
  .next (match getF s id with
    | none => s
    | some f => match f.op with
      | .send x =>
        if x.sent.isSome ∨ !engineTurn s f then s
        else if !canLeave s f x then loseXfer s f x false
        else
          let m (data : List Byte) (cnt : Option Nat) : Out :=
            .data x.dev { job := jobOf s f.ctx, src := selfDev s f.ctx, tag := id, va := x.remote, data := data, cnt := cnt }
          let r := readSource s f x.loc x.addr x.bytes
          let s1 := engineRead s f.ctx 0 r.pas
          match r.stop with
          | some none => sourceWait s f x.loc x.addr x.bytes
          | some (some e) =>
            netDue { dropF s1 id with outs := s1.outs ++ (if r.bytes.isEmpty then [] else [m r.bytes none]) } f none e
          | none =>
            progressed (putF { s1 with outs := s1.outs ++ [m r.bytes x.cnt], freeCount := s1.freeCount + r.bytes.length + 1 }
              { f with cls := .none, op := .send { x with sent := some s.time, port := leavePort s f x } }) f.ctx
      | .get x => sendGet s f x
      | .ebSource loc src n pass es =>
        if !engineTurn s f then s
        else
          let r := readSource s f loc src n
          match r.stop with
          | some none => sourceWait s f loc src n
          | some (some e) => netDue (dropF s id) f none e
          | none => sendEntries (dropF (engineRead s f.ctx 0 r.pas) id) f pass es r.bytes
      | .chunkOut tid => match getT s tid with
        | none => dropF s id
        | some t => if engineTurn s f then sendChunk s f t else s
      | _ => s)

/-- The context of a job on this device (R375). -/
def jobCtx (s : State) (job : Nat) : Option Context := s.ctxs.find? (fun c => c.job == job && c.ctx != 0)
def jobSelf (s : State) (job : Nat) : Option Nat := (s.jobs.find? (fun j => j.job == job)).map (fun j => j.self)

/-- A range that failed here: the service hears of it, and the sender is told (R375, R497). -/
def refuseRemote (s : State) (ctx src tag va off : Nat) : State :=
  let s1 := serviceRecord s ctx { cls := 0x1E, code := 2, addr := va + off, index := off, eng := 4 } 0
  { s1 with outs := s1.outs ++ [.failed src tag off] }

/-- A device acknowledges bytes of a transfer (R498): with the last ones a send is delivered; a transfer that keeps being acknowledged is not
unreachable (R505). -/
def ackXfer (s : State) (m : NetMsg) (n : Nat) : State :=
  match getF s m.tag with
  | none => s
  | some f =>
    if jobOf s f.ctx ≠ m.job then s
    else match f.op with
      | .send x =>
        if x.dev ≠ m.src ∨ x.sent.isNone then s
        else if x.bytes ≤ n then dropF s f.id
        else putF s { f with op := .send { x with acked := max x.acked (n / 8 * 8), sent := some s.time } }
      | .get x => if x.dev ≠ m.src ∨ x.sent.isNone then s else putF s { f with op := .get { x with sent := some s.time } }
      | _ => s

/-- NET_RECEIVE: remote data is written at homes (R145, R376), a broadcast's entry becomes arrivals (R171), or a device acknowledges a transfer
(R498). A message from this module to itself is one it has sent; one from another comes over a port that is up. -/
def execNetReceive (m : NetMsg) (s : State) : Host.Outcome State Fault Refusal :=
  .next (
    let own := decide (jobSelf s m.job = some m.src)
    if (own ∧ !hasOut s (.data m.src m)) ∨ (!own ∧ (readyPorts s).isEmpty) then s
    else match (if own then none else m.ack) with
    | some n => ackXfer s m n
    | none =>
      let s1 := if own then takeOut s (.data m.src m) else s
      match jobCtx s1 m.job with
      | none => refuseRemote s1 0 m.src m.tag m.va 0
      | some c => match m.err with
        | some e => addArrivals s1 s1.nextId c.ctx 0 e m.data
        | none =>
          if m.va % 8 ≠ 0 ∨ m.data.length % 8 ≠ 0 ∨ !receiveFree s1 c.ctx m.va m.data then s
          else match trailBad s1 c.ctx m.va m.data.length with
          | some (q, e) => ctxCheck s1 c.ctx e q 4
          | none => match receiveUnits s1 c.ctx 4 m.va m.data with
            | (s2, _, some (off, _)) => refuseRemote s2 c.ctx m.src m.tag m.va off
            | (s2, t, none) => launchOp (if own then dropF s2 m.tag else s2) 0 c.ctx 255 .none (.received c.ctx m.cnt t))

/-- RECEIVE_COUNTER_INCREMENT: once the completion times of the received writes have passed, the counter rises (R145, R376). -/
def receiveDone (s : State) (f : Flight) : State :=
  match f.op with
  | .received ctx cnt t =>
    if s.time ≤ t then s
    else
      let s1 := dropF s f.id
      match cnt with | some k => counterAdd s1 ctx k | none => s1
  | _ => s

def execReceiveCounterIncrement (id : Nat) (s : State) : Host.Outcome State Fault Refusal :=
  .next (match getF s id with | some f => receiveDone s f | none => s)

/-- REMOTE_GET_REQUEST: the range is read at its homes and returned, up to the byte that fails (R376, R497). -/
def execRemoteGetRequest (m : GetReq) (s : State) : Host.Outcome State Fault Refusal :=
  .next (
    let own := decide (jobSelf s m.job = some m.requester)
    if (own ∧ !hasOut s (.getReq m.requester m)) ∨ (!own ∧ (readyPorts s).isEmpty) then s
    else
      let s1 := if own then takeOut s (.getReq m.requester m) else s
      match jobCtx s1 m.job with
      | none =>
        let s2 := serviceRecord s1 0 { cls := 0x1E, code := 2, addr := m.va, index := 0, eng := 4 } 0
        { s2 with outs := s2.outs ++ [.getData m.requester m.tag [] (some 0)] }
      | some c =>
        if !(rangeTrail s1 c.ctx m.va m.bytes).all (homeReady s1) then s
        else match trailBad s1 c.ctx m.va m.bytes with
        | some (q, e) => let s3 := ctxCheck s1 c.ctx e q 4; { s3 with outs := s3.outs ++ [.getData m.requester m.tag [] (some 0)] }
        | none =>
        let r := readRange s1 c.ctx 4 (fun a => .inl (xlate s1 255 c.ctx a 1 false)) m.va m.bytes
        let s2 := engineRead s1 c.ctx 0 r.pas
        match r.stop with
        | some none => s
        | some (some e) =>
          let n := r.bytes.length
          let s3 := if e.cls = 0x19 then ctxCheck s2 c.ctx e.code e.addr 4
            else serviceRecord s2 c.ctx { cls := 0x1E, code := 2, addr := m.va + n, index := n, eng := 4 } 0
          { s3 with outs := s3.outs ++ [.getData m.requester m.tag r.bytes (some n)] }
        | none => { s2 with outs := s2.outs ++ [.getData m.requester m.tag r.bytes none] })

/-- Bytes of a get land in local memory at once, or at homes, whose completion times the get then waits for (R376), after those that have
landed before. `short`: the remote range failed after them. -/
def landGet (s : State) (f : Flight) (x : Xfer) (data : List Byte) (short : Bool) : State :=
  let upto := x.acked + data.length
  let fault := netFault 2 x.remote upto 0
  match x.loc with
  | some tid => match getT s tid with
    | none => dropF s f.id
    | some t =>
      let t1 := setLines (lwr t (at_ (x.addr + x.acked) data)) (linesBetween x.addr x.bytes x.acked upto)
      let s1 := wakeLocal (putT s t1) tid 0 (data.mapIdx (fun k _ => x.addr + x.acked + k))
      if t.retired then
        serviceRecord (putT (dropF s f.id) { t with inbound := t.inbound - 1 }) f.ctx
          { cls := 0x1D, code := 1, eng := 4, unit := t.tidx, index := x.acked } 0
      else if short then failXfer s1 f { x with acked := upto } true upto fault
      else if upto < x.bytes then putF s1 { f with op := .get { x with acked := upto, sent := some s.time } }
      else
        let s2 := dropF (putT s1 { (getT s1 tid).getD t1 with inbound := t.inbound - 1 }) f.id
        match x.cnt with | some k => counterAdd s2 f.ctx k | none => s2
  | none => match receiveUnits s f.ctx 4 (x.addr + x.acked) data with
    | (s1, _, some (off, e)) => failXfer s1 f x true (x.acked + off) e
    | (s1, t, none) =>
      if short then failXfer s1 f x true upto fault
      else if upto < x.bytes then putF s1 { f with op := .get { x with acked := upto, wct := max x.wct t, sent := some s.time } }
      else putF s1 { f with op := .received f.ctx x.cnt (max x.wct t) }

/-- NET_GET_LAND: the next bytes of a get land. This module's own answer to itself holds them all, up to the byte at which its range failed;
another device's failure is told by DESTINATION_UNREACHABLE (R497). -/
def execNetGetLand (id : Nat) (data : List Byte) (s : State) : Host.Outcome State Fault Refusal :=
  .next (match getF s id with
    | none => s
    | some f => match f.op with
      | .get x =>
        let own := decide (x.dev = selfDev s f.ctx)
        let short := own && decide (data.length < x.bytes)
        let m : Out := .getData x.dev id data (if short then some data.length else none)
        let free := x.loc.isSome || receiveFree s f.ctx (x.addr + x.acked) data
        if x.bytes < x.acked + data.length ∨ data.length % 8 ≠ 0 ∨ x.sent.isNone ∨ !free ∨ (own ∧ !hasOut s m) ∨
            (!own ∧ (data.isEmpty ∨ (readyPorts s).isEmpty)) then s
        else match (if x.loc.isSome then none else trailBad s f.ctx (x.addr + x.acked) data.length) with
          | some (q, e) => machineCheck (dropF s id) f e q 4 0 x.acked
          | none => landGet (if own then takeOut s m else s) f x data short
      | _ => s)

end Sys2Proof.Machine
end

