-- ==== Sys2Proof/Machine/Task.lean ====
section
/-! DEFINITION. The fields of a launch record (R61), `spawn` (R53, R257, R258) and `launch` (R60, R65, R259). -/

namespace Sys2Proof.Machine

/-! The launch record (R61). -/

/-- The fields of a launch record that the dispatcher uses; counts are the counts themselves, the width in lanes. -/
structure LRec where
  entry : Nat
  arg : Nat
  cane : Bool
  rows : Nat
  width : Nat
  groups : Nat
  ch : Nat
  cw : Nat
  clusters : Nat
  par : Nat
  acc : Nat
  depth : Nat
  lm : Nat
  tpar : Nat
  tacc : Nat
  gather : Nat
  tdepth : Nat
  tlm : Nat
  trows : Nat
  done : Nat
  coll : Nat
  deriving DecidableEq, Repr

def lrecOf (b : List Byte) : LRec :=
  let q2 := le b 16 8
  let q3 := le b 24 8
  let q4 := le b 32 8
  { entry := fld (le b 0 8) 0 57, arg := le b 8 8, cane := q2.testBit 49, rows := fld q2 44 5, width := 8 * 2 ^ fld q2 42 2,
    groups := fld q2 37 5 + 1, ch := fld q2 35 2 + 1, cw := fld q2 32 3 + 1, clusters := fld q2 0 32, par := fld q3 29 4,
    acc := fld q3 23 6, depth := fld q3 14 9, lm := fld q3 0 14, tpar := fld q4 50 4, tacc := fld q4 44 6, gather := fld q4 28 16,
    tdepth := fld q4 19 9, tlm := fld q4 5 14, trows := fld q4 0 5, done := le b 40 8, coll := le b 56 8 }

/-- Dependence entry k: address and target. -/
def depOf (b : List Byte) (k : Nat) : Nat × Nat := (le b (64 + 16 * k) 8, le b (72 + 16 * k) 8)

/-- Lines of a team's allocation, and of a task team's (R62). -/
def teamLines (r : LRec) (task : Bool) : Nat :=
  if task then r.tlm + cdiv (32 * (r.width * 64 + 32 * r.tdepth)) 128 else r.lm + cdiv (r.groups * 32 * r.depth) 128

/-! `spawn`. -/

/-- Tasks a core's pool storage of the context holds, and those it has (R53). -/
def poolRoom (s : State) (ctx core : Nat) : Nat :=
  (match getC s ctx with | some c => c.pool / 128 | none => 0) - (s.pool.filter (fun t => t.ctx == ctx && t.core == core)).length

/-- A lane of `spawn`: its operands (step 5), then the record's page and access (step 6); a page without the rd right is a spawn operand (R257,
log entry 78). -/
def spawnLane (s : State) (g : Group) (lane e r : Nat) : LaneRes :=
  if e % 8 ≠ 0 ∨ 2 ^ 57 ≤ e then .bad { cls := 0x0B, code := 1, addr := e, lane := some lane }
  else if r % 64 ≠ 0 ∨ 2 ^ 57 ≤ r then .bad { cls := 0x0B, code := 2, addr := r, lane := some lane }
  else match laneCheck s g lane r 64 1 1 false 1 with
  | .bad f => if f.cls = 7 ∧ f.code = 3 then .bad { cls := 0x0B, code := 2, addr := r, lane := some lane } else .bad f
  | x => x

/-- Of faults of one class the lowest lane's (R464). -/
def lowestLane (l : List FInfo) : Option FInfo :=
  l.foldl (fun a f => match a with
    | none => some f
    | some b => if f.lane.getD 0 < b.lane.getD 0 then some f else some b) none

/-- The fault of a `spawn`: its operands rank before memory, and memory before a full pool; of that class the lowest lane (R463, R464). -/
def spawnFault (l : List FInfo) : Option FInfo :=
  let mine := l.filter (fun f => f.cls == 0x0B)
  if mine.any (fun f => decide (f.code ≠ 3)) then lowestLane mine
  else match pickFault (l.filter (fun f => f.cls != 0x0B)) with
    | some f => some f
    | none => lowestLane mine

/-- One task enters the issuing core's pool (R53). -/
def addTask (s : State) (g : Group) (entry counter serial : Nat) (rec : List Byte) : State :=
  let t : Task := { ctx := g.ctx, grid := g.grid, core := g.core, age := s.taskAge, entry := entry, record := rec, counter := counter,
                    since := s.time, ready := serial, gid := g.gid, wct := g.wct }
  let s1 := { s with taskAge := s.taskAge + 1, pool := s.pool ++ [t] }
  match getGrid s1 g.ctx g.grid with
  | some r => putGrid s1 { r with tasks := r.tasks + 1 }
  | none => s1

/-- The lanes whose records can be read now, in order: each with its bytes. None: one must wait. -/
def spawnRead (s : State) (g : Group) : List Lane → Option (FInfo ⊕ State × List (Lane × List Byte))
  | [] => some (.inr (s, []))
  | l :: r => match readNow s g l.pas with
    | none => none
    | some (.inl e) => some (.inl e)
    | some (.inr (s1, b)) => (spawnRead s1 g r).map (fun q => q.map id (fun p => (p.1, (l, b) :: p.2)))

def execSpawn (w : VWord) (s : State) : Host.Outcome State Fault Refusal :=
  runWord (.spawn w) w.msel.toNat true s (fun s x =>
    let k := (rs x.g (w.c.toNat - 352)).toNat
    let trows := match getGrid s x.g.ctx x.g.grid with | some r => (lrecOf r.lrec).trows | none => 0
    if trows = 0 then badW s 0x0B 4 0 0
    else if k % 8 ≠ 0 ∨ 2 ^ 57 ≤ k then badW s 0x0B 5 k 0
    else
      let res := (lanesOf x.active).map (fun l => spawnLane s x.g l (rv x.g w.a.toNat l).toNat (rv x.g w.b.toNat l).toNat)
      match missPage res with
      | some p => .park (startWalk s x.g p) (.walk p)
      | none =>
        let room := poolRoom s x.g.ctx x.g.core
        let good := (goodLanes res).take room
        let full := ((goodLanes res).drop room).map (fun l => ({ cls := 0x0B, code := 3, addr := 0, lane := some l.lane } : FInfo))
        let s0 := drainWcb s x.g.gid
        match spawnRead s0 x.g good with
        | none => .park s0 (.read (good.flatMap (fun l => l.pas)) false)
        | some (.inl e) => .bad s0 e
        | some (.inr (s1, recs)) =>
          let serial := s1.nextId
          let s2 := recs.foldl (fun s p => addTask s x.g (rv x.g w.a.toNat p.1.lane).toNat k serial p.2) s1
          let s3 := clearWalks s2 x.g.gid
          match spawnFault (badLanes res ++ full) with
          | none => .ok s3
          | some f => .bad s3 { f with done := lanesMask (good.map (fun l => l.lane)) })

/-! `launch`. -/

/-- Place a record on a queue (R65): whether it was placed. -/
def enqueue (s : State) (ctx q va : Nat) (rec : List Byte) : State × Bool :=
  match getC s ctx with
  | none => (s, false)
  | some c =>
    let l := fget [] q c.queues
    if 64 ≤ l.length then (s, false) else (putC s { c with queues := fput [] q (l ++ [(va, rec)]) c.queues }, true)

/-- The fate of a record page: one without the rd right is a launch operand (R259, log entry 78). -/
def recordFault (a : Nat) (l : List FInfo) : Option FInfo :=
  if l.any (fun f => f.cls == 7 && f.code == 3) then some { cls := 0x0C, code := 1, addr := a } else wordFaultOf l

/-- R60, R150, R259. -/
def execLaunch (w : SWord) (s : State) : Host.Outcome State Fault Refusal :=
  runWord (.launch w) 0 false s (fun s x =>
    let a := (rs x.g w.a.toNat).toNat
    let q := (rs x.g (numB w)).toNat
    if a % 64 ≠ 0 ∨ 2 ^ 57 ≤ a then badW s 0x0C 1 a 0
    else if 15 < q then badW s 0x0C 2 0 (q % 2 ^ 32)
    else
      let res := (List.range 4).map (fun k => laneCheck s x.g 0 (a + 64 * k) 64 1 1 false 1)
      match missPage res, recordFault a (badLanes res) with
      | some p, _ => .park (startWalk s x.g p) (.walk p)
      | none, some f => .bad (clearWalks s x.g.gid) { f with lane := none }
      | none, none => match releaseWait s x.g .dv with
        | some (s1, p) => .park s1 p
        | none => match readNow s x.g ((goodLanes res).flatMap (fun l => l.pas)) with
          | none => .park s (.read ((goodLanes res).flatMap (fun l => l.pas)) false)
          | some (.inl e) => .bad s e
          | some (.inr (s1, b)) =>
            let (s2, ok) := enqueue s1 x.g.ctx q a b
            .ok (clearWalks (launchOp s2 x.g.gid x.g.ctx x.g.core .loads
              (.value [(2 ^ 20 + w.d.toNat, if ok then 0#64 else 1#64)])) x.g.gid))

end Sys2Proof.Machine
end

