-- ==== Sys2Proof/Machine/EvDispatch.lean ====
section
/-! DEFINITION. The dispatcher's events: launch records and queues (R63 to R67), placement (R68 to R72), task pools (R54 to R57),
regroup pairing (R48 to R51), retirement (R252, R314) and grid completion (R59, R67). -/

namespace Sys2Proof.Machine

def ctxRuns (s : State) (ctx : Nat) : Bool := match getC s ctx with | some c => c.run == .running | none => false

/-- A context that is set aside holds no resources of its cores (R88). -/
def setAside (s : State) (ctx : Nat) : Bool := match getC s ctx with | some c => (match c.run with | .aside _ => true | _ => false) | none => false

/-! Fitting (R71). -/

/-- What a partition has free: register units, accumulator and parison octet tiles, and room for groups. -/
structure Free where
  part : Nat
  units : Nat
  acc : Nat
  par : Nat
  groups : Nat
  deriving DecidableEq, Repr

def emptyCore : List Free := (List.range 4).map (fun k => ⟨k, 512, 32, 8, 64⟩)

def freeOf (s : State) (core : Nat) : List Free :=
  emptyCore.map (fun f =>
    let l := s.groups.filter (fun g => g.core == core && g.part == f.part && !setAside s g.ctx)
    let sum (h : Group → Nat) : Nat := l.foldl (fun a g => a + h g * g.width / 8) 0
    { f with units := f.units - sum (fun g => g.rows), acc := f.acc - sum (fun g => g.accN), par := f.par - sum (fun g => g.parN),
             groups := f.groups - l.length })

/-- The partition for one group of width w: most free units, then the lowest number. -/
def bestPart (l : List Free) (rows w acc par : Nat) : Option Nat :=
  ((l.filter (fun f => decide (rows * w / 8 ≤ f.units) && decide (acc * w / 8 ≤ f.acc) && decide (par * w / 8 ≤ f.par) &&
      decide (0 < f.groups))).foldl (fun a f => match a with
    | none => some f
    | some b => if b.units < f.units then some f else some b) none).map (fun f => f.part)

/-- The partitions of n groups in increasing group number; none when one does not fit. -/
def fitGroups (rows w acc par : Nat) : Nat → List Free → Option (List Nat)
  | 0, _ => some []
  | n + 1, l => match bestPart l rows w acc par with
    | none => none
    | some k =>
      let use (f : Free) : Free := if f.part = k
        then { f with units := f.units - rows * w / 8, acc := f.acc - acc * w / 8, par := f.par - par * w / 8, groups := f.groups - 1 }
        else f
      (fitGroups rows w acc par n (l.map use)).map (fun r => k :: r)

/-- Lines of a core that allocations hold; a retired team's are held while writes are inbound (R483). -/
def linesUsed (s : State) (core : Nat) : Nat :=
  (s.teams.filter (fun t => t.core == core && !setAside s t.ctx && (!t.retired || decide (t.inbound ≠ 0)))).foldl (fun a t => a + t.lines) 0

/-- The state of a function in the status block (R434). -/
def statusOf (s : State) (e : Nat) : Nat := (s.status.getD e (0, 0)).1

/-- May work be placed on this core: its entry reads ready (R435, R461)? -/
def coreUp (s : State) (core : Nat) : Bool := decide (core < 96 ∧ statusOf s (32 + core) = 2)

/-- The partitions of a team on a core, or none when it does not fit. -/
def fitTeam (s : State) (core lines rows w acc par n : Nat) : Option (List Nat) :=
  if coreUp s core ∧ linesUsed s core + lines ≤ 8192 then fitGroups rows w acc par n (freeOf s core) else none

/-! Launch records (R63, R64, R445). -/

/-- A dispatcher's access to a counter: the physical address, checked as the context's access of engine kind 0 (R64, R57). -/
def counterPa (s : State) (ctx a need : Nat) : Option Nat :=
  match xlate s 255 ctx a need false with
  | .bad _ _ => none
  | .ok p _ => if (accessCheck s ctx 0 p 8 need).isSome then none else some p

/-- The table entries that the dispatcher's walks for these counters read (R121, R474). -/
def dispTrail (s : State) (ctx : Nat) (l : List Nat) : List Nat := l.flatMap (fun a => rangeTrail s ctx a 8)

/-- Data in error that the dispatcher reads for a context: a machine check (R458). -/
def dispCheck (s : State) (ctx addr code : Nat) : State := stopCtx (serviceRecord s ctx { cls := 0x19, code := code, addr := addr, eng := 6 } 0) ctx 0x19

/-- The dispatcher's walks for these counters come first: the state meanwhile, while an entry cannot be read at its home (R106), or
after one in error (R474); none once all are read. -/
def dispWalk (s : State) (ctx : Nat) (l : List Nat) : Option State :=
  if !(dispTrail s ctx l).all (homeReady s) then some s
  else (l.findSome? (fun a => trailBad s ctx a 8)).map (fun p => dispCheck s ctx p.1 p.2)

/-- The lowest of a list of numbers. -/
def least (l : List Nat) : Option Nat := l.foldl (fun a x => match a with | none => some x | some y => some (min x y)) none

/-- Reserved fields that are set, and fields out of range, each by its lowest byte in the record (R445 codes 1 and 2). -/
def recReserved (b : List Byte) : List Nat :=
  [(0, 57, 7), (16, 50, 14), (24, 33, 31), (32, 54, 10)].filterMap (fun p =>
    if fld (le b p.1 8) p.2.1 p.2.2 ≠ 0 then some (p.1 + p.2.1 / 8) else none)
def recRange (b : List Byte) (r : LRec) : List Nat :=
  [(decide (r.entry % 8 = 0), 0), (decide (1 ≤ r.clusters), 16), (decide (r.cw ≤ 6), 20), (decide (1 ≤ r.rows ∧ r.rows ≤ 20), 21),
   (decide (r.lm ≤ 8192), 24), (decide (r.depth ≤ 256), 25), (decide (r.acc ≤ 32), 26), (decide (r.par ≤ 8), 27),
   (decide (r.trows ≤ 20), 32), (decide (r.tlm ≤ 8192), 32), (decide (r.tdepth ≤ 256), 34), (decide (r.tacc ≤ 32), 37),
   (decide (r.tpar ≤ 8), 38), (decide (r.done % 8 = 0), 40)].filterMap (fun p => if p.1 then none else some p.2) ++
  (List.range 4).filterMap (fun k => if (depOf b k).1 % 8 ≠ 0 then some (64 + 16 * k) else none)

/-- The addresses of the used dependence counters. -/
def usedDeps (b : List Byte) : List Nat := ((List.range 4).map (fun k => (depOf b k).1)).filter (fun a => a != 0)

/-- The lowest code of an invalid record with its index. -/
def recordBad (s : State) (ctx : Nat) (b : List Byte) : Option (Nat × Nat) :=
  let r := lrecOf b
  let noFit (task : Bool) (rows acc par n : Nat) : Bool :=
    decide (8192 < teamLines r task) || (fitGroups rows r.width acc par n emptyCore).isNone
  let slotBad := (List.range 8).find? (fun k => (slotDec (le b (128 + 16 * k) 8) (le b (136 + 16 * k) 8)).isNone)
  let depBad := (List.range 4).find? (fun k => decide ((depOf b k).1 ≠ 0) && (counterPa s ctx (depOf b k).1 1).isNone)
  match least (recReserved b) with
  | some i => some (1, i)
  | none => match least (recRange b r) with
    | some i => some (2, i)
    | none =>
      if 12 < r.cw * r.ch then some (3, 0)
      else if r.entry = 0 then some (4, 0)
      else if noFit false r.rows r.acc r.par r.groups ∨ (r.trows ≠ 0 ∧ noFit true r.trows r.tacc r.tpar 1) then some (5, 0)
      else if r.cane ∧ ((match getC s ctx with | some c => c.pairs | none => 0) = 0 ∨ s.waits.any (fun w => w.code == 5 && w.ctx == ctx))
        then some (6, 0)
      else match slotBad with
        | some k => some (7, k)
        | none => match depBad with
          | some k => some (8, k)
          | none => if r.done ≠ 0 ∧ (counterPa s ctx r.done 3).isNone then some (8, 4) else none

/-- The head of a queue, and the queue without it. -/
def queueHead (s : State) (ctx q : Nat) : Option (Nat × List Byte) := match getC s ctx with | some c => (fget [] q c.queues).head? | none => none
def popQueue (s : State) (ctx q : Nat) : State :=
  match getC s ctx with
  | none => s
  | some c => putC s { c with queues := fput [] q ((fget [] q c.queues).drop 1) c.queues, checked := fput 0 q 0 c.checked }

/-- An invalid record leaves its queue, and the service hears of it (R63, R444). -/
def dropRecord (s : State) (ctx q va code index : Nat) : State :=
  serviceRecord (popQueue s ctx q) ctx { cls := 0x1C, code := code, addr := va, index := index, eng := 6 } q

/-- LAUNCH_RECORD_CHECK. -/
def execLaunchRecordCheck (ctx q : Nat) (s : State) : Host.Outcome State Fault Refusal :=
  .next (match queueHead s ctx q, getC s ctx with
    | some (va, b), some c =>
      if c.run ≠ .running ∨ 16 ≤ q ∨ fget 0 q c.checked ≠ 0 then s
      else match dispWalk s ctx (usedDeps b ++ [(lrecOf b).done]) with
        | some s1 => s1
        | none => match recordBad s ctx b with
          | some (code, i) => dropRecord s ctx q va code i
          | none => putC s { c with checked := fput 0 q 1 c.checked }
    | _, _ => s)

/-- The byte of the first malformed field of a collective descriptor (R379). -/
def collBad (a : Nat) (b : List Byte) : Option Nat :=
  let q k := le b (8 * k) 8
  least ([(decide (a % 64 = 0), 0), (decide (fld (q 0) 0 4 ≤ 3), 0), (decide (fld (q 0) 4 4 = 0), 0),
    (decide (fld (q 0) 16 16 < fld (q 0) 32 16), 2), (decide (fld (q 0) 32 16 ≠ 0), 4), (decide (fld (q 0) 48 16 = 0), 6),
    (decide (fld (q 1) 0 32 % 128 = 0), 8), (decide (fld (q 2) 0 57 % 128 = 0), 16), (decide (fld (q 2) 57 7 = 0), 23),
    (decide (fld (q 4) 10 54 = 0), 33), (decide (ofBytes (b.drop 40) = 0), 40)].filterMap (fun p => if p.1 then none else some p.2))

def collOf (b : List Byte) : Coll :=
  let q k := le b (8 * k) 8
  { op := fld (q 0) 0 4, members := fld (q 0) 32 16, rank := fld (q 0) 16 16, cgroup := fld (q 0) 8 8, tree := fld (q 1) 32 32,
    chunk := fld (q 1) 0 32, buffer := fld (q 2) 0 57, total := q 3,
    dctr := if (q 4).testBit 9 then some (fld (q 4) 0 9) else none }

/-- The collective descriptor, read at its homes as the grid starts (R379): the state and the collective, without one and with a report
when it is malformed or cannot be read; none while it must wait (R106). -/
def readColl (s : State) (ctx a : Nat) : Option (State × Option Coll) :=
  let bad (i : Nat) : State × Option Coll := (serviceRecord s ctx { cls := 0x1E, code := 4, addr := a, index := i, eng := 5 } 0, none)
  if a = 0 then some (s, none)
  else if a % 64 ≠ 0 then some (bad 0)
  else if !(rangeTrail s ctx a 64).all (homeReady s) then none
  else match trailBad s ctx a 64 with
  | some (p, code) => some (dispCheck s ctx p code, none)
  | none =>
    let r := readRange s ctx 5 (fun va => .inl (xlate s 255 ctx va 1 false)) a 64
    match r.stop with
    | some none => none
    | some (some e) => if e.cls = 0x19 then some (dispCheck s ctx e.addr e.code, none) else some (bad r.bytes.length)
    | none => match collBad a r.bytes with
      | some i => some (bad i)
      | none => some (engineRead s ctx 0 r.pas, some (collOf r.bytes))

/-- The number of a grid that starts: the next one that no grid of the context still holds (R27). -/
def freeGrid (s : State) (c : Context) : Nat :=
  (((List.range (s.grids.length + 1)).map (fun k => (c.nextGrid + k) % 2 ^ 32)).find? (fun n => (getGrid s c.ctx n).isNone)).getD c.nextGrid

/-- GRID_START (R64, R66): each used dependence counter is checked and read at its home. -/
def execGridStart (ctx q : Nat) (s : State) : Host.Outcome State Fault Refusal :=
  .next (match queueHead s ctx q, getC s ctx with
    | some (va, b), some c =>
      let used := (List.range 4).filter (fun k => decide ((depOf b k).1 ≠ 0))
      let pa k := counterPa s ctx (depOf b k).1 1
      if c.run ≠ .running ∨ fget 0 q c.checked = 0 then s
      else match dispWalk s ctx (usedDeps b) with
      | some s1 => s1
      | none => match used.find? (fun k => (pa k).isNone) with
        | some k => dropRecord s ctx q va 8 k
        | none =>
          let pas := used.filterMap pa
          if !pas.all (homeReady s) then s
          else match badAt s (pas.flatMap (fun p => (List.range 8).map (fun i => p + i))) with
            | some (p, code) => dispCheck s ctx p code
            | none =>
              if !used.all (fun k => match pa k with | some p => decide ((depOf b k).2 ≤ ofBytes (rdBytes s p 8)) | none => false) then s
              else match readColl s ctx (lrecOf b).coll with
                | none => s
                | some (s0, coll) =>
                  let s1 := engineRead s0 ctx 0 pas
                  let n := freeGrid s c
                  let g : Grid := { grid := n, ctx := ctx, queue := q, prio := fld c.qprio (3 * q) 3, order := s1.gridSeq, lrec := b, coll := coll }
                  let s2 := popQueue s1 ctx q
                  match getC s2 ctx with
                  | none => s2
                  | some c1 => putC { s2 with grids := s2.grids ++ [g], gridSeq := s2.gridSeq + 1 } { c1 with nextGrid := (n + 1) % 2 ^ 32 }
    | _, _ => s)

/-! Clusters (R68, R69, R72). -/

/-- The package dispatch list: for each grid with unplaced clusters its next one, in order (R68). -/
def dispatchList (s : State) : List Grid :=
  (s.grids.filter (fun g => decide (g.next < (lrecOf g.lrec).clusters) && ctxRuns s g.ctx)).foldl (fun l g =>
    l.takeWhile (fun h => !lexLt [7 - g.prio, g.order] [7 - h.prio, h.order]) ++ [g] ++
    l.dropWhile (fun h => !lexLt [7 - g.prio, g.order] [7 - h.prio, h.order])) []

/-- The head of the package list has been passed over 64 times (R72). -/
def packageDrain (s : State) : Bool := match (dispatchList s).head? with | some g => decide (64 ≤ fget 0 g.order s.dispPassed) | none => false

/-- The task groups waiting on a core, in age order. -/
def coreOrder (s : State) (core : Nat) : List Formed :=
  let age (f : Formed) : Nat := match f.tasks with | t :: _ => t.age | [] => 0
  (s.formed.filter (fun f => f.core == core && ctxRuns s f.ctx)).foldl (fun l f =>
    l.takeWhile (fun h => decide (age h ≤ age f)) ++ [f] ++ l.dropWhile (fun h => decide (age h ≤ age f))) []

def coreDrain (s : State) (core : Nat) : Bool := match (coreOrder s core).head? with | some f => decide (64 ≤ f.passes) | none => false

/-- The task team of a grid on a core (R54). -/
def taskTeam (s : State) (ctx grid core : Nat) : Option Team :=
  s.teams.find? (fun t => t.task && !t.retired && t.ctx == ctx && t.grid == grid && t.core == core)

/-- Where a task group would go: its partition, or none when it does not fit. -/
def fitTask (s : State) (f : Formed) : Option Nat :=
  match getGrid s f.ctx f.grid with
  | none => none
  | some g =>
    let r := lrecOf g.lrec
    let team := taskTeam s f.ctx f.grid f.core
    let busy := match team with | some t => (s.groups.filter (fun h => h.team == t.tid)).length | none => 0
    if 32 ≤ busy then none
    else (fitTeam s f.core (match team with | some _ => 0 | none => teamLines r true) r.trows r.width r.tacc r.tpar 1).bind List.head?

/-- The cores of a rectangle of a die (R13, R58). -/
def rectCores (die x y w h : Nat) : List Nat :=
  (List.range h).flatMap (fun j => (List.range w).map (fun i => 24 * die + 6 * (y + j) + x + i))

/-- The first rectangle that fits, with its die and each core's partitions (R69). -/
def findRect (s : State) (r : LRec) : Option (Nat × List (Nat × List Nat)) :=
  let spots := (List.range 4).flatMap (fun d => (List.range (5 - r.ch)).flatMap (fun y => (List.range (7 - r.cw)).map (fun x =>
    ((s.lastDie + 1 + d) % 4, x, y))))
  spots.findSome? (fun p =>
    let cores := rectCores p.1 p.2.1 p.2.2 r.cw r.ch
    let fits := cores.map (fun c => (c, if coreDrain s c then none else fitTeam s c (teamLines r false) r.rows r.width r.acc r.par r.groups))
    if fits.all (fun q => q.2.isSome) then some (p.1, fits.map (fun q => (q.1, q.2.getD []))) else none)

/-- A context whose first group becomes resident: the watchdog's interval begins (R454). -/
def residentNow (s : State) (ctx : Nat) : State := if s.groups.any (fun g => g.ctx == ctx) then s else progressed s ctx

/-- A group as it starts (R34). -/
def newGroup (s : State) (gid : Nat) (g : Grid) (t : Team) (num part rows acc par depth : Nat) (entry : Nat) (mask : W64) : Group :=
  { gid := gid, ctx := g.ctx, grid := g.grid, cluster := t.cluster, team := t.tid, tidx := t.tidx, num := num, width := t.width,
    core := t.core, part := part, rows := rows, accN := acc, parN := par, depthD := depth, task := t.task,
    slotA := { st := .running, clause := entry, mask := mask, last := s.time, waitSince := s.time, extSince := s.time }, prio := g.prio, base := g.prio, curPrio := g.prio, resident := s.time }

/-- A full mask of w lanes. -/
def fullMask (w : Nat) : W64 := BitVec.ofNat 64 (2 ^ w - 1)

/-- Place one team of a cluster with its groups (R27, R34, R62, R312). -/
def placeTeam (g : Grid) (r : LRec) (cl : Nat) (s : State) (p : Nat × Nat × List Nat) : State :=
  let t : Team := { tid := s.nextId, ctx := g.ctx, grid := g.grid, cluster := cl, tidx := p.1, core := p.2.1, task := false,
                    groups := r.groups, width := r.width, lines := teamLines r false, prog := r.lm, depthD := r.depth,
                    bars := fput (0, 0, 0) 0 (r.groups, 0, 0) [], chunk := { round := fget 0 (cl * (r.cw * r.ch) + p.1) g.rounds } }
  let s1 := { s with nextId := s.nextId + 1, teams := s.teams ++ [t] }
  ((List.range p.2.2.length).zip p.2.2).foldl (fun s q =>
    let h := newGroup s s.nextId g t q.1 q.2 r.rows r.acc r.par r.depth r.entry (fullMask r.width)
    { s with nextId := s.nextId + 1, groups := s.groups ++ [ws h 1 (r64 r.arg)] }) s1

/-- Place a cluster: its teams start together (R58). -/
def placeCluster (s0 : State) (g : Grid) (die : Nat) (l : List (Nat × List Nat)) : State :=
  let r := lrecOf g.lrec
  let s := residentNow s0 g.ctx
  let n := r.groups * l.length
  let k : Cluster := { ctx := g.ctx, grid := g.grid, idx := g.next, w := r.cw, h := r.ch,
                       bars := fputs (0, 0, 0) ((List.range 4).map (fun b => (b, (n, 0, 0)))) [] }
  let s1 := { s with clusters := s.clusters ++ [k], lastDie := die }
  let s2 := putGrid s1 { g with next := g.next + 1 }
  ((List.range l.length).zip l).foldl (placeTeam g r g.next) s2

/-- A task group that is ready on a core and fits it goes before a cluster that uses the core (R70). -/
def taskFirst (s : State) (core : Nat) : Bool := (coreOrder s core).any (fun f => (fitTask s f).isSome)

/-- CLUSTER_PLACEMENT: `pick` is the unit's place in the package list; a later unit only when the head does not fit, and a pass-over
of the head is counted; the successor of a placed unit starts with a count of zero (R72). -/
def execClusterPlacement (pick : Nat) (s : State) : Host.Outcome State Fault Refusal :=
  .next (
    let l := dispatchList s
    match l.head?, l[pick]? with
    | some hd, some g =>
      let drain := packageDrain s
      let later : Bool := decide (pick ≠ 0)
      if later && (drain || (findRect s (lrecOf hd.lrec)).isSome) then s
      else match findRect s (lrecOf g.lrec) with
        | none => s
        | some (die, cores) =>
          if !drain && cores.any (fun c => taskFirst s c.1) then s
          else
            let s1 := placeCluster s g die cores
            { s1 with dispPassed := if later then fput 0 g.order 0 (fput 0 hd.order (fget 0 hd.order s1.dispPassed + 1) s1.dispPassed) else [] }
    | _, _ => s)

/-! Task groups (R55, R70). -/

/-- Tasks of a grid in a core's pool that may be gathered, oldest first (R258). -/
def gatherable (s : State) (t : Task) : Bool :=
  decide (t.wct < s.time) && s.pend.all (fun f => f.gid != t.gid || !decide (f.word < t.ready) || (match f.op with
    | .store .. => false | .atomic .. => false | _ => true))

def poolTasks (s : State) (ctx grid core : Nat) : List Task :=
  (s.pool.filter (fun t => t.ctx == ctx && t.grid == grid && t.core == core && gatherable s t)).foldl (fun l t =>
    l.takeWhile (fun u => decide (u.age ≤ t.age)) ++ [t] ++ l.dropWhile (fun u => decide (u.age ≤ t.age))) []

/-- The oldest task with the next-oldest of its entry, up to W (R55). -/
def gatherUnit (s : State) (g : Grid) (core : Nat) : List Task :=
  match poolTasks s g.ctx g.grid core with
  | [] => []
  | t :: r => ((t :: r).filter (fun u => u.entry == t.entry)).take (lrecOf g.lrec).width

/-- Form a group: its tasks leave the pool storage; its draw count starts by the number formed before it (R53, R189). -/
def formGroup (s : State) (g : Grid) (core : Nat) (l : List Task) : State :=
  let q := fget 0 core g.formed
  let f : Formed := { ctx := g.ctx, grid := g.grid, core := core, tasks := l, draw := r64 (2 ^ 40 * q) }
  putGrid { s with pool := s.pool.filter (fun t => !l.contains t), formed := s.formed ++ [f] } { g with formed := fput 0 core (q + 1) g.formed }

/-- TASK_GROUP_FORMATION: W tasks of one entry, or no group of the task team resident. -/
def execTaskGroupFormation (ctx grid core : Nat) (s : State) : Host.Outcome State Fault Refusal :=
  .next (match getGrid s ctx grid with
    | none => s
    | some g =>
      let l := gatherUnit s g core
      let alone : Bool := match taskTeam s ctx grid core with | some t => s.groups.all (fun h => h.team != t.tid) | none => true
      if ctxRuns s ctx && !l.isEmpty && (decide ((lrecOf g.lrec).width ≤ l.length) || alone) then formGroup s g core l else s)

/-- GATHER_WINDOW_EXPIRY: the oldest task has waited for the gather window, in core clocks of 2/3 ns (R19, R55). -/
def execGatherWindowExpiry (ctx grid core : Nat) (s : State) : Host.Outcome State Fault Refusal :=
  .next (match getGrid s ctx grid with
    | none => s
    | some g => match gatherUnit s g core with
      | [] => s
      | t :: r => if ctxRuns s ctx && decide (t.since + cdiv ((lrecOf g.lrec).gather * 2) 3 ≤ s.time) then formGroup s g core (t :: r) else s)

/-- Place a task group, in its task team, created if need be (R54, R55, R70). -/
def placeTasks (s0 : State) (f : Formed) (g : Grid) (part : Nat) : State :=
  let r := lrecOf g.lrec
  let s := residentNow s0 f.ctx
  let fresh : Team := { tid := s.nextId, ctx := g.ctx, grid := g.grid, cluster := 0xFFFFFFFF, tidx := 0xFFFFFFFF, core := f.core, task := true,
                        groups := 32, width := r.width, lines := teamLines r true, prog := r.tlm, depthD := r.tdepth }
  let (s1, t) := match taskTeam s f.ctx f.grid f.core with
    | some t => (s, t)
    | none => ({ s with nextId := s.nextId + 1, teams := s.teams ++ [fresh] }, fresh)
  let num := ((List.range 32).find? (fun k => s1.groups.all (fun h => h.team != t.tid || h.num != k))).getD 0
  let n := f.tasks.length
  let area := argBase t num
  let recs := (List.range n).zip f.tasks
  let t0 := lwr t (recs.flatMap (fun p => at_ (area + 64 * p.1) p.2.record))
  let t1 := { t0 with barLast := fputs 0 ((List.range 16).map (fun b => (b * 32 + num, 0))) t0.barLast }
  let entry := match f.tasks with | u :: _ => u.entry | [] => 0
  let h0 := newGroup s1 s1.nextId g t num part r.trows r.tacc r.tpar r.tdepth entry (fullMask n)
  let h1 := (List.range n).foldl (fun h i => wv h 0 i (r64 (area + 64 * i))) h0
  let s2 := putT s1 t1
  { s2 with nextId := s2.nextId + 1, formed := s2.formed.erase f,
            groups := s2.groups ++ [{ h1 with draw := f.draw, counters := f.tasks.map (fun u => u.counter) }] }

/-- TASK_GROUP_PLACEMENT: `pick` is the group's place in its core's order (R70, R72); the successor of a placed head starts with a count of
zero. -/
def execTaskGroupPlacement (core pick : Nat) (s : State) : Host.Outcome State Fault Refusal :=
  .next (
    let l := coreOrder s core
    match l.head?, l[pick]? with
    | some hd, some f =>
      let later : Bool := decide (pick ≠ 0)
      if packageDrain s || (later && (coreDrain s core || (fitTask s hd).isSome)) then s
      else match fitTask s f, getGrid s f.ctx f.grid with
        | some part, some g =>
          let s1 := placeTasks s f g part
          if later then { s1 with formed := replaceFirst (fun x => x == hd) (fun x => { x with passes := x.passes + 1 }) s1.formed }
          else { s1 with formed := s1.formed.map (fun x => if x.core == core then { x with passes := 0 } else x) }
        | _, _ => s
    | _, _ => s)

/-! Retirement (R49, R252, R314). -/

/-- A barrier loses a group (R314): n falls, its arrival in the current phase is withdrawn, and the phase may complete. -/
def barLose (v : Nat × Nat × Nat) (arrived : Bool) : Nat × Nat × Nat :=
  if v.1 = 0 then v else barPhase (v.1 - 1, v.2.1 - (if arrived then 1 else 0), v.2.2)

/-- Every barrier of the team and cluster loses a group. -/
def barriersLose (s : State) (g : Group) : State :=
  let s1 := match getT s g.team with
    | none => s
    | some t => putT s { t with bars := fputs (0, 0, 0) ((List.range 16).map (fun b => (b, barLose (barOf t b) (barArrived t b g.num)))) t.bars }
  match clusterOf s1 g with
  | none => s1
  | some k => putCl s1 { k with bars := fputs (0, 0, 0) ((List.range 4).map (fun b => (b, barLose (cbarOf k b) (cbarArrived k b g)))) k.bars }

/-- The faults no word of the group waited for are reported (R447, R495, R497). -/
def reportDues (s : State) (g : Group) : State :=
  g.due.foldl (fun s d =>
    let code := match d.cls with | .far => 3 | .tower => 4 | _ => 5
    match d.cls with
    | .net => groupless s g.ctx d.info
    | _ => serviceRecord s g.ctx (goneFault d code) 0) s

/-- The abort of its team's chunk that the communication group, which retires, has not waited for is reported (R497). -/
def reportAbort (s : State) (g : Group) : State :=
  match teamOf s g with
  | none => s
  | some t => match chunkOf s t, t.chunk.abort with
    | some (c, _, _, _), some e =>
      if g.num = c.cgroup then groupless (putT s { t with chunk := { t.chunk with abort := none } }) g.ctx e else s
    | _, _ => s

/-- Is nothing more due to a retired team's record? -/
def teamGone (s : State) (t : Team) : Bool :=
  t.retired && decide (t.inbound = 0) && ((chunkOf s t).isNone || t.chunk.landed || (t.chunk.dead && !t.chunk.fired))

/-- Drop the records of teams, clusters and completed grids that nothing refers to any more. -/
def sweep (s : State) : State :=
  let s1 := { s with teams := s.teams.filter (fun t => !teamGone s t) }
  let has (ctx grid cl : Nat) : Bool := s1.teams.any (fun t => t.ctx == ctx && t.grid == grid && t.cluster == cl && !t.task)
  { s1 with clusters := s1.clusters.filter (fun k => has k.ctx k.grid k.idx),
            grids := s1.grids.filter (fun g => !g.done || s1.teams.any (fun t => t.ctx == g.ctx && t.grid == g.grid)) }

/-- A team whose last group has retired ends (R54, R59); its cluster ends with its last team. -/
def endTeam (s : State) (tid : Nat) : State :=
  match getT s tid with
  | none => s
  | some t =>
    let busy := s.groups.any (fun g => g.team == tid)
    let more := t.task && (s.pool.any (fun k => k.ctx == t.ctx && k.grid == t.grid && k.core == t.core) ||
      s.formed.any (fun k => k.ctx == t.ctx && k.grid == t.grid && k.core == t.core))
    if busy || more || t.retired then s
    else
      let s1 := putT s { t with retired := true }
      let last := !t.task && s1.teams.all (fun u => u.task || u.retired || u.ctx != t.ctx || u.grid != t.grid || u.cluster != t.cluster)
      match getGrid s1 t.ctx t.grid with
      | some g => if last then putGrid s1 { g with ended := g.ended + 1 } else s1
      | none => s1

/-- TASK_STEAL (R56): a task team of the victim that is left without groups and tasks is freed (R54). -/
def execTaskSteal (ctx core : Nat) (s : State) : Host.Outcome State Fault Refusal :=
  .next (
    let count (k : Nat) : Nat := (s.pool.filter (fun t => t.ctx == ctx && t.core == k)).length
    let idle := decide (count core = 0) && s.groups.all (fun g => g.ctx != ctx || g.core != core)
    let die := core / 24
    let victim := ((List.range 24).map (fun i => 24 * die + i)).foldl (fun a k => match a with
      | none => if count k = 0 then none else some k
      | some b => if count b < count k then some k else some b) none
    match victim with
    | none => s
    | some v =>
      if !idle || !ctxRuns s ctx || !coreUp s core || decide (96 ≤ core) then s
      else
        let mine := (s.pool.filter (fun t => t.ctx == ctx && t.core == v)).foldl (fun l t =>
          l.takeWhile (fun u => decide (u.age ≤ t.age)) ++ [t] ++ l.dropWhile (fun u => decide (u.age ≤ t.age))) []
        let take := mine.take (min (cdiv mine.length 2) (poolRoom s ctx core))
        let s1 := { s with pool := s.pool.map (fun t => if take.contains t then { t with core := core } else t) }
        sweep ((s1.teams.filter (fun t => t.task && t.ctx == ctx && t.core == v)).foldl (fun s t => endTeam s t.tid) s1))

/-- Lines that a context pinned on a core lose their pins when its last group there retires (R260); a task team that has pooled tasks but no
group left counts as retired for this: DESIGN CHOICE (log entry 101). -/
def unpin (s : State) (ctx core : Nat) : State :=
  if s.groups.any (fun g => g.ctx == ctx && g.core == core) then s
  else { s with icache := s.icache.map (fun l => if l.core == core && l.expiry.isNone && l.pinCtx == ctx
    then { l with expiry := some s.time, pinCtx := 0 } else l) }

/-- Each distinct counter a task group names, with its number of tasks (R57). -/
def counterAdds (l : List Nat) : List (Nat × Nat) :=
  ((l.filter (fun a => decide (a ≠ 0))).eraseDups).map (fun a => (a, (l.filter (fun b => b == a)).length))

/-- A group leaves the machine: its resources, barriers, pontil and counters (R252, R314, R86, R57). -/
def retireGroup (s : State) (g : Group) : State :=
  let s1 := reportAbort (reportDues (barriersLose s g) g) g
  let p := getPart s1 g.core g.part
  let s2 := putPart { s1 with groups := s1.groups.filter (fun h => h.gid != g.gid) }
    { p with cur := p.cur.filter (fun q => q.1 != g.gid) }
  let s3 := if p.pontil = some g.gid then pontilFree s2 g.core g.part else s2
  let w := max g.wct (max g.farTime g.twTime)
  let s4 := match getGrid s3 g.ctx g.grid with | some r => putGrid s3 { r with wct := max r.wct w } | none => s3
  let s5 := if g.task && !g.counters.isEmpty then launchOp s4 0 g.ctx g.core .none (.taskAdd g.grid g.counters.length (counterAdds g.counters) g.wct) else s4
  unpin (endTeam s5 g.team) g.ctx g.core

/-- GROUP_RETIRE: both slots free and every result returned (R252); waiting regroups and barriers of its team see it go, so no group of a
context that stops or is set aside retires (R90). -/
def execGroupRetire (gid : Nat) (s : State) : Host.Outcome State Fault Refusal :=
  .next (match getG s gid with
    | none => s
    | some g =>
      if g.slotA.st = .free ∧ g.slotB.st = .free ∧ allQuiet s g ∧ ctxRuns s g.ctx then sweep (regroupRelease (retireGroup s g) g.team) else s)

/-- The merge of R49 to R51: the receiver takes the donor's lanes in the named registers and the masks; the donor's tasks, whose lanes run
on, are now the receiver's (R57). The tower status word of R371 becomes the union of both: DESIGN CHOICE (log entry 84). -/
def mergeGroups (g h : Group) (w : VWord) : Group :=
  let src := (lanesOf g.slotA.mask).map (fun l => (false, l)) ++ (lanesOf h.slotA.mask).map (fun l => (true, l))
  let n := src.length
  let at_n := (List.range n).zip src
  let regs := (blockRegs w.b.toNat (rowsV w) (colsV w) ++
    (if w.fn.getLsbD 0 then blockRegs w.c.toNat (rowsV w) (colsV w) else [])).eraseDups
  let vals := regs.flatMap (fun r => at_n.map (fun p => (r, p.1, rv (if p.2.1 then h else g) r p.2.2)))
  let g1 := vals.foldl (fun x v => wv x v.1 v.2.1 v.2.2) g
  let g2 := (List.range 7).foldl (fun x k =>
    wm x (k + 1) (lanesMask ((at_n.filter (fun p => (rm (if p.2.1 then h else g) (k + 1)).getLsbD p.2.2)).map (fun p => p.1)))) g1
  { g2 with slotA := { g2.slotA with mask := fullMask n }, flags := g.flags ||| h.flags, wct := max g.wct h.wct,
            farTime := max g.farTime h.farTime, twTime := max g.twTime h.twTime, tstat := g.tstat ||| h.tstat, latch := none, counters := g.counters ++ h.counters }

/-- The key and the partner of a group paired at a `regroup`. -/
def regroupPair (g : Group) : Option (W64 × Nat) := match g.slotA.park with | some (.regroup k _ (some m)) => some (k, m) | _ => none

/-- REGROUP_PAIR: G, the lower-numbered of a pair, receives H (R48, R49). A donor that holds the pontil takes the regroup-misuse fate (R47),
and G seeks another partner. -/
def execRegroupPair (gid hid : Nat) (s : State) : Host.Outcome State Fault Refusal :=
  .next (match getG s gid, getG s hid with
    | some g, some h => match regroupPair g, regroupWord g with
      | some (key, m), some w =>
        if m ≠ hid ∨ h.num ≤ g.num ∨ !ctxRuns s g.ctx then s
        else if (getPart s h.core h.part).pontil = some hid then
          regroupSeek (putG (raiseAt s hid false { cls := 0x0A, code := 4, index := g.num }) (mated g key none)) gid key
        else
          let s1 := retireGroup (putG s (mergeGroups g h w)) { h with counters := [] }
          regroupRelease (regroupGo s1 gid 1#64) g.team
      | _, _ => s
    | _, _ => s)

/-! Completion (R57, R59, R67). -/

/-- An 8-byte add at a home by the dispatcher (R57, R67), with its completion time. A counter in error is not changed (R458). -/
def counterAtomic (s : State) (ctx pa n : Nat) : State × Nat :=
  match badAt s ((List.range 8).map (fun i => pa + i)) with
  | some (p, code) => (dispCheck s ctx p code, 0)
  | none => engineWrite s ctx 0 (at_ pa (toBytes 8 (ofBytes (rdBytes s pa 8) + n)))

/-- May the dispatcher's add to a counter be made now: its walk's entries can be read, and an atomic at its home need not wait (R106)? -/
def addReady (s : State) (ctx a : Nat) : Bool :=
  (rangeTrail s ctx a 8).all (homeReady s) && (match counterPa s ctx a 3 with | some p => atomicReady s [p] | none => true)

/-- The dispatcher's add to a counter of a context: a table entry in error is a machine check (R474), and an add that fails its checks is
not performed but reported (R57, R64). -/
def counterOp (s : State) (ctx a n : Nat) (fail : State → State) : State × Nat :=
  match trailBad s ctx a 8 with
  | some (p, code) => (dispCheck s ctx p code, 0)
  | none => match counterPa s ctx a 3 with
    | some p => counterAtomic s ctx p n
    | none => (fail s, 0)

/-- TASK_COUNTER_ADD: after the group's %wct has passed; an add that fails its checks is reported and not performed. -/
def execTaskCounterAdd (id : Nat) (s : State) : Host.Outcome State Fault Refusal :=
  .next (match getF s id with
    | none => s
    | some f => match f.op with
      | .taskAdd grid n adds due =>
        let ready := adds.all (fun p => addReady s f.ctx p.1)
        if s.time ≤ due ∨ !ready then s
        else
          let (s1, w) := adds.foldl (fun acc p =>
            let r := counterOp acc.1 f.ctx p.1 p.2 (fun s => serviceRecord s f.ctx { cls := 0x1D, code := 7, addr := p.1 } 0)
            (r.1, max acc.2 r.2)) (dropF s id, 0)
          match getGrid s1 f.ctx grid with
          | some g => putGrid s1 { g with tasks := g.tasks - n, wct := max g.wct w }
          | none => s1
      | _ => s)

/-- Has every team of a grid retired and every task completed (R59)? -/
def gridComplete (g : Grid) : Bool :=
  let n := (lrecOf g.lrec).clusters
  decide (n ≤ g.next) && decide (n ≤ g.ended) && decide (g.tasks = 0) && !g.done

/-- GRID_DONE_ADD. -/
def execGridDoneAdd (ctx grid : Nat) (s : State) : Host.Outcome State Fault Refusal :=
  .next (match getGrid s ctx grid with
    | none => s
    | some g =>
      let a := (lrecOf g.lrec).done
      if !gridComplete g ∨ s.time ≤ g.wct then s
      else
        let s1 := putGrid s { g with done := true }
        if a = 0 then sweep s1
        else if !addReady s ctx a then s
        else sweep (counterOp s1 ctx a 1 (fun s => serviceRecord s ctx { cls := 0x1C, code := 9, addr := a, eng := 6 } grid)).1)

end Sys2Proof.Machine
end

