-- ==== Sys2Proof/Machine/Pick.lean ====
section
/-! DEFINITION. What wakes a parked slot (R80), when a slot is ready (R74), how an issue slot picks and packs (R76, R81, R82), the
kept faults a clause start or a switch marker raises (R447), instruction fetch, the spin floor and naps. -/

namespace Sys2Proof.Machine

/-- Has every receiver of a mask a free slot, and is none gone (R482)? -/
def mcChannelFree (s : State) (g : Group) (h mask : Nat) : Bool :=
  match teamOf s g with
  | none => true
  | some t =>
    let c := (t.mc.find? (fun c => c.off == h)).getD { off := h, free := [] }
    (mcTeams mask).all (fun m => mcGone s g m || decide (fget 0 m c.free ≠ 0))

/-- Has the group's chunk landed, or may its wait end otherwise (R381, R501)? -/
def collOver (s : State) (g : Group) : Bool :=
  match teamOf s g with
  | none => true
  | some t => (t.chunk.landed && decide (t.chunk.wct < s.time)) || t.chunk.abort.isSome || !t.chunk.fired

/-- Does the wake condition of a park hold (R80)? -/
def parkOver (s : State) (g : Group) (b : Bool) (p : Park) : Bool :=
  match p with
  | .marker => allQuiet s g
  | .drain => quiet s g .loads && quiet s g .sfu && quiet s g .tiles && quiet s g .stcomp
  | .line t l => match getT s t with | none => true | some u => !isAbsent u l || inRange u l
  | .pontil => match (getPart s g.core g.part).pontil with | none => true | some h => h == g.gid
  | .barrier k _ => barDone s g k
  | .cbarrier k _ => match clusterOf s g with | none => true | some c => !cbarArrived c k g
  | .await h => match teamOf s g with | none => true | some t => !awaitBefore s g b h && awaitReady s t h
  | .lehrFull t h => match getT s t with | none => true | some u => !lehrFull u h
  | .mcZero h mask => mcChannelFree s g h mask
  | .regroup _ drained _ => !drained && allQuiet s g
  | .nap d _ c => decide (c ≠ 0) || (match d with | some t => decide (t ≤ s.time) | none => false)
  | .release sc => releaseReady s g sc s.nextId
  | .farFence => quiet s g .far && (g.due.any (fun d => d.cls == .far) || decide (g.farTime < s.time))
  | .twWait keep => !twBusy s g keep &&
      (g.due.any (fun d => d.cls == .tower && twNamed g keep d.word) || decide (g.twTime < s.time))
  | .cnt k v => decide (v ≤ (counterOf s g.ctx k).toNat) || g.due.any (fun d => d.cnt == some k)
  | .ac pa c v => acReady s g.gid pa c v
  | .station => match (slotOf g b).stop with | some (_, none) => false | _ => true
  | .tile locs before => !tileBusy s g.gid locs before
  | .read pas home => readReady s g pas home
  | .walk page => s.pend.all (fun f => match f.op with
    | .walk u c p who => !(u == dieOfCore g.core && c == g.ctx && p == page && who.contains (g.gid, b))
    | _ => true)
  | .coll => collOver s g
  | .bkpt _ => false
  | .halt => false
  | .handler => false
  | .yield => true

/-- The header a slot's next clause has in the instruction cache. -/
def nextHdr (s : State) (g : Group) (sl : Slot) : W64 := (iQuad s g sl.clause).getD 0#64

/-- May the slot's clause start, its context and its handler allowing (R74, R87, R452)? While a handler runs only its slot starts clauses, so
also a slot that the handler's own `bv` filled waits for `rte`: DESIGN CHOICE (log entry 100). -/
def clauseMay (s : State) (g : Group) (b : Bool) : Bool :=
  let sl := slotOf g b
  ctxRuns s g.ctx && clauseReady s g sl.clause && waitQuiet s g (nextHdr s g sl) &&
    (match g.handler with | some h => h.slotB == b | none => true)

/-- Does a slot stand inside a clause: has it performed a word of the clause it is in? -/
def insideClause (sl : Slot) : Bool := sl.st == .running && (decide (sl.idx ≠ 0) || sl.half)

/-- Does a switch marker park the slot's group (R78)? -/
def markerParks (s : State) (g : Group) (sl : Slot) : Bool := match sl.park with | some .marker => !allQuiet s g | _ => false

/-- Is a slot a candidate that may issue (R74)? Not while the other slot stands inside a clause, because the slots interleave at clause
boundaries only (R46), nor while a switch marker of the other slot parks the group (R78). A stopping context starts no clause and leaves
markers alone (R87). -/
def slotReady (s : State) (g : Group) (b : Bool) : Bool :=
  let sl := slotOf g b
  let other := slotOf g (!b)
  let woken := match sl.park with | none => true | some p => parkOver s g b p
  let atMarker : Bool := match sl.park with | some .marker => true | _ => false
  let stopping : Bool := match getC s g.ctx with | some c => (match c.run with | .stopping _ => true | _ => false) | none => false
  sl.st == .running && woken && !insideClause other && !markerParks s g other && !(g.hold && !allQuiet s g) &&
    (if sl.started then ctxRuns s g.ctx || (stopping && !atMarker)
     else if (atMarker || g.hold) && !g.due.isEmpty then ctxRuns s g.ctx
     else clauseMay s g b)

/-- The slots of a partition. -/
def partSlots (s : State) (core part : Nat) : List (Group × Bool) :=
  (s.groups.filter (fun g => g.core == core && g.part == part)).flatMap (fun g => [(g, false), (g, true)])

/-- The ready candidates of a partition in the order of R76. Two of different teams that are equal in every key of R76 come in the order their
groups were placed: DESIGN CHOICE (log entry 99). -/
def candidates (s : State) (core part : Nat) : List (Group × Bool) :=
  ((partSlots s core part).filter (fun c => slotReady s c.1 c.2)).foldl (fun l c =>
    l.takeWhile (fun d => !lexLt (pickKey c.1 c.2) (pickKey d.1 d.2)) ++ [c] ++
    l.dropWhile (fun d => !lexLt (pickKey c.1 c.2) (pickKey d.1 d.2))) []

def yielding (c : Group × Bool) : Bool := match (slotOf c.1 c.2).park with | some .yield => true | _ => false

/-- The kept fault a candidate raises before it issues: at a clause start one of a class in the wait set, at a marker, and at the first pick
after one that holds the group, any (R447). -/
def dueHere (s : State) (g : Group) (b : Bool) : Option Due :=
  let sl := slotOf g b
  match sl.park with
  | some .marker => g.due.head?
  | _ =>
    if g.hold then g.due.head?
    else if sl.started then none
    else g.due.find? (fun d => (List.range 9).any (fun k => (nextHdr s g sl).getLsbD (48 + k) && allCls.getD k .none == d.cls))

/-- May a ready candidate share the clause that another starts (R81)? One that owes a fault or a tower share before its clause starts none
(R447, R487), nor does one that yields (R253). -/
def packs (s : State) (a c : Group × Bool) : Bool :=
  let x := slotOf a.1 a.2
  let y := slotOf c.1 c.2
  a.1.gid != c.1.gid && a.1.ctx == c.1.ctx && a.1.grid == c.1.grid && a.1.prio == c.1.prio && x.floor.isSome == y.floor.isSome &&
    x.clause == y.clause && x.idx == y.idx && !y.started && !yielding c && (dueHere s c.1 c.2).isNone && (towerReplay s c.1 c.2 true).isNone

/-- R81: the further candidates in order, to 64 lanes and eight groups. -/
def packList (s : State) (a : Group × Bool) (l : List (Group × Bool)) : List (Group × Bool) :=
  if 64 ≤ a.1.width then [a]
  else l.foldl (fun acc c =>
    let total := acc.foldl (fun n d => n + d.1.width) 0
    if packs s a c && acc.all (fun d => d.1.gid != c.1.gid) && decide (total + c.1.width ≤ 64) && decide (acc.length < 8)
    then acc ++ [c] else acc) [a]

/-- What a pick leaves of a park: the words that wait look at theirs when they run again. -/
def pickedPark (p : Option Park) : Option Park :=
  match p with
  | some .marker => none
  | some .yield => none
  | some .drain => none
  | some (.read _ _) => none
  | p => p

/-- A slot starts its clause (R82 to R84, R210). -/
def startClause (s : State) (g : Group) (sl : Slot) : Slot :=
  let at_ := { sl with started := true, hdr := nextHdr s g sl, words := clauseWords s g sl.clause, park := pickedPark sl.park, skip := 0,
                       last := s.time, everStarted := true, starts := (sl.clause :: sl.starts).take 4 }
  if sl.floor.isSome && sl.loop.contains sl.clause then at_
  else if sl.floor.isSome then { at_ with floor := none, spin := {}, loop := [], lastPrio := some s.time }
  else { at_ with lastPrio := some s.time }

/-- The header a slot that waits at its clause start has read, also where the instruction cache no longer holds its line (R505). -/
def waitHdr (s : State) (g : Group) (sl : Slot) : W64 :=
  match iQuad s g sl.clause, codeAt s g sl.clause with
  | some q, _ => q
  | none, some (pa, _) => homeQuad s pa
  | none, none => 0#64

/-- Is a slot parked in a wait on an external source (R453, R505), and under which code of R455? -/
def externalPark (s : State) (g : Group) (b : Bool) : Option Nat :=
  let sl := slotOf g b
  let net := !quiet s g .net
  match sl.st, sl.park with
  | .running, some (.cnt _ _) => some 0
  | .running, some .coll => some 1
  | .running, some (.ac _ _ _) => some 2
  | .running, some (.nap none _ 0) => some 3
  | .running, some (.await h) =>
    (match teamOf s g with
      | some t => if t.opened.any (fun pa => fld (recQ s pa 0) 12 20 == h) then some 4 else none
      | none => none)
  | .running, some .marker => if net then some 5 else none
  | .running, none => if !sl.started && net && (waitHdr s g sl).getLsbD 54 then some 5 else none
  | _, _ => none

/-- Is a slot still parked on an external source: does what it waits for not yet hold (R453, R455)? -/
def external (s : State) (g : Group) (b : Bool) : Option Nat :=
  match (slotOf g b).park with
  | some p => if parkOver s g b p then none else externalPark s g b
  | none => externalPark s g b

/-- Is a slot's wait on an external source just over, or still on (R453)? -/
def wasExternal (s : State) (g : Group) (b : Bool) : Bool :=
  (externalPark s g b).isSome || (match (slotOf g b).park with | some (.nap none _ c) => decide (c ≠ 0) | _ => false)

/-- One picked slot: a clause start, at its group's present priority (R263), or the words left after a park; a marker that held the group is
over (R78); the end of a wait on an external source starts the watchdog's interval anew (R454). -/
def startSlot (s : State) (c : Group × Bool) : State :=
  match getG s c.1.gid with
  | none => s
  | some g =>
    let sl := slotOf g c.2
    if sl.started then
      let s1 := putG s (setSlot { g with hold := false } c.2 { sl with park := pickedPark sl.park })
      if wasExternal s g c.2 then progressed s1 g.ctx else s1
    else
      let x := startClause s g sl
      let s1 := putG s (setSlot { g with hold := false, curPrio := g.prio } c.2 x)
      match x.floor with
      | none => progressed s1 g.ctx
      | some _ => s1

/-- Every other ready candidate of the partition was passed over by a clause start (R82). -/
def passOver (s : State) (c : Group × Bool) : State :=
  match getG s c.1.gid with
  | none => s
  | some g => putG s (setSlot g c.2 { slotOf g c.2 with skip := (slotOf g c.2).skip + 1 })

/-- A yielding slot of the partition has seen another candidate start a clause (R253). -/
def unyield (s : State) (g : Group) (l : List (Group × Bool)) : State :=
  ((partSlots s g.core g.part).filter (fun c => yielding c && l.all (fun d => !(d.1.gid == c.1.gid && d.2 == c.2)))).foldl (fun s c =>
    match getG s c.1.gid with
    | none => s
    | some h => putG s (setSlot h c.2 { slotOf h c.2 with park := none })) s

/-- Raise a fault at a clause header, or at the word whose marker parks the slot; DONE bit 0 of a tower fault is clear, since it would drop
the restart (R487). -/
def raiseHere (s : State) (g : Group) (b : Bool) (f : FInfo) : State :=
  let sl := slotOf g b
  match sl.park, sl.marked with
  | some .marker, some (_, _, w) =>
    let (lanes, done) := markLanes g sl w
    raiseMarker s g.gid b { f with lanes := some lanes, done := if f.share.isSome then 0#64 else done }
  | _, _ => takeException s g b true f sl.clause sl.idx

/-- The picked candidate: what a replay owes to a tower fault (R487), then a kept fault, then the clause, packed where it may be. -/
def pickSlot (s : State) (g : Group) (b : Bool) (others : List (Group × Bool)) : State :=
  match towerReplay s g b true with
  | some (.ok s1) => s1
  | some (.bad s1 f) => (match getG s1 g.gid with | some g1 => raiseHere s1 g1 b f | none => s1)
  | some _ => s
  | none =>
    match dueHere s g b with
    | some d => raiseHere (putG s { g with due := g.due.erase d }) { g with due := g.due.erase d } b d.info
    | none =>
      let starts := !(slotOf g b).started
      let l := if starts then packList s (g, b) others else [(g, b)]
      let s1 := l.foldl startSlot s
      let rest := others.filter (fun c => l.all (fun d => !(d.1.gid == c.1.gid && d.2 == c.2)))
      let s2 := if starts then unyield (rest.foldl passOver s1) g l else s1
      putPart s2 { getPart s2 g.core g.part with cur := l.map (fun c => (c.1.gid, c.2)), ending := false }

/-- CANDIDATE_PICK (R76). -/
def execCandidatePick (core part : Nat) (s : State) : Host.Outcome State Fault Refusal :=
  .next (
    if !(getPart s core part).cur.isEmpty then s
    else
      let l := candidates s core part
      let prompt := l.filter (fun c => !yielding c)
      match (if prompt.isEmpty then l else prompt) with
      | [] => s
      | (g, b) :: _ => pickSlot s g b (l.filter (fun c => !(c.1.gid == g.gid && c.2 == b))))

/-! Fetch. -/

/-- What the fetch of a line for a slot meets: a page to be walked, a fault, or data in error. -/
inductive FetchStop where
  | walk (page : Nat)
  | fault (f : FInfo)
  | check (pa code : Nat)
  deriving DecidableEq, Repr

def lineStop (s : State) (g : Group) (b : Bool) (a : Nat) : Option FetchStop :=
  match fetchMiss s g b a, fetchFault s g b a, codeBad s g a 8 with
  | some p, _, _ => some (.walk p)
  | none, some f, _ => some (.fault f)
  | none, none, some (p, c) => some (.check p c)
  | none, none, none => none

/-- What the fetch of a clause's lines meets first: at its header's line, then at the rest. -/
def clauseStop (s : State) (g : Group) (b : Bool) (a : Nat) : Option FetchStop :=
  match lineStop s g b a with
  | some f => some f
  | none => (clauseTail a ((iWord (iFill s g a 8) g a).getD 0#64)).findSome? (lineStop s g b)

/-- ICACHE_FILL: the lines of a slot's next clause arrive, once the walks they need are over (R124); a fetch that fails is raised at the header
(R249, R444), and data in error is a machine check there (R458, R474). -/
def execIcacheFill (gid : Nat) (slotB : Bool) (s : State) : Host.Outcome State Fault Refusal :=
  .next (match getG s gid with
    | none => s
    | some g =>
      let sl := slotOf g slotB
      if sl.st != .running || sl.started || !ctxRuns s g.ctx then s
      else
        let held := match sl.park with | none => false | some p => !parkOver s g slotB p
        match clauseStop s g slotB sl.clause with
        | some (.walk p) => joinWalk s (dieOfCore g.core) g.ctx p g.core (gid, slotB)
        | some (.fault f) => if held then s else takeException s (walkDone g slotB) slotB true f sl.clause sl.idx
        | some (.check p c) => if held then s else slotCheck s g slotB true c p
        | none =>
          let s1 := iFill s g sl.clause 8
          iFill s1 g sl.clause (8 * (fld (nextHdr s1 g sl).toNat 60 4 + 2)))

/-! The floor and naps. -/

/-- Change a slot of a group. -/
def onSlot (s : State) (gid : Nat) (b : Bool) (f : Slot → Slot) : State :=
  match getG s gid with | some g => putG s (setSlot g b (f (slotOf g b))) | none => s

/-- SPIN_FLOOR_TIMEOUT (R84): the loop loaded no line or more than four, and 16,384 core clocks of 2/3 ns have passed. -/
def execSpinFloorTimeout (gid : Nat) (slotB : Bool) (s : State) : Host.Outcome State Fault Refusal :=
  .next (onSlot s gid slotB (fun sl => match sl.floor with
    | some (t, lines) =>
      if (lines.isEmpty || decide (4 < lines.length)) && decide (t + cdiv (16384 * 2) 3 ≤ s.time) then { sl with floor := none, spin := {} } else sl
    | none => sl))

/-- NAP_TIMEOUT. -/
def execNapTimeout (gid : Nat) (slotB : Bool) (s : State) : Host.Outcome State Fault Refusal :=
  .next (onSlot s gid slotB (fun sl => match sl.park with
    | some (.nap (some d) l 0) => if d ≤ s.time then { sl with park := some (.nap (some d) l 1) } else sl
    | _ => sl))

/-- SERVICE_EVENT_SIGNAL. -/
def execServiceEventSignal (gid : Nat) (s : State) : Host.Outcome State Fault Refusal :=
  let up (sl : Slot) : Slot := match sl.park with
    | some (.nap d l 0) => { sl with park := some (napCause s.time 3 d l), extSince := s.time }
    | _ => sl
  .next (onSlot (onSlot s gid false up) gid true up)

end Sys2Proof.Machine
end

