-- ==== Sys2Proof/Machine/EvMem.lean ====
section
/-! DEFINITION. The events of the memory system: loads and stores at their homes (R101 to R107, R127 to R137), recalls and beats
(R131, R476), fills and acknowledgements (R105, R106, R135), page walks (R124, R473), remote local accesses (R97, R140), and
completion times. -/

namespace Sys2Proof.Machine

/-! Correctable events and their units (R457, R460). -/

/-- A unit's number, for the log. -/
def unitCode (u : CulletUnit) : Nat :=
  match u with
  | .core die site => die * 32 + site
  | .slice die slice => 2 ^ 8 + die * 256 + slice
  | .arrayLine tower array column line => 2 ^ 32 + ((tower * 3072 + array) * 2 + (if column then 1 else 0)) * 1024 + line
  | .dramRow tower row => 2 ^ 40 + row * 16 + tower
  | .linkLane link => 2 ^ 16 + link

/-- The number of correctable events of a unit that call for its cullet (R460). -/
def unitLimit (u : CulletUnit) : Nat :=
  match u with
  | .core _ _ => 64 | .slice _ _ => 256 | .arrayLine .. => 16 | .dramRow _ _ => 16 | .linkLane _ => 1024

/-- A unit's correctable events of the last 24 hours. -/
def unitCount (s : State) (u : CulletUnit) : Nat := (s.unitEvents.filter (fun e => e.1 == u && decide (s.time < e.2 + 86400000000000))).length

/-- A correctable event of a structure raises its counter; the controller logs a unit whose count comes to its threshold (R457). -/
def correct (s : State) (k : Nat) (u : Option CulletUnit) : State :=
  let s1 := { s with corr := fput 0 k (fget 0 k s.corr + 1) s.corr }
  match u with
  | none => s1
  | some u =>
    let s2 := { s1 with unitEvents := s1.unitEvents ++ [(u, s1.time)] }
    if unitCount s2 u = unitLimit u then logEvent s2 4 (unitCode u) else s2

/-- Where the bad data of a missing sector came from: the tower's LLC, its HBM4E, or a CXL device. -/
def sectorSource (s : State) (k : Nat) : Nat :=
  if isCxl (k * 128) then 11
  else if s.llc.any (fun c => c.line == k / 8 && c.valid.getLsbD (k % 8)) then 7 else 9

/-! L2_FILL (R105). -/

/-- Must a group's store first fill its sector (R105)? A store that is performed in parts writes no whole sector (R130). -/
def storeFill (s : State) (f : Flight) (hint : Nat) (pas : List Nat) : Bool :=
  storeNeedsFill s f.ctx hint (pas.headD 0) (if f.loose.isEmpty then pas.eraseDups.length else 1)

/-- The bytes an access touches at its homes, with its hint, and whether it needs their sectors filled. -/
def accessPas (s : State) (f : Flight) : Option (List Nat × Nat × Bool) :=
  match f.op with
  | .load lanes _ _ _ hint _ => some (lanes.flatMap (fun l => l.pas), hint, true)
  | .atomic _ _ lanes _ _ _ _ => some (lanes.flatMap (fun l => l.1.pas), 0, true)
  | .store bytes _ hint _ =>
    some (bytes.map Prod.fst, hint, storeFill s f hint (bytes.map Prod.fst))
  | _ => none

/-- The sectors of an access that its slice does not hold. -/
def missing (s : State) (pas : List Nat) : List Nat :=
  ((pas.map (fun p => p / 128)).eraseDups).filter (fun k => !l2Has s (k / 8) (k % 8))

/-- Does an access wait for a fill that allocates (R105, R107)? -/
def needsFill (s : State) (ctx hint : Nat) (pas : List Nat) : Bool := (missing s pas).any (fun k => decide (hintWays s ctx hint (k / 8) ≠ 0))

/-- L2_FILL: the sectors an access in flight misses arrive; `bad`: the check of the first failed uncorrectably, and what the access touches
there stays in error (R458). -/
def execL2Fill (id : Nat) (bad : Bool) (s : State) : Host.Outcome State Fault Refusal :=
  .next (match getF s id with
    | none => s
    | some f => match accessPas s f with
      | none => s
      | some (pas, hint, need) =>
        let ks := missing s pas
        if !need || ks.isEmpty || !ks.all (fun k => fillFree s (k / 8)) then s
        else if bad then
          let k := ks.headD 0
          let pa := (pas.find? (fun p => p / 128 == k)).getD (k * 128)
          let c := sectorSource s k
          machineCheck (logEvent (markBad (dropF s id) pa c) 3 c) f c pa 0 0 0
        else ks.foldl (fun s k => homeTouch s f.ctx hint (k * 128)) s)

/-! LOAD_RESULT_WRITE. -/

/-- Is a line of a load on a read-mostly page (R102)? -/
def loadRm (lanes : List Lane) (k : Nat) : Bool :=
  match lanes.find? (fun l => l.pas.any (fun p => p / 128 == k)) with | some l => l.rmost | none => false

/-- The line enters the L1 unless the hint (.ew with no engine way acts as .na, R109), the tier, a replacement or an error somewhere in the
line (R458) keeps it out; an older copy goes (R101, R107, R132). -/
def loadL1 (s : State) (f : Flight) (lanes : List Lane) (hint : Nat) (replaced : Bool) (k : Nat) : State :=
  let none_ : Bool := decide (hint = 3) && decide (hintWays s f.ctx hint (k / 8) = 0)
  let bad : Bool := (badAt s ((List.range 128).map (fun i => k * 128 + i))).isSome
  if hint = 1 ∨ hint = 2 ∨ none_ ∨ isCxl (k * 128) ∨ replaced ∨ bad then l1Drop s f.core k else l1Install s f.core k (loadRm lanes k)

/-- A group's write of registers by an operation that ends. -/
def finishRegs (s : State) (f : Flight) (regs : List (Nat × W64)) : State :=
  let s1 := dropF s f.id
  match getG s1 f.gid with
  | none => s1
  | some g => settleArrivals (putG s1 (applyRegs g regs)) f.gid

/-- Fresh free values for a list of registers (log entry 6). -/
def freeRegs (s : State) (keys : List Nat) : State × List (Nat × W64) :=
  keys.foldl (fun a k => (tickFree a.1, a.2 ++ [(k, openValue a.1)])) (s, [])

/-- Earlier remote local accesses of the group to one team are performed first (R140), and earlier acquires (R137). -/
def remoteTurn (s : State) (f : Flight) (team : Nat) : Bool :=
  !acquiring s f.gid f.word && s.pend.all (fun o => o.gid != f.gid || !decide (o.id < f.id) || (match o.op with
    | .remoteLoad t _ _ _ _ => t != team
    | .remoteStore t _ _ => t != team
    | _ => true))

/-- A remote load served at the target's port (R97); a line that a fault left absent is code 4 (R481); a team that is gone gives
no stated value. -/
def remoteLoadServe (s : State) (f : Flight) (team : Nat) (lanes : List Lane) (dst z : Nat) : State :=
  if !remoteTurn s f team then s
  else match getT s team with
    | none =>
      let (s1, regs) := freeRegs s (lanes.map (fun l => dst * 64 + l.lane))
      finishRegs s1 f regs
    | some t =>
      match lanes.findSome? (fun l => (absentLine t l.va z).map (fun k => (l, k))) with
      | some (l, k) =>
        if inRange t k then
          addDue (finishRegs s f []) f { cls := .loads, info := { cls := 0x10, code := 4, addr := l.va, eng := 1, lane := some l.lane } } 5
        else s
      | none => finishRegs s f (lanes.flatMap (fun l => loadRegs dst l.lane (lrd t l.va z) false))

/-- May these bytes of a load be read at their homes now? -/
def loadTurn (s : State) (f : Flight) (hint : Nat) (pas : List Nat) : Bool :=
  accessTurn s f pas true && pas.all (homeReady s) && !needsFill s f.ctx hint pas

/-- The lines of bytes read at their homes fill, and enter the L1 as they may. -/
def loadFills (s : State) (f : Flight) (lanes : List Lane) (hint : Nat) (replaced : Bool) (pas : List Nat) : State :=
  ((pas.map (fun p => p / 128)).eraseDups).foldl (fun s k => loadL1 s f lanes hint replaced k) (engineRead s f.ctx hint pas)

/-- One of the bytes that a misaligned lane has yet to read is read, whichever of those that may (R130; log entry 85); the last completes the
register. -/
def looseLoad (s : State) (f : Flight) (l : Lane) (dst : Nat) (pair : Bool) (hint : Nat) (own : List (Nat × Byte × Nat)) (replaced : Bool) :
    State :=
  let may := f.loose.filter (fun i => loadTurn s f hint [l.pas.getD i 0])
  match may with
  | [] => s
  | _ =>
    let i := may.getD ((openValue s).toNat % may.length) 0
    let pa := l.pas.getD i 0
    match badAt s [pa] with
    | some (q, c) => machineCheck (dropF s f.id) f c q 0 0 0
    | none =>
      let got := f.got ++ [(i, (homeLoadBytes s f.core f.gid f.id own [pa]).headD 0#8)]
      let left := f.loose.filter (fun j => j != i)
      let s1 := loadFills (tickFree s) f [l] hint replaced [pa]
      if left.isEmpty then
        finishRegs s1 f (loadRegs dst l.lane ((List.range l.pas.length).map (fun j => (lastAt j got).getD 0#8)) pair)
      else putF s1 { f with loose := left, got := got }

/-- LOAD_RESULT_WRITE: `replaced` tells that the line has been replaced in the L1 already (R101: replacement is silent). -/
def execLoadResultWrite (id : Nat) (replaced : Bool) (s : State) : Host.Outcome State Fault Refusal :=
  .next (match getF s id with
    | none => s
    | some f => match f.op with
      | .value regs => finishRegs s f regs
      | .load lanes dst pair _ hint own =>
        let pas := lanes.flatMap (fun l => l.pas)
        if !f.loose.isEmpty then (match lanes with | l :: _ => looseLoad s f l dst pair hint own replaced | [] => s)
        else if !loadTurn s f hint pas then s
        else match badAt s pas with
          | some (pa, c) => machineCheck (dropF s id) f c pa 0 0 0
          | none =>
            let regs := lanes.flatMap (fun l => loadRegs dst l.lane (homeLoadBytes s f.core f.gid f.id own l.pas) pair)
            finishRegs (loadFills s f lanes hint replaced pas) f regs
      | .remoteLoad team lanes dst z _ => remoteLoadServe s f team lanes dst z
      | _ => s)

/-! Stores. -/

/-- WCB_TIMEOUT: 64 core clocks of 2/3 ns after the first store entered (R103). -/
def execWcbTimeout (id : Nat) (s : State) : Host.Outcome State Fault Refusal :=
  .next (match s.groups.find? (fun g => g.wcb.any (fun e => e.id == id)) with
    | none => s
    | some g => match g.wcb.find? (fun e => e.id == id) with
      | none => s
      | some e =>
        if e.since + cdiv (64 * 2) 3 ≤ s.time then
          let s1 := putG s { g with wcb := g.wcb.filter (fun y => y.id != id) }
          let f : Flight := { id := id, word := id, gid := g.gid, ctx := g.ctx, core := g.core, cls := .stcomp,
                              op := .store (wcbBytes e) none e.hint false, by_ := e.by_, pc := e.pc, lanes := e.lanes, loose := e.loose }
          { s1 with pend := s1.pend ++ [f] }
        else s)

/-- May a store be performed: earlier acquires have returned, no earlier store or atomic of the group to these bytes remains, and
every load of the group of these bytes has seen it or has been served (R128, R137); it comes after the writes that the core's atomic unit
made before, which the group may have read (R129, R141). -/
def storeTurn (s : State) (f : Flight) (pas : List Nat) (unitOp : Bool) : Bool :=
  !acquiring s f.gid f.word &&
  (s.pend.takeWhile (fun o => o.id != f.id)).all (fun o => match o.op with
    | .store b _ _ true => o.core != f.core || b.all (fun p => !pas.contains p.1)
    | _ => true) &&
  s.pend.all (fun o => o.gid != f.gid || (match o.op with
    | .store b _ _ _ => !decide (o.id < f.id) || b.all (fun p => !pas.contains p.1)
    | .atomic _ _ l _ _ _ _ => !decide (o.id < f.id) || l.all (fun y => y.1.pas.all (fun p => !pas.contains p))
    | .load l _ _ _ _ own => (unitOp && decide (f.id < o.id)) ||
        l.all (fun y => y.pas.all (fun p => !pas.contains p || own.any (fun q => q.1 == p && q.2.2 == f.id)))
    | _ => true))

/-- The copies in the core's L1 take a performed store's bytes, but for those a later store of the core's groups is to write (R134). -/
def l1Perform (s : State) (core : Nat) (bytes : List (Nat × Byte)) : State :=
  let later := corePending s core
  l1Store s core (bytes.filter (fun p => later.all (fun q => q.1 != p.1)))

/-- Bytes of a group's store are written at their home, with their completion time (R127, R131, R133). -/
def homeStore (s : State) (f : Flight) (hint : Nat) (bytes : List (Nat × Byte)) : State :=
  let pa := (bytes.map Prod.fst).headD 0
  let s1 := homeStoreTags (l1Perform (performBy s f.gid f.by_ bytes) f.core bytes) f.gid f.ctx hint pa
  let (s2, t) := completion s1 (pa / 1024)
  feedStore s2 f t

/-- The parts in which a store with misaligned bytes is performed: each of those alone, and the others together (R130). -/
def storeParts (f : Flight) (bytes : List (Nat × Byte)) : List (List (Nat × Byte)) :=
  let rest := bytes.filter (fun p => !f.loose.contains p.1)
  (bytes.filter (fun p => f.loose.contains p.1)).map (fun p => [p]) ++ (if rest.isEmpty then [] else [rest])

/-- HOME_STORE_PERFORM: a store is written at its home; one with misaligned bytes part by part, in an order that is not stated (R130; log
entry 85). -/
def execHomeStorePerform (id : Nat) (s : State) : Host.Outcome State Fault Refusal :=
  .next (match getF s id with
    | none => s
    | some f => match f.op with
      | .store bytes rel hint unitOp =>
        let pas := bytes.map Prod.fst
        if !storeTurn s f pas unitOp || storeFill s f hint pas then s
        else
          let parts := storeParts f bytes
          if parts.length ≤ 1 then settleArrivals (homeStore (dropF s id) f hint bytes) f.gid
          else
            let part := parts.getD ((openValue s).toNat % parts.length) []
            let left := bytes.filter (fun p => part.all (fun q => q.1 != p.1))
            homeStore (putF (tickFree s) { f with op := .store left rel hint unitOp,
                                                  loose := f.loose.filter (fun a => part.all (fun q => q.1 != a)) }) f hint part
      | _ => s)

/-- The local address of the access of width z that writes a byte, in the bytes of a word's lanes (R479). -/
def accessStart (bytes : List (Nat × Byte)) (z a : Nat) : Nat := match bytes[bytes.findIdx (fun p => p.1 == a) / z * z]? with | some p => p.1 | none => a

/-- REMOTE_STORE_ACK: the target port performs the store and acknowledges it (R97, R135); a store for a team that has retired is
dropped and reported once (R484). -/
def execRemoteStoreAck (id : Nat) (s : State) : Host.Outcome State Fault Refusal :=
  .next (match getF s id with
    | none => s
    | some f => match f.op with
      | .remoteStore team z bytes =>
        let fin (s : State) : State := settleArrivals (dropF s id) f.gid
        let less (t : Team) : Team := { t with inbound := t.inbound - 1 }
        if !remoteTurn s f team then s
        else match getT s team with
          | none => fin s
          | some t =>
            if t.retired then
              sweep (fin (putT (serviceRecord s t.ctx { cls := 0x1D, code := 1, eng := 1, unit := t.tidx } 0) (less t)))
            else match bytes.find? (fun p => isAbsent t (p.1 / 128)) with
              | some (a, _) =>
                if inRange t (a / 128) then
                  addDue (fin (putT s (less t))) f { cls := .stcomp, info := { cls := 0x10, code := 4, addr := accessStart bytes z a, eng := 1 } } 5
                else s
              | none => fin (wakeLocal (putT s (less (lwr t bytes))) team f.gid (bytes.map Prod.fst))
      | _ => s)

/-! Recalls and beats (R131, R476). -/

/-- A core drops its copies of the lines that pass `p`, and fetches the pinned ones again, at once where their homes may answer: they stay
pinned (R104, R106). -/
def dropCopies (s : State) (core : Nat) (p : Nat → Bool) : State :=
  let mine (l : ILine) : Bool := l.core == core && p l.line
  let pins := s.icache.filter (fun l => mine l && l.expiry.isNone)
  let s1 := { s with l1 := s.l1.filter (fun x => !(x.core == core && p x.line)), icache := s.icache.filter (fun l => !mine l) }
  pins.foldl (fun s l => if homeReady s (l.line * 128) ∧ (badAt s ((List.range 128).map (fun i => l.line * 128 + i))).isNone then iInstall s core l.line false (some l.pinCtx)
    else { s with icache := s.icache ++ [{ l with stale := true }] }) s1

/-- L1_RECALL_RECEIVE. -/
def execL1RecallReceive (id : Nat) (s : State) : Host.Outcome State Fault Refusal :=
  .next (match getF s id with
    | none => s
    | some f => match f.op with
      | .recall core line _ =>
        let k := recallKey line core
        dropCopies (dropF { s with recallSeen := fput 0 k (fget 0 k s.recallSeen + 1) s.recallSeen } id) core (fun l => l / 8 == line)
      | _ => s)

/-- The die and the core of a slice's recall sequence. -/
def keyDie (k : Nat) : Nat := k / (128 * 256)
def keyCore (k : Nat) : Nat := k % 128

/-- RECALL_BEAT: every 40 ns a die sends each core its slices' latest sequence numbers. -/
def execRecallBeat (die : Nat) (s : State) : Host.Outcome State Fault Refusal :=
  .next (
    if 4 ≤ die ∨ s.time < fget 0 die s.beatSent + 40 then s
    else { s with
      beatSent := fput 0 die s.time s.beatSent,
      beatSeq := fputs 0 (s.recallSent.filter (fun p => keyDie p.1 == die)) s.beatSeq })

/-- The die-to-die link over which a die's beats reach a core, as a cullet unit: links are numbered 64 a die, by the die they come from, and
the one to die d is taken to be its link d: DESIGN CHOICE (log entry 104). None within a die. -/
def beatLink (core die : Nat) : Option CulletUnit := if dieOfCore core = die then none else some (.linkLane (64 * die + dieOfCore core))

/-- A core counts a die's beats as missing: it drops the die's lines and serves no hit on them (R476); a correctable event of the
link (R457). -/
def goBlind (s : State) (core die : Nat) : State :=
  let s1 := correct { s with blind := fput 0 (core * 4 + die) 1 s.blind } 10 (beatLink core die)
  dropCopies s1 core (fun l => dieOf (l * 128) == die)

/-- BEAT_RECEIVE: a beat that reaches the core within 30 ns of being sent; a recall sent before it that has not come is a gap. -/
def execBeatReceive (core die : Nat) (s : State) : Host.Outcome State Fault Refusal :=
  .next (
    let sent := fget 0 die s.beatSent
    let gaps := s.beatSeq.filter (fun p => keyDie p.1 == die && keyCore p.1 == core && decide (fget 0 p.1 s.recallSeen < p.2))
    if 104 ≤ core ∨ 4 ≤ die ∨ sent = 0 ∨ sent + 30 < s.time then s
    else
      let s1 := { s with beatTime := fput 0 (core * 4 + die) s.time s.beatTime }
      if gaps.isEmpty then { s1 with blind := fput 0 (core * 4 + die) 0 s1.blind }
      else
        let lost (f : Flight) : Bool := match f.op with
          | .recall c line d => c == core && dieOf (line * 1024) == die && decide (d ≤ sent + 198)
          | _ => false
        goBlind { s1 with recallSeen := fputs 0 gaps s1.recallSeen, pend := s1.pend.filter (fun f => !lost f) } core die)

/-- BEAT_TIMEOUT: 100 ns without a beat. -/
def execBeatTimeout (core die : Nat) (s : State) : Host.Outcome State Fault Refusal :=
  .next (
    let k := core * 4 + die
    if 104 ≤ core ∨ 4 ≤ die ∨ s.time < fget 0 k s.beatTime + 100 ∨ fget 0 k s.blind ≠ 0 then s else goBlind s core die)

/-! Acknowledgements. -/

/-- TOWER_WRITE_ACK: the tower-pending count falls (R106); a write-back of `cc.wb` ends (R330). -/
def execTowerWriteAck (id : Nat) (s : State) : Host.Outcome State Fault Refusal :=
  .next (match getF s id with
    | none => s
    | some f => match f.op with
      | .towerWrite line =>
        let h := home s line
        setHome (dropF s id) line { h with pend := h.pend - 1 }
      | .writeBack _ => dropF s id
      | _ => s)

/-- CXL_WRITE_ACK. -/
def execCxlWriteAck (id : Nat) (s : State) : Host.Outcome State Fault Refusal :=
  .next (match getF s id with
    | none => s
    | some f => match f.op with
      | .cxlWrite _ => dropF s id
      | _ => s)

/-! PAGE_WALK_COMPLETE (R124, R125, R473, R474). -/

/-- Is a walk among those its unit's walkers work on: 64 for a die, four for a tower, in order of arrival (R124, R125)? -/
def walkTurn (s : State) (unit id : Nat) : Bool :=
  ((s.pend.filter (fun f => match f.op with | .walk u .. => u == unit | _ => false)).take (if 128 ≤ unit then 4 else 64)).any (fun f => f.id == id)

/-- A page enters the translation caches of one that waited for its walk (R123, R125). -/
def walkFound (unit : Nat) (t : Tlb) (s : State) (who : Nat × Bool) : State :=
  match getG s who.1 with
  | some g => tlbAdd (tlbAdd s { t with unit := g.core }) { t with unit := g.core, part := some g.part }
  | none => match getF s who.1 with
    | some f => tlbAdd s { t with unit := if 128 ≤ unit then unit else f.core }
    | none => s

/-- One that waited for a walk hears of its failure (R473). -/
def walkFailed (page code index : Nat) (s : State) (who : Nat × Bool) : State :=
  match getG s who.1 with
  | some g => putG s { g with walkFail := g.walkFail ++ [(who.2, page, code, index)] }
  | none => match getF s who.1 with
    | some f => putF s { f with fails := f.fails ++ [(page, code, index)] }
    | none => s

/-- Has a context been stopped by a machine check (R448)? -/
def checked (s : State) (ctx : Nat) : Bool :=
  match getC s ctx with | some c => c.run == .stopping 0x19 || c.run == .aside 0x19 | none => true

/-- One that waited for a walk takes the machine check of a table entry in error (R474). -/
def walkCheck (ctx code addr : Nat) (s : State) (who : Nat × Bool) : State :=
  if checked s ctx then s
  else match getG s who.1, getF s who.1 with
    | some g, _ =>
      let sl := slotOf g who.2
      slotCheck s g who.2 (!sl.started) code addr
    | none, some f => machineCheck s f code addr 0 0 0
    | none, none => s

/-- PAGE_WALK_COMPLETE: the walk reads its entries at their homes, which answer when they may (R106, R121). -/
def execPageWalkComplete (id : Nat) (s : State) : Host.Outcome State Fault Refusal :=
  .next (match getF s id with
    | none => s
    | some f => match f.op with
      | .walk unit ctx page who =>
        let trail := walkTrail s ctx (page * 65536)
        if !walkTurn s unit id || !trail.all (homeReady s) then s
        else match badAt s (trail.flatMap (fun a => (List.range 8).map (fun i => a + i))) with
          | some (a, code) => who.foldl (walkCheck ctx code a) (dropF s id)
          | none =>
            let s1 := engineRead (dropF s id) ctx 0 trail
            match walk s ctx (page * 65536) with
            | .page va pa size r m => who.foldl (walkFound unit { unit := unit, ctx := ctx, va := va, size := size, pa := pa, rights := r, rmost := m }) s1
            | .bad c i => who.foldl (walkFailed page c i) s1
      | _ => s)

/-! ACCESS_TABLE_INVALIDATION_DONE (R438, R494). -/

/-- Does an operation in flight access memory for its context? -/
def memoryOp (o : Op) : Bool :=
  match o with
  | .load .. => true | .store .. => true | .atomic .. => true | .far .. => true | .walk .. => true | .copy _ => true | .share _ => true
  | .send _ => true | .get _ => true | .ebSource .. => true | .arrival _ => true | .station .. => true | .taskAdd .. => true
  | .chunkOut _ => true
  | _ => false

/-- Has every access of the contexts that lose an entry, by their groups and engines, been performed (R126, R494)? -/
def invalidationReady (s : State) : Bool :=
  let hit (ctx : Nat) : Bool := s.atRemoved.any (fun e => e.ctx == ctx)
  s.pend.all (fun f => !hit f.ctx || !memoryOp f.op) && s.groups.all (fun g => !hit g.ctx || g.wcb.isEmpty)

def execAccessTableInvalidationDone (s : State) : Host.Outcome State Fault Refusal :=
  .next (if s.atBusy && invalidationReady s then { s with atBusy := false, atRemoved := [] } else s)

/-! COMPLETION_TIME_PASSED. -/

/-- The completion times the machine has recorded (R133, R143 to R146, R57, R67). -/
def recordedTimes (s : State) : List Nat :=
  s.groups.flatMap (fun g => [g.wct, g.twTime, g.farTime]) ++
  s.teams.flatMap (fun t => t.chunk.wct :: (s.groups.filter (fun g => g.team == t.tid)).flatMap (fun g =>
    [g.slotA, g.slotB].filterMap (fun sl => match sl.park with | some (.await h) => some (lehrRead t h).time | _ => none))) ++
  s.grids.map (fun g => g.wct) ++ s.pool.map (fun k => k.wct) ++
  s.pend.filterMap (fun f => match f.op with
    | .received _ _ w => some w
    | .taskAdd _ _ _ due => some due
    | .copy c => some c.wct
    | _ => none)

/-- COMPLETION_TIME_PASSED: device time passes the next recorded completion time; received data that names no counter needs no
record after that (R145). -/
def execCompletionTimePassed (s : State) : Host.Outcome State Fault Refusal :=
  .next (match least ((recordedTimes s).filter (fun t => decide (s.time ≤ t))) with
    | none => s
    | some t =>
      let s1 := { s with time := t + 1 }
      { s1 with pend := s1.pend.filter (fun f => match f.op with | .received _ none w => decide (s1.time ≤ w) | _ => true) })

end Sys2Proof.Machine
end

