-- ==== Sys2Proof/Machine/EvEngine.lean ====
section
/-! DEFINITION. The towers' scrub and the switching of way pairs (R111 to R113, R489), and stopping, saving and resuming a context
(R87 to R91), the watchdog and the external-wait timeout (R453 to R455, R505). -/

namespace Sys2Proof.Machine

/-! TOWER_SCRUB (R489). -/

/-- The context that holds a way pair. -/
def pairOwner (s : State) (pair : Nat) : Option Context := s.ctxs.find? (fun c => c.pairs.testBit pair)

/-- Does a row of an array hold an uncorrectable row group? -/
def rowBad (s : State) (tower arr row : Nat) : Bool := s.badCane.any (fun p => p.1 / 16 == (tower * 3072 + arr) * 1024 + row)

/-- TOWER_SCRUB: `bad` is the array, counted over the tower's eight pairs, and the row of an uncorrectable row group it has found. -/
def execTowerScrub (tower : Nat) (bad : Option (Nat × Nat)) (s : State) : Host.Outcome State Fault Refusal :=
  .next (match bad with
    | none => s
    | some (arr, row) => match pairOwner s (arr / 384) with
      | none => s
      | some c =>
        if 16 ≤ tower ∨ 1024 ≤ row ∨ !rowBad s tower arr row then s
        else
          let e : FInfo := { cls := 0x19, code := 8, addr := arr * 1024 + row, unit := tower, eng := 9 }
          stopCtx (serviceRecord s c.ctx e 0) c.ctx 0x19)

/-! TOWER_CANE_SWITCH (R112, R113). -/

/-- Zero the arrays of a pair in a tower, with the check bits of every row. -/
def zeroPair (s : State) (tower pair : Nat) : State :=
  { s with canes := s.canes.filter (fun p => p.1 / 1024 / 384 != tower * 8 + pair),
           badCane := s.badCane.filter (fun p => p.1 / 16384 / 384 != tower * 8 + pair) }

/-- A returning context loses its resume states and the tower faults kept with its groups (R113). -/
def dropTower (s : State) (ctx : Nat) : State :=
  { s with resumes := s.resumes.filter (fun r => r.ctx != ctx),
           groups := s.groups.map (fun g => if g.ctx == ctx then { g with due := g.due.filter (fun d => d.cls != .tower) } else g) }

/-- Is a tower word of the context still running? -/
def towerWork (s : State) (ctx : Nat) : Bool := s.pend.any (fun f => f.ctx == ctx && (match f.op with | .share _ => true | _ => false))

def execTowerCaneSwitch (tower pair : Nat) (s : State) : Host.Outcome State Fault Refusal :=
  .next (match s.waits.find? (fun w => (w.code == 4 || w.code == 5) && w.pairs.testBit pair && !w.done.contains (tower, pair)) with
    | none => s
    | some w =>
      if 16 ≤ tower ∨ (w.code = 5 ∧ towerWork s w.ctx) then s
      else
        let s1 := if w.code = 5 then dropTower s w.ctx else s
        let s2 := { s1 with llc := s1.llc.filter (fun c => !(towerOf (c.line * 1024) == tower && c.way / 2 == pair)) }
        let s3 := zeroPair s2 tower pair
        { s3 with waits := replaceFirst (fun x => x == w) (fun x => { x with done := x.done ++ [(tower, pair)] }) s3.waits })

/-! PREEMPT_SAVE (R87 to R90). -/

/-- Has a slot stopped: at the end of a clause, at a marker, at a word whose park has not ended, or at the first word of a clause that it may
not issue while the group's other slot stands inside its own (R46, R87)? -/
def slotStopped (s : State) (g : Group) (b : Bool) : Bool :=
  let sl := slotOf g b
  match sl.st, sl.started, sl.park with
  | .running, true, some .marker => true
  | .running, true, some p => !parkOver s g b p || (!insideClause sl && insideClause (slotOf g (!b)))
  | .running, true, none => false
  | _, _, _ => true

/-- Copies that touch the team's local memory (R87); one from global to global memory runs on. -/
def localCopies (s : State) (gid : Nat) : Bool :=
  s.pend.any (fun f => f.gid == gid && (match f.op with
    | .copy c => (match c.kind with | .cg => false | _ => true)
    | _ => false))

def groupSettled (s : State) (g : Group) : Bool :=
  quiet s g .loads && quiet s g .sfu && quiet s g .tiles && quiet s g .stcomp && quiet s g .far && !localCopies s g.gid

/-- A nap that has not ended when its context is set aside counts as not started (R87, R254). -/
def unnapped (sl : Slot) : Slot := { sl with park := match sl.park with | some (.nap _ _ 0) => none | p => p }

/-! The image in the save area (R88); its layout is the device's own (log entry 34). Every item is a list of 8-byte words. -/

def quads (l : List Nat) : List Byte := l.flatMap (toBytes 8)

/-- A slot: clause, word, lanes, state with the join it waits at, and the key of a `regroup`. -/
def saveSlot (sl : Slot) : List Byte :=
  let st : Nat × Nat := match sl.st with | .free => (0, 0) | .running => (1, 0) | .waiting j => (2, j)
  quads [sl.clause, sl.idx, sl.mask.toNat, st.1, st.2, sl.depth, match sl.park with | some (.regroup k _ _) => k.toNat | _ => 0]

/-- Handler state (R270): the record, EPC, EIDX and DONE, and whether the other slot was parked. -/
def saveHandler (h : Option Handler) : List Byte :=
  match h with
  | none => []
  | some h => quads (h.frec.map (fun v => v.toNat) ++ [h.epc, h.eidx, h.done.toNat, if h.other.isSome then 1 else 0])

/-- A group (R88): registers, slots, flags, %wct, priority, draw count (R189), SCRs and handler (R270), latch, tiles, parisons with their
speculation, and whether it holds the pontil. -/
def saveGroup (s : State) (g : Group) : List Byte :=
  let lanes (n : Nat) (f : Nat → Nat → Nat) : List Nat := (List.range n).flatMap (fun r => (List.range 64).map (f r))
  quads (lanes (16 * g.rows) (fun r l => (rv g r l).toNat)) ++ quads ((List.range 64).map (fun k => (rs g k).toNat)) ++
  quads ((List.range 7).map (fun k => (rm g (k + 1)).toNat)) ++ saveSlot g.slotA ++ saveSlot g.slotB ++
  quads [g.flags.toNat, g.wct, g.prio, g.draw.toNat] ++ quads ((List.range 4).map (fun k => (fget 0#64 k g.scr).toNat)) ++ saveHandler g.handler ++ quads (match g.latch with | some p => p.1 :: p.2.map (fun v => v.toNat) | none => []) ++
  quads (lanes (g.accN * 64) (fun r c => (fget 0#32 (r * 64 + c) g.acc).toNat)) ++
  quads (lanes (g.parN * 64) (fun r c => (fget 0#32 (r * 64 + c) g.par).toNat)) ++
  quads (match g.spec with | some p => [p.1, p.2] | none => []) ++
  quads [if (getPart s g.core g.part).pontil = some g.gid then 1 else 0]

def saveTeam (t : Team) : List Byte :=
  lrd t 0 (lmSize t) ++ quads ((List.range t.lines).map (fun k => if isAbsent t k then 1 else 0)) ++ quads (t.rel.flatMap (fun p => [p.1, p.2])) ++
  quads (t.mc.flatMap (fun c => c.off :: c.free.flatMap (fun p => [p.1, p.2])))

/-- The image of a context. -/
def saveImage (s : State) (c : Context) : List Byte :=
  (s.groups.filter (fun g => g.ctx == c.ctx)).flatMap (saveGroup s) ++ (s.teams.filter (fun t => t.ctx == c.ctx)).flatMap saveTeam

/-- Its place is in HBM. -/
def writeSave (s : State) (c : Context) : State := wrBytes s ((at_ c.save (saveImage s c)).filter (fun p => decide (p.1 < hbmTop)))

/-- The partitions whose pontil a group of a context holds. -/
def pontilsOf (s : State) (ctx : Nat) : List (Nat × Nat) :=
  (s.parts.filter (fun p => match p.pontil with
    | some gid => s.groups.any (fun g => g.gid == gid && g.ctx == ctx)
    | none => false)).map (fun p => (p.core, p.part))

/-- Set a context aside: its groups keep what R88 lists, give up pins, and leave the pick; the pontils they held go to parked takers of
other contexts (R86). -/
def setAsideCtx (s : State) (c : Context) (cause : Nat) : State :=
  let holds (gid : Nat) : Bool := s.parts.any (fun p => p.pontil == some gid)
  let keep (g : Group) : Group := if g.ctx == c.ctx then { g with pontil := holds g.gid, slotA := unnapped g.slotA, slotB := unnapped g.slotB } else g
  let unpinned (l : ILine) : ILine := if l.expiry.isNone && l.pinCtx == c.ctx then { l with expiry := some s.time, pinCtx := 0 } else l
  let s1 := writeSave s c
  let s2 := { s1 with groups := s.groups.map keep, icache := s1.icache.map unpinned }
  (pontilsOf s c.ctx).foldl (fun s p => pontilFree s p.1 p.2) (putC s2 { c with run := .aside cause, asideAt := s.time, held := 0 })

/-- PREEMPT_SAVE: once every slot has stopped the write-combining buffers drain, and once what R87 names has completed the state is
saved, a cluster as a whole. -/
def execPreemptSave (ctx : Nat) (s : State) : Host.Outcome State Fault Refusal :=
  .next (match getC s ctx with
    | none => s
    | some c => match c.run with
      | .stopping cause =>
        let mine := s.groups.filter (fun g => g.ctx == ctx)
        if !mine.all (fun g => slotStopped s g false && slotStopped s g true) then s
        else if mine.any (fun g => !g.wcb.isEmpty) then mine.foldl (fun s g => drainWcb s g.gid) s
        else if mine.all (groupSettled s) then setAsideCtx s c cause
        else s
      | _ => s)

/-! Resuming (R91). -/

/-- Does what the groups and teams of a context held fit beside the contexts that run, on the same partitions, with the pontils
free? -/
def fitsBack (s : State) (c : Context) : Bool :=
  let s1 := putC s { c with run := .running }
  let cores := (s.teams.filter (fun t => t.ctx == c.ctx)).map (fun t => t.core)
  cores.all (fun k => coreUp s k && decide (linesUsed s1 k ≤ 8192)) &&
  (s.groups.filter (fun g => g.ctx == c.ctx)).all (fun g =>
    let l := s1.groups.filter (fun h => h.core == g.core && h.part == g.part && !setAside s1 h.ctx)
    let sum (f : Group → Nat) : Nat := l.foldl (fun a h => a + f h * h.width / 8) 0
    decide (sum (fun h => h.rows) ≤ 512) && decide (sum (fun h => h.accN) ≤ 32) && decide (sum (fun h => h.parN) ≤ 8) &&
      decide (l.length ≤ 64) && (!g.pontil || (getPart s g.core g.part).pontil.isNone))

/-- A restored slot: its skip count and spin record begin anew, and waits go on in resident time. -/
def restoreSlot (away : Nat) (sl : Slot) : Slot :=
  { sl with skip := 0, floor := none, spin := {}, starts := [], loop := [], waitSince := sl.waitSince + away, extSince := sl.extSince + away }

/-- Restore a context on its cores and partitions; the time aside counts for no interval (R454, R455). -/
def restoreCtx (s : State) (c : Context) : State :=
  let away := s.time - c.asideAt
  let mine := s.groups.filter (fun g => g.ctx == c.ctx)
  let s1 := mine.foldl (fun s g => if g.pontil then putPart s { getPart s g.core g.part with pontil := some g.gid } else s) s
  let up (g : Group) : Group := if g.ctx == c.ctx
    then { g with slotA := restoreSlot away g.slotA, slotB := restoreSlot away g.slotB, pontil := false } else g
  putC { s1 with groups := s1.groups.map up } { c with run := .running, progress := c.progress + away }

/-! WATCHDOG_EXPIRY (R454). -/

/-- The slots of a context's resident groups, each with the time of its last clause start at its issue priority. -/
def lateSlots (s : State) (ctx : Nat) : List (List Nat × Group × Bool) :=
  (s.groups.filter (fun g => g.ctx == ctx)).flatMap (fun g => [false, true].filterMap (fun b =>
    let sl := slotOf g b
    match sl.st with
    | .free => none
    | _ => some ([sl.lastPrio.getD g.resident, g.core, g.part, g.num, if b then 1 else 0], g, b)))

/-- Since when a context has made no progress and had no group on an external source: a nap for a service event that has ended counts by
its end (R453, R454). -/
def watchFrom (s : State) (c : Context) : Nat :=
  (s.groups.filter (fun g => g.ctx == c.ctx)).foldl (fun a g => [g.slotA, g.slotB].foldl (fun a sl => match sl.park with
    | some (.nap none _ k) => if k = 0 then a else max a sl.extSince
    | _ => a) a) c.progress

/-- WATCHDOG_EXPIRY: the service, which stops a context, does not stop its own (log entry 93). -/
def execWatchdogExpiry (ctx : Nat) (s : State) : Host.Outcome State Fault Refusal :=
  .next (match getC s ctx with
    | none => s
    | some c =>
      let mine := s.groups.filter (fun g => g.ctx == ctx)
      let waits := mine.any (fun g => (external s g false).isSome || (external s g true).isSome)
      if c.run ≠ .running ∨ mine.isEmpty ∨ waits ∨ ctx = 0 ∨ s.time < watchFrom s c + c.watchdog then s
      else
        let first := (lateSlots s ctx).foldl (fun (a : Option (List Nat × Group × Bool)) x => match a with
          | none => some x
          | some y => if lexLt x.1 y.1 then some x else some y) none
        match first with
        | none => s
        | some (_, g, b) =>
          let sl := slotOf g b
          let lanes := if sl.started then some (standLanes g sl) else none
          leavePart (takeException s g b (!sl.started) { cls := 0x1A, code := 0, lanes := lanes } sl.clause sl.idx) g b)

/-! EXTERNAL_WAIT_TIMEOUT (R455, R505): the wait has ended, and the watchdog's interval starts anew (R454). -/

def execExternalWaitTimeout (gid : Nat) (slotB : Bool) (s : State) : Host.Outcome State Fault Refusal :=
  .next (match getG s gid with
    | none => s
    | some g => match external s g slotB, getC s g.ctx with
      | some code, some c =>
        let sl := slotOf g slotB
        if c.run ≠ .running ∨ c.extTimeout = 0 ∨ s.time < sl.extSince + c.extTimeout then s
        else if code = 5 then raiseHere (progressed s g.ctx) g slotB { cls := 0x1B, code := 5 }
        else
          leavePart (takeException (progressed s g.ctx) g slotB false { cls := 0x1B, code := code, lanes := some (standLanes g sl) } sl.clause sl.idx)
            g slotB
      | _, _ => s)

end Sys2Proof.Machine
end

