-- ==== Sys2Proof/Machine/EvFabric.lean ====
section
/-! DEFINITION. The fabric's ports and messages (R424, R427, R498, R500), cullet (R457 to R461, R477) and time agreement (R478). -/

namespace Sys2Proof.Machine

/-! The status block (R434). -/

/-- The service writes an entry in the status block's place in memory, as a release at system scope (R434, R435). -/
def writeStatus (s : State) (e v : Nat) : State := (engineWrite s 0 0 (at_ (s.stBlk + 16 * e) (toBytes 8 v ++ toBytes 8 s.time))).1

/-- Change an entry, with the time, and log the change (R434, R437). -/
def setStatus (s : State) (e v : Nat) : State :=
  if e < s.status.length ∧ statusOf s e ≠ v then
    writeStatus (logEvent { s with status := s.status.set e (v, s.time) } 1 (e * 16 + v)) e v
  else s

/-! Collective messages (R500, R427). -/

/-- The holds of a context set aside: one for each chunk of its collectives that has not fired, of a team that is placed or is not yet
placed; one that can fire no more is not held (R500). -/
def holdMsgs (s : State) (ctx : Nat) : List Out :=
  let hold (c : Coll) (k round : Nat) : Out := .red { tree := c.tree, chunk := k, kind := 2, op := c.op, rank := c.rank, round := round }
  let mine (c : Coll) : Bool := c.members != 1 && c.total != 0
  let ofTeam (t : Team) : Option Out :=
    if t.ctx = ctx ∧ !t.chunk.fired ∧ !t.chunk.dead then
      match chunkOf s t with | some (c, k, _, _) => if mine c then some (hold c k t.chunk.round) else none | none => none
    else none
  let ofGrid (g : Grid) : List Out :=
    match g.coll with
    | some c =>
      if g.ctx = ctx ∧ mine c then
        let first := g.next * gridPer g
        (List.range (fld (le g.lrec 16 8) 0 32 * gridPer g - first)).map (fun i => hold c (first + i) (fget 0 (first + i) g.rounds))
      else []
    | none => []
  s.teams.filterMap ofTeam ++ s.grids.flatMap ofGrid

/-- HOLD_SEND: every 10 ms, for each chunk of a context set aside that its team has not fired. -/
def execHoldSend (ctx : Nat) (s : State) : Host.Outcome State Fault Refusal :=
  .next (match getC s ctx with
    | none => s
    | some c =>
      if !setAside s ctx ∨ (c.held ≠ 0 ∧ s.time < c.held + 10000000) then s
      else putC { s with outs := s.outs ++ holdMsgs s ctx } { c with held := s.time })

/-- REDUCTION_MESSAGE_DROP. -/
def execReductionMessageDrop (hdr : List Byte) (s : State) : Host.Outcome State Fault Refusal :=
  .next (if redBad s hdr then { s with dropReductions := s.dropReductions + 1 } else s)

/-- UNSUPPORTED_PACKET_DROP (R424). -/
def execUnsupportedPacketDrop (port : Nat) (s : State) : Host.Outcome State Fault Refusal :=
  .next (if port < 8 ∧ statusOf s port = 2 then { s with dropPackets := s.dropPackets + 1 } else s)

/-! Ports (R498). -/

/-- The transfers on a port that has failed move to one that carries traffic, where there is one (R498, log entry 104). -/
def moveTraffic (s : State) (port : Nat) : State :=
  let move (x : Xfer) : Xfer := if x.port = some port then { x with port := (pickPort s).or x.port } else x
  let go (f : Flight) : Flight := match f.op with
    | .send x => { f with op := .send (move x) }
    | .get x => { f with op := .get (move x) }
    | _ => f
  tickFree { s with pend := s.pend.map go }

/-- PORT_LINK_DROP: a port that was ready fails; its traffic moves to the ports that read 2. -/
def execPortLinkDrop (port : Nat) (s : State) : Host.Outcome State Fault Refusal :=
  .next (if port < 8 ∧ statusOf s port = 2 then moveTraffic (setStatus s port 3) port else s)
/-- PORT_RETRY_TIMEOUT: each retried frame was a correctable event of the port (R457). -/
def execPortRetryTimeout (port : Nat) (s : State) : Host.Outcome State Fault Refusal :=
  .next (if port < 8 ∧ statusOf s port = 2 then moveTraffic (setStatus { s with corr := fput 0 11 (fget 0 11 s.corr + 1) s.corr } port 3) port else s)
/-- PORT_RETRAIN. -/
def execPortRetrain (port : Nat) (s : State) : Host.Outcome State Fault Refusal :=
  .next (if port < 8 ∧ statusOf s port = 3 then setStatus s port 2 else s)

/-! Failures of the package (R459, R461, R478, R503). -/

/-- The contexts of clients: every one but the service's own. -/
def userCtxs (s : State) : List Nat := (s.ctxs.map (fun c => c.ctx)).filter (fun c => c != 0)

/-- A fatal fault: every context stops, die entry 28 + d reads failed, and the fabric manager hears of it. -/
def failDie (s : State) (die : Nat) : State :=
  let s1 := (userCtxs s).foldl (fun s c => stopCtx s c 0x19) (setStatus s (28 + die) 3)
  { s1 with outs := s1.outs ++ [.fatal] }

/-- TIME_SYNC_LOSS. -/
def execTimeSyncLoss (die : Nat) (s : State) : Host.Outcome State Fault Refusal :=
  .next (if die < 4 ∧ statusOf s (28 + die) = 2 then
    let s1 := (userCtxs s).foldl (fun s c => stopCtx s c 0x100) (logEvent (setStatus s (28 + die) 3) 3 (28 + die))
    { s1 with outs := s1.outs ++ [.fatal] }
  else s)

/-! Core sites (R12). -/

/-- The physical site of a logical core on its die of 7 columns by 4 rows: the one the service mapped it to, at first that of its own
column and row (log entry 88). -/
def siteOf (s : State) (core : Nat) : Nat := match fget 0 core s.sites with | 0 => 7 * (core % 24 / 6) + core % 6 | n + 1 => n

/-- The logical core on a site of a die. -/
def coreAt (s : State) (die site : Nat) : Option Nat := ((List.range 24).map (fun c => 24 * die + c)).find? (fun c => siteOf s c == site)

/-- A site of a die that holds no core and is fit for use: the die's core cullet. -/
def freeSite (s : State) (die : Nat) : Option Nat :=
  (List.range 28).find? (fun p => (coreAt s die p).isNone && !s.failedSites.contains (die, p))

/-! Cullet (R457, R460, R461, R477). -/

def unitOk (u : CulletUnit) : Bool :=
  match u with
  | .core die site => decide (die < 4 ∧ site < 28)
  | .slice die slice => decide (die < 4 ∧ slice < 256)
  | .arrayLine tower array _ line => decide (tower < 16 ∧ array < 3072 ∧ line < 1024)
  | .dramRow tower _ => decide (tower < 16)
  | .linkLane link => decide (link < 256)

/-- Spares in use by kind and place, with their number: 16 slices a die, 8 rows and 8 columns of an array, 1 lane of a link; DRAM rows as
the die provides, taken without bound. Core sites are counted by their mapping. -/
def spareKey : CulletUnit → Nat × Nat
  | .core die _ => (die, 4)
  | .slice die _ => (16 + die, 16)
  | .arrayLine tower array column _ => (1024 + (tower * 4096 + array) * 2 + (if column then 1 else 0), 8)
  | .dramRow tower _ => (32 + tower, 2 ^ 64)
  | .linkLane link => (2 ^ 20 + link, 1)

/-- Has a unit come to its threshold, or its timing margin fallen below its own (R460)? -/
def culletDue (s : State) (u : CulletUnit) : Bool := decide (unitLimit u ≤ unitCount s u) || s.margins.contains u

/-- Has a context work on the package: a resident group, or an operation in flight (R460)? -/
def ctxWorks (s : State) : Bool :=
  s.ctxs.any (fun c => c.ctx != 0 && !setAside s c.ctx && (s.groups.any (fun g => g.ctx == c.ctx) || s.pend.any (fun f => f.ctx == c.ctx)))

/-- Does a context have work on a unit? A core: a resident group, a task, or a task group that waits to be placed (R70). A slice, a DRAM row, a link lane and an array in cache mode
serve every context. A line of an array in cane mode changes only at a cane grant or return (R460). -/
def unitBusy (s : State) (u : CulletUnit) : Bool :=
  match u with
  | .core die site => match coreAt s die site with
    | none => false
    | some c => s.groups.any (fun g => g.core == c && g.ctx != 0 && !setAside s g.ctx) || s.pool.any (fun t => t.core == c) ||
        s.formed.any (fun f => f.core == c)
  | .arrayLine _ array _ _ =>
    if (caneMask s).testBit (array / 384) then !s.waits.any (fun w => w.pairs.testBit (array / 384)) else ctxWorks s
  | _ => ctxWorks s

/-- Is a line homed at a slice? -/
def inSlice (die slice line : Nat) : Bool := dieOf (line * 1024) == die && sliceOf (line * 1024) == slice

/-- Every lease the home granted on a line of a slice has expired or been recalled (R477). -/
def sliceQuiet (s : State) (die slice : Nat) : Bool :=
  s.homes.all (fun p => !inSlice die slice p.1 || decide (p.2.lease ≤ s.time)) &&
  s.pend.all (fun f => match f.op with
    | .recall _ line _ => !inSlice die slice line
    | _ => true)

/-- Leases that would run on past the recall bound are recalled for a swap (R131, R477). -/
def recallSlice (s : State) (die slice : Nat) : State :=
  (s.homes.filter (fun p => inSlice die slice p.1 && decide (s.time + 1000 < p.2.lease))).foldl (fun s p =>
    let s1 := sendRecalls s p.1
    setHome s1 p.1 { home s1 p.1 with lease := s.time + 198 }) s

/-- The die whose entry a failed slice or link lane marks; links are numbered 64 a die. -/
def unitDie (u : CulletUnit) : Nat :=
  match u with
  | .core die _ => die
  | .slice die _ => die
  | .arrayLine tower _ _ _ => tower / 4
  | .dramRow tower _ => tower / 4
  | .linkLane link => link / 64

/-- A unit whose spare has come in counts anew, and the change is logged. -/
def swapped (s : State) (u : CulletUnit) : State :=
  let (k, _) := spareKey u
  logEvent { s with spares := fput 0 k (fget 0 k s.spares + 1) s.spares, unitEvents := s.unitEvents.filter (fun e => e.1 != u),
                    margins := s.margins.filter (fun v => v != u) } 4 (unitCode u)

/-- CULLET_SWAP: at a context boundary a spare comes in for a unit that needs one: a logical core moves to a free site (R12), a slice hands
its lines' state on and writes its dirty sectors back (R477). With no spare left a core fails alone and a slice or link lane fails its
die (R460, R461). -/
def execCulletSwap (u : CulletUnit) (s : State) : Host.Outcome State Fault Refusal :=
  .next (
    let (k, n) := spareKey u
    if !unitOk u || !culletDue s u || unitBusy s u then s
    else match u with
    | .core die site =>
      let s1 := { swapped s u with failedSites := s.failedSites ++ [(die, site)] }
      match coreAt s die site with
      | none => s1
      | some c => match freeSite s1 die with
        | some p => { s1 with sites := fput 0 c (p + 1) s1.sites }
        | none => setStatus s1 (32 + c) 3
    | .slice die slice =>
      if !sliceQuiet s die slice then recallSlice s die slice
      else
        let s1 := swapped s u
        if fget 0 k s.spares < n then (s1.l2.filter (fun c => inSlice die slice c.line)).foldl l2Evict s1 else failDie s1 die
    | .linkLane _ => if fget 0 k s.spares < n then swapped s u else failDie (swapped s u) (unitDie u)
    | _ => if fget 0 k s.spares < n then swapped s u else logEvent s 4 (unitCode u))

/-! Errors that strike (R456 to R459). -/

/-- The word a slot stands at, or the header of the clause it is about to start, meets data in error: a machine check (R458). -/
def wordCheck (s : State) (gid : Nat) (b : Bool) (code addr : Nat) : State :=
  match getG s gid with
  | none => s
  | some g =>
    let sl := slotOf g b
    match sl.st with
    | .free => s
    | _ =>
      let lanes := if sl.started then some (standLanes g sl) else none
      leavePart (takeException (endPacking s g b) g b (!sl.started) { cls := 0x19, code := code, addr := addr, lanes := lanes } sl.clause sl.idx) g b

/-- The engine kind of an operation, for a record (R444). -/
def opEngine (o : Op) : Nat :=
  match o with
  | .copy _ => 1 | .share _ => 2 | .far .. => 3 | .send _ => 4 | .get _ => 4 | .received .. => 4 | .chunkOut _ => 5 | .taskAdd .. => 6
  | .station .. => 7 | .arrival _ => 8 | _ => 0

/-- What an operation that ends before its time leaves at its homes: a copy's and a station operation's marks go, and a far add that
its tower has not accepted no longer counts as pending (R106). -/
def releaseHomes (s : State) (f : Flight) : State :=
  match f.op with
  | .copy c => dropMarks s c.marks
  | .station _ pa _ _ (some _) => dropMarks s [((pa + 1024) / 1024, 0)]
  | .far l _ _ st _ _ ap =>
    if st = 0 ∨ ap then s
    else setHome s (l.pas.headD 0 / 1024) { home s (l.pas.headD 0 / 1024) with pend := (home s (l.pas.headD 0 / 1024)).pend - 1 }
  | _ => s

/-- The core whose caches or translations are hit, as a cullet unit (R460); the control cores are none. -/
def coreUnit (s : State) (core : Nat) : Option CulletUnit := if core < 96 then some (.core (core / 24) (siteOf s core)) else none

/-- Does a structure detect an error that it cannot correct (R456)? One with parity or a CRC corrects every error it detects. -/
def uncorrectable (k : Nat) : Bool := decide (k < 12) && k != 3 && k != 4 && k != 10

/-- An error strikes (log entry 72). Every uncorrectable one is logged, whether or not an access finds it (R458). -/
def strike (s : State) (u : Upset) : State :=
  match u with
  | .fixed k unit => if k < 12 ∧ k ≠ 3 ∧ k ≠ 4 then correct s k unit else s
  | .l1Line core line => correct (l1Drop s core line) 3 (coreUnit s core)
  | .codeLine core line => correct (dropCopies s core (fun l => l == line)) 3 (coreUnit s core)
  | .translation unit ctx va =>
    correct { s with tlb := s.tlb.filter (fun t => !(t.unit == unit && t.ctx == ctx && decide (t.va ≤ va ∧ va < t.va + t.size))) } 4
      (coreUnit s unit)
  | .margin unit => if s.margins.contains unit then s else { s with margins := s.margins ++ [unit] }
  | .memory pa k => if k = 5 ∨ k = 7 ∨ k = 9 ∨ k = 11 then logEvent (markBad s pa k) 3 k else s
  | .cane tower array row group =>
    if 16 ≤ tower ∨ 3072 ≤ array ∨ 1024 ≤ row ∨ 16 ≤ group then s
    else logEvent { s with badCane := fput 0 (((tower * 3072 + array) * 1024 + row) * 16 + group) 1 s.badCane } 3 8
  | .tags die _ => if die < 4 then failDie (logEvent s 3 6) die else s
  | .word gid b k addr => if k < 3 then wordCheck (logEvent s 3 k) gid b k addr else s
  | .engine id k addr => match getF s id with
    | none => s
    | some f =>
      if k = 0 ∨ !uncorrectable k ∨ opEngine f.op = 0 then s
      else machineCheck (releaseHomes (dropF (logEvent s 3 k) id) f) f k addr (opEngine f.op) 0 0

end Sys2Proof.Machine
end

