-- ==== Sys2Proof/Machine/EvService.lean ====
section
/-! DEFINITION. The resident service's requests (R430 to R433, R515, R516), bring-up and power (R434, R435, R442), the Gloper
controller's sensors (R25, R436), firmware and keys (R432, R439), attestation (R440). -/

namespace Sys2Proof.Machine

/-! Messages (R433). -/

def mCode (m : List Byte) : Nat := le m 0 2
def mJob (m : List Byte) : Nat := le m 8 8
def mSeq (m : List Byte) : Nat := le m 16 8
def mCtx (m : List Byte) : Nat := le m 24 2 % 4096
def mLen (m : List Byte) : Nat := le m 4 4
def mPayload (m : List Byte) : List Byte := (m.drop 64).take (mLen m)

/-- Does a payload match its code? -/
def payloadOk (code : Nat) (p : List Byte) : Bool :=
  let n := p.length
  match code with
  | 1 => decide (204 ≤ n ∧ n = 204 + 20 * le p 202 2) && (List.range (le p 202 2)).all (fun k => le p (206 + 20 * k) 2 == 0)
  | 2 => n == 48
  | 4 => decide (n = 1 ∧ 1 ≤ le p 0 1 ∧ le p 0 1 ≤ 7)
  | 6 => decide (n = 19 ∧ le p 16 1 ≤ 2 ∧ le p 17 1 ≤ 1 ∧ le p 18 1 < 16)
  | 7 => n == 16
  | 8 => decide (12 ≤ n ∧ 1 ≤ le p 8 4 ∧ le p 8 4 ≤ 65536 ∧ n = 12 + le p 8 4)
  | 9 => decide (n = 12 ∧ 1 ≤ le p 8 4 ∧ le p 8 4 ≤ 65536)
  | 10 => decide (n = 264 ∧ le p 0 1 ≤ 15 ∧ le p 1 7 = 0)
  | 11 => decide (12 ≤ n ∧ n = 12 + 24 * le p 8 4)
  | 12 => n == 4
  | 15 => decide (n = 8 ∧ le p 0 4 ≤ 3)
  | 16 => n == 32
  | 17 => decide (n = 8 ∧ le p 0 1 ≤ 2 ∧ le p 1 3 = 0 ∧ (le p 4 4 = 0 ∨ (1200 ≤ le p 4 4 ∧ le p 4 4 ≤ 3200)))
  | 18 => n == 64
  | _ => decide (code ∈ [3, 5, 13, 14]) && n == 0

/-- A request with a reserved field set, an unknown code or a payload that does not match it. -/
def msgBad (m : List Byte) : Bool :=
  decide (m.length < 128 ∨ le m 2 1 ≠ 0 ∨ le m 3 1 ≠ 0 ∨ 65600 < mLen m ∨ m.length ≠ 128 + mLen m ∨ 4096 ≤ le m 24 2 ∨ le m 26 2 ≠ 0 ∨
    le m 28 36 ≠ 0) || !payloadOk (mCode m) (mPayload m)

/-- Is the service running (R435)? -/
def serviceUp (s : State) : Bool := statusOf s 129 == 2

def answer (s : State) (code job seq ctx status : Nat) (payload : List Byte) : State :=
  sendMsg s { code := code, dir := 1, job := job, seq := seq, ctx := ctx, status := status, payload := payload, sig := 0 }
def reply (s : State) (m : List Byte) (status : Nat) (payload : List Byte) : State :=
  answer s (mCode m) (mJob m) (mSeq m) (mCtx m) status payload

def getJob (s : State) (job : Nat) : Option Job := s.jobs.find? (fun j => j.job == job)
def putJob (s : State) (j : Job) : State :=
  if s.jobs.any (fun k => k.job == j.job) then { s with jobs := replaceFirst (fun k => k.job == j.job) (fun _ => j) s.jobs }
  else { s with jobs := s.jobs ++ [j] }

/-- A key and a signature of 64 bytes, as numbers. -/
def le64 (m : List Byte) (o : Nat) : Nat := le m o 64

/-- Does a request's signature verify under a key (R432)? -/
def signed (m : List Byte) (key : Nat) : Bool := Config.sm2Verify key (Config.sm3 (m.take (m.length - 64))) (le64 m (m.length - 64))

/-- The physical bytes of a mapped range, whatever its rights (R516); none when a page is not mapped. -/
def windowPas (s : State) (ctx va n : Nat) : Option (List Nat) :=
  if 2 ^ 57 < va + n then none
  else match walk s ctx va, walk s ctx (va + n - 1) with
    | .page v p _ _ _, .page u q _ _ _ =>
      let k := 65536 - va % 65536
      some ((List.range n).map (fun i => if i < k then p + (va - v) + i else q + (va + n - 1 - u) + i - (n - 1)))
    | _, _ => none

/-- Can the homes take what a request does now: a memory write or read at its lines and at the table entries on its way (R105, R106), and a launch queue write once the
completion times of the service's writes for the context have passed, as a release (R150)? -/
def homesReady (s : State) (m : List Byte) : Bool :=
  let p := mPayload m
  let trailReady (ctx va n : Nat) : Bool := (rangeTrail s ctx va n).all (homeReady s)
  match mCode m with
  | 8 => trailReady (mCtx m) (le p 0 8) (le p 8 4) &&
    (match windowPas s (mCtx m) (le p 0 8) (le p 8 4) with | some pas => engineFree s (mCtx m) 0 (pas.zip (p.drop 12)) | none => true)
  | 9 => trailReady (mCtx m) (le p 0 8) (le p 8 4) &&
    (match windowPas s (mCtx m) (le p 0 8) (le p 8 4) with | some pas => pas.all (homeReady s) | none => true)
  | 10 => (match getC s (mCtx m) with | some c => decide (c.wct < s.time) | none => true)
  | _ => true

/-- Must a request wait (R431)? One of its client, or one that names its context, came before and is not done. -/
def mustWait (s : State) (before : List (List Byte)) (m : List Byte) : Bool :=
  let same (job ctx : Nat) : Bool := job == mJob m || (mCtx m != 0 && ctx == mCtx m)
  s.waits.any (fun w => same w.job w.ctx) || before.any (fun q => same (mJob q) (mCtx q)) || !homesReady s m

/-- Perform an accepted request, or hold it back until it may be performed (R431). -/
def orQueue (s : State) (m : List Byte) (body : State → State) : State :=
  if mustWait s s.queued m then { s with queued := s.queued ++ [m] } else body s

/-- Take a request of a known job: malformed is status 1; a foreign signature or an old sequence number is status 2 (R432, R433). -/
def request (s : State) (m : List Byte) (code : Nat) (body : State → List Byte → State) : State :=
  if !serviceUp s then s
  else if msgBad m || mCode m != code then reply s m 1 []
  else match getJob s (mJob m) with
    | none => reply s m 2 []
    | some j => if !signed m j.key || decide (mSeq m ≤ j.seq) then reply s m 2 []
      else orQueue (putJob s { j with seq := mSeq m }) m (fun s => body s m)

/-- Has a context been stopped by class 0x19 or 0x1A, after which the service accepts only its destroy (R448)? -/
def deadCtx (c : Context) : Bool :=
  match c.run with | .stopping k => k == 0x19 || k == 0x1A | .aside k => k == 0x19 || k == 0x1A | .running => false

/-- What a request that names a context comes to: one that does not exist is status 1 (R431), one of another job status 2, and so is any but
a destroy after a machine check or the watchdog (R448). -/
def withCtx (s : State) (m : List Byte) (body : State → Context → State) : State :=
  match getC s (mCtx m) with
  | none => reply s m 1 []
  | some c => if c.job ≠ mJob m ∨ c.ctx = 0 ∨ (deadCtx c ∧ mCode m ≠ 3) then reply s m 2 [] else body s c

/-- A request that takes longer. -/
def waitOf (m : List Byte) : Wait := { code := mCode m, job := mJob m, seq := mSeq m, ctx := mCtx m }
def later (s : State) (w : Wait) : State := { s with waits := s.waits ++ [w] }

/-- MALFORMED_SERVICE_MESSAGE. -/
def execMalformedServiceMessage (msg : List Byte) (s : State) : Host.Outcome State Fault Refusal :=
  .next (if serviceUp s && msgBad msg then reply s msg 1 [] else s)

/-! Jobs (R432, R503). -/

/-- The device numbers of a job setup. -/
def tableOf (p : List Byte) : List Nat := (List.range (le p 202 2)).map (fun k => le p (204 + 20 * k) 2)

/-- Numbers that leave a job's table are marked lost; its contexts hear code 5 (R496, R503; log entry 41). -/
def tellLost (s : State) (job : Nat) (gone : List Nat) : State :=
  gone.foldl (fun s d => (s.ctxs.filter (fun c => c.job == job && c.ctx != 0)).foldl (fun s c =>
    serviceRecord s c.ctx { cls := 0x1E, code := 5, index := d, eng := 4 } 0) s) s

/-- Record what an accepted job setup says: the keys, the module's device number, and the device-number table with its endpoints (R430). A
number it marks lost fails the transfers under way there (R503). Sequence numbers taken since it was accepted stay taken (R432). -/
def setupReq (s : State) (msg : List Byte) : State :=
  let p := mPayload msg
  let old := getJob s (mJob msg)
  let table := tableOf p
  let gone := match old with | some o => o.table.filter (fun d => !table.contains d) | none => []
  let lost := match old with | some o => o.lost.filter (fun d => !table.contains d) | none => []
  let ends := (List.range (le p 202 2)).map (fun k => (le p (204 + 20 * k) 2, le p (208 + 20 * k) 16))
  let j : Job := { job := mJob msg, key := le64 p 8, mgmtKey := le64 p 72, self := le p 200 2, table := table, ends := ends,
                   seq := max (mSeq msg) (match old with | some o => o.seq | none => 0),
                   lost := lost ++ gone }
  reply (tellLost (failLost (putJob s j) j.job) j.job gone) msg 0 []

/-- JOB_SETUP: the certificate verifies under the operator key and the message under the job key it carries (R432). -/
def execJobSetup (msg : List Byte) (s : State) : Host.Outcome State Fault Refusal :=
  .next (
    if !serviceUp s then s
    else if msgBad msg || mCode msg != 1 then reply s msg 1 []
    else
      let p := mPayload msg
      let cert := match s.operatorKey with
        | some k => Config.sm2Verify k (Config.sm3 (p.take 136)) (le64 p 136)
        | none => false
      if !cert || le p 0 8 != mJob msg || !signed msg (le64 p 8) then reply s msg 2 []
      else match getJob s (mJob msg) with
        | none => setupReq s msg
        | some o => if mSeq msg ≤ o.seq then reply s msg 2 [] else orQueue (putJob s { o with seq := mSeq msg }) msg (fun s => setupReq s msg))

/-! Contexts. -/

/-- Towers and dies must all be ready (R435), and the module neither in standby nor off (R442). -/
def memoryReady (s : State) : Bool :=
  (List.range 20).all (fun k => statusOf s (12 + k) == 2) && (s.power == .active || s.power == .idle)

/-- The access-table entries the service writes for a context: each target and engine kind, all of memory (log entry 42). -/
def atEntries (ctx : Nat) : List AtEntry :=
  (List.range 5).flatMap (fun t => (List.range 6).map (fun e =>
    { target := t, ctx := ctx, eng := e, base := 0, size := 2 ^ 52, rd := true, w := true, atomic := true }))

/-- The watchdog interval of a request, in µs: a field of zero, which is no interval, asks for the default of 2 s (R454; log entry 91). -/
def watchdogOf (wd : Nat) : Nat := if wd = 0 then 2000000 else wd

/-- CONTEXT_CREATE. Whether a debugger is attached is left open by the specification (R265, log entry 43). -/
def createCtx (s : State) (msg : List Byte) : State :=
    let p := mPayload msg
    let root := le p 0 8
    let prio := le p 8 8
    let wd := watchdogOf (le p 24 4)
    let ext := le p 28 4
    if root % 4096 ≠ 0 ∨ 2 ^ 52 ≤ root ∨ 2 ^ 48 ≤ prio ∨ wd < 1000 ∨ 600000000 < wd ∨ 3600000 < ext then reply s msg 1 []
    else if !memoryReady s then reply s msg 4 []
    else match (List.range 4096).find? (fun k => decide (k ≠ 0) && (getC s k).isNone) with
      | none => reply s msg 3 []
      | some k =>
        let c : Context := { ctx := k, job := mJob msg, root := root, qprio := prio, key := r64 (le p 16 8), watchdog := wd * 1000,
                             extTimeout := ext * 1000000, pool := le p 32 8, save := le p 40 8, progress := s.time,
                             debugger := (openValue s).getLsbD 0 }
        let s1 := tickFree s
        reply (writeTables { s1 with ctxs := s1.ctxs ++ [c], atTable := s1.atTable ++ atEntries k, atPrev := s1.atPrev ++ atEntries k }) msg 0 (toBytes 2 k)

def execContextCreate (msg : List Byte) (s : State) : Host.Outcome State Fault Refusal := .next (request s msg 2 createCtx)

/-- Does an operation go on after its context has ended: what towers and devices have accepted (R117), recalls? -/
def outlives (o : Op) : Bool :=
  match o with
  | .towerWrite _ => true | .cxlWrite _ => true | .recall .. => true | .far _ _ _ 2 _ _ _ => true | _ => false

/-- End a context (R430, R515, R113): its grids end without completion, its queues, pools and pairs are gone, its pontils go to parked
takers of other contexts (R86), its access-table entries go through an invalidation. -/
def destroyCtx (s : State) (c : Context) : State :=
  let k := c.ctx
  let mine (gid : Nat) : Bool := s.groups.any (fun g => g.gid == gid && g.ctx == k)
  let free (p : Part) : Part := { p with cur := p.cur.filter (fun q => !mine q.1) }
  let arrays := (List.range 8).filter (fun i => c.pairs.testBit i)
  let s1 := (List.range 16).foldl (fun s t => arrays.foldl (fun s i => zeroPair s t i) s) s
  let s2 := (s.pend.filter (fun f => f.ctx == k && !outlives f.op)).foldl releaseHomes (dropTower s1 k)
  let s3 := { s2 with
    groups := s2.groups.filter (fun g => g.ctx != k), teams := s2.teams.filter (fun t => t.ctx != k),
    clusters := s2.clusters.filter (fun x => x.ctx != k), grids := s2.grids.filter (fun x => x.ctx != k),
    pool := s2.pool.filter (fun x => x.ctx != k), formed := s2.formed.filter (fun x => x.ctx != k),
    pend := s2.pend.filter (fun f => f.ctx != k || outlives f.op),
    parts := s2.parts.map free, ctxs := s2.ctxs.filter (fun x => x.ctx != k), tlb := s2.tlb.filter (fun x => x.ctx != k),
    atPrev := if s2.atBusy then s2.atPrev else s2.atTable, atTable := s2.atTable.filter (fun e => e.ctx != k), atRemoved := s2.atRemoved ++ s2.atTable.filter (fun e => e.ctx == k), atBusy := true,
    icache := s2.icache.map (fun l => if l.expiry.isNone && l.pinCtx == k then { l with expiry := some s2.time, pinCtx := 0 } else l) }
  (pontilsOf s k).foldl (fun s p => pontilFree s p.1 p.2) (writeTables s3)

/-- CONTEXT_DESTROY: the context is stopped, and ended once it has stopped (R430, R431). -/
def destroyReq (s : State) (msg : List Byte) : State :=
  withCtx s msg (fun s c =>
    let s1 := if c.run = .running ∧ s.groups.any (fun g => g.ctx == c.ctx) then stopCtx s c.ctx 0x100 else s
    later s1 (waitOf msg))
def execContextDestroy (msg : List Byte) (s : State) : Host.Outcome State Fault Refusal := .next (request s msg 3 destroyReq)

/-- PRE_EMPT (R87): answered once the context is set aside. -/
def preEmptReq (s : State) (msg : List Byte) : State :=
  withCtx s msg (fun s c => if setAside s c.ctx then reply s msg 0 [] else later (stopCtx s c.ctx 0x100) (waitOf msg))
def execPreEmpt (msg : List Byte) (s : State) : Host.Outcome State Fault Refusal := .next (request s msg 13 preEmptReq)

/-- RESUME (R91, R431): refused after a machine check or the watchdog, and while the towers and dies are not all ready (R435, R478). -/
def resumeReq (s : State) (msg : List Byte) : State :=
  withCtx s msg (fun s c => match c.run with
    | .running => reply s msg 0 []
    | _ => if !memoryReady s then reply s msg 4 [] else later s (waitOf msg))
def execResume (msg : List Byte) (s : State) : Host.Outcome State Fault Refusal := .next (request s msg 14 resumeReq)

/-! Cane partitions (R111, R113). -/

/-- The highest-numbered free pairs, pair 0 never among them. -/
def freePairs (s : State) : List Nat := [7, 6, 5, 4, 3, 2, 1].filter (fun k => !(caneMask s).testBit k)

/-- CANE_GRANT: answered when all sixteen towers have reported (R112). -/
def grantReq (s : State) (msg : List Byte) : State :=
  withCtx s msg (fun s c =>
    let n := le (mPayload msg) 0 1
    let free := freePairs s
    if c.pairs ≠ 0 then reply s msg 1 []
    else if free.length < n then reply s msg 3 []
    else if !memoryReady s then reply s msg 4 []
    else later s { waitOf msg with pairs := (free.take n).foldl (fun a k => a ||| 2 ^ k) 0 })
def execCaneGrant (msg : List Byte) (s : State) : Host.Outcome State Fault Refusal := .next (request s msg 4 grantReq)

/-- CANE_RETURN. -/
def returnReq (s : State) (msg : List Byte) : State :=
  withCtx s msg (fun s c =>
    if c.pairs = 0 then reply s msg 0 []
    else if s.grids.any (fun g => g.ctx == c.ctx && !g.done && (lrecOf g.lrec).cane) then reply s msg 4 []
    else later s { waitOf msg with pairs := c.pairs })
def execCaneReturn (msg : List Byte) (s : State) : Host.Outcome State Fault Refusal := .next (request s msg 5 returnReq)

/-! Memory windows (R516). -/

def meets (a b : Nat × Nat) : Bool := decide (a.1 < b.1 + b.2 ∧ b.1 < a.1 + a.2)

/-- Physical memory that the service's own area, tables, pages and unfinished unmaps hold. -/
def usedRanges (s : State) : List (Nat × Nat) :=
  (s.stBlk, 2 ^ 24) :: s.ctxs.flatMap (fun c => (c.root, 4096) :: (c.tabs ++ c.maps.map (fun m => m.2))) ++ s.waits.flatMap (fun w => w.ranges)

/-- A place for an aligned range in a tier: the lowest free one (log entry 44). -/
def findFree (s : State) (cxl : Bool) (size : Nat) : Option Nat :=
  let lo := if cxl then cxlBase else 0
  let used := usedRanges s
  least (((lo :: used.map (fun r => cdiv (r.1 + r.2) size * size)).filter (fun a =>
    decide (lo ≤ a) && isCxl a == cxl && backing s a size == 2 && used.all (fun r => !meets (a, size) r))))

/-- The table below an entry, placed and zeroed when there is none; none when the entry is a leaf or memory is short. -/
def tableBelow (s : State) (ctx level table va : Nat) : Option (State × Nat) :=
  let at_e := table + 8 * levelIndex level va
  let e := ofBytes (rdBytes s at_e 8)
  if e % 2 = 1 then (if fld e 1 1 = 1 then none else some (s, fld e 8 44 * 256))
  else
    let size := tableSize (level - 1)
    match findFree s false size, getC s ctx with
    | some a, some c =>
      let s1 := wrBytes s (at_ a (List.replicate size 0#8) ++ at_ at_e (toBytes 8 (a + 1)))
      some (putC s1 { c with tabs := c.tabs ++ [(a, size)] }, a)
    | _, _ => none

/-- Map one page at a level (R120, R121): the tables on its way, then its leaf. -/
def mapPage (s : State) (ctx level va pa flags : Nat) : Option State :=
  let tables := [4, 3, 2, 1].filter (fun l => decide (level < l))
  match tables.foldl (fun a l => a.bind (fun q => tableBelow q.1 ctx l q.2 va)) (some (s, rootOf s ctx)) with
  | none => none
  | some (s1, t) =>
    let rights := fld flags 0 1 * 8 + fld flags 1 1 * 16 + fld flags 2 1 * 32 + fld flags 3 1 * 128
    let s2 := wrBytes s1 (at_ (t + 8 * levelIndex level va) (toBytes 8 (pa + rights + 3)))
    (getC s2 ctx).map (fun c => putC s2 { c with maps := c.maps ++ [(va, pa, pageSize level)] })

/-- MEMORY_MAP: a page of the CXL tier goes round its four ports, which must be ready (R100, R435). -/
def mapReq (s : State) (msg : List Byte) : State :=
  withCtx s msg (fun s c =>
    let p := mPayload msg
    let va := le p 0 8
    let n := le p 8 8
    let level := le p 16 1
    let size := pageSize level
    if va % size ≠ 0 ∨ n % size ≠ 0 ∨ 2 ^ 57 < va + n ∨ c.maps.any (fun m => meets (va, n) (m.1, m.2.2)) then reply s msg 1 []
    else if !memoryReady s || (le p 17 1 == 1 && !(List.range 4).all (fun k => statusOf s (8 + k) == 2)) then reply s msg 4 []
    else
      let r := (List.range (n / size)).foldl (fun a k => a.bind (fun s =>
        (findFree s (le p 17 1 == 1) size).bind (fun pa => mapPage s c.ctx level (va + k * size) pa (le p 18 1)))) (some s)
      match r with
      | some s1 => reply s1 msg 0 []
      | none => reply s msg 3 [])
def execMemoryMap (msg : List Byte) (s : State) : Host.Outcome State Fault Refusal := .next (request s msg 6 mapReq)

/-- Clear the leaf of a mapped page. -/
def clearLeaf (s : State) (ctx : Nat) (m : Nat × Nat × Nat) : State :=
  let level := if m.2.2 = pageSize 0 then 0 else if m.2.2 = pageSize 1 then 1 else 2
  let t := ([4, 3, 2, 1].filter (fun l => decide (level < l))).foldl (fun t l => fld (ofBytes (rdBytes s (t + 8 * levelIndex l m.1) 8)) 8 44 * 256)
    (rootOf s ctx)
  wrBytes s (at_ (t + 8 * levelIndex level m.1) (toBytes 8 0))

/-- MEMORY_UNMAP: the translations go at once, and the request is answered once every access made through them has been performed
(R126). -/
def unmapReq (s : State) (msg : List Byte) : State :=
  withCtx s msg (fun s c =>
    let va := le (mPayload msg) 0 8
    let n := le (mPayload msg) 8 8
    let hit := c.maps.filter (fun m => meets (va, n) (m.1, m.2.2))
    let whole := hit.all (fun m => decide (va ≤ m.1 ∧ m.1 + m.2.2 ≤ va + n)) && decide (hit.foldl (fun a m => a + m.2.2) 0 = n)
    if !whole then reply s msg 1 []
    else if !memoryReady s then reply s msg 4 []
    else
      let s1 := hit.foldl (fun s m => clearLeaf s c.ctx m) s
      let s2 := putC s1 { c with maps := c.maps.filter (fun m => !hit.contains m) }
      let s3 := { s2 with tlb := s2.tlb.filter (fun t => !(t.ctx == c.ctx && meets (va, n) (t.va, t.size))) }
      later s3 { waitOf msg with ranges := hit.map (fun m => m.2), mark := s.nextId })
def execMemoryUnmap (msg : List Byte) (s : State) : Host.Outcome State Fault Refusal := .next (request s msg 7 unmapReq)

/-- The service's write of a context's memory is released by a later launch-queue request (R150). -/
def serviceWrote (s : State) (ctx t : Nat) : State := match getC s ctx with | some c => putC s { c with wct := max c.wct t } | none => s

/-- What a memory write or read comes to: status 4 while the towers and dies, or a CXL port it needs, are not ready (R435), a machine check
of the context and status 2 for a table entry in error (R474, log entry 89), status 1 when a page is not mapped. -/
def withWindow (s : State) (msg : List Byte) (c : Context) (va n : Nat) (body : State → List Nat → State) : State :=
  if !memoryReady s then reply s msg 4 []
  else match trailBad s c.ctx va n, windowPas s c.ctx va n with
  | some (q, k), _ => reply (ctxCheck s c.ctx k q 0) msg 2 []
  | none, none => reply s msg 1 []
  | none, some pas => if pas.all (fun p => !isCxl p || statusOf s (8 + dieOf p) == 2) then body s pas else reply s msg 4 []

/-- MEMORY_WRITE. -/
def writeReq (s : State) (msg : List Byte) : State :=
  withCtx s msg (fun s c =>
    let p := mPayload msg
    withWindow s msg c (le p 0 8) (le p 8 4) (fun s pas =>
      let (s1, t) := engineWrite s c.ctx 0 (pas.zip (p.drop 12))
      reply (serviceWrote s1 c.ctx t) msg 0 []))
def execMemoryWrite (msg : List Byte) (s : State) : Host.Outcome State Fault Refusal := .next (request s msg 8 writeReq)

/-- MEMORY_READ. Data in error is not delivered: a machine check of the context, and status 2 (R458; log entry 89). -/
def readReq (s : State) (msg : List Byte) : State :=
  withCtx s msg (fun s c =>
    withWindow s msg c (le (mPayload msg) 0 8) (le (mPayload msg) 8 4) (fun s pas =>
      match badAt s pas with
      | some (q, k) => reply (ctxCheck s c.ctx k q 0) msg 2 []
      | none => reply (engineRead s c.ctx 0 pas) msg 0 (pas.map (rdByte s))))
def execMemoryRead (msg : List Byte) (s : State) : Host.Outcome State Fault Refusal := .next (request s msg 9 readReq)

/-- LAUNCH_QUEUE_WRITE (R65, R150): a full queue is the reply's payload. -/
def queueReq (s : State) (msg : List Byte) : State :=
  withCtx s msg (fun s c =>
    let q := le (mPayload msg) 0 1
    let l := fget [] q c.queues
    if 64 ≤ l.length then reply s msg 0 [1#8]
    else reply (putC s { c with queues := fput [] q (l ++ [(0, (mPayload msg).drop 8)]) c.queues }) msg 0 [0#8])
def execLaunchQueueWrite (msg : List Byte) (s : State) : Host.Outcome State Fault Refusal := .next (request s msg 10 queueReq)

/-! Reduction trees (R426, R499). -/

/-- TREE_CREATE: whether every switch has a free slot is the switches' affair, an open value (log entry 45). -/
def treeReq (s : State) (msg : List Byte) : State :=
    let p := mPayload msg
    let t : Tree := { tree := le p 0 4, switches := (List.range (le p 8 4)).map (fun k => le p (12 + 24 * k) 16) }
    if s.trees.any (fun u => u.tree == t.tree && !u.freed) then reply s msg 1 []
    else if (openValue s).getLsbD 0 then reply (tickFree s) msg 5 []
    else reply { tickFree s with trees := s.trees.filter (fun u => u.tree != t.tree) ++ [t] } msg 0 []
def execTreeCreate (msg : List Byte) (s : State) : Host.Outcome State Fault Refusal := .next (request s msg 11 treeReq)

/-- A collective in progress on a tree that is freed is aborted with reason 4: here every chunk that has fired and of which no result has come
(R499, R501). -/
def abortTree (s : State) (tree : Nat) : State :=
  s.teams.foldl (fun s t => match chunkOf s t with
    | some (c, k, _, _) => if c.tree = tree ∧ t.chunk.fired ∧ !t.chunk.landed ∧ t.chunk.got.isEmpty then abortChunk s t k (4 * 2 ^ 56 + k) else s
    | none => s) s

/-- TREE_FREE. -/
def treeFreeReq (s : State) (msg : List Byte) : State :=
    let t := le (mPayload msg) 0 4
    if s.trees.any (fun u => u.tree == t && !u.freed) then
      reply (abortTree { s with trees := s.trees.map (fun u => if u.tree = t then { u with freed := true } else u) } t) msg 0 []
    else reply s msg 1 []
def execTreeFree (msg : List Byte) (s : State) : Host.Outcome State Fault Refusal := .next (request s msg 12 treeFreeReq)

/-! Telemetry, attestation, power (R430, R437, R440, R442). -/

/-- The reply's layout past the status block is the model's (log entry 46). -/
def telemetryBytes (s : State) (sel first : Nat) : List Byte :=
  match sel with
  | 0 => s.status.flatMap (fun e => toBytes 8 e.1 ++ toBytes 8 e.2)
  | 1 => (List.range 12).flatMap (fun k => toBytes 8 (fget 0 k s.corr)) ++ toBytes 8 s.dropPackets ++ toBytes 8 s.dropReductions
  | 2 => s.sensors.flatMap (toBytes 8)
  | _ => ((s.log.drop first).take 1024).flatMap (fun e => toBytes 8 e.time ++ toBytes 8 e.kind ++ toBytes 8 e.detail ++ List.replicate 40 0#8)

def telemetryReq (s : State) (msg : List Byte) : State :=
  reply s msg 0 (telemetryBytes s (le (mPayload msg) 0 4) (le (mPayload msg) 4 4))
def execTelemetry (msg : List Byte) (s : State) : Host.Outcome State Fault Refusal := .next (request s msg 15 telemetryReq)

/-- The report of R440 up to its signature; a table change whose invalidation still runs is not in it (R441). -/
def reportBytes (s : State) (nonce : List Byte) (ctx dev : Nat) : List Byte :=
  nonce ++ toBytes 32 (Config.sm3 Config.romImage) ++ toBytes 32 (Config.sm3 s.firmware.running) ++ toBytes 32 (Config.sm3 Config.serviceConfig) ++
    toBytes 32 (Config.sm3 (((if s.atBusy then s.atPrev else s.atTable).filter (fun e => e.ctx == ctx)).flatMap atBytes)) ++ toBytes 8 s.time ++ toBytes 8 (dev % 2 ^ 16) ++
    toBytes 16 Config.serialNumber

/-- ATTEST: a context it names must exist (R431), be the job's own, and not have been stopped by class 0x19 or 0x1A (R448). -/
def attestReq (s : State) (msg : List Byte) : State :=
  let go (s : State) : State :=
    let b := reportBytes s (mPayload msg) (mCtx msg) (match getJob s (mJob msg) with | some j => j.self | none => 0)
    reply (logEvent s 5 (mCtx msg)) msg 0 (b ++ toBytes 64 (Config.sm2Sign (Config.sm3 b)))
  if mCtx msg = 0 then go s
  else match getC s (mCtx msg) with
    | none => reply s msg 1 []
    | some c => if c.job ≠ mJob msg ∨ deadCtx c then reply s msg 2 [] else go s
def execAttest (msg : List Byte) (s : State) : Host.Outcome State Fault Refusal := .next (request s msg 16 attestReq)

/-- Does a context have a resident group or an engine command in flight (R442)? The groups of a context that is set aside are not resident
(R88); a send that has read its source only awaits an answer. -/
def moduleBusy (s : State) : Bool :=
  s.groups.any (fun g => g.ctx != 0 && !setAside s g.ctx) || s.pend.any (fun f => match f.op with | .send x => x.sent.isNone | _ => true)

/-- Towers and cores go off in standby, their caches and canes with them, and initialise again when it ends (R442). -/
def standbyFns : List Nat := (List.range 16).map (fun k => 12 + k) ++ (List.range 96).map (fun k => 32 + k)
def enterStandby (s : State) : State :=
  standbyFns.foldl (fun s e => setStatus s e 0) { s with llc := [], canes := [], badCane := [], l1 := [], icache := [], tlb := [] }
def leaveStandby (s : State) : State := standbyFns.foldl (fun s e => if statusOf s e = 0 then setStatus s e 1 else s) s

/-- POWER: standby fails while a context exists; idle holds only while nothing runs. -/
def powerReq (s : State) (msg : List Byte) : State :=
    let p := mPayload msg
    let st := le p 0 1
    if st = 2 ∧ s.ctxs.any (fun c => c.ctx != 0) then reply s msg 2 []
    else
      let pw : Power := if st = 0 then .active else if st = 1 then (if moduleBusy s then .active else .idle) else .standby
      let s1 := if pw = .standby ∧ s.power ≠ .standby then enterStandby s else if pw ≠ .standby ∧ s.power = .standby then leaveStandby s else s
      reply { logEvent s1 0 (st * 65536 + le p 4 4) with power := pw, cap := le p 4 4 } msg 0 []
def execPower (msg : List Byte) (s : State) : Host.Outcome State Fault Refusal := .next (request s msg 17 powerReq)

/-- BREAKPOINT_RESUME: the slot that the notice names, parked at that breakpoint, goes on at the following word (R265). -/
def bkptReq (s : State) (msg : List Byte) : State :=
  withCtx s msg (fun s c =>
    let p := mPayload msg
    let q := le p 0 8
    let cl := le p 8 8
    let b := q.testBit 1
    let code := fld q 32 24
    let named (g : Group) : Bool :=
      g.ctx == c.ctx && g.core == fld q 13 7 && g.part == fld q 11 2 && g.num == fld q 6 5 && (if g.task then 0xF else g.tidx) == fld q 2 4 &&
        (if g.task then 0xFFFFFFFF else g.cluster) == cl / 2 ^ 32 && g.grid == cl % 2 ^ 32
    match s.groups.find? named with
    | none => reply s msg 1 []
    | some g => match (slotOf g b).park with
      | some (.bkpt imm) =>
        if imm % 2 ^ 24 ≠ code ∨ fld q 56 8 ≠ 0 then reply s msg 1 []
        else
          let p := if 2 ^ 24 ≤ imm ∧ !allQuiet s g then some Park.marker else none
          reply (putG s (setSlot g b { slotOf g b with park := p, waitSince := s.time, extSince := s.time })) msg 0 []
      | _ => reply s msg 1 [])
def execBreakpointResume (msg : List Byte) (s : State) : Host.Outcome State Fault Refusal := .next (request s msg 18 bkptReq)

/-! Finishing what takes longer. -/

def dropWait (s : State) (w : Wait) : State := { s with waits := s.waits.erase w }
def finish (s : State) (w : Wait) (status : Nat) (payload : List Byte) : State := answer (dropWait s w) w.code w.job w.seq w.ctx status payload

/-- Has every access made before an unmap through the pages it took been performed (R126)? -/
def unmapDone (s : State) (w : Wait) : Bool :=
  let hit (pas : List Nat) : Bool := pas.any (fun p => w.ranges.any (fun r => decide (r.1 ≤ p ∧ p < r.1 + r.2)))
  s.pend.all (fun f => f.ctx != w.ctx || !decide (f.id < w.mark) || (match f.op with
    | .load l _ _ _ _ _ => !hit (l.flatMap (fun x => x.pas))
    | .store b _ _ _ => !hit (b.map Prod.fst)
    | .atomic _ _ l _ _ _ _ => !hit (l.flatMap (fun x => x.1.pas))
    | .far l _ _ _ _ _ ap => ap || !hit l.pas
    | .station _ pa _ _ _ => !hit [pa, pa + 1024]
    | .arrival a => !hit [a.station, a.station + 1024]
    | _ => true)) &&
  s.groups.all (fun g => g.ctx != w.ctx || g.wcb.all (fun e => !hit [e.line * 128]))

/-- One request, carried to its end when it is ready. A context whose groups and teams do not fit back beside those that run is not
resumed: status 3 (log entry 90). -/
def settleWait (s : State) (w : Wait) : State :=
  let all := decide (16 * popc 8 w.pairs ≤ w.done.length)
  match getC s w.ctx with
  | none => finish s w 1 []
  | some c =>
    match w.code with
    | 3 =>
      let stopped := setAside s w.ctx || s.groups.all (fun g => g.ctx != w.ctx)
      if stopped && !towerWork s w.ctx then finish (destroyCtx s c) w 0 [] else s
    | 4 => if all then finish (putC s { c with pairs := w.pairs }) w 0 (toBytes 1 w.pairs) else s
    | 5 => if all then finish (putC s { c with pairs := 0 }) w 0 [] else s
    | 7 => if unmapDone s w then finish s w 0 [] else s
    | 13 => if setAside s w.ctx then finish s w 0 [] else s
    | 14 => (match c.run with
      | .running => finish s w 0 []
      | .stopping _ => s
      | .aside _ => if deadCtx c then finish s w 2 [] else if !memoryReady s then finish s w 4 []
        else if fitsBack s c then finish (restoreCtx s c) w 0 [] else finish s w 3 [])
    | _ => s

/-- Perform an accepted request by its code. -/
def performReq (s : State) (m : List Byte) : State :=
  match mCode m with
  | 1 => setupReq s m
  | 2 => createCtx s m
  | 3 => destroyReq s m
  | 4 => grantReq s m
  | 5 => returnReq s m
  | 6 => mapReq s m
  | 7 => unmapReq s m
  | 8 => writeReq s m
  | 9 => readReq s m
  | 10 => queueReq s m
  | 11 => treeReq s m
  | 12 => treeFreeReq s m
  | 13 => preEmptReq s m
  | 14 => resumeReq s m
  | 15 => telemetryReq s m
  | 16 => attestReq s m
  | 17 => powerReq s m
  | 18 => bkptReq s m
  | _ => s

/-- The requests held back that may be performed now, in the order taken (R431). -/
def settleQueue (s : State) : State :=
  s.queued.foldl (fun s m =>
    if mustWait s (s.queued.takeWhile (fun q => q != m)) m then s else performReq { s with queued := s.queued.erase m } m) s

/-- The requests in hand, in the order taken (R431), then those held back. -/
def settleService (s : State) : State := settleQueue (s.waits.foldl (fun s w => if s.waits.contains w then settleWait s w else s) s)

/-! Bring-up and power (R434, R435, R439, R442). -/

/-- The changes of entries that come to a state, for the log (R437). -/
def logStates (s : State) (v : Nat) : State :=
  (List.range 130).foldl (fun a e => if statusOf s e = v then a else logEvent a 1 (e * 16 + v)) s

/-- What survives without power: firmware, the operator key, the log, the spares used and the units replaced; the schedule is the model's
own. -/
def powerDown (s : State) : State :=
  { State.reset with turns := s.turns, log := (logStates s 0).log, firmware := { s.firmware with running := [], staged := none },
                     operatorKey := s.operatorKey, spares := s.spares, sites := s.sites, failedSites := s.failedSites, freeCount := s.freeCount }

/-- POWER_OFF. -/
def execPowerOff (s : State) : Host.Outcome State Fault Refusal := .next (powerDown s)

/-- POWER_GOOD: reset is released, the ROM loader verifies the image (a torn one is fetched again and written), and the service
starts; every function then initialises itself. `refetched` is the image from the tray manager, its last 64 bytes the signature. -/
def execPowerGood (refetched : List Byte) (s : State) : Host.Outcome State Fault Refusal :=
  .next (
    if s.power ≠ .off then s
    else
      let s0 := powerDown s
      let n := refetched.length - 64
      let fw := if s0.firmware.torn then { s0.firmware with stored := refetched.take n, sig := ofBytes (refetched.drop n) } else s0.firmware
      let good := Config.sm2Verify Config.terbexKey (Config.sm3 fw.stored) fw.sig
      if good then
        let place := Config.servicePlace % 68664 * 2 ^ 24
        let s1 := logEvent { logStates s0 1 with power := .active, status := List.replicate 130 (1, 0), stBlk := place, atBase := place + 2 ^ 20,
                                                 firmware := { fw with running := fw.stored, torn := false } } 0 1
        performWrite s1 0 (at_ place ((List.replicate 130 (toBytes 8 1 ++ toBytes 8 0)).flatten))
      else { s0 with power := .active })

/-- The bytes of a CXL port's devices, at most 4 TiB together (R428). -/
def enumerate (s : State) (port : Nat) : State :=
  let caps := (List.range 4).map (fun k => Config.cxlCapacity (4 * port + k))
  if caps.foldl (fun a b => a + b) 0 ≤ 2 ^ 42 then { s with cxlCaps := fputs 0 ((List.range 4).map (fun k => (4 * port + k, caps.getD k 0))) s.cxlCaps }
  else s

/-- The service's group on a control core: context 0, of the least width and without registers of its own, halted until WAKE restarts it at
the start of the service's code, which the model performs as events (R429, R434; log entry 92). -/
def serviceGroup (s : State) (k : Nat) : State :=
  let t : Team := { tid := s.nextId, ctx := 0, grid := 0, cluster := 0, tidx := 0, core := 96 + k, task := false, groups := 1, width := 8, lines := 0,
                    prog := 0, depthD := 0 }
  let g : Group := { gid := s.nextId + 1, ctx := 0, grid := 0, cluster := 0, team := s.nextId, tidx := 0, num := 0, width := 8, core := 96 + k, part := 0,
                     rows := 0, accN := 0, parN := 0, depthD := 0, slotA := { st := .running, clause := Config.serviceEntry, mask := fullMask 8, park := some .halt } }
  { s with nextId := s.nextId + 2, teams := s.teams ++ [t], groups := s.groups ++ [g] }

/-- The service runs: its context 0 exists, with the default intervals of R454, and with root table 0, queue priorities 0, random key 0, no
pool and no save area, none of which the specification states: DESIGN CHOICE (log entry 93). -/
def startService (s : State) : State :=
  let s1 := { s with
    ctxs := s.ctxs ++ [{ ctx := 0, job := 0, root := 0, qprio := 0, key := 0#64, watchdog := 2000000000, extTimeout := 10000000000,
                         pool := 0, save := 0 }],
    atTable := s.atTable ++ atEntries 0 }
  (List.range 8).foldl serviceGroup (writeTables s1)

/-- FUNCTION_READY: a CXL port's devices are enumerated; with the service its context 0 exists. -/
def execFunctionReady (entry : Nat) (s : State) : Host.Outcome State Fault Refusal :=
  .next (
    if statusOf s entry ≠ 1 then s
    else
      let s1 := setStatus s entry 2
      if 8 ≤ entry ∧ entry ≤ 11 then enumerate s1 (entry - 8)
      else if entry = 129 then startService s1
      else s1)

/-- May a PLDM command be taken: over the management link, or through the running service with a signature by the management key of a job
(R432, R437)? `chan`: the job and the signature over the command's bytes. -/
def channelOk (s : State) (chan : Option (Nat × Nat)) (cmd : List Byte) : Bool :=
  match chan with
  | none => true
  | some (job, sig) => match getJob s job with
    | some j => serviceUp s && Config.sm2Verify j.mgmtKey (Config.sm3 cmd) sig
    | none => false

/-- The controller answers a PLDM command (log entry 87). -/
def mgmtAnswer (s : State) (chan : Option (Nat × Nat)) (status : Nat) : State := { s with mgmtOut := s.mgmtOut ++ [(chan.map Prod.fst, status)] }

/-- What a PLDM read answers over the management link or the signed channel (R437): monitoring gives the sensors (`sel` 2), and the log is
read from an entry on (3). The opcode table has no event for it, since the read changes nothing: the outside world sees this value of
the state (log entry 115). None: no answer, the controller being without power, or the channel refused. -/
def mgmtRead (s : State) (chan : Option (Nat × Nat)) (sel first : Nat) : Option (List Byte) :=
  if s.power = .off ∨ (sel ≠ 2 ∧ sel ≠ 3) ∨ !channelOk s chan (3#8 :: (toBytes 4 sel ++ toBytes 4 first)) then none
  else some (telemetryBytes s sel first)

/-- FIRMWARE_STAGE: only one stage at a time, a second one fails with status 4; one that does not verify is discarded and logged. -/
def execFirmwareStage (image : List Byte) (cmd : StageCmd) (s : State) : Host.Outcome State Fault Refusal :=
  .next (
    if s.power = .off then s
    else if !channelOk s cmd.chan (1#8 :: (image ++ toBytes 64 cmd.sig)) then mgmtAnswer s cmd.chan 2
    else if s.firmware.staged.isSome then mgmtAnswer s cmd.chan 4
    else if Config.sm2Verify Config.terbexKey (Config.sm3 image) cmd.sig then
      mgmtAnswer (logEvent { s with firmware := { s.firmware with staged := some (image, cmd.sig) } } 2 1) cmd.chan 0
    else mgmtAnswer (logEvent s 2 0) cmd.chan 1)

/-- FIRMWARE_COMMIT: the image is in force from the next reset; `cmd.powerFailed`: power failed meanwhile and the stored image is torn. -/
def execFirmwareCommit (cmd : CommitCmd) (s : State) : Host.Outcome State Fault Refusal :=
  .next (if !channelOk s cmd.chan [2#8] then mgmtAnswer s cmd.chan 2 else match s.firmware.staged with
    | none => mgmtAnswer s cmd.chan 1
    | some (image, sig) =>
      let s1 := logEvent { s with firmware := { s.firmware with stored := image, sig := sig, torn := cmd.powerFailed, staged := none } } 2 2
      if cmd.powerFailed then powerDown s1 else mgmtAnswer s1 cmd.chan 0)

/-- OPERATOR_KEY_WRITE: over the management link at installation; a replacement is signed by the present key. -/
def execOperatorKeyWrite (key : Nat) (viaLink : Bool) (sig : Nat) (s : State) : Host.Outcome State Fault Refusal :=
  .next (match s.operatorKey with
    | none => if viaLink then { s with operatorKey := some key } else s
    | some k => if Config.sm2Verify k (Config.sm3 (toBytes 64 key)) sig then { s with operatorKey := some key } else s)

/-- SENSOR_SAMPLE (R25, R436): 76 readings every 100 µs; what limits the controller applies are its own: a step of each die's clock (0 to 3) and
a split of waves over fewer arrays by each tower's sequencer (4 to 19), open values that change no result, each change logged (log entry
47). -/
def execSensorSample (readings : List Nat) (s : State) : Host.Outcome State Fault Refusal :=
  .next (
    if s.power = .off ∨ s.time < s.sampled + 100000 then s
    else
      let s1 := { s with sensors := readings.take 76, sampled := s.time }
      (List.range 20).foldl (fun s d =>
        let v := (openValue s).toNat % (if d < 4 then 16 else 2)
        let s2 := tickFree s
        if fget 0 d s.throttle = v then s2 else logEvent { s2 with throttle := fput 0 d v s2.throttle } 0 (d * 16 + v)) s1)

end Sys2Proof.Machine
end

