-- ==== Sys2Proof/Machine/Real.lean ====
section
/-! DEFINITION. The values of the special-function words (R177, R289 to R291). `v.rcp` and `v.sqrt` are correct; the faithful
words round the value, found here in fixed point of 640 bits (log entry 31), to one of its two neighbours, which
`Config.faithfulUp` chooses. -/

namespace Sys2Proof.Machine

/-- Bits after the point. -/
def fxP : Nat := 640
def fxOne : Nat := 1 <<< fxP
def fxMul (a b : Nat) : Nat := (a * b) >>> fxP

/-- A real: exactly (-1)^neg x m x 2^e, or with `st` strictly between that and (-1)^neg x (m + 1) x 2^e. -/
structure Real0 where
  neg : Bool
  m : Nat
  e : Int
  st : Bool
  deriving DecidableEq, Repr

/-- A fixed-point magnitude, inexact. -/
def fxReal (neg : Bool) (x : Nat) : Real0 := ⟨neg, x, -(fxP : Int), true⟩
/-- A magnitude too small to matter, and one just below m x 2^e. -/
def tinyReal (neg : Bool) : Real0 := ⟨neg, 1, -4096, true⟩
def belowReal (neg : Bool) (m : Nat) (e : Int) : Real0 := ⟨neg, m * 1 <<< 400 - 1, e - 400, true⟩
def exactReal (neg : Bool) (m : Nat) (e : Int) : Real0 := ⟨neg, m, e, false⟩

/-- The sum over k from `k` of p / (2k + 1), p divided by n^2 each time, with alternating signs where asked. -/
def atanGo (n : Nat) (alt : Bool) : Nat → Nat → Nat → Int → Int
  | 0, _, _, a => a
  | t + 1, k, p, a =>
    let v : Int := (p / (2 * k + 1) : Nat)
    atanGo n alt t (k + 1) (p / (n * n)) (if alt && k % 2 == 1 then a - v else a + v)

/-- arctan(1 / n), or with `alt` false artanh(1 / n). -/
def atanInv (n : Nat) (alt : Bool) : Nat := (atanGo n alt 220 0 (fxOne / n) 0).toNat

/-- ln 2 = 2 artanh(1 / 3), and pi = 16 arctan(1 / 5) - 4 arctan(1 / 239). -/
def fxLn2 : Nat := 2 * atanInv 3 false
def fxPi : Nat := 16 * atanInv 5 true - 4 * atanInv 239 true

/-- The sum of x^k / k!. -/
def expGo (x : Nat) : Nat → Nat → Nat → Nat → Nat
  | 0, _, _, a => a
  | t + 1, k, p, a => let q := fxMul p x / k; expGo x t (k + 1) q (a + q)

/-- e^x for 0 ≤ x ≤ 1. -/
def fxExp (x : Nat) : Nat := expGo x 130 1 fxOne fxOne

/-- e^-x for x ≥ 0. -/
def fxExpNeg (x : Nat) : Nat := let n := x / fxLn2 + 1; fxExp (n * fxLn2 - x) >>> n

/-- The alternating sum of z^(2k+1) / (2k+1)!. -/
def sinGo (z2 : Nat) : Nat → Nat → Nat → Int → Int
  | 0, _, _, a => a
  | t + 1, k, p, a =>
    sinGo z2 t (k + 1) (fxMul p z2 / ((2 * k + 2) * (2 * k + 3))) (if k % 2 = 1 then a - p else a + p)

/-- sin(pi x) for 0 < x ≤ 1/2. -/
def fxSinPi (x : Nat) : Nat := let z := fxMul fxPi x; (sinGo (fxMul z z) 90 0 z 0).toNat

/-- Bits of log2 y by repeated squaring, y in [1, 2). -/
def logGo : Nat → Nat → Nat → Nat
  | 0, _, a => a
  | t + 1, y, a =>
    let q := fxMul y y
    if 2 * fxOne ≤ q then logGo t (q / 2) (2 * a + 1) else logGo t q (2 * a)

/-- The sum of x^(2k+1) / (2k+1)!!. -/
def phiGo (x2 : Nat) : Nat → Nat → Nat → Nat → Nat
  | 0, _, _, a => a
  | t + 1, k, p, a => let q := fxMul p x2 / (2 * k + 3); phiGo x2 t (k + 1) q (a + q)

/-- The normal density at x, and the distribution less one half, for 0 ≤ x ≤ 16. -/
def fxDensity (x : Nat) : Nat :=
  fxExpNeg (fxMul x x / 2) * fxOne / isqrt (2 * fxPi * fxOne)
def fxHalfPhi (x : Nat) : Nat := fxMul (fxDensity x) (phiGo (fxMul x x) 900 0 x x)

/-- m x 2^e in fixed point; exact for e ≥ -640. -/
def fxOf (m : Nat) (e : Int) : Nat := if 0 ≤ e + fxP then m <<< (e + fxP).toNat else m >>> (-(e + fxP)).toNat

/-- A signed fixed-point value as a real. -/
def fxSigned (v : Int) : Real0 := if 0 ≤ v then fxReal false v.toNat else fxReal true ((-v).toNat - 1)

/-! The functions at a finite nonzero A = (-1)^neg x m x 2^e. -/

def isPow2 (m : Nat) : Bool := decide (m = 2 ^ Nat.log2 m)

def rcpR (neg : Bool) (m : Nat) (e : Int) : Real0 := ⟨neg, 1 <<< 400 / m, -400 - e, decide (1 <<< 400 % m ≠ 0)⟩
def sqrtR (m : Nat) (e : Int) : Real0 :=
  let x := if e % 2 = 0 then m <<< 400 else 2 * m <<< 400
  let r := isqrt x
  ⟨false, r, (if e % 2 = 0 then e else e - 1) / 2 - 200, decide (r * r ≠ x)⟩
/-- 1 / sqrt A is dyadic only for a power of four. -/
def rsqR (m : Nat) (e : Int) : Real0 :=
  let top := (Nat.log2 m : Int) + e
  if isPow2 m ∧ top % 2 = 0 then exactReal false 1 (-(top / 2))
  else
    let (m1, e1) := if e % 2 = 0 then (m, e) else (2 * m, e - 1)
    ⟨false, isqrt (1 <<< 800 / m1), -400 - e1 / 2, true⟩
/-- 2^A is dyadic only for an integral A. -/
def exp2R (neg : Bool) (m : Nat) (e : Int) : Real0 :=
  if 12 ≤ (Nat.log2 m : Int) + e then (if neg then tinyReal false else exactReal false 1 5000)
  else
    let x := fxOf m e
    let v : Int := if neg then -(x : Int) else x
    let i := v / (fxOne : Int)
    let f := (v - i * fxOne).toNat
    if f = 0 then exactReal false 1 i else ⟨false, fxExp (fxMul f fxLn2), i - fxP, true⟩
/-- log2 A is rational only for a power of two. At A = 1 it is zero, whose sign R290 does not state: +0, DESIGN CHOICE (log entry 110). -/
def log2R (m : Nat) (e : Int) : Real0 :=
  let n := (Nat.log2 m : Int) + e
  if isPow2 m then exactReal (decide (n < 0)) n.natAbs 0
  else
    let y := m <<< (fxP - Nat.log2 m)
    let v : Int := n * (1 <<< 300 : Nat) + (logGo 300 y 0 : Nat)
    if 0 ≤ v then ⟨false, v.toNat, -300, true⟩ else ⟨true, (-v).toNat - 1, -300, true⟩
/-- sin(pi A): rational only at multiples of one half. -/
def sinR (neg : Bool) (m : Nat) (e : Int) : Real0 :=
  let x := fxOf m e % (2 * fxOne)
  let n := if fxOne ≤ x then !neg else neg
  let y := x % fxOne
  let z := if fxOne / 2 < y then fxOne - y else y
  if z = 0 then exactReal neg 0 0 else if z = fxOne / 2 then exactReal n 1 0 else fxReal n (fxSinPi z)
def cosR (m : Nat) (e : Int) : Real0 :=
  let x := fxOf m e % (2 * fxOne)
  let y := if fxOne < x then 2 * fxOne - x else x
  if y = fxOne / 2 then exactReal false 0 0
  else if y = 0 then exactReal false 1 0
  else if y = fxOne then exactReal true 1 0
  else if y < fxOne / 2 then fxReal false (fxSinPi (fxOne / 2 - y)) else fxReal true (fxSinPi (y - fxOne / 2))

/-- |A| is at least 2^k. -/
def bigR (m : Nat) (e : Int) (k : Int) : Bool := decide (k ≤ (Nat.log2 m : Int) + e)

def sigmR (neg : Bool) (m : Nat) (e : Int) : Real0 :=
  if bigR m e 9 then (if neg then tinyReal false else belowReal false 1 0)
  else
    let x := fxExpNeg (fxOf m e)
    if x = 0 then (if neg then tinyReal false else belowReal false 1 0)
    else fxReal false ((if neg then x else fxOne) * fxOne / (fxOne + x))
def dsigmR (m : Nat) (e : Int) : Real0 :=
  if bigR m e 9 then tinyReal false
  else
    let x := fxExpNeg (fxOf m e)
    if x = 0 then tinyReal false else fxReal false (x * fxOne * fxOne / ((fxOne + x) * (fxOne + x)))
def tanhR (neg : Bool) (m : Nat) (e : Int) : Real0 :=
  if bigR m e 8 then belowReal neg 1 0
  else
    let x := fxExpNeg (2 * fxOf m e)
    if x = 0 then belowReal neg 1 0 else fxReal neg ((fxOne - x) * fxOne / (fxOne + x))
def dtanhR (m : Nat) (e : Int) : Real0 :=
  if bigR m e 8 then tinyReal false
  else
    let x := fxExpNeg (2 * fxOf m e)
    if x = 0 then tinyReal false else fxReal false (4 * x * fxOne * fxOne / ((fxOne + x) * (fxOne + x)))
def geluR (neg : Bool) (m : Nat) (e : Int) : Real0 :=
  if bigR m e 4 then (if neg then tinyReal true else belowReal false m e)
  else
    let h := fxHalfPhi (fxOf m e)
    ⟨neg, m * (if neg then fxOne / 2 - h else fxOne / 2 + h), e - fxP, true⟩
def dgeluR (neg : Bool) (m : Nat) (e : Int) : Real0 :=
  if bigR m e 4 then (if neg then tinyReal true else ⟨false, 1 <<< 400, -400, true⟩)
  else
    let x := fxOf m e
    let v : Int := (fxHalfPhi x + fxMul x (fxDensity x) : Nat)
    fxSigned (if neg then fxOne / 2 - v else fxOne / 2 + v)

/-! Results in a format. -/

/-- A correct result: rounded once under .rn (R290). -/
def correctF (f : Fmt) (ftz : Bool) (r : Real0) : Nat × Nat := roundF f { ftz := ftz } r.neg r.m r.e r.st

/-- A faithful result (R290): the exact value when it is representable, else the neighbour the unit chooses; beyond the largest
finite value, the overflow of R182. -/
def faithfulF (f : Fmt) (ftz : Bool) (op fmt operand : Nat) (r : Real0) : Nat × Nat :=
  if r.m = 0 ∧ !r.st then (signBit f r.neg, 0)
  else
    let x := roundF f { mode := 1, ftz := ftz } r.neg r.m r.e r.st
    if x.2 = 0 then x
    else
      let away := Config.faithfulUp op fmt operand != r.neg
      let y := if away then roundF f { mode := 5, ftz := ftz } r.neg r.m r.e r.st else x
      if y.2 / 4 % 2 = 1 then (infPat f r.neg, 5) else y

/-- A value of zero whose sign the specification does not give: the unit's choice again. -/
def openZero (f : Fmt) (op fmt operand : Nat) : Nat × Nat := (signBit f (!Config.faithfulUp op fmt operand), 0)

/-- The special-function words 0x58 to 0x5E on one pattern (R177, R290). -/
def sfuF (t : Nat) (op : Nat) (ftz : Bool) (a : Nat) : Nat × Nat :=
  let f := fmtTy t
  let nanOut : Nat × Nat := (defNan f, 16)
  match decF f ftz a with
  | .nan n s p => (encNan f n p, if s then 16 else 0)
  | .inf n =>
    match op with
    | 0x58 => (signBit f n, 0)
    | 0x59 => if n then nanOut else (0, 0)
    | 0x5A => if n then nanOut else (infPat f false, 0)
    | 0x5B => if n then (0, 0) else (infPat f false, 0)
    | 0x5C => if n then nanOut else (infPat f false, 0)
    | _ => nanOut
  | .num n 0 _ =>
    match op with
    | 0x58 => (infPat f n, 8)
    | 0x59 => (infPat f n, 8)
    | 0x5A => (signBit f n, 0)
    | 0x5B => ((encF f {} (.num false 1 0)).1, 0)
    | 0x5C => (infPat f true, 8)
    | 0x5D => (signBit f n, 0)
    | _ => ((encF f {} (.num false 1 0)).1, 0)
  | .num n m e =>
    match op with
    | 0x58 => correctF f ftz (rcpR n m e)
    | 0x59 => if n then nanOut else faithfulF f ftz op t a (rsqR m e)
    | 0x5A => if n then nanOut else correctF f ftz (sqrtR m e)
    | 0x5B => faithfulF f ftz op t a (exp2R n m e)
    | 0x5C => if n then nanOut else faithfulF f ftz op t a (log2R m e)
    | 0x5D => faithfulF f ftz op t a (sinR n m e)
    | _ => faithfulF f ftz op t a (cosR m e)

/-- `v.act` on one pattern (R291): fn 0 relu, 1 htanh, 2 sigm, 3 tanh, 4 gelu; `d` its derivative. -/
def actF (t : Nat) (fn : Nat) (d ftz : Bool) (a : Nat) : Nat × Nat :=
  let f := fmtTy t
  let op := 0x5F * 256 + fn + (if d then 8 else 0)
  let lit (neg : Bool) (m : Nat) (e : Int) : Nat × Nat := if m = 0 then (signBit f neg, 0) else ((encF f {} (.num neg m e)).1, 0)
  match decF f ftz a with
  | .nan n s p => (encNan f n p, if s then 16 else 0)
  | .inf n =>
    match fn, d with
    | 0, false => if n then (0, 0) else (infPat f false, 0)
    | 1, false => lit n 1 0
    | 2, false => lit false (if n then 0 else 1) 0
    | 3, false => lit n 1 0
    | _, false => if n then (signBit f true, 0) else (infPat f false, 0)
    | 4, true => if n then (signBit f true, 0) else lit false 1 0
    | _, true => (0, 0)
  | .num n 0 _ =>
    match fn, d with
    | 0, _ => (0, 0)
    | 1, false => (signBit f n, 0)
    | 1, true => lit false 1 0
    | 2, false => lit false 1 (-1)
    | 2, true => lit false 1 (-2)
    | 3, false => openZero f op t a
    | 3, true => lit false 1 0
    | _, false => openZero f op t a
    | _, true => lit false 1 (-1)
  | .num n m e =>
    let self : Nat × Nat := encF f { ftz := ftz } (.num n m e)
    let one := bigR m e 0
    match fn, d with
    | 0, false => if n then (0, 0) else self
    | 0, true => if n then (0, 0) else lit false 1 0
    | 1, false => if one then lit n 1 0 else self
    | 1, true => if one then (0, 0) else lit false 1 0
    | 2, false => faithfulF f ftz op t a (sigmR n m e)
    | 2, true => faithfulF f ftz op t a (dsigmR m e)
    | 3, false => faithfulF f ftz op t a (tanhR n m e)
    | 3, true => faithfulF f ftz op t a (dtanhR m e)
    | _, false => faithfulF f ftz op t a (geluR n m e)
    | _, true => faithfulF f ftz op t a (dgeluR n m e)

end Sys2Proof.Machine
end

