-- ==== Sys2Proof/Machine/Sfu.lean ====
section
/-! DEFINITION. The special-function words (R289 to R291): a word enqueues its block at the partition's unit, and its results
arrive, in issue order, by the event SFU_RESULT_WRITE. -/

namespace Sys2Proof.Machine

/-- Enqueue a block of results with the flags they raise. -/
def sfuWord (i : Instr) (w : VWord) (s : State) (f : Nat → Nat × Nat) : Host.Outcome State Fault Refusal :=
  runWord i w.msel.toNat false s (fun s x =>
    match tileHold s x w true false with
    | some r => r
    | none =>
      let out := (blockCells (rowsV w) (colsV w)).flatMap (fun c =>
        (lanesOf x.active).map (fun l =>
          ((w.d.toNat + 16 * c.1 + c.2) * 64 + l, each1F (widV w) f (readSrc x.g w.a.toNat (fragPair w) c.1 c.2 l))))
      let flags := BitVec.ofNat 5 (out.foldl (fun a r => a ||| r.2.2) 0)
      .ok (launchOp s x.g.gid x.g.ctx x.g.core .sfu (.sfu x.g.core x.g.part (out.map (fun r => (r.1, r.2.1))) flags)))

def execVRcp (w : VWord) (s : State) : Host.Outcome State Fault Refusal :=
  sfuWord (.vRcp w) w s (sfuF w.ty.toNat 0x58 (w.fn.getLsbD 2))
def execVRsq (w : VWord) (s : State) : Host.Outcome State Fault Refusal :=
  sfuWord (.vRsq w) w s (sfuF w.ty.toNat 0x59 (w.fn.getLsbD 2))
def execVSqrt (w : VWord) (s : State) : Host.Outcome State Fault Refusal :=
  sfuWord (.vSqrt w) w s (sfuF w.ty.toNat 0x5A (w.fn.getLsbD 2))
def execVExp2 (w : VWord) (s : State) : Host.Outcome State Fault Refusal :=
  sfuWord (.vExp2 w) w s (sfuF w.ty.toNat 0x5B (w.fn.getLsbD 2))
def execVLog2 (w : VWord) (s : State) : Host.Outcome State Fault Refusal :=
  sfuWord (.vLog2 w) w s (sfuF w.ty.toNat 0x5C (w.fn.getLsbD 2))
def execVSin (w : VWord) (s : State) : Host.Outcome State Fault Refusal :=
  sfuWord (.vSin w) w s (sfuF w.ty.toNat 0x5D (w.fn.getLsbD 2))
def execVCos (w : VWord) (s : State) : Host.Outcome State Fault Refusal :=
  sfuWord (.vCos w) w s (sfuF w.ty.toNat 0x5E (w.fn.getLsbD 2))
def execVAct (w : VWord) (s : State) : Host.Outcome State Fault Refusal :=
  sfuWord (.vAct w) w s (actF w.ty.toNat (w.fn.toNat % 8) (w.fn.getLsbD 3) (w.fn.getLsbD 4))

/-- The oldest queued result of a partition's unit (R289). -/
def sfuFirst (s : State) (core part id : Nat) : Bool :=
  s.pend.all (fun f => match f.op with | .sfu c p _ _ => !(c == core && p == part && decide (f.id < id)) | _ => true)

/-- SFU_RESULT_WRITE: the results of the oldest queued word of a unit reach their registers and raise their flags. -/
def execSfuResultWrite (id : Nat) (s : State) : Host.Outcome State Fault Refusal :=
  .next (match getF s id with
    | some fl => match fl.op with
      | .sfu core part regs flags =>
        if sfuFirst s core part id then
          match getG s fl.gid with
          | some g => dropF (putG s (raiseFlags (applyRegs g regs) flags)) id
          | none => dropF s id
        else s
      | _ => s
    | none => s)

end Sys2Proof.Machine
end

