-- ==== Sys2Proof/Machine/VConv.lean ====
section
/-! DEFINITION. The conversion words (R284 to R286) and quantisation under a tensor header record (R197 to R199, R287, R288). -/

namespace Sys2Proof.Machine

/-! `v.cvt`. -/

/-- The rounding of a `v.cvt` word (R284): its own mode, or its slot's in mode 5. -/
def cvtRound (s : State) (g : Group) (w : VWord) : Rnd :=
  let mode := w.fn.toNat % 8
  let own : Rnd := { mode := mode, r := if mode = 4 then fld w.fn.toNat 3 4 else 0, ftz := w.b.getLsbD 6,
                     ovf := if w.b.getLsbD 5 then 1 else 0 }
  if mode = 5 then (match gridSlot s g (fld w.fn.toNat 3 3) with | some t => t.round 0 | none => { own with mode := 0 }) else own

/-- One lane register of a conversion (R285): source register, old destination, register number j in the block. -/
def cvtLane (s : State) (g : Group) (w : VWord) (k : Rnd) (j lane : Nat) (a old : W64) : W64 × Nat :=
  let src := w.c.toNat % 32
  let dst := w.ty.toNat
  let ws := tyWidth src
  let wd := tyWidth dst
  let n := 64 / max ws wd
  let q := w.b.toNat % 32
  (List.range n).foldl (fun acc i =>
    let from_ := if ws < wd then q * n + i else i
    let into := if wd < ws then q * n + i else i
    let k1 := if k.mode = 4 then { k with rnd := rndBits s g j lane into (64 / wd) k.r } else k
    let r := convTy dst src k1 (elem ws from_ a)
    (setElem wd into r.1 acc.1, acc.2 ||| r.2)) (if wd < ws then old else 0#64, 0)

/-- `v.cvt` (R284). A word with stochastic rounding advances the draw count, in inactive lanes too, and also where it converts an integer type
to an integer type, which rounds nothing: DESIGN CHOICE (log entry 111). -/
def execVCvt (w : VWord) (s : State) : Host.Outcome State Fault Refusal :=
  runWord (.vCvt w) w.msel.toNat false s (fun s x =>
    match tileHold s x w true false with
    | some r => r
    | none =>
      let k := cvtRound s x.g w
      let ec := colsV w
      let g1 := writeF x.g ((blockCells (rowsV w) ec).flatMap (fun c =>
        (lanesOf x.active).map (fun l =>
          let d := w.d.toNat + 16 * c.1 + c.2
          (d, l, cvtLane s x.g w k (c.1 * ec + c.2) l (readSrc x.g w.a.toNat (fragPair w) c.1 c.2 l) (rv x.g d l)))))
      okG s (if k.mode = 4 then drawAfter g1 (rowsV w * ec) (64 / widV w) else g1))

/-! `v.pack` and `v.unpack` (R286). -/

/-- An element of width 2w with a type's signedness. -/
def readWide (t e : Nat) : Int := if tySigned t then toS (2 * tyWidth t) e else (e : Int)

def packLane (t : Nat) (sat : Bool) (a b : W64) : W64 :=
  let wd := tyWidth t
  let h := 32 / wd
  pack wd ((List.range (2 * h)).map (fun k =>
    let v := if k < h then elem (2 * wd) k a else elem (2 * wd) (k - h) b
    if sat then writeT t true (readWide t v) else v % 2 ^ wd))

def unpackLane (t hi : Nat) (a : W64) : W64 :=
  let wd := tyWidth t
  let h := 32 / wd
  pack (2 * wd) ((List.range h).map (fun k =>
    let v := elem wd (h * hi + k) a
    if tySigned t then wrap (2 * wd) (toS wd v) else v))

def execVPack (w : VWord) (s : State) : Host.Outcome State Fault Refusal :=
  vecWord (.vPack w) w s true false (fun a b _ => packLane (tyV w) (sat0 w) a b)
def execVUnpack (w : VWord) (s : State) : Host.Outcome State Fault Refusal :=
  vecWord (.vUnpack w) w s false false (fun a _ _ => unpackLane (tyV w) (if sat0 w then 1 else 0) a)

/-! Tensor header records (R197). -/

/-- The fields of a tensor header record that the quantising words use. -/
structure Tensor where
  d0 : Nat
  d1 : Nat
  d2 : Nat
  d3 : Nat
  fs : Slot16
  seed : Nat
  deriving DecidableEq, Repr

/-- Read a record: the fields, or the byte of its first malformed field (R197, R468). -/
def tensorDec (b : List Byte) : Tensor ⊕ Nat :=
  let q (k : Nat) : Nat := le b (8 * k) 8
  let d0 := fld (q 1) 0 16
  let d1 := fld (q 1) 16 16
  let d2 := fld (q 1) 32 16
  let d3 := fld (q 1) 48 16
  if fld (q 0) 57 7 ≠ 0 then .inr 0
  else if d0 = 0 then .inr 8
  else if d1 = 0 then .inr 10
  else if d2 = 0 then .inr 12
  else if d3 = 0 then .inr 14
  else match slotDec (q 2) (q 3) with
    | none => .inr 16
    | some t =>
      if t.rot ∧ d0 % t.n ≠ 0 then .inr 8
      else if fld (q 4) 57 7 ≠ 0 ∨ (!t.scale ∧ q 4 ≠ 0) then .inr 32
      else if fld (q 6) 40 24 ≠ 0 ∨ fld (q 6) 0 40 % 16 ≠ 0 then .inr 48
      else .inl { d0 := d0, d1 := d1, d2 := d2, d3 := d3, fs := t, seed := q 5 }

/-- What a quantising word knows once its record has arrived. -/
structure QuantCtx where
  t : Tensor
  g0 : Nat
  n : Nat
  deriving DecidableEq, Repr

/-- The checks of R287 and R288 on a record, lowest code first: code and index. -/
def quantBad (w : VWord) (scl : Bool) (g0 n : Nat) (b : List Byte) : QuantCtx ⊕ (Nat × Nat) :=
  match tensorDec b with
  | .inr o => .inr (2, o)
  | .inl t =>
    let fs := t.fs
    if (scl ∧ w.ty.toNat ≠ 12) ∨ (!scl ∧ w.ty.toNat ≠ elTy fs.el) then .inr (3, w.ty.toNat)
    else if !fs.scale then .inr (4, 0)
    else
      let off (m : Nat) : Bool := decide (n % m ≠ 0) || decide (g0 % m ≠ 0) || decide (t.d0 % m ≠ 0)
      if off fs.block || (fs.rot && off fs.n) then .inr (5, 0)
      else if t.d0 * t.d1 * t.d2 * t.d3 < g0 + n then .inr (6, 0)
      else .inl { t := t, g0 := g0, n := n }

/-- Run a quantising word: the record is read as one plain load (R287). -/
def quantWord (i : Instr) (w : VWord) (s : State) (scl : Bool) (useB : Bool)
    (f : State → Issue → QuantCtx → Group × List (Nat × W64)) : Host.Outcome State Fault Refusal :=
  runWord i 0 false s (fun s x =>
    let c := w.c.toNat - 352
    let a := (rs x.g c).toNat
    let n := rowsV w * colsV w * x.g.width * 2
    if a % 64 ≠ 0 then badW s 0x11 1 a 0
    else match laneCheck s x.g 0 a 64 1 1 false 1 with
      | .bad e => .bad (clearWalks s x.g.gid) { e with lane := none }
      | .miss p => .park (startWalk s x.g p) (.walk p)
      | .ok l =>
        match tileHold s x w true useB, readNow s x.g l.pas with
        | some r, _ => r
        | none, none => .park s (.read l.pas false)
        | none, some (.inl e) => .bad (clearWalks s x.g.gid) e
        | none, some (.inr (s1, b)) =>
          match quantBad w scl (rs x.g (c + 1)).toNat n b with
          | .inr (code, ix) => .bad (clearWalks s1 x.g.gid) { cls := 0x11, code := code, addr := a, index := ix }
          | .inl q =>
            let r := f s1 x q
            let s2 := clearWalks (putG s1 r.1) x.g.gid
            .ok (launchOp s2 x.g.gid x.g.ctx x.g.core .loads (.value r.2)))

/-! Rotation (R198). -/

/-- The sign flip of the element of global index G. -/
def flipBit (seed gi : Nat) : Bool :=
  let z := (seed + gi * 0x9E3779B97F4A7C15) % 2 ^ 64
  let z1 := ((z ^^^ (z >>> 29)) * 0xBF58476D1CE4E5B9) % 2 ^ 64
  (z1 ^^^ (z1 >>> 32)).testBit 63

/-- H(i, j) is -1. -/
def hadNeg (i j : Nat) : Bool := popc 6 (i &&& j) % 2 == 1

/-- Row i of the transform of a run: the terms with their signs. -/
def hadTerms (i : Nat) (l : List FV) : List FV :=
  ((List.range l.length).zip l).map (fun p => if hadNeg i p.1 then p.2.flip else p.2)

/-- Rotate values from global index g0: each row summed exactly and rounded once to f32 under .rn. -/
def rotate (t : Tensor) (g0 : Nat) (l : List FV) : List (Nat × Nat) :=
  let n := t.fs.n
  let x := ((List.range l.length).zip l).map (fun p => if flipBit t.seed (g0 + p.1) then p.2.flip else p.2)
  (List.range l.length).map (fun i =>
    let run := (x.drop (i / n * n)).take n
    dotF fmtF32 {} run [] (hadTerms (i % n) run))

/-! Quantising (R199). -/

/-- emax of R199 by element format code. -/
def emaxOf (c : Nat) : Int := [127, 15, 127, 8, 15, 3, 0, 2, 6, 14, 1, 3, 7, 15, 30].getD c 0

/-- floor(log2 |v|) of a finite nonzero value. -/
def logFV (v : FV) : Option Int := match v with | .num _ 0 _ => none | .num _ m e => some ((Nat.log2 m : Int) + e) | _ => none

/-- The scale of a block: E, and whether the block holds a NaN. -/
def blockScale (c : Nat) (l : List FV) : Nat × Bool :=
  if l.any FV.isNan then (0xFF, true)
  else if l.all FV.isZero then (0, false)
  else if l.any FV.isInf then (254, false)
  else
    let big := (l.filterMap logFV).foldl max (-1000)
    ((clampI 0 254 (big - emaxOf c + 127)).toNat, false)

/-- A value times 2^k. -/
def scaleFV (v : FV) (k : Int) : FV := match v with | .num n m e => .num n m (e + k) | v => v

/-- One element of a block with scale E: pattern and flags. -/
def quantElem (c : Nat) (e : Nat) (nan zero : Bool) (k : Rnd) (v : FV) : Nat × Nat :=
  let ty := elTy c
  if nan then (if elInt c then 0 else if c = 5 then 48 else defNan (fmtTy ty), 16)
  else if zero then (if c = 5 then 16 else 0, 0)
  else
    let y := scaleFV v (127 - (e : Int))
    if elInt c then let (r, fl) := floatToInt k (minTy ty) (maxTy ty) y; (wrap (tyWidth ty) r, fl)
    else encTy ty k y

/-- The f32 source patterns of a quantising word in position order (R288). -/
def quantSource (x : Issue) (w : VWord) : List Nat :=
  (blockCells (rowsV w) (colsV w)).flatMap (fun c =>
    (List.range x.g.width).flatMap (fun l =>
      let v := readSrc x.g w.a.toNat 0 c.1 c.2 l
      [elem 32 0 v, elem 32 1 v]))

/-- Where position t of a dense block with p sub-elements a register stands: register, lane, sub-element. -/
def densePos (base ec width p t : Nat) : Nat × Nat × Nat :=
  let j := t / (width * p)
  (base + 16 * (j / ec) + j % ec, t / p % width, t % p)

/-- Dense results written to the lanes of exec: register keys with values. `vals` in position order. -/
def denseWrite (x : Issue) (w : VWord) (wd : Nat) (vals : List Nat) : List (Nat × W64) :=
  let p := 64 / wd
  let regs := cdiv vals.length p
  (List.range regs).filterMap (fun r =>
    let (reg, lane, _) := densePos w.d.toNat (colsV w) x.g.width p (r * p)
    if x.exec.getLsbD lane then
      let part := (vals.drop (r * p)).take p
      let old := rv x.g reg lane
      some (reg * 64 + lane, r64 (((List.range part.length).zip part).foldl (fun a q => setFld a (q.1 * wd) wd q.2) old.toNat))
    else none)

/-- The flags of the positions whose result lane is in exec (log entry 98). -/
def denseFlags (x : Issue) (p : Nat) (fl : List Nat) : BitVec 5 :=
  BitVec.ofNat 5 (((List.range fl.length).zip fl).foldl (fun a q =>
    if x.exec.getLsbD (q.1 / p % x.g.width) then a ||| q.2 else a) 0)

/-- `v.quant` (R288, R199). With .scl it draws nothing (log entry 96), and the slot's ftz acts on the rotated values alone (log
entry 97). -/
def quantRun (w : VWord) (s : State) (x : Issue) (q : QuantCtx) : Group × List (Nat × W64) :=
  let fs := q.t.fs
  let scl := sat0 w
  let b := fs.block
  let src := (quantSource x w).map (decF fmtF32 false)
  let rot := if fs.rot then rotate q.t q.g0 src else []
  let y : List FV := if fs.rot then rot.map (fun r => decF fmtF32 fs.ftz r.1)
    else (quantSource x w).map (decF fmtF32 fs.ftz)
  let rfl : List Nat := if fs.rot then rot.map Prod.snd else List.replicate q.n 0
  let blocks := (List.range (q.n / b)).map (fun m => (y.drop (m * b)).take b)
  let scales := blocks.map (blockScale fs.el)
  if scl then
    let fl := ((List.range blocks.length).zip scales).map (fun m =>
      ((rfl.drop (m.1 * b)).take b).foldl (fun a z => a ||| z) (if m.2.2 then 16 else 0))
    (raiseFlags x.g (denseFlags x 8 fl), denseWrite x w 8 (scales.map Prod.fst))
  else
    let wd := widV w
    let p := 64 / wd
    let k0 := fs.round 0
    let out := ((List.range q.n).zip y).map (fun t =>
      let sc := scales.getD (t.1 / b) (0, false)
      let zero := (blocks.getD (t.1 / b) []).all FV.isZero
      let k := if fs.sr then { k0 with rnd := rndBits s x.g (t.1 / (x.g.width * p)) (t.1 / p % x.g.width) (t.1 % p) p fs.r } else k0
      quantElem fs.el sc.1 sc.2 zero k t.2)
    let fl := (out.zip rfl).map (fun r => r.1.2 ||| r.2)
    let g1 := raiseFlags x.g (denseFlags x p fl)
    (if fs.sr then drawAfter g1 (rowsV w * colsV w) p else g1, denseWrite x w wd (out.map Prod.fst))

def execVQuant (w : VWord) (s : State) : Host.Outcome State Fault Refusal :=
  quantWord (.vQuant w) w s (sat0 w) false (quantRun w)

/-- An element of a dequantised block as an exact value (R192, R196). -/
def dequantElem (fs : Slot16) (e x : Nat) : FV :=
  let ty := elTy fs.el
  if e = 255 then .nan false false 0
  else
    let v := if elInt fs.el then intFV (intTy ty x) else decTy ty fs.ftz x
    scaleFV v ((e : Int) - 127)

/-- Element t of a block read densely by every lane. -/
def denseRead (x : Issue) (w : VWord) (code wd t : Nat) : Nat :=
  let p := 64 / wd
  let (i, lane, k) := densePos 0 (colsV w) x.g.width p t
  elem wd k (readSrc x.g code 0 (i / 16) (i % 16) lane)

/-- `v.dequant` (R288, R198). -/
def dequantRun (w : VWord) (_s : State) (x : Issue) (q : QuantCtx) : Group × List (Nat × W64) :=
  let fs := q.t.fs
  let wd := widV w
  let v := (List.range q.n).map (fun t =>
    dequantElem fs (denseRead x w w.b.toNat 8 (t / fs.block)) (denseRead x w w.a.toNat wd t))
  let k : Rnd := { ftz := fs.ftz }
  let out := (List.range q.n).map (fun t =>
    if fs.rot then
      let run := (v.drop (t / fs.n * fs.n)).take fs.n
      let (r, inv) := dotFV 0 run [] (hadTerms (t % fs.n) run)
      let o := encF fmtF32 k (scaleFV r (if fs.n = 64 then -6 else -5))
      (if flipBit q.t.seed (q.g0 + t) then (o.1 + 2 ^ 31) % 2 ^ 32 else o.1, o.2 ||| inv)
    else encF fmtF32 k (v.getD t (.num false 0 0)))
  (raiseFlags x.g (denseFlags x 2 (out.map Prod.snd)), denseWrite x w 32 (out.map Prod.fst))

def execVDequant (w : VWord) (s : State) : Host.Outcome State Fault Refusal :=
  quantWord (.vDequant w) w s false true (dequantRun w)

end Sys2Proof.Machine
end

