-- ==== Sys2Proof/Machine/Dispatch.lean ====
section
/-! DEFINITION. One arm per row of the opcode table, each a direct call of its meaning. -/

namespace Sys2Proof.Machine

/-- The effect of one instruction, cane command, pair half or event. -/
def exec (i : Instr) (s : State) : Host.Outcome State Fault Refusal :=
  match i with
  | .sAdd w => Sys2Proof.Machine.execSAdd w s
  | .sSub w => Sys2Proof.Machine.execSSub w s
  | .sMul w => Sys2Proof.Machine.execSMul w s
  | .sMulh w => Sys2Proof.Machine.execSMulh w s
  | .sDiv w => Sys2Proof.Machine.execSDiv w s
  | .sRem w => Sys2Proof.Machine.execSRem w s
  | .sAnd w => Sys2Proof.Machine.execSAnd w s
  | .sOr w => Sys2Proof.Machine.execSOr w s
  | .sXor w => Sys2Proof.Machine.execSXor w s
  | .sAndn w => Sys2Proof.Machine.execSAndn w s
  | .sShl w => Sys2Proof.Machine.execSShl w s
  | .sShr w => Sys2Proof.Machine.execSShr w s
  | .sSar w => Sys2Proof.Machine.execSSar w s
  | .sMin w => Sys2Proof.Machine.execSMin w s
  | .sMax w => Sys2Proof.Machine.execSMax w s
  | .sClz w => Sys2Proof.Machine.execSClz w s
  | .sPopc w => Sys2Proof.Machine.execSPopc w s
  | .sBfx w => Sys2Proof.Machine.execSBfx w s
  | .sBfi w => Sys2Proof.Machine.execSBfi w s
  | .sSxt w => Sys2Proof.Machine.execSSxt w s
  | .sZxt w => Sys2Proof.Machine.execSZxt w s
  | .sCmp w => Sys2Proof.Machine.execSCmp w s
  | .sSel w => Sys2Proof.Machine.execSSel w s
  | .sMov w => Sys2Proof.Machine.execSMov w s
  | .sLi w => Sys2Proof.Machine.execSLi w s
  | .sLih w => Sys2Proof.Machine.execSLih w s
  | .sLea w => Sys2Proof.Machine.execSLea w s
  | .sSr w => Sys2Proof.Machine.execSSr w s
  | .br w => Sys2Proof.Machine.execBr w s
  | .bc w => Sys2Proof.Machine.execBc w s
  | .bv w => Sys2Proof.Machine.execBv w s
  | .join w => Sys2Proof.Machine.execJoin w s
  | .bx w => Sys2Proof.Machine.execBx w s
  | .bt w => Sys2Proof.Machine.execBt w s
  | .call w => Sys2Proof.Machine.execCall w s
  | .callx w => Sys2Proof.Machine.execCallx w s
  | .ret w => Sys2Proof.Machine.execRet w s
  | .loop w => Sys2Proof.Machine.execLoop w s
  | .exit w => Sys2Proof.Machine.execExit w s
  | .spawn w => Sys2Proof.Machine.execSpawn w s
  | .launch w => Sys2Proof.Machine.execLaunch w s
  | .regroup w => Sys2Proof.Machine.execRegroup w s
  | .yield w => Sys2Proof.Machine.execYield w s
  | .nap w => Sys2Proof.Machine.execNap w s
  | .ipf w => Sys2Proof.Machine.execIpf w s
  | .ipin w => Sys2Proof.Machine.execIpin w s
  | .iunpin w => Sys2Proof.Machine.execIunpin w s
  | .vAdd w => Sys2Proof.Machine.execVAdd w s
  | .vSub w => Sys2Proof.Machine.execVSub w s
  | .vMul w => Sys2Proof.Machine.execVMul w s
  | .vMulh w => Sys2Proof.Machine.execVMulh w s
  | .vMad w => Sys2Proof.Machine.execVMad w s
  | .vAbsd w => Sys2Proof.Machine.execVAbsd w s
  | .vMin w => Sys2Proof.Machine.execVMin w s
  | .vMax w => Sys2Proof.Machine.execVMax w s
  | .vAnd w => Sys2Proof.Machine.execVAnd w s
  | .vOr w => Sys2Proof.Machine.execVOr w s
  | .vXor w => Sys2Proof.Machine.execVXor w s
  | .vAndn w => Sys2Proof.Machine.execVAndn w s
  | .vShl w => Sys2Proof.Machine.execVShl w s
  | .vShr w => Sys2Proof.Machine.execVShr w s
  | .vSar w => Sys2Proof.Machine.execVSar w s
  | .vClz w => Sys2Proof.Machine.execVClz w s
  | .vPopc w => Sys2Proof.Machine.execVPopc w s
  | .vBfx w => Sys2Proof.Machine.execVBfx w s
  | .vBfi w => Sys2Proof.Machine.execVBfi w s
  | .vSel w => Sys2Proof.Machine.execVSel w s
  | .vCmp w => Sys2Proof.Machine.execVCmp w s
  | .vMov w => Sys2Proof.Machine.execVMov w s
  | .vLi w => Sys2Proof.Machine.execVLi w s
  | .vFroms w => Sys2Proof.Machine.execVFroms w s
  | .vTos w => Sys2Proof.Machine.execVTos w s
  | .vFadd w => Sys2Proof.Machine.execVFadd w s
  | .vFsub w => Sys2Proof.Machine.execVFsub w s
  | .vFmul w => Sys2Proof.Machine.execVFmul w s
  | .vFma w => Sys2Proof.Machine.execVFma w s
  | .vFmin w => Sys2Proof.Machine.execVFmin w s
  | .vFmax w => Sys2Proof.Machine.execVFmax w s
  | .vFcmp w => Sys2Proof.Machine.execVFcmp w s
  | .vFrnd w => Sys2Proof.Machine.execVFrnd w s
  | .vFclass w => Sys2Proof.Machine.execVFclass w s
  | .vFdot2 w => Sys2Proof.Machine.execVFdot2 w s
  | .vCvt w => Sys2Proof.Machine.execVCvt w s
  | .vQuant w => Sys2Proof.Machine.execVQuant w s
  | .vDequant w => Sys2Proof.Machine.execVDequant w s
  | .vPack w => Sys2Proof.Machine.execVPack w s
  | .vUnpack w => Sys2Proof.Machine.execVUnpack w s
  | .vRcp w => Sys2Proof.Machine.execVRcp w s
  | .vRsq w => Sys2Proof.Machine.execVRsq w s
  | .vSqrt w => Sys2Proof.Machine.execVSqrt w s
  | .vExp2 w => Sys2Proof.Machine.execVExp2 w s
  | .vLog2 w => Sys2Proof.Machine.execVLog2 w s
  | .vSin w => Sys2Proof.Machine.execVSin w s
  | .vCos w => Sys2Proof.Machine.execVCos w s
  | .vAct w => Sys2Proof.Machine.execVAct w s
  | .xShf w => Sys2Proof.Machine.execXShf w s
  | .xBfly w => Sys2Proof.Machine.execXBfly w s
  | .xBcast w => Sys2Proof.Machine.execXBcast w s
  | .xScan w => Sys2Proof.Machine.execXScan w s
  | .xRed w => Sys2Proof.Machine.execXRed w s
  | .xCompact w => Sys2Proof.Machine.execXCompact w s
  | .voteAny w => Sys2Proof.Machine.execVoteAny w s
  | .voteAll w => Sys2Proof.Machine.execVoteAll w s
  | .voteBal w => Sys2Proof.Machine.execVoteBal w s
  | .mAnd w => Sys2Proof.Machine.execMAnd w s
  | .mOr w => Sys2Proof.Machine.execMOr w s
  | .mXor w => Sys2Proof.Machine.execMXor w s
  | .mAndn w => Sys2Proof.Machine.execMAndn w s
  | .mPopc w => Sys2Proof.Machine.execMPopc w s
  | .mFfs w => Sys2Proof.Machine.execMFfs w s
  | .mSet w => Sys2Proof.Machine.execMSet w s
  | .ldG w => Sys2Proof.Machine.execLdG w s
  | .stG w => Sys2Proof.Machine.execStG w s
  | .ldS w => Sys2Proof.Machine.execLdS w s
  | .stS w => Sys2Proof.Machine.execStS w s
  | .ldL w => Sys2Proof.Machine.execLdL w s
  | .stL w => Sys2Proof.Machine.execStL w s
  | .ldX w => Sys2Proof.Machine.execLdX w s
  | .atAdd w => Sys2Proof.Machine.execAtAdd w s
  | .atSub w => Sys2Proof.Machine.execAtSub w s
  | .atMin w => Sys2Proof.Machine.execAtMin w s
  | .atMax w => Sys2Proof.Machine.execAtMax w s
  | .atAnd w => Sys2Proof.Machine.execAtAnd w s
  | .atOr w => Sys2Proof.Machine.execAtOr w s
  | .atXor w => Sys2Proof.Machine.execAtXor w s
  | .atXchg w => Sys2Proof.Machine.execAtXchg w s
  | .atCas w => Sys2Proof.Machine.execAtCas w s
  | .atCas2 w => Sys2Proof.Machine.execAtCas2 w s
  | .atFadd w => Sys2Proof.Machine.execAtFadd w s
  | .fence w => Sys2Proof.Machine.execFence w s
  | .barInit w => Sys2Proof.Machine.execBarInit w s
  | .barArv w => Sys2Proof.Machine.execBarArv w s
  | .barWait w => Sys2Proof.Machine.execBarWait w s
  | .barSync w => Sys2Proof.Machine.execBarSync w s
  | .cbar w => Sys2Proof.Machine.execCbar w s
  | .lrInit w => Sys2Proof.Machine.execLrInit w s
  | .lrAwait w => Sys2Proof.Machine.execLrAwait w s
  | .lrRel w => Sys2Proof.Machine.execLrRel w s
  | .lrFill w => Sys2Proof.Machine.execLrFill w s
  | .lrFillPut w => Sys2Proof.Machine.execLrFillPut w s
  | .cpIn w => Sys2Proof.Machine.execCpIn w s
  | .cpOut w => Sys2Proof.Machine.execCpOut w s
  | .cpG w => Sys2Proof.Machine.execCpG w s
  | .cpHalo w => Sys2Proof.Machine.execCpHalo w s
  | .cpMc w => Sys2Proof.Machine.execCpMc w s
  | .ccPrf w => Sys2Proof.Machine.execCcPrf w s
  | .ccWb w => Sys2Proof.Machine.execCcWb w s
  | .ccInv w => Sys2Proof.Machine.execCcInv w s
  | .ccWays w => Sys2Proof.Machine.execCcWays w s
  | .mxMma w => Sys2Proof.Machine.execMxMma w s
  | .mxMmaf w => Sys2Proof.Machine.execMxMmaf w s
  | .mxZero w => Sys2Proof.Machine.execMxZero w s
  | .mxLd w => Sys2Proof.Machine.execMxLd w s
  | .mxSt w => Sys2Proof.Machine.execMxSt w s
  | .mxWait w => Sys2Proof.Machine.execMxWait w s
  | .mxRel w => Sys2Proof.Machine.execMxRel w s
  | .plTake w => Sys2Proof.Machine.execPlTake w s
  | .plPass w => Sys2Proof.Machine.execPlPass w s
  | .plPassFree w => Sys2Proof.Machine.execPlPassFree w s
  | .spOpen w => Sys2Proof.Machine.execSpOpen w s
  | .spKeep w => Sys2Proof.Machine.execSpKeep w s
  | .spDrop w => Sys2Proof.Machine.execSpDrop w s
  | .fbSet w => Sys2Proof.Machine.execFbSet w s
  | .fbTab w => Sys2Proof.Machine.execFbTab w s
  | .fbTabSet w => Sys2Proof.Machine.execFbTabSet w s
  | .ebSend w => Sys2Proof.Machine.execEbSend w s
  | .paOpen w => Sys2Proof.Machine.execPaOpen w s
  | .paOpenRp w => Sys2Proof.Machine.execPaOpenRp w s
  | .paClose w => Sys2Proof.Machine.execPaClose w s
  | .acGet w => Sys2Proof.Machine.execAcGet w s
  | .acWait w => Sys2Proof.Machine.execAcWait w s
  | .wvCommit w => Sys2Proof.Machine.execWvCommit w s
  | .rngDraw w => Sys2Proof.Machine.execRngDraw w s
  | .twXin w => Sys2Proof.Machine.execTwXin w s
  | .twXout w => Sys2Proof.Machine.execTwXout w s
  | .twRun w => Sys2Proof.Machine.execTwRun w s
  | .twWait w => Sys2Proof.Machine.execTwWait w s
  | .farAdd w => Sys2Proof.Machine.execFarAdd w s
  | .farFence w => Sys2Proof.Machine.execFarFence w s
  | .caneVAdd c => Sys2Proof.Machine.execCaneVAdd c s
  | .caneVSub c => Sys2Proof.Machine.execCaneVSub c s
  | .caneVMul c => Sys2Proof.Machine.execCaneVMul c s
  | .caneVMad c => Sys2Proof.Machine.execCaneVMad c s
  | .caneVMin c => Sys2Proof.Machine.execCaneVMin c s
  | .caneVMax c => Sys2Proof.Machine.execCaneVMax c s
  | .caneVAnd c => Sys2Proof.Machine.execCaneVAnd c s
  | .caneVOr c => Sys2Proof.Machine.execCaneVOr c s
  | .caneVXor c => Sys2Proof.Machine.execCaneVXor c s
  | .caneVAndn c => Sys2Proof.Machine.execCaneVAndn c s
  | .caneVShl c => Sys2Proof.Machine.execCaneVShl c s
  | .caneVShr c => Sys2Proof.Machine.execCaneVShr c s
  | .caneVSar c => Sys2Proof.Machine.execCaneVSar c s
  | .caneVCmp c => Sys2Proof.Machine.execCaneVCmp c s
  | .caneVMov c => Sys2Proof.Machine.execCaneVMov c s
  | .caneVLi c => Sys2Proof.Machine.execCaneVLi c s
  | .cPush c => Sys2Proof.Machine.execCPush c s
  | .cElse c => Sys2Proof.Machine.execCElse c s
  | .cPop c => Sys2Proof.Machine.execCPop c s
  | .cBfa c => Sys2Proof.Machine.execCBfa c s
  | .netSend w => Sys2Proof.Machine.execNetSend w s
  | .netGet w => Sys2Proof.Machine.execNetGet w s
  | .netArm w => Sys2Proof.Machine.execNetArm w s
  | .cntInit w => Sys2Proof.Machine.execCntInit w s
  | .cntWait w => Sys2Proof.Machine.execCntWait w s
  | .cntGet w => Sys2Proof.Machine.execCntGet w s
  | .collStep w => Sys2Proof.Machine.execCollStep w s
  | .trap w => Sys2Proof.Machine.execTrap w s
  | .rte w => Sys2Proof.Machine.execRte w s
  | .sysGet w => Sys2Proof.Machine.execSysGet w s
  | .sysSet w => Sys2Proof.Machine.execSysSet w s
  | .bkpt w => Sys2Proof.Machine.execBkpt w s
  | .prio w => Sys2Proof.Machine.execPrio w s
  | .nop w => Sys2Proof.Machine.execNop w s
  | .halt w => Sys2Proof.Machine.execHalt w s
  | .pairVAdd h => Sys2Proof.Machine.execPairVAdd h s
  | .pairVSub h => Sys2Proof.Machine.execPairVSub h s
  | .pairVMul h => Sys2Proof.Machine.execPairVMul h s
  | .pairVMulh h => Sys2Proof.Machine.execPairVMulh h s
  | .pairVAbsd h => Sys2Proof.Machine.execPairVAbsd h s
  | .pairVMin h => Sys2Proof.Machine.execPairVMin h s
  | .pairVMax h => Sys2Proof.Machine.execPairVMax h s
  | .pairVAnd h => Sys2Proof.Machine.execPairVAnd h s
  | .pairVOr h => Sys2Proof.Machine.execPairVOr h s
  | .pairVXor h => Sys2Proof.Machine.execPairVXor h s
  | .pairVAndn h => Sys2Proof.Machine.execPairVAndn h s
  | .pairVShl h => Sys2Proof.Machine.execPairVShl h s
  | .pairVShr h => Sys2Proof.Machine.execPairVShr h s
  | .pairVSar h => Sys2Proof.Machine.execPairVSar h s
  | .pairVMov h => Sys2Proof.Machine.execPairVMov h s
  | .pairVClz h => Sys2Proof.Machine.execPairVClz h s
  | .pairVPopc h => Sys2Proof.Machine.execPairVPopc h s
  | .pairVFadd h => Sys2Proof.Machine.execPairVFadd h s
  | .pairVFsub h => Sys2Proof.Machine.execPairVFsub h s
  | .pairVFmul h => Sys2Proof.Machine.execPairVFmul h s
  | .pairVFmin h => Sys2Proof.Machine.execPairVFmin h s
  | .pairVFmax h => Sys2Proof.Machine.execPairVFmax h s
  | .pairVFrnd h => Sys2Proof.Machine.execPairVFrnd h s
  | .pairVFclass h => Sys2Proof.Machine.execPairVFclass h s
  | .atinv w => Sys2Proof.Machine.execAtinv w s
  | .accessTableInvalidationDone => Sys2Proof.Machine.execAccessTableInvalidationDone s
  | .wake w => Sys2Proof.Machine.execWake w s
  | .launchRecordCheck ctx queue => Sys2Proof.Machine.execLaunchRecordCheck ctx queue s
  | .gridStart ctx queue => Sys2Proof.Machine.execGridStart ctx queue s
  | .clusterPlacement pick => Sys2Proof.Machine.execClusterPlacement pick s
  | .taskGroupFormation ctx grid core => Sys2Proof.Machine.execTaskGroupFormation ctx grid core s
  | .gatherWindowExpiry ctx grid core => Sys2Proof.Machine.execGatherWindowExpiry ctx grid core s
  | .taskGroupPlacement core pick => Sys2Proof.Machine.execTaskGroupPlacement core pick s
  | .taskSteal ctx core => Sys2Proof.Machine.execTaskSteal ctx core s
  | .candidatePick core part => Sys2Proof.Machine.execCandidatePick core part s
  | .icacheFill gid slotB => Sys2Proof.Machine.execIcacheFill gid slotB s
  | .spinFloorTimeout gid slotB => Sys2Proof.Machine.execSpinFloorTimeout gid slotB s
  | .loadResultWrite id replaced => Sys2Proof.Machine.execLoadResultWrite id replaced s
  | .wcbTimeout id => Sys2Proof.Machine.execWcbTimeout id s
  | .homeStorePerform id => Sys2Proof.Machine.execHomeStorePerform id s
  | .l1RecallReceive id => Sys2Proof.Machine.execL1RecallReceive id s
  | .recallBeat die => Sys2Proof.Machine.execRecallBeat die s
  | .beatReceive core die => Sys2Proof.Machine.execBeatReceive core die s
  | .beatTimeout core die => Sys2Proof.Machine.execBeatTimeout core die s
  | .homeAtomicPerform id => Sys2Proof.Machine.execHomeAtomicPerform id s
  | .l2Fill id bad => Sys2Proof.Machine.execL2Fill id bad s
  | .towerWriteAck id => Sys2Proof.Machine.execTowerWriteAck id s
  | .farAtomicAtHome id => Sys2Proof.Machine.execFarAtomicAtHome id s
  | .farAtomicTowerCheck id => Sys2Proof.Machine.execFarAtomicTowerCheck id s
  | .farAtomicAnswer id => Sys2Proof.Machine.execFarAtomicAnswer id s
  | .farAtomicApply id => Sys2Proof.Machine.execFarAtomicApply id s
  | .pageWalkComplete id => Sys2Proof.Machine.execPageWalkComplete id s
  | .sfuResultWrite id => Sys2Proof.Machine.execSfuResultWrite id s
  | .fusionWindowTimeout id => Sys2Proof.Machine.execFusionWindowTimeout id s
  | .matrixPassStart id => Sys2Proof.Machine.execMatrixPassStart id s
  | .matrixPassWriteback id => Sys2Proof.Machine.execMatrixPassWriteback id s
  | .tileTransferComplete id => Sys2Proof.Machine.execTileTransferComplete id s
  | .copyComplete run => Sys2Proof.Machine.execCopyComplete run s
  | .copyFault id => Sys2Proof.Machine.execCopyFault id s
  | .haloSourceRead run => Sys2Proof.Machine.execHaloSourceRead run s
  | .cpMcDelivery run team => Sys2Proof.Machine.execCpMcDelivery run team s
  | .regroupPair g h => Sys2Proof.Machine.execRegroupPair g h s
  | .napTimeout gid slotB => Sys2Proof.Machine.execNapTimeout gid slotB s
  | .serviceEventSignal gid => Sys2Proof.Machine.execServiceEventSignal gid s
  | .groupRetire gid => Sys2Proof.Machine.execGroupRetire gid s
  | .taskCounterAdd id => Sys2Proof.Machine.execTaskCounterAdd id s
  | .gridDoneAdd ctx grid => Sys2Proof.Machine.execGridDoneAdd ctx grid s
  | .towerBlockComplete id => Sys2Proof.Machine.execTowerBlockComplete id s
  | .towerScrub tower bad => Sys2Proof.Machine.execTowerScrub tower bad s
  | .towerCaneSwitch tower pair => Sys2Proof.Machine.execTowerCaneSwitch tower pair s
  | .netReceive m => Sys2Proof.Machine.execNetReceive m s
  | .receiveCounterIncrement id => Sys2Proof.Machine.execReceiveCounterIncrement id s
  | .netGetLand id data => Sys2Proof.Machine.execNetGetLand id data s
  | .errorArrival id => Sys2Proof.Machine.execErrorArrival id s
  | .stationOperation id => Sys2Proof.Machine.execStationOperation id s
  | .collChunkFireAtRetire team => Sys2Proof.Machine.execCollChunkFireAtRetire team s
  | .collResultLand team msg => Sys2Proof.Machine.execCollResultLand team msg s
  | .collAbortReceive team msg => Sys2Proof.Machine.execCollAbortReceive team msg s
  | .holdSend ctx => Sys2Proof.Machine.execHoldSend ctx s
  | .reductionMessageDrop hdr => Sys2Proof.Machine.execReductionMessageDrop hdr s
  | .unsupportedPacketDrop port => Sys2Proof.Machine.execUnsupportedPacketDrop port s
  | .portLinkDrop port => Sys2Proof.Machine.execPortLinkDrop port s
  | .portRetryTimeout port => Sys2Proof.Machine.execPortRetryTimeout port s
  | .portRetrain port => Sys2Proof.Machine.execPortRetrain port s
  | .destinationUnreachable id failed => Sys2Proof.Machine.execDestinationUnreachable id failed s
  | .preemptSave ctx => Sys2Proof.Machine.execPreemptSave ctx s
  | .watchdogExpiry ctx => Sys2Proof.Machine.execWatchdogExpiry ctx s
  | .externalWaitTimeout gid slotB => Sys2Proof.Machine.execExternalWaitTimeout gid slotB s
  | .culletSwap u => Sys2Proof.Machine.execCulletSwap u s
  | .timeSyncLoss die => Sys2Proof.Machine.execTimeSyncLoss die s
  | .sensorSample readings => Sys2Proof.Machine.execSensorSample readings s
  | .powerGood refetched => Sys2Proof.Machine.execPowerGood refetched s
  | .functionReady entry => Sys2Proof.Machine.execFunctionReady entry s
  | .powerOff => Sys2Proof.Machine.execPowerOff s
  | .firmwareStage image cmd => Sys2Proof.Machine.execFirmwareStage image cmd s
  | .firmwareCommit cmd => Sys2Proof.Machine.execFirmwareCommit cmd s
  | .operatorKeyWrite key viaLink sig => Sys2Proof.Machine.execOperatorKeyWrite key viaLink sig s
  | .jobSetup msg => Sys2Proof.Machine.execJobSetup msg s
  | .contextCreate msg => Sys2Proof.Machine.execContextCreate msg s
  | .contextDestroy msg => Sys2Proof.Machine.execContextDestroy msg s
  | .caneGrant msg => Sys2Proof.Machine.execCaneGrant msg s
  | .caneReturn msg => Sys2Proof.Machine.execCaneReturn msg s
  | .memoryMap msg => Sys2Proof.Machine.execMemoryMap msg s
  | .memoryUnmap msg => Sys2Proof.Machine.execMemoryUnmap msg s
  | .memoryWrite msg => Sys2Proof.Machine.execMemoryWrite msg s
  | .memoryRead msg => Sys2Proof.Machine.execMemoryRead msg s
  | .launchQueueWrite msg => Sys2Proof.Machine.execLaunchQueueWrite msg s
  | .treeCreate msg => Sys2Proof.Machine.execTreeCreate msg s
  | .treeFree msg => Sys2Proof.Machine.execTreeFree msg s
  | .preEmpt msg => Sys2Proof.Machine.execPreEmpt msg s
  | .resume msg => Sys2Proof.Machine.execResume msg s
  | .telemetry msg => Sys2Proof.Machine.execTelemetry msg s
  | .attest msg => Sys2Proof.Machine.execAttest msg s
  | .power msg => Sys2Proof.Machine.execPower msg s
  | .breakpointResume msg => Sys2Proof.Machine.execBreakpointResume msg s
  | .completionTimePassed => Sys2Proof.Machine.execCompletionTimePassed s
  | .remoteGetRequest m => Sys2Proof.Machine.execRemoteGetRequest m s
  | .cxlWriteAck id => Sys2Proof.Machine.execCxlWriteAck id s
  | .remoteSendSourceRelease id => Sys2Proof.Machine.execRemoteSendSourceRelease id s
  | .remoteStoreAck id => Sys2Proof.Machine.execRemoteStoreAck id s
  | .malformedServiceMessage msg => Sys2Proof.Machine.execMalformedServiceMessage msg s

end Sys2Proof.Machine
end

