-- ==== Sys2Proof/Machine/Sched.lean ====
section
/-! DEFINITION. Who moves, and what runs (log entry 1): a turn names an issue slot, a tower's sequencer or an event; without turns a
default schedule goes round what is on offer. Also the small machine in which one instruction is fetched next. -/

namespace Sys2Proof.Machine

/-- Is an instruction an event of the part, not a word, a pair half or a command? -/
def isEvent (i : Instr) : Bool := (encode i).isNone

/-- The state with this issuer in focus. -/
def withFocus (s : State) (f : Focus) : State := { s with focus := f }

/-- What a move comes to: an instruction to run in a state, or a state. -/
inductive Job1 where
  | run (s : State) (i : Instr)
  | stop (s : State)

/-- The word or pair half a slot issues (R207, R229): bit 32 + k of the header marks word k as a pair. -/
def issueSlot (s : State) (gid : Nat) (b : Bool) : Job1 :=
  let s1 := withFocus s (.word gid b)
  match getG s gid with
  | none => .stop s
  | some g =>
    let sl := slotOf g b
    let w := sl.words.getD sl.idx 0#64
    if sl.hdr.getLsbD (32 + sl.idx) then
      match decodeHalf (if sl.half then w.extractLsb' 0 32 else w.extractLsb' 32 32) with
      | some i => .run s1 i
      | none => .stop (match headerFault s1 g b with
        | some s2 => s2
        | none => match pairFault g w.toNat with
          | some f => raiseAt s1 gid b { f with lanes := some sl.mask }
          | none => s1)
    else match decodeWord w with
      | some i => .run s1 i
      | none => .stop (runUnknown s1 g b w)

/-- The next command of a share whose sequencer is at work (R364, R366). -/
def sequencerTurn (s : State) (id : Nat) : Job1 :=
  match getF s id with
  | none => .stop s
  | some f => match f.op with
    | .share sh =>
      let run := match sh.kind with | .run => true | _ => false
      if !run || !shareTurn s f sh || decide (sh.block.length ≤ sh.idx) then .stop s
      else
        let s1 := withFocus (beginShare s f sh) (.tower id)
        match decodeCane (sh.block.getD sh.idx 0#64) with
        | some i => .run s1 i
        | none => .stop (match runNoCommand s1 with | .next s2 => s2 | _ => s1)
    | _ => .stop s

/-- What a move runs. An event moves only as an event. -/
def toRun (s : State) (m : Move) : Job1 :=
  match m with
  | .issue core part => match (getPart s core part).cur with
    | (gid, b) :: _ => issueSlot s gid b
    | [] => .stop s
  | .sequencer id => sequencerTurn s id
  | .event i => if isEvent i then .run (withFocus s .idle) i else .stop s

/-! After an event. -/

/-- Is an operation a command of an engine, whose completion is progress (R454)? -/
def engineOp (o : Op) : Bool :=
  match o with
  | .copy _ => true | .share _ => true | .send _ => true | .get _ => true | .received .. => true | .ebSource .. => true
  | .arrival _ => true | .station .. => true | .far .. => true | .chunkOut _ => true
  | _ => false

def engineProgress (s0 s : State) : State :=
  (s0.pend.filter (fun f => engineOp f.op && (getF s f.id).isNone)).foldl (fun s f => progressed s f.ctx) s

/-- Idle ends with the first placement or arrival, and begins when the last group has retired and no engine command is in flight (R442). -/
def idlePower (s0 s : State) : State :=
  if s.power == .idle && moduleBusy s then { s with power := .active }
  else if s.power == .active && moduleBusy s0 && !moduleBusy s then { s with power := .idle }
  else s

/-- Is every context of a client dead by a machine check or the watchdog? -/
def allDead (s : State) : Bool :=
  let dead (c : Context) : Bool := match c.run with
    | .stopping k => k == 0x19 || k == 0x1A
    | .aside k => k == 0x19 || k == 0x1A
    | .running => false
  let mine := s.ctxs.filter (fun c => c.ctx != 0)
  !mine.isEmpty && mine.all dead

/-- A machine check or the watchdog in every context is a fatal fault the fabric manager hears of when it comes about (R503); a failure
of the package has sent its own notice. -/
def fatalNotice (s0 s : State) : State :=
  let s1 := { s with fatalSent := allDead s }
  if allDead s && !s.fatalSent && s.outs.count .fatal == s0.outs.count .fatal then { s1 with outs := s.outs ++ [.fatal] } else s1

/-- The local memory of teams set aside, once an engine has written it, stands so in the save area too (R89). -/
def resave (s0 s : State) : State :=
  let mine (s : State) (c : Context) : List Team := s.teams.filter (fun t => t.ctx == c.ctx)
  (s.ctxs.filter (fun c => setAside s c.ctx && mine s0 c != mine s c)).foldl writeSave s

/-- What follows an event of the part: progress, requests of the service that have become ready, the power state. -/
def afterEvent (s0 s : State) : State := idlePower s0 (fatalNotice s0 (settleService (engineProgress s0 (resave s0 s))))

/-! The default schedule. -/

/-- What is on offer: a move, or an event's effect. -/
inductive Offer where
  | move (m : Move)
  | effect (f : State → Host.Outcome State Fault Refusal)

/-- The events that move an operation in flight on. -/
def opEvents (f : Flight) : List Offer :=
  match f.op with
  | .load .. => [.effect (execL2Fill f.id false), .effect (execLoadResultWrite f.id false)]
  | .value _ => [.effect (execLoadResultWrite f.id false)]
  | .remoteLoad .. => [.effect (execLoadResultWrite f.id false)]
  | .remoteStore .. => [.effect (execRemoteStoreAck f.id)]
  | .store .. => [.effect (execL2Fill f.id false), .effect (execHomeStorePerform f.id)]
  | .atomic .. => [.effect (execHomeAtomicPerform f.id)]
  | .far .. => [.effect (execFarAtomicAtHome f.id), .effect (execFarAtomicTowerCheck f.id), .effect (execFarAtomicAnswer f.id),
      .effect (execFarAtomicApply f.id)]
  | .walk .. => [.effect (execPageWalkComplete f.id)]
  | .sfu .. => [.effect (execSfuResultWrite f.id)]
  | .window .. => [.effect (execFusionWindowTimeout f.id), .effect (execMatrixPassStart f.id)]
  | .pass .. => [.effect (execMatrixPassWriteback f.id)]
  | .tileXfer .. => [.effect (execTileTransferComplete f.id)]
  | .tileSet .. => [.effect (execTileTransferComplete f.id)]
  | .copy c => (match c.kind with
    | .halo => [.effect (execHaloSourceRead ⟨f.id, 0⟩), .effect (execCopyFault f.id)]
    | .mc => c.recv.map (fun r => .effect (execCpMcDelivery ⟨f.id, 0⟩ r.team)) ++ [.effect (execCopyFault f.id)]
    | _ => [.effect (execCopyComplete ⟨f.id, 0⟩), .effect (execCopyFault f.id)])
  | .share _ => [.move (.sequencer f.id), .effect (execTowerBlockComplete f.id)]
  | .send _ => [.effect (execRemoteSendSourceRelease f.id)]
  | .get _ => [.effect (execRemoteSendSourceRelease f.id)]
  | .received .. => [.effect (execReceiveCounterIncrement f.id)]
  | .ebSource .. => [.effect (execRemoteSendSourceRelease f.id)]
  | .arrival _ => [.effect (execErrorArrival f.id)]
  | .station .. => [.effect (execStationOperation f.id)]
  | .barArrive .. => []
  | .recall .. => [.effect (execL1RecallReceive f.id)]
  | .towerWrite _ => [.effect (execTowerWriteAck f.id)]
  | .writeBack _ => [.effect (execTowerWriteAck f.id)]
  | .cxlWrite _ => [.effect (execCxlWriteAck f.id)]
  | .taskAdd .. => [.effect (execTaskCounterAdd f.id)]
  | .chunkOut _ => [.effect (execRemoteSendSourceRelease f.id)]

/-- The messages of this device to itself that are on their way. -/
def outEvents (s : State) (o : Out) : List Offer :=
  match o with
  | .data dev m => if jobSelf s m.job = some dev then [.effect (execNetReceive m)] else []
  | .getReq dev r => if jobSelf s r.job = some dev then [.effect (execRemoteGetRequest r)] else []
  | .getData dev tag data _ => match getF s tag with
    | some f => if selfDev s f.ctx = dev then [.effect (execNetGetLand tag data)] else []
    | none => []
  | .failed _ tag off => [.effect (execDestinationUnreachable tag (some off))]
  | _ => []

/-- The partitions that hold groups. -/
def busyParts (s : State) : List (Nat × Nat) := (s.groups.map (fun g => (g.core, g.part))).eraseDups

/-- What a group offers. -/
def groupEvents (s : State) (g : Group) : List Offer :=
  let fetch (b : Bool) : List Offer :=
    let sl := slotOf g b
    if sl.st == .running && !sl.started && !clauseReady s g sl.clause then [.effect (execIcacheFill g.gid b)] else []
  fetch false ++ fetch true ++ g.wcb.map (fun e => .effect (execWcbTimeout e.id)) ++
    [.effect (execNapTimeout g.gid false), .effect (execNapTimeout g.gid true), .effect (execGroupRetire g.gid)] ++
    (match regroupPair g with | some (_, h) => [.effect (execRegroupPair g.gid h)] | none => [])

/-- What the dispatcher and the service offer for a context. -/
def ctxEvents (s : State) (c : Context) : List Offer :=
  (c.queues.map (fun q => q.1)).flatMap (fun q => [.effect (execLaunchRecordCheck c.ctx q), .effect (execGridStart c.ctx q)]) ++
  ((s.pool.filter (fun t => t.ctx == c.ctx)).map (fun t => (t.grid, t.core))).eraseDups.flatMap (fun p =>
    [.effect (execTaskGroupFormation c.ctx p.1 p.2), .effect (execGatherWindowExpiry c.ctx p.1 p.2)]) ++
  (s.grids.filter (fun g => g.ctx == c.ctx)).map (fun g => .effect (execGridDoneAdd c.ctx g.grid)) ++ [.effect (execPreemptSave c.ctx)]

/-- The issue slots that hold a clause. -/
def heldSlots (s : State) : List Part := s.parts.filter (fun p => !p.cur.isEmpty)

/-- Everything on offer, in one list. -/
def offers (s : State) : List Offer :=
  (busyParts s).map (fun p => .effect (execCandidatePick p.1 p.2)) ++ (heldSlots s).map (fun p => .move (.issue p.core p.part)) ++ s.pend.flatMap opEvents ++ s.outs.flatMap (outEvents s) ++
  s.groups.flatMap (groupEvents s) ++ s.ctxs.flatMap (ctxEvents s) ++ [.effect (execClusterPlacement 0)] ++
  ((s.formed.map (fun f => f.core)).eraseDups).map (fun k => .effect (execTaskGroupPlacement k 0)) ++
  (s.teams.filter (fun t => t.retired)).map (fun t => .effect (execCollChunkFireAtRetire t.tid)) ++
  s.waits.flatMap (fun w => (List.range 128).filterMap (fun k =>
    if w.pairs.testBit (k / 16) && !w.done.contains (k % 16, k / 16) then some (.effect (execTowerCaneSwitch (k % 16) (k / 16))) else none)) ++
  [.effect execCompletionTimePassed, .effect execAccessTableInvalidationDone]

/-- A clause that is being issued: not one whose group still has words in the matrix unit, where a word may hold the issue slot until the
unit is done (R79, R334). -/
def issuing (s : State) : Option Part :=
  (heldSlots s).find? (fun p => match p.cur with | (gid, _) :: _ => !tileBusy s gid none s.nextId | [] => false)

/-- The offer whose turn it is once a nanosecond has passed. -/
def nextOffer (s : State) : Offer := (offers s).getD (s.time % (offers s).length) (.effect execCompletionTimePassed)

/-! Making a move. -/

/-- An event, and what follows it. -/
def withAfter (s0 : State) (r : Host.Outcome State Fault Refusal) : Host.Outcome State Fault Refusal :=
  match r with
  | .next s => .next (afterEvent s0 s)
  | r => r

/-- A word, pair half or command is `exec` alone; after an event the service finishes what has become ready. -/
def runMove (s : State) (m : Move) : Host.Outcome State Fault Refusal :=
  match toRun s m, m with
  | .stop s1, _ => .next s1
  | .run s1 i, .event _ => withAfter s (exec i s1)
  | .run s1 i, _ => exec i s1

/-- Device time passes in every power state but off (R442). -/
def passTime (s : State) (dt : Nat) : State := { s with time := if s.power = .off then s.time else s.time + dt }

/-- Without turns: a clause being issued goes on at once; else a nanosecond passes and the offers take turns. -/
def runDefault (s : State) : Host.Outcome State Fault Refusal :=
  match issuing s with
  | some p => runMove s (.issue p.core p.part)
  | none =>
    let s1 := { passTime s 1 with focus := .idle }
    match nextOffer s1 with
    | .move m => runMove s1 m
    | .effect f => withAfter s1 (f s1)

/-! The machine in which one instruction comes next. -/

/-- The numbers of the group, team, context and grid that `withWord` adds. -/
def soloGid : Nat := 2 ^ 32
def soloCtx : Context :=
  { ctx := 1, job := 0, root := 0, qprio := 0, key := 0#64, watchdog := 2000000000, extTimeout := 10000000000, pool := 1048576, save := 0 }
def soloTeam : Team :=
  { tid := soloGid, ctx := 1, grid := 1, cluster := 0, tidx := 0, core := 0, task := false, groups := 1, width := 64, lines := 80,
    prog := 64, depthD := 64 }
/-- A group of 64 lanes at a clause of one word, already read. -/
def soloGroup (pair : Bool) (w : W64) : Group :=
  { gid := soloGid, ctx := 1, grid := 1, cluster := 0, team := soloGid, tidx := 0, num := 0, width := 64, core := 0, part := 0, rows := 20,
    accN := 4, parN := 1, depthD := 64,
    slotA := { st := .running, clause := 2 ^ 32, mask := BitVec.allOnes 64, started := true,
               hdr := r64 (7 * 2 ^ 57 + (if pair then 2 ^ 32 else 0)), words := [w] } }

/-- The issue slot of core 0, partition 0 issues this word next. -/
def withWord (s : State) (pair : Bool) (w : W64) : State :=
  { s with turns := [], focus := .word soloGid false, ctxs := soloCtx :: s.ctxs.filter (fun c => c.ctx != 1),
           teams := soloTeam :: s.teams, groups := soloGroup pair w :: s.groups,
           parts := [{ core := 0, part := 0, cur := [(soloGid, false)] }] }

/-- A tower's sequencer has this command next. -/
def withCommand (s : State) (w : W64) : State :=
  let sh : Share := { kind := .run, word := 0, tower := 0, ctx := 1, team := soloGid, canes := [], first := 0, addr := 0, row := 0, w := 0, ty := 0,
                      bc := none, sat := false, hint := 0, block := [w], gaddr := [0, 0, 0, 0], idx := 0, active := [], begun := true }
  let s1 := withWord s false 0#64
  { s1 with turns := [{ dt := 0, move := .sequencer soloGid }], parts := [], focus := .tower soloGid,
            pend := [{ id := soloGid, word := soloGid, gid := soloGid, ctx := 1, core := 0, cls := .tower, op := .share sh }] }

end Sys2Proof.Machine
end

