-- ==== Sys2Proof/Machine/Step.lean ====
section
/-! DEFINITION. One step of the machine: the next turn's time passes and its move is made. -/

namespace Sys2Proof.Machine

/-- The state once the time of the next turn has passed and its errors have struck; `r` are the turns after it. -/
def afterTurn (s : State) (t : Turn) (r : List Turn) : State := t.upsets.foldl strike { passTime s t.dt with turns := r }

/-- A step: the next turn's time passes, its errors strike and its move is made. -/
def step (s : State) : Host.Outcome State Fault Refusal :=
  match s.turns with
  | t :: r => runMove (afterTurn s t r) t.move
  | [] => runDefault s

/-- The state in which the next step runs the instruction whose first `nbits` bits are `w` (log entry 40): a pair half in the first
half of its word, a core word in a clause of its own, any other word in a command block. -/
def State.withFetchWord (s : State) (nbits w : Nat) : State :=
  if nbits ≤ 32 then withWord s true (BitVec.ofNat 64 (w * 2 ^ 32))
  else match decodeWord (BitVec.ofNat 64 w) with
    | some _ => withWord s false (BitVec.ofNat 64 w)
    | none => withCommand s (BitVec.ofNat 64 w)

end Sys2Proof.Machine
end

