-- ==== Sys2Proof/WellFormed.lean ====
section
/-! DEFINITION. Well-formed instructions: an instruction whose constructor and fields agree, so that one word stands for it, and an
event whose arguments name units of the part that exist (R15 to R18, R27, R65, R112, R424, R434). Whether a well-formed word is legal is
another matter: its reserved fields and its operands are the checks of R463, and an illegal word takes an exception. -/

namespace Sys2Proof

/-- A core with issue slots: 96 compute cores and 8 control cores (R15, R18). -/
def okCore (k : Nat) : Bool := decide (k < 104)

/-- A partition of a core (R15). -/
def okPart (p : Nat) : Bool := decide (p < 4)

/-- A die, a tower, a cane pair, a port, a status entry, a queue of a context (R10, R17, R112, R424, R434, R65). -/
def okDie (d : Nat) : Bool := decide (d < 4)
def okTower (t : Nat) : Bool := decide (t < 16)
def okPair (p : Nat) : Bool := decide (p < 8)
def okPort (p : Nat) : Bool := decide (p < 8)
def okStatus (n : Nat) : Bool := decide (n < 130)
def okQueue (q : Nat) : Bool := decide (q < 16)

/-- A context number has 12 bits (R119). -/
def okCtx (c : Nat) : Bool := decide (c < 4096)

/-- A unit with spares that exists: 28 core sites and 256 slices a die (R12, R99), 3,072 arrays of 1,024 rows and columns a tower, 64 links a
die (R460). -/
def okUnit : CulletUnit → Bool
  | .core d site => okDie d && decide (site < 28)
  | .slice d slice => okDie d && decide (slice < 256)
  | .arrayLine t array _ line => okTower t && decide (array < 3072 ∧ line < 1024)
  | .dramRow t _ => okTower t
  | .linkLane link => decide (link < 256)

/-- The well-formedness of an instruction. Rows that share an opcode are told apart by one field (R353, R347, R351, R356, R429). -/
def Instr.wellFormed : Instr → Bool
  | .lrFill w => !w.f7.getLsbD 0
  | .lrFillPut w => w.f7.getLsbD 0
  | .plPass w => !w.bit4
  | .plPassFree w => w.bit4
  | .fbTab w => !w.fn.getLsbD 0
  | .fbTabSet w => w.fn.getLsbD 0
  | .paOpen w => !w.f7.getLsbD 0
  | .paOpenRp w => w.f7.getLsbD 0
  | .sysSet w => decide (w.sreg ≠ 0x8011#16) && decide (w.sreg ≠ 0x8021#16)
  | .atinv w => decide (w.sreg = 0x8011#16)
  | .wake w => decide (w.sreg = 0x8021#16)
  | .launchRecordCheck c q => okCtx c && okQueue q
  | .gridStart c q => okCtx c && okQueue q
  | .taskGroupFormation c _ k => okCtx c && okCore k
  | .gatherWindowExpiry c _ k => okCtx c && okCore k
  | .taskGroupPlacement k _ => okCore k
  | .taskSteal c k => okCtx c && okCore k
  | .candidatePick k p => okCore k && okPart p
  | .recallBeat d => okDie d
  | .beatReceive k d => okCore k && okDie d
  | .beatTimeout k d => okCore k && okDie d
  | .gridDoneAdd c _ => okCtx c
  | .towerScrub t _ => okTower t
  | .towerCaneSwitch t p => okTower t && okPair p
  | .holdSend c => okCtx c
  | .unsupportedPacketDrop p => okPort p
  | .portLinkDrop p => okPort p
  | .portRetryTimeout p => okPort p
  | .portRetrain p => okPort p
  | .preemptSave c => okCtx c
  | .watchdogExpiry c => okCtx c
  | .timeSyncLoss d => okDie d
  | .functionReady n => okStatus n
  | .culletSwap u => okUnit u
  | _ => true

end Sys2Proof
end

