-- ==== Sys2Proof/Safety.lean ====
section
/-! DEFINITION. What the claims speak of: when a word issues normally, what a performed word leaves, and what counts as a sound state.
Nothing here is used by the machine. -/

namespace Sys2Proof.Machine

/-! A word that issues. -/

/-- The mask select a word uses: its own field, or 0 for a word that ignores it (R33, R236, R244, R299). -/
def mselOf : Instr → Nat
  | .vAdd w | .vSub w | .vMul w | .vMulh w | .vMad w | .vAbsd w | .vMin w | .vMax w | .vAnd w | .vOr w | .vXor w | .vAndn w
  | .vShl w | .vShr w | .vSar w | .vClz w | .vPopc w | .vBfx w | .vBfi w | .vSel w | .vCmp w | .vMov w | .vLi w
  | .vFadd w | .vFsub w | .vFmul w | .vFma w | .vFmin w | .vFmax w | .vFcmp w | .vFrnd w | .vFclass w | .vFdot2 w
  | .vCvt w | .vPack w | .vUnpack w
  | .vRcp w | .vRsq w | .vSqrt w | .vExp2 w | .vLog2 w | .vSin w | .vCos w | .vAct w
  | .xShf w | .xBfly w | .xBcast w | .xScan w | .xRed w | .xCompact w | .voteAny w | .voteAll w | .voteBal w
  | .atAdd w | .atSub w | .atMin w | .atMax w | .atAnd w | .atOr w | .atXor w | .atXchg w | .atCas w | .atCas2 w | .atFadd w
  | .spawn w | .fbTab w | .fbTabSet w | .rngDraw w | .farAdd w => w.msel.toNat
  | .ldG w | .stG w | .ldL w | .stL w | .ldX w => w.msel.toNat
  | .mxMma w | .mxMmaf w | .mxZero w | .mxLd w | .mxSt w => w.msel.toNat
  | .twXin w | .twXout w | .twRun w => w.msel.toNat
  | _ => 0

/-- The words whose lanes are single accesses, which a replay repeats for the lanes not done (R449). -/
def perLaneOf : Instr → Bool
  | .ldG _ | .stG _ | .ldL _ | .stL _ | .ldX _ | .spawn _ | .farAdd _ => true
  | .atAdd _ | .atSub _ | .atMin _ | .atMax _ | .atAnd _ | .atOr _ | .atXor _ | .atXchg _ | .atCas _ | .atCas2 _ | .atFadd _ => true
  | _ => false

/-- `x` is the slot at which the word `i` issues in `s`, and the word is sound: its clause header, its encoding, its mode and its
blocks pass the checks that come before its operands (R208, R463). -/
def Issues (s : State) (i : Instr) (x : Issue) : Prop :=
  issuer s ((encode i).getD 0#64) (mselOf i) (perLaneOf i) = some x ∧ headerFault s x.g x.b = none ∧
    wordFault x.g x.slot i x.w.toNat = none

/-- `Issues`, to be evaluated. -/
def issuesB (s : State) (i : Instr) : Bool :=
  match issuer s ((encode i).getD 0#64) (mselOf i) (perLaneOf i) with
  | some x => (headerFault s x.g x.b).isNone && (wordFault x.g x.slot i x.w.toNat).isNone
  | none => false

/-- The same for a pair half: the word at the slot is sound as a whole, or its first half has issued already (R467). -/
def HalfIssues (s : State) (x : Issue) : Prop :=
  issuer s 0#64 0 false = some x ∧ headerFault s x.g x.b = none ∧
    (x.slot.half = true ∨ pairFault x.g (x.slot.words.getD x.slot.idx 0#64).toNat = none)

/-- The word has been performed, with `s1` its effect: its slot goes on at the next word (R207). -/
def performed (x : Issue) (s1 : State) : State := advance s1 x.g.gid x.b false (x.w.getLsbD 55)
/-- A half of a pair word has been performed. -/
def performedHalf (x : Issue) (s1 : State) : State := advance s1 x.g.gid x.b true false
/-- The word has been performed, and its slot goes on at the clause at `t` (R244). -/
def jumped (x : Issue) (s1 : State) (t : Nat) : State := jumpTo s1 x.g.gid x.b t (x.w.getLsbD 55)
/-- The word has not been performed: its slot parks at it (R80). -/
def parked (x : Issue) (s1 : State) (p : Park) : State := parkAt s1 x.g.gid x.b p
/-- The word faults (R446). -/
def raised (x : Issue) (s1 : State) (f : FInfo) : State := raiseAt s1 x.g.gid x.b { f with lanes := some (f.lanes.getD x.active) }

/-- A state but for which slots its partitions are issuing. -/
def withParts (s : State) (ps : List Part) : State := { s with parts := ps }

/-- `t` is `s1` with the slot of the group moved on by one word, and nothing else but which slots the partitions are issuing. A
word with the switch marker may leave its slot parked for the group's results (R78). -/
def Moved (s1 : State) (gid : Nat) (b sw : Bool) (t : State) : Prop :=
  ∃ g park since ps, getG s1 gid = some g ∧ (park = none ∨ sw = true ∧ park = some Park.marker) ∧
    t = withParts (putG s1 (setSlot (setReplay g b none) b (slotAfter (slotOf g b) park since))) ps

/-- `t` is `s1` with the slot of the group set to start at the clause at `target`. -/
def Transferred (s1 : State) (gid : Nat) (b sw : Bool) (target : Nat) (t : State) : Prop :=
  ∃ g park since ps, getG s1 gid = some g ∧ (park = none ∨ sw = true ∧ park = some Park.marker) ∧
    t = withParts (putG s1 (setSlot (setReplay g b none) b (slotJump (slotOf g b) target park since))) ps

/-! Blocks of results. -/

/-- `g1` holds, in every register of the block of `rows` by `cols` registers from register `d` and in every lane of `act`, sub-element
k of width `n` as `f row col lane k`; every other lane and register holds what `g0` holds (R38, R33). -/
def BlockIn (g1 g0 : Group) (d rows cols n : Nat) (act : W64) (f : Nat → Nat → Nat → Nat → Nat) : Prop :=
  (∀ r c l k, r < rows → c < cols → l < 64 → act.getLsbD l = true → k < 64 / n → elem n k (rv g1 (d + 16 * r + c) l) = f r c l k) ∧
  (∀ reg l, l < 64 → (∀ r c, r < rows → c < cols → reg = d + 16 * r + c → act.getLsbD l = false) → rv g1 reg l = rv g0 reg l)

/-- `fl` is `old` with every flag that a sub-element of the block raises (R179). -/
def FlagsOf (fl old : BitVec 5) (rows cols n : Nat) (act : W64) (f : Nat → Nat → Nat → Nat → Nat) : Prop :=
  ∀ b, b < 5 → (fl.getLsbD b = true ↔ old.getLsbD b = true ∨
    ∃ r c l k, r < rows ∧ c < cols ∧ l < 64 ∧ act.getLsbD l = true ∧ k < 64 / n ∧ (f r c l k).testBit b = true)

/-- The word `i` writes the block of results `f` in the lanes `act`, and nothing else of its group changes (R38, R40, R33). `pair`: the
word is a half of a pair word. -/
def BlockResult (s : State) (x : Issue) (i : Instr) (pair : Bool) (d rows cols n : Nat) (act : W64) (f : Nat → Nat → Nat → Nat → Nat) : Prop :=
  ∃ (g1 : Group) (v : FMap W64), exec i s = .next (settle x pair (.ok (putG s g1))) ∧ g1 = { x.g with v := v } ∧
    BlockIn g1 x.g d rows cols n act f

/-- The same for results that raise sticky flags and leave the draw count at `draw`. -/
def BlockResultD (s : State) (x : Issue) (i : Instr) (pair : Bool) (d rows cols n : Nat) (act draw : W64)
    (f : Nat → Nat → Nat → Nat → Nat × Nat) : Prop :=
  ∃ (g1 : Group) (v : FMap W64) (fl : BitVec 5), exec i s = .next (settle x pair (.ok (putG s g1))) ∧
    g1 = { x.g with v := v, flags := fl, draw := draw } ∧
    BlockIn g1 x.g d rows cols n act (fun r c l k => (f r c l k).1 % 2 ^ n) ∧
    FlagsOf fl x.g.flags rows cols n act (fun r c l k => (f r c l k).2)

/-- The same for results that draw nothing. -/
def BlockResultF (s : State) (x : Issue) (i : Instr) (pair : Bool) (d rows cols n : Nat) (act : W64) (f : Nat → Nat → Nat → Nat → Nat × Nat) :
    Prop :=
  BlockResultD s x i pair d rows cols n act x.g.draw f

/-- The word `i` queues the block of results `f` at the special-function unit of its partition: an operation in flight holds the
registers and the flags, and the group is as it was but for its slot (R289). -/
def QueuedResult (s : State) (x : Issue) (i : Instr) (d rows cols n : Nat) (act : W64) (f : Nat → Nat → Nat → Nat → Nat × Nat) : Prop :=
  ∃ (regs : List (Nat × W64)) (fl : BitVec 5),
    exec i s = .next (performed x (launchOp s x.g.gid x.g.ctx x.g.core .sfu (.sfu x.g.core x.g.part regs fl))) ∧
    (∀ g : Group, ∃ v, applyRegs g regs = { g with v := v } ∧
      BlockIn (applyRegs g regs) g d rows cols n act (fun r c l k => (f r c l k).1 % 2 ^ n)) ∧
    FlagsOf fl 0#5 rows cols n act (fun r c l k => (f r c l k).2)

/-- A source operand of a vector word at a block cell and lane: a vector register, a scalar or an accumulator fragment (R38, R219, R220). -/
def srcV (x : Issue) (w : VWord) (code : BitVec 9) (r c l : Nat) : W64 := readSrc x.g code.toNat (fragPair w) r c l

/-! Values of patterns, and the one rounding of R180 to R184, in exact arithmetic. -/

/-- The exact value of a finite pattern (R174); 0 for the others. -/
def valueQ : FV → ℚ
  | .num n m e => (if n then -1 else 1) * m * 2 ^ e
  | _ => 0

/-- The magnitude `a` of a value of sign `neg` is rounded to `i` units `u` under a mode: to nearest with ties to even, up for the directed mode
that moves away from zero, else down (R180). -/
def RoundsTo (mode : Nat) (neg : Bool) (a u : ℚ) (i : ℕ) : Prop :=
  (mode = 0 → |i * u - a| * 2 ≤ u ∧ (|i * u - a| * 2 = u → i % 2 = 0)) ∧
  ((mode = 2 ∧ neg = false) ∨ (mode = 3 ∧ neg = true) → a ≤ i * u ∧ i * u < a + u) ∧
  (mode = 1 ∨ (mode = 2 ∧ neg = true) ∨ (mode = 3 ∧ neg = false) → i * u ≤ a ∧ a < i * u + u)

/-- The largest finite value of a format (R173). -/
def largestQ (f : Fmt) : ℚ := if f.isF8a then 448 else (2 - 2 ^ (-(f.fw : ℤ))) * 2 ^ (f.bias : ℤ)

/-- `r` is the nonzero value `x` rounded once to the format, with the flags it raises: `u` is the unit in the last place at the magnitude of x,
`un` that without a least exponent, by which tininess is detected after rounding. What would exceed the largest value overflows, and .ftz flushes a
subnormal result (R180 to R184, R186). -/
def RoundedOnce (f : Fmt) (k : Rnd) (x : ℚ) (r : Nat × Nat) : Prop :=
  r.1 < 2 ^ f.w ∧ ∀ (E : ℤ) (u un : ℚ), 2 ^ E ≤ |x| → |x| < 2 ^ (E + 1) → u = 2 ^ (max E (1 - f.bias) - f.fw) → un = 2 ^ (E - f.fw) →
    ∃ i j : ℕ, RoundsTo k.mode (decide (x < 0)) |x| u i ∧ RoundsTo k.mode (decide (x < 0)) |x| un j ∧
      (largestQ f < i * u → r.2 = 5 ∧
        if saturates f k.ovf = true ∨ k.mode = 1 ∨ (k.mode = 2 ∧ x < 0) ∨ (k.mode = 3 ∧ 0 < x) then valueQ (decF f false r.1) = (if x < 0 then -1 else 1) * largestQ f
        else if f.isF8a then decF f false r.1 = .nan (decide (x < 0)) false 0 else decF f false r.1 = .inf (decide (x < 0))) ∧
      (i * u ≤ largestQ f →
        if i * u < 2 ^ (1 - (f.bias : ℤ)) ∧ i ≠ 0 ∧ k.ftz = true then r.2 = 3 ∧ decF f false r.1 = .num (decide (x < 0)) 0 (1 - (f.bias : ℤ) - f.fw)
        else (∃ m e, decF f false r.1 = .num (decide (x < 0)) m e ∧ m * 2 ^ e = i * u) ∧
          r.2 = (if i * u = |x| then 0 else if j * un < 2 ^ (1 - (f.bias : ℤ)) then 3 else 1))

/-! Blocks of numbers. -/

/-- `r` is the integer nearest to x / 2^n, the even one of two as near (R205). -/
def NearestEven (x : Int) (n : Nat) (r : Int) : Prop := |r * 2 ^ n - x| * 2 ≤ 2 ^ n ∧ (|r * 2 ^ n - x| * 2 = 2 ^ n → r % 2 = 0)

/-- A block's element. -/
def elemOf (b : Bfp) (i : Nat) : Int := b.m.getD i 0

/-- `x` is the sum of two blocks and `ov` its overflow (R205): mantissas aligned to the greater exponent and rounded to nearest even; with a sum
outside 24 bits every sum is halved, rounded and the exponent raised, or at the greatest exponent what does not fit saturates. -/
def BlockSum (a b x : Bfp) (ov : Bool) : Prop :=
  ∃ p q : Nat → Int, (∀ i < 32, NearestEven (elemOf a i) (max a.e b.e - a.e) (p i) ∧ NearestEven (elemOf b i) (max a.e b.e - b.e) (q i)) ∧
    ((∀ i < 32, -(2 ^ 23) ≤ p i + q i ∧ p i + q i < 2 ^ 23) → x.e = max a.e b.e ∧ ov = false ∧ ∀ i < 32, elemOf x i = p i + q i) ∧
    ((∃ i < 32, p i + q i < -(2 ^ 23) ∨ 2 ^ 23 ≤ p i + q i) →
      (max a.e b.e < 255 → x.e = max a.e b.e + 1 ∧ ov = false ∧ ∀ i < 32, NearestEven (p i + q i) 1 (elemOf x i)) ∧
      (max a.e b.e = 255 → x.e = 255 ∧ ov = true ∧ ∀ i < 32, elemOf x i =
        if 2 ^ 23 ≤ p i + q i then 2 ^ 23 - 1 else if p i + q i < -(2 ^ 23) then -(2 ^ 23 - 1) else p i + q i))

/-! Cane commands. -/

/-- The command runs on the share whose sequencer is at work, whose driven canes differ. `srcs` are the rows it reads. Without a row group in
error, it goes on to the next command: in each active column rows `d` to `d + w - 1` take the low `w` bits of `f` of the column's contents; its
other rows, and every other cane, keep their bits, and nothing else of the state changes but that row groups it wrote whole are good (R365,
R366, R370). Else the share ends in a machine check, and no cane of the array in error is written (R488). -/
def CaneResult (s : State) (i : Instr) (srcs : List (Nat × Nat)) (d w : Nat) (f : Nat → Nat) : Prop :=
  ∀ (id : Nat) (fl : Flight) (sh : Share), s.focus = .tower id → getF s id = some fl → fl.op = .share sh → sh.canes.Nodup →
    (caneErrors s (activeCanes sh) srcs (d, w) = [] → ∃ cs : FMap (BitVec 1024),
      exec i s = .next (putF { caneMend s (activeCanes sh) (d, w) with canes := cs } { fl with op := .share { sh with idx := sh.idx + 1 } }) ∧
      (∀ k st r, (k, (true, st)) ∈ sh.canes.zip sh.active → r < 1024 → (fget 0#1024 k cs).getLsbD r =
        if d ≤ r ∧ r < d + w then (f (fget 0#1024 k s.canes).toNat).testBit (r - d) else (fget 0#1024 k s.canes).getLsbD r) ∧
      (∀ k, (∀ st, (k, (true, st)) ∉ sh.canes.zip sh.active) → fget 0#1024 k cs = fget 0#1024 k s.canes)) ∧
    (∀ g r, caneErrors s (activeCanes sh) srcs (d, w) = g :: r → ∃ cs bad,
      exec i s = .next (checkShare { s with canes := cs, badCane := bad } fl sh 8 (g / 16)) ∧
      ∀ k, k / 1024 = g / 16384 → fget 0#1024 k cs = fget 0#1024 k s.canes)

/-- A mask command makes `f` of the old active bit and stack, and of the column's contents, in every driven column (R366). -/
def CaneMasks (s : State) (i : Instr) (sh : Share) (f : Nat → Bool → List Bool → Bool × List Bool) : Prop :=
  ∀ (id : Nat) (fl : Flight), s.focus = .tower id → getF s id = some fl → fl.op = .share sh →
    exec i s = .next (putF s { fl with op := .share { sh with idx := sh.idx + 1, active := (sh.canes.zip sh.active).map (fun p => f (fget 0#1024 p.1 s.canes).toNat p.2.1 p.2.2) } })

/-! The status block. -/

/-- Entry `e` of the status block has come to `v`, in the state and in its place in memory; the other entries and every other byte of memory are
as they were (R434, R435). -/
def StatusChanged (s t : State) (e v : Nat) : Prop :=
  statusOf t e = v ∧ (∀ k, k ≠ e → statusOf t k = statusOf s k) ∧ ofBytes (rdBytes t (s.stBlk + 16 * e) 8) = v ∧
    ∀ a, (a < s.stBlk + 16 * e ∨ s.stBlk + 16 * e + 16 ≤ a) → rdByte t a = rdByte s a

/-! Sound states. -/

/-- Every store of bytes and registers is in its canonical form: equal contents are equal data. -/
def State.memOk (s : State) : Bool := Memory.wf s.mem && Memory.wf s.cxlMem

/-- The scalar registers, vector registers and masks of a group in canonical form. -/
def Group.regsOk (g : Group) : Bool := fwf 0#64 g.s && fwf 0#64 g.v && fwf 0#64 g.m

end Sys2Proof.Machine
end

