-- ==== Sys2Proof/Certificates/Slice0/Obligations.lean ====
section
/-! DEFINITION. The statements of this model for the provers: each is a rule of the specification, or follows from the ones its entry
in OBLIGATIONS.json cites. `performed x s1` is the state after a word whose effect is `s1`, its slot at the next word; `jumped x s1 t` the
state with the slot at the clause at `t`; `raised x s1 f` the state after the fault `f`. What these do is stated by WordsMoveTheirSlot and
TakingAnException. -/

open Sys2Proof Sys2Proof.Machine

/-! Encoding and decoding. -/

/-- From R216, R222 to R230, R364: words that the specification writes out, each with the fields it names. -/
def Obligations.DecodeSampleWords : Prop :=
  decodeWord 0x0100_A30E_0000_0000#64 = some (.sAdd { sw := false, msel := 0, d := 5, a := 6, src := .reg 7 0 0, f7 := 0 }) ∧
  decodeWord 0x0108_A37F_FFFF_FA00#64 = some (.sAdd { sw := false, msel := 0, d := 5, a := 6, src := .imm 0xFFFFFFF4, f7 := 0 }) ∧
  decodeWord 0x1F00_0900_0000_0006#64 = some (.bv { sw := false, msel := 0, ra := 0, cf := 9, off := 6 }) ∧
  decodeWord 0x4C01_1402_2C63_8301#64 = some (.vFma { sw := false, msel := 0, rows := 0, cols := 1, d := 40, a := 8, b := 355, c := 56, ty := 6, fn := 1 }) ∧
  decodeWord 0x7000_67FC_A000_81B0#64 = some (.ldG { sw := false, msel := 0, data := 12, index := 511, base := 5, off := 0x40, width := 3, order := 1, scope := 4, hint := 0 }) ∧
  decodeWord 0xB001_8305_0040_04D0#64 = some (.mxMma { sw := false, msel := 0, tile := 3, a := 12, base := 5, off := 0x400, slot := 2, wa := 1, wb := 2, bit4 := true, sat := false, mix := false, rsv := 0 }) ∧
  decodeWord 0xD001_851C_0320_EC00#64 = some (.twXin { sw := false, msel := 0, sa := 6, sb := 5, sc := 7, start := 0, row := 100, wm1 := 7, ty := 12, f8 := 0 }) ∧
  decodeWord 0xE002_0928_0000_C205#64 = some (.netSend { sw := false, msel := 0, sa := 8, sb := 9, sc := 10, sd := 0, dev := 12, f12 := 0x205 }) ∧
  decodeCane 0x344B_0641_D0F1_C340#64 = some (.caneVMad { d := 300, a := 100, b := 116, wm1 := 15, wam1 := 7, wbm1 := 3, i := false, s := true, sat := false, cc := 0, rsv := 0 })

/-- From R217 to R230, R364: a well-formed instruction is read back from its encoding, with every field at every value: a core word by the
cores' decoder, a pair half by theirs, a cane command by the sequencer's. -/
def Obligations.EncodedInstructionDecodes : Prop :=
  ∀ (i : Instr) (w : W64), i.wellFormed = true → encode i = some w →
    ((form 64 i).isSome = true → decodeWord w = some i) ∧
    ((halfOf i).isSome = true → decodeHalf (w.setWidth 32) = some i) ∧
    ((form 64 i).isNone = true → (halfOf i).isNone = true → decodeCane w = some i)

/-- The other direction: what a decoder reads is well-formed and encodes to the bits it was read from, so no bit of a word is dropped
and no two words are one instruction. -/
def Obligations.DecodedInstructionEncodes : Prop :=
  (∀ (w : W64) (i : Instr), decodeWord w = some i → i.wellFormed = true ∧ encode i = some w) ∧
  (∀ (h : BitVec 32) (i : Instr), decodeHalf h = some i → i.wellFormed = true ∧ encode i = some (h.setWidth 64)) ∧
  (∀ (w : W64) (i : Instr), decodeCane w = some i → i.wellFormed = true ∧ encode i = some w)

/-! A step. -/

/-- A step runs the decoded instruction. A turn of the schedule that names a partition's issue slot runs, at the state with the turn's
time past, its errors struck and the slot in focus, the instruction that the slot's word decodes to: a whole word, or the half of a pair word that is next;
without turns the first clause being issued goes on. A turn that names an event runs it with no slot in focus, and what follows an event is
done after it. A turn that names a share at work in its tower runs the next command of its block. The schedule is the model's (log entry 1). -/
def Obligations.StepRunsDecodedInstruction : Prop :=
  (∀ (s : State) (t : Turn) (core part gid : Nat) (b : Bool) (r : List Turn) (rest : List (Nat × Bool)) (g : Group) (i : Instr),
    s.turns = t :: r → t.move = .issue core part → (getPart (afterTurn s t r) core part).cur = (gid, b) :: rest →
    getG (afterTurn s t r) gid = some g →
    (if (slotOf g b).hdr.getLsbD (32 + (slotOf g b).idx) then
        decodeHalf (if (slotOf g b).half then ((slotOf g b).words.getD (slotOf g b).idx 0#64).extractLsb' 0 32
          else ((slotOf g b).words.getD (slotOf g b).idx 0#64).extractLsb' 32 32)
      else decodeWord ((slotOf g b).words.getD (slotOf g b).idx 0#64)) = some i →
    step s = exec i (withFocus (afterTurn s t r) (.word gid b))) ∧
  (∀ (s : State) (p : Part) (gid : Nat) (b : Bool) (rest : List (Nat × Bool)) (g : Group) (i : Instr),
    s.turns = [] → issuing s = some p → (getPart s p.core p.part).cur = (gid, b) :: rest → getG s gid = some g →
    (if (slotOf g b).hdr.getLsbD (32 + (slotOf g b).idx) then
        decodeHalf (if (slotOf g b).half then ((slotOf g b).words.getD (slotOf g b).idx 0#64).extractLsb' 0 32
          else ((slotOf g b).words.getD (slotOf g b).idx 0#64).extractLsb' 32 32)
      else decodeWord ((slotOf g b).words.getD (slotOf g b).idx 0#64)) = some i →
    step s = exec i (withFocus s (.word gid b))) ∧
  (∀ (s : State) (t : Turn) (r : List Turn) (i : Instr),
    s.turns = t :: r → t.move = .event i → encode i = none →
    step s = withAfter (afterTurn s t r) (exec i (withFocus (afterTurn s t r) .idle))) ∧
  (∀ (s : State) (t : Turn) (id : Nat) (r : List Turn) (f : Flight) (sh : Share) (i : Instr),
    s.turns = t :: r → t.move = .sequencer id → getF (afterTurn s t r) id = some f → f.op = .share sh → sh.kind = .run → sh.begun = true →
    sh.idx < sh.block.length → shareTurn (afterTurn s t r) f sh = true → decodeCane (sh.block.getD sh.idx 0#64) = some i →
    step s = exec i (withFocus (afterTurn s t r) (.tower id)))

/-- From R233: a word that no row of the opcode map names takes the illegal-instruction fate of code 1, once its header has passed.
From R463: a word that fails a check of its encoding, its mode or its blocks takes the exception of the lowest code of the first check that
fails, at its own place, and has no effect; so does a word under an illegal clause header, which faults before its first word (R208).
From R264, R429, R463: `halt` outside the control cores, and a read or write of a register of the service's range outside context 0, are
privileged: the check of the word's mode answers the privilege fate, class 0x02, when its encoding is sound. -/
def Obligations.IllegalAndPrivilegedWords : Prop :=
  (
    ∀ (s : State) (t : Turn) (core part gid : Nat) (b : Bool) (r : List Turn) (rest : List (Nat × Bool)) (g : Group),
      s.turns = t :: r → t.move = .issue core part → (getPart (afterTurn s t r) core part).cur = (gid, b) :: rest →
      getG (afterTurn s t r) gid = some g →
      (slotOf g b).hdr.getLsbD (32 + (slotOf g b).idx) = false → decodeWord ((slotOf g b).words.getD (slotOf g b).idx 0#64) = none →
      headerFault (withFocus (afterTurn s t r) (.word gid b)) g b = none →
      step s = .next (raiseAt (withFocus (afterTurn s t r) (.word gid b)) gid b
        { cls := 1, code := 1, index := ((slotOf g b).words.getD (slotOf g b).idx 0#64).toNat / 2 ^ 56, lanes := some (slotOf g b).mask })) ∧
  (
    (∀ (s : State) (i : Instr) (x : Issue) (f : FInfo), (form 64 i).isSome = true →
      issuer s ((encode i).getD 0#64) (mselOf i) (perLaneOf i) = some x → headerFault s x.g x.b = none →
      wordFault x.g x.slot i x.w.toNat = some f → exec i s = .next (raised x s f)) ∧
    (∀ (s : State) (i : Instr) (x : Issue) (t : State), (form 64 i).isSome = true →
      issuer s ((encode i).getD 0#64) (mselOf i) (perLaneOf i) = some x → headerFault s x.g x.b = some t → exec i s = .next t) ∧
    (∀ (s : State) (i : Instr) (x : Issue) (f : FInfo), (halfOf i).isSome = true → issuer s 0#64 0 false = some x →
      headerFault s x.g x.b = none → x.slot.half = false → pairFault x.g (x.slot.words.getD x.slot.idx 0#64).toNat = some f →
      exec i s = .next (settle x true (.bad s f)))) ∧
  (
    (∀ (g : Group) (sl : Slot) (w : YWord) (f : Form), form g.width (.halt w) = some f → decodeBad g sl (.halt w) f (encY 0xF7 w).toNat = none →
      g.core < 96 → wordFault g sl (.halt w) (encY 0xF7 w).toNat = some { cls := 2, code := 1, index := 0xF7 }) ∧
    (∀ (g : Group) (sl : Slot) (w : YWord) (f : Form), form g.width (.sysGet w) = some f →
      decodeBad g sl (.sysGet w) f (encY 0xF2 w).toNat = none → 0x8000 ≤ w.sreg.toNat → g.ctx ≠ 0 →
      wordFault g sl (.sysGet w) (encY 0xF2 w).toNat = some { cls := 2, code := 2, index := w.sreg.toNat }) ∧
    (∀ (g : Group) (sl : Slot) (w : YWord) (f : Form) (i : Instr), i ∈ [.sysSet w, .atinv w, .wake w] → form g.width i = some f →
      decodeBad g sl i f (encY 0xF3 w).toNat = none → 0x8000 ≤ w.sreg.toNat → g.ctx ≠ 0 →
      wordFault g sl i (encY 0xF3 w).toNat = some { cls := 2, code := 2, index := w.sreg.toNat }))

/-! Reset, registers and slots. -/

/-- From R434, R20: at package reset nothing has run: every status entry reads off at time zero, device time is zero, no group, grid, task,
context, job or operation in flight exists, every cache is empty, and memory lists nothing and is in canonical form.
What the specification does not give is the model's choice (log entries 1, 2, 5 and 6). -/
def Obligations.ResetState : Prop :=
  State.reset.time = 0 ∧ State.reset.status.length = 130 ∧ (∀ e ∈ State.reset.status, e = (0, 0)) ∧ State.reset.groups = [] ∧
    State.reset.teams = [] ∧ State.reset.grids = [] ∧ State.reset.pool = [] ∧ State.reset.ctxs = [] ∧ State.reset.jobs = [] ∧
    State.reset.pend = [] ∧ State.reset.l1 = [] ∧ State.reset.l2 = [] ∧ State.reset.llc = [] ∧ State.reset.icache = [] ∧
    State.reset.tlb = [] ∧ State.reset.msgs = [] ∧ State.reset.outs = [] ∧ State.reset.mem = [] ∧ State.reset.memOk = true

/-- From R32, R31: s0 reads as zero whatever is written to it; another scalar register reads what was last written to it, and no other scalar
register changes; a mask keeps the bits of the lanes that exist; a vector register of a lane reads what was written to it.
From R98, R3: a byte of memory reads what was last written there, every other byte is unchanged, and memory keeps its canonical form.
That memory is a list in canonical form, where an unlisted byte reads 0, is the model's (log entry 2). -/
def Obligations.RegisterAndMemoryWrites : Prop :=
  (
    (∀ (g : Group) (n k : Nat) (v : W64), rs (ws g n v) k = if k = 0 then 0#64 else if k = n then v else rs g k) ∧
    (∀ (g : Group) (k k' : Nat) (v : W64) (l : Nat), l < 64 →
      (rm (wm g k v) k').getLsbD l = if k' = k then v.getLsbD l && decide (l < g.width) else (rm g k').getLsbD l) ∧
    (∀ (g : Group) (r l r' l' : Nat) (v : W64), l < 64 → l' < 64 → rv (wv g r l v) r' l' = if r' = r ∧ l' = l then v else rv g r' l')) ∧
  (
    (∀ (s : State) (a b : Nat) (v : Byte), rdByte (wrBytes s [(a, v)]) b = if b = a then v else rdByte s b) ∧
    (∀ (s : State) (l : List (Nat × Byte)), Memory.wf s.mem = true → Memory.wf (wrBytes s l).mem = true) ∧
    (∀ (s : State) (l : List (Nat × Byte)) (b : Nat), (∀ p ∈ l, p.1 ≠ b) → rdByte (wrBytes s l) b = rdByte s b) ∧
    (∀ (s t : State), Memory.wf s.mem = true → Memory.wf t.mem = true → (∀ a, rdByte s a = rdByte t a) → s.mem = t.mem))

/-- From R207, R214, R78: after a word has been performed its slot stands at the next word of its clause, or at the clause that follows, and
nothing else of the state changes but which slots the partitions are issuing.
From R244: a transfer sets the slot to start at its target, and changes nothing else but which slots the partitions are issuing.
From R229: after the first half of a pair word its slot stands at the word's second half; after the second half, where a performed word
leaves it. -/
def Obligations.WordsMoveTheirSlot : Prop :=
  (
    ∀ (s : State) (x : Issue) (g : Group), getG s x.g.gid = some g → Moved s x.g.gid x.b (x.w.getLsbD 55) (performed x s)) ∧
  (
    ∀ (s : State) (x : Issue) (t : Nat) (g : Group), getG s x.g.gid = some g →
      Transferred s x.g.gid x.b (x.w.getLsbD 55) t (jumped x s t)) ∧
  (
    (∀ (s : State) (x : Issue) (g : Group), getG s x.g.gid = some g → (slotOf g x.b).half = false →
      performedHalf x s = putG s (setSlot (setReplay g x.b none) x.b (halfDone (slotOf g x.b)))) ∧
    (∀ (s : State) (x : Issue) (g : Group), getG s x.g.gid = some g → (slotOf g x.b).half = true →
      Moved s x.g.gid x.b false (performedHalf x s)))

/-! Scalar words. -/

/-- From R238, R239: the arithmetic words write one function of their sources to d, A being register a and B the second source; a division by
zero gives all ones and leaves A as the remainder, and the most negative number divided by -1 gives itself and the remainder 0.
From R238, R240: the logic, shift, count and bitfield words. A shift uses bits [5:0] of its second source alone.
From R238, R241, R242: comparison, selection, moves, constants, addresses and special registers (R235: lane of the lowest active lane,
octet lane, group, team, cluster, grid, core, time, write-completion time, pass, slot). -/
def Obligations.ScalarWordResults : Prop :=
  (
    ∀ (s : State) (x : Issue) (w : SWord),
      (Issues s (.sAdd w) x → exec (.sAdd w) s = .next (performed x (putG s (ws x.g w.d.toNat (rs x.g w.a.toNat + srcB x.g w))))) ∧
      (Issues s (.sSub w) x → exec (.sSub w) s = .next (performed x (putG s (ws x.g w.d.toNat (rs x.g w.a.toNat - srcB x.g w))))) ∧
      (Issues s (.sMul w) x → exec (.sMul w) s = .next (performed x (putG s (ws x.g w.d.toNat (rs x.g w.a.toNat * srcB x.g w))))) ∧
      (Issues s (.sMulh w) x → exec (.sMulh w) s = .next (performed x (putG s (ws x.g w.d.toNat
        (if w.f7.getLsbD 0 then (((rs x.g w.a.toNat).setWidth 128 * (srcB x.g w).setWidth 128).extractLsb' 64 64)
         else (((rs x.g w.a.toNat).signExtend 128 * (srcB x.g w).signExtend 128).extractLsb' 64 64)))))) ∧
      (Issues s (.sDiv w) x → exec (.sDiv w) s = .next (performed x (putG s (ws x.g w.d.toNat
        (if srcB x.g w = 0#64 then BitVec.allOnes 64 else if w.f7.getLsbD 0 then rs x.g w.a.toNat / srcB x.g w
         else (rs x.g w.a.toNat).sdiv (srcB x.g w)))))) ∧
      (Issues s (.sRem w) x → exec (.sRem w) s = .next (performed x (putG s (ws x.g w.d.toNat
        (if srcB x.g w = 0#64 then rs x.g w.a.toNat else if w.f7.getLsbD 0 then rs x.g w.a.toNat % srcB x.g w
         else (rs x.g w.a.toNat).srem (srcB x.g w)))))) ∧
      (Issues s (.sMin w) x → exec (.sMin w) s = .next (performed x (putG s (ws x.g w.d.toNat
        (if (if w.f7.getLsbD 0 then BitVec.ult (srcB x.g w) (rs x.g w.a.toNat) else BitVec.slt (srcB x.g w) (rs x.g w.a.toNat))
         then srcB x.g w else rs x.g w.a.toNat))))) ∧
      (Issues s (.sMax w) x → exec (.sMax w) s = .next (performed x (putG s (ws x.g w.d.toNat
        (if (if w.f7.getLsbD 0 then BitVec.ult (rs x.g w.a.toNat) (srcB x.g w) else BitVec.slt (rs x.g w.a.toNat) (srcB x.g w))
         then srcB x.g w else rs x.g w.a.toNat)))))) ∧
  (
    ∀ (s : State) (x : Issue) (w : SWord),
      (Issues s (.sAnd w) x → exec (.sAnd w) s = .next (performed x (putG s (ws x.g w.d.toNat (rs x.g w.a.toNat &&& srcB x.g w))))) ∧
      (Issues s (.sOr w) x → exec (.sOr w) s = .next (performed x (putG s (ws x.g w.d.toNat (rs x.g w.a.toNat ||| srcB x.g w))))) ∧
      (Issues s (.sXor w) x → exec (.sXor w) s = .next (performed x (putG s (ws x.g w.d.toNat (rs x.g w.a.toNat ^^^ srcB x.g w))))) ∧
      (Issues s (.sAndn w) x → exec (.sAndn w) s = .next (performed x (putG s (ws x.g w.d.toNat (rs x.g w.a.toNat &&& ~~~srcB x.g w))))) ∧
      (Issues s (.sShl w) x → exec (.sShl w) s = .next (performed x (putG s (ws x.g w.d.toNat
        (rs x.g w.a.toNat <<< ((srcB x.g w).extractLsb' 0 6).toNat))))) ∧
      (Issues s (.sShr w) x → exec (.sShr w) s = .next (performed x (putG s (ws x.g w.d.toNat
        (rs x.g w.a.toNat >>> ((srcB x.g w).extractLsb' 0 6).toNat))))) ∧
      (Issues s (.sSar w) x → exec (.sSar w) s = .next (performed x (putG s (ws x.g w.d.toNat
        ((rs x.g w.a.toNat).sshiftRight ((srcB x.g w).extractLsb' 0 6).toNat))))) ∧
      (Issues s (.sClz w) x → ∃ n ≤ 64, exec (.sClz w) s = .next (performed x (putG s (ws x.g w.d.toNat (BitVec.ofNat 64 n)))) ∧
        (∀ k < n, (rs x.g w.a.toNat).getLsbD (63 - k) = false) ∧ (n < 64 → (rs x.g w.a.toNat).getLsbD (63 - n) = true)) ∧
      (Issues s (.sPopc w) x → exec (.sPopc w) s = .next (performed x (putG s (ws x.g w.d.toNat
        (BitVec.ofNat 64 ((List.range 64).countP (fun k => (rs x.g w.a.toNat).getLsbD k))))))) ∧
      (∀ b c (imm : BitVec 20), w.src = .reg b c imm → Issues s (.sBfx w) x → exec (.sBfx w) s = .next (performed x (putG s (ws x.g w.d.toNat
        (if w.f7.getLsbD 0 then ((rs x.g w.a.toNat).extractLsb' (imm.extractLsb' 0 6).toNat ((imm.extractLsb' 6 6).toNat + 1)).setWidth 64
         else ((rs x.g w.a.toNat).extractLsb' (imm.extractLsb' 0 6).toNat ((imm.extractLsb' 6 6).toNat + 1)).signExtend 64))))) ∧
      (∀ b c (imm : BitVec 20), w.src = .reg b c imm → Issues s (.sBfi w) x → ∃ v : W64,
        exec (.sBfi w) s = .next (performed x (putG s (ws x.g w.d.toNat v))) ∧
        ∀ k < 64, v.getLsbD k =
          if (imm.extractLsb' 0 6).toNat ≤ k ∧ k < (imm.extractLsb' 0 6).toNat + (imm.extractLsb' 6 6).toNat + 1
          then (rs x.g b.toNat).getLsbD (k - (imm.extractLsb' 0 6).toNat) else (rs x.g w.a.toNat).getLsbD k) ∧
      (∀ b c (imm : BitVec 20), w.src = .reg b c imm → Issues s (.sSxt w) x → exec (.sSxt w) s = .next (performed x (putG s (ws x.g w.d.toNat
        (((rs x.g w.a.toNat).setWidth ((imm.extractLsb' 0 6).toNat + 1)).signExtend 64))))) ∧
      (∀ b c (imm : BitVec 20), w.src = .reg b c imm → Issues s (.sZxt w) x → exec (.sZxt w) s = .next (performed x (putG s (ws x.g w.d.toNat
        (((rs x.g w.a.toNat).setWidth ((imm.extractLsb' 0 6).toNat + 1)).setWidth 64)))))) ∧
  (
    ∀ (s : State) (x : Issue) (w : SWord),
      (Issues s (.sCmp w) x → exec (.sCmp w) s = .next (performed x (putG s (ws x.g w.d.toNat
        (if (match w.f7.toNat % 8 with
          | 0 => rs x.g w.a.toNat == srcB x.g w
          | 1 => rs x.g w.a.toNat != srcB x.g w
          | 2 => if w.f7.getLsbD 3 then BitVec.ult (rs x.g w.a.toNat) (srcB x.g w) else BitVec.slt (rs x.g w.a.toNat) (srcB x.g w)
          | 3 => if w.f7.getLsbD 3 then BitVec.ule (rs x.g w.a.toNat) (srcB x.g w) else BitVec.sle (rs x.g w.a.toNat) (srcB x.g w)
          | 4 => if w.f7.getLsbD 3 then BitVec.ult (srcB x.g w) (rs x.g w.a.toNat) else BitVec.slt (srcB x.g w) (rs x.g w.a.toNat)
          | _ => if w.f7.getLsbD 3 then BitVec.ule (srcB x.g w) (rs x.g w.a.toNat) else BitVec.sle (srcB x.g w) (rs x.g w.a.toNat)) = true
         then 1#64 else 0#64))))) ∧
      (∀ b c imm, w.src = .reg b c imm → Issues s (.sSel w) x → exec (.sSel w) s = .next (performed x (putG s (ws x.g w.d.toNat
        (if rs x.g c.toNat = 0#64 then rs x.g b.toNat else rs x.g w.a.toNat))))) ∧
      (Issues s (.sMov w) x → exec (.sMov w) s = .next (performed x (putG s (ws x.g w.d.toNat (rs x.g w.a.toNat))))) ∧
      (∀ imm : BitVec 32, w.src = .imm imm → Issues s (.sLi w) x →
        exec (.sLi w) s = .next (performed x (putG s (ws x.g w.d.toNat (imm.signExtend 64))))) ∧
      (∀ imm : BitVec 32, w.src = .imm imm → Issues s (.sLih w) x →
        exec (.sLih w) s = .next (performed x (putG s (ws x.g w.d.toNat (imm ++ (rs x.g w.a.toNat).setWidth 32))))) ∧
      (∀ imm : BitVec 32, w.src = .imm imm → Issues s (.sLea w) x →
        exec (.sLea w) s = .next (performed x (putG s (ws x.g w.d.toNat (rs x.g w.a.toNat + imm.signExtend 64))))) ∧
      (∀ b c (imm : BitVec 20), w.src = .reg b c imm → Issues s (.sLea w) x →
        exec (.sLea w) s = .next (performed x (putG s (ws x.g w.d.toNat
          ((if w.f7.getLsbD 6 then BitVec.ofNat 64 (slotOf x.g x.b).clause else rs x.g w.a.toNat) +
            rs x.g b.toNat <<< (w.f7.toNat % 4) + imm.signExtend 64))))) ∧
      (∀ b c (imm : BitVec 20) (l : Nat), w.src = .reg b c imm → Issues s (.sSr w) x → l < 64 → (slotOf x.g x.b).mask.getLsbD l = true →
        (∀ k < l, (slotOf x.g x.b).mask.getLsbD k = false) →
        exec (.sSr w) s = .next (performed x (putG s (ws x.g w.d.toNat
          (match imm.toNat with
            | 0 => BitVec.ofNat 64 l
            | 1 => BitVec.ofNat 64 (l % 8)
            | 2 => BitVec.ofNat 64 x.g.num
            | 3 => BitVec.ofNat 64 (if x.g.task then 0xFFFFFFFF else x.g.tidx)
            | 4 => BitVec.ofNat 64 (if x.g.task then 0xFFFFFFFF else x.g.cluster)
            | 5 => BitVec.ofNat 64 x.g.grid
            | 6 => BitVec.ofNat 64 x.g.core
            | 7 => BitVec.ofNat 64 s.time
            | 8 => BitVec.ofNat 64 x.g.wct
            | 9 => x.g.pass
            | _ => BitVec.ofNat 64 (if x.b then 1 else 0)))))))

/-- From R33, R236: what a scalar word leaves alone. It is performed once for its slot; apart from register d, its slot's place and the replay
that was due, its group is unchanged (every other scalar register, every vector register, mask, flag, accumulator and exception register),
and so are every other group, every byte of memory and of local memory, and the rest of the state; a write to s0 changes no register. -/
def Obligations.ScalarWordsFrame : Prop :=
  ∀ (s : State) (x : Issue) (w : SWord) (i : Instr),
    i ∈ [.sAdd w, .sSub w, .sMul w, .sMulh w, .sDiv w, .sRem w, .sAnd w, .sOr w, .sXor w, .sAndn w, .sShl w, .sShr w, .sSar w, .sMin w,
      .sMax w, .sClz w, .sPopc w, .sBfx w, .sBfi w, .sSxt w, .sZxt w, .sCmp w, .sSel w, .sMov w, .sLi w, .sLih w, .sLea w, .sSr w] →
    Issues s i x →
    ∃ (t : State) (v : W64) (sl : Slot) (ps : List Part), exec i s = .next t ∧
      t = withParts (putG s (setSlot (setReplay (ws x.g w.d.toNat v) x.b none) x.b sl)) ps ∧
      sl.mask = (slotOf x.g x.b).mask ∧ sl.depth = (slotOf x.g x.b).depth ∧
      (∀ a, rdByte t a = rdByte s a) ∧ t.teams = s.teams ∧ (∀ n, n ≠ x.g.gid → getG t n = getG s n)

/-! Two rules stated whole. -/

/-- From R239: `s.div` rounds the quotient toward zero and `s.rem` gives the dividend less the divisor times that quotient, in the signed and the
unsigned reading; a divisor of 0 gives all ones and the dividend, and -2^63 divided by -1 gives -2^63 and 0. Neither traps. -/
def Obligations.DivisionWords : Prop :=
  ∀ (s : State) (x : Issue) (w : SWord) (a b : W64), a = rs x.g w.a.toNat → b = srcB x.g w →
    (Issues s (.sDiv w) x → ∃ q, exec (.sDiv w) s = .next (performed x (putG s (ws x.g w.d.toNat q))) ∧
      (b = 0#64 → q = 0xFFFFFFFFFFFFFFFF#64) ∧
      (b ≠ 0#64 → w.f7.getLsbD 0 = true → q.toNat = a.toNat / b.toNat) ∧
      (b ≠ 0#64 → w.f7.getLsbD 0 = false → ¬ (a.toInt = -2 ^ 63 ∧ b.toInt = -1) → q.toInt = a.toInt.tdiv b.toInt) ∧
      (w.f7.getLsbD 0 = false → a.toInt = -2 ^ 63 → b.toInt = -1 → q.toInt = -2 ^ 63)) ∧
    (Issues s (.sRem w) x → ∃ r, exec (.sRem w) s = .next (performed x (putG s (ws x.g w.d.toNat r))) ∧
      (b = 0#64 → r = a) ∧
      (b ≠ 0#64 → w.f7.getLsbD 0 = true → r.toNat = a.toNat - b.toNat * (a.toNat / b.toNat)) ∧
      (b ≠ 0#64 → w.f7.getLsbD 0 = false → r.toInt = a.toInt - b.toInt * a.toInt.tdiv b.toInt) ∧
      (w.f7.getLsbD 0 = false → a.toInt = -2 ^ 63 → b.toInt = -1 → r = 0#64))

/-- From R293: `x.shf` takes from the lane b[5:0] names, rotated by b[13:8] sub-elements, into each active lane; a lane beyond the group gives zero;
b may be a scalar, and bits of fn[5:0], or of c where no fragment is
read, that are set make the word illegal. -/
def Obligations.ShuffleWord : Prop :=
  (∀ (s : State) (x : Issue) (w : VWord) (n : Nat), n = 64 / widV w → Issues s (.xShf w) x → tileHold s x w true true = none →
    BlockResult s x (.xShf w) false w.d.toNat (rowsV w) (colsV w) (widV w) x.active (fun r c l k =>
      if x.g.width ≤ (srcV x w w.b r c l).toNat % 64 ∨ (w.fn.getLsbD 6 = true ∧ x.active.getLsbD ((srcV x w w.b r c l).toNat % 64) = false) then 0
      else elem (widV w) ((k + (srcV x w w.b r c l).toNat / 256 % 64) % n) (srcV x w w.a r c ((srcV x w w.b r c l).toNat % 64)))) ∧
  (∀ (x : Issue) (w : VWord) (r c l : Nat), isSca w.b.toNat = true → srcV x w w.b r c l = rs x.g (w.b.toNat - 352)) ∧
  (∀ (g : Group) (sl : Slot) (w : VWord), (w.fn.extractLsb' 0 6 ≠ 0#6 ∨ (w.c ≠ 0#9 ∧ isAcc w.a.toNat = false ∧ isAcc w.b.toNat = false)) →
    ∃ f, wordFault g sl (.xShf w) ((encode (.xShf w)).getD 0#64).toNat = some f ∧ f.cls = 1)

/-! Exceptions. -/

/-- From R446, R267: taking an exception with a handler. The group keeps EPC, EIDX, the lanes done and the record; the slot goes to the trap
clause of the launch record, where it waits for the group's loads, special-function results, tiles and stores; the other slot, unless it is
free or within a clause, parks; no register, mask, flag or accumulator of the group changes. -/
def Obligations.TakingAnException : Prop :=
  ∀ (s : State) (g : Group) (b hdr : Bool) (f : FInfo) (epc eidx : Nat), getG s g.gid = some g → trapOf s g ≠ 0 → g.handler = none →
    toHandler f.cls = true →
    ∃ (g' : Group) (h : Handler), getG (takeException s g b hdr f epc eidx) g.gid = some g' ∧ g'.handler = some h ∧ h.slotB = b ∧ h.epc = epc ∧
      h.eidx = eidx ∧ h.done = f.done ∧ h.lanes = recLanes g b f ∧ h.mask = (slotOf g b).mask ∧ h.frec = mkRecord s g b hdr f (recLanes g b f) ∧
      (slotOf g' b).clause = trapOf s g ∧ (slotOf g' b).idx = 0 ∧ (slotOf g' b).started = false ∧ (slotOf g' b).park = some .drain ∧
      (slotOf g' b).mask = (slotOf g b).mask ∧
      ((slotOf g (!b)).st ≠ .free → (slotOf g (!b)).started = false → (slotOf g' (!b)).park = some .handler) ∧
      g'.s = g.s ∧ g'.v = g.v ∧ g'.m = g.m ∧ g'.flags = g.flags ∧ g'.acc = g.acc ∧ g'.par = g.par ∧ g'.scr = g.scr ∧ g'.wcb = [] ∧
      (takeException s g b hdr f epc eidx).mem = s.mem ∧ (takeException s g b hdr f epc eidx).teams = s.teams

/-- From R444: the fault record's eight 64-bit words: the class, code, context, core, partition, group, team and slot; the cluster and grid; the
program counter; the word's lanes; the lanes done; the address; whether a lane is named and its number, the engine, unit and index; the
time.
From R448: a fault with no handler, or inside one, goes to the resident service: the record is the last message sent, a notice of code 32
for the context, and a running context is stopping for that class. -/
def Obligations.FaultRecords : Prop :=
  (
    ∀ (s : State) (g : Group) (b : Bool) (f : FInfo) (lanes : W64), f.cls < 256 → f.code < 2 ^ 24 → g.ctx < 4096 → g.core < 128 → g.part < 4 →
      g.num < 32 → g.tidx < 16 → g.task = false → g.cluster < 2 ^ 32 → g.grid < 2 ^ 32 → f.addr < 2 ^ 64 → s.time < 2 ^ 64 → f.index < 2 ^ 32 →
      f.unit < 256 → f.eng < 16 → (slotOf g b).clause < 2 ^ 56 → (slotOf g b).idx < 16 →
      ∃ q0 q1 q2 q6 : W64, mkRecord s g b false f lanes = [q0, q1, q2, lanes, f.done, BitVec.ofNat 64 f.addr, q6, BitVec.ofNat 64 s.time] ∧
        (q0.extractLsb' 56 8).toNat = f.cls ∧ (q0.extractLsb' 32 24).toNat = f.code ∧ (q0.extractLsb' 20 12).toNat = g.ctx ∧
        (q0.extractLsb' 13 7).toNat = g.core ∧ (q0.extractLsb' 11 2).toNat = g.part ∧ (q0.extractLsb' 6 5).toNat = g.num ∧
        (q0.extractLsb' 2 4).toNat = g.tidx ∧ q0.getLsbD 1 = b ∧ q0.getLsbD 0 = false ∧
        (q1.extractLsb' 32 32).toNat = g.cluster ∧ (q1.extractLsb' 0 32).toNat = g.grid ∧
        (q2.extractLsb' 60 4).toNat = (slotOf g b).idx ∧ (q2.extractLsb' 0 57).toNat = (slotOf g b).clause + 8 * ((slotOf g b).idx + 1) ∧
        (q6.extractLsb' 0 32).toNat = f.index ∧ (q6.extractLsb' 40 8).toNat = f.unit ∧ (q6.extractLsb' 48 4).toNat = f.eng ∧
        q6.getLsbD 63 = f.lane.isSome ∧ (∀ l, l < 64 → f.lane = some l → (q6.extractLsb' 57 6).toNat = l)) ∧
  (
    ∀ (s : State) (g : Group) (b hdr : Bool) (f : FInfo) (epc eidx : Nat) (c : Context), getG s g.gid = some g →
      (trapOf s g = 0 ∨ g.handler ≠ none) → getC s g.ctx = some c → c.run = .running →
      (∃ m : Msg, (takeException s g b hdr f epc eidx).msgs = s.msgs ++ [m] ∧ m.code = 32 ∧ m.dir = 2 ∧ m.ctx = g.ctx ∧
        m.payload = recordBytes (mkRecord s g b hdr f (recLanes g b f))) ∧
      (∃ c' : Context, getC (takeException s g b hdr f epc eidx) g.ctx = some c' ∧ c'.run = .stopping f.cls) ∧
      (∃ g' : Group, getG (takeException s g b hdr f epc eidx) g.gid = some g' ∧ (slotOf g' b).clause = epc ∧ (slotOf g' b).idx = eidx ∧
        g'.s = g.s ∧ g'.v = g.v ∧ g'.m = g.m))

/-- From R269: `rte` resumes the handler's slot at word EIDX of the clause at EPC with the lanes it held, leaves the handler, and gives the other
slot back the park it had; the word a fault names issues again for the record's lanes that are not in DONE. The clause there may be fetched;
a switch marker on `rte` holds the group while results are outstanding (R78).
That a replay limits only the faulting word is log entry 56. -/
def Obligations.ReturnFromException : Prop :=
  ∀ (s : State) (x : Issue) (w : YWord) (h : Handler) (k : Nat), Issues s (.rte w) x → x.g.handler = some h → h.mark = none →
    targetBad h.epc = none → transferStop s x h.epc = none → codeBad s x.g h.epc 8 = none →
    ∀ q, iWord (iFill s x.g h.epc 8) x.g h.epc = some q → k = fld q.toNat 60 4 → h.eidx ≤ k →
    (∀ a ∈ clauseTail h.epc q, transferStop s x a = none) →
    ∃ t g', exec (.rte w) s = .next t ∧ t = holdGroup (returnException (iFill s x.g h.epc 8) x.g h) x.g.gid (x.w.getLsbD 55) ∧
      getG t x.g.gid = some g' ∧
      g'.handler = none ∧ (slotOf g' h.slotB).clause = h.epc ∧ (slotOf g' h.slotB).idx = h.eidx ∧ (slotOf g' h.slotB).park = none ∧
      (slotOf g' h.slotB).mask = h.mask ∧
      ((slotOf x.g (!h.slotB)).park = some .handler → (slotOf g' (!h.slotB)).park = h.other) ∧
      (h.word = some (h.epc, h.eidx) →
        h.before = none → ∃ r, replayOn g' h.slotB = some r ∧ r.clause = h.epc ∧ r.idx = h.eidx ∧ r.exact = true ∧
          r.lanes = h.lanes &&& ~~~h.done) ∧
      g'.s = x.g.s ∧ g'.v = x.g.v ∧ g'.m = x.g.m ∧ g'.flags = x.g.flags

/-! Control words. -/

/-- From R245, R43, R246: `br` transfers; `bc` transfers when its condition holds of its scalar, else goes on; `bv` transfers when no lane stays
and goes on when none leaves; `loop` counts down and transfers until zero. The target is the clause header's address plus eight times the
offset, and may be fetched (R249); a target that is no 57-bit address is a page fault at the branch (R119).
That a target is checked at the transferring word is log entry 18. -/
def Obligations.BranchesTransfer : Prop :=
  ∀ (s : State) (x : Issue) (w : CWord) (t : Nat), t = ((((slotOf x.g x.b).clause : Int) + 8 * w.off.toInt) % 2 ^ 64).toNat →
    (Issues s (.br w) x → transferStop s x t = none → exec (.br w) s = .next (jumped x (spinTake s x t) t)) ∧
    (Issues s (.br w) x → 2 ^ 57 ≤ t → exec (.br w) s = .next (raised x (clearWalks s x.g.gid) { cls := 7, code := 1, addr := t, index := 4 })) ∧
    (∀ taken : Bool, taken = (match w.cf.toNat % 8 with
        | 0 => decide ((rs x.g w.ra.toNat).toInt = 0)
        | 1 => decide ((rs x.g w.ra.toNat).toInt ≠ 0)
        | 2 => decide ((rs x.g w.ra.toNat).toInt < 0)
        | 3 => decide ((rs x.g w.ra.toNat).toInt ≥ 0)
        | 4 => decide ((rs x.g w.ra.toNat).toInt ≤ 0)
        | 5 => decide ((rs x.g w.ra.toNat).toInt > 0)
        | 6 => (rs x.g w.ra.toNat).getLsbD 0
        | _ => !(rs x.g w.ra.toNat).getLsbD 0) →
      Issues s (.bc w) x → transferStop s x t = none →
      exec (.bc w) s = .next (if taken then jumped x (spinTake s x t) t else performed x s)) ∧
    (∀ c : W64, c = (if w.cf.getLsbD 3 then ~~~rm x.g (w.cf.toNat % 8) else rm x.g (w.cf.toNat % 8)) →
      Issues s (.bv w) x → transferStop s x t = none →
      ((slotOf x.g x.b).mask &&& ~~~c = 0#64 → exec (.bv w) s = .next (jumped x (spinTake s x t) t)) ∧
      ((slotOf x.g x.b).mask &&& ~~~c ≠ 0#64 → (slotOf x.g x.b).mask &&& c = 0#64 → exec (.bv w) s = .next (performed x s))) ∧
    (∀ n : W64, n = rs x.g w.cf.toNat - 1#64 → Issues s (.loop w) x → transferStop s x t = none →
      exec (.loop w) s = .next (if n = 0#64 then performed x (putG s (ws x.g w.cf.toNat n))
        else jumped x (spinTake (putG s (ws x.g w.cf.toNat n)) x t) t))

/-- From R43, R42: `bv` that divides its lanes. With the other slot free the leaving lanes start there at the target and the slot keeps the rest;
else, with room on the slot's stack, the rest is pushed with the address of the next clause and the slot goes on with the leaving lanes; with
a full stack the word faults.
From R44, R45: `join` and `exit` by what the slot's stack and the other slot hold. A slot that is freed may leave its group at a barrier, which
releases the groups of its team that wait at a `regroup` (R48); a switch marker holds the group while results are outstanding (R78). -/
def Obligations.DivergenceAndJoin : Prop :=
  (
    ∀ (s : State) (x : Issue) (w : CWord) (t : Nat) (c l r : W64), t = targetC x w.off →
      c = (if w.cf.getLsbD 3 then ~~~rm x.g (w.cf.toNat % 8) else rm x.g (w.cf.toNat % 8)) →
      l = (slotOf x.g x.b).mask &&& c → r = (slotOf x.g x.b).mask &&& ~~~l → l ≠ 0#64 → r ≠ 0#64 → Issues s (.bv w) x → transferStop s x t = none →
      ((slotOf x.g (!x.b)).st = .free → exec (.bv w) s = .next (performed x (putG s (setSlot (withMask x.g x.b r) (!x.b)
        { st := .running, clause := t, mask := l, last := s.time, waitSince := s.time, extSince := s.time })))) ∧
      ((slotOf x.g (!x.b)).st ≠ .free → (slotOf x.g x.b).depth < x.g.depthD →
        exec (.bv w) s = .next (jumped x (putG (stackPush s x.g x.b 0 x.nextClause r)
          (setSlot x.g x.b { slotOf x.g x.b with mask := l, depth := (slotOf x.g x.b).depth + 1 })) t)) ∧
      ((slotOf x.g (!x.b)).st ≠ .free → x.g.depthD ≤ (slotOf x.g x.b).depth →
        exec (.bv w) s = .next (raised x s { cls := 9, code := 1, index := (slotOf x.g x.b).depth }))) ∧
  (
    (∀ (s : State) (x : Issue) (w : CWord) (j : Nat), j = targetC x w.off → Issues s (.join w) x →
      (∀ p m, stackTop s x.g x.b = some (0, p, m) → exec (.join w) s = .next (jumped x
        (putG (stackPush s (setSlot x.g x.b { slotOf x.g x.b with depth := (slotOf x.g x.b).depth - 1 }) x.b 1 j (slotOf x.g x.b).mask)
          (withMask x.g x.b m)) p)) ∧
      (∀ k m, stackTop s x.g x.b = some (k + 1, j, m) → transferStop s x j = none → exec (.join w) s = .next (jumped x
        (putG s (setSlot x.g x.b { slotOf x.g x.b with depth := (slotOf x.g x.b).depth - 1, mask := (slotOf x.g x.b).mask ||| m })) j)) ∧
      (stackTop s x.g x.b = none → (slotOf x.g (!x.b)).st = .free → transferStop s x j = none → exec (.join w) s = .next (jumped x s j)) ∧
      (stackTop s x.g x.b = none → (slotOf x.g (!x.b)).st = .running → exec (.join w) s = .next
        (holdGroup (leavePart (putG s (setSlot x.g x.b { slotOf x.g x.b with st := .waiting j, park := none })) x.g x.b) x.g.gid
          (x.w.getLsbD 55))) ∧
      (stackTop s x.g x.b = none → (slotOf x.g (!x.b)).st = .waiting j → (slotOf x.g (!x.b)).depth = 0 → transferStop s x j = none →
        exec (.join w) s = .next (settleSlots (jumped x (putG s (setSlot (withMask x.g x.b
          ((slotOf x.g x.b).mask ||| (slotOf x.g (!x.b)).mask)) (!x.b) {})) j) x.g.gid))) ∧
    (∀ (s : State) (x : Issue) (w : SWord), Issues s (.exit w) x →
      (stackTop s x.g x.b = none → exec (.exit w) s = .next (regroupRelease (settleSlots (holdGroup
        (leavePart (putG s (setSlot x.g x.b {})) x.g x.b) x.g.gid (x.w.getLsbD 55)) x.g.gid) x.g.team)) ∧
      (∀ k a m, stackTop s x.g x.b = some (k, a, m) → exec (.exit w) s = .next (settleSlots (jumped x
        (putG s (setSlot x.g x.b { slotOf x.g x.b with depth := (slotOf x.g x.b).depth - 1, mask := m })) a) x.g.gid))))

/-- From R248, R249, R251: calls write the address of the next clause's header to their register and transfer; `bx`, `callx` and `ret` go to the
address in a register, which must be a multiple of 8 below 2^57; `bt` goes on when its index is above its bound, else to the address its
table holds, read through the instruction cache. -/
def Obligations.CallsAndIndirectTransfers : Prop :=
  (∀ (s : State) (x : Issue) (w : CWord), Issues s (.call w) x → transferStop s x (targetC x w.off) = none →
    exec (.call w) s = .next (jumped x (putG s (ws x.g w.ra.toNat
      (BitVec.ofNat 64 ((slotOf x.g x.b).clause + 8 * (fld (slotOf x.g x.b).hdr.toNat 60 4 + 2))))) (targetC x w.off))) ∧
  (∀ (s : State) (x : Issue) (w : SWord) (t : Nat), t = (rs x.g w.a.toNat).toNat → t % 8 = 0 → t < 2 ^ 57 → transferStop s x t = none →
    (Issues s (.callx w) x → exec (.callx w) s = .next (jumped x (putG s (ws x.g w.d.toNat
      (BitVec.ofNat 64 ((slotOf x.g x.b).clause + 8 * (fld (slotOf x.g x.b).hdr.toNat 60 4 + 2))))) t)) ∧
    (Issues s (.bx w) x → exec (.bx w) s = .next (jumped x s t)) ∧ (Issues s (.ret w) x → exec (.ret w) s = .next (jumped x s t))) ∧
  (∀ (s : State) (x : Issue) (w : SWord) (t : Nat), t = (rs x.g w.a.toNat).toNat → t % 8 ≠ 0 →
    (Issues s (.callx w) x → exec (.callx w) s = .next (raised x s { cls := 8, code := 1, addr := t })) ∧
    (Issues s (.bx w) x → exec (.bx w) s = .next (raised x s { cls := 8, code := 1, addr := t })) ∧
    (Issues s (.ret w) x → exec (.ret w) s = .next (raised x s { cls := 8, code := 1, addr := t }))) ∧
  (∀ (s : State) (x : Issue) (w : CWord) (i a : Nat), i = (rs x.g w.ra.toNat).toNat → a = (targetC x w.off + 8 * i) % 2 ^ 64 →
    Issues s (.bt w) x →
    (w.cf.toNat < i → exec (.bt w) s = .next (performed x s)) ∧
    (∀ (q : W64) (t : Nat), i ≤ w.cf.toNat → transferStop s x a = none → codeBad s x.g a 8 = none → iWord (iFill s x.g a 8) x.g a = some q → t = q.toNat →
      t % 8 = 0 → t < 2 ^ 57 → transferStop (iFill s x.g a 8) x t = none →
      exec (.bt w) s = .next (jumped x (iFill s x.g a 8) t)))

/-- From R253, R254, R260: `yield` parks its slot at the next clause; `nap` with no time and no address writes 0, with a time alone parks until the
time, and writes its cause once it has woken; the prefetch, pin and unpin words move lines of the instruction cache, once the pages of their
lines have been walked.
From R47, R257, R259: `regroup` waits with its key once every result of the group has returned; `spawn` puts one task for each active lane in
the core's pool when all its records can be read and there is room; `launch`, once what precedes it is ordered at .dv, places the record on
its queue and writes 0 to d, or 1 when the queue is full.
That spawn and launch read their records in their own step is log entry 19. -/
def Obligations.WaitingAndGroupWords : Prop :=
  (
    (∀ (s : State) (x : Issue) (w : SWord), Issues s (.yield w) x →
      exec (.yield w) s = .next (holdGroup (leavePart (putG s (setSlot x.g x.b
        { atClause (slotOf x.g x.b) x.nextClause with park := some .yield })) x.g x.b) x.g.gid (x.w.getLsbD 55))) ∧
    (∀ (s : State) (x : Issue) (w : SWord) (b c : BitVec 6) (i : BitVec 20), w.src = .reg b c i → Issues s (.nap w) x →
      (x.slot.park = none → rs x.g w.a.toNat = 0#64 → rs x.g b.toNat = 0#64 → exec (.nap w) s = .next (performed x
        (putG (clearWalks s x.g.gid) (ws (walkDone x.g x.b) w.d.toNat 0#64)))) ∧
      (x.slot.park = none → rs x.g w.a.toNat ≠ 0#64 → rs x.g b.toNat = 0#64 → exec (.nap w) s = .next (parked x s
        (.nap (some (s.time + min (rs x.g w.a.toNat).toNat 1000000000)) none 0))) ∧
      (∀ d l k, x.slot.park = some (.nap d l k) → k ≠ 0 → exec (.nap w) s = .next (performed x
        (putG (clearWalks s x.g.gid) (ws (walkDone x.g x.b) w.d.toNat (BitVec.ofNat 64 k)))))) ∧
    (∀ (s : State) (x : Issue) (w : CWord),
      (Issues s (.ipf w) x → ipMiss s x w = none → exec (.ipf w) s = .next (performed x (clearWalks
        (((ipLines x w).filter (fun k => (codeBad s x.g (k * 128) 1).isNone)).foldl (fun s k => iFill s x.g (k * 128) 1) s) x.g.gid))) ∧
      (Issues s (.iunpin w) x → ipMiss s x w = none → ∃ l, exec (.iunpin w) s = .next (performed x (clearWalks { s with icache := l } x.g.gid)) ∧
        ∀ k ∈ l, ¬ (k.core = x.g.core ∧ k.expiry = none ∧ k.pinCtx = x.g.ctx ∧
          ∃ a ∈ ipLines x w, ∃ p, codeAt s x.g (a * 128) = some p ∧ k.line = p.1 / 128)) ∧
      (Issues s (.ipin w) x → ipMiss s x w = none → (∀ k ∈ ipLines x w, fetchFault s x.g x.b (k * 128) = none ∧ codeBad s x.g (k * 128) 1 = none ∧
          ∀ p, codeAt s x.g (k * 128) = some p → homeReady s p.1 = true) →
        exec (.ipin w) s = .next (performed x (clearWalks (((ipLines x w).filterMap (fun k => codeAt s x.g (k * 128))).foldl (fun s p =>
          if (pinOf s x.g.core (p.1 / 128)).isSome || isCxl (p.1 / 128 * 128) then s
          else iInstall s x.g.core (p.1 / 128) p.2 (if pinned s x.g.core < 512 then some x.g.ctx else none)) s) x.g.gid))))) ∧
  (
    (∀ (s : State) (x : Issue) (w : VWord), Issues s (.regroup w) x → (slotOf x.g (!x.b)).st = .free → (slotOf x.g x.b).depth = 0 → x.g.spec = none →
      allQuiet s x.g = true → x.g.due = [] →
      exec (.regroup w) s = .next (regroupWait s x.g.gid x.b (rs x.g (w.a.toNat - 352)))) ∧
    (∀ (s : State) (x : Issue) (w : VWord) (r : Grid) (k : Nat) (good : List Lane) (s1 : State) (recs : List (Lane × List Byte)),
      Issues s (.spawn w) x → getGrid s x.g.ctx x.g.grid = some r → (lrecOf r.lrec).trows ≠ 0 → k = (rs x.g (w.c.toNat - 352)).toNat → k % 8 = 0 →
      k < 2 ^ 57 → (lanesOf x.active).map (fun l => spawnLane s x.g l (rv x.g w.a.toNat l).toNat (rv x.g w.b.toNat l).toNat) = good.map LaneRes.ok →
      good.length ≤ poolRoom s x.g.ctx x.g.core → spawnRead (drainWcb s x.g.gid) x.g good = some (.inr (s1, recs)) →
      exec (.spawn w) s = .next (performed x (clearWalks
        (recs.foldl (fun t p => addTask t x.g (rv x.g w.a.toNat p.1.lane).toNat k s1.nextId p.2) s1) x.g.gid))) ∧
    (∀ (s : State) (x : Issue) (w : SWord) (b c : BitVec 6) (i : BitVec 20) (a q : Nat) (ls : List Lane) (s1 : State) (bytes : List Byte),
      w.src = .reg b c i → Issues s (.launch w) x → a = (rs x.g w.a.toNat).toNat → q = (rs x.g b.toNat).toNat → a % 64 = 0 → a < 2 ^ 57 → q ≤ 15 →
      (List.range 4).map (fun k => laneCheck s x.g 0 (a + 64 * k) 64 1 1 false 1) = ls.map LaneRes.ok → releaseWait s x.g .dv = none →
      readNow s x.g (ls.flatMap (fun l => l.pas)) = some (.inr (s1, bytes)) →
      exec (.launch w) s = .next (performed x (clearWalks (launchOp (enqueue s1 x.g.ctx q a bytes).1 x.g.gid x.g.ctx x.g.core .loads
        (.value [(2 ^ 20 + w.d.toNat, if (enqueue s1 x.g.ctx q a bytes).2 then 0#64 else 1#64)])) x.g.gid))))

/-! System words. -/

/-- From R267, R265, R263, R264: `trap` takes an exception of class 0 with its immediate as the code and the next clause as EPC; `bkpt` sends a
record of code 33 and, without a debugger, goes on; `prio` sets the priority to the lesser of its immediate and the launched priority; `nop`
does nothing; `halt` stops a control core's slot at the next clause.
Whether a debugger is attached is a free bit (log entry 43). -/
def Obligations.SystemWordsEffects : Prop :=
  ∀ (s : State) (x : Issue) (w : YWord),
    (Issues s (.trap w) x → exec (.trap w) s = .next (leavePart (takeException s x.g x.b false { cls := 0, code := w.imm24.toNat }
      ((slotOf x.g x.b).clause + 8 * (fld (slotOf x.g x.b).hdr.toNat 60 4 + 2)) 0) x.g x.b)) ∧
    (∀ c : Context, Issues s (.bkpt w) x → getC s x.g.ctx = some c → c.debugger = false → exec (.bkpt w) s = .next (performed x
      (notice s c.job x.g.ctx 33 (recordBytes (mkRecord s x.g x.b false { cls := 0, code := w.imm24.toNat } x.exec))))) ∧
    (Issues s (.prio w) x → exec (.prio w) s = .next (performed x (putG s { x.g with prio := min (w.imm24.toNat % 8) x.g.base }))) ∧
    (Issues s (.nop w) x → exec (.nop w) s = .next (performed x s)) ∧
    (Issues s (.halt w) x → exec (.halt w) s = .next (leavePart (putG s (setSlot x.g x.b
      { atClause (slotOf x.g x.b) x.nextClause with park := some .halt })) x.g x.b))

/-- From R261, R270: `sys.get` and `sys.set` complete for every register number that may be read or written: a read writes to d what the register
holds, or an open value where nothing states one, and a write performs the register's own write. What they read and write: FLAGS, DRAW,
CURPRIO, DSDEPTH, CTXID, the fault record, EPC, EIDX, DONE and the scratch registers; outside a handler the handler's registers read zero and
ignore writes. A register the word may not reach never comes to this: it is illegal with code 11, or privileged.
From R429, R438: the service's registers, in context 0. `sys.get` and `sys.set` reach CTXSEL, the selected context's root table, queue
priorities, random key (which reads as zero) and cane pairs, ATBASE and the status block's address; a write of ATINV completes with the targets
holding the tables that memory holds at ATBASE and the invalidation begun, which reads as 1, the tables before it being kept for reports; a write of WAKE completes with the halted control
cores it names restarted.
A value the specification leaves open is a free value (log entry 6); the layout of the access tables at ATBASE is the model's (log entry 86). -/
def Obligations.SpecialRegisters : Prop :=
  (
    (∀ (s : State) (x : Issue) (w : YWord), Issues s (.sysGet w) x →
      (sregOpen s w.sreg.toNat = false →
        exec (.sysGet w) s = .next (performed x (putG s (ws x.g w.d.toNat (sregRead s x w.sreg.toNat))))) ∧
      (sregOpen s w.sreg.toNat = true →
        exec (.sysGet w) s = .next (performed x (tickFree (putG s (ws x.g w.d.toNat (openValue s))))))) ∧
    (∀ (s : State) (x : Issue) (w : YWord), Issues s (.sysSet w) x →
      exec (.sysSet w) s = .next (performed x (sregWrite s x.g w.sreg.toNat (rs x.g w.a.toNat)))) ∧
    (∀ (s : State) (x : Issue),
      sregRead s x 0 = x.g.flags.setWidth 64 ∧ sregRead s x 1 = x.g.draw ∧
      sregRead s x 2 = (if (slotOf x.g x.b).floor = none then BitVec.ofNat 64 x.g.prio else BitVec.allOnes 64) ∧
      sregRead s x 3 = BitVec.ofNat 64 (slotOf x.g x.b).depth ∧ sregRead s x 4 = BitVec.ofNat 64 x.g.ctx ∧
      (∀ k, k < 4 → sregRead s x (0x120 + k) = fget 0#64 k x.g.scr) ∧
      (∀ h : Handler, x.g.handler = some h → (∀ k, k < 8 → sregRead s x (0x100 + k) = h.frec.getD k 0#64) ∧
        sregRead s x 0x110 = BitVec.ofNat 64 h.epc ∧ sregRead s x 0x111 = BitVec.ofNat 64 h.eidx ∧ sregRead s x 0x112 = h.done) ∧
      (x.g.handler = none → (∀ k, k < 8 → sregRead s x (0x100 + k) = 0#64) ∧ sregRead s x 0x110 = 0#64 ∧ sregRead s x 0x111 = 0#64 ∧
        sregRead s x 0x112 = 0#64)) ∧
    (∀ (s : State) (g : Group) (v : W64),
      sregWrite s g 0 v = putG s { g with flags := v.setWidth 5 } ∧
      (∀ k, k < 4 → sregWrite s g (0x120 + k) v = putG s { g with scr := fput 0#64 k v g.scr }) ∧
      (∀ h : Handler, g.handler = some h →
        sregWrite s g 0x110 v = putG s { g with handler := some { h with epc := v.toNat } } ∧
        sregWrite s g 0x111 v = putG s { g with handler := some { h with eidx := v.toNat % 16 } } ∧
        sregWrite s g 0x112 v = putG s { g with handler := some { h with done := v } }) ∧
      (g.handler = none → sregWrite s g 0x110 v = putG s g ∧ sregWrite s g 0x111 v = putG s g ∧ sregWrite s g 0x112 v = putG s g))) ∧
  (
    (∀ (s : State) (x : Issue),
      sregRead s x 0x8000 = BitVec.ofNat 64 s.ctxSel ∧ sregRead s x 0x8003 = 0#64 ∧ sregRead s x 0x8010 = BitVec.ofNat 64 s.atBase ∧
      sregRead s x 0x8011 = (if s.atBusy then 1#64 else 0#64) ∧ sregRead s x 0x8020 = BitVec.ofNat 64 s.stBlk ∧
      (∀ c : Context, getC s s.ctxSel = some c → sregRead s x 0x8001 = BitVec.ofNat 64 c.root ∧ sregRead s x 0x8002 = BitVec.ofNat 64 c.qprio ∧
        sregRead s x 0x8004 = BitVec.ofNat 64 c.pairs)) ∧
    (∀ (s : State) (x : Issue) (w : YWord) (v : W64), v = rs x.g w.a.toNat → Issues s (.sysSet w) x →
      (w.sreg = 0x8000#16 → exec (.sysSet w) s = .next (performed x { s with ctxSel := v.toNat })) ∧
      (∀ c : Context, getC s s.ctxSel = some c →
        (w.sreg = 0x8001#16 → exec (.sysSet w) s = .next (performed x (putC s { c with root := v.toNat }))) ∧
        (w.sreg = 0x8002#16 → exec (.sysSet w) s = .next (performed x (putC s { c with qprio := v.toNat % 2 ^ 48 }))) ∧
        (w.sreg = 0x8003#16 → exec (.sysSet w) s = .next (performed x (putC s { c with key := v }))) ∧
        (w.sreg = 0x8004#16 → exec (.sysSet w) s = .next (performed x (putC s { c with pairs := v.toNat % 256 })))) ∧
      (w.sreg = 0x8010#16 → exec (.sysSet w) s = .next (performed x { s with atBase := v.toNat }))) ∧
    (∀ (s : State) (x : Issue) (w : YWord), w.sreg = 0x8011#16 → Issues s (.atinv w) x → ∃ removed,
      exec (.atinv w) s = .next (performed x { s with atBusy := true, atPrev := if s.atBusy then s.atPrev else s.atTable, atTable := tablesAt s,
                                                      atRemoved := s.atRemoved ++ removed }) ∧
      ∀ e, e ∈ removed ↔ e ∈ s.atTable ∧ e ∉ tablesAt s) ∧
    (∀ (s : State) (x : Issue) (w : YWord), w.sreg = 0x8021#16 → Issues s (.wake w) x →
      exec (.wake w) s = .next (performed x (wakeCores s (rs x.g w.a.toNat)))) ∧
    (∀ (s : State) (v : W64) (g : Group), g ∈ (wakeCores s v).groups → 96 ≤ g.core → v.getLsbD (g.core - 96) = true →
      g.slotA.park ≠ some .halt ∧ g.slotB.park ≠ some .halt))

/-! Vector words. -/

/-- From R274, R195: the integer arithmetic words, for every block, type, source form and lane: sub-elements are read as the type says, the exact
result is reduced modulo 2^w, or clamped with .sat. Inactive lanes and other registers are unchanged (R33).
From R274 to R278: the logic, shift, count, bitfield, selection, comparison and move words, and the immediate of `v.li` in every sub-element.
A shift count of w or more gives zero, or copies of the sign. -/
def Obligations.VectorIntegerWords : Prop :=
  (
    ∀ (s : State) (x : Issue) (w : VWord),
      (Issues s (.vAdd w) x → tileHold s x w true true = none → BlockResult s x (.vAdd w) false w.d.toNat (rowsV w) (colsV w) (widV w) x.active
        (fun r c l k => writeT w.ty.toNat (w.fn.getLsbD 0) (readT w.ty.toNat (elem (widV w) k (srcV x w w.a r c l)) + readT w.ty.toNat (elem (widV w) k (srcV x w w.b r c l))))) ∧
      (Issues s (.vSub w) x → tileHold s x w true true = none → BlockResult s x (.vSub w) false w.d.toNat (rowsV w) (colsV w) (widV w) x.active
        (fun r c l k => writeT w.ty.toNat (w.fn.getLsbD 0) (readT w.ty.toNat (elem (widV w) k (srcV x w w.a r c l)) - readT w.ty.toNat (elem (widV w) k (srcV x w w.b r c l))))) ∧
      (Issues s (.vMul w) x → tileHold s x w true true = none → BlockResult s x (.vMul w) false w.d.toNat (rowsV w) (colsV w) (widV w) x.active
        (fun r c l k => writeT w.ty.toNat (w.fn.getLsbD 0) (readT w.ty.toNat (elem (widV w) k (srcV x w w.a r c l)) * readT w.ty.toNat (elem (widV w) k (srcV x w w.b r c l))))) ∧
      (Issues s (.vMulh w) x → tileHold s x w true true = none → BlockResult s x (.vMulh w) false w.d.toNat (rowsV w) (colsV w) (widV w) x.active
        (fun r c l k => wrap (widV w) (readT w.ty.toNat (elem (widV w) k (srcV x w w.a r c l)) * readT w.ty.toNat (elem (widV w) k (srcV x w w.b r c l)) / (2 ^ widV w : Nat)))) ∧
      (Issues s (.vMad w) x → tileHold s x w true true = none → BlockResult s x (.vMad w) false w.d.toNat (rowsV w) (colsV w) (widV w) x.active
        (fun r c l k => writeT w.ty.toNat (w.fn.getLsbD 0) (readT w.ty.toNat (elem (widV w) k (srcV x w w.a r c l)) * readT w.ty.toNat (elem (widV w) k (srcV x w w.b r c l)) + readT w.ty.toNat (elem (widV w) k (srcV x w w.c r c l))))) ∧
      (Issues s (.vAbsd w) x → tileHold s x w true true = none → BlockResult s x (.vAbsd w) false w.d.toNat (rowsV w) (colsV w) (widV w) x.active
        (fun r c l k => (readT w.ty.toNat (elem (widV w) k (srcV x w w.a r c l)) - readT w.ty.toNat (elem (widV w) k (srcV x w w.b r c l))).natAbs % 2 ^ widV w)) ∧
      (Issues s (.vMin w) x → tileHold s x w true true = none → BlockResult s x (.vMin w) false w.d.toNat (rowsV w) (colsV w) (widV w) x.active
        (fun r c l k => if readT w.ty.toNat (elem (widV w) k (srcV x w w.a r c l)) ≤ readT w.ty.toNat (elem (widV w) k (srcV x w w.b r c l)) then (elem (widV w) k (srcV x w w.a r c l)) else (elem (widV w) k (srcV x w w.b r c l)))) ∧
      (Issues s (.vMax w) x → tileHold s x w true true = none → BlockResult s x (.vMax w) false w.d.toNat (rowsV w) (colsV w) (widV w) x.active
        (fun r c l k => if readT w.ty.toNat (elem (widV w) k (srcV x w w.a r c l)) ≤ readT w.ty.toNat (elem (widV w) k (srcV x w w.b r c l)) then (elem (widV w) k (srcV x w w.b r c l)) else (elem (widV w) k (srcV x w w.a r c l))))) ∧
  (
    ∀ (s : State) (x : Issue) (w : VWord),
      (Issues s (.vAnd w) x → tileHold s x w true true = none → BlockResult s x (.vAnd w) false w.d.toNat (rowsV w) (colsV w) (widV w) x.active
        (fun r c l k => (elem (widV w) k (srcV x w w.a r c l)) &&& (elem (widV w) k (srcV x w w.b r c l)))) ∧
      (Issues s (.vOr w) x → tileHold s x w true true = none → BlockResult s x (.vOr w) false w.d.toNat (rowsV w) (colsV w) (widV w) x.active
        (fun r c l k => (elem (widV w) k (srcV x w w.a r c l)) ||| (elem (widV w) k (srcV x w w.b r c l)))) ∧
      (Issues s (.vXor w) x → tileHold s x w true true = none → BlockResult s x (.vXor w) false w.d.toNat (rowsV w) (colsV w) (widV w) x.active
        (fun r c l k => (elem (widV w) k (srcV x w w.a r c l)) ^^^ (elem (widV w) k (srcV x w w.b r c l)))) ∧
      (Issues s (.vAndn w) x → tileHold s x w true true = none → BlockResult s x (.vAndn w) false w.d.toNat (rowsV w) (colsV w) (widV w) x.active
        (fun r c l k => (elem (widV w) k (srcV x w w.a r c l)) &&& (2 ^ widV w - 1 - (elem (widV w) k (srcV x w w.b r c l))))) ∧
      (Issues s (.vShl w) x → tileHold s x w true (!w.fn.getLsbD 0) = none → BlockResult s x (.vShl w) false w.d.toNat (rowsV w) (colsV w) (widV w) x.active
        (fun r c l k => if widV w ≤ (if w.fn.getLsbD 0 then w.c.toNat % 64 else elem (widV w) k (srcV x w w.b r c l)) then 0 else (elem (widV w) k (srcV x w w.a r c l)) * 2 ^ (if w.fn.getLsbD 0 then w.c.toNat % 64 else elem (widV w) k (srcV x w w.b r c l)) % 2 ^ widV w)) ∧
      (Issues s (.vShr w) x → tileHold s x w true (!w.fn.getLsbD 0) = none → BlockResult s x (.vShr w) false w.d.toNat (rowsV w) (colsV w) (widV w) x.active
        (fun r c l k => if widV w ≤ (if w.fn.getLsbD 0 then w.c.toNat % 64 else elem (widV w) k (srcV x w w.b r c l)) then 0 else (elem (widV w) k (srcV x w w.a r c l)) / 2 ^ (if w.fn.getLsbD 0 then w.c.toNat % 64 else elem (widV w) k (srcV x w w.b r c l)))) ∧
      (Issues s (.vSar w) x → tileHold s x w true (!w.fn.getLsbD 0) = none → BlockResult s x (.vSar w) false w.d.toNat (rowsV w) (colsV w) (widV w) x.active
        (fun r c l k => wrap (widV w) (toS (widV w) (elem (widV w) k (srcV x w w.a r c l)) / (2 ^ min (if w.fn.getLsbD 0 then w.c.toNat % 64 else elem (widV w) k (srcV x w w.b r c l)) (widV w) : Nat)))) ∧
      (Issues s (.vClz w) x → tileHold s x w true false = none → BlockResult s x (.vClz w) false w.d.toNat (rowsV w) (colsV w) (widV w) x.active
        (fun r c l k => clz (widV w) (elem (widV w) k (srcV x w w.a r c l)))) ∧
      (Issues s (.vPopc w) x → tileHold s x w true false = none → BlockResult s x (.vPopc w) false w.d.toNat (rowsV w) (colsV w) (widV w) x.active
        (fun r c l k => (List.range (widV w)).countP (fun q => (elem (widV w) k (srcV x w w.a r c l)).testBit q))) ∧
      (Issues s (.vBfx w) x → tileHold s x w true false = none → BlockResult s x (.vBfx w) false w.d.toNat (rowsV w) (colsV w) (widV w) x.active
        (fun r c l k => if tySigned w.ty.toNat then wrap (widV w) (toS (w.fn.toNat % 64 + 1) (fld (elem (widV w) k (srcV x w w.a r c l)) (w.c.toNat % 64) (w.fn.toNat % 64 + 1)))
          else fld (elem (widV w) k (srcV x w w.a r c l)) (w.c.toNat % 64) (w.fn.toNat % 64 + 1))) ∧
      (Issues s (.vBfi w) x → tileHold s x w true true = none → BlockResult s x (.vBfi w) false w.d.toNat (rowsV w) (colsV w) (widV w) x.active
        (fun r c l k => setFld (elem (widV w) k (srcV x w w.a r c l)) (w.c.toNat % 64) (w.fn.toNat % 64 + 1) (elem (widV w) k (srcV x w w.b r c l)))) ∧
      (Issues s (.vSel w) x → tileHold s x w true true = none → BlockResult s x (.vSel w) false w.d.toNat (rowsV w) (colsV w) (widV w) x.active
        (fun r c l k => if (elem (widV w) k (srcV x w w.c r c l)) = 0 then (elem (widV w) k (srcV x w w.b r c l)) else (elem (widV w) k (srcV x w w.a r c l)))) ∧
      (Issues s (.vCmp w) x → tileHold s x w true true = none → BlockResult s x (.vCmp w) false w.d.toNat (rowsV w) (colsV w) (widV w) x.active
        (fun r c l k => if (match w.fn.toNat % 8 with
          | 0 => decide (readT w.ty.toNat (elem (widV w) k (srcV x w w.a r c l)) = readT w.ty.toNat (elem (widV w) k (srcV x w w.b r c l))) | 1 => decide (readT w.ty.toNat (elem (widV w) k (srcV x w w.a r c l)) ≠ readT w.ty.toNat (elem (widV w) k (srcV x w w.b r c l))) | 2 => decide (readT w.ty.toNat (elem (widV w) k (srcV x w w.a r c l)) < readT w.ty.toNat (elem (widV w) k (srcV x w w.b r c l))) | 3 => decide (readT w.ty.toNat (elem (widV w) k (srcV x w w.a r c l)) ≤ readT w.ty.toNat (elem (widV w) k (srcV x w w.b r c l)))
          | 4 => decide (readT w.ty.toNat (elem (widV w) k (srcV x w w.a r c l)) > readT w.ty.toNat (elem (widV w) k (srcV x w w.b r c l))) | _ => decide (readT w.ty.toNat (elem (widV w) k (srcV x w w.a r c l)) ≥ readT w.ty.toNat (elem (widV w) k (srcV x w w.b r c l)))) then 2 ^ widV w - 1 else 0)) ∧
      (Issues s (.vMov w) x → tileHold s x w true false = none → BlockResult s x (.vMov w) false w.d.toNat (rowsV w) (colsV w) (widV w) x.active
        (fun r c l k => (elem (widV w) k (srcV x w w.a r c l)))) ∧
      (Issues s (.vLi w) x → BlockResult s x (.vLi w) false w.d.toNat (rowsV w) (colsV w) (widV w) x.active
        (fun _ _ _ _ => wrap (widV w) ((w.b ++ w.c).toInt))))

/-- From R280 to R283: the float words' results with the sticky flags they raise. The operations on patterns that these name give the exact sum,
product or sum of products of finite operands rounded once, in every format and mode (R174, R180 to R184); the first NaN operand, quieted, with
invalid for a signalling one; the default NaN and invalid where the operation is invalid, else an infinity that stands (R177). A comparison,
the lesser and the greater operand and the rounding to an integral value are those of the exact values (R178, R281, R282). -/
def Obligations.VectorFloatResults : Prop :=
  (∀ (s : State) (x : Issue) (w : VWord),
    (Issues s (.vFadd w) x → tileHold s x w true true = none → BlockResultF s x (.vFadd w) false w.d.toNat (rowsV w) (colsV w) (widV w) x.active
      (fun r c l k => addF (fmtV w) (rndV w) false (elem (widV w) k (srcV x w w.a r c l)) (elem (widV w) k (srcV x w w.b r c l)))) ∧
    (Issues s (.vFsub w) x → tileHold s x w true true = none → BlockResultF s x (.vFsub w) false w.d.toNat (rowsV w) (colsV w) (widV w) x.active
      (fun r c l k => addF (fmtV w) (rndV w) true (elem (widV w) k (srcV x w w.a r c l)) (elem (widV w) k (srcV x w w.b r c l)))) ∧
    (Issues s (.vFmul w) x → tileHold s x w true true = none → BlockResultF s x (.vFmul w) false w.d.toNat (rowsV w) (colsV w) (widV w) x.active
      (fun r c l k => mulF (fmtV w) (rndV w) (elem (widV w) k (srcV x w w.a r c l)) (elem (widV w) k (srcV x w w.b r c l)))) ∧
    (Issues s (.vFma w) x → tileHold s x w true true = none → BlockResultF s x (.vFma w) false w.d.toNat (rowsV w) (colsV w) (widV w) x.active
      (fun r c l k => fmaF (fmtV w) (rndV w) (elem (widV w) k (srcV x w w.a r c l)) (elem (widV w) k (srcV x w w.b r c l)) (elem (widV w) k (srcV x w w.c r c l)))) ∧
    (Issues s (.vFmin w) x → tileHold s x w true true = none → BlockResultF s x (.vFmin w) false w.d.toNat (rowsV w) (colsV w) (widV w) x.active
      (fun r c l k => minmaxF (fmtV w) (w.fn.getLsbD 2) false (elem (widV w) k (srcV x w w.a r c l)) (elem (widV w) k (srcV x w w.b r c l)))) ∧
    (Issues s (.vFmax w) x → tileHold s x w true true = none → BlockResultF s x (.vFmax w) false w.d.toNat (rowsV w) (colsV w) (widV w) x.active
      (fun r c l k => minmaxF (fmtV w) (w.fn.getLsbD 2) true (elem (widV w) k (srcV x w w.a r c l)) (elem (widV w) k (srcV x w w.b r c l)))) ∧
    (Issues s (.vFcmp w) x → tileHold s x w true true = none → BlockResultF s x (.vFcmp w) false w.d.toNat (rowsV w) (colsV w) (widV w) x.active
      (fun r c l k => ((if (cmpF (fmtV w) (w.fn.getLsbD 3) (w.fn.toNat % 8) (elem (widV w) k (srcV x w w.a r c l)) (elem (widV w) k (srcV x w w.b r c l))).1 then 2 ^ widV w - 1 else 0),
        (cmpF (fmtV w) (w.fn.getLsbD 3) (w.fn.toNat % 8) (elem (widV w) k (srcV x w w.a r c l)) (elem (widV w) k (srcV x w w.b r c l))).2))) ∧
    (Issues s (.vFrnd w) x → tileHold s x w true false = none → BlockResultF s x (.vFrnd w) false w.d.toNat (rowsV w) (colsV w) (widV w) x.active
      (fun r c l k => rndF (fmtV w) (rndV w) (elem (widV w) k (srcV x w w.a r c l)))) ∧
    (Issues s (.vFclass w) x → tileHold s x w true false = none → BlockResultF s x (.vFclass w) false w.d.toNat (rowsV w) (colsV w) (widV w) x.active
      (fun r c l k => (classF (fmtV w) (elem (widV w) k (srcV x w w.a r c l)), 0))) ∧
    (Issues s (.vFdot2 w) x → tileHold s x w true true = none → BlockResultF s x (.vFdot2 w) false w.d.toNat (rowsV w) (colsV w) 32 x.active
      (fun r c l k => dot2F (fmtV w) (rndV w) (elem 16 (2 * k) (srcV x w w.a r c l)) (elem 16 (2 * k + 1) (srcV x w w.a r c l))
        (elem 16 (2 * k) (srcV x w w.b r c l)) (elem 16 (2 * k + 1) (srcV x w w.b r c l)) (elem 32 k (srcV x w w.c r c l))))) ∧
  (∀ (f : Fmt) (k : Rnd) (a b c : Nat) (x y z : FV), f ∈ [fmtF32, fmtF16, fmtB16, fmtF8a, fmtF8b] → k.mode < 4 →
    x = decF f k.ftz a → y = decF f k.ftz b → z = decF f k.ftz c → (∀ v ∈ [x, y, z], v.isNan = false ∧ v.isInf = false) →
    (valueQ x + valueQ y ≠ 0 → RoundedOnce f k (valueQ x + valueQ y) (addF f k false a b)) ∧
    (valueQ x - valueQ y ≠ 0 → RoundedOnce f k (valueQ x - valueQ y) (addF f k true a b)) ∧
    (valueQ x * valueQ y ≠ 0 → RoundedOnce f k (valueQ x * valueQ y) (mulF f k a b)) ∧
    (valueQ x * valueQ y + valueQ z ≠ 0 → RoundedOnce f k (valueQ x * valueQ y + valueQ z) (fmaF f k a b c))) ∧
  (∀ (f : Fmt) (k : Rnd) (sub : Bool) (a b c : Nat) (x y : FV), f ∈ [fmtF32, fmtF16, fmtB16] → k.ovf ≠ 1 → a < 2 ^ f.w → b < 2 ^ f.w →
    x = decF f k.ftz a → y = decF f k.ftz b →
    (x.isNan = true → addF f k sub a b = (a ||| 2 ^ (f.fw - 1), if x.isSig || y.isSig then 16 else 0) ∧
      mulF f k a b = (a ||| 2 ^ (f.fw - 1), if x.isSig || y.isSig then 16 else 0) ∧ (fmaF f k a b c).1 = a ||| 2 ^ (f.fw - 1)) ∧
    (x.isNan = false → y.isNan = true → addF f k sub a b = (b ||| 2 ^ (f.fw - 1), if y.isSig then 16 else 0) ∧
      mulF f k a b = (b ||| 2 ^ (f.fw - 1), if y.isSig then 16 else 0) ∧ (fmaF f k a b c).1 = b ||| 2 ^ (f.fw - 1)) ∧
    (∀ n m, x = .inf n → y = .inf m → addF f k sub a b = if n = (m != sub) then (infPat f n, 0) else (defNan f, 16)) ∧
    (∀ n, x = .inf n → y.isNan = false → mulF f k a b = if y.isZero then (defNan f, 16) else (infPat f (n != y.neg), 0)) ∧
    ((x.isZero = true ∧ y.isInf = true) → mulF f k a b = (defNan f, 16))) ∧
  (∀ (f : Fmt) (k : Rnd) (cc a b : Nat) (x y : FV), f ∈ [fmtF32, fmtF16, fmtB16] → a < 2 ^ f.w → b < 2 ^ f.w → x = decF f k.ftz a → y = decF f k.ftz b →
    (x.isNan = false → x.isInf = false → y.isNan = false → y.isInf = false →
      (cc < 8 → cmpF f k.ftz cc a b = ([decide (valueQ x = valueQ y), decide (valueQ x ≠ valueQ y), decide (valueQ x < valueQ y), decide (valueQ x ≤ valueQ y),
        decide (valueQ y < valueQ x), decide (valueQ y ≤ valueQ x), false, true].getD cc false, 0)) ∧
      (k.ftz = false → valueQ x < valueQ y → minmaxF f false false a b = (a, 0) ∧ minmaxF f false false b a = (a, 0) ∧
        minmaxF f false true a b = (b, 0) ∧ minmaxF f false true b a = (b, 0))) ∧
    (x.isNan = true ∨ y.isNan = true → cc < 8 → cmpF f k.ftz cc a b = (cc == 1 || cc == 6,
      if (2 ≤ cc ∧ cc ≤ 5) ∨ x.isSig = true ∨ y.isSig = true then 16 else 0)) ∧
    (k.mode < 4 → x.isNan = false → x.isInf = false → x.isZero = false → (rndF f k a).2 = 0 ∧ ∃ i : ℕ, RoundsTo k.mode x.neg |valueQ x| 1 i ∧
      ∃ m e, decF f false (rndF f k a).1 = .num x.neg m e ∧ (m : ℚ) * 2 ^ e = i))

/-- From R286: `v.pack` narrows the elements of two sources into one register, `v.unpack` widens half the elements of one.
From R279: `v.froms` writes one element from a scalar where the element's lane is in exec; `v.tos` reads one element to a scalar, extended as
its type says, and 0 beyond the group's lanes.
The sources of v.tos are log entry 60. -/
def Obligations.PackingAndElementMoves : Prop :=
  (
    ∀ (s : State) (x : Issue) (w : VWord),
      (Issues s (.vPack w) x → tileHold s x w true true = none → BlockResult s x (.vPack w) false w.d.toNat (rowsV w) (colsV w) (widV w) x.active
        (fun r c l k => if w.fn.getLsbD 0 then writeT w.ty.toNat true (if tySigned w.ty.toNat then toS (2 * widV w) (if k < 32 / widV w then elem (2 * widV w) k (srcV x w w.a r c l) else elem (2 * widV w) (k - 32 / widV w) (srcV x w w.b r c l)) else ((if k < 32 / widV w then elem (2 * widV w) k (srcV x w w.a r c l) else elem (2 * widV w) (k - 32 / widV w) (srcV x w w.b r c l)) : Int)) else (if k < 32 / widV w then elem (2 * widV w) k (srcV x w w.a r c l) else elem (2 * widV w) (k - 32 / widV w) (srcV x w w.b r c l)) % 2 ^ widV w)) ∧
      (Issues s (.vUnpack w) x → tileHold s x w true false = none → BlockResult s x (.vUnpack w) false w.d.toNat (rowsV w) (colsV w) (2 * widV w) x.active
        (fun r c l k => if tySigned w.ty.toNat then wrap (2 * widV w) (toS (widV w) (elem (widV w) ((if w.fn.getLsbD 0 then 32 / widV w else 0) + k) (srcV x w w.a r c l))) else (elem (widV w) ((if w.fn.getLsbD 0 then 32 / widV w else 0) + k) (srcV x w w.a r c l))))) ∧
  (
    ∀ (s : State) (x : Issue) (w : VWord) (e n : Nat), n = 64 / widV w →
      e = (if w.fn.getLsbD 0 then w.c.toNat else (rs x.g (w.b.toNat - 352)).toNat) →
      (Issues s (.vFroms w) x → ∃ v, exec (.vFroms w) s = .next (performed x (putG s { x.g with v := v })) ∧
        ∀ r l k, l < 64 → k < n → elem (widV w) k (rv { x.g with v := v } r l) =
          if r = w.d.toNat ∧ l = e / n ∧ k = e % n ∧ x.exec.getLsbD l = true then (rs x.g (w.a.toNat - 352)).toNat % 2 ^ widV w
          else elem (widV w) k (rv x.g r l)) ∧
      (Issues s (.vTos w) x → tileHold s x w true false = none → exec (.vTos w) s = .next (performed x (putG s (ws x.g (w.d.toNat - 352)
        (if e / n < x.g.width then
          (if tySigned w.ty.toNat then ((BitVec.ofNat (widV w) (elem (widV w) (e % n) (srcV x w w.a 0 0 (e / n)))).signExtend 64)
           else BitVec.ofNat 64 (elem (widV w) (e % n) (srcV x w w.a 0 0 (e / n))))
         else 0#64))))))

/-- From R229, R230: the integer and logic halves of a pair word act on v0 to v127 in the lanes of exec, and do not saturate.
From R229, R230: the float halves round to nearest and do not flush. -/
def Obligations.PairHalves : Prop :=
  (
    ∀ (s : State) (x : Issue) (h : Half) (t : Nat), HalfIssues s x → ctypeCode h.ctype.toNat = some t →
      BlockResult s x (.pairVAdd h) true h.d.toNat 1 1 (tyWidth t) x.exec (fun _ _ l k => wrap (tyWidth t) (readT t (elem (tyWidth t) k (rv x.g h.a.toNat l)) + readT t (elem (tyWidth t) k (rv x.g h.b.toNat l)))) ∧
      BlockResult s x (.pairVSub h) true h.d.toNat 1 1 (tyWidth t) x.exec (fun _ _ l k => wrap (tyWidth t) (readT t (elem (tyWidth t) k (rv x.g h.a.toNat l)) - readT t (elem (tyWidth t) k (rv x.g h.b.toNat l)))) ∧
      BlockResult s x (.pairVMul h) true h.d.toNat 1 1 (tyWidth t) x.exec (fun _ _ l k => wrap (tyWidth t) (readT t (elem (tyWidth t) k (rv x.g h.a.toNat l)) * readT t (elem (tyWidth t) k (rv x.g h.b.toNat l)))) ∧
      BlockResult s x (.pairVMulh h) true h.d.toNat 1 1 (tyWidth t) x.exec (fun _ _ l k => wrap (tyWidth t) (readT t (elem (tyWidth t) k (rv x.g h.a.toNat l)) * readT t (elem (tyWidth t) k (rv x.g h.b.toNat l)) / (2 ^ tyWidth t : Nat))) ∧
      BlockResult s x (.pairVAbsd h) true h.d.toNat 1 1 (tyWidth t) x.exec (fun _ _ l k => (readT t (elem (tyWidth t) k (rv x.g h.a.toNat l)) - readT t (elem (tyWidth t) k (rv x.g h.b.toNat l))).natAbs % 2 ^ tyWidth t) ∧
      BlockResult s x (.pairVMin h) true h.d.toNat 1 1 (tyWidth t) x.exec (fun _ _ l k => if readT t (elem (tyWidth t) k (rv x.g h.a.toNat l)) ≤ readT t (elem (tyWidth t) k (rv x.g h.b.toNat l)) then (elem (tyWidth t) k (rv x.g h.a.toNat l)) else (elem (tyWidth t) k (rv x.g h.b.toNat l))) ∧
      BlockResult s x (.pairVMax h) true h.d.toNat 1 1 (tyWidth t) x.exec (fun _ _ l k => if readT t (elem (tyWidth t) k (rv x.g h.a.toNat l)) ≤ readT t (elem (tyWidth t) k (rv x.g h.b.toNat l)) then (elem (tyWidth t) k (rv x.g h.b.toNat l)) else (elem (tyWidth t) k (rv x.g h.a.toNat l))) ∧
      BlockResult s x (.pairVAnd h) true h.d.toNat 1 1 (tyWidth t) x.exec (fun _ _ l k => (elem (tyWidth t) k (rv x.g h.a.toNat l)) &&& (elem (tyWidth t) k (rv x.g h.b.toNat l))) ∧
      BlockResult s x (.pairVOr h) true h.d.toNat 1 1 (tyWidth t) x.exec (fun _ _ l k => (elem (tyWidth t) k (rv x.g h.a.toNat l)) ||| (elem (tyWidth t) k (rv x.g h.b.toNat l))) ∧
      BlockResult s x (.pairVXor h) true h.d.toNat 1 1 (tyWidth t) x.exec (fun _ _ l k => (elem (tyWidth t) k (rv x.g h.a.toNat l)) ^^^ (elem (tyWidth t) k (rv x.g h.b.toNat l))) ∧
      BlockResult s x (.pairVAndn h) true h.d.toNat 1 1 (tyWidth t) x.exec (fun _ _ l k => (elem (tyWidth t) k (rv x.g h.a.toNat l)) &&& (2 ^ tyWidth t - 1 - (elem (tyWidth t) k (rv x.g h.b.toNat l)))) ∧
      BlockResult s x (.pairVShl h) true h.d.toNat 1 1 (tyWidth t) x.exec (fun _ _ l k => if tyWidth t ≤ (elem (tyWidth t) k (rv x.g h.b.toNat l)) then 0 else (elem (tyWidth t) k (rv x.g h.a.toNat l)) * 2 ^ (elem (tyWidth t) k (rv x.g h.b.toNat l)) % 2 ^ tyWidth t) ∧
      BlockResult s x (.pairVShr h) true h.d.toNat 1 1 (tyWidth t) x.exec (fun _ _ l k => if tyWidth t ≤ (elem (tyWidth t) k (rv x.g h.b.toNat l)) then 0 else (elem (tyWidth t) k (rv x.g h.a.toNat l)) / 2 ^ (elem (tyWidth t) k (rv x.g h.b.toNat l))) ∧
      BlockResult s x (.pairVSar h) true h.d.toNat 1 1 (tyWidth t) x.exec (fun _ _ l k => wrap (tyWidth t) (toS (tyWidth t) (elem (tyWidth t) k (rv x.g h.a.toNat l)) / (2 ^ min (elem (tyWidth t) k (rv x.g h.b.toNat l)) (tyWidth t) : Nat))) ∧
      BlockResult s x (.pairVMov h) true h.d.toNat 1 1 (tyWidth t) x.exec (fun _ _ l k => (elem (tyWidth t) k (rv x.g h.a.toNat l))) ∧
      BlockResult s x (.pairVClz h) true h.d.toNat 1 1 (tyWidth t) x.exec (fun _ _ l k => clz (tyWidth t) (elem (tyWidth t) k (rv x.g h.a.toNat l))) ∧
      BlockResult s x (.pairVPopc h) true h.d.toNat 1 1 (tyWidth t) x.exec (fun _ _ l k => (List.range (tyWidth t)).countP (fun q => (elem (tyWidth t) k (rv x.g h.a.toNat l)).testBit q))) ∧
  (
    ∀ (s : State) (x : Issue) (h : Half) (t : Nat), HalfIssues s x → ctypeCode h.ctype.toNat = some t →
      BlockResultF s x (.pairVFadd h) true h.d.toNat 1 1 (tyWidth t) x.exec (fun _ _ l k => addF (fmtTy t) {} false (elem (tyWidth t) k (rv x.g h.a.toNat l)) (elem (tyWidth t) k (rv x.g h.b.toNat l))) ∧
      BlockResultF s x (.pairVFsub h) true h.d.toNat 1 1 (tyWidth t) x.exec (fun _ _ l k => addF (fmtTy t) {} true (elem (tyWidth t) k (rv x.g h.a.toNat l)) (elem (tyWidth t) k (rv x.g h.b.toNat l))) ∧
      BlockResultF s x (.pairVFmul h) true h.d.toNat 1 1 (tyWidth t) x.exec (fun _ _ l k => mulF (fmtTy t) {} (elem (tyWidth t) k (rv x.g h.a.toNat l)) (elem (tyWidth t) k (rv x.g h.b.toNat l))) ∧
      BlockResultF s x (.pairVFmin h) true h.d.toNat 1 1 (tyWidth t) x.exec (fun _ _ l k => minmaxF (fmtTy t) false false (elem (tyWidth t) k (rv x.g h.a.toNat l)) (elem (tyWidth t) k (rv x.g h.b.toNat l))) ∧
      BlockResultF s x (.pairVFmax h) true h.d.toNat 1 1 (tyWidth t) x.exec (fun _ _ l k => minmaxF (fmtTy t) false true (elem (tyWidth t) k (rv x.g h.a.toNat l)) (elem (tyWidth t) k (rv x.g h.b.toNat l))) ∧
      BlockResultF s x (.pairVFrnd h) true h.d.toNat 1 1 (tyWidth t) x.exec (fun _ _ l k => rndF (fmtTy t) {} (elem (tyWidth t) k (rv x.g h.a.toNat l))) ∧
      BlockResultF s x (.pairVFclass h) true h.d.toNat 1 1 (tyWidth t) x.exec (fun _ _ l k => (classF (fmtTy t) (elem (tyWidth t) k (rv x.g h.a.toNat l)), 0)))

/-! Conversions, special functions and words across lanes. -/

/-- From R284, R285: `v.cvt` converts each sub-element by its rounding; with a narrower destination the results fill part q of the register and
its other sub-elements stay, with a wider one they come from part q of the source. A stochastic conversion draws from the group's count,
which it advances (R190). A finite value converts to a float by one rounding, and from a float to an integer by one rounding to a whole number,
which the type's range bounds, with invalid outside it (R181, R187).
From R287, R288: a quantising word reads its tensor header record as one load, and its results return as a load's do; its checks come
first. The scale of a block that holds a NaN is 0xFF, of a block of zeros 0, of one with an infinity 254, else the floor of the
greatest magnitude's logarithm against the format's, as R199 gives it; an element is its value by that scale, rounded once, and a
dequantised element its value times the scale. -/
def Obligations.ConversionAndQuantising : Prop :=
  (
    (∀ (s : State) (x : Issue) (w : VWord) (k : Rnd) (src ws wd n q : Nat), Issues s (.vCvt w) x → tileHold s x w true false = none →
      k = cvtRound s x.g w → src = w.c.toNat % 32 → ws = tyWidth src → wd = widV w → n = 64 / max ws wd → q = w.b.toNat % 32 →
      BlockResultD s x (.vCvt w) false w.d.toNat (rowsV w) (colsV w) wd x.active
        (if k.mode = 4 then x.g.draw + BitVec.ofNat 64 (rowsV w * colsV w * x.g.width * ((64 / wd + 3) / 4)) else x.g.draw)
        (fun r c l j =>
          if wd < ws ∧ ¬ (q * n ≤ j ∧ j < q * n + n) then (elem wd j (rv x.g (w.d.toNat + 16 * r + c) l), 0)
          else convTy w.ty.toNat src (if k.mode = 4 then { k with rnd := rndBits s x.g (r * colsV w + c) l j (64 / wd) k.r } else k)
            (elem ws (if ws < wd then q * n + j else if wd < ws then j - q * n else j) (srcV x w w.a r c l)))) ∧
    (∀ (dst src : Nat) (k : Rnd) (a : Nat) (x : FV), k.mode < 4 → x.isNan = false → x.isInf = false → valueQ x ≠ 0 →
      (src ∈ [6, 9, 10, 14, 15, 16] ∧ x = decTy src k.ftz a) ∨ (src ∈ [0, 1, 3, 4, 7, 8, 11, 12, 17, 18, 19, 20] ∧ x = intFV (intTy src a)) →
      (dst ∈ [6, 9, 10, 14, 15] → RoundedOnce (fmtTy dst) k (valueQ x) (convTy dst src k a)) ∧
      (src ∈ [6, 9, 10, 14, 15, 16] → dst ∈ [0, 1, 3, 4, 7, 8, 11, 12, 17, 18, 19, 20] → ∃ i : ℕ, RoundsTo k.mode x.neg |valueQ x| 1 i ∧
        ∀ v : Int, v = (if x.neg then -(i : Int) else i) →
          (v < minTy dst → convTy dst src k a = (wrap (tyWidth dst) (minTy dst), 16)) ∧
          (maxTy dst < v → convTy dst src k a = (wrap (tyWidth dst) (maxTy dst), 16)) ∧
          (minTy dst ≤ v → v ≤ maxTy dst → (x.neg = true → minTy dst < 0) →
            convTy dst src k a = (wrap (tyWidth dst) v, if (i : ℚ) = |valueQ x| then 0 else 1))))) ∧
  (
    (∀ (s : State) (x : Issue) (w : VWord) (a n : Nat) (l : Lane) (s1 : State) (b : List Byte) (q : QuantCtx),
      a = (rs x.g (w.c.toNat - 352)).toNat → n = rowsV w * colsV w * x.g.width * 2 → a % 64 = 0 → laneCheck s x.g 0 a 64 1 1 false 1 = .ok l →
      readNow s x.g l.pas = some (.inr (s1, b)) →
      (Issues s (.vQuant w) x → tileHold s x w true false = none →
        quantBad w (w.fn.getLsbD 0) (rs x.g (w.c.toNat - 352 + 1)).toNat n b = .inl q →
        exec (.vQuant w) s = .next (performed x (launchOp (clearWalks (putG s1 (quantRun w s1 x q).1) x.g.gid) x.g.gid x.g.ctx x.g.core .loads
          (.value (quantRun w s1 x q).2)))) ∧
      (Issues s (.vDequant w) x → tileHold s x w true true = none →
        quantBad w false (rs x.g (w.c.toNat - 352 + 1)).toNat n b = .inl q →
        exec (.vDequant w) s = .next (performed x (launchOp (clearWalks (putG s1 (dequantRun w s1 x q).1) x.g.gid) x.g.gid x.g.ctx x.g.core
          .loads (.value (dequantRun w s1 x q).2))))) ∧
    (∀ (s : State) (x : Issue) (w : VWord), (rs x.g (w.c.toNat - 352)).toNat % 64 ≠ 0 →
      (Issues s (.vQuant w) x → exec (.vQuant w) s = .next (raised x s { cls := 0x11, code := 1, addr := (rs x.g (w.c.toNat - 352)).toNat })) ∧
      (Issues s (.vDequant w) x →
        exec (.vDequant w) s = .next (raised x s { cls := 0x11, code := 1, addr := (rs x.g (w.c.toNat - 352)).toNat }))) ∧
    (∀ (c : Nat) (l : List FV), ((∃ v ∈ l, v.isNan = true) → blockScale c l = (0xFF, true)) ∧
      ((∀ v ∈ l, v.isZero = true) → blockScale c l = (0, false)) ∧
      ((∀ v ∈ l, v.isNan = false) → (∃ v ∈ l, v.isInf = true) → blockScale c l = (254, false)) ∧
      (∀ b : ℤ, -1000 ≤ b → (∀ v ∈ l, v.isNan = false ∧ v.isInf = false ∧ |valueQ v| < 2 ^ (b + 1)) → (∃ v ∈ l, 2 ^ b ≤ |valueQ v|) →
        blockScale c l = ((max 0 (min 254 (b - emaxOf c + 127))).toNat, false))) ∧
    (∀ (c e : Nat) (k : Rnd) (v : FV), c ∈ [0, 1, 2, 3, 4] → k.mode < 4 → v.isNan = false → v.isInf = false → valueQ v ≠ 0 →
      RoundedOnce (fmtTy (elTy c)) k (valueQ v * 2 ^ (127 - (e : ℤ))) (quantElem c e false false k v)) ∧
    (∀ (fs : Slot16) (e a : Nat) (x : FV), e < 255 →
      x = (if elInt fs.el then intFV (intTy (elTy fs.el) a) else decTy (elTy fs.el) fs.ftz a) → x.isNan = false → x.isInf = false →
      valueQ (dequantElem fs e a) = valueQ x * 2 ^ ((e : ℤ) - 127)))

/-- From R289 to R291: the special-function words queue their block at the partition's unit, with the values of the unit's functions; the unit
returns the results of its words in issue order, to the registers and flags of the group, by the event SFU_RESULT_WRITE. A reciprocal and a
square root are rounded once to nearest, a reciprocal square root is a neighbour of the exact value or that value, and relu and htanh with
their derivatives are exact; below zero the square roots and the logarithm are invalid (R177, R290, R291).
Which neighbour a faithful function returns is free (log entries 31 and 59). -/
def Obligations.SpecialFunctionWords : Prop :=
  (∀ (s : State) (x : Issue) (w : VWord) (i : Instr) (op : Nat),
    (i, op) ∈ [(Instr.vRcp w, 0x58), (.vRsq w, 0x59), (.vSqrt w, 0x5A), (.vExp2 w, 0x5B), (.vLog2 w, 0x5C), (.vSin w, 0x5D), (.vCos w, 0x5E)] →
    Issues s i x → tileHold s x w true false = none →
    QueuedResult s x i w.d.toNat (rowsV w) (colsV w) (widV w) x.active
      (fun r c l k => sfuF w.ty.toNat op (w.fn.getLsbD 2) (elem (widV w) k (srcV x w w.a r c l)))) ∧
  (∀ (s : State) (x : Issue) (w : VWord), Issues s (.vAct w) x → tileHold s x w true false = none →
    QueuedResult s x (.vAct w) w.d.toNat (rowsV w) (colsV w) (widV w) x.active
      (fun r c l k => actF w.ty.toNat (w.fn.toNat % 8) (w.fn.getLsbD 3) (w.fn.getLsbD 4) (elem (widV w) k (srcV x w w.a r c l)))) ∧
  (∀ (t a : Nat) (ftz : Bool) (f : Fmt) (x : FV), t ∈ [6, 9, 10] → a < 2 ^ f.w → f = fmtTy t → x = decF f ftz a → x.isNan = false → x.isInf = false →
    valueQ x ≠ 0 →
    RoundedOnce f { ftz := ftz } (1 / valueQ x) (sfuF t 0x58 ftz a) ∧
    (valueQ x < 0 → sfuF t 0x5A ftz a = (defNan f, 16) ∧ sfuF t 0x59 ftz a = (defNan f, 16) ∧ sfuF t 0x5C ftz a = (defNan f, 16)) ∧
    (0 < valueQ x → (∃ m e, decF f false (sfuF t 0x5A ftz a).1 = .num false m e ∧ 2 ^ f.fw ≤ m ∧
        ((2 * m - 1) * 2 ^ e) ^ 2 ≤ 4 * valueQ x ∧ 4 * valueQ x ≤ ((2 * m + 1) * 2 ^ e) ^ 2 ∧
        (sfuF t 0x5A ftz a).2 = if (m * 2 ^ e) ^ 2 = valueQ x then 0 else 1) ∧
      (∃ m e, decF f false (sfuF t 0x59 ftz a).1 = .num false m e ∧ 2 ^ f.fw ≤ m ∧
        ((m * 2 ^ e) ^ 2 * valueQ x = 1 ∨ (((m - 1) * 2 ^ e) ^ 2 * valueQ x < 1 ∧ 1 < ((m + 1) * 2 ^ e) ^ 2 * valueQ x)))) ∧
    (ftz = false → actF t 0 false false a = (if valueQ x < 0 then 0 else a, 0)) ∧
    (ftz = false → actF t 1 false false a = if 1 ≤ |valueQ x| then (signBit f x.neg + f.bias * 2 ^ f.fw, 0) else (a, 0)) ∧
    actF t 0 true ftz a = (if valueQ x < 0 then 0 else f.bias * 2 ^ f.fw, 0) ∧
    actF t 1 true ftz a = (if 1 ≤ |valueQ x| then 0 else f.bias * 2 ^ f.fw, 0)) ∧
  (∀ (s : State) (id core part : Nat) (f : Flight) (g : Group) (regs : List (Nat × W64)) (fl : BitVec 5),
    getF s id = some f → f.op = .sfu core part regs fl → getG s f.gid = some g →
    (∀ o ∈ s.pend, ∀ r b, o.op = .sfu core part r b → id ≤ o.id) →
    exec (.sfuResultWrite id) s = .next (dropF (putG s (raiseFlags (applyRegs g regs) fl)) id))

/-- From R292 to R295: the words that move elements across lanes. What an inactive lane supplies is its value, or zero with .z; a lane beyond the
group supplies zero.
From R292, R296, R297: scans and reductions combine the elements of the active lanes in element order, an inactive lane supplying the
operation's identity, and no flag is raised (R273); `x.compact` writes the selected elements in order to the elements of the lanes of exec, and zero to the rest. -/
def Obligations.CrossLaneWords : Prop :=
  (
    ∀ (s : State) (x : Issue) (w : VWord) (n : Nat), n = 64 / widV w →
      (∀ take : Nat → (Nat → W64) → W64,
        take = (fun l rd => if x.g.width ≤ l ∨ (w.fn.getLsbD 6 = true ∧ x.active.getLsbD l = false) then 0#64 else rd l) →
        (Issues s (.xShf w) x → tileHold s x w true true = none →
          BlockResult s x (.xShf w) false w.d.toNat (rowsV w) (colsV w) (widV w) x.active (fun r c l k =>
            elem (widV w) ((k + ((srcV x w w.b r c l).extractLsb' 8 6).toNat) % n)
              (take ((srcV x w w.b r c l).extractLsb' 0 6).toNat (srcV x w w.a r c)))) ∧
        (Issues s (.xBcast w) x → tileHold s x w true false = none →
          BlockResult s x (.xBcast w) false w.d.toNat (rowsV w) (colsV w) (widV w) x.active (fun r c _ _ =>
            elem (widV w) (elemIndex x.g w % n) (take (elemIndex x.g w / n) (srcV x w w.a r c))))) ∧
      (Issues s (.xBfly w) x → tileHold s x w true true = none → ∃ v,
        exec (.xBfly w) s = .next (performed x (putG s { x.g with v := v })) ∧
        (∀ r c l k i (src : Bool → Nat → Nat), r < rowsV w → c < colsV w → l < 64 → x.active.getLsbD l = true → k < n → i = l * n + k →
          src = (fun b q => elem (widV w) (q % n) (srcV x w (if b then w.b else w.a) r c (q / n))) →
          elem (widV w) k (rv { x.g with v := v } (w.c.toNat + 16 * r + c) l) =
            (if i.testBit (w.fn.toNat % 16) then src true i else src false (i ^^^ 2 ^ (w.fn.toNat % 16))) ∧
          ((∀ r' c', r' < rowsV w → c' < colsV w → w.d.toNat + 16 * r + c ≠ w.c.toNat + 16 * r' + c') →
            elem (widV w) k (rv { x.g with v := v } (w.d.toNat + 16 * r + c) l) =
              (if i.testBit (w.fn.toNat % 16) then src true (i ^^^ 2 ^ (w.fn.toNat % 16)) else src false i))) ∧
        (∀ reg l, l < 64 → (x.active.getLsbD l = false ∨ ∀ r c, r < rowsV w → c < colsV w →
            reg ≠ w.d.toNat + 16 * r + c ∧ reg ≠ w.c.toNat + 16 * r + c) → rv { x.g with v := v } reg l = rv x.g reg l))) ∧
  (
    ∀ (s : State) (x : Issue) (w : VWord) (n : Nat) (el : Nat → Nat → List Nat), n = 64 / widV w →
      el = (fun r c => (List.range (x.g.width * n)).map (fun e =>
        if x.active.getLsbD (e / n) then elem (widV w) (e % n) (srcV x w w.a r c (e / n)) else (scanOp w).ident)) →
      (Issues s (.xScan w) x → tileHold s x w true false = none →
        BlockResult s x (.xScan w) false w.d.toNat (rowsV w) (colsV w) (widV w) x.active (fun r c l k =>
          (scanOp w).combine ((el r c).take (l * n + k + (if w.fn.getLsbD 3 then 0 else 1))) % 2 ^ widV w)) ∧
      (Issues s (.xRed w) x → tileHold s x w true false = none → isSca w.d.toNat = false →
        BlockResult s x (.xRed w) false w.d.toNat (rowsV w) (colsV w) (widV w) x.active (fun r c _ _ =>
          (scanOp w).combine (el r c) % 2 ^ widV w)) ∧
      (Issues s (.xRed w) x → tileHold s x w true false = none → isSca w.d.toNat = true →
        exec (.xRed w) s = .next (performed x (putG s (ws x.g (w.d.toNat - 352) (extend w.ty.toNat ((scanOp w).combine (el 0 0))))))) ∧
      (Issues s (.xCompact w) x → tileHold s x w true true = none → ∀ sel : Nat → Nat → List Nat,
        sel = (fun r c => ((List.range (64 * n)).filter (fun e => x.active.getLsbD (e / n) &&
          elem (widV w) (e % n) (srcV x w w.b r c (e / n)) != 0)).map (fun e => elem (widV w) (e % n) (srcV x w w.a r c (e / n)))) →
        BlockResult s x (.xCompact w) false w.d.toNat (rowsV w) (colsV w) (widV w) x.exec (fun r c l k =>
          (sel r c).getD ((List.range l).countP (fun j => x.exec.getLsbD j) * n + k) 0)))

/-- From R298, R299: votes count the active lanes whose operand is nonzero or set; the mask words combine masks bit by bit, count and search
them, and set one from a scalar, a mask or a vector register, reading exec as the mask of the slot.
From R357, R189: `rng.draw` gives every register and lane of its block its own word of the group's stream, in the active lanes, and advances
the draw count by the whole block. -/
def Obligations.VotesMasksAndRandom : Prop :=
  (
    ∀ (s : State) (x : Issue) (w : VWord),
      (∀ on : Nat → Bool, on = (fun l => x.active.getLsbD l &&
          (if isMask w.a.toNat then (readMask x w.a.toNat).getLsbD l else rv x.g w.a.toNat l != 0#64)) →
        (Issues s (.voteAny w) x → exec (.voteAny w) s = .next (performed x (putG s (writeCode x.g w.d.toNat
          (if (List.range 64).any on then 1#64 else 0#64))))) ∧
        (Issues s (.voteAll w) x → exec (.voteAll w) s = .next (performed x (putG s (writeCode x.g w.d.toNat
          (if (List.range 64).all (fun l => !x.active.getLsbD l || on l) then 1#64 else 0#64))))) ∧
        (Issues s (.voteBal w) x → ∃ v : W64, exec (.voteBal w) s = .next (performed x (putG s (writeCode x.g w.d.toNat v))) ∧
          ∀ l < 64, v.getLsbD l = on l)) ∧
      (Issues s (.mAnd w) x → exec (.mAnd w) s = .next (performed x (putG s (writeCode x.g w.d.toNat
        (readMask x w.a.toNat &&& readMask x w.b.toNat))))) ∧
      (Issues s (.mOr w) x → exec (.mOr w) s = .next (performed x (putG s (writeCode x.g w.d.toNat
        (readMask x w.a.toNat ||| readMask x w.b.toNat))))) ∧
      (Issues s (.mXor w) x → exec (.mXor w) s = .next (performed x (putG s (writeCode x.g w.d.toNat
        (readMask x w.a.toNat ^^^ readMask x w.b.toNat))))) ∧
      (Issues s (.mAndn w) x → exec (.mAndn w) s = .next (performed x (putG s (writeCode x.g w.d.toNat
        (readMask x w.a.toNat &&& ~~~readMask x w.b.toNat))))) ∧
      (Issues s (.mPopc w) x → exec (.mPopc w) s = .next (performed x (putG s (writeCode x.g w.d.toNat
        (BitVec.ofNat 64 ((List.range 64).countP (fun l => (readMask x w.a.toNat).getLsbD l))))))) ∧
      (Issues s (.mFfs w) x → ∃ n ≤ 64, exec (.mFfs w) s = .next (performed x (putG s (writeCode x.g w.d.toNat (BitVec.ofNat 64 n)))) ∧
        (∀ l < n, (readMask x w.a.toNat).getLsbD l = false) ∧ (n < 64 → (readMask x w.a.toNat).getLsbD n = true)) ∧
      (Issues s (.mSet w) x → ∃ v : W64, exec (.mSet w) s = .next (performed x (putG s (writeCode x.g w.d.toNat v))) ∧
        ∀ l < 64, v.getLsbD l = if isVec w.a.toNat then x.exec.getLsbD l && (rv x.g w.a.toNat l != 0#64) else (readMask x w.a.toNat).getLsbD l)) ∧
  (
    ∀ (s : State) (x : Issue) (w : VWord), Issues s (.rngDraw w) x →
      BlockResultD s x (.rngDraw w) false w.d.toNat (rowsV w) (colsV w) 64 x.active
        (x.g.draw + BitVec.ofNat 64 (rowsV w * colsV w * x.g.width))
        (fun r c l _ => (groupWord s x.g (x.g.draw.toNat + (r * colsV w + c) * x.g.width + l), 0)))

/-! Memory words. -/

/-- R225, R463 step 6: a lane's address is the sum of base, offset and index modulo 2^64, the index being the lane's register or the lane's
number times the access's size; an access that is not below 2^57 takes class 0x06, then one that must be aligned and is not class 0x04.
From R464, R449: when lanes of a global load or store fail, the others stand and the word takes the record of the class that ranks first, at
its lowest lane (the faults stand in the order of their lanes, and the first of the least rank is taken), with the done lanes named; a page that must be
walked parks the word. -/
def Obligations.GlobalChecksAndFailingLanes : Prop :=
  (
    (∀ (x : Issue) (w : MWord) (z : Nat), lanesM x w z = (lanesOf x.active).map (fun l =>
      (l, (rs x.g w.base.toNat + w.off.signExtend 64 +
        (if w.index.toNat = 511 then BitVec.ofNat 64 (l * z) else rv x.g w.index.toNat l)).toNat))) ∧
    (∀ (s : State) (g : Group) (lane va z need acc code : Nat) (al : Bool), 0 < z →
      (2 ^ 57 < va + z → laneCheck s g lane va z need acc al code = .bad { cls := 6, code := 1, addr := va, lane := some lane }) ∧
      (va + z ≤ 2 ^ 57 → al = true → va % z ≠ 0 →
        laneCheck s g lane va z need acc al code = .bad { cls := 4, code := code, addr := va, lane := some lane })) ∧
    (∀ (s : State) (g : Group) (lane va z need acc code : Nat) (al : Bool) (l : Lane),
      laneCheck s g lane va z need acc al code = .ok l → l.lane = lane ∧ l.va = va ∧ l.pas.length = z ∧ va + z ≤ 2 ^ 57 ∧ (al = true → va % z = 0))) ∧
  (
    ∀ (s : State) (x : Issue) (w : MWord) (res : List LaneRes) (z : Nat), z = 2 ^ w.width.toNat →
      (∀ f : FInfo, Issues s (.ldG w) x → res = checkLanes s x (lanesM x w z) z 1 1 (orderScope w).isSome 1 → missPage res = none →
        pickFault (badLanes res) = some f →
        exec (.ldG w) s = .next (raised x (clearWalks (issueLoad (if (orderScope w).isSome then drainWcb s x.g.gid else s) x (goodLanes res)
          w.data.toNat false (orderScope w) w.hint.toNat) x.g.gid) { f with done := lanesMask ((goodLanes res).map (fun a => a.lane)) })) ∧
      (∀ f : FInfo, Issues s (.stG w) x → res = checkLanes s x (lanesM x w z) z 2 2 false 1 → orderScope w = none → missPage res = none →
        pickFault (badLanes res) = some f →
        exec (.stG w) s = .next (raised x (clearWalks (wcbPut (l1Store s x.g.core (laneBytes (goodLanes res) z (rv x.g w.data.toNat))) x.g.gid
          w.hint.toNat (looseBytes (goodLanes res)) (laneBytes (goodLanes res) z (rv x.g w.data.toNat))) x.g.gid)
          { f with done := lanesMask ((goodLanes res).map (fun a => a.lane)) })) ∧
      (∀ p, Issues s (.ldG w) x → res = checkLanes s x (lanesM x w z) z 1 1 (orderScope w).isSome 1 → missPage res = some p →
        exec (.ldG w) s = .next (parked x (startWalk s x.g p) (.walk p))) ∧
      (∀ p, Issues s (.stG w) x → res = checkLanes s x (lanesM x w z) z 2 2 (orderScope w).isSome 1 → missPage res = some p →
        exec (.stG w) s = .next (parked x (startWalk s x.g p) (.walk p))) ∧
      (∀ (l : List FInfo) (f : FInfo), pickFault l = some f → ∃ before after, l = before ++ f :: after ∧ (∀ e ∈ before, rank f.cls < rank e.cls) ∧
        ∀ e ∈ after, rank f.cls ≤ rank e.cls) ∧
      (∀ (need acc code : Nat) (al : Bool), (∀ f ∈ badLanes (checkLanes s x (lanesM x w z) z need acc al code), f.lane.isSome = true) ∧
        ((badLanes (checkLanes s x (lanesM x w z) z need acc al code)).map (fun f => f.lane.getD 64)).Pairwise (fun a b => a < b)))

/-- From R303: a global load whose lanes all pass their checks issues them and goes on; a scalar load has one access; `ld.x` reads 16 aligned
bytes. An ordered load first sends what the group's write-combining buffer holds.
From R304, R103, R134, R136: a plain store whose lanes all pass enters the group's write-combining buffer, updating the core's L1 copies; a
release store goes to its homes once what precedes it is ordered, else it waits. A lane writes the bytes of its register from its address up,
and of two lanes that write one byte the higher stands; what enters the buffer, or goes to the homes, is what the group has on its way there.
A byte joins the waiting line it lies in, which leaves the buffer once it is full, else it opens one.
In what order the parts of a misaligned access are performed is log entry 85. -/
def Obligations.GlobalLoadAndStoreWords : Prop :=
  (
    ∀ (s : State) (x : Issue) (w : MWord) (ls : List Lane),
      (Issues s (.ldG w) x → checkLanes s x (lanesM x w (2 ^ w.width.toNat)) (2 ^ w.width.toNat) 1 1 (orderScope w).isSome 1 = ls.map LaneRes.ok →
        exec (.ldG w) s = .next (performed x (clearWalks (issueLoad (if (orderScope w).isSome then drainWcb s x.g.gid else s) x ls
          w.data.toNat false (orderScope w) w.hint.toNat) x.g.gid))) ∧
      (Issues s (.ldX w) x → checkLanes s x (lanesM x w 16) 16 1 1 true 1 = ls.map LaneRes.ok →
        exec (.ldX w) s = .next (performed x (clearWalks (issueLoad (if (orderScope w).isSome then drainWcb s x.g.gid else s) x ls
          w.data.toNat true (orderScope w) w.hint.toNat) x.g.gid))) ∧
      (Issues s (.ldS w) x →
        checkLanes s x [(0, (rs x.g w.base.toNat + w.off.signExtend 64).toNat)] (2 ^ w.width.toNat) 1 1 (orderScope w).isSome 1 =
          ls.map LaneRes.ok →
        exec (.ldS w) s = .next (performed x (clearWalks (issueLoad (if (orderScope w).isSome then drainWcb s x.g.gid else s) x ls
          (512 + (w.data.toNat - 352)) false (orderScope w) w.hint.toNat) x.g.gid)))) ∧
  (
    (∀ (s : State) (x : Issue) (w : MWord) (ls : List Lane) (i : Instr) (lanes : List (Nat × Nat)) (val : Nat → W64) (bytes : List (Nat × Byte)),
      (i, lanes) ∈ [(Instr.stG w, lanesM x w (2 ^ w.width.toNat)), (.stS w, [(0, (rs x.g w.base.toNat + w.off.signExtend 64).toNat)])] →
      (i = .stG w → ∀ l, val l = rv x.g w.data.toNat l) → (i = .stS w → ∀ l, val l = rs x.g (w.data.toNat - 352)) →
      bytes = laneBytes ls (2 ^ w.width.toNat) val → Issues s i x →
      checkLanes s x lanes (2 ^ w.width.toNat) 2 2 (orderScope w).isSome 1 = ls.map LaneRes.ok →
      (orderScope w = none → exec i s = .next (performed x (clearWalks (wcbPut (l1Store s x.g.core bytes) x.g.gid w.hint.toNat (looseBytes ls) bytes) x.g.gid))) ∧
      (∀ sc, orderScope w = some sc → releaseWait s x.g sc = none →
        exec i s = .next (performed x (clearWalks (sendStores (drainWcb (l1Store s x.g.core bytes) x.g.gid) x.g (some sc) w.hint.toNat false bytes)
          x.g.gid))) ∧
      (∀ sc s1 p, orderScope w = some sc → releaseWait s x.g sc = some (s1, p) → exec i s = .next (parked x s1 p))) ∧
    (∀ (ls before after : List Lane) (l : Lane) (z k p : Nat) (val : Nat → W64),
      (ls = before ++ l :: after → l.pas.length = z → z ≤ 8 → l.pas.Nodup → l.pas[k]? = some p → (∀ y ∈ after, p ∉ y.pas) →
        lastAt p (laneBytes ls z val) = some (BitVec.ofNat 8 ((val l.lane).toNat / 2 ^ (8 * k)))) ∧
      ((∀ y ∈ ls, p ∉ y.pas) → lastAt p (laneBytes ls z val) = none)) ∧
    (∀ (s : State) (gid hint p : Nat) (g : Group) (loose : List Nat) (bytes : List (Nat × Byte)) (sc : Scope), getG s gid = some g → g.wcb = [] →
      (∀ q ∈ ownPending s gid, q.1 ≠ p) →
      (newestAt p (ownPending (wcbPut s gid hint loose bytes) gid)).map Prod.fst = lastAt p bytes ∧
      (newestAt p (ownPending (sendStores s g (some sc) hint false bytes) gid)).map Prod.fst = lastAt p bytes) ∧
    (∀ (s : State) (gid hint a : Nat) (g : Group) (loose : List Nat) (b : Byte) (rest : List (Nat × Byte)), getG s gid = some g →
      wcbPut s gid hint loose ((a, b) :: rest) = wcbPut (wcbPut s gid hint loose [(a, b)]) gid hint loose rest ∧
      (g.wcb.find? (fun e => e.line == a / 128) = none → ∃ e, e.id = s.nextId ∧ e.line = a / 128 ∧ e.since = s.time ∧ e.hint = hint ∧
        wcbBytes e = [(a, b)] ∧ wcbPut s gid hint loose [(a, b)] = { putG s { g with wcb := g.wcb ++ [e] } with nextId := s.nextId + 1 }) ∧
      (∀ e, g.wcb.find? (fun e => e.line == a / 128) = some e → ∃ e1, e1.id = e.id ∧ e1.line = e.line ∧ e1.since = e.since ∧ e1.hint = hint ∧
        e1.bytes = fput none a (some b) e.bytes ∧
        (e1.bytes.length < 128 →
          wcbPut s gid hint loose [(a, b)] = putG s { g with wcb := replaceFirst (fun y => y.id == e.id) (fun _ => e1) g.wcb }) ∧
        (128 ≤ e1.bytes.length → ∃ f, f.id = e.id ∧ f.gid = gid ∧ f.op = .store (wcbBytes e1) none hint false ∧
          (wcbPut s gid hint loose [(a, b)]).pend = s.pend ++ [f] ∧
          (wcbPut s gid hint loose [(a, b)]).groups = (putG s { g with wcb := g.wcb.filter (fun y => y.id != e.id) }).groups))))

/-- From R101, R128, R130: a lane of an issued load is served from the core's live L1 copies, where it may be, or is on its way to its home, a
misaligned one as bytes that are read one by one; no byte of memory and no register changes when it issues.
From R101, R105, R127, R131: what comes about at a home. A load's registers receive the bytes there, or the group's own earlier store's; a
store's bytes are written and its group's completion time rises to the one the home gives, never below the time; bytes of misaligned lanes are written one
by one (R130); a fill brings sectors; a buffered store leaves its buffer 64 clocks after it entered.
That a hit is decided at issue is log entry 10; caches hold tags at the homes (log entry 3). -/
def Obligations.LoadsAndStoresAtTheirHomes : Prop :=
  (
    ∀ (s : State) (x : Issue) (ls : List Lane) (dst hint : Nat) (pair : Bool) (acq : Option Scope),
      (∀ l ∈ ls, ∃ f ∈ (issueLoad s x ls dst pair acq hint).pend, f.gid = x.g.gid ∧ f.cls = .loads ∧
        ((∃ regs b, f.op = .value regs ∧ l1Bytes s x.g.core x.g.gid l.pas = some b ∧ ∀ r ∈ loadRegs dst l.lane b pair, r ∈ regs) ∨
          (∃ part own, f.op = .load part dst pair acq hint own ∧ l ∈ part ∧
            (laneLoose l = true → part = [l] ∧ f.loose = List.range l.pas.length)))) ∧
      (issueLoad s x ls dst pair acq hint).mem = s.mem ∧
      (∀ n g, getG s n = some g → ∃ g', getG (issueLoad s x ls dst pair acq hint) n = some g' ∧ g'.s = g.s ∧ g'.v = g.v ∧ g'.m = g.m)) ∧
  (
    (∀ (s : State) (id dst hint : Nat) (f : Flight) (g : Group) (lanes : List Lane) (pair rep : Bool) (acq : Option Scope)
      (own : List (Nat × Byte × Nat)) (pas : List Nat), getF s id = some f → f.op = .load lanes dst pair acq hint own → getG s f.gid = some g →
      pas = lanes.flatMap (fun l => l.pas) → f.loose = [] → accessTurn s f pas true = true → (∀ p ∈ pas, homeReady s p = true) → needsFill s f.ctx hint pas = false →
      badAt s pas = none →
      ∃ t g', exec (.loadResultWrite id rep) s = .next t ∧ getF t id = none ∧ (∀ a, rdByte t a = rdByte s a) ∧ getG t f.gid = some g' ∧
        g' = applyRegs g (lanes.flatMap (fun l => loadRegs dst l.lane (homeLoadBytes s f.core f.gid f.id own l.pas) pair))) ∧
    (∀ (s : State) (id hint : Nat) (f : Flight) (g : Group) (bytes : List (Nat × Byte)) (rel : Option Scope) (u : Bool),
      getF s id = some f → f.op = .store bytes rel hint u → getG s f.gid = some g → storeTurn s f (bytes.map Prod.fst) u = true →
      storeFill s f hint (bytes.map Prod.fst) = false →
      ∃ t part, exec (.homeStorePerform id) s = .next t ∧ (part ∈ storeParts f bytes ∨ part = bytes) ∧
        (∀ a, rdByte t a = match lastAt a part with | some b => b | none => rdByte s a) ∧
        (∃ g', getG t f.gid = some g' ∧ s.time ≤ g'.wct ∧ g.wct ≤ g'.wct ∧ g'.s = g.s ∧ g'.v = g.v) ∧
        (f.loose = [] → part = bytes ∧ getF t id = none) ∧
        (1 < (storeParts f bytes).length → part ∈ storeParts f bytes ∧ ∃ f', getF t id = some f' ∧
          f'.op = .store (bytes.filter (fun p => part.all (fun q => q.1 != p.1))) rel hint u)) ∧
    (∀ (f : Flight) (bytes : List (Nat × Byte)), storeParts f bytes = (bytes.filter (fun p => f.loose.contains p.1)).map (fun p => [p]) ++
      (if (bytes.filter (fun p => !f.loose.contains p.1)).isEmpty then [] else [bytes.filter (fun p => !f.loose.contains p.1)])) ∧
    (∀ (s : State) (id hint : Nat) (f : Flight) (pas : List Nat), getF s id = some f → accessPas s f = some (pas, hint, true) →
      missing s pas ≠ [] → (∀ k ∈ missing s pas, fillFree s (k / 8) = true) →
      exec (.l2Fill id false) s = .next ((missing s pas).foldl (fun u k => homeTouch u f.ctx hint (k * 128)) s)) ∧
    (∀ (s : State) (id : Nat) (g : Group) (e : Wcb), s.groups.find? (fun g => g.wcb.any (fun e => e.id == id)) = some g →
      g.wcb.find? (fun e => e.id == id) = some e → e.since + 43 ≤ s.time → ∃ t f, exec (.wcbTimeout id) s = .next t ∧
      t.pend = s.pend ++ [f] ∧ f.id = id ∧ f.gid = g.gid ∧ f.op = .store (wcbBytes e) none e.hint false ∧
      t.groups = (putG s { g with wcb := g.wcb.filter (fun y => y.id != id) }).groups))

/-- From R96, R97, R301: local loads and stores that pass their checks and whose lines are present. Of the group's own team they are performed at
the port: a store changes the bytes of its lanes and no other byte; of another team of the cluster they travel there. -/
def Obligations.LocalLoadsAndStores : Prop :=
  (∀ (s : State) (x : Issue) (w : MWord) (t : Team) (good : List (Nat × Nat)) (z : Nat), localTeam s x w = some t →
    localLanes s x w true = (good, [], none) → z = 2 ^ w.width.toNat → orderScope w = none → Issues s (.ldL w) x →
    (t.tid = x.g.team → acquiring s x.g.gid s.nextId = false → good ≠ [] →
      exec (.ldL w) s = .next (performed x (clearWalks (launchOp (noteLines s x.g.gid x.b
        (good.flatMap (fun p => (linesOf p.2 z).map (localLine t.tid)))) x.g.gid x.g.ctx x.g.core .loads
        (.value (good.flatMap (fun p => loadRegs w.data.toNat p.1 (lrd t p.2 z) false)))) x.g.gid))) ∧
    (t.tid ≠ x.g.team → good ≠ [] →
      exec (.ldL w) s = .next (performed x (clearWalks (launchOp (noteLines s x.g.gid x.b
        (good.flatMap (fun p => (linesOf p.2 z).map (localLine t.tid)))) x.g.gid x.g.ctx x.g.core .loads
        (.remoteLoad t.tid (good.map (fun p => { lane := p.1, va := p.2, pas := [] })) w.data.toNat z false)) x.g.gid)))) ∧
  (∀ (s : State) (x : Issue) (w : MWord) (t : Team) (good : List (Nat × Nat)) (z : Nat) (bytes : List (Nat × Byte)),
    localTeam s x w = some t → localLanes s x w false = (good, [], none) → z = 2 ^ w.width.toNat →
    bytes = good.flatMap (fun p => at_ p.2 (toBytes z (rv x.g w.data.toNat p.1).toNat)) → good ≠ [] → orderScope w = none →
    Issues s (.stL w) x →
    (t.tid = x.g.team → acquiring s x.g.gid s.nextId = false →
      exec (.stL w) s = .next (performed x (clearWalks (wakeLocal (putT s (lwr t bytes)) t.tid x.g.gid (bytes.map Prod.fst)) x.g.gid))) ∧
    (t.tid ≠ x.g.team →
      exec (.stL w) s = .next (performed x (clearWalks (launchOp (putT s { t with inbound := t.inbound + 1 }) x.g.gid x.g.ctx x.g.core .stcomp
        (.remoteStore t.tid z bytes)) x.g.gid)))) ∧
  (∀ (t : Team) (l : List (Nat × Byte)) (a : Nat) (b : Byte), (∀ p ∈ l, p.1 ≠ a) →
    lrd (lwr t l) a 1 = lrd t a 1 ∧ lrd (lwr t (l ++ [(a, b)])) a 1 = [b]) ∧
  (∀ (t : Team) (off n : Nat), (t.lines * 128 < off + n → localBad t off n = some 1) ∧
    (off + n ≤ t.lines * 128 → stackHit t off n = true → localBad t off n = some 2) ∧
    (off + n ≤ t.lines * 128 → stackHit t off n = false → localBad t off n = none))

/-- From R306 to R310: an atomic word whose lanes all pass sends one operation for each 128-byte line, each lane with its operands; the operation
reads, combines and writes at once at the home, lane after lane, each seeing what those before it wrote, and returns the old values, 16 bytes of
them to two registers and none where the destination is 352. At group and team scope the core's atomic unit reads what it has
written itself and otherwise memory, and its write goes on to the home (R141).
The order of lanes and the refresh of the L1 copy are log entries 70 and 11. -/
def Obligations.AtomicWords : Prop :=
  (∀ (s : State) (x : Issue) (w : VWord) (i : Instr) (op : AtOp) (useC : Bool) (z : Nat) (ls : List Lane),
    (i, op, useC) ∈ [(Instr.atAdd w, AtOp.add, false), (.atSub w, .sub, false), (.atMin w, .min, false), (.atMax w, .max, false),
      (.atAnd w, .and, false), (.atOr w, .or, false), (.atXor w, .xor, false), (.atXchg w, .xchg, false), (.atCas w, .cas, true),
      (.atCas2 w, .cas, true), (.atFadd w, .fadd, false)] →
    z = (if w.ty.toNat = 21 then 16 else widV w / 8) → Issues s i x →
    checkLanes s x ((lanesOf x.active).map (fun l => (l, (rv x.g w.a.toNat l).toNat))) z 3 4 true 2 = ls.map LaneRes.ok →
    (2 ≤ (w.fn.extractLsb' 5 2).toNat → releaseWait s x.g (atScope w) = none) →
    exec i s = .next (performed x (clearWalks (noteLines (((ls.map (fun l => l.pas.headD 0 / 128)).eraseDups).foldl (fun u k =>
      launchPart u (drainWcb s x.g.gid).nextId x.g.gid x.g.ctx x.g.core .stcomp (.atomic op (tySigned w.ty.toNat)
        ((ls.map (fun l => (l, atOperand x.g w.b.toNat l.lane z, if useC then atOperand x.g w.c.toNat l.lane z else 0))).filter
          (fun l => l.1.pas.headD 0 / 128 == k)) w.d.toNat (decide (atOrder w % 2 = 1)) (decide (2 ≤ atOrder w)) (atScope w)))
      (drainWcb s x.g.gid)) x.g.gid x.b (ls.flatMap (fun l => l.pas.map (fun p => p / 128)))) x.g.gid))) ∧
  (∀ (z m b c : Nat) (sg : Bool), m < 2 ^ (8 * z) → b < 2 ^ (8 * z) →
    atResult .add sg z m b c = some ((m + b) % 2 ^ (8 * z)) ∧ atResult .sub sg z m b c = some ((m + (2 ^ (8 * z) - b)) % 2 ^ (8 * z)) ∧
    atResult .and sg z m b c = some (m &&& b) ∧ atResult .or sg z m b c = some (m ||| b) ∧ atResult .xor sg z m b c = some (m ^^^ b) ∧
    atResult .xchg sg z m b c = some b ∧ atResult .cas sg z m b c = (if m = b then some c else none) ∧
    atResult .min false z m b c = some (min m b) ∧ atResult .max false z m b c = some (max m b) ∧
    atResult .min true z m b c = some (if toS (8 * z) m ≤ toS (8 * z) b then m else b) ∧
    atResult .max true z m b c = some (if toS (8 * z) m ≤ toS (8 * z) b then b else m) ∧
    atResult .fadd sg z m b c = some (addF fmtF32 {} false m b).1) ∧
  (∀ (g : Group) (code lane z : Nat), atOperand g code lane z =
    if isSca code then (rs g (code - 352)).toNat % 2 ^ (8 * z)
    else if z = 16 then (rv g code lane).toNat + (rv g (code + 1) lane).toNat * 2 ^ 64 else (rv g code lane).toNat % 2 ^ (8 * z)) ∧
  (∀ (op : AtOp) (sg : Bool) (m : Nat → Byte) (ls : List (Lane × Nat × Nat)) (l : Lane) (b c : Nat) (wr : List (Nat × Byte)) (vs : List (Nat × List Byte))
    (old : List Byte), atLanes op sg (fun q => q.map m) ls = (wr, vs) → old = l.pas.map (fun p => (lastAt p wr).getD (m p)) →
    atLanes op sg (fun q => q.map m) (ls ++ [(l, b, c)]) =
      (wr ++ (match atResult op sg l.pas.length (ofBytes old) b c with | some v => l.pas.zip (toBytes l.pas.length v) | none => []), vs ++ [(l.lane, old)])) ∧
  (∀ (s : State) (core : Nat) (pas : List Nat), unitBytes s core pas = pas.map (fun p => (lastAt p (s.pend.flatMap (fun f => match f.op with
    | .store b _ _ u => if u && f.core == core then b else []
    | _ => []))).getD (rdByte s p))) ∧
  (∀ (s : State) (id dst : Nat) (f : Flight) (g : Group) (op : AtOp) (sg a r : Bool) (ls : List (Lane × Nat × Nat)) (sc : Scope) (pas : List Nat)
    (wr : List (Nat × Byte)) (vs : List (Nat × List Byte)),
    getF s id = some f → f.op = .atomic op sg ls dst a r sc → getG s f.gid = some g → pas = ls.flatMap (fun l => l.1.pas) →
    (wr, vs) = atLanes op sg (if sc = .gr ∨ sc = .tm then unitBytes s f.core else fun q => q.map (rdByte s)) ls →
    accessTurn s f pas false = true → badAt s pas = none →
    (if sc = .gr ∨ sc = .tm then pas.all (homeReady s) = true else unitPending s f pas = false ∧ atomicReady s pas = true) →
    ∃ t g', exec (.homeAtomicPerform id) s = .next t ∧ getG t f.gid = some g' ∧
      (if sc = .gr ∨ sc = .tm then (∀ p, rdByte t p = rdByte s p) ∧ (wr ≠ [] → ∃ f' ∈ t.pend, f'.id = id ∧ f'.gid = f.gid ∧ f'.op = .store wr none 0 true)
       else (∀ p, rdByte t p = (lastAt p wr).getD (rdByte s p)) ∧ (wr ≠ [] → s.time ≤ g'.wct ∧ g.wct ≤ g'.wct)) ∧
      (dst = 352 → g'.v = g.v ∧ g'.s = g.s) ∧
      (dst < 256 → (ls.map (fun l => l.1.lane)).Nodup → (∀ l ∈ ls, l.1.lane < 64 ∧ (l.1.pas.length ≤ 8 ∨ l.1.pas.length = 16)) →
        (∀ q ∈ vs, if q.2.length = 16 then rv g' dst q.1 = BitVec.ofNat 64 (ofBytes (q.2.take 8)) ∧ rv g' (dst + 1) q.1 = BitVec.ofNat 64 (ofBytes (q.2.drop 8))
          else rv g' dst q.1 = BitVec.ofNat 64 (ofBytes q.2)) ∧
        (∀ reg l, l < 64 → (∀ q ∈ vs, q.1 = l → reg ≠ dst ∧ reg ≠ dst + 1) → rv g' reg l = rv g reg l)))

/-! Ordering, barriers, lehrs and copies. -/

/-- From R135, R136, R138: what a release waits for: at .tm the group's earlier stores, atomics and loads to be performed; at .cl and .dv also its
remote local accesses and its completion time to pass; at .sy also every earlier CXL write to be acknowledged. `fence` at such a scope goes on
when that holds and else waits; at .ln it only sends what the write-combining buffer holds. Two clauses are the model's choice: a release waits
for the group's earlier loads too (log entry 13), and a fence at .gr, which R311 calls a no-op, also keeps the group's later accesses behind its
earlier loads (log entry 33).
That a release awaits earlier loads, and what a fence of scope .gr does, are the model's choices (log entries 13 and 33). -/
def Obligations.FencesAndReleases : Prop :=
  (∀ (s : State) (g : Group) (sc : Scope) (early : Flight → Bool), getG s g.gid = some g → (∀ e ∈ g.wcb, e.id < s.nextId) →
    early = (fun f => f.gid == g.gid && decide (f.id < s.nextId) && (match f.op with
      | .store .. => true | .atomic .. => true | .load .. => true
      | .remoteStore .. => sc != .tm | .remoteLoad .. => sc != .tm | _ => false)) →
    (sc = .tm → (releaseWait s g sc = none ↔ g.wcb = [] ∧ ∀ f ∈ s.pend, early f = false)) ∧
    (sc = .cl ∨ sc = .dv → (releaseWait s g sc = none ↔ g.wcb = [] ∧ (∀ f ∈ s.pend, early f = false) ∧ g.wct < s.time)) ∧
    (sc = .sy → (releaseWait s g sc = none ↔ g.wcb = [] ∧ (∀ f ∈ s.pend, early f = false) ∧ g.wct < s.time ∧
      ∀ f ∈ s.pend, ∀ line, f.op = .cxlWrite line → s.nextId ≤ f.id)) ∧
    (∀ s1 p, releaseWait s g sc = some (s1, p) → s1 = drainWcb s g.gid ∧ p = .release sc)) ∧
  (∀ (s : State) (x : Issue) (w : SWord) (sc : Scope), Issues s (.fence w) x → scopeOf (w.f7.toNat % 8) = some sc →
    (sc = .ln → exec (.fence w) s = .next (performed x (drainWcb s x.g.gid))) ∧
    (sc = .gr → exec (.fence w) s = .next (performed x (fenceLoads (drainWcb s x.g.gid) x.g.gid))) ∧
    (sc ≠ .ln → sc ≠ .gr → releaseWait s x.g sc = none → exec (.fence w) s = .next (performed x (fenceLoads s x.g.gid))) ∧
    (∀ s1 p, sc ≠ .ln → sc ≠ .gr → releaseWait s x.g sc = some (s1, p) → exec (.fence w) s = .next (parked x s1 p)))

/-- From R312, R313: a team barrier is initialised with 1 to 32 groups while none has arrived; an arrival is counted once in a phase, and the phase
is over when the count is reached; an arrival that earlier accesses of its group precede is a release, and waits for them; a wait returns once the
phase of the group's last arrival is over, and parks before. Misuse faults at its word with class 0x0D and changes nothing (R462).
From R315: a group arrives at a cluster barrier as a release at cluster scope and parks until the phase is over; the last to arrive goes on. -/
def Obligations.BarrierWords : Prop :=
  (
    (∀ (s : State) (x : Issue) (w : SWord) (t : Team) (b n a p : Nat), teamOf s x.g = some t → b = barNum w → fget (0, 0, 0) b t.bars = (n, a, p) →
      (∀ k, k = (rs x.g w.a.toNat).toNat → Issues s (.barInit w) x →
        (1 ≤ k → k ≤ 32 → a = 0 → exec (.barInit w) s = .next (performed x (putT s { t with bars := fput (0, 0, 0) b (k, 0, p) t.bars }))) ∧
        ((k = 0 ∨ 32 < k) → exec (.barInit w) s = .next (raised x s { cls := 0x0D, code := 1, index := b })) ∧
        (1 ≤ k → k ≤ 32 → a ≠ 0 → exec (.barInit w) s = .next (raised x s { cls := 0x0D, code := 2, index := b }))) ∧
      (∀ i ∈ [Instr.barArv w, .barSync w], Issues s i x → x.slot.park = none →
        (n = 0 → exec i s = .next (raised x s { cls := 0x0D, code := 3, index := b })) ∧
        (n ≠ 0 → (barArrived t b x.g.num = true ∨ barPending s x.g.gid b = true) → exec i s = .next (raised x s { cls := 0x0D, code := 4, index := b }))) ∧
      (Issues s (.barArv w) x → n ≠ 0 → barArrived t b x.g.num = false → barPending s x.g.gid b = false →
        ((releaseWait s x.g .tm = none ∧ ∀ f ∈ s.pend, f.gid = x.g.gid → ∀ u k, f.op ≠ .barArrive u k) →
          exec (.barArv w) s = .next (performed x (barArriveNow (drainWcb s x.g.gid) x.g.team b x.g.num))) ∧
        ((releaseWait s x.g .tm ≠ none ∨ ∃ f ∈ s.pend, f.gid = x.g.gid ∧ ∃ u k, f.op = .barArrive u k) →
          exec (.barArv w) s = .next (performed x (launchOp (drainWcb s x.g.gid) x.g.gid x.g.ctx x.g.core .bar (.barArrive x.g.team b))))) ∧
      (Issues s (.barWait w) x →
        (barLastOf t b x.g.num = 0 → barPending s x.g.gid b = false →
          exec (.barWait w) s = .next (raised x s { cls := 0x0D, code := 5, index := b })) ∧
        (barLastOf t b x.g.num ≠ 0 → barPending s x.g.gid b = false → barArrived t b x.g.num = false →
          exec (.barWait w) s = .next (performed x s)) ∧
        (barArrived t b x.g.num = true ∨ barPending s x.g.gid b = true →
          exec (.barWait w) s = .next (regroupRelease (parked x s (.barrier b p)) x.g.team))) ∧
      (∀ s1, s1 = barArriveNow (drainWcb s x.g.gid) x.g.team b x.g.num → Issues s (.barSync w) x → x.slot.park = none → n ≠ 0 →
        barArrived t b x.g.num = false → releaseWait s x.g .tm = none → (∀ f ∈ s.pend, f.gid = x.g.gid → ∀ u k, f.op ≠ .barArrive u k) →
        (barDone s1 x.g b = true → exec (.barSync w) s = .next (performed x s1)) ∧
        (barDone s1 x.g b = false → ∃ q, exec (.barSync w) s = .next (regroupRelease (parked x s1 (.barrier b q)) x.g.team)))) ∧
    (∀ (s : State) (tid b num n a p : Nat) (t : Team), getT s tid = some t → fget (0, 0, 0) b t.bars = (n, a, p) → n ≠ 0 →
      ∃ t', getT (barArriveNow s tid b num) tid = some t' ∧ barLastOf t' b num = p + 1 ∧
        fget (0, 0, 0) b t'.bars = if n ≤ a + 1 then (n, 0, p + 1) else (n, a + 1, p))) ∧
  (
    ∀ (s : State) (x : Issue) (w : SWord) (k : Cluster) (b n a p : Nat), Issues s (.cbar w) x → clusterOf s x.g = some k →
      b = imm20 w % 4 → fget (0, 0, 0) b k.bars = (n, a, p) → x.slot.park = none → cbarArrived k b x.g = false →
      (∀ s1 q, releaseWait s x.g .cl = some (s1, q) → exec (.cbar w) s = .next (parked x s1 q)) ∧
      (∀ s1, releaseWait s x.g .cl = none → s1 = putCl s { k with bars := fput (0, 0, 0) b (barPhase (n, a + 1, p)) k.bars, barLast := fput 0 (cbarKey b x.g.tidx x.g.num) (p + 1) k.barLast } →
        (0 < n → n ≤ a + 1 → exec (.cbar w) s = .next (performed x s1)) ∧
        (a + 1 < n → exec (.cbar w) s = .next (regroupRelease (parked x s1 (.cbarrier b p)) x.g.team))))

/-- From R317: a lehr header is read back as it was written, every field in its place.
From R318 to R322: the lehr words on a header that is aligned, within the allocation and present: initialising, awaiting the oldest slot not
yet awaited, releasing the oldest held slot, reserving and marking a slot. Each changes the header, which wakes who watches its line (R84). -/
def Obligations.LehrStatements : Prop :=
  (
    ∀ (t : Team) (h : Nat) (l : Lehr), 1 ≤ l.lines → l.lines ≤ 8192 → 1 ≤ l.cnt → l.cnt ≤ 64 → l.held ≤ 64 → l.aw ≤ 64 → l.wr < 64 →
      l.filled < 2 ^ 64 → l.fault < 2 ^ 64 → l.time < 2 ^ 64 → lehrRead (lehrWrite t h l) h = l) ∧
  (
    ∀ (s : State) (x : Issue) (w : SWord) (t : Team) (h : Nat) (l : Lehr), teamOf s x.g = some t → h = (rs x.g w.a.toNat).toNat →
      headerCheck t h = none → l = lehrRead t h →
      (∀ n z, n = (srcB x.g w).toNat → z = (srcC x.g w).toNat → Issues s (.lrInit w) x →
        (1 ≤ n → n ≤ 64 → 1 ≤ z → z ≤ 8192 → localBad t (128 * ((h + 159) / 128)) (128 * n * z) = none → l.held = 0 →
          exec (.lrInit w) s = .next (performed x (progressed (putLehr s x.g.gid (lehrWrite { t with rel := fput 0 h 0 t.rel } h
            { lines := z, cnt := n, held := 0, aw := 0, wr := 0, filled := 0, fault := 0, time := 0 }) h) x.g.ctx))) ∧
        (n = 0 ∨ 64 < n ∨ z = 0 ∨ 8192 < z → exec (.lrInit w) s = .next (raised x s { cls := 0x0E, code := 1, addr := h }))) ∧
      (∀ r, r = (lehrRel t h + l.aw) % l.cnt → Issues s (.lrAwait w) x → awaitBefore s x.g x.b h = false →
        (l.aw < l.held → l.fault.testBit r = false → l.filled.testBit r = true → l.time < s.time →
          exec (.lrAwait w) s = .next (performed x (progressed (putLehr (putG s
            (ws x.g w.d.toNat (BitVec.ofNat 64 (128 * ((h + 159) / 128) + 128 * l.lines * r)))) x.g.gid (lehrSet t h { l with aw := l.aw + 1 }) h) x.g.ctx))) ∧
        ((l.held ≤ l.aw ∨ (l.fault.testBit r = false ∧ (l.filled.testBit r = false ∨ s.time ≤ l.time))) →
          exec (.lrAwait w) s = .next (parked x s (.await h))) ∧
        (∀ f, l.aw < l.held → l.fault.testBit r = true → t.slotFault.find? (fun e => e.1 == h && e.2.1 == r) = some (h, r, f) →
          exec (.lrAwait w) s = .next (raised x s f))) ∧
      (∀ r, r = lehrRel t h → Issues s (.lrRel w) x →
        (1 ≤ l.held → 1 ≤ l.aw → l.fault.testBit r = false → fget 0 (h * 64 + r) t.mcOwner = 0 → ∃ t', t' = lehrSet
            { t with rel := fput 0 h ((r + 1) % l.cnt) t.rel, slotFault := t.slotFault.filter (fun e => !(e.1 == h && e.2.1 == r)) } h
            { l with filled := setFld l.filled r 1 0, fault := setFld l.fault r 1 0, aw := l.aw - 1, held := l.held - 1 } ∧
          exec (.lrRel w) s = .next (performed x (progressed (putLehr s x.g.gid { t' with mcOwner := fput 0 (h * 64 + r) 0 t'.mcOwner } h) x.g.ctx))) ∧
        ((l.held = 0 ∨ (l.aw = 0 ∧ l.fault.testBit r = false)) →
          exec (.lrRel w) s = .next (raised x s { cls := 0x0E, code := 4, addr := h, index := r }))) ∧
      (Issues s (.lrFill w) x →
        (l.held < l.cnt → exec (.lrFill w) s = .next (performed x (progressed (putLehr (putG s
          (ws x.g w.d.toNat (BitVec.ofNat 64 (128 * ((h + 159) / 128) + 128 * l.lines * ((lehrRel t h + l.held) % l.cnt))))) x.g.gid (lehrReserve t h).1 h) x.g.ctx))) ∧
        (l.cnt ≤ l.held → exec (.lrFill w) s = .next (parked x s (.lehrFull t.tid h)))) ∧
      (Issues s (.lrFillPut w) x → releaseWait s x.g .tm = none →
        (∀ k, slotAt t h (srcB x.g w).toNat = some k →
          exec (.lrFillPut w) s = .next (performed x (progressed (putLehr s x.g.gid (lehrFill t h k 0) h) x.g.ctx))) ∧
        (slotAt t h (srcB x.g w).toNat = none →
          exec (.lrFillPut w) s = .next (raised x s { cls := 0x0E, code := 5, addr := h }))))

/-- From R323 to R325: `cp.in`, `cp.out` and `cp.g` with sound operands issue their copy to the engine, local destination lines losing their
presence and global ones marked once their pages are walked; with .lr the copy reserves a slot of its lehr. A count that is not a multiple of 8 from 8 to 2^30 is refused
with class 0x0F.
From R326 to R328: `cp.halo` with a sound descriptor issues a copy that waits for the phase of its cluster barrier in which the group next
arrives, also from a team that has retired (its fate is the copy's); `cp.mc` takes one count of its channel for every receiver and reserves a slot of each receiver's lehr that has room, and waits
while a receiver has no count.
Log entries 25 and 67. -/
def Obligations.CopyAndHaloWords : Prop :=
  (
    ∀ (s : State) (x : Issue) (w : SWord) (t : Team) (a b n h : Nat) (hint : Nat), teamOf s x.g = some t → a = (rs x.g w.a.toNat).toNat →
      b = (srcB x.g w).toNat → n = (srcC x.g w).toNat → h = (rs x.g w.d.toNat).toNat → hint = w.f7.toNat % 4 →
      ((n < 8 ∨ 2 ^ 30 < n ∨ n % 8 ≠ 0) → ∀ i ∈ [Instr.cpIn w, .cpOut w, .cpG w], Issues s i x →
        exec i s = .next (raised x s { cls := 0x0F, code := 1, index := n % 2 ^ 32 })) ∧
      (8 ≤ n → n ≤ 2 ^ 30 → n % 8 = 0 → b % 8 = 0 → b < 2 ^ 57 → a % 8 = 0 →
        (Issues s (.cpIn w) x → w.f7.getLsbD 2 = false → localBad t a n = none →
          exec (.cpIn w) s = .next (performed x (issueCopy (putT s (clearLines t a n)) x
            { kind := .cin, team := t.tid, src := b, srcLocal := false, dst := a, bytes := n, slot := none, marks := [], hint := hint }))) ∧
        (∀ d s1, Issues s (.cpIn w) x → w.f7.getLsbD 2 = true → headerCheck t a = none → n ≤ (lehrRead t a).lines * 128 →
          localBad t (slotAddr a (lehrRead t a) ((lehrRel t a + (lehrRead t a).held) % (lehrRead t a).cnt)) n = none → lehrFull t a = false → d = slotAddr a (lehrRead (lehrReserve t a).1 a) (lehrReserve t a).2 →
          s1 = issueCopy (putT (wakeLocal s t.tid x.g.gid [a]) (clearLines (lehrReserve t a).1 d n)) x
            { kind := .cin, team := t.tid, src := b, srcLocal := false, dst := d, bytes := n, slot := some (t.tid, a, (lehrReserve t a).2), marks := [], hint := hint } →
          exec (.cpIn w) s = .next (performed x (putG s1 (ws ((getG s1 x.g.gid).getD x.g) w.d.toNat (BitVec.ofNat 64 d))))) ∧
        (∀ p, rangeMiss s x.g b n 2 = some p → (Issues s (.cpOut w) x → localBad t a n = none → exec (.cpOut w) s = .next (parked x (startWalk s x.g p) (.walk p))) ∧
          (Issues s (.cpG w) x → a < 2 ^ 57 → (a + n ≤ b ∨ b + n ≤ a) → exec (.cpG w) s = .next (parked x (startWalk s x.g p) (.walk p)))) ∧
        (rangeMiss s x.g b n 2 = none →
          (Issues s (.cpOut w) x → w.f7.getLsbD 2 = false → localBad t a n = none →
            exec (.cpOut w) s = .next (performed x (issueCopy (clearWalks s x.g.gid) x
              { kind := .cout, team := t.tid, src := a, srcLocal := true, dst := b, bytes := n, slot := none, marks := markLines s x.g b n, hint := hint }))) ∧
          (a < 2 ^ 57 → (a + n ≤ b ∨ b + n ≤ a) → Issues s (.cpG w) x → w.f7.getLsbD 2 = false →
            exec (.cpG w) s = .next (performed x (issueCopy (clearWalks s x.g.gid) x
              { kind := .cg, team := t.tid, src := a, srcLocal := false, dst := b, bytes := n, slot := none, marks := markLines s x.g b n, hint := hint }))) ∧
          (∀ s2, s2 = putT (wakeLocal s t.tid x.g.gid [h]) (lehrReserve t h).1 → w.f7.getLsbD 2 = true → headerCheck t h = none → lehrFull t h = false →
            (Issues s (.cpOut w) x → localBad t a n = none → exec (.cpOut w) s = .next (performed x (issueCopy (clearWalks s2 x.g.gid) x
              { kind := .cout, team := t.tid, src := a, srcLocal := true, dst := b, bytes := n, slot := some (t.tid, h, (lehrReserve t h).2), marks := markLines s2 x.g b n, hint := hint }))) ∧
            (a < 2 ^ 57 → (a + n ≤ b ∨ b + n ≤ a) → Issues s (.cpG w) x → exec (.cpG w) s = .next (performed x (issueCopy (clearWalks s2 x.g.gid) x
              { kind := .cg, team := t.tid, src := a, srcLocal := false, dst := b, bytes := n, slot := some (t.tid, h, (lehrReserve t h).2), marks := markLines s2 x.g b n, hint := hint }))))) ∧
        (a < 2 ^ 57 → a < b + n → b < a + n → Issues s (.cpG w) x →
          exec (.cpG w) s = .next (raised x s { cls := 0x0F, code := 4, addr := a })))) ∧
  (
    (∀ (s : State) (x : Issue) (w : SWord) (t u : Team) (cl : Cluster) (a k : Nat) (h : Halo), Issues s (.cpHalo w) x → teamOf s x.g = some t →
      a = (rs x.g w.a.toNat).toNat → k = imm20 w % 4 → a % 32 = 0 → localBad t a 32 = none → absentLine t a 32 = none → h = haloDec (lrd t a 32) →
      clusterTeamAny s x.g h.team = some u → clusterOf s x.g = some cl → h.good = true → h.team < cl.w * cl.h →
      (haloRowBad t u h = none → exec (.cpHalo w) s = .next (performed x (issueCopy
        (putT s ((haloLines h).foldl (fun t l => clearLines t (l * 128) 128) t)) x
        { kind := .halo, team := t.tid, src := a, srcLocal := true, dst := 0, bytes := h.rows * h.len, slot := none, marks := [], hint := w.f7.toNat % 4, k := k, phase := nextPhase cl k x.g, desc := lrd t a 32 }))) ∧
      (∀ r, haloRowBad t u h = some r → exec (.cpHalo w) s = .next (raised x s { cls := 0x0F, code := 5, addr := a, index := r }))) ∧
    (∀ (s : State) (x : Issue) (w : SWord) (t : Team) (cl : Cluster) (a : Nat), Issues s (.cpHalo w) x → teamOf s x.g = some t → a = (rs x.g w.a.toNat).toNat →
      a % 32 = 0 → localBad t a 32 = none → absentLine t a 32 = none → clusterOf s x.g = some cl →
      ((haloDec (lrd t a 32)).good = false ∨ cl.w * cl.h ≤ (haloDec (lrd t a 32)).team) → exec (.cpHalo w) s = .next (raised x s { cls := 0x0F, code := 5, addr := a })) ∧
    (∀ (s : State) (x : Issue) (w : SWord) (t : Team) (cl : Cluster) (h b n mask : Nat) (ms live : List Nat) (c : McChan), Issues s (.cpMc w) x →
      teamOf s x.g = some t → clusterOf s x.g = some cl → h = (rs x.g w.a.toNat).toNat → b = (srcB x.g w).toNat → n = (srcC x.g w).toNat →
      mask = imm20 w % 4096 → ms = (List.range 12).filter (fun m => mask.testBit m) → live = ms.filter (fun m => (clusterTeam s x.g m).isSome) →
      8 ≤ n → n ≤ 2 ^ 30 → n % 8 = 0 → b % 8 = 0 → (w.f7.getLsbD 3 = false → b < 2 ^ 57) → (w.f7.getLsbD 3 = true → localBad t b n = none) →
      h % 32 = 0 → mask ≠ 0 → (∀ m ∈ ms, m < cl.w * cl.h) → (t.mc.length < 4 ∨ ∃ c ∈ t.mc, c.off = h) →
      (∀ m ∈ live, ∀ u, clusterTeam s x.g m = some u → localBad u h 32 = none ∧ n ≤ (lehrRead u h).lines * 128) → c = mcChannel s x.g t h ms →
      ((∃ m ∈ live, fget 0 m c.free = 0) → exec (.cpMc w) s = .next (parked x (putT s (putChannel t c)) (.mcZero h mask))) ∧
      (∀ q, q = mcIssue (putT s (putChannel t { c with free := live.foldl (fun f m => fput 0 m (fget 0 m f - 1) f) c.free })) x.g h n t.tid ms →
        (∀ m ∈ live, fget 0 m c.free ≠ 0) → q.2.map (fun r => r.team) = ms ∧ exec (.cpMc w) s = .next (performed x (issueCopy q.1 x
        { kind := .mc, team := t.tid, src := b, srcLocal := w.f7.getLsbD 3, dst := h, bytes := n, slot := none, marks := [], hint := w.f7.toNat % 4, recv := q.2 })))))

/-- From R330: the cache-control words act on the lines of their range that translate, once its pages are walked, and change no byte of memory; a count of 0 does nothing,
a write-back or an invalidation beyond 2^57 is class 0x06, and a way mask with a bit above 15 is class 0x0F.
The fate of a range past 2^57, and that no count is refused, are log entry 24. -/
def Obligations.CacheControlWords : Prop :=
  ∀ (s : State) (x : Issue) (w : SWord) (a n : Nat), a = (rs x.g w.a.toNat).toNat → n = (srcB x.g w).toNat →
    (Issues s (.ccPrf w) x → (∀ p, rangeMiss s x.g a n 1 = some p → exec (.ccPrf w) s = .next (parked x (startWalk s x.g p) (.walk p))) ∧
      (rangeMiss s x.g a n 1 = none → ∃ t, exec (.ccPrf w) s = .next (performed x (clearWalks t x.g.gid)) ∧ t.mem = s.mem ∧ t.groups = s.groups ∧
        (n = 0 → t = s))) ∧
    (∀ i ∈ [Instr.ccWb w, .ccInv w], Issues s i x → n ≠ 0 →
      (∀ f, ccCheck s x a n = some (.inl f) → exec i s = .next (raised x (clearWalks s x.g.gid) f)) ∧
      (∀ p, ccCheck s x a n = some (.inr p) → exec i s = .next (parked x (startWalk s x.g p) (.walk p)))) ∧
    (n = 0 → (Issues s (.ccWb w) x → exec (.ccWb w) s = .next (performed x s)) ∧ (Issues s (.ccInv w) x → exec (.ccInv w) s = .next (performed x s))) ∧
    (Issues s (.ccWb w) x → n ≠ 0 → ccCheck s x a n = none → ∃ t, exec (.ccWb w) s = .next (performed x t) ∧ t.mem = s.mem ∧
      t = (physLines s x.g a n).foldl (fun s p => writeBackLine s x (w.f7.getLsbD 0) (p.1 / 8) (p.1 % 8)) (clearWalks s x.g.gid)) ∧
    (Issues s (.ccInv w) x → n ≠ 0 → ccCheck s x a n = none → ∃ t, exec (.ccInv w) s = .next (performed x t) ∧ t.mem = s.mem ∧
      (∀ p ∈ physLines s x.g a n, ∀ k ∈ t.l1, ¬ (k.core = x.g.core ∧ k.line = p.1)) ∧ (∀ k ∈ t.l1, k ∈ s.l1)) ∧
    (n ≠ 0 → 2 ^ 57 < a + n →
      (Issues s (.ccWb w) x → exec (.ccWb w) s = .next (raised x (clearWalks s x.g.gid) { cls := 6, code := 1, addr := a })) ∧
      (Issues s (.ccInv w) x → exec (.ccInv w) s = .next (raised x (clearWalks s x.g.gid) { cls := 6, code := 1, addr := a }))) ∧
    (∀ c : Context, Issues s (.ccWays w) x → getC s x.g.ctx = some c →
      (a < 2 ^ 16 → exec (.ccWays w) s = .next (performed x (putC s { c with ways := fput 0xF000 (dieOfCore x.g.core) a c.ways }))) ∧
      (2 ^ 16 ≤ a → exec (.ccWays w) s = .next (raised x s { cls := 0x0F, code := 8 })))

/-! Matrix words. -/

/-- From R338 to R344, R85: a pass word whose operands pass captures its A rows and enters a fusion window of its partition, in the tile or the
parison that stands for it; with no active lane it has no effect but on the A latch. While another group holds the pontil it faults.
From R200: one value of a pass. An integer pass without scales adds the exact products to the old value modulo 2^32, or clamped once. A float
pass, or one with scales, has a term for each k, the exact product of its elements by its scales: an old NaN stays, quieted; else infinity times
zero and opposite infinities give the default NaN with the invalid flag, and a NaN operand or scale gives it without; else an infinity stands; else the exact sum of
the old value and the terms is rounded once to nearest, and of its flags invalid and overflow are raised. -/
def Obligations.MatrixPasses : Prop :=
  (
    (∀ (s : State) (x : Issue) (w : XWord) (t : Slot16) (pr : Pairing) (tm : Team) (mmaf : Bool) (i : Instr) (val : List W64) (g1 : Group)
      (a rows : Nat),
      i = (if mmaf then .mxMmaf w else .mxMma w) → Issues s i x → gridSlot s x.g w.slot.toNat = some t → teamOf s x.g = some tm →
      passBad x.g w mmaf (some t) ((rs x.g w.base.toNat).toNat / 2 ^ 32) = none → pairing t.el w.wa.toNat w.wb.toNat w.mix = some pr →
      a = mxAddr x.g w → (mmaf = false → mxAddrBad tm (rs x.g w.base.toNat).toNat a 16 (bBytes pr t.scale) = none) →
      (∀ l : Nat × List W64, x.g.latch = some l → l.1 = w.a.toNat → val = l.2) →
      ((∀ l : Nat × List W64, x.g.latch = some l → l.1 ≠ w.a.toNat) → val = (List.range x.g.width).map (rv x.g w.a.toNat)) →
      g1 = { x.g with latch := if w.bit4 then some (w.a.toNat, val) else none } → rows = 8 * octets x.active x.g.width →
      (rows ≠ 0 → mmaf = false → mxFaulted tm a (bBytes pr t.scale) = none) →
      (rows = 0 → exec i s = .next (performed x (putG s g1))) ∧
      (rows ≠ 0 → ((getPart s x.g.core x.g.part).pontil = none ∨ (getPart s x.g.core x.g.part).pontil = some x.g.gid) →
        exec i s = .next (performed x (enterWindow (putG s g1) g1 rows
          { mmaf := mmaf, tile := tileLoc x.g w.tile.toNat, lanes := (lanesOf x.active).map (fun l => (l, val.getD l 0#64)), team := tm.tid, baddr := if mmaf then 0 else a, slot := w.slot.toNat, wa := w.wa.toNat, wb := w.wb.toNat, sat := w.sat, mix := w.mix, seed := x.g.seed, table := x.g.table, row0 := fld (rs x.g w.base.toNat).toNat 0 16, col0 := fld (rs x.g w.base.toNat).toNat 16 16, window := 0 }))) ∧
      (∀ h o, rows ≠ 0 → (getPart s x.g.core x.g.part).pontil = some h → h ≠ x.g.gid → getG s h = some o →
        exec i s = .next (raised x s { cls := 0x13, code := 1, index := o.num }))) ∧
    (∀ (s : State) (x : Issue) (w : XWord), x.g.accN ≤ w.tile.toNat →
      (Issues s (.mxMma w) x → exec (.mxMma w) s = .next (raised x s { cls := 0x12, code := 1, index := w.tile.toNat })) ∧
      (Issues s (.mxMmaf w) x → exec (.mxMmaf w) s = .next (raised x s { cls := 0x12, code := 1, index := w.tile.toNat })))) ∧
  (
    (∀ (t : Slot16) (p : Pass) (pr : Pairing) (b old n : Nat) (a : W64), pr.int = true → t.scale = false → old < 2 ^ 32 →
      ∃ r : Int, r = toS 32 old + ((List.range pr.k).map (fun k =>
          (if pr.sgA then toS pr.sa (fld a.toNat (k * pr.sa) pr.sa) else (fld a.toNat (k * pr.sa) pr.sa : Int)) *
          (if pr.sgB then toS pr.sb (bElem p pr b k n) else ((bElem p pr b k n % 2 ^ pr.sb : Nat) : Int)))).sum ∧
        passCell t p pr b a old n = (if p.sat = true ∨ t.ovf = 1 then wrap 32 (max (-(2 ^ 31)) (min (2 ^ 31 - 1) r)) else wrap 32 r, 0)) ∧
    (∀ (ftz : Bool) (old : Nat) (terms : List (FV × Bool)) (o : FV), old < 2 ^ 32 → o = decF fmtF32 ftz old →
      (o.isNan = true → combineF ftz old terms = (old ||| 2 ^ 22, 0)) ∧
      (o.isNan = false → ((∃ v ∈ terms, v.2 = true) ∨ (.inf true ∈ o :: terms.map Prod.fst ∧ .inf false ∈ o :: terms.map Prod.fst)) →
        combineF ftz old terms = (defNan fmtF32, 16)) ∧
      (o.isNan = false → (∀ v ∈ terms, v.2 = false) → (.inf true ∉ o :: terms.map Prod.fst ∨ .inf false ∉ o :: terms.map Prod.fst) →
        ((∃ v ∈ terms, v.1.isNan = true) → combineF ftz old terms = (defNan fmtF32, 0)) ∧
        ((∀ v ∈ terms, v.1.isNan = false) → ∀ n, .inf n ∈ o :: terms.map Prod.fst → combineF ftz old terms = (infPat fmtF32 n, 0))) ∧
      ((∀ v ∈ terms, v.2 = false) → (∀ v ∈ o :: terms.map Prod.fst, v.isNan = false ∧ v.isInf = false) → ∀ sum : ℚ,
        sum = valueQ o + (terms.map (fun v => valueQ v.1)).sum → sum ≠ 0 →
        ∃ r fl, RoundedOnce fmtF32 { ftz := ftz } sum (r, fl) ∧ combineF ftz old terms = (r, fl &&& 20))) ∧
    (∀ (t : Slot16) (p : Pass) (pr : Pairing) (b old n ea eb : Nat) (a : W64), pr.int = false ∨ t.scale = true →
      ea = fld a.toNat 56 8 → eb = (if p.mmaf then 127 else fld b (8 * (pr.k * 8 * pr.sb + n)) 8) →
      ∃ terms : List (FV × Bool), terms.length = pr.k ∧ passCell t p pr b a old n = combineF t.ftz old terms ∧
        ∀ k v, terms[k]? = some v →
          (pr.int = false → pr.el ∈ [1, 2, 3, 4] → ∀ x y : FV, x = decF (fmtTy (elTy pr.el)) t.ftz (fld a.toNat (k * pr.sa) pr.sa) →
            y = decF (fmtTy (elTy pr.el)) t.ftz (bElem p pr b k n) →
            ((x.isNan = true ∨ y.isNan = true) → v = (.nan false false 0, false)) ∧
            (((x.isZero = true ∧ y.isInf = true) ∨ (x.isInf = true ∧ y.isZero = true)) → v.2 = true) ∧
            (x.isNan = false → y.isNan = false → x.isInf = false → y.isInf = false → (t.scale = true → ea ≠ 255 ∧ eb ≠ 255) →
              v.2 = false ∧ v.1.isNan = false ∧ v.1.isInf = false ∧
              valueQ v.1 = valueQ x * valueQ y * (if t.scale then 2 ^ ((ea : ℤ) + eb - 254) else 1))) ∧
          (t.scale = true → (ea = 255 ∨ eb = 255) → v.1.isNan = true) ∧
          (pr.int = true → ea ≠ 255 → eb ≠ 255 → v.2 = false ∧
            valueQ v.1 = (((if pr.sgA then toS pr.sa (fld a.toNat (k * pr.sa) pr.sa) else (fld a.toNat (k * pr.sa) pr.sa : Int)) *
              (if pr.sgB then toS pr.sb (bElem p pr b k n) else ((bElem p pr b k n % 2 ^ pr.sb : Nat) : Int)) : Int) : ℚ) * 2 ^ ((ea : ℤ) + eb - 254))))

/-- From R345, R346, R349, R334: `mx.zero` sets the active rows of its tile in its turn; `mx.ld` and `mx.st` move rows through the port; `mx.wait`
goes on when no earlier matrix word of the group remains to write its tile; `mx.rel` frees the A latch.
From R86: `pl.take` takes a free pontil, keeps one it holds and parks while another group holds it; `pl.pass` hands it to a group of its team
on its partition, or frees it; by a group that does not hold it, both fault with class 0x13.
From R348, R349: `sp.open` copies tiles N to N + c - 1 into parisons 0 to c - 1 and opens speculation over them, `sp.keep` copies them back and
closes it, `sp.drop` closes it; an open one, none open, and a range beyond the group's tiles or parisons fault with class 0x12.
Log entry 53. -/
def Obligations.TilePontilAndSpeculation : Prop :=
  (
    ∀ (s : State) (x : Issue) (w : XWord),
      (w.tile.toNat < x.g.accN →
        (Issues s (.mxZero w) x → x.active ≠ 0#64 → exec (.mxZero w) s = .next (performed x (settleTiles
          (launchOp s x.g.gid x.g.ctx x.g.core .tiles (.tileSet [(tileLoc x.g w.tile.toNat, none)] (lanesOf x.active))) x.g.gid))) ∧
        (Issues s (.mxZero w) x → x.active = 0#64 → exec (.mxZero w) s = .next (performed x s)) ∧
        (∀ (store : Bool) (i : Instr) (t : Team) (a : Nat), i = (if store then .mxSt w else .mxLd w) → Issues s i x → teamOf s x.g = some t →
          a = mxAddr x.g w → mxAddrBad t (rs x.g w.base.toNat).toNat a 128 (256 * x.g.width) = none →
          (∀ l ∈ lanesOf x.active, mxFaulted t (a + 256 * l) 256 = none) → x.active ≠ 0#64 →
          exec i s = .next (performed x (launchOp s x.g.gid x.g.ctx x.g.core .tiles
            (.tileXfer store (tileLoc x.g w.tile.toNat) (lanesOf x.active) t.tid a)))) ∧
        (Issues s (.mxWait w) x → w.bit4 = false → tileBusy s x.g.gid (some [w.tile.toNat, tileLoc x.g w.tile.toNat]) (tileMark s x) = false →
          tileDue x.g (some [w.tile.toNat, tileLoc x.g w.tile.toNat]) = none → exec (.mxWait w) s = .next (performed x s))) ∧
      (Issues s (.mxWait w) x → w.bit4 = true → tileBusy s x.g.gid none (tileMark s x) = false → tileDue x.g none = none → exec (.mxWait w) s = .next (performed x s)) ∧
      (Issues s (.mxRel w) x → exec (.mxRel w) s = .next (performed x (putG s { x.g with latch := none }))) ∧
      (∀ i ∈ [Instr.mxZero w, .mxLd w, .mxSt w], x.g.accN ≤ w.tile.toNat → Issues s i x → (teamOf s x.g).isSome = true →
        exec i s = .next (raised x s { cls := 0x12, code := 1, index := w.tile.toNat }))) ∧
  (
    ∀ (s : State) (x : Issue) (w : XWord) (p : Part), p = getPart s x.g.core x.g.part →
      (Issues s (.plTake w) x →
        (p.pontil = none → exec (.plTake w) s = .next (performed x (putPart s { p with pontil := some x.g.gid }))) ∧
        (p.pontil = some x.g.gid → exec (.plTake w) s = .next (performed x s)) ∧
        (∀ h, p.pontil = some h → h ≠ x.g.gid → exec (.plTake w) s = .next (parked x s .pontil))) ∧
      (Issues s (.plPass w) x →
        (p.pontil ≠ some x.g.gid → exec (.plPass w) s = .next (raised x s { cls := 0x13, code := 2 })) ∧
        (∀ h : Group, p.pontil = some x.g.gid →
          s.groups.find? (fun g => g.team == x.g.team && g.core == x.g.core && g.part == x.g.part && g.num == w.tile.toNat) = some h →
          exec (.plPass w) s = .next (performed x (putPart s { p with pontil := some h.gid }))) ∧
        (p.pontil = some x.g.gid → (∀ g ∈ s.groups, ¬ (g.team = x.g.team ∧ g.core = x.g.core ∧ g.part = x.g.part ∧ g.num = w.tile.toNat)) →
          exec (.plPass w) s = .next (raised x s { cls := 0x13, code := 3, index := w.tile.toNat }))) ∧
      (Issues s (.plPassFree w) x →
        (p.pontil ≠ some x.g.gid → exec (.plPassFree w) s = .next (raised x s { cls := 0x13, code := 2 })) ∧
        (p.pontil = some x.g.gid → exec (.plPassFree w) s = .next (performed x (pontilFree s x.g.core x.g.part))))) ∧
  (
    ∀ (s : State) (x : Issue) (w : SWord) (n c : Nat), n = imm20 w % 32 → c = imm20 w / 32 % 16 + 1 →
      (Issues s (.spOpen w) x →
        (n + c ≤ x.g.accN → c ≤ x.g.parN → x.g.spec = none → exec (.spOpen w) s = .next (performed x (settleTiles
          (launchOp (putG s { x.g with spec := some (n, c) }) x.g.gid x.g.ctx x.g.core .tiles
            (.tileSet ((List.range c).map (fun k => (32 + k, some (n + k)))) (List.range x.g.width))) x.g.gid))) ∧
        (x.g.accN < n + c → exec (.spOpen w) s = .next (raised x s { cls := 0x12, code := 1, index := n + c - 1 })) ∧
        (n + c ≤ x.g.accN → x.g.parN < c → exec (.spOpen w) s = .next (raised x s { cls := 0x12, code := 2, index := c })) ∧
        (n + c ≤ x.g.accN → c ≤ x.g.parN → x.g.spec ≠ none → exec (.spOpen w) s = .next (raised x s { cls := 0x12, code := 7 }))) ∧
      (Issues s (.spKeep w) x →
        (∀ n' c', x.g.spec = some (n', c') → exec (.spKeep w) s = .next (performed x (settleTiles
          (launchOp (putG s { x.g with spec := none }) x.g.gid x.g.ctx x.g.core .tiles
            (.tileSet ((List.range c').map (fun k => (n' + k, some (32 + k)))) (List.range x.g.width))) x.g.gid))) ∧
        (x.g.spec = none → exec (.spKeep w) s = .next (raised x s { cls := 0x12, code := 8 }))) ∧
      (Issues s (.spDrop w) x →
        (x.g.spec ≠ none → exec (.spDrop w) s = .next (performed x (putG s { x.g with spec := none }))) ∧
        (x.g.spec = none → exec (.spDrop w) s = .next (raised x s { cls := 0x12, code := 8 }))))

/-- From R350 to R352, R166: `fb.set` loads seed and table from a feedback record; `fb.tab` adds to, and `fb.tab.set` sets, entry k of the table
from sub-element k mod 4 of lane k div 4 where that lane is active. -/
def Obligations.FeedbackWords : Prop :=
  (∀ (s : State) (x : Issue) (w : SWord) (a : Nat) (l : Lane) (s1 : State) (b : List Byte), a = (rs x.g w.a.toNat).toNat →
    Issues s (.fbSet w) x → laneCheck s x.g 0 a 64 1 1 true 4 = .ok l → readNow s x.g l.pas = some (.inr (s1, b)) → b.length = 64 →
    ((∀ i, 4 ≤ i → i < 64 → ¬ (8 ≤ i ∧ i < 40) → b.getD i 0#8 = 0#8) → ∃ tab : FMap (BitVec 16),
      exec (.fbSet w) s = .next (performed x (putG (clearWalks s1 x.g.gid) { walkDone x.g x.b with seed := BitVec.ofNat 32 (le b 0 4), table := tab })) ∧
      ∀ k, k < 16 → fget 0#16 k tab = BitVec.ofNat 16 (le b (8 + 2 * k) 2))) ∧
  (∀ (s : State) (x : Issue) (w : VWord),
    (Issues s (.fbTabSet w) x → ∃ tab : FMap (BitVec 16), exec (.fbTabSet w) s = .next (performed x (putG s { x.g with table := tab })) ∧
      ∀ k, k < 16 → fget 0#16 k tab = if x.active.getLsbD (k / 4) then BitVec.ofNat 16 (elem 16 (k % 4) (rv x.g w.a.toNat (k / 4)))
        else fget 0#16 k x.g.table) ∧
    (Issues s (.fbTab w) x → ∃ (tab : FMap (BitVec 16)) (fl : BitVec 5),
      exec (.fbTab w) s = .next (performed x (putG s { x.g with table := tab, flags := fl })) ∧
      (∀ k, k < 16 → fget 0#16 k tab = if x.active.getLsbD (k / 4) then
          BitVec.ofNat 16 (addF fmtB16 {} false (fget 0#16 k x.g.table).toNat (elem 16 (k % 4) (rv x.g w.a.toNat (k / 4)))).1
        else fget 0#16 k x.g.table) ∧
      (∀ n, n < 5 → (fl.getLsbD n = true ↔ x.g.flags.getLsbD n = true ∨ ∃ k, k < 16 ∧ x.active.getLsbD (k / 4) = true ∧
        (addF fmtB16 {} false (fget 0#16 k x.g.table).toNat (elem 16 (k % 4) (rv x.g w.a.toNat (k / 4)))).2.testBit n = true))))

/-! Stations, towers and the network. -/

/-- From R353 to R355, R463: a station word with sound operands and record asks the record's home once and parks, a release first where it is one;
when the home has answered it ends: `pa.open` sets the pass and returns the binding to d, a refusal faults with the record's address.
From R163, R354: `ac.get` reads a counter of a record as an acquiring load; `ac.wait` goes on once the counter read at its home is at least its
value, and parks before.
From R158 to R161, R163: what a record's home does with an open, a close and a commit. An open of a closed slot raises the hold count of every tile's
newest buffer, writes pass and binding to the retention header and answers the binding; the replay form on the slot's own open pass marks it and
answers its binding. A close lowers the hold counts of the buffers the pass read and closes the slot. A commit writes the version to the buffer
that is not newest of each named tile and makes it newest. Each raises the named counter to at least n. The refusals come in the order of their
codes and change nothing: an open slot (2), a pass that is not open (3), a tile the station lacks (4), a version that is not newer (5), a held
buffer (6), a reserved field (10).
From R169, R170, R356: `eb.send` with a sound list, every entry well-formed, goes to the network engine, which reads the source after it; the first malformed entry is refused by its number.
Log entries 27, 63 and 105. -/
def Obligations.StationsAndBroadcast : Prop :=
  (
    (∀ (s s1 : State) (x : Issue) (w : SWord) (i : Instr) (k : StKind) (rel : Bool) (l : Lane) (g : Group) (a : Nat),
      (i, k, rel) ∈ [(Instr.paOpen w, StKind.openPass false, false), (.paOpenRp w, .openPass true, false), (.paClose w, .closePass, true),
        (.wvCommit w, .commit ((srcC x.g w).extractLsb' 32 32).toNat ((srcC x.g w).extractLsb' 0 16).toNat, true)] →
      a = (rs x.g w.a.toNat).toNat → Issues s i x → x.slot.stop = none → srcB x.g w ≠ 0#64 → a % 2048 = 0 →
      (i = .wvCommit w → (srcC x.g w).extractLsb' 16 16 = 0#16) → recCheck s x.g a 3 = .ok l → (rel = true → releaseWait s x.g .dv = none) →
      s1 = launchOp (drainWcb s x.g.gid) x.g.gid x.g.ctx x.g.core .none (.station k (l.pas.headD 0) (srcB x.g w).toNat (ctrOf w) none) →
      getG s1 x.g.gid = some g →
      exec i s = .next (parked x (putG s1 (setSlot g x.b { slotOf g x.b with stop := some ((drainWcb s x.g.gid).nextId, none) })) .station)) ∧
    (∀ (s s1 : State) (x : Issue) (w : SWord) (g : Group) (id : Nat), getG s x.g.gid = some g →
      s1 = putG s (setSlot (walkDone g x.b) x.b { slotOf g x.b with stop := none }) →
      (∀ v, x.slot.stop = some (id, some (.ok v)) →
        (Issues s (.paClose w) x → exec (.paClose w) s = .next (performed x s1)) ∧
        (Issues s (.wvCommit w) x → exec (.wvCommit w) s = .next (performed x s1)) ∧
        (∀ i ∈ [Instr.paOpen w, .paOpenRp w], Issues s i x → ∃ (s2 : State) (g2 : Group), getG s2 g.gid = some g2 ∧ g2.pass = srcB x.g w ∧
          g2.s = g.s ∧ g2.v = g.v ∧ s2.mem = s.mem ∧
          exec i s = .next (performed x (launchOp s2 g.gid g.ctx g.core .loads (.value [(2 ^ 20 + w.d.toNat, v)]))))) ∧
      (∀ f, x.slot.stop = some (id, some (.bad f)) → ∀ i ∈ [Instr.paOpen w, .paOpenRp w, .paClose w, .wvCommit w], Issues s i x →
        exec i s = .next (raised x s1 { f with addr := if f.cls = 0x19 then f.addr else (rs x.g w.a.toNat).toNat }))) ∧
    (∀ (s : State) (x : Issue) (w : SWord) (i : Instr), i ∈ [Instr.paOpen w, .paOpenRp w, .paClose w, .wvCommit w] → Issues s i x →
      x.slot.stop = none → srcB x.g w = 0#64 →
      exec i s = .next (raised x s { cls := 0x14, code := 1, addr := (rs x.g w.a.toNat).toNat }))) ∧
  (
    ∀ (s : State) (x : Issue) (w : SWord) (l : Lane) (a c pa : Nat), a = (rs x.g w.a.toNat).toNat → a % 2048 = 0 → ctrOf w = some c →
      recCheck s x.g a 1 = .ok l → pa = l.pas.headD 0 →
      (Issues s (.acGet w) x → exec (.acGet w) s = .next (performed x (clearWalks (issueLoad (drainWcb s x.g.gid) x
        [{ lane := 0, va := a, pas := (List.range 8).map (fun i => pa + 64 + 8 * c + i) }] (512 + w.d.toNat) false (some .dv) 0) x.g.gid))) ∧
      (∀ s1, s1 = clearWalks (drainWcb s x.g.gid) x.g.gid → srcB x.g w ≠ 0#64 → Issues s (.acWait w) x →
        (acReady s1 x.g.gid pa c (srcB x.g w).toNat = true → badAt s1 [pa + 64 + 8 * c] = none →
          exec (.acWait w) s = .next (performed x (l1Drop (engineRead s1 x.g.ctx 0 [pa + 64 + 8 * c]) x.g.core ((pa + 64 + 8 * c) / 128)))) ∧
        (acReady s1 x.g.gid pa c (srcB x.g w).toNat = false → exec (.acWait w) s = .next (parked x s1 (.ac pa c (srcB x.g w).toNat))))) ∧
  (
    ∀ (s : State) (pa n k q : Nat) (c : Option Nat) (ctr : RecChange) (refuse : Nat → Nat → StRes × RecChange) (hold : Nat → Nat → Nat → Nat × Nat),
      k = n % recSlots s pa → q = recQ s pa (retOff k + 8) →
      ctr = (match c with | some c => [(64 + 8 * c, max (recQ s pa (64 + 8 * c)) n)] | none => []) →
      refuse = (fun code index => (.bad { cls := 0x14, code := code, index := index, eng := 7 }, [])) →
      hold = (fun t b d => (tileOff t + 24, setFld (recQ s pa (tileOff t + 24)) (16 * b) 16 (fld (recQ s pa (tileOff t + 24)) (16 * b) 16 + d))) →
      (∀ rp : Bool, (q.testBit 63 = true → (rp = false ∨ recQ s pa (retOff k) ≠ n) → stOpen s pa n c rp = refuse 2 k) ∧
        (q.testBit 63 = false → recBad s pa = true → stOpen s pa n c rp = refuse 10 0) ∧
        (q.testBit 63 = false → recBad s pa = false → ∃ v : W64, (∀ t < 64, v.getLsbD t = (decide (t < recTiles s pa) && decide (newest s pa t = 1))) ∧
          stOpen s pa n c rp = (.ok v, (List.range (recTiles s pa)).map (fun t => hold t (newest s pa t) 1) ++
            [(retOff k, n), (retOff k + 8, 2 ^ 63 + v.toNat)] ++ ctr))) ∧
      (q.testBit 63 = true → recQ s pa (retOff k) = n → recBad s pa = false →
        stOpen s pa n c true = (.ok (BitVec.ofNat 64 (q % 2 ^ 16)), [(retOff k + 8, setFld q 62 1 1)])) ∧
      ((q.testBit 63 = false ∨ recQ s pa (retOff k) ≠ n) → stClose s pa n c = refuse 3 k) ∧
      (q.testBit 63 = true → recQ s pa (retOff k) = n →
        (recBad s pa = true → stClose s pa n c = refuse 10 0) ∧
        (recBad s pa = false → stClose s pa n c = (.ok 0#64, (List.range (recTiles s pa)).map (fun t => hold t (fld q t 1) (2 ^ 16 - 1)) ++
          [(retOff k + 8, setFld q 63 1 0)] ++ ctr))) ∧
      (∀ v mask t, mask.testBit t = true → t < 16 → recTiles s pa ≤ t → (∀ u < t, mask.testBit u = true → u < recTiles s pa) →
        stCommit s pa n c v mask = refuse 4 t) ∧
      (∀ v mask, (∀ u < 16, mask.testBit u = true → u < recTiles s pa) →
        (∀ t < 16, mask.testBit t = true → v ≤ verOf s pa t (newest s pa t) → (∀ u < t, mask.testBit u = true → verOf s pa u (newest s pa u) < v) →
          stCommit s pa n c v mask = refuse 5 t) ∧
        ((∀ u < 16, mask.testBit u = true → verOf s pa u (newest s pa u) < v) →
          (∀ t < 16, mask.testBit t = true → fld (recQ s pa (tileOff t + 24)) (16 * (1 - newest s pa t)) 16 ≠ 0 →
            (∀ u < t, mask.testBit u = true → fld (recQ s pa (tileOff u + 24)) (16 * (1 - newest s pa u)) 16 = 0) →
            stCommit s pa n c v mask = refuse 6 t) ∧
          ((∀ u < 16, mask.testBit u = true → fld (recQ s pa (tileOff u + 24)) (16 * (1 - newest s pa u)) 16 = 0) →
            (recBad s pa = true → stCommit s pa n c v mask = refuse 10 0) ∧
            (recBad s pa = false → stCommit s pa n c v mask = (.ok 0#64, ((List.range 16).filter (fun t => mask.testBit t)).flatMap (fun t =>
              [(tileOff t + 16, setFld (recQ s pa (tileOff t + 16)) (if newest s pa t = 1 then 32 else 0) 32 v),
               (tileOff t + 24, setFld (recQ s pa (tileOff t + 24)) 32 1 (1 - newest s pa t))]) ++ ctr))))) ∧
      (∀ t b, verOf s pa t b = fld (recQ s pa (tileOff t + 16)) (if b = 0 then 32 else 0) 32)) ∧
  (
    ∀ (s : State) (x : Issue) (w : SWord) (t : Team) (l cnt : Nat) (hd : Lane) (ls : List Lane) (es : List (List Byte)), Issues s (.ebSend w) x →
      teamOf s x.g = some t → l = (rs x.g w.d.toNat).toNat → ebOperand x.g t w = none → laneCheck s x.g 0 l 32 1 1 true 1 = .ok hd →
      releaseWait s x.g .tm = none → readReady s x.g hd.pas true = true → badAt s hd.pas = none → fld (le (hd.pas.map (rdByte s)) 0 8) 6 58 = 0 →
      (∀ b ∈ (hd.pas.map (rdByte s)).drop 8, b = 0#8) → cnt = fld (le (hd.pas.map (rdByte s)) 0 8) 0 6 + 1 →
      (List.range cnt).map (fun k => laneCheck s x.g 0 (l + 32 + 32 * k) 32 1 1 true 1) = ls.map LaneRes.ok →
      readReady s x.g (ls.flatMap (fun y => y.pas)) true = true → badAt s (ls.flatMap (fun y => y.pas)) = none → es = splitEntries cnt ((ls.flatMap (fun y => y.pas)).map (rdByte s)) →
      (∀ k e, es[k]? = some e → entryBad s x.g.ctx e = true → (∀ j < k, ∀ d, es[j]? = some d → entryBad s x.g.ctx d = false) →
        exec (.ebSend w) s = .next (raised x s { cls := 0x14, code := 9, addr := l, index := k })) ∧
      ((∀ e ∈ es, entryBad s x.g.ctx e = false) → exec (.ebSend w) s = .next (performed x (clearWalks (launchOp (engineRead s x.g.ctx 0 (hd.pas ++ ls.flatMap (fun y => y.pas))) x.g.gid x.g.ctx x.g.core .net
        (.ebSource (if w.f7.getLsbD 0 then some t.tid else none) (rs x.g w.a.toNat).toNat (srcB x.g w).toNat (srcC x.g w).toNat es)) x.g.gid))))

/-- From R359 to R363, R371, R372: a tower word with a sound selection and operands sets out one share for each selected tower; `tw.wait` waits for
the named words, then raises their kept fault or returns and clears their status once their completion time has passed.
From R373, R374: `far.add` sends one request for each active lane whose address passes, with the lane's operand; `far.fence` waits for every
answer and for the time they give, and raises a kept notice. -/
def Obligations.TowerAndFarAtomicWords : Prop :=
  (
    (∀ (s : State) (x : Issue) (w : TWord) (q : TwSel) (out : Bool) (i : Instr), i = (if out then .twXout w else .twXin w) → Issues s i x →
      twSelect s x w = .inl q → xferBad x.g w q out = none →
      exec i s = .next (performed x (issueTower s x q
        { kind := if out then .xout else .xin, word := 0, tower := 0, ctx := x.g.ctx, team := x.g.team, canes := [], first := 0, addr := sregT x.g w.sa, row := w.row.toNat, w := w.wm1.toNat + 1, ty := w.ty.toNat, bc := if !out && w.f8.getLsbD 0 then some (rs x.g w.sa.toNat) else none, sat := w.f8.getLsbD 1, hint := fld w.f8.toNat 3 2, block := [], gaddr := [], idx := 0, active := [] }))) ∧
    (∀ (s : State) (x : Issue) (w : TWord) (q : TwSel) (t : Team) (h : Nat) (ga : List Nat) (cmds : List W64), Issues s (.twRun w) x →
      twSelect s x w = .inl q → teamOf s x.g = some t → readBlock t (sregT x.g w.sa) = .ok h ga cmds → h < 32 → w.start.toNat < cmds.length →
      exec (.twRun w) s = .next (performed x (issueTower s x q
        { kind := .run, word := 0, tower := 0, ctx := x.g.ctx, team := t.tid, canes := [], first := 0, addr := sregT x.g w.sa, row := 0, w := 0, ty := 0, bc := none, sat := false, hint := 0, block := cmds, gaddr := ga, idx := w.start.toNat, active := [] }))) ∧
    (∀ (s : State) (x : Issue) (w : TWord) (f : FInfo), (∀ i ∈ [Instr.twXin w, .twXout w], Issues s i x → twSelect s x w = .inr f →
      exec i s = .next (raised x s f)) ∧ (Issues s (.twRun w) x → twSelect s x w = .inr f → exec (.twRun w) s = .next (raised x s f))) ∧
    (∀ (s : State) (x : Issue) (w : TWord) (keep : Nat), keep = sregT x.g w.sa → Issues s (.twWait w) x → x.replay = false →
      (twBusy s x.g keep = true → exec (.twWait w) s = .next (parked x s (.twWait keep))) ∧
      (twBusy s x.g keep = false → (∀ d ∈ x.g.due, ¬ (d.cls = .tower ∧ twNamed x.g keep d.word = true)) →
        (x.g.twTime < s.time → exec (.twWait w) s = .next (performed x
          (putG s { ws x.g w.sb.toNat (BitVec.ofNat 64 x.g.tstat.toNat) with tstat := 0#2 }))) ∧
        (s.time ≤ x.g.twTime → exec (.twWait w) s = .next (parked x s (.twWait keep)))) ∧
      (∀ d, twBusy s x.g keep = false → x.g.due.find? (fun d => d.cls == .tower && twNamed x.g keep d.word) = some d →
        exec (.twWait w) s = .next (raised x (putG s { x.g with due := x.g.due.erase d }) d.info)))) ∧
  (
    (∀ (s : State) (x : Issue) (w : VWord) (ls : List Lane), Issues s (.farAdd w) x →
      (lanesOf x.active).map (fun l => farLane s x.g l (rv x.g w.a.toNat l).toNat (if w.ty.toNat = 22 then 128 else 4)) = ls.map LaneRes.ok →
      exec (.farAdd w) s = .next (performed x (clearWalks (ls.foldl (fun u l =>
        launchPart u (drainWcb s x.g.gid).nextId x.g.gid x.g.ctx x.g.core .far
          (.far l (decide (w.ty.toNat = 22)) (farOperand x.g w l.lane) 0 none false false)) (drainWcb s x.g.gid)) x.g.gid))) ∧
    (∀ (s : State) (x : Issue) (w : TWord), Issues s (.farFence w) x →
      (quiet s x.g .far = false → exec (.farFence w) s = .next (parked x s .farFence)) ∧
      (quiet s x.g .far = true → (∀ d ∈ x.g.due, d.cls ≠ .far) →
        (x.g.farTime < s.time → exec (.farFence w) s = .next (performed x s)) ∧
        (s.time ≤ x.g.farTime → exec (.farFence w) s = .next (parked x s .farFence))) ∧
      (∀ d, quiet s x.g .far = true → x.g.due.find? (fun d => d.cls == .far) = some d →
        exec (.farFence w) s = .next (raised x (putG s { x.g with due := x.g.due.erase d }) d.info))))

/-- From R375 to R378, R381, R498: the network words. A send waits for its engine; a transfer to a device marked lost fails at once; a get clears the presence of a local destination and waits for its turn to send its
request; an armed send joins its context's, at most 256; counters are set, waited for and read, and `cnt.wait` raises a kept fault of a get
that names its counter (R447); `coll.step` fires its team's chunk once.
From R375: a counter that is set or raised reads as its new value, no other counter changes, and the armed sends that it makes ready leave their
context and set out in arming order.
Log entries 52 and 62. -/
def Obligations.NetworkAndCounterWords : Prop :=
  (
    (∀ (s : State) (x : Issue) (w : NWord) (t : Team), teamOf s x.g = some t →
      (∀ (y : Xfer), Issues s (.netSend w) x → netBad s x.g t w false = none → y = xferOf x.g t w false →
        (lostDev s x.g.ctx y.dev = false → exec (.netSend w) s = .next (performed x
          (launchOp (drainWcb s x.g.gid) x.g.gid x.g.ctx x.g.core .net (.send y)))) ∧
        (∀ (s1 : State) (f : Flight), lostDev s x.g.ctx y.dev = true → s1 = launchOp (drainWcb s x.g.gid) x.g.gid x.g.ctx x.g.core .net (.send y) →
          getF s1 (drainWcb s x.g.gid).nextId = some f →
          exec (.netSend w) s = .next (performed x (failXfer s1 f y false 0 { cls := 0x1E, code := 1, addr := y.remote, unit := 0xFF, eng := 4 })))) ∧
      (∀ (y : Xfer) (s1 s2 : State), Issues s (.netGet w) x → netBad s x.g t w false = none → y = xferOf x.g t w false →
        lostDev s x.g.ctx y.dev = false → s1 = drainWcb s x.g.gid →
        s2 = (if w.f12.getLsbD 10 then putT s1 { clearLines t y.addr y.bytes with inbound := t.inbound + 1 } else s1) →
        exec (.netGet w) s = .next (performed x (launchOp s2 x.g.gid x.g.ctx x.g.core .net (.get y)))) ∧
      (∀ (y : Xfer) (s1 s2 s3 : State) (f : Flight), Issues s (.netGet w) x → netBad s x.g t w false = none → y = xferOf x.g t w false →
        lostDev s x.g.ctx y.dev = true → s1 = drainWcb s x.g.gid →
        s2 = (if w.f12.getLsbD 10 then putT s1 { clearLines t y.addr y.bytes with inbound := t.inbound + 1 } else s1) →
        s3 = launchOp s2 x.g.gid x.g.ctx x.g.core .net (.get y) → getF s3 s2.nextId = some f →
        exec (.netGet w) s = .next (performed x (failXfer s3 f y true 0 { cls := 0x1E, code := 1, addr := y.remote, unit := 0xFF, eng := 4 }))) ∧
      (∀ e, Issues s (.netGet w) x → netBad s x.g t w false = some e → exec (.netGet w) s = .next (raised x s e)) ∧
      (∀ (c : Context) (y : Xfer) (d : Nat), Issues s (.netArm w) x → netBad s x.g t w true = none → getC s x.g.ctx = some c →
        y = xferOf x.g t w true → d = (rs x.g w.sd.toNat).toNat →
        (c.armed.length < 256 → exec (.netArm w) s = .next (performed x (fireReady (putC s { c with armed := c.armed ++ [{ loc := y.loc, src := y.addr, dst := y.remote, bytes := y.bytes, dev := y.dev, trig := fld d 16 9, thr := fld d 32 32, cnt := y.cnt }] })
          x.g.ctx (fld d 16 9)))) ∧
        (256 ≤ c.armed.length → exec (.netArm w) s = .next (raised x s { cls := 0x16, code := 3 }))) ∧
      (∀ e, Issues s (.netSend w) x → netBad s x.g t w false = some e → exec (.netSend w) s = .next (raised x s e))) ∧
    (∀ (s : State) (x : Issue) (w : NWord) (k : Nat), k = (w.f12.extractLsb' 0 9).toNat →
      (Issues s (.cntInit w) x → exec (.cntInit w) s = .next (performed x (counterSet s x.g.ctx k (rs x.g w.sa.toNat)))) ∧
      (Issues s (.cntGet w) x → exec (.cntGet w) s = .next (performed x (launchOp s x.g.gid x.g.ctx x.g.core .loads
        (.value [(2 ^ 20 + w.sd.toNat, counterOf s x.g.ctx k)])))) ∧
      (∀ d, Issues s (.cntWait w) x → x.g.due.find? (fun d => d.cnt == some k) = some d →
        exec (.cntWait w) s = .next (raised x (putG s { x.g with due := x.g.due.erase d }) d.info)) ∧
      (Issues s (.cntWait w) x → x.g.due.find? (fun d => d.cnt == some k) = none → (rs x.g w.sa.toNat).toNat ≤ (counterOf s x.g.ctx k).toNat → exec (.cntWait w) s = .next (performed x s)) ∧
      (Issues s (.cntWait w) x → x.g.due.find? (fun d => d.cnt == some k) = none → (counterOf s x.g.ctx k).toNat < (rs x.g w.sa.toNat).toNat →
        exec (.cntWait w) s = .next (parked x s (.cnt k (rs x.g w.sa.toNat).toNat)))) ∧
    (∀ (s : State) (x : Issue) (w : NWord) (t : Team) (c : Coll) (k va n : Nat), Issues s (.collStep w) x → teamOf s x.g = some t →
      chunkOf s t = some (c, k, va, n) →
      (x.g.task = false → x.g.num = c.cgroup → w.f12.getLsbD 0 = false → exec (.collStep w) s = .next (performed x
        (if t.chunk.fired then s else fireChunk (drainWcb s x.g.gid) x.g.gid x.g.core t false))) ∧
      (x.g.task = false → x.g.num = c.cgroup → w.f12.getLsbD 0 = true → t.chunk.abort = none → t.chunk.fired = true → getT s t.tid = some t →
        c.members ≠ 1 → c.total ≠ 0 →
        exec (.collStep w) s = .next (if t.chunk.landed = true ∧ t.chunk.wct < s.time then performed x s else parked x s .coll)) ∧
      (x.g.task = true ∨ x.g.num ≠ c.cgroup → exec (.collStep w) s = .next (raised x s { cls := 0x16, code := 4, index := x.g.num })))) ∧
  (
    ∀ (s : State) (c : Context) (k : Nat) (v : W64), getC s c.ctx = some c →
      (∀ j, counterOf (counterSet s c.ctx k v) c.ctx j = if j = k then v else counterOf s c.ctx j) ∧
      (∃ c', getC (counterSet s c.ctx k v) c.ctx = some c' ∧ c'.armed = c.armed.filter (fun a => !(a.trig == k && decide (a.thr ≤ v.toNat)))) ∧
      (∃ ops : List Flight, (counterSet s c.ctx k v).pend = s.pend ++ ops ∧
        ops.map (fun f => f.op) = (c.armed.filter (fun a => a.trig == k && decide (a.thr ≤ v.toNat))).map (fun a =>
          Op.send { loc := a.loc, addr := a.src, remote := a.dst, bytes := a.bytes, dev := a.dev, cnt := a.cnt, fired := true })))

/-! Cane commands. -/

/-- From R365, R366: what each command of the cane sequencer computes in every active column, where its fields keep to its row of the table and
its rows to their bounds. The operands are read signed with s, else unsigned; the result is reduced modulo 2^w, or clamped with sat.
From R488: an array in which a command meets a row group in error writes nothing, and the share ends in a machine check of its group.
From R365 to R367: the mask commands on every driven column; the sum of bfp blocks, in register and memory form, in every block that takes part,
with its overflow in bit 1 of the status; a fifth push, and an else or a pop of an empty stack, stop the share with class 0x15, code 7, and every
breach of a command's fields, ranges or rows with code 6. -/
def Obligations.CaneCommandsAndMasks : Prop :=
  (
    ∀ (s : State) (c : CaneCmd) (w wa wb imm : Nat) (num : Nat → Nat → Nat → Int) (bits : Nat → Nat → Nat) (B : Nat → Int) (take : Int → Nat),
      w = c.wm1.toNat + 1 → wa = c.wam1.toNat + 1 → wb = c.wbm1.toNat + 1 →
      num = (fun v r n => if c.s then (BitVec.ofNat n (v / 2 ^ r)).toInt else ((v / 2 ^ r % 2 ^ n : Nat) : Int)) →
      bits = (fun v r => v / 2 ^ r % 2 ^ w) → imm = (c.b.signExtend 64).toNat % 2 ^ w →
      B = (fun v => if c.i then num imm 0 w else num v c.b.toNat w) →
      take = (fun (x : Int) => if c.sat = false then (x % (2 : Int) ^ w).toNat
        else if c.s then (max (-(2 : Int) ^ (w - 1)) (min ((2 : Int) ^ (w - 1) - 1) x) % (2 : Int) ^ w).toNat
        else (max 0 (min ((2 : Int) ^ w - 1) x)).toNat) →
      (caneBad c 1 true false false false (c.d.toNat, w) (caneSrcs c) = false →
        CaneResult s (.caneVAdd c) (caneSrcs c) c.d.toNat w (fun v => take (num v c.a.toNat w + B v)) ∧
        CaneResult s (.caneVSub c) (caneSrcs c) c.d.toNat w (fun v => take (num v c.a.toNat w - B v))) ∧
      (caneBad c 1 false false false false (c.d.toNat, w) (caneSrcs c) = false →
        CaneResult s (.caneVMin c) (caneSrcs c) c.d.toNat w (fun v => take (min (num v c.a.toNat w) (B v))) ∧
        CaneResult s (.caneVMax c) (caneSrcs c) c.d.toNat w (fun v => take (max (num v c.a.toNat w) (B v))) ∧
        CaneResult s (.caneVAnd c) (caneSrcs c) c.d.toNat w (fun v => bits v c.a.toNat &&& (if c.i then imm else bits v c.b.toNat)) ∧
        CaneResult s (.caneVOr c) (caneSrcs c) c.d.toNat w (fun v => bits v c.a.toNat ||| (if c.i then imm else bits v c.b.toNat)) ∧
        CaneResult s (.caneVXor c) (caneSrcs c) c.d.toNat w (fun v => bits v c.a.toNat ^^^ (if c.i then imm else bits v c.b.toNat)) ∧
        CaneResult s (.caneVAndn c) (caneSrcs c) c.d.toNat w (fun v => bits v c.a.toNat &&& (2 ^ w - 1 - (if c.i then imm else bits v c.b.toNat)))) ∧
      (caneBad c 0 true true false false (c.d.toNat, w) [(c.a.toNat, wa), (c.b.toNat, wb)] = false →
        CaneResult s (.caneVMul c) [(c.a.toNat, wa), (c.b.toNat, wb)] c.d.toNat w (fun v => take (num v c.a.toNat wa * num v c.b.toNat wb)) ∧
        CaneResult s (.caneVMad c) [(c.d.toNat, w), (c.a.toNat, wa), (c.b.toNat, wb)] c.d.toNat w (fun v => take (num v c.d.toNat w + num v c.a.toNat wa * num v c.b.toNat wb))) ∧
      (c.b.toNat < 64 → caneBad c 2 false false false false (c.d.toNat, w) [(c.a.toNat, w)] = false →
        CaneResult s (.caneVShl c) [(c.a.toNat, w)] c.d.toNat w (fun v => if w ≤ c.b.toNat then 0 else bits v c.a.toNat * 2 ^ c.b.toNat % 2 ^ w) ∧
        CaneResult s (.caneVShr c) [(c.a.toNat, w)] c.d.toNat w (fun v => if w ≤ c.b.toNat then 0 else bits v c.a.toNat / 2 ^ c.b.toNat) ∧
        CaneResult s (.caneVSar c) [(c.a.toNat, w)] c.d.toNat w (fun v => ((BitVec.ofNat w (bits v c.a.toNat)).sshiftRight c.b.toNat).toNat)) ∧
      (c.cc.toNat ≤ 5 → caneBad c 1 false false true false (c.d.toNat, 1) (caneSrcs c) = false →
        CaneResult s (.caneVCmp c) (caneSrcs c) c.d.toNat 1 (fun v => if (match c.cc.toNat with
          | 0 => decide (num v c.a.toNat w = B v) | 1 => decide (num v c.a.toNat w ≠ B v) | 2 => decide (num v c.a.toNat w < B v)
          | 3 => decide (num v c.a.toNat w ≤ B v) | 4 => decide (num v c.a.toNat w > B v) | _ => decide (num v c.a.toNat w ≥ B v)) then 1 else 0)) ∧
      (c.b = 0#10 → caneBad c 0 false false false false (c.d.toNat, w) [(c.a.toNat, w)] = false →
        CaneResult s (.caneVMov c) [(c.a.toNat, w)] c.d.toNat w (fun v => bits v c.a.toNat)) ∧
      (c.a = 0#10 → caneBad c 2 false false false false (c.d.toNat, w) [] = false →
        CaneResult s (.caneVLi c) [] c.d.toNat w (fun _ => imm))) ∧
  (
    (∀ (s : State) (c : CaneCmd) (sh : Share),
      (stackBad c true true = false → (∀ p ∈ sh.active, p.2.length < 4) → caneErrors s sh.canes [(c.a.toNat, 1)] (0, 0) = [] → CaneMasks s (.cPush c) sh (fun v on st =>
        (on && (v.testBit c.a.toNat != c.cc.getLsbD 0), on :: st))) ∧
      (stackBad c false false = false → (∀ p ∈ sh.active, p.2 ≠ []) → CaneMasks s (.cElse c) sh (fun _ on st => (st.headD false && !on, st))) ∧
      (stackBad c false false = false → (∀ p ∈ sh.active, p.2 ≠ []) → CaneMasks s (.cPop c) sh (fun _ _ st => (st.headD false, st.drop 1)))) ∧
    (∀ (s : State) (c : CaneCmd) (id : Nat) (fl : Flight) (sh : Share), s.focus = .tower id → getF s id = some fl → fl.op = .share sh →
      (stackBad c true true = false → caneErrors s sh.canes [(c.a.toNat, 1)] (0, 0) = [] → (∃ p ∈ sh.active, 4 ≤ p.2.length) →
        exec (.cPush c) s = .next (stopShare s fl sh { cls := 0x15, code := 7, addr := sh.addr })) ∧
      (∀ i ∈ [Instr.cElse c, .cPop c], stackBad c false false = false → (∃ p ∈ sh.active, p.2 = []) →
        exec i s = .next (stopShare s fl sh { cls := 0x15, code := 7, addr := sh.addr })) ∧
      (∀ s1 sh1, c.i = false → caneBad c 1 false false false (c.s || decide (c.wm1 ≠ 31#6)) (c.d.toNat, 32) [(c.a.toNat, 32), (c.b.toNat, 32)] = false →
        caneErrors s (bfaCanes sh) [(c.a.toNat, 32), (c.b.toNat, 32)] (c.d.toNat, 32) = [] → bfaWrite c s sh [] = .ok s1 sh1 →
        exec (.cBfa c) s = .next (putF (caneMend s1 (bfaCanes sh) (c.d.toNat, 32)) { fl with op := .share { sh1 with idx := sh.idx + 1 } })) ∧
      (∀ pas s1 mem s2 sh2, c.i = true →
        caneBad c 1 false false false (c.s || decide (c.wm1 ≠ 31#6) || decide (4 ≤ c.b.toNat)) (c.d.toNat, 32) [(c.a.toNat, 32)] = false →
        caneErrors s (bfaCanes sh) [(c.a.toNat, 32)] (c.d.toNat, 32) = [] → sh.gaddr.getD c.b.toNat 0 < 2 ^ 57 →
        bfaPages s fl sh (sh.gaddr.getD c.b.toNat 0) = .ok pas → towerRead s fl 0 pas = some (.inr (s1, mem)) → bfaWrite c s1 sh mem = .ok s2 sh2 →
        exec (.cBfa c) s = .next (putF (caneMend s2 (bfaCanes sh) (c.d.toNat, 32)) { fl with op := .share { sh2 with idx := sh.idx + 1 } })) ∧
      (∀ (w : Nat) (d : Nat × Nat) (ab aw mul : List (Nat × Nat)), w = c.wm1.toNat + 1 → d = (c.d.toNat, w) → ab = caneSrcs c →
        aw = [(c.a.toNat, w)] → mul = [(c.a.toNat, c.wam1.toNat + 1), (c.b.toNat, c.wbm1.toNat + 1)] →
        ∀ p ∈ [(Instr.caneVAdd c, caneBad c 1 true false false false d ab), (.caneVSub c, caneBad c 1 true false false false d ab),
          (.caneVMin c, caneBad c 1 false false false false d ab), (.caneVMax c, caneBad c 1 false false false false d ab),
          (.caneVAnd c, caneBad c 1 false false false false d ab), (.caneVOr c, caneBad c 1 false false false false d ab),
          (.caneVXor c, caneBad c 1 false false false false d ab), (.caneVAndn c, caneBad c 1 false false false false d ab),
          (.caneVMul c, caneBad c 0 true true false false d mul), (.caneVMad c, caneBad c 0 true true false false d mul),
          (.caneVShl c, caneBad c 2 false false false (decide (64 ≤ c.b.toNat)) d aw), (.caneVShr c, caneBad c 2 false false false (decide (64 ≤ c.b.toNat)) d aw),
          (.caneVSar c, caneBad c 2 false false false (decide (64 ≤ c.b.toNat)) d aw),
          (.caneVCmp c, caneBad c 1 false false true (decide (5 < c.cc.toNat)) (c.d.toNat, 1) ab),
          (.caneVMov c, caneBad c 0 false false false (decide (c.b ≠ 0#10)) d aw), (.caneVLi c, caneBad c 2 false false false (decide (c.a ≠ 0#10)) d []),
          (.cPush c, stackBad c true true), (.cElse c, stackBad c false false), (.cPop c, stackBad c false false),
          (.cBfa c, caneBad c 1 false false false (c.s || decide (c.wm1 ≠ 31#6) || (c.i && decide (4 ≤ c.b.toNat))) (c.d.toNat, 32)
            ((c.a.toNat, 32) :: (if c.i then [] else [(c.b.toNat, 32)])))],
        p.2 = true → exec p.1 s = .next (stopShare s fl sh { cls := 0x15, code := 6, addr := sh.addr })) ∧
      runNoCommand s = .next (stopShare s fl sh { cls := 0x15, code := 6, addr := sh.addr })) ∧
    (∀ (c : CaneCmd) (im : Nat) (satOk mul cc extra : Bool) (d : Nat × Nat) (srcs : List (Nat × Nat)), caneBad c im satOk mul cc extra d srcs = true ↔
      c.rsv ≠ 0#2 ∨ (im = 0 ∧ c.i = true) ∨ (im = 2 ∧ c.i = false) ∨ (c.sat = true ∧ satOk = false) ∨ (mul = false ∧ (c.wam1 ≠ 0#6 ∨ c.wbm1 ≠ 0#6)) ∨
      (cc = false ∧ c.cc ≠ 0#3) ∨ extra = true ∨ (∃ r ∈ d :: srcs, 1024 < r.1 + r.2) ∨
      (∃ r ∈ srcs, (r.1 < d.1 + d.2 ∧ d.1 < r.1 + r.2) ∧ (mul = true ∨ r ≠ d))) ∧
    (∀ (c : CaneCmd) (ccOk aOk : Bool), stackBad c ccOk aOk = true ↔
      c.rsv ≠ 0#2 ∨ c.i = true ∨ c.sat = true ∨ c.wam1 ≠ 0#6 ∨ c.wbm1 ≠ 0#6 ∨ c.s = true ∨ c.wm1 ≠ 0#6 ∨ c.d ≠ 0#10 ∨ c.b ≠ 0#10 ∨
      (aOk = false ∧ c.a ≠ 0#10) ∨ (if ccOk then 2 ≤ c.cc.toNat else c.cc ≠ 0#3)) ∧
    (∀ (a b : Bfp), a.m.length = 32 → b.m.length = 32 → a.e < 256 → b.e < 256 → BlockSum a b (bfpAdd a b).1 (bfpAdd a b).2) ∧
    (∀ (s : State) (c : CaneCmd) (sh : Share) (mem : List Byte) (other : Nat → List Nat → Bfp), sh.canes.Nodup →
      caneBad c 1 false false false (c.s || decide (c.wm1 ≠ 31#6) || (c.i && decide (4 ≤ c.b.toNat))) (c.d.toNat, 32)
        ((c.a.toNat, 32) :: (if c.i then [] else [(c.b.toNat, 32)])) = false →
      other = (fun k canes => if c.i then bfpOfBytes ((mem.drop (128 * k)).take 128) else getBlock s canes c.b.toNat) →
      ∃ s1 st, bfaWrite c s sh mem = .ok s1 { sh with status := st } ∧
        (∀ k p canes, (bfaBlocks sh)[k]? = some p → canes = (List.range 32).map (fun j => p.1 + j) →
          getBlock s1 canes c.d.toNat = (bfpAdd (getBlock s canes c.a.toNat) (other k canes)).1 ∧
          ∀ x ∈ canes, rowGet s1 x (c.d.toNat + 24) 8 = (getBlock s1 canes c.d.toNat).e) ∧
        (∀ x, x ∉ bfaCanes sh → fget 0#1024 x s1.canes = fget 0#1024 x s.canes) ∧
        st.getLsbD 0 = sh.status.getLsbD 0 ∧
        st.getLsbD 1 = (sh.status.getLsbD 1 || ((List.range (bfaBlocks sh).length).zip (bfaBlocks sh)).any (fun p =>
          (bfpAdd (getBlock s ((List.range 32).map (fun j => p.2.1 + j)) c.a.toNat) (other p.1 ((List.range 32).map (fun j => p.2.1 + j)))).2))))

/-! The device's own steps. -/

/-- From R63 to R69, R72, R57, R59, R67: the dispatcher. A valid record at the head of a queue is checked, an invalid one leaves its queue; a checked
one whose counters have come starts its grid; the next cluster of a grid is placed where its whole team rectangle fits; a task group's counters
are added once its completion time is past; a complete grid adds one to its done counter.
Log entries 49 and 51. -/
def Obligations.DispatcherEvents : Prop :=
  (∀ (s : State) (q va : Nat) (b : List Byte) (c : Context), getC s c.ctx = some c → queueHead s c.ctx q = some (va, b) → c.run = .running →
    q < 16 → fget 0 q c.checked = 0 →
    (∀ s1, dispWalk s c.ctx (usedDeps b ++ [(lrecOf b).done]) = some s1 → exec (.launchRecordCheck c.ctx q) s = .next s1) ∧
    (dispWalk s c.ctx (usedDeps b ++ [(lrecOf b).done]) = none → recordBad s c.ctx b = none →
      exec (.launchRecordCheck c.ctx q) s = .next (putC s { c with checked := fput 0 q 1 c.checked })) ∧
    (∀ code i, dispWalk s c.ctx (usedDeps b ++ [(lrecOf b).done]) = none → recordBad s c.ctx b = some (code, i) → exec (.launchRecordCheck c.ctx q) s = .next (serviceRecord (popQueue s c.ctx q) c.ctx
      { cls := 0x1C, code := code, addr := va, index := i, eng := 6 } q))) ∧
  (∀ (s : State) (ctx : Nat) (l : List Nat), ((∃ a ∈ l, ∃ p ∈ rangeTrail s ctx a 8, homeReady s p = false) → dispWalk s ctx l = some s) ∧
    ((∀ a ∈ l, ∀ p ∈ rangeTrail s ctx a 8, homeReady s p = true) → ((∀ a ∈ l, trailBad s ctx a 8 = none) → dispWalk s ctx l = none) ∧
      ∀ r a t p code, l = r ++ a :: t → (∀ x ∈ r, trailBad s ctx x 8 = none) → trailBad s ctx a 8 = some (p, code) →
        dispWalk s ctx l = some (stopCtx (serviceRecord s ctx { cls := 0x19, code := code, addr := p, eng := 6 } 0) ctx 0x19))) ∧
  (∀ (s : State) (q va : Nat) (b : List Byte) (c : Context), getC s c.ctx = some c → queueHead s c.ctx q = some (va, b) → c.run = .running →
    fget 0 q c.checked ≠ 0 → dispWalk s c.ctx (usedDeps b) = none → (∀ k < 4, (depOf b k).1 ≠ 0 → ∃ p, counterPa s c.ctx (depOf b k).1 1 = some p ∧ homeReady s p = true ∧
      badAt s ((List.range 8).map (fun i => p + i)) = none ∧ (depOf b k).2 ≤ ofBytes (rdBytes s p 8)) → (lrecOf b).coll = 0 →
    ∃ t g, exec (.gridStart c.ctx q) s = .next t ∧ t.grids = s.grids ++ [g] ∧ g.grid = freeGrid s c ∧
      (s.grids.length < 2 ^ 32 → getGrid s c.ctx g.grid = none) ∧ g.ctx = c.ctx ∧ g.queue = q ∧
      g.order = s.gridSeq ∧ g.lrec = b ∧ g.coll = none ∧ g.prio = fld c.qprio (3 * q) 3 ∧ t.gridSeq = s.gridSeq + 1 ∧
      ∃ c', getC t c.ctx = some c' ∧ c'.nextGrid = (g.grid + 1) % 2 ^ 32 ∧ fget [] q c'.queues = (fget [] q c.queues).drop 1) ∧
  (∀ (s : State) (g : Grid) (die : Nat) (cores : List (Nat × List Nat)), (dispatchList s).head? = some g →
    findRect s (lrecOf g.lrec) = some (die, cores) → (packageDrain s = true ∨ ∀ c ∈ cores, taskFirst s c.1 = false) →
    exec (.clusterPlacement 0) s = .next { placeCluster s g die cores with dispPassed := [] }) ∧
  (∀ (s : State) (pick : Nat) (hd g : Grid) (die : Nat) (cores : List (Nat × List Nat)), (dispatchList s).head? = some hd → pick ≠ 0 →
    (dispatchList s)[pick]? = some g → packageDrain s = false → findRect s (lrecOf hd.lrec) = none → findRect s (lrecOf g.lrec) = some (die, cores) →
    (∀ c ∈ cores, taskFirst s c.1 = false) → exec (.clusterPlacement pick) s = .next
      { placeCluster s g die cores with dispPassed := fput 0 g.order 0 (fput 0 hd.order (fget 0 hd.order s.dispPassed + 1) s.dispPassed) }) ∧
  (∀ (s : State) (g : Grid) (r : LRec) (cl tidx core : Nat) (parts : List Nat), ∃ t gs,
    (placeTeam g r cl s (tidx, core, parts)).teams = s.teams ++ [t] ∧ (placeTeam g r cl s (tidx, core, parts)).groups = s.groups ++ gs ∧
    t.core = core ∧ t.tidx = tidx ∧ t.cluster = cl ∧ t.groups = r.groups ∧ fget (0, 0, 0) 0 t.bars = (r.groups, 0, 0) ∧ t.mem = [] ∧
    gs.length = parts.length ∧ ∀ k h, gs[k]? = some h → h.num = k ∧ some h.part = parts[k]? ∧ h.core = core ∧ h.slotA.clause = r.entry ∧
      h.slotA.mask = BitVec.ofNat 64 (2 ^ r.width - 1) ∧ h.slotB.st = .free ∧ h.v = [] ∧ h.m = [] ∧ rs h 1 = BitVec.ofNat 64 r.arg ∧ h.prio = g.prio ∧ h.curPrio = g.prio) ∧
  (∀ (s : State) (id grid n due : Nat) (f : Flight), getF s id = some f → f.op = .taskAdd grid n [] due → due < s.time →
    (getGrid s f.ctx grid = none → exec (.taskCounterAdd id) s = .next (dropF s id)) ∧
    (∀ g, getGrid s f.ctx grid = some g →
      exec (.taskCounterAdd id) s = .next (putGrid (dropF s id) { g with tasks := g.tasks - n, wct := max g.wct 0 }))) ∧
  (∀ (s : State) (id grid n due a p : Nat) (f : Flight) (g : Grid), getF s id = some f → f.op = .taskAdd grid n [(a, n)] due → due < s.time →
    addReady s f.ctx a = true → trailBad s f.ctx a 8 = none → counterPa s f.ctx a 3 = some p →
    badAt s ((List.range 8).map (fun i => p + i)) = none → getGrid s f.ctx grid = some g →
    ∃ t, exec (.taskCounterAdd id) s = .next t ∧
      (∀ k, k < 8 → rdByte t (p + k) = BitVec.ofNat 8 ((ofBytes (rdBytes s p 8) + n) / 2 ^ (8 * k))) ∧
      (∀ b, (b < p ∨ p + 8 ≤ b) → rdByte t b = rdByte s b) ∧ ∃ g', getGrid t f.ctx grid = some g' ∧ g'.tasks = g.tasks - n ∧ s.time ≤ g'.wct) ∧
  (∀ (s : State) (g : Grid), getGrid s g.ctx g.grid = some g → gridComplete g = true → g.wct < s.time →
    ((lrecOf g.lrec).done = 0 → exec (.gridDoneAdd g.ctx g.grid) s = .next (sweep (putGrid s { g with done := true }))) ∧
    ((lrecOf g.lrec).done ≠ 0 → addReady s g.ctx (lrecOf g.lrec).done = true → trailBad s g.ctx (lrecOf g.lrec).done 8 = none →
      (∀ p, counterPa s g.ctx (lrecOf g.lrec).done 3 = some p →
        exec (.gridDoneAdd g.ctx g.grid) s = .next (sweep (counterAtomic (putGrid s { g with done := true }) g.ctx p 1).1)) ∧
      (counterPa s g.ctx (lrecOf g.lrec).done 3 = none → exec (.gridDoneAdd g.ctx g.grid) s =
        .next (sweep (serviceRecord (putGrid s { g with done := true }) g.ctx { cls := 0x1C, code := 9, addr := (lrecOf g.lrec).done, eng := 6 } g.grid)))))

/-- From R55 to R57, R70, R49 to R51, R252: task groups are formed of waiting tasks and placed, an idle core takes half of the fullest pool of its die;
a group retires when both its slots are free and its results are back; the two groups of a pair that waits at one regroup become one, and the
donor's tasks are the receiver's. -/
def Obligations.TaskAndGroupEvents : Prop :=
  (∀ (s : State) (ctx grid core : Nat) (g : Grid) (l : List Task), getGrid s ctx grid = some g → l = gatherUnit s g core → l ≠ [] →
    ctxRuns s ctx = true →
    (((lrecOf g.lrec).width ≤ l.length ∨ (∃ t, taskTeam s ctx grid core = some t ∧ ∀ h ∈ s.groups, h.team ≠ t.tid) ∨ taskTeam s ctx grid core = none) →
      exec (.taskGroupFormation ctx grid core) s = .next (formGroup s g core l)) ∧
    (∀ t r, l = t :: r → t.since + (2 * (lrecOf g.lrec).gather + 2) / 3 ≤ s.time →
      exec (.gatherWindowExpiry ctx grid core) s = .next (formGroup s g core l))) ∧
  (∀ (s : State) (core part : Nat) (f : Formed) (g : Grid), (coreOrder s core).head? = some f → packageDrain s = false →
    fitTask s f = some part → getGrid s f.ctx f.grid = some g → exec (.taskGroupPlacement core 0) s = .next
      { placeTasks s f g part with formed := (placeTasks s f g part).formed.map (fun x => if x.core == core then { x with passes := 0 } else x) }) ∧
  (∀ (s : State) (ctx core : Nat), coreUp s core = true → ctxRuns s ctx = true → (∀ t ∈ s.pool, ¬ (t.ctx = ctx ∧ t.core = core)) →
    (∀ g ∈ s.groups, ¬ (g.ctx = ctx ∧ g.core = core)) → (∃ t ∈ s.pool, t.ctx = ctx ∧ t.core / 24 = core / 24) →
    ∃ t v n, exec (.taskSteal ctx core) s = .next t ∧ v / 24 = core / 24 ∧ v ≠ core ∧
      n = (s.pool.filter (fun k => k.ctx == ctx && k.core == v)).length ∧ 0 < n ∧
      (∀ k, k / 24 = core / 24 → (s.pool.filter (fun u => u.ctx == ctx && u.core == k)).length ≤ n) ∧ t.pool.length = s.pool.length ∧
      ∀ k < s.pool.length, ∀ u, s.pool[k]? = some u → t.pool[k]? = some u ∨ (u.ctx = ctx ∧ u.core = v ∧ t.pool[k]? = some { u with core := core })) ∧
  (∀ (s : State) (gid : Nat) (g : Group), getG s gid = some g → g.slotA.st = .free → g.slotB.st = .free → allQuiet s g = true → ctxRuns s g.ctx = true →
    exec (.groupRetire gid) s = .next (sweep (regroupRelease (retireGroup s g) g.team))) ∧
  (∀ (s : State) (g h : Group) (w : VWord) (key : W64), getG s g.gid = some g → getG s h.gid = some h → regroupPair g = some (key, h.gid) →
    g.num < h.num → ctxRuns s g.ctx = true → regroupWord g = some w →
    ((getPart s h.core h.part).pontil ≠ some h.gid → exec (.regroupPair g.gid h.gid) s = .next
      (regroupRelease (regroupGo (retireGroup (putG s (mergeGroups g h w)) { h with counters := [] }) g.gid 1#64) g.team)) ∧
    ((getPart s h.core h.part).pontil = some h.gid → exec (.regroupPair g.gid h.gid) s = .next
      (regroupSeek (putG (raiseAt s h.gid false { cls := 0x0A, code := 4, index := g.num }) (mated g key none)) g.gid key))) ∧
  (∀ (g h : Group) (w : VWord), (mergeGroups g h w).flags = g.flags ||| h.flags ∧ (mergeGroups g h w).s = g.s ∧
    (mergeGroups g h w).slotA.mask = BitVec.ofNat 64 (2 ^ ((lanesOf g.slotA.mask).length + (lanesOf h.slotA.mask).length) - 1) ∧
    (mergeGroups g h w).wct = max g.wct h.wct ∧ (mergeGroups g h w).latch = none ∧ (mergeGroups g h w).counters = g.counters ++ h.counters)

/-- From R74 to R76, R82, R84, R119, R124, R249, R254, R458: an issue slot that is free starts the first ready candidate in the order of R76, one that does not yield
before one that does; a slot's next clause is filled into the instruction cache once the walks of its lines are over, a fetch that fails is taken
at the header, and data in error is a machine check there; a slot leaves the
floor of a spinning loop after 16,384 clocks, and a nap ends at its time or at a signal of the service.
The order of candidates equal in every key is the model's choice (log entry 99). -/
def Obligations.PickAndFetchEvents : Prop :=
  (∀ (s : State) (core part : Nat), (getPart s core part).cur = [] →
    (∀ g b r, (candidates s core part).filter (fun c => !yielding c) = (g, b) :: r →
      exec (.candidatePick core part) s = .next (pickSlot s g b ((candidates s core part).filter (fun c => !(c.1.gid == g.gid && c.2 == b))))) ∧
    (∀ g b r, (∀ c ∈ candidates s core part, yielding c = true) → candidates s core part = (g, b) :: r →
      exec (.candidatePick core part) s = .next (pickSlot s g b ((candidates s core part).filter (fun c => !(c.1.gid == g.gid && c.2 == b))))) ∧
    (∀ c ∈ candidates s core part, slotReady s c.1 c.2 = true ∧ c.1 ∈ s.groups ∧ c.1.core = core ∧ c.1.part = part)) ∧
  (∀ (s : State) (g : Group) (sl : Slot), sl.floor = none → (startClause s g sl).words = clauseWords s g sl.clause ∧
    (startClause s g sl).started = true ∧ (startClause s g sl).idx = sl.idx ∧ (startClause s g sl).skip = 0 ∧ (startClause s g sl).last = s.time ∧
    (startClause s g sl).mask = sl.mask ∧ (startClause s g sl).starts = (sl.clause :: sl.starts).take 4) ∧
  (∀ (s : State) (g : Group) (b : Bool), getG s g.gid = some g → (slotOf g b).st = .running → (slotOf g b).started = false →
    ctxRuns s g.ctx = true →
    (∀ p, clauseStop s g b (slotOf g b).clause = some (.walk p) →
      exec (.icacheFill g.gid b) s = .next (joinWalk s (dieOfCore g.core) g.ctx p g.core (g.gid, b))) ∧
    (∀ f, clauseStop s g b (slotOf g b).clause = some (.fault f) → (slotOf g b).park = none →
      exec (.icacheFill g.gid b) s = .next (takeException s (walkDone g b) b true f (slotOf g b).clause (slotOf g b).idx)) ∧
    (∀ p c, clauseStop s g b (slotOf g b).clause = some (.check p c) → (slotOf g b).park = none →
      exec (.icacheFill g.gid b) s = .next (slotCheck s g b true c p)) ∧
    (clauseStop s g b (slotOf g b).clause = none → ∃ t, exec (.icacheFill g.gid b) s = .next t ∧ t.groups = s.groups ∧ t.mem = s.mem ∧
      ∀ a pa m, a = (slotOf g b).clause / 128 * 128 → codeAt s g a = some (pa, m) → isCxl (pa / 128 * 128) = false →
        homeReady s (pa / 128 * 128) = true → (s.icache.filter (fun x => x.core == g.core)).length < 1000 →
        ∃ x ∈ t.icache, x.core = g.core ∧ x.line = pa / 128)) ∧
  (∀ (s : State) (g : Group) (b : Bool) (a : Nat), 2 ^ 57 ≤ a → clauseStop s g b a = some (.fault { cls := 7, code := 1, addr := a, index := 4 })) ∧
  (∀ (s : State) (g : Group) (b : Bool) (t : Nat) (lines : List Nat), getG s g.gid = some g → (slotOf g b).floor = some (t, lines) →
    (lines = [] ∨ 4 < lines.length) → t + 10923 ≤ s.time →
    exec (.spinFloorTimeout g.gid b) s = .next (putG s (setSlot g b { slotOf g b with floor := none, spin := {} }))) ∧
  (∀ (s : State) (g : Group) (b : Bool) (d : Nat) (l : Option Nat), getG s g.gid = some g → (slotOf g b).park = some (.nap (some d) l 0) →
    d ≤ s.time → exec (.napTimeout g.gid b) s = .next (putG s (setSlot g b { slotOf g b with park := some (.nap (some d) l 1) }))) ∧
  (∀ (s : State) (g : Group), getG s g.gid = some g → ∃ t g', exec (.serviceEventSignal g.gid) s = .next t ∧ getG t g.gid = some g' ∧
    (∀ b d l, (slotOf g b).park = some (.nap d l 0) →
      (slotOf g' b).park = some (.nap d l (match d with | some t => if t ≤ s.time then 1 else 3 | none => 3))) ∧
    (∀ b, (∀ d l, (slotOf g b).park ≠ some (.nap d l 0)) → slotOf g' b = slotOf g b))

/-- From R104, R106, R123, R124, R474, R131, R135, R140, R438, R476, R479, R484: recalls, beats, acknowledgements and walks. A recall that reaches a core drops its copies of
the line; a die sends a beat every 40 ns, a core that sees a gap or hears none for 100 ns drops the die's lines and serves none; the tower's
acknowledgement lowers the line's pending count; a completed walk fills both levels of the TLB, or fails the words that wait, or
is a machine check where a table entry is in error; a remote store is performed at
its port, fails at a line a fault left absent with the address of its lane's access, and is dropped and reported where the team has retired; an invalidation ends when every access of its contexts has been performed. -/
def Obligations.CoherenceEvents : Prop :=
  (∀ (s : State) (id core line cap : Nat) (f : Flight), getF s id = some f → f.op = .recall core line cap → ∃ t,
    exec (.l1RecallReceive id) s = .next t ∧ (∀ k ∈ t.l1, ¬ (k.core = core ∧ k.line / 8 = line)) ∧
    (∀ k ∈ s.l1, ¬ (k.core = core ∧ k.line / 8 = line) → k ∈ t.l1) ∧ t.mem = s.mem ∧ t.groups = s.groups) ∧
  (∀ (s : State) (die : Nat), die < 4 → fget 0 die s.beatSent + 40 ≤ s.time → ∃ t, exec (.recallBeat die) s = .next t ∧
    fget 0 die t.beatSent = s.time ∧ t.mem = s.mem ∧ t.l1 = s.l1) ∧
  (∀ (s : State) (core die : Nat), core < 104 → die < 4 → fget 0 die s.beatSent ≠ 0 → s.time ≤ fget 0 die s.beatSent + 30 →
    ∃ t, exec (.beatReceive core die) s = .next t ∧ fget 0 (core * 4 + die) t.beatTime = s.time ∧
      ((∀ p ∈ s.beatSeq, keyDie p.1 = die → keyCore p.1 = core → p.2 ≤ fget 0 p.1 s.recallSeen) →
        fget 0 (core * 4 + die) t.blind = 0 ∧ t.l1 = s.l1) ∧
      ((∃ p ∈ s.beatSeq, keyDie p.1 = die ∧ keyCore p.1 = core ∧ fget 0 p.1 s.recallSeen < p.2) →
        fget 0 (core * 4 + die) t.blind = 1 ∧ ∀ k ∈ t.l1, ¬ (k.core = core ∧ dieOf (k.line * 128) = die))) ∧
  (∀ (s : State) (core die : Nat), core < 104 → die < 4 → fget 0 (core * 4 + die) s.beatTime + 100 ≤ s.time → fget 0 (core * 4 + die) s.blind = 0 →
    ∃ t, exec (.beatTimeout core die) s = .next t ∧ fget 0 (core * 4 + die) t.blind = 1 ∧
      ∀ k ∈ t.l1, ¬ (k.core = core ∧ dieOf (k.line * 128) = die)) ∧
  (∀ (s : State) (id line : Nat) (f : Flight), getF s id = some f →
    (f.op = .towerWrite line → exec (.towerWriteAck id) s = .next (setHome (dropF s id) line { home s line with pend := (home s line).pend - 1 })) ∧
    (f.op = .writeBack line → exec (.towerWriteAck id) s = .next (dropF s id)) ∧
    (f.op = .cxlWrite line → exec (.cxlWriteAck id) s = .next (dropF s id))) ∧
  (∀ (s s1 : State) (id unit ctx page : Nat) (who : List (Nat × Bool)) (f : Flight) (pas : List Nat), getF s id = some f →
    f.op = .walk unit ctx page who → walkTurn s unit id = true → (∀ a ∈ walkTrail s ctx (page * 65536), homeReady s a = true) →
    pas = (walkTrail s ctx (page * 65536)).flatMap (fun a => (List.range 8).map (fun i => a + i)) →
    s1 = engineRead (dropF s id) ctx 0 (walkTrail s ctx (page * 65536)) →
    (badAt s pas = none → ∀ g b h, who = [(g, b)] → getG s g = some h →
      (∀ va pa size r m, walk s ctx (page * 65536) = .page va pa size r m → exec (.pageWalkComplete id) s = .next
        (tlbAdd (tlbAdd s1 { unit := h.core, ctx := ctx, va := va, size := size, pa := pa, rights := r, rmost := m })
          { unit := h.core, ctx := ctx, va := va, size := size, pa := pa, rights := r, rmost := m, part := some h.part })) ∧
      (∀ c i, walk s ctx (page * 65536) = .bad c i → exec (.pageWalkComplete id) s = .next
        (putG s1 { h with walkFail := h.walkFail ++ [(b, page, c, i)] }))) ∧
    (∀ a c, badAt s pas = some (a, c) → exec (.pageWalkComplete id) s = .next (who.foldl (walkCheck ctx c a) (dropF s id)))) ∧
  (∀ (s : State) (id team z : Nat) (bytes : List (Nat × Byte)) (f : Flight) (t : Team), getF s id = some f → f.op = .remoteStore team z bytes →
    remoteTurn s f team = true → getT s team = some t →
    (t.retired = false → (∀ p ∈ bytes, absentLine t p.1 1 = none) → exec (.remoteStoreAck id) s = .next
      (settleArrivals (dropF (wakeLocal (putT s { lwr t bytes with inbound := t.inbound - 1 }) team f.gid (bytes.map Prod.fst)) id) f.gid)) ∧
    (∀ q, t.retired = false → bytes.find? (fun p => isAbsent t (p.1 / 128)) = some q → inRange t (q.1 / 128) = true → exec (.remoteStoreAck id) s = .next
      (addDue (settleArrivals (dropF (putT s { t with inbound := t.inbound - 1 }) id) f.gid) f
        { cls := .stcomp, info := { cls := 0x10, code := 4, addr := accessStart bytes z q.1, eng := 1 } } 5)) ∧
    (t.retired = true → exec (.remoteStoreAck id) s = .next (sweep (settleArrivals (dropF (putT (serviceRecord s t.ctx
      { cls := 0x1D, code := 1, eng := 1, unit := t.tidx } 0) { t with inbound := t.inbound - 1 }) id) f.gid)))) ∧
  (∀ (bytes : List (Nat × Byte)) (z k j : Nat) (p q : Nat × Byte), j < z → (bytes.map Prod.fst).Nodup → bytes[z * k]? = some p →
    bytes[z * k + j]? = some q → accessStart bytes z q.1 = p.1) ∧
  (∀ s : State, s.atBusy = true → invalidationReady s = true →
    exec .accessTableInvalidationDone s = .next { s with atBusy := false, atRemoved := [] }) ∧
  (∀ (s : State) (t : Nat), least ((recordedTimes s).filter (fun t => decide (s.time ≤ t))) = some t →
    ∃ u, exec .completionTimePassed s = .next u ∧ u.time = t + 1 ∧ u.mem = s.mem ∧ u.groups = s.groups)

/-- From R116, R117, R200, R341, R344, R346: far atomics, from the home to the tower, its answer and its add, which a sector held at the home supersedes; and matrix passes: a window closes four
clocks after it opened, a closed one reads B, and a pass that has read B writes its rows in its turn; a tile transfer moves its rows at the port. -/
def Obligations.FarAndMatrixEvents : Prop :=
  (∀ (s : State) (id : Nat) (c : Option FInfo) (f : Flight) (l : Lane) (bfp an ap : Bool) (v : List Byte) (line : Nat), getF s id = some f →
    line = l.pas.headD 0 / 1024 →
    (f.op = .far l bfp v 0 c an ap → engineTurn s f = true → (∀ o ∈ s.pend, ∀ m b w k a p, o.gid = f.gid → o.id < f.id →
        o.op = .far m b w 0 k a p → farMeet l m = false) → ∃ s1, s1 = (match l2Find s line with | some e => l2Evict s e | none => s) ∧
      exec (.farAtomicAtHome id) s = .next (putF (setHome s1 line { home s1 line with pend := (home s1 line).pend + 1 })
        { f with op := .far l bfp v 1 c an ap })) ∧
    (f.op = .far l bfp v 1 c an ap → farTurn s f l = true →
      (farCheck s f l = none → exec (.farAtomicTowerCheck id) s = .next
        { dropF s id with pend := (dropF s id).pend ++ [{ f with op := .far l bfp v 2 c an ap }] }) ∧
      (∀ e, farCheck s f l = some (.inl e) → exec (.farAtomicTowerCheck id) s = .next (putF s { f with op := .far l bfp v 3 (some e) an ap })) ∧
      (∀ p, farCheck s f l = some (.inr p) → exec (.farAtomicTowerCheck id) s = .next (flightWalk s f (128 + towerOf (l.pas.headD 0)) p))) ∧
    (f.op = .far l bfp v 2 c false ap → ∀ g, getG s f.gid = some g → ∃ t g', exec (.farAtomicAnswer id) s = .next t ∧ getG t f.gid = some g' ∧
      s.time ≤ g'.farTime ∧ g.farTime ≤ g'.farTime ∧ t.mem = s.mem) ∧
    (∀ e, f.op = .far l bfp v 3 (some e) false ap → ∃ s1,
      s1 = dropF (setHome s line { home s line with pend := (home s line).pend - 1 }) id ∧
      exec (.farAtomicAnswer id) s = .next (addDue s1 f { cls := .far, info := e, key := l.lane } 3)) ∧
    (f.op = .far l bfp v 2 c an false → (∀ o ∈ s.pend.takeWhile (fun o => o.id != id), ∀ m b w k a, o.op = .far m b w 2 k a false → farMeet l m = false) →
      (l2Has s line (l.pas.headD 0 / 128 % 8) = false → badAt s l.pas = none → ∃ t, exec (.farAtomicApply id) s = .next t ∧
        (∀ p, rdByte t p = match lastAt p (l.pas.zip (farSum bfp (l.pas.map (rdByte s)) v)) with | some b => b | none => rdByte s p)) ∧
      (∀ q e, l2Has s line (l.pas.headD 0 / 128 % 8) = false → badAt s l.pas = some (q, e) → exec (.farAtomicApply id) s = .next (machineCheck
        (dropF (setHome s line { home s line with pend := (home s line).pend - 1 }) id) f e q 3 (towerOf (l.pas.headD 0)) l.lane)) ∧
      (l2Has s line (l.pas.headD 0 / 128 % 8) = true → ∃ t, exec (.farAtomicApply id) s = .next t ∧ t.mem = s.mem))) ∧
  (∀ (s : State) (id c p rows o : Nat) (f : Flight), getF s id = some f →
    (f.op = .window c p rows o false → 8 ≤ 3 * (s.time - o) →
      exec (.fusionWindowTimeout id) s = .next (putF s { f with op := .window c p rows o true })) ∧
    (f.op = .window c p rows o true → ∀ f0 q r t, windowPasses s id = (f0, q) :: r → q.mmaf = false → getT s q.team = some t →
      (mxFaulted t q.baddr (bRange s f0 q)).isSome = false → absentLine t q.baddr (bRange s f0 q) = none →
      ∃ u, exec (.matrixPassStart id) s = .next u ∧ u.groups = s.groups ∧ u.teams = s.teams ∧
        ∀ x y, (x, y) ∈ windowPasses s id → x.id ≠ id → ∃ x' ∈ u.pend, x'.id = x.id ∧ x'.op = .pass y (some (lrd t q.baddr (bRange s f0 q))))) ∧
  (∀ (s : State) (id : Nat) (f : Flight) (p : Pass) (b : List Byte) (g : Group) (t : Slot16) (pr : Pairing), getF s id = some f →
    f.op = .pass p (some b) → getG s f.gid = some g → tileTurn s f = true → gridSlot s g p.slot = some t →
    pairing t.el p.wa p.wb p.mix = some pr →
    exec (.matrixPassWriteback id) s = .next (settleTiles (dropF (putG s (passRows t p pr (ofBytes b) g)) id) f.gid)) ∧
  (∀ (s : State) (id loc tid addr : Nat) (f : Flight) (store : Bool) (lanes : List Nat) (g : Group) (t : Team), getF s id = some f →
    f.op = .tileXfer store loc lanes tid addr → getG s f.gid = some g → getT s tid = some t → tileTurn s f = true →
    (∀ l ∈ lanes, ∀ k ∈ linesOf (addr + 256 * l) 256, isAbsent t k = false) →
    (∀ bytes, store = true → bytes = lanes.flatMap (fun l => at_ (addr + 256 * l) (rowBytes g loc l)) →
      exec (.tileTransferComplete id) s = .next
        (settleTiles (dropF (wakeLocal (putT s (lwr t bytes)) tid f.gid (bytes.map Prod.fst)) id) f.gid)) ∧
    (store = false → ∃ g1, exec (.tileTransferComplete id) s = .next (settleTiles (dropF (putG s g1) id) f.gid) ∧
      (loc < 32 → ∀ l c, l < 64 → c < 64 → locGet g1 loc l c = if l ∈ lanes then BitVec.ofNat 32 (lrdN t (addr + 256 * l + 4 * c) 4) else locGet g loc l c)))

/-- From R95, R323 to R328, R480, R482, R483, R484: copies. The engine moves units in order and keeps what it delivered where a unit must wait; a
finished copy fills its lehr slot and gives its group its completion time; a copy that fails stops there, its slot faulted and its fault kept for
the word that waits; a halo writes its rows after its phase; a multicast takes the bytes of its one source to each receiver's slot, and faults a
slot that cannot take them.
From R112, R113, R361 to R363, R370, R371, R488, R489: towers. A transfer moves its share and a block ends after its last command; what its
shares leave of status counts in the group's status word once the word's last share is over; a share that meets a fault stops, and one that meets a row group in error is a machine check; a scrub that finds one stops the context that holds the pair; a
switch of a way pair zeroes its arrays with their check bits.
Where the engines pause is free (log entry 26). -/
def Obligations.CopyAndTowerEvents : Prop :=
  (
    (∀ (s : State) (id n : Nat) (f : Flight) (c : Copy) (p : Prog), getF s id = some f → f.op = .copy c → engineTurn s f = true →
      p = runCopy s f c n → (c.kind = .cin ∨ c.kind = .cout ∨ c.kind = .cg) →
      (p.wait = false → p.bad = none → p.done = c.bytes →
        (c.kind = .cin → ∀ t, getT p.s c.team = some t → exec (.copyComplete ⟨id, n⟩) s = .next
          (dropF (fillSlot (putT p.s (setLines t (linesBetween c.dst c.bytes c.at_ c.bytes))) c p.wct) id)) ∧
        (c.kind ≠ .cin → exec (.copyComplete ⟨id, n⟩) s = .next (dropF (fillSlot (feedWct p.s f.gid p.wct) c p.wct) id))) ∧
      ((p.wait = true ∨ p.bad ≠ none ∨ p.done ≠ c.bytes) → p.walk = none → exec (.copyComplete ⟨id, n⟩) s = .next
        (putF (addMarks (landLines p.s c p.done) (marksLeft c p.done))
          { f with op := .copy { c with at_ := p.done, wct := p.wct, marks := marksLeft c p.done } })) ∧
      (∀ g f1, p.walk = some g → f1 = { f with op := .copy { c with at_ := p.done, wct := p.wct, marks := marksLeft c p.done } } → p.wait = true →
        exec (.copyComplete ⟨id, n⟩) s = .next (flightWalk (putF (addMarks (landLines p.s c p.done) (marksLeft c p.done)) f1) f1 f.core g)) ∧
      (∀ q e, q = runCopy s f c 0 → q.bad = some e → e.cls ≠ 0x19 →
        (c.kind ≠ .cin → c.slot = none → exec (.copyFault id) s = .next
          (addDue (dropF (feedWct q.s f.gid q.wct) id) f { cls := .copy, info := { e with unit := 0 } } 5)) ∧
        (∀ t tid h k, c.kind = .cin → c.slot = some (tid, h, k) → getT q.s c.team = some t → exec (.copyFault id) s = .next
          (addDue (dropF (faultSlot (faultLines (putT q.s (setLines t (linesBetween c.dst c.bytes c.at_ q.done))) c.team
            (splitLines c.dst c.bytes q.done).2 q.done) c q.wct { e with unit := k }) id) f { cls := .copy, info := { e with unit := k } } 5)))) ∧
    (∀ (s : State) (c : Copy) (time tid h k : Nat) (t : Team), c.slot = some (tid, h, k) → getT s tid = some t →
      fillSlot s c time = putLehr s 0 (lehrFill t h k time) h ∧ ∀ e, faultSlot s c time e = putLehr s 0 (lehrFaultSlot t h k time e) h) ∧
    (∀ (s : State) (id n done : Nat) (f : Flight) (c : Copy) (u t t1 : Team) (units : List (Nat × Nat)), getF s id = some f → f.op = .copy c →
      c.kind = .halo → engineTurn s f = true → haloPhase s c = true → haloSource s f c = some u → getT s c.team = some t →
      units = haloNext u (haloDec c.desc) c.at_ n → haloMove t u (haloDec c.desc) c.at_ units = (t1, done) →
      (done = c.bytes → exec (.haloSourceRead ⟨id, n⟩) s = .next (dropF (wakeLocal (putT s t1) t.tid 0 (units.map (fun p => p.2))) id)) ∧
      (done ≠ c.bytes → exec (.haloSourceRead ⟨id, n⟩) s = .next
        (putF (wakeLocal (putT s t1) t.tid 0 (units.map (fun p => p.2))) { f with op := .copy { c with at_ := done } }))) ∧
    (∀ (s : State) (id m n : Nat) (f : Flight) (c : Copy) (t u : Team) (r : McRecv), getF s id = some f → f.op = .copy c → c.kind = .mc →
      engineTurn s f = true → getT s c.team = some t → c.recv.find? (fun r => r.team == m) = some r →
      s.teams.find? (fun u => u.ctx == f.ctx && u.grid == t.grid && u.cluster == t.cluster && u.tidx == m && !u.task) = some u →
      (u.retired = true → exec (.cpMcDelivery ⟨id, n⟩ m) s = .next (endMc (serviceRecord (putT s { u with inbound := u.inbound - (if r.counted then 1 else 0) }) f.ctx
        { cls := 0x1D, code := 1, eng := 1, unit := m, index := r.at_ } 0) f (mcServed c m))) ∧
      (∀ s1 c1 u1, u.retired = false → mcRead s f c n = (s1, c1, none) → getT s1 u.tid = some u1 → exec (.cpMcDelivery ⟨id, n⟩ m) s = .next
        (endMc (progressed (mcServe s1 c1 u1 r).1 f.ctx) f (mcServe s1 c1 u1 r).2))) ∧
    (∀ (s : State) (f : Flight) (c : Copy) (u : Team) (r : McRecv) (k : Nat), r.slot = some k →
      (c.data.length = c.bytes → mcSlotBad u c.dst k c.bytes = false → (mcServe s c u r).2 = mcServed c r.team) ∧
      (mcSlotBad u c.dst k c.bytes = true → mcServe s c u r = (putLehr s 0 (lehrFaultSlot { u with inbound := u.inbound - 1 } c.dst k 0
          { copyInfo 2 (slotAddr c.dst (lehrRead u c.dst) k) 0 with unit := k }) c.dst,
        mcFailed c r.team { copyInfo 2 (slotAddr c.dst (lehrRead u c.dst) k) 0 with unit := k })) ∧
      (mcSlotBad u c.dst k c.bytes = true ↔ (lehrRead u c.dst).lines * 128 < c.bytes ∨ (localBad u (slotAddr c.dst (lehrRead u c.dst) k) c.bytes).isSome = true) ∧
      (c.recv = [] → c.failed = [] → endMc s f c = dropF s f.id))) ∧
  (
    (∀ (s : State) (id : Nat) (f : Flight) (sh : Share) (rows : Nat × Nat), getF s id = some f → f.op = .share sh → shareTurn s f sh = true →
      rows = (sh.row, sh.w) →
      (sh.kind = .run → sh.begun = true → sh.block.length ≤ sh.idx →
        exec (.towerBlockComplete id) s = .next (finishShare s f sh sh.status.toNat 0)) ∧
      (∀ pas s1 data, sh.kind = .xin → sh.bc = none → towerPages s f sh.tower (shareRange sh).1 (shareRange sh).2 1 = .ok pas →
        towerRead s f sh.hint pas = some (.inr (s1, data)) → caneErrors s1 sh.canes [] rows = [] → exec (.towerBlockComplete id) s = .next
          (finishShare (caneMend (moveIn s1 sh data).1 sh.canes rows) f sh (moveIn s1 sh data).2 0)) ∧
      (∀ v, sh.kind = .xin → sh.bc = some v →
        (caneErrors s sh.canes [] rows = [] →
          exec (.towerBlockComplete id) s = .next (finishShare (caneMend (moveIn s sh []).1 sh.canes rows) f sh (moveIn s sh []).2 0)) ∧
        (∀ g r, caneErrors s sh.canes [] rows = g :: r → exec (.towerBlockComplete id) s = .next (checkShare s f sh 8 (g / 16)))) ∧
      (∀ pas, sh.kind = .xout → towerPages s f sh.tower (shareRange sh).1 (shareRange sh).2 2 = .ok pas →
        (caneErrors s sh.canes [rows] (0, 0) = [] → engineFree s f.ctx sh.hint (pas.zip (moveOut s sh)) = true →
          exec (.towerBlockComplete id) s = .next (finishShare (engineWrite s f.ctx sh.hint (pas.zip (moveOut s sh))).1 f sh 0
            (engineWrite s f.ctx sh.hint (pas.zip (moveOut s sh))).2)) ∧
        (∀ g r, caneErrors s sh.canes [rows] (0, 0) = g :: r → exec (.towerBlockComplete id) s = .next (checkShare s f sh 8 (g / 16)))) ∧
      (∀ e, sh.kind = .xout → towerPages s f sh.tower (shareRange sh).1 (shareRange sh).2 2 = .bad e →
        exec (.towerBlockComplete id) s = .next (stopShare s f sh e)) ∧
      (∀ p, sh.kind = .xout → towerPages s f sh.tower (shareRange sh).1 (shareRange sh).2 2 = .walk p →
        exec (.towerBlockComplete id) s = .next (flightWalk s f (128 + sh.tower) p))) ∧
    (∀ (s : State) (f : Flight) (sh : Share) (g : Group) (st wct : Nat) (mate : Flight → Bool), getG s f.gid = some g →
      mate = (fun o => o.id != f.id && o.gid == f.gid && (match o.op with | .share t => t.word == sh.word | _ => false)) →
      ∃ g', getG (finishShare s f sh st wct) f.gid = some g' ∧ g'.twTime = max g.twTime wct ∧ g'.wct = max g.wct wct ∧
        (finishShare s f sh st wct).mem = s.mem ∧
        ((∀ o ∈ s.pend, mate o = false) → g'.tstat = g.tstat ||| (sh.carry ||| BitVec.ofNat 2 st)) ∧
        (∀ o t, s.pend.find? mate = some o → o.op = .share t → g'.tstat = g.tstat ∧
          getF (finishShare s f sh st wct) o.id = some { o with op := .share { t with carry := t.carry ||| (sh.carry ||| BitVec.ofNat 2 st) } })) ∧
    (∀ (s : State) (tower arr row : Nat) (c : Context), pairOwner s (arr / 384) = some c → tower < 16 → row < 1024 →
      (rowBad s tower arr row = true → exec (.towerScrub tower (some (arr, row))) s = .next (stopCtx (serviceRecord s c.ctx
        { cls := 0x19, code := 8, addr := arr * 1024 + row, unit := tower, eng := 9 } 0) c.ctx 0x19)) ∧
      (rowBad s tower arr row = false → exec (.towerScrub tower (some (arr, row))) s = .next s)) ∧
    (∀ (s : State) (tower : Nat), exec (.towerScrub tower none) s = .next s) ∧
    (∀ (s : State) (tower pair : Nat) (w : Wait), s.waits = [w] → w.code = 4 → w.pairs.testBit pair = true → (tower, pair) ∉ w.done → tower < 16 →
      ∃ t, exec (.towerCaneSwitch tower pair) s = .next t ∧ (∀ p ∈ t.canes, p.1 / 1024 / 384 ≠ tower * 8 + pair) ∧
        (∀ p ∈ s.canes, p.1 / 1024 / 384 ≠ tower * 8 + pair → p ∈ t.canes) ∧ (∀ p ∈ t.badCane, p.1 / 16384 / 384 ≠ tower * 8 + pair) ∧
        (∀ c ∈ t.llc, ¬ (towerOf (c.line * 1024) = tower ∧ c.way / 2 = pair)) ∧ t.waits = [{ w with done := w.done ++ [(tower, pair)] }] ∧
        t.mem = s.mem ∧ t.groups = s.groups))

/-- From R75, R142, R145, R376, R377, R481, R497, R498: transfers between devices. A send leaves once its source has been read and some port carries
traffic, a get's request in its group's turn; received data is written at its homes, and its counter rises once the completion times have passed;
a get's data lands; an acknowledgement says how far a transfer has come, and one to a lost or silent device, or without a port, fails at the
first unit that was not delivered, naming the port it left on.
Which port a transfer takes is free, and without a port it fails at once (log entry 104); log entries 26, 62 and 64. -/
def Obligations.TransferEvents : Prop :=
  (∀ (s : State) (f : Flight) (x : Xfer), (canLeave s f x = true ↔ lostDev s f.ctx x.dev = false ∧
    (x.dev = selfDev s f.ctx ∨ ∃ p < 8, statusOf s p = 2)) ∧ (leavePort s f x = none ↔ x.dev = selfDev s f.ctx ∨ ∀ p < 8, statusOf s p ≠ 2) ∧
    ∀ p, leavePort s f x = some p → p < 8 ∧ statusOf s p = 2) ∧
  (∀ (s : State) (id : Nat) (f : Flight) (x : Xfer) (r : RangeRead), getF s id = some f → f.op = .send x → x.sent = none →
    engineTurn s f = true →
    (canLeave s f x = true → readSource s f x.loc x.addr x.bytes = r → r.stop = none → ∃ t,
      exec (.remoteSendSourceRelease id) s = .next t ∧
      t.outs = s.outs ++ [.data x.dev { job := jobOf s f.ctx, src := selfDev s f.ctx, tag := id, va := x.remote, data := r.bytes, cnt := x.cnt }] ∧
      t.mem = s.mem ∧ t.teams = s.teams ∧ t.groups = s.groups ∧
      getF t id = some { f with cls := .none, op := .send { x with sent := some s.time, port := leavePort s f x } }) ∧
    (canLeave s f x = false → exec (.remoteSendSourceRelease id) s = .next (loseXfer s f x false))) ∧
  (∀ (s : State) (id : Nat) (f : Flight) (x : Xfer), getF s id = some f → f.op = .get x → x.sent = none → engineTurn s f = true →
    (canLeave s f x = true → exec (.remoteSendSourceRelease id) s = .next
      (putF { tickFree s with outs := s.outs ++ [.getReq x.dev { job := jobOf s f.ctx, requester := selfDev s f.ctx, va := x.remote, bytes := x.bytes, tag := f.id }] }
        { f with op := .get { x with sent := some s.time, port := leavePort s f x } })) ∧
    (canLeave s f x = false → exec (.remoteSendSourceRelease id) s = .next (loseXfer s f x true))) ∧
  (∀ (s : State) (f : Flight) (x : Xfer), loseXfer s f x false = netDue (dropF s f.id) f none
      { cls := 0x1E, code := 1, addr := x.remote + x.acked, index := x.acked, unit := x.port.getD 0xFF, eng := 4 } ∧
    (x.loc = none → loseXfer s f x true = netDue (dropF s f.id) f x.cnt
      { cls := 0x1E, code := 1, addr := x.remote + x.acked, index := x.acked, unit := x.port.getD 0xFF, eng := 4 }) ∧
    (∀ tid t, x.loc = some tid → getT s tid = some t → ∀ off e, failXfer s f x true off e = netDue (faultLines (putT (dropF s f.id)
      (setLines { t with inbound := t.inbound - 1 } (linesBetween x.addr x.bytes x.acked off))) tid (splitLines x.addr x.bytes off).2 off) f x.cnt e)) ∧
  (∀ (s t : State) (m : NetMsg) (c : Context), m.err = none → m.ack = none → jobSelf s m.job ≠ some m.src → (∃ p < 8, statusOf s p = 2) →
    jobCtx s m.job = some c → m.va % 8 = 0 → m.data.length % 8 = 0 → receiveFree s c.ctx m.va m.data = true →
    trailBad s c.ctx m.va m.data.length = none →
    (∀ w, receiveUnits s c.ctx 4 m.va m.data = (t, w, none) →
      exec (.netReceive m) s = .next (launchOp t 0 c.ctx 255 .none (.received c.ctx m.cnt w))) ∧
    (∀ w off e, receiveUnits s c.ctx 4 m.va m.data = (t, w, some (off, e)) →
      exec (.netReceive m) s = .next (refuseRemote t c.ctx m.src m.tag m.va off))) ∧
  (∀ (s : State) (m : NetMsg) (n : Nat) (f : Flight) (x : Xfer), m.ack = some n → jobSelf s m.job ≠ some m.src → (∃ p < 8, statusOf s p = 2) →
    getF s m.tag = some f → jobOf s f.ctx = m.job → f.op = .send x → x.dev = m.src → x.sent ≠ none →
    (x.bytes ≤ n → exec (.netReceive m) s = .next (dropF s f.id)) ∧
    (n < x.bytes → exec (.netReceive m) s = .next (putF s { f with op := .send { x with acked := max x.acked (n / 8 * 8), sent := some s.time } }))) ∧
  (∀ (s : State) (id ctx k t : Nat) (f : Flight) (c : Context), getF s id = some f → f.op = .received ctx (some k) t → t < s.time →
    getC s ctx = some c → c.armed = [] → ∃ u, exec (.receiveCounterIncrement id) s = .next u ∧ counterOf u ctx k = counterOf s ctx k + 1#64 ∧
      (∀ j, j ≠ k → counterOf u ctx j = counterOf s ctx j) ∧ u.mem = s.mem ∧ u.groups = s.groups ∧ getF u id = none) ∧
  (∀ (s s1 : State) (m : GetReq) (c : Context) (r : RangeRead), jobSelf s m.job ≠ some m.requester → (∃ p < 8, statusOf s p = 2) →
    jobCtx s m.job = some c → (∀ p ∈ rangeTrail s c.ctx m.va m.bytes, homeReady s p = true) → trailBad s c.ctx m.va m.bytes = none →
    readRange s c.ctx 4 (fun a => .inl (xlate s 255 c.ctx a 1 false)) m.va m.bytes = r → r.stop = none → s1 = engineRead s c.ctx 0 r.pas →
    exec (.remoteGetRequest m) s = .next { s1 with outs := s1.outs ++ [.getData m.requester m.tag r.bytes none] }) ∧
  (∀ (s : State) (id n : Nat) (f : Flight) (x : Xfer) (data : List Byte), getF s id = some f → f.op = .get x → x.dev ≠ selfDev s f.ctx →
    (∃ p < 8, statusOf s p = 2) → n = x.acked + data.length → n ≤ x.bytes → data ≠ [] → data.length % 8 = 0 → x.sent ≠ none →
    (∀ tid t t1 s1, x.loc = some tid → getT s tid = some t → t.retired = false →
      t1 = setLines (lwr t (at_ (x.addr + x.acked) data)) (linesBetween x.addr x.bytes x.acked n) →
      s1 = wakeLocal (putT s t1) tid 0 (data.mapIdx (fun k _ => x.addr + x.acked + k)) →
      (n < x.bytes → exec (.netGetLand id data) s = .next (putF s1 { f with op := .get { x with acked := n, sent := some s.time } })) ∧
      (n = x.bytes → x.cnt = none → exec (.netGetLand id data) s = .next (dropF (putT s1 { t1 with inbound := t.inbound - 1 }) f.id)) ∧
      (∀ k, n = x.bytes → x.cnt = some k → exec (.netGetLand id data) s = .next
        (counterAdd (dropF (putT s1 { t1 with inbound := t.inbound - 1 }) f.id) f.ctx k))) ∧
    (∀ u w, x.loc = none → receiveFree s f.ctx (x.addr + x.acked) data = true → trailBad s f.ctx (x.addr + x.acked) data.length = none →
      receiveUnits s f.ctx 4 (x.addr + x.acked) data = (u, w, none) →
      (n < x.bytes → exec (.netGetLand id data) s = .next
        (putF u { f with op := .get { x with acked := n, wct := max x.wct w, sent := some s.time } })) ∧
      (n = x.bytes → exec (.netGetLand id data) s = .next (putF u { f with op := .received f.ctx x.cnt (max x.wct w) })))) ∧
  (∀ (s : State) (id : Nat) (f : Flight) (x : Xfer), getF s id = some f → f.op = .send x →
    (lostDev s f.ctx x.dev = true → exec (.destinationUnreachable id none) s = .next (loseXfer s f x false)) ∧
    (∀ t, x.dev ≠ selfDev s f.ctx → x.sent = some t → t + 100000000 ≤ s.time →
      exec (.destinationUnreachable id none) s = .next (loseXfer s f x false)) ∧
    (∀ t, lostDev s f.ctx x.dev = false → x.sent = some t → s.time < t + 100000000 → exec (.destinationUnreachable id none) s = .next s) ∧
    (∀ off, x.dev ≠ selfDev s f.ctx →
      exec (.destinationUnreachable id (some off)) s = .next (netDue (dropF s f.id) f none (netFault 2 x.remote off 0))))

/-- From R156, R171, R379 to R382, R427, R495, R501, R502: station operations, arrivals of broadcasts, and collectives. An open, a close or a commit
that changes its record's second line writes that line first and marks it, and its first line once the second's completion time has passed; an
arrival without a team, or with a malformed lehr header, is dropped and reported; a chunk alone lands as it fires, another's bytes leave in
segments; each segment of the combined result overwrites its part of the chunk, and an abort, whose status word keeps its layout, returns it to
not fired in a new round.
Log entries 26, 27, 80, 81, 83 and 107. -/
def Obligations.StationAndCollectiveEvents : Prop :=
  (∀ (s s0 : State) (id pa n : Nat) (f : Flight) (c : Option Nat) (k : StKind) (r : StRes × RecChange), getF s id = some f →
    f.op = .station k pa n c none → s0 = engineRead s f.ctx 0 (recSectors pa) →
    r = (match k with | .openPass rp => stOpen s pa n c rp | .closePass => stClose s pa n c | .commit v m => stCommit s pa n c v m) →
    ((recFree s pa = false ∨ acquiring s f.gid f.word = true) → exec (.stationOperation id) s = .next s) ∧
    (recFree s pa = true → acquiring s f.gid f.word = false → badAt s ((List.range 2048).map (fun k => pa + k)) = none →
      (recBytes pa 1 r.2 = [] → exec (.stationOperation id) s = .next (endStation s0 f pa false (recBytes pa 0 r.2) r.1)) ∧
      (∀ l, recBytes pa 1 r.2 = l → l ≠ [] → exec (.stationOperation id) s = .next
        (putF (addMarks (engineWrite s0 f.ctx 0 l).1 [((pa + 1024) / 1024, 0)])
          { f with op := .station k pa n c (some ((engineWrite s0 f.ctx 0 l).2, recBytes pa 0 r.2, r.1)) })))) ∧
  (∀ (s : State) (id pa n t : Nat) (f : Flight) (c : Option Nat) (k : StKind) (first : List (Nat × Byte)) (r : StRes), getF s id = some f →
    f.op = .station k pa n c (some (t, first, r)) →
    ((s.time ≤ t ∨ engineFree s f.ctx 0 first = false) → exec (.stationOperation id) s = .next s) ∧
    (t < s.time → engineFree s f.ctx 0 first = true → exec (.stationOperation id) s = .next (endStation s f pa true first r))) ∧
  (∀ (s : State) (f : Flight) (pa p : Nat) (m : Bool) (first : List (Nat × Byte)) (r : StRes),
    rdByte (endStation s f pa m first r) p = (match lastAt p first with | some b => b | none => rdByte s p)) ∧
  (∀ (s : State) (id : Nat) (f : Flight) (a : Arrival), getF s id = some f → f.op = .arrival a →
    exec (.stationOperation id) s = exec (.errorArrival id) s ∧
    (arrivalTeam s f.ctx a = none → (∀ t ∈ s.teams, ¬ (t.ctx = f.ctx ∧ t.grid = a.grid ∧ t.cluster = a.cluster ∧ t.tidx = a.tidx)) →
      exec (.errorArrival id) s = .next (dropArrival s f a 1)) ∧
    (∀ t pa m h, arrivalTeam s f.ctx a = some t → a.station % 2048 = 0 → flightXlate s f f.core a.station 3 false = .inl (.ok pa m) →
      accessCheck s f.ctx 0 pa 2048 3 = none → recFree s pa = true → badAt s ((List.range 2048).map (fun k => pa + k)) = none →
      h = fld (recQ s pa 0) 12 20 →
      (recBad s pa = false → h % 32 = 0 → localBad t h 32 = none → lehrMalformed t h = false → arrivalOutside t h a = false →
        absentLine t h 32 = none → lehrFull t h = false →
        exec (.errorArrival id) s = .next (landArrival (engineRead s f.ctx 0 (recSectors pa)) f a t pa h)) ∧
      ((localBad t h 32 ≠ none ∨ lehrMalformed t h = true) →
        exec (.errorArrival id) s = .next (dropArrival (putT s (uncount t a)) f a 2)))) ∧
  (∀ (s : State) (tid k va n : Nat) (t : Team) (c : Coll), getT s tid = some t → chunkOf s t = some (c, k, va, n) →
    (∀ o ∈ s.pend, o.op ≠ .chunkOut tid) →
    (t.retired = true → t.chunk.fired = false → t.chunk.dead = false → (c.members = 1 ∨ c.total = 0) → c.dctr = none → exec (.collChunkFireAtRetire tid) s = .next
      (putT s { t with chunk := { t.chunk with fired := true, dead := true, landed := true } })) ∧
    (∀ f r, t.retired = true → t.chunk.fired = false → t.chunk.dead = false → (∃ p < 8, statusOf s p = 2) → c.members ≠ 1 → c.total ≠ 0 → (∀ o ∈ s.pend, o.id < s.nextId) →
      getF (fireChunk s 0 t.core t true) s.nextId = some f →
      readRange (fireChunk s 0 t.core t true) t.ctx 5 (readXlate (fireChunk s 0 t.core t true) f) va n = r → r.stop = none →
      ∃ u, exec (.collChunkFireAtRetire tid) s = .next u ∧ u.outs = s.outs ++ chunkMsgs c k t.chunk.round r.bytes ∧ u.mem = s.mem ∧
        (∀ o ∈ u.pend, o.op ≠ .chunkOut tid) ∧ getT u tid = some { t with chunk := { t.chunk with fired := true, dead := true } }) ∧
    (∀ msg seg data u w, t.chunk.fired = true → t.chunk.landed = false → redBad s msg = false → fld (le msg 8 1) 4 4 = 1 → le msg 0 4 = c.tree →
      le msg 4 4 = k → le msg 12 4 = t.chunk.round → seg = le msg 16 4 → seg < segCount n → seg ∉ t.chunk.got →
      data = (msg.drop 32).take (min 4096 (n - 4096 * seg)) → receiveFree s t.ctx (va + 4096 * seg) data = true →
      (∀ q ∈ s.trees, q.tree = c.tree → q.freed = false) → trailBad s t.ctx (va + 4096 * seg) data.length = none →
      receiveUnits s t.ctx 5 (va + 4096 * seg) data = (u, w, none) →
      (t.chunk.got.length + 1 < segCount n → exec (.collResultLand tid msg) s = .next
        (putT u { t with chunk := { t.chunk with got := t.chunk.got ++ [seg], wct := max t.chunk.wct w } })) ∧
      (segCount n ≤ t.chunk.got.length + 1 → c.dctr = none → exec (.collResultLand tid msg) s = .next
        (putT u { t with chunk := { t.chunk with landed := true, got := t.chunk.got ++ [seg], wct := max t.chunk.wct w } })) ∧
      (∀ d, segCount n ≤ t.chunk.got.length + 1 → c.dctr = some d → exec (.collResultLand tid msg) s = .next
        (launchOp (putT u { t with chunk := { t.chunk with landed := true, got := t.chunk.got ++ [seg], wct := max t.chunk.wct w } })
          0 t.ctx t.core .none (.received t.ctx (some d) (max t.chunk.wct w))))) ∧
    (∀ msg e, fld (le msg 8 1) 4 4 = 3 → le msg 0 4 = c.tree → le msg 4 4 = k → le msg 12 4 = t.chunk.round → redBad s msg = false →
      t.chunk.landed = false → t.chunk.got = [] → e = { cls := 0x1E, code := 3, addr := le msg 24 8, index := k, eng := 5 } →
      (t.chunk.fired = true → chunkWaiter s t = true → exec (.collAbortReceive tid msg) s = .next
        (putT s { t with chunk := { t.chunk with fired := false, round := t.chunk.round + 1, abort := some e } })) ∧
      (t.chunk.fired = true → chunkWaiter s t = false → exec (.collAbortReceive tid msg) s = .next
        (serviceRecord (putT s { t with chunk := { t.chunk with fired := false, round := t.chunk.round + 1 } }) t.ctx e 0)) ∧
      (t.chunk.fired = false → exec (.collAbortReceive tid msg) s = .next (putT s { t with chunk := { t.chunk with round := t.chunk.round + 1 } })))) ∧
  (∀ (st k : Nat), statusBad st k = true ↔ st / 2 ^ 56 % 256 = 0 ∨ 5 < st / 2 ^ 56 % 256 ∨ st / 2 ^ 32 % 256 ≠ 0 ∨
    (3 < st / 2 ^ 56 % 256 ∧ st / 2 ^ 40 % 65536 ≠ 0) ∨ st % 2 ^ 32 ≠ k)

/-- From R12, R424, R427, R434, R457 to R461, R478, R498, R500, R503: the fabric. A port that fails reads 3, its
transfers move to another, and one that retrains reads 2; packets and
messages that are not supported are counted; a hold names each chunk of a context set aside that has not fired, also of clusters not yet placed; an error
that strikes memory is met by the next access of its bytes, and a correctable one is counted, for its core where it has one; a logical core moves to a free site, or fails alone without one; a die that
loses time fails and every client's context stops.
Log entries 48, 54, 72, 88 and 104. -/
def Obligations.FabricEvents : Prop :=
  (∀ (s : State) (ctx : Nat) (c : Context), getC s ctx = some c → setAside s ctx = true → (c.held = 0 ∨ c.held + 10000000 ≤ s.time) →
    ∃ t, exec (.holdSend ctx) s = .next t ∧ t.teams = s.teams ∧ t.mem = s.mem ∧ getC t ctx = some { c with held := s.time } ∧
      (∀ m ∈ s.teams, m.ctx = ctx → m.chunk.fired = false → m.chunk.dead = false → ∀ l k va n, chunkOf s m = some (l, k, va, n) →
        l.members ≠ 1 → l.total ≠ 0 →
        Out.red { tree := l.tree, chunk := k, kind := 2, op := l.op, rank := l.rank, round := m.chunk.round } ∈ t.outs) ∧
      (∀ g ∈ s.grids, g.ctx = ctx → ∀ l k, g.coll = some l → l.members ≠ 1 → l.total ≠ 0 → g.next * gridPer g ≤ k →
        k < (lrecOf g.lrec).clusters * gridPer g →
        Out.red { tree := l.tree, chunk := k, kind := 2, op := l.op, rank := l.rank, round := fget 0 k g.rounds } ∈ t.outs)) ∧
  (∀ (s : State) (b : List Byte), redBad s b = true →
    exec (.reductionMessageDrop b) s = .next { s with dropReductions := s.dropReductions + 1 }) ∧
  (∀ (s : State) (port : Nat), port < 8 →
    (statusOf s port = 2 → exec (.unsupportedPacketDrop port) s = .next { s with dropPackets := s.dropPackets + 1 }) ∧
    (statusOf s port = 2 → ∃ t, exec (.portLinkDrop port) s = .next t ∧ StatusChanged s t port 3 ∧
      ∀ f ∈ s.pend, ∀ x, f.op = .send x → x.port = some port → (∃ p < 8, p ≠ port ∧ statusOf s p = 2) →
        ∃ g ∈ t.pend, ∃ p, g = { f with op := .send { x with port := some p } } ∧ p < 8 ∧ p ≠ port ∧ statusOf s p = 2) ∧
    (statusOf s port = 2 → ∃ t, exec (.portRetryTimeout port) s = .next t ∧ StatusChanged s t port 3 ∧
      fget 0 11 t.corr = fget 0 11 s.corr + 1) ∧
    (statusOf s port = 3 → ∃ t, exec (.portRetrain port) s = .next t ∧ StatusChanged s t port 2)) ∧
  (∀ (s : State) (pa k : Nat), k = 5 ∨ k = 7 ∨ k = 9 ∨ k = 11 → badAt (strike s (.memory pa k)) [pa] = some (pa, k) ∧
    (strike s (.memory pa k)).mem = s.mem) ∧
  (∀ (s : State) (k : Nat) (u : Option CulletUnit), k < 12 → k ≠ 3 → k ≠ 4 → fget 0 k (strike s (.fixed k u)).corr = fget 0 k s.corr + 1) ∧
  (∀ (s : State) (core line : Nat), fget 0 3 (strike s (.l1Line core line)).corr = fget 0 3 s.corr + 1 ∧
    (∀ x ∈ (strike s (.l1Line core line)).l1, ¬ (x.core = core ∧ x.line = line)) ∧
    (core < 96 → (CulletUnit.core (core / 24) (siteOf s core), s.time) ∈ (strike s (.l1Line core line)).unitEvents)) ∧
  (∀ (s s1 : State) (die site c : Nat), die < 4 → site < 28 → culletDue s (.core die site) = true → unitBusy s (.core die site) = false →
    s1 = { swapped s (.core die site) with failedSites := s.failedSites ++ [(die, site)] } → coreAt s die site = some c →
    (∀ p, freeSite s1 die = some p → ∃ t, exec (.culletSwap (.core die site)) s = .next t ∧ t = { s1 with sites := fput 0 c (p + 1) s1.sites } ∧
      siteOf t c = p ∧ (∀ k, k ≠ c → siteOf t k = siteOf s k)) ∧
    (freeSite s1 die = none → exec (.culletSwap (.core die site)) s = .next (setStatus s1 (32 + c) 3))) ∧
  (∀ (s : State) (die : Nat), die < 4 → statusOf s (28 + die) = 2 → ∃ t, exec (.timeSyncLoss die) s = .next t ∧ StatusChanged s t (28 + die) 3 ∧
    t.outs = s.outs ++ [.fatal] ∧ ∀ ctx c, ctx ≠ 0 → getC s ctx = some c → c.run = .running → ∃ c', getC t ctx = some c' ∧ c'.run = .stopping 0x100)

/-- From R87 to R90, R453 to R455, R505: stopping and time limits. Once every slot has stopped, a stopping context drains its write-combining buffers
and, when what it waits for has completed, is set aside with its image in the save area; the watchdog ends a context that has made no progress,
with class 0x1A; an external wait that lasts too long ends in class 0x1B.
Log entries 34, 39 and 93. -/
def Obligations.StoppingAndTimeLimits : Prop :=
  (∀ (s : State) (ctx cause : Nat) (c : Context), getC s ctx = some c → c.run = .stopping cause →
    (∀ g ∈ s.groups, g.ctx = ctx → slotStopped s g false = true ∧ slotStopped s g true = true) →
    ((∀ g ∈ s.groups, g.ctx = ctx → g.wcb = [] ∧ groupSettled s g = true) → exec (.preemptSave ctx) s = .next (setAsideCtx s c cause)) ∧
    ((∃ g ∈ s.groups, g.ctx = ctx ∧ g.wcb ≠ []) → exec (.preemptSave ctx) s = .next
      ((s.groups.filter (fun g => g.ctx == ctx)).foldl (fun s g => drainWcb s g.gid) s))) ∧
  (∀ (s t : State) (c : Context) (cause n : Nat), getC s c.ctx = some c → t = setAsideCtx s c cause → n = (saveImage s c).length →
    getC t c.ctx = some { c with run := .aside cause, asideAt := s.time, held := 0 } ∧ t.teams = s.teams ∧
    (∀ g ∈ s.groups, g.ctx ≠ c.ctx → g ∈ t.groups) ∧ (∀ a, (a < c.save ∨ c.save + n ≤ a) → rdByte t a = rdByte s a) ∧
    (∀ k < n, c.save + k < hbmTop → rdByte t (c.save + k) = (saveImage s c).getD k 0#8)) ∧
  (∀ (s : State) (g : Group) (c : Context), s.groups = [g] → getC s g.ctx = some c → c.run = .running → g.ctx ≠ 0 → external s g false = none →
    external s g true = none → watchFrom s c + c.watchdog ≤ s.time → g.slotA.st ≠ .free → g.slotB.st = .free →
    ∀ l, l = (if g.slotA.started then some (standLanes g g.slotA) else none) → exec (.watchdogExpiry g.ctx) s = .next
      (leavePart (takeException s g false (!g.slotA.started) { cls := 0x1A, code := 0, lanes := l } g.slotA.clause g.slotA.idx) g false)) ∧
  (∀ (s : State) (g : Group) (b : Bool) (code : Nat) (c : Context), getG s g.gid = some g → external s g b = some code →
    getC s g.ctx = some c → c.run = .running → c.extTimeout ≠ 0 → (slotOf g b).extSince + c.extTimeout ≤ s.time →
    (code ≠ 5 → exec (.externalWaitTimeout g.gid b) s = .next (leavePart (takeException (progressed s g.ctx) g b false
      { cls := 0x1B, code := code, lanes := some (standLanes g (slotOf g b)) } (slotOf g b).clause (slotOf g b).idx) g b)) ∧
    (code = 5 → exec (.externalWaitTimeout g.gid b) s = .next (raiseHere (progressed s g.ctx) g b { cls := 0x1B, code := 5 }))) ∧
  (∀ (s : State) (g : Group) (b : Bool) (p : Park), (slotOf g b).park = some p → parkOver s g b p = true → external s g b = none)

/-- From R25, R432, R434 to R437, R439, R442: bring-up, firmware and sensors. With a verified image the module starts and every function initialises, and
the status block says so; a function that is ready reads 2; the tray manager, over its link or through the service under a job's management key,
stages and commits an image that verifies; power off leaves the firmware, the operator's key and a log that has every change.
Signatures are opaque (log entry 7); log entries 5, 47, 65, 87 and 92. -/
def Obligations.PowerAndFirmwareEvents : Prop :=
  (∀ (s : State) (b : List Byte), s.power = .off → s.firmware.torn = false → ∃ t, exec (.powerGood b) s = .next t ∧ t.power = .active ∧
    t.groups = [] ∧ t.ctxs = [] ∧ t.firmware.stored = s.firmware.stored ∧ t.operatorKey = s.operatorKey ∧
    (Config.sm2Verify Config.terbexKey (Config.sm3 s.firmware.stored) s.firmware.sig = true →
      t.firmware.running = s.firmware.stored ∧ ∀ e < 130, statusOf t e = 1 ∧ ofBytes (rdBytes t (t.stBlk + 16 * e) 8) = 1) ∧
    (Config.sm2Verify Config.terbexKey (Config.sm3 s.firmware.stored) s.firmware.sig = false → t.mem = [] ∧ ∀ e, statusOf t e = 0)) ∧
  (∀ (s : State) (e : Nat), statusOf s e = 1 → ∃ t, exec (.functionReady e) s = .next t ∧ statusOf t e = 2 ∧
    (∀ k, k ≠ e → statusOf t k = statusOf s k) ∧ (e = 129 → (∃ c ∈ t.ctxs, c.ctx = 0) ∧ t.groups.length = s.groups.length + 8) ∧
    (e ≠ 129 → t.ctxs = s.ctxs ∧ StatusChanged s t e 2)) ∧
  (∀ s : State, ∃ t, exec .powerOff s = .next t ∧ t.power = .off ∧ t.mem = [] ∧ t.groups = [] ∧ t.ctxs = [] ∧ t.log = (logStates s 0).log ∧
    t.firmware.stored = s.firmware.stored ∧ t.firmware.staged = none ∧ t.operatorKey = s.operatorKey ∧ (∀ e, statusOf t e = 0)) ∧
  (∀ (s : State) (image : List Byte) (sig : Nat) (chan : Option (Nat × Nat)), s.power ≠ .off →
    (channelOk s chan (1#8 :: (image ++ toBytes 64 sig)) = false → exec (.firmwareStage image ⟨sig, chan⟩) s = .next (mgmtAnswer s chan 2)) ∧
    (channelOk s chan (1#8 :: (image ++ toBytes 64 sig)) = true →
      (s.firmware.staged ≠ none → exec (.firmwareStage image ⟨sig, chan⟩) s = .next (mgmtAnswer s chan 4)) ∧
      (s.firmware.staged = none → ∃ t, exec (.firmwareStage image ⟨sig, chan⟩) s = .next t ∧ t.mem = s.mem ∧
        t.firmware.stored = s.firmware.stored ∧ (t.firmware.staged = some (image, sig) ↔
          Config.sm2Verify Config.terbexKey (Config.sm3 image) sig = true)))) ∧
  (∀ (s : State) (image : List Byte) (sig : Nat) (chan : Option (Nat × Nat)), s.firmware.staged = some (image, sig) →
    channelOk s chan [2#8] = true → ∃ t u, exec (.firmwareCommit ⟨false, chan⟩) s = .next t ∧
    t.firmware.stored = image ∧ t.firmware.sig = sig ∧ t.firmware.staged = none ∧ t.firmware.torn = false ∧
    t.firmware.running = s.firmware.running ∧ t.power = s.power ∧ exec (.firmwareCommit ⟨true, chan⟩) s = .next u ∧ u.firmware.torn = true ∧
    u.power = .off) ∧
  (∀ (s : State) (key sig : Nat), (s.operatorKey = none → exec (.operatorKeyWrite key true sig) s = .next { s with operatorKey := some key } ∧
      exec (.operatorKeyWrite key false sig) s = .next s) ∧
    ∀ k v, s.operatorKey = some k → exec (.operatorKeyWrite key v sig) s = .next
      (if Config.sm2Verify k (Config.sm3 (toBytes 64 key)) sig then { s with operatorKey := some key } else s)) ∧
  (∀ (s : State) (l : List Nat), s.power ≠ .off → s.sampled + 100000 ≤ s.time → ∃ t, exec (.sensorSample l) s = .next t ∧
    t.sensors = l.take 76 ∧ t.sampled = s.time ∧ t.mem = s.mem ∧ t.groups = s.groups ∧ t.ctxs = s.ctxs ∧ t.time = s.time)

/-- From R430 to R433, R503, R515: requests in general. A malformed one is answered with status 1, one of a job that is not known, not signed by the
job's key or not in sequence with status 2, and one that comes after another of its client or context waits for it; a job setup whose
certificate, number and signature are good sets the job's keys and its device table with the endpoints.
From R426, R430, R437, R440, R442, R454, R499: the requests of a job that name no context, when no earlier one holds them back: a new context, reduction
trees, telemetry, attestation and power states.
Signatures are opaque (log entry 7); log entries 37, 41, 43, 45, 46 and 91. -/
def Obligations.RequestsOfJobs : Prop :=
  (
    (∀ (s : State) (m : List Byte), statusOf s 129 = 2 → msgBad m = true → exec (.malformedServiceMessage m) s = .next (reply s m 1 [])) ∧
    (∀ (s : State) (m p : List Byte), statusOf s 129 = 2 → msgBad m = false → mCode m = 1 → p = mPayload m → getJob s (mJob m) = none →
      ∃ t, exec (.jobSetup m) s = .next t ∧ t.mem = s.mem ∧ t.groups = s.groups ∧
        ((∃ k, s.operatorKey = some k ∧ Config.sm2Verify k (Config.sm3 (p.take 136)) (le64 p 136) = true ∧ le p 0 8 = mJob m ∧
            signed m (le64 p 8) = true) → getJob t (mJob m) = some
              { job := mJob m, key := le64 p 8, mgmtKey := le64 p 72, self := le p 200 2, table := tableOf p,
                ends := (List.range (le p 202 2)).map (fun k => (le p (204 + 20 * k) 2, le p (208 + 20 * k) 16)), seq := mSeq m, lost := [] }) ∧
        ((s.operatorKey = none ∨ le p 0 8 ≠ mJob m ∨ signed m (le64 p 8) = false) → t = reply s m 2 [])) ∧
    (∀ (s : State) (m : List Byte) (code : Nat) (body : State → List Byte → State), serviceUp s = true → msgBad m = false → mCode m = code →
      (getJob s (mJob m) = none → request s m code body = reply s m 2 []) ∧
      (∀ j s1, getJob s (mJob m) = some j → s1 = putJob s { j with seq := mSeq m } →
        request s m code body = if signed m j.key = true ∧ j.seq < mSeq m
          then (if mustWait s1 s1.queued m = true then { s1 with queued := s1.queued ++ [m] } else body s1 m) else reply s m 2 [])) ∧
    (∀ (s : State) (before : List (List Byte)) (m : List Byte), (∃ w ∈ s.waits, w.job = mJob m ∨ (mCtx m ≠ 0 ∧ w.ctx = mCtx m)) →
      mustWait s before m = true) ∧
    (∀ (s : State) (m : List Byte) (st : Nat) (p : List Byte), ∃ r, (reply s m st p).msgs = s.msgs ++ [r] ∧ r.dir = 1 ∧ r.code = mCode m ∧
      r.seq = mSeq m ∧ r.status = st ∧ r.payload = p ∧ (reply s m st p).mem = s.mem ∧ (reply s m st p).groups = s.groups)) ∧
  (
    ∀ (s s1 : State) (m p : List Byte) (j : Job), statusOf s 129 = 2 → msgBad m = false → p = mPayload m → getJob s (mJob m) = some j →
      j.seq < mSeq m → s1 = putJob s { j with seq := mSeq m } → mustWait s1 s1.queued m = false →
      (∀ k wd, mCode m = 2 → le p 0 8 % 4096 = 0 → le p 0 8 < 2 ^ 52 → le p 8 8 < 2 ^ 48 → wd = watchdogOf (le p 24 4) → 1000 ≤ wd → wd ≤ 600000000 →
        le p 28 4 ≤ 3600000 → memoryReady s = true → (List.range 4096).find? (fun k => decide (k ≠ 0) && (getC s k).isNone) = some k →
        ∃ t, exec (.contextCreate m) s = .next t ∧ (signed m j.key = false → t = reply s m 2 []) ∧ (signed m j.key = true → ∃ c,
          t.ctxs = s.ctxs ++ [c] ∧ c.ctx = k ∧ c.job = j.job ∧ c.root = le p 0 8 ∧ c.qprio = le p 8 8 ∧ c.watchdog = wd * 1000 ∧
          c.extTimeout = le p 28 4 * 1000000 ∧ c.run = .running ∧ c.queues = [] ∧ c.pairs = 0 ∧ t.atTable = s.atTable ++ atEntries k)) ∧
      (mCode m = 11 → (∀ u ∈ s.trees, u.tree ≠ le p 0 4) → ∃ t, exec (.treeCreate m) s = .next t ∧ (signed m j.key = false → t = reply s m 2 []) ∧
        (signed m j.key = true → (t.trees = s.trees ∨ ∃ u, t.trees = s.trees ++ [u] ∧ u.tree = le p 0 4) ∧ t.mem = s.mem)) ∧
      (mCode m = 12 → exec (.treeFree m) s = .next (if signed m j.key = false then reply s m 2 [] else
        if s.trees.any (fun u => u.tree == le p 0 4 && !u.freed) then
          reply (abortTree { s1 with trees := s1.trees.map (fun u => if u.tree = le p 0 4 then { u with freed := true } else u) } (le p 0 4)) m 0 []
        else reply s1 m 1 [])) ∧
      (mCode m = 15 → exec (.telemetry m) s = .next (if signed m j.key = true
        then reply s1 m 0 (telemetryBytes s1 (le p 0 4) (le p 4 4)) else reply s m 2 [])) ∧
      (mCode m = 16 → (mCtx m = 0 ∨ ∃ c, getC s (mCtx m) = some c ∧ c.job = j.job ∧ deadCtx c = false) → ∃ t r, exec (.attest m) s = .next t ∧ t.msgs = s.msgs ++ [r] ∧
        (signed m j.key = false → r.status = 2) ∧
        (signed m j.key = true → r.status = 0 ∧ r.payload = reportBytes s1 p (mCtx m) j.self ++
          toBytes 64 (Config.sm2Sign (Config.sm3 (reportBytes s1 p (mCtx m) j.self))))) ∧
      (mCode m = 16 → mCtx m ≠ 0 → getC s (mCtx m) = none →
        exec (.attest m) s = .next (if signed m j.key = true then reply s1 m 1 [] else reply s m 2 [])) ∧
      (mCode m = 17 → ∃ t, exec (.power m) s = .next t ∧ (signed m j.key = false → t = reply s m 2 []) ∧ (signed m j.key = true →
        ((le p 0 1 = 2 ∧ ∃ c ∈ s.ctxs, c.ctx ≠ 0) → t = reply s1 m 2 []) ∧
        (¬ (le p 0 1 = 2 ∧ ∃ c ∈ s.ctxs, c.ctx ≠ 0) → t.cap = le p 4 4 ∧ (le p 0 1 = 0 → t.power = .active) ∧ (le p 0 1 = 2 → t.power = .standby) ∧
          (le p 0 1 = 1 → t.power = if moduleBusy s = true then .active else .idle)))))

/-- From R430 to R433, R448, R111 to R113, R126, R516: what a request does for a context, when no earlier one holds it back. In every clause s1 is the
state with the job's new sequence number; the request is performed where its signature verifies, and answered with status 2 otherwise. A
context stopped by class 0x19 or 0x1A is refused everything but its destroy.
Signatures are opaque (log entry 7); log entries 35, 36, 37, 44, 89 and 90. -/
def Obligations.ContextRequests : Prop :=
  ∀ (s s1 : State) (m p : List Byte) (j : Job) (c : Context), statusOf s 129 = 2 → msgBad m = false → p = mPayload m →
    getJob s (mJob m) = some j → j.seq < mSeq m → s1 = putJob s { j with seq := mSeq m } → mustWait s1 s1.queued m = false →
    getC s (mCtx m) = some c → c.job = j.job → c.ctx ≠ 0 →
    (deadCtx c = true → ∀ i code, (i, code) ∈ [(Instr.caneGrant m, 4), (.caneReturn m, 5), (.memoryMap m, 6), (.memoryUnmap m, 7), (.memoryWrite m, 8),
        (.memoryRead m, 9), (.launchQueueWrite m, 10), (.preEmpt m, 13), (.resume m, 14), (.attest m, 16), (.breakpointResume m, 18)] → mCode m = code →
      exec i s = .next (if signed m j.key = true then reply s1 m 2 [] else reply s m 2 [])) ∧
    (mCode m = 3 → ∃ t, exec (.contextDestroy m) s = .next t ∧ (signed m j.key = false → t = reply s m 2 []) ∧
      (signed m j.key = true → t.waits = s.waits ++ [waitOf m] ∧ t.groups = s.groups ∧ t.mem = s.mem)) ∧
    (deadCtx c = false →
    (mCode m = 4 → exec (.caneGrant m) s = .next (if signed m j.key = false then reply s m 2 [] else
      if c.pairs ≠ 0 then reply s1 m 1 [] else if (freePairs s1).length < le p 0 1 then reply s1 m 3 []
      else if memoryReady s1 = false then reply s1 m 4 []
      else later s1 { waitOf m with pairs := ((freePairs s1).take (le p 0 1)).foldl (fun a k => a ||| 2 ^ k) 0 })) ∧
    (mCode m = 5 → exec (.caneReturn m) s = .next (if signed m j.key = false then reply s m 2 [] else
      if c.pairs = 0 then reply s1 m 0 []
      else if s.grids.any (fun g => g.ctx == c.ctx && !g.done && (lrecOf g.lrec).cane) = true then reply s1 m 4 []
      else later s1 { waitOf m with pairs := c.pairs })) ∧
    (mCode m = 6 → le p 0 8 % pageSize (le p 16 1) ≠ 0 →
      exec (.memoryMap m) s = .next (if signed m j.key = true then reply s1 m 1 [] else reply s m 2 [])) ∧
    (mCode m = 6 → le p 0 8 % pageSize (le p 16 1) = 0 → le p 8 8 = pageSize (le p 16 1) → le p 0 8 + le p 8 8 ≤ 2 ^ 57 →
      c.maps.any (fun r => meets (le p 0 8, le p 8 8) (r.1, r.2.2)) = false → memoryReady s = true →
      (le p 17 1 = 1 → ∀ k < 4, statusOf s (8 + k) = 2) → ∀ pa s2,
      findFree s1 (le p 17 1 == 1) (pageSize (le p 16 1)) = some pa → mapPage s1 c.ctx (le p 16 1) (le p 0 8) pa (le p 18 1) = some s2 →
      exec (.memoryMap m) s = .next (if signed m j.key = true then reply s2 m 0 [] else reply s m 2 [])) ∧
    (mCode m = 7 → c.maps = [] → le p 8 8 ≠ 0 →
      exec (.memoryUnmap m) s = .next (if signed m j.key = true then reply s1 m 1 [] else reply s m 2 [])) ∧
    (∀ va pa n, mCode m = 7 → c.maps = [(va, pa, n)] → le p 0 8 = va → le p 8 8 = n → 0 < n → memoryReady s = true → ∃ t, exec (.memoryUnmap m) s = .next t ∧
      (signed m j.key = false → t = reply s m 2 []) ∧ (signed m j.key = true → (∀ e ∈ t.tlb, ¬ (e.ctx = c.ctx ∧ meets (va, n) (e.va, e.size) = true)) ∧
        t.waits = s.waits ++ [{ waitOf m with ranges := [(pa, n)], mark := s.nextId }] ∧ ∃ c', getC t c.ctx = some c' ∧ c'.maps = [])) ∧
    (memoryReady s = false → ∀ i code, (i, code) ∈ [(Instr.memoryWrite m, 8), (.memoryRead m, 9)] → mCode m = code →
      exec i s = .next (if signed m j.key = true then reply s1 m 4 [] else reply s m 2 [])) ∧
    (∀ pas s2 w, mCode m = 8 → memoryReady s = true → trailBad s1 c.ctx (le p 0 8) (le p 8 4) = none →
      windowPas s1 c.ctx (le p 0 8) (le p 8 4) = some pas → (∀ a ∈ pas, isCxl a = true → statusOf s (8 + dieOf a) = 2) →
      engineWrite s1 c.ctx 0 (pas.zip (p.drop 12)) = (s2, w) →
      exec (.memoryWrite m) s = .next (if signed m j.key = true then reply (serviceWrote s2 c.ctx w) m 0 [] else reply s m 2 [])) ∧
    (∀ pas, mCode m = 9 → memoryReady s = true → trailBad s1 c.ctx (le p 0 8) (le p 8 4) = none →
      windowPas s1 c.ctx (le p 0 8) (le p 8 4) = some pas → (∀ a ∈ pas, isCxl a = true → statusOf s (8 + dieOf a) = 2) → badAt s1 pas = none →
      exec (.memoryRead m) s = .next
        (if signed m j.key = true then reply (engineRead s1 c.ctx 0 pas) m 0 (pas.map (rdByte s1)) else reply s m 2 [])) ∧
    (mCode m = 10 → ∃ t, exec (.launchQueueWrite m) s = .next t ∧ (signed m j.key = false → t = reply s m 2 []) ∧
      (signed m j.key = true → (64 ≤ (fget [] (le p 0 1) c.queues).length → t = reply s1 m 0 [1#8]) ∧
        ((fget [] (le p 0 1) c.queues).length < 64 → ∃ c', getC t c.ctx = some c' ∧
          fget [] (le p 0 1) c'.queues = fget [] (le p 0 1) c.queues ++ [(0, p.drop 8)]))) ∧
    (mCode m = 13 → exec (.preEmpt m) s = .next (if signed m j.key = false then reply s m 2 [] else
      if setAside s1 c.ctx then reply s1 m 0 [] else later (stopCtx s1 c.ctx 0x100) (waitOf m))) ∧
    (mCode m = 14 → exec (.resume m) s = .next (if signed m j.key = false then reply s m 2 [] else
      if c.run = .running then reply s1 m 0 [] else if memoryReady s1 = false then reply s1 m 4 [] else later s1 (waitOf m))) ∧
    (∀ g b imm, mCode m = 18 → s.groups = [g] → b = (le p 0 8).testBit 1 → (slotOf g b).park = some (.bkpt imm) → g.ctx = c.ctx →
      g.core = fld (le p 0 8) 13 7 → g.part = fld (le p 0 8) 11 2 → g.num = fld (le p 0 8) 6 5 → g.task = false → g.tidx = fld (le p 0 8) 2 4 →
      g.cluster = le p 8 8 / 2 ^ 32 → g.grid = le p 8 8 % 2 ^ 32 → imm % 2 ^ 24 = fld (le p 0 8) 32 24 → fld (le p 0 8) 56 8 = 0 →
      exec (.breakpointResume m) s = .next (if signed m j.key = true then reply (putG s1 (setSlot g b
        { slotOf g b with park := if 2 ^ 24 ≤ imm ∧ allQuiet s1 g = false then some .marker else none, waitSince := s.time, extSince := s.time }))
          m 0 [] else reply s m 2 [])))

/-! The machine as a whole. -/

/-- The model's choice (log entry 2), under R98: every step keeps the list of memory bytes in its canonical form, with addresses strictly rising
and no byte listed that equals what an unlisted address reads as, so that memories that read alike stay equal. That the reset state has
that form is part of ResetState. -/
def Obligations.MemoryStaysCanonical : Prop :=
  ∀ s t : State, Memory.wf s.mem = true → step s = .next t → Memory.wf t.mem = true
end

