-- ==== Sys2Proof/Laws/Encode.lean ====
section
/-! SUPPORT. The fields of an encoded word are the fields it was made from, for every format (R216, R222 to R229, R364), and the major
opcode is the one given. -/

namespace Sys2Proof.Laws
open Sys2Proof

theorem decV_encV (op : BitVec 8) (w : VWord) : decV (encV op w) = w := by
  obtain ⟨x0, x1, x2, x3, x4, x5, x6, x7, x8, x9⟩ := w
  simp only [decV, encV, bits, VWord.mk.injEq]
  refine ⟨?_, ?_, ?_, ?_, ?_, ?_, ?_, ?_, ?_, ?_⟩
  · repeat (rw [BitVec.getLsbD_append] ; rw [if_neg (by decide)])
    rw [BitVec.getLsbD_append, if_pos (by decide)]
    cases x0 <;> rfl
  · repeat (first | rw [BitVec.extractLsb'_append_eq_of_le (by decide)] | rw [BitVec.extractLsb'_append_eq_of_add_le (by decide)])
    exact BitVec.extractLsb'_eq_self
  · repeat (first | rw [BitVec.extractLsb'_append_eq_of_le (by decide)] | rw [BitVec.extractLsb'_append_eq_of_add_le (by decide)])
    exact BitVec.extractLsb'_eq_self
  · repeat (first | rw [BitVec.extractLsb'_append_eq_of_le (by decide)] | rw [BitVec.extractLsb'_append_eq_of_add_le (by decide)])
    exact BitVec.extractLsb'_eq_self
  · repeat (first | rw [BitVec.extractLsb'_append_eq_of_le (by decide)] | rw [BitVec.extractLsb'_append_eq_of_add_le (by decide)])
    exact BitVec.extractLsb'_eq_self
  · repeat (first | rw [BitVec.extractLsb'_append_eq_of_le (by decide)] | rw [BitVec.extractLsb'_append_eq_of_add_le (by decide)])
    exact BitVec.extractLsb'_eq_self
  · repeat (first | rw [BitVec.extractLsb'_append_eq_of_le (by decide)] | rw [BitVec.extractLsb'_append_eq_of_add_le (by decide)])
    exact BitVec.extractLsb'_eq_self
  · repeat (first | rw [BitVec.extractLsb'_append_eq_of_le (by decide)] | rw [BitVec.extractLsb'_append_eq_of_add_le (by decide)])
    exact BitVec.extractLsb'_eq_self
  · repeat (first | rw [BitVec.extractLsb'_append_eq_of_le (by decide)] | rw [BitVec.extractLsb'_append_eq_of_add_le (by decide)])
    exact BitVec.extractLsb'_eq_self
  · repeat (first | rw [BitVec.extractLsb'_append_eq_of_le (by decide)] | rw [BitVec.extractLsb'_append_eq_of_add_le (by decide)])
    exact BitVec.extractLsb'_eq_self

theorem decC_encC (op : BitVec 8) (w : CWord) : decC (encC op w) = w := by
  obtain ⟨x0, x1, x2, x3, x4⟩ := w
  simp only [decC, encC, bits, CWord.mk.injEq]
  refine ⟨?_, ?_, ?_, ?_, ?_⟩
  · repeat (rw [BitVec.getLsbD_append] ; rw [if_neg (by decide)])
    rw [BitVec.getLsbD_append, if_pos (by decide)]
    cases x0 <;> rfl
  · repeat (first | rw [BitVec.extractLsb'_append_eq_of_le (by decide)] | rw [BitVec.extractLsb'_append_eq_of_add_le (by decide)])
    exact BitVec.extractLsb'_eq_self
  · repeat (first | rw [BitVec.extractLsb'_append_eq_of_le (by decide)] | rw [BitVec.extractLsb'_append_eq_of_add_le (by decide)])
    exact BitVec.extractLsb'_eq_self
  · repeat (first | rw [BitVec.extractLsb'_append_eq_of_le (by decide)] | rw [BitVec.extractLsb'_append_eq_of_add_le (by decide)])
    exact BitVec.extractLsb'_eq_self
  · repeat (first | rw [BitVec.extractLsb'_append_eq_of_le (by decide)] | rw [BitVec.extractLsb'_append_eq_of_add_le (by decide)])
    exact BitVec.extractLsb'_eq_self

theorem decM_encM (op : BitVec 8) (w : MWord) : decM (encM op w) = w := by
  obtain ⟨x0, x1, x2, x3, x4, x5, x6, x7, x8, x9⟩ := w
  simp only [decM, encM, bits, MWord.mk.injEq]
  refine ⟨?_, ?_, ?_, ?_, ?_, ?_, ?_, ?_, ?_, ?_⟩
  · repeat (rw [BitVec.getLsbD_append] ; rw [if_neg (by decide)])
    rw [BitVec.getLsbD_append, if_pos (by decide)]
    cases x0 <;> rfl
  · repeat (first | rw [BitVec.extractLsb'_append_eq_of_le (by decide)] | rw [BitVec.extractLsb'_append_eq_of_add_le (by decide)])
    exact BitVec.extractLsb'_eq_self
  · repeat (first | rw [BitVec.extractLsb'_append_eq_of_le (by decide)] | rw [BitVec.extractLsb'_append_eq_of_add_le (by decide)])
    exact BitVec.extractLsb'_eq_self
  · repeat (first | rw [BitVec.extractLsb'_append_eq_of_le (by decide)] | rw [BitVec.extractLsb'_append_eq_of_add_le (by decide)])
    exact BitVec.extractLsb'_eq_self
  · repeat (first | rw [BitVec.extractLsb'_append_eq_of_le (by decide)] | rw [BitVec.extractLsb'_append_eq_of_add_le (by decide)])
    exact BitVec.extractLsb'_eq_self
  · repeat (first | rw [BitVec.extractLsb'_append_eq_of_le (by decide)] | rw [BitVec.extractLsb'_append_eq_of_add_le (by decide)])
    exact BitVec.extractLsb'_eq_self
  · repeat (first | rw [BitVec.extractLsb'_append_eq_of_le (by decide)] | rw [BitVec.extractLsb'_append_eq_of_add_le (by decide)])
    exact BitVec.extractLsb'_eq_self
  · repeat (first | rw [BitVec.extractLsb'_append_eq_of_le (by decide)] | rw [BitVec.extractLsb'_append_eq_of_add_le (by decide)])
    exact BitVec.extractLsb'_eq_self
  · repeat (first | rw [BitVec.extractLsb'_append_eq_of_le (by decide)] | rw [BitVec.extractLsb'_append_eq_of_add_le (by decide)])
    exact BitVec.extractLsb'_eq_self
  · repeat (first | rw [BitVec.extractLsb'_append_eq_of_le (by decide)] | rw [BitVec.extractLsb'_append_eq_of_add_le (by decide)])
    exact BitVec.extractLsb'_eq_self

theorem decX_encX (op : BitVec 8) (w : XWord) : decX (encX op w) = w := by
  obtain ⟨x0, x1, x2, x3, x4, x5, x6, x7, x8, x9, x10, x11, x12⟩ := w
  simp only [decX, encX, bits, XWord.mk.injEq]
  refine ⟨?_, ?_, ?_, ?_, ?_, ?_, ?_, ?_, ?_, ?_, ?_, ?_, ?_⟩
  · repeat (rw [BitVec.getLsbD_append] ; rw [if_neg (by decide)])
    rw [BitVec.getLsbD_append, if_pos (by decide)]
    cases x0 <;> rfl
  · repeat (first | rw [BitVec.extractLsb'_append_eq_of_le (by decide)] | rw [BitVec.extractLsb'_append_eq_of_add_le (by decide)])
    exact BitVec.extractLsb'_eq_self
  · repeat (first | rw [BitVec.extractLsb'_append_eq_of_le (by decide)] | rw [BitVec.extractLsb'_append_eq_of_add_le (by decide)])
    exact BitVec.extractLsb'_eq_self
  · repeat (first | rw [BitVec.extractLsb'_append_eq_of_le (by decide)] | rw [BitVec.extractLsb'_append_eq_of_add_le (by decide)])
    exact BitVec.extractLsb'_eq_self
  · repeat (first | rw [BitVec.extractLsb'_append_eq_of_le (by decide)] | rw [BitVec.extractLsb'_append_eq_of_add_le (by decide)])
    exact BitVec.extractLsb'_eq_self
  · repeat (first | rw [BitVec.extractLsb'_append_eq_of_le (by decide)] | rw [BitVec.extractLsb'_append_eq_of_add_le (by decide)])
    exact BitVec.extractLsb'_eq_self
  · repeat (first | rw [BitVec.extractLsb'_append_eq_of_le (by decide)] | rw [BitVec.extractLsb'_append_eq_of_add_le (by decide)])
    exact BitVec.extractLsb'_eq_self
  · repeat (first | rw [BitVec.extractLsb'_append_eq_of_le (by decide)] | rw [BitVec.extractLsb'_append_eq_of_add_le (by decide)])
    exact BitVec.extractLsb'_eq_self
  · repeat (first | rw [BitVec.extractLsb'_append_eq_of_le (by decide)] | rw [BitVec.extractLsb'_append_eq_of_add_le (by decide)])
    exact BitVec.extractLsb'_eq_self
  · repeat (rw [BitVec.getLsbD_append] ; rw [if_neg (by decide)])
    rw [BitVec.getLsbD_append, if_pos (by decide)]
    cases x9 <;> rfl
  · repeat (rw [BitVec.getLsbD_append] ; rw [if_neg (by decide)])
    rw [BitVec.getLsbD_append, if_pos (by decide)]
    cases x10 <;> rfl
  · repeat (rw [BitVec.getLsbD_append] ; rw [if_neg (by decide)])
    rw [BitVec.getLsbD_append, if_pos (by decide)]
    cases x11 <;> rfl
  · repeat (first | rw [BitVec.extractLsb'_append_eq_of_le (by decide)] | rw [BitVec.extractLsb'_append_eq_of_add_le (by decide)])
    exact BitVec.extractLsb'_eq_self

theorem decT_encT (op : BitVec 8) (w : TWord) : decT (encT op w) = w := by
  obtain ⟨x0, x1, x2, x3, x4, x5, x6, x7, x8, x9⟩ := w
  simp only [decT, encT, bits, TWord.mk.injEq]
  refine ⟨?_, ?_, ?_, ?_, ?_, ?_, ?_, ?_, ?_, ?_⟩
  · repeat (rw [BitVec.getLsbD_append] ; rw [if_neg (by decide)])
    rw [BitVec.getLsbD_append, if_pos (by decide)]
    cases x0 <;> rfl
  · repeat (first | rw [BitVec.extractLsb'_append_eq_of_le (by decide)] | rw [BitVec.extractLsb'_append_eq_of_add_le (by decide)])
    exact BitVec.extractLsb'_eq_self
  · repeat (first | rw [BitVec.extractLsb'_append_eq_of_le (by decide)] | rw [BitVec.extractLsb'_append_eq_of_add_le (by decide)])
    exact BitVec.extractLsb'_eq_self
  · repeat (first | rw [BitVec.extractLsb'_append_eq_of_le (by decide)] | rw [BitVec.extractLsb'_append_eq_of_add_le (by decide)])
    exact BitVec.extractLsb'_eq_self
  · repeat (first | rw [BitVec.extractLsb'_append_eq_of_le (by decide)] | rw [BitVec.extractLsb'_append_eq_of_add_le (by decide)])
    exact BitVec.extractLsb'_eq_self
  · repeat (first | rw [BitVec.extractLsb'_append_eq_of_le (by decide)] | rw [BitVec.extractLsb'_append_eq_of_add_le (by decide)])
    exact BitVec.extractLsb'_eq_self
  · repeat (first | rw [BitVec.extractLsb'_append_eq_of_le (by decide)] | rw [BitVec.extractLsb'_append_eq_of_add_le (by decide)])
    exact BitVec.extractLsb'_eq_self
  · repeat (first | rw [BitVec.extractLsb'_append_eq_of_le (by decide)] | rw [BitVec.extractLsb'_append_eq_of_add_le (by decide)])
    exact BitVec.extractLsb'_eq_self
  · repeat (first | rw [BitVec.extractLsb'_append_eq_of_le (by decide)] | rw [BitVec.extractLsb'_append_eq_of_add_le (by decide)])
    exact BitVec.extractLsb'_eq_self
  · repeat (first | rw [BitVec.extractLsb'_append_eq_of_le (by decide)] | rw [BitVec.extractLsb'_append_eq_of_add_le (by decide)])
    exact BitVec.extractLsb'_eq_self

theorem decN_encN (op : BitVec 8) (w : NWord) : decN (encN op w) = w := by
  obtain ⟨x0, x1, x2, x3, x4, x5, x6, x7⟩ := w
  simp only [decN, encN, bits, NWord.mk.injEq]
  refine ⟨?_, ?_, ?_, ?_, ?_, ?_, ?_, ?_⟩
  · repeat (rw [BitVec.getLsbD_append] ; rw [if_neg (by decide)])
    rw [BitVec.getLsbD_append, if_pos (by decide)]
    cases x0 <;> rfl
  · repeat (first | rw [BitVec.extractLsb'_append_eq_of_le (by decide)] | rw [BitVec.extractLsb'_append_eq_of_add_le (by decide)])
    exact BitVec.extractLsb'_eq_self
  · repeat (first | rw [BitVec.extractLsb'_append_eq_of_le (by decide)] | rw [BitVec.extractLsb'_append_eq_of_add_le (by decide)])
    exact BitVec.extractLsb'_eq_self
  · repeat (first | rw [BitVec.extractLsb'_append_eq_of_le (by decide)] | rw [BitVec.extractLsb'_append_eq_of_add_le (by decide)])
    exact BitVec.extractLsb'_eq_self
  · repeat (first | rw [BitVec.extractLsb'_append_eq_of_le (by decide)] | rw [BitVec.extractLsb'_append_eq_of_add_le (by decide)])
    exact BitVec.extractLsb'_eq_self
  · repeat (first | rw [BitVec.extractLsb'_append_eq_of_le (by decide)] | rw [BitVec.extractLsb'_append_eq_of_add_le (by decide)])
    exact BitVec.extractLsb'_eq_self
  · repeat (first | rw [BitVec.extractLsb'_append_eq_of_le (by decide)] | rw [BitVec.extractLsb'_append_eq_of_add_le (by decide)])
    exact BitVec.extractLsb'_eq_self
  · repeat (first | rw [BitVec.extractLsb'_append_eq_of_le (by decide)] | rw [BitVec.extractLsb'_append_eq_of_add_le (by decide)])
    exact BitVec.extractLsb'_eq_self

theorem decY_encY (op : BitVec 8) (w : YWord) : decY (encY op w) = w := by
  obtain ⟨x0, x1, x2, x3, x4, x5⟩ := w
  simp only [decY, encY, bits, YWord.mk.injEq]
  refine ⟨?_, ?_, ?_, ?_, ?_, ?_⟩
  · repeat (rw [BitVec.getLsbD_append] ; rw [if_neg (by decide)])
    rw [BitVec.getLsbD_append, if_pos (by decide)]
    cases x0 <;> rfl
  · repeat (first | rw [BitVec.extractLsb'_append_eq_of_le (by decide)] | rw [BitVec.extractLsb'_append_eq_of_add_le (by decide)])
    exact BitVec.extractLsb'_eq_self
  · repeat (first | rw [BitVec.extractLsb'_append_eq_of_le (by decide)] | rw [BitVec.extractLsb'_append_eq_of_add_le (by decide)])
    exact BitVec.extractLsb'_eq_self
  · repeat (first | rw [BitVec.extractLsb'_append_eq_of_le (by decide)] | rw [BitVec.extractLsb'_append_eq_of_add_le (by decide)])
    exact BitVec.extractLsb'_eq_self
  · repeat (first | rw [BitVec.extractLsb'_append_eq_of_le (by decide)] | rw [BitVec.extractLsb'_append_eq_of_add_le (by decide)])
    exact BitVec.extractLsb'_eq_self
  · repeat (first | rw [BitVec.extractLsb'_append_eq_of_le (by decide)] | rw [BitVec.extractLsb'_append_eq_of_add_le (by decide)])
    exact BitVec.extractLsb'_eq_self

theorem decCaneCmd_encCane (op : BitVec 8) (w : CaneCmd) : decCaneCmd (encCane op w) = w := by
  obtain ⟨x0, x1, x2, x3, x4, x5, x6, x7, x8, x9, x10⟩ := w
  simp only [decCaneCmd, encCane, bits, CaneCmd.mk.injEq]
  refine ⟨?_, ?_, ?_, ?_, ?_, ?_, ?_, ?_, ?_, ?_, ?_⟩
  · repeat (first | rw [BitVec.extractLsb'_append_eq_of_le (by decide)] | rw [BitVec.extractLsb'_append_eq_of_add_le (by decide)])
    exact BitVec.extractLsb'_eq_self
  · repeat (first | rw [BitVec.extractLsb'_append_eq_of_le (by decide)] | rw [BitVec.extractLsb'_append_eq_of_add_le (by decide)])
    exact BitVec.extractLsb'_eq_self
  · repeat (first | rw [BitVec.extractLsb'_append_eq_of_le (by decide)] | rw [BitVec.extractLsb'_append_eq_of_add_le (by decide)])
    exact BitVec.extractLsb'_eq_self
  · repeat (first | rw [BitVec.extractLsb'_append_eq_of_le (by decide)] | rw [BitVec.extractLsb'_append_eq_of_add_le (by decide)])
    exact BitVec.extractLsb'_eq_self
  · repeat (first | rw [BitVec.extractLsb'_append_eq_of_le (by decide)] | rw [BitVec.extractLsb'_append_eq_of_add_le (by decide)])
    exact BitVec.extractLsb'_eq_self
  · repeat (first | rw [BitVec.extractLsb'_append_eq_of_le (by decide)] | rw [BitVec.extractLsb'_append_eq_of_add_le (by decide)])
    exact BitVec.extractLsb'_eq_self
  · repeat (rw [BitVec.getLsbD_append] ; rw [if_neg (by decide)])
    rw [BitVec.getLsbD_append, if_pos (by decide)]
    cases x6 <;> rfl
  · repeat (rw [BitVec.getLsbD_append] ; rw [if_neg (by decide)])
    rw [BitVec.getLsbD_append, if_pos (by decide)]
    cases x7 <;> rfl
  · repeat (rw [BitVec.getLsbD_append] ; rw [if_neg (by decide)])
    rw [BitVec.getLsbD_append, if_pos (by decide)]
    cases x8 <;> rfl
  · repeat (first | rw [BitVec.extractLsb'_append_eq_of_le (by decide)] | rw [BitVec.extractLsb'_append_eq_of_add_le (by decide)])
    exact BitVec.extractLsb'_eq_self
  · repeat (first | rw [BitVec.extractLsb'_append_eq_of_le (by decide)] | rw [BitVec.extractLsb'_append_eq_of_add_le (by decide)])
    exact BitVec.extractLsb'_eq_self

theorem majorOp_encV (op : BitVec 8) (w : VWord) : majorOp (encV op w) = op.toNat := by
  simp only [majorOp, encV, bits]
  repeat rw [BitVec.extractLsb'_append_eq_of_le (by decide)]
  rw [BitVec.extractLsb'_eq_self]

theorem majorOp_encC (op : BitVec 8) (w : CWord) : majorOp (encC op w) = op.toNat := by
  simp only [majorOp, encC, bits]
  repeat rw [BitVec.extractLsb'_append_eq_of_le (by decide)]
  rw [BitVec.extractLsb'_eq_self]

theorem majorOp_encM (op : BitVec 8) (w : MWord) : majorOp (encM op w) = op.toNat := by
  simp only [majorOp, encM, bits]
  repeat rw [BitVec.extractLsb'_append_eq_of_le (by decide)]
  rw [BitVec.extractLsb'_eq_self]

theorem majorOp_encX (op : BitVec 8) (w : XWord) : majorOp (encX op w) = op.toNat := by
  simp only [majorOp, encX, bits]
  repeat rw [BitVec.extractLsb'_append_eq_of_le (by decide)]
  rw [BitVec.extractLsb'_eq_self]

theorem majorOp_encT (op : BitVec 8) (w : TWord) : majorOp (encT op w) = op.toNat := by
  simp only [majorOp, encT, bits]
  repeat rw [BitVec.extractLsb'_append_eq_of_le (by decide)]
  rw [BitVec.extractLsb'_eq_self]

theorem majorOp_encN (op : BitVec 8) (w : NWord) : majorOp (encN op w) = op.toNat := by
  simp only [majorOp, encN, bits]
  repeat rw [BitVec.extractLsb'_append_eq_of_le (by decide)]
  rw [BitVec.extractLsb'_eq_self]

theorem majorOp_encY (op : BitVec 8) (w : YWord) : majorOp (encY op w) = op.toNat := by
  simp only [majorOp, encY, bits]
  repeat rw [BitVec.extractLsb'_append_eq_of_le (by decide)]
  rw [BitVec.extractLsb'_eq_self]

theorem majorOp_encCane (op : BitVec 8) (w : CaneCmd) : majorOp (encCane op w) = op.toNat := by
  simp only [majorOp, encCane, bits]
  repeat rw [BitVec.extractLsb'_append_eq_of_le (by decide)]
  rw [BitVec.extractLsb'_eq_self]

theorem majorOp_encS (op : BitVec 8) (w : SWord) : majorOp (encS op w) = op.toNat := by
  obtain ⟨x0, x1, x2, x3, x4, x5⟩ := w
  cases x4 <;> simp only [majorOp, encS, bits]
  all_goals
    repeat rw [BitVec.extractLsb'_append_eq_of_le (by decide)]
    rw [BitVec.extractLsb'_eq_self]

theorem decS_encS_reg (op : BitVec 8) (x0 : Bool) (x1 : BitVec 3) (x2 x3 x4 x5 : BitVec 6) (x6 : BitVec 20) (x7 : BitVec 7) :
    decS (encS op { sw := x0, msel := x1, d := x2, a := x3, src := .reg x4 x5 x6, f7 := x7 }) =
      { sw := x0, msel := x1, d := x2, a := x3, src := .reg x4 x5 x6, f7 := x7 } := by
  have hi : (op ++ bit1 x0 ++ x1 ++ 0#1 ++ x2 ++ x3 ++ x4 ++ x5 ++ x6 ++ x7 : W64).getLsbD 51 = false := by
    repeat (rw [BitVec.getLsbD_append] ; rw [if_neg (by decide)])
    rw [BitVec.getLsbD_append, if_pos (by decide)]
    rfl
  simp only [decS, encS, bits, SWord.mk.injEq, hi, Bool.false_eq_true, if_false, SSrc.reg.injEq]
  refine ⟨?_, ?_, ?_, ?_, ⟨?_, ?_, ?_⟩, ?_⟩
  · repeat (rw [BitVec.getLsbD_append] ; rw [if_neg (by decide)])
    rw [BitVec.getLsbD_append, if_pos (by decide)]
    cases x0 <;> rfl
  all_goals
    repeat (first | rw [BitVec.extractLsb'_append_eq_of_le (by decide)] | rw [BitVec.extractLsb'_append_eq_of_add_le (by decide)])
    exact BitVec.extractLsb'_eq_self

theorem decS_encS_imm (op : BitVec 8) (x0 : Bool) (x1 : BitVec 3) (x2 x3 : BitVec 6) (x4 : BitVec 32) (x5 : BitVec 7) :
    decS (encS op { sw := x0, msel := x1, d := x2, a := x3, src := .imm x4, f7 := x5 }) =
      { sw := x0, msel := x1, d := x2, a := x3, src := .imm x4, f7 := x5 } := by
  have hi : (op ++ bit1 x0 ++ x1 ++ 1#1 ++ x2 ++ x3 ++ x4 ++ x5 : W64).getLsbD 51 = true := by
    repeat (rw [BitVec.getLsbD_append] ; rw [if_neg (by decide)])
    rw [BitVec.getLsbD_append, if_pos (by decide)]
    rfl
  simp only [decS, encS, bits, SWord.mk.injEq, hi, if_true, SSrc.imm.injEq]
  refine ⟨?_, ?_, ?_, ?_, ?_, ?_⟩
  · repeat (rw [BitVec.getLsbD_append] ; rw [if_neg (by decide)])
    rw [BitVec.getLsbD_append, if_pos (by decide)]
    cases x0 <;> rfl
  all_goals
    repeat (first | rw [BitVec.extractLsb'_append_eq_of_le (by decide)] | rw [BitVec.extractLsb'_append_eq_of_add_le (by decide)])
    exact BitVec.extractLsb'_eq_self

theorem decS_encS (op : BitVec 8) (w : SWord) : decS (encS op w) = w := by
  obtain ⟨x0, x1, x2, x3, x4, x5⟩ := w
  cases x4 with
  | reg b c i => exact decS_encS_reg op x0 x1 x2 x3 b c i x5
  | imm i => exact decS_encS_imm op x0 x1 x2 x3 i x5

theorem decHalf_encHalf (cop : BitVec 5) (h : Half) : decHalf (encHalf cop h) = h := by
  obtain ⟨x0, x1, x2, x3, x4⟩ := h
  simp only [decHalf, encHalf, Half.mk.injEq]
  refine ⟨?_, ?_, ?_, ?_, ?_⟩
  all_goals
    repeat (first | rw [BitVec.extractLsb'_append_eq_of_le (by decide)] | rw [BitVec.extractLsb'_append_eq_of_add_le (by decide)])
    exact BitVec.extractLsb'_eq_self

theorem cop_encHalf (cop : BitVec 5) (h : Half) : ((encHalf cop h).extractLsb' 27 5).toNat = cop.toNat := by
  simp only [encHalf]
  repeat rw [BitVec.extractLsb'_append_eq_of_le (by decide)]
  rw [BitVec.extractLsb'_eq_self]

end Sys2Proof.Laws
end

