-- ==== Sys2Proof/Laws/Exec.lean ====
section
/-! SUPPORT. Which meaning each instruction has: the arms of the dispatch as rewriting rules, so that no proof unfolds the dispatch. -/

namespace Sys2Proof.Laws
open Sys2Proof Sys2Proof.Machine

@[simp] theorem exec_sAdd (w : SWord) (s : State) : exec (.sAdd w) s = execSAdd w s := rfl
@[simp] theorem exec_sSub (w : SWord) (s : State) : exec (.sSub w) s = execSSub w s := rfl
@[simp] theorem exec_sMul (w : SWord) (s : State) : exec (.sMul w) s = execSMul w s := rfl
@[simp] theorem exec_sMulh (w : SWord) (s : State) : exec (.sMulh w) s = execSMulh w s := rfl
@[simp] theorem exec_sDiv (w : SWord) (s : State) : exec (.sDiv w) s = execSDiv w s := rfl
@[simp] theorem exec_sRem (w : SWord) (s : State) : exec (.sRem w) s = execSRem w s := rfl
@[simp] theorem exec_sAnd (w : SWord) (s : State) : exec (.sAnd w) s = execSAnd w s := rfl
@[simp] theorem exec_sOr (w : SWord) (s : State) : exec (.sOr w) s = execSOr w s := rfl
@[simp] theorem exec_sXor (w : SWord) (s : State) : exec (.sXor w) s = execSXor w s := rfl
@[simp] theorem exec_sAndn (w : SWord) (s : State) : exec (.sAndn w) s = execSAndn w s := rfl
@[simp] theorem exec_sShl (w : SWord) (s : State) : exec (.sShl w) s = execSShl w s := rfl
@[simp] theorem exec_sShr (w : SWord) (s : State) : exec (.sShr w) s = execSShr w s := rfl
@[simp] theorem exec_sSar (w : SWord) (s : State) : exec (.sSar w) s = execSSar w s := rfl
@[simp] theorem exec_sMin (w : SWord) (s : State) : exec (.sMin w) s = execSMin w s := rfl
@[simp] theorem exec_sMax (w : SWord) (s : State) : exec (.sMax w) s = execSMax w s := rfl
@[simp] theorem exec_sClz (w : SWord) (s : State) : exec (.sClz w) s = execSClz w s := rfl
@[simp] theorem exec_sPopc (w : SWord) (s : State) : exec (.sPopc w) s = execSPopc w s := rfl
@[simp] theorem exec_sBfx (w : SWord) (s : State) : exec (.sBfx w) s = execSBfx w s := rfl
@[simp] theorem exec_sBfi (w : SWord) (s : State) : exec (.sBfi w) s = execSBfi w s := rfl
@[simp] theorem exec_sSxt (w : SWord) (s : State) : exec (.sSxt w) s = execSSxt w s := rfl
@[simp] theorem exec_sZxt (w : SWord) (s : State) : exec (.sZxt w) s = execSZxt w s := rfl
@[simp] theorem exec_sCmp (w : SWord) (s : State) : exec (.sCmp w) s = execSCmp w s := rfl
@[simp] theorem exec_sSel (w : SWord) (s : State) : exec (.sSel w) s = execSSel w s := rfl
@[simp] theorem exec_sMov (w : SWord) (s : State) : exec (.sMov w) s = execSMov w s := rfl
@[simp] theorem exec_sLi (w : SWord) (s : State) : exec (.sLi w) s = execSLi w s := rfl
@[simp] theorem exec_sLih (w : SWord) (s : State) : exec (.sLih w) s = execSLih w s := rfl
@[simp] theorem exec_sLea (w : SWord) (s : State) : exec (.sLea w) s = execSLea w s := rfl
@[simp] theorem exec_sSr (w : SWord) (s : State) : exec (.sSr w) s = execSSr w s := rfl
@[simp] theorem exec_br (w : CWord) (s : State) : exec (.br w) s = execBr w s := rfl
@[simp] theorem exec_bc (w : CWord) (s : State) : exec (.bc w) s = execBc w s := rfl
@[simp] theorem exec_bv (w : CWord) (s : State) : exec (.bv w) s = execBv w s := rfl
@[simp] theorem exec_join (w : CWord) (s : State) : exec (.join w) s = execJoin w s := rfl
@[simp] theorem exec_bx (w : SWord) (s : State) : exec (.bx w) s = execBx w s := rfl
@[simp] theorem exec_bt (w : CWord) (s : State) : exec (.bt w) s = execBt w s := rfl
@[simp] theorem exec_call (w : CWord) (s : State) : exec (.call w) s = execCall w s := rfl
@[simp] theorem exec_callx (w : SWord) (s : State) : exec (.callx w) s = execCallx w s := rfl
@[simp] theorem exec_ret (w : SWord) (s : State) : exec (.ret w) s = execRet w s := rfl
@[simp] theorem exec_loop (w : CWord) (s : State) : exec (.loop w) s = execLoop w s := rfl
@[simp] theorem exec_exit (w : SWord) (s : State) : exec (.exit w) s = execExit w s := rfl
@[simp] theorem exec_spawn (w : VWord) (s : State) : exec (.spawn w) s = execSpawn w s := rfl
@[simp] theorem exec_launch (w : SWord) (s : State) : exec (.launch w) s = execLaunch w s := rfl
@[simp] theorem exec_regroup (w : VWord) (s : State) : exec (.regroup w) s = execRegroup w s := rfl
@[simp] theorem exec_yield (w : SWord) (s : State) : exec (.yield w) s = execYield w s := rfl
@[simp] theorem exec_nap (w : SWord) (s : State) : exec (.nap w) s = execNap w s := rfl
@[simp] theorem exec_ipf (w : CWord) (s : State) : exec (.ipf w) s = execIpf w s := rfl
@[simp] theorem exec_ipin (w : CWord) (s : State) : exec (.ipin w) s = execIpin w s := rfl
@[simp] theorem exec_iunpin (w : CWord) (s : State) : exec (.iunpin w) s = execIunpin w s := rfl
@[simp] theorem exec_vAdd (w : VWord) (s : State) : exec (.vAdd w) s = execVAdd w s := rfl
@[simp] theorem exec_vSub (w : VWord) (s : State) : exec (.vSub w) s = execVSub w s := rfl
@[simp] theorem exec_vMul (w : VWord) (s : State) : exec (.vMul w) s = execVMul w s := rfl
@[simp] theorem exec_vMulh (w : VWord) (s : State) : exec (.vMulh w) s = execVMulh w s := rfl
@[simp] theorem exec_vMad (w : VWord) (s : State) : exec (.vMad w) s = execVMad w s := rfl
@[simp] theorem exec_vAbsd (w : VWord) (s : State) : exec (.vAbsd w) s = execVAbsd w s := rfl
@[simp] theorem exec_vMin (w : VWord) (s : State) : exec (.vMin w) s = execVMin w s := rfl
@[simp] theorem exec_vMax (w : VWord) (s : State) : exec (.vMax w) s = execVMax w s := rfl
@[simp] theorem exec_vAnd (w : VWord) (s : State) : exec (.vAnd w) s = execVAnd w s := rfl
@[simp] theorem exec_vOr (w : VWord) (s : State) : exec (.vOr w) s = execVOr w s := rfl
@[simp] theorem exec_vXor (w : VWord) (s : State) : exec (.vXor w) s = execVXor w s := rfl
@[simp] theorem exec_vAndn (w : VWord) (s : State) : exec (.vAndn w) s = execVAndn w s := rfl
@[simp] theorem exec_vShl (w : VWord) (s : State) : exec (.vShl w) s = execVShl w s := rfl
@[simp] theorem exec_vShr (w : VWord) (s : State) : exec (.vShr w) s = execVShr w s := rfl
@[simp] theorem exec_vSar (w : VWord) (s : State) : exec (.vSar w) s = execVSar w s := rfl
@[simp] theorem exec_vClz (w : VWord) (s : State) : exec (.vClz w) s = execVClz w s := rfl
@[simp] theorem exec_vPopc (w : VWord) (s : State) : exec (.vPopc w) s = execVPopc w s := rfl
@[simp] theorem exec_vBfx (w : VWord) (s : State) : exec (.vBfx w) s = execVBfx w s := rfl
@[simp] theorem exec_vBfi (w : VWord) (s : State) : exec (.vBfi w) s = execVBfi w s := rfl
@[simp] theorem exec_vSel (w : VWord) (s : State) : exec (.vSel w) s = execVSel w s := rfl
@[simp] theorem exec_vCmp (w : VWord) (s : State) : exec (.vCmp w) s = execVCmp w s := rfl
@[simp] theorem exec_vMov (w : VWord) (s : State) : exec (.vMov w) s = execVMov w s := rfl
@[simp] theorem exec_vLi (w : VWord) (s : State) : exec (.vLi w) s = execVLi w s := rfl
@[simp] theorem exec_vFroms (w : VWord) (s : State) : exec (.vFroms w) s = execVFroms w s := rfl
@[simp] theorem exec_vTos (w : VWord) (s : State) : exec (.vTos w) s = execVTos w s := rfl
@[simp] theorem exec_vFadd (w : VWord) (s : State) : exec (.vFadd w) s = execVFadd w s := rfl
@[simp] theorem exec_vFsub (w : VWord) (s : State) : exec (.vFsub w) s = execVFsub w s := rfl
@[simp] theorem exec_vFmul (w : VWord) (s : State) : exec (.vFmul w) s = execVFmul w s := rfl
@[simp] theorem exec_vFma (w : VWord) (s : State) : exec (.vFma w) s = execVFma w s := rfl
@[simp] theorem exec_vFmin (w : VWord) (s : State) : exec (.vFmin w) s = execVFmin w s := rfl
@[simp] theorem exec_vFmax (w : VWord) (s : State) : exec (.vFmax w) s = execVFmax w s := rfl
@[simp] theorem exec_vFcmp (w : VWord) (s : State) : exec (.vFcmp w) s = execVFcmp w s := rfl
@[simp] theorem exec_vFrnd (w : VWord) (s : State) : exec (.vFrnd w) s = execVFrnd w s := rfl
@[simp] theorem exec_vFclass (w : VWord) (s : State) : exec (.vFclass w) s = execVFclass w s := rfl
@[simp] theorem exec_vFdot2 (w : VWord) (s : State) : exec (.vFdot2 w) s = execVFdot2 w s := rfl
@[simp] theorem exec_vCvt (w : VWord) (s : State) : exec (.vCvt w) s = execVCvt w s := rfl
@[simp] theorem exec_vQuant (w : VWord) (s : State) : exec (.vQuant w) s = execVQuant w s := rfl
@[simp] theorem exec_vDequant (w : VWord) (s : State) : exec (.vDequant w) s = execVDequant w s := rfl
@[simp] theorem exec_vPack (w : VWord) (s : State) : exec (.vPack w) s = execVPack w s := rfl
@[simp] theorem exec_vUnpack (w : VWord) (s : State) : exec (.vUnpack w) s = execVUnpack w s := rfl
@[simp] theorem exec_vRcp (w : VWord) (s : State) : exec (.vRcp w) s = execVRcp w s := rfl
@[simp] theorem exec_vRsq (w : VWord) (s : State) : exec (.vRsq w) s = execVRsq w s := rfl
@[simp] theorem exec_vSqrt (w : VWord) (s : State) : exec (.vSqrt w) s = execVSqrt w s := rfl
@[simp] theorem exec_vExp2 (w : VWord) (s : State) : exec (.vExp2 w) s = execVExp2 w s := rfl
@[simp] theorem exec_vLog2 (w : VWord) (s : State) : exec (.vLog2 w) s = execVLog2 w s := rfl
@[simp] theorem exec_vSin (w : VWord) (s : State) : exec (.vSin w) s = execVSin w s := rfl
@[simp] theorem exec_vCos (w : VWord) (s : State) : exec (.vCos w) s = execVCos w s := rfl
@[simp] theorem exec_vAct (w : VWord) (s : State) : exec (.vAct w) s = execVAct w s := rfl
@[simp] theorem exec_xShf (w : VWord) (s : State) : exec (.xShf w) s = execXShf w s := rfl
@[simp] theorem exec_xBfly (w : VWord) (s : State) : exec (.xBfly w) s = execXBfly w s := rfl
@[simp] theorem exec_xBcast (w : VWord) (s : State) : exec (.xBcast w) s = execXBcast w s := rfl
@[simp] theorem exec_xScan (w : VWord) (s : State) : exec (.xScan w) s = execXScan w s := rfl
@[simp] theorem exec_xRed (w : VWord) (s : State) : exec (.xRed w) s = execXRed w s := rfl
@[simp] theorem exec_xCompact (w : VWord) (s : State) : exec (.xCompact w) s = execXCompact w s := rfl
@[simp] theorem exec_voteAny (w : VWord) (s : State) : exec (.voteAny w) s = execVoteAny w s := rfl
@[simp] theorem exec_voteAll (w : VWord) (s : State) : exec (.voteAll w) s = execVoteAll w s := rfl
@[simp] theorem exec_voteBal (w : VWord) (s : State) : exec (.voteBal w) s = execVoteBal w s := rfl
@[simp] theorem exec_mAnd (w : VWord) (s : State) : exec (.mAnd w) s = execMAnd w s := rfl
@[simp] theorem exec_mOr (w : VWord) (s : State) : exec (.mOr w) s = execMOr w s := rfl
@[simp] theorem exec_mXor (w : VWord) (s : State) : exec (.mXor w) s = execMXor w s := rfl
@[simp] theorem exec_mAndn (w : VWord) (s : State) : exec (.mAndn w) s = execMAndn w s := rfl
@[simp] theorem exec_mPopc (w : VWord) (s : State) : exec (.mPopc w) s = execMPopc w s := rfl
@[simp] theorem exec_mFfs (w : VWord) (s : State) : exec (.mFfs w) s = execMFfs w s := rfl
@[simp] theorem exec_mSet (w : VWord) (s : State) : exec (.mSet w) s = execMSet w s := rfl
@[simp] theorem exec_ldG (w : MWord) (s : State) : exec (.ldG w) s = execLdG w s := rfl
@[simp] theorem exec_stG (w : MWord) (s : State) : exec (.stG w) s = execStG w s := rfl
@[simp] theorem exec_ldS (w : MWord) (s : State) : exec (.ldS w) s = execLdS w s := rfl
@[simp] theorem exec_stS (w : MWord) (s : State) : exec (.stS w) s = execStS w s := rfl
@[simp] theorem exec_ldL (w : MWord) (s : State) : exec (.ldL w) s = execLdL w s := rfl
@[simp] theorem exec_stL (w : MWord) (s : State) : exec (.stL w) s = execStL w s := rfl
@[simp] theorem exec_ldX (w : MWord) (s : State) : exec (.ldX w) s = execLdX w s := rfl
@[simp] theorem exec_atAdd (w : VWord) (s : State) : exec (.atAdd w) s = execAtAdd w s := rfl
@[simp] theorem exec_atSub (w : VWord) (s : State) : exec (.atSub w) s = execAtSub w s := rfl
@[simp] theorem exec_atMin (w : VWord) (s : State) : exec (.atMin w) s = execAtMin w s := rfl
@[simp] theorem exec_atMax (w : VWord) (s : State) : exec (.atMax w) s = execAtMax w s := rfl
@[simp] theorem exec_atAnd (w : VWord) (s : State) : exec (.atAnd w) s = execAtAnd w s := rfl
@[simp] theorem exec_atOr (w : VWord) (s : State) : exec (.atOr w) s = execAtOr w s := rfl
@[simp] theorem exec_atXor (w : VWord) (s : State) : exec (.atXor w) s = execAtXor w s := rfl
@[simp] theorem exec_atXchg (w : VWord) (s : State) : exec (.atXchg w) s = execAtXchg w s := rfl
@[simp] theorem exec_atCas (w : VWord) (s : State) : exec (.atCas w) s = execAtCas w s := rfl
@[simp] theorem exec_atCas2 (w : VWord) (s : State) : exec (.atCas2 w) s = execAtCas2 w s := rfl
@[simp] theorem exec_atFadd (w : VWord) (s : State) : exec (.atFadd w) s = execAtFadd w s := rfl
@[simp] theorem exec_fence (w : SWord) (s : State) : exec (.fence w) s = execFence w s := rfl
@[simp] theorem exec_barInit (w : SWord) (s : State) : exec (.barInit w) s = execBarInit w s := rfl
@[simp] theorem exec_barArv (w : SWord) (s : State) : exec (.barArv w) s = execBarArv w s := rfl
@[simp] theorem exec_barWait (w : SWord) (s : State) : exec (.barWait w) s = execBarWait w s := rfl
@[simp] theorem exec_barSync (w : SWord) (s : State) : exec (.barSync w) s = execBarSync w s := rfl
@[simp] theorem exec_cbar (w : SWord) (s : State) : exec (.cbar w) s = execCbar w s := rfl
@[simp] theorem exec_lrInit (w : SWord) (s : State) : exec (.lrInit w) s = execLrInit w s := rfl
@[simp] theorem exec_lrAwait (w : SWord) (s : State) : exec (.lrAwait w) s = execLrAwait w s := rfl
@[simp] theorem exec_lrRel (w : SWord) (s : State) : exec (.lrRel w) s = execLrRel w s := rfl
@[simp] theorem exec_lrFill (w : SWord) (s : State) : exec (.lrFill w) s = execLrFill w s := rfl
@[simp] theorem exec_lrFillPut (w : SWord) (s : State) : exec (.lrFillPut w) s = execLrFillPut w s := rfl
@[simp] theorem exec_cpIn (w : SWord) (s : State) : exec (.cpIn w) s = execCpIn w s := rfl
@[simp] theorem exec_cpOut (w : SWord) (s : State) : exec (.cpOut w) s = execCpOut w s := rfl
@[simp] theorem exec_cpG (w : SWord) (s : State) : exec (.cpG w) s = execCpG w s := rfl
@[simp] theorem exec_cpHalo (w : SWord) (s : State) : exec (.cpHalo w) s = execCpHalo w s := rfl
@[simp] theorem exec_cpMc (w : SWord) (s : State) : exec (.cpMc w) s = execCpMc w s := rfl
@[simp] theorem exec_ccPrf (w : SWord) (s : State) : exec (.ccPrf w) s = execCcPrf w s := rfl
@[simp] theorem exec_ccWb (w : SWord) (s : State) : exec (.ccWb w) s = execCcWb w s := rfl
@[simp] theorem exec_ccInv (w : SWord) (s : State) : exec (.ccInv w) s = execCcInv w s := rfl
@[simp] theorem exec_ccWays (w : SWord) (s : State) : exec (.ccWays w) s = execCcWays w s := rfl
@[simp] theorem exec_mxMma (w : XWord) (s : State) : exec (.mxMma w) s = execMxMma w s := rfl
@[simp] theorem exec_mxMmaf (w : XWord) (s : State) : exec (.mxMmaf w) s = execMxMmaf w s := rfl
@[simp] theorem exec_mxZero (w : XWord) (s : State) : exec (.mxZero w) s = execMxZero w s := rfl
@[simp] theorem exec_mxLd (w : XWord) (s : State) : exec (.mxLd w) s = execMxLd w s := rfl
@[simp] theorem exec_mxSt (w : XWord) (s : State) : exec (.mxSt w) s = execMxSt w s := rfl
@[simp] theorem exec_mxWait (w : XWord) (s : State) : exec (.mxWait w) s = execMxWait w s := rfl
@[simp] theorem exec_mxRel (w : XWord) (s : State) : exec (.mxRel w) s = execMxRel w s := rfl
@[simp] theorem exec_plTake (w : XWord) (s : State) : exec (.plTake w) s = execPlTake w s := rfl
@[simp] theorem exec_plPass (w : XWord) (s : State) : exec (.plPass w) s = execPlPass w s := rfl
@[simp] theorem exec_plPassFree (w : XWord) (s : State) : exec (.plPassFree w) s = execPlPassFree w s := rfl
@[simp] theorem exec_spOpen (w : SWord) (s : State) : exec (.spOpen w) s = execSpOpen w s := rfl
@[simp] theorem exec_spKeep (w : SWord) (s : State) : exec (.spKeep w) s = execSpKeep w s := rfl
@[simp] theorem exec_spDrop (w : SWord) (s : State) : exec (.spDrop w) s = execSpDrop w s := rfl
@[simp] theorem exec_fbSet (w : SWord) (s : State) : exec (.fbSet w) s = execFbSet w s := rfl
@[simp] theorem exec_fbTab (w : VWord) (s : State) : exec (.fbTab w) s = execFbTab w s := rfl
@[simp] theorem exec_fbTabSet (w : VWord) (s : State) : exec (.fbTabSet w) s = execFbTabSet w s := rfl
@[simp] theorem exec_ebSend (w : SWord) (s : State) : exec (.ebSend w) s = execEbSend w s := rfl
@[simp] theorem exec_paOpen (w : SWord) (s : State) : exec (.paOpen w) s = execPaOpen w s := rfl
@[simp] theorem exec_paOpenRp (w : SWord) (s : State) : exec (.paOpenRp w) s = execPaOpenRp w s := rfl
@[simp] theorem exec_paClose (w : SWord) (s : State) : exec (.paClose w) s = execPaClose w s := rfl
@[simp] theorem exec_acGet (w : SWord) (s : State) : exec (.acGet w) s = execAcGet w s := rfl
@[simp] theorem exec_acWait (w : SWord) (s : State) : exec (.acWait w) s = execAcWait w s := rfl
@[simp] theorem exec_wvCommit (w : SWord) (s : State) : exec (.wvCommit w) s = execWvCommit w s := rfl
@[simp] theorem exec_rngDraw (w : VWord) (s : State) : exec (.rngDraw w) s = execRngDraw w s := rfl
@[simp] theorem exec_twXin (w : TWord) (s : State) : exec (.twXin w) s = execTwXin w s := rfl
@[simp] theorem exec_twXout (w : TWord) (s : State) : exec (.twXout w) s = execTwXout w s := rfl
@[simp] theorem exec_twRun (w : TWord) (s : State) : exec (.twRun w) s = execTwRun w s := rfl
@[simp] theorem exec_twWait (w : TWord) (s : State) : exec (.twWait w) s = execTwWait w s := rfl
@[simp] theorem exec_farAdd (w : VWord) (s : State) : exec (.farAdd w) s = execFarAdd w s := rfl
@[simp] theorem exec_farFence (w : TWord) (s : State) : exec (.farFence w) s = execFarFence w s := rfl
@[simp] theorem exec_caneVAdd (c : CaneCmd) (s : State) : exec (.caneVAdd c) s = execCaneVAdd c s := rfl
@[simp] theorem exec_caneVSub (c : CaneCmd) (s : State) : exec (.caneVSub c) s = execCaneVSub c s := rfl
@[simp] theorem exec_caneVMul (c : CaneCmd) (s : State) : exec (.caneVMul c) s = execCaneVMul c s := rfl
@[simp] theorem exec_caneVMad (c : CaneCmd) (s : State) : exec (.caneVMad c) s = execCaneVMad c s := rfl
@[simp] theorem exec_caneVMin (c : CaneCmd) (s : State) : exec (.caneVMin c) s = execCaneVMin c s := rfl
@[simp] theorem exec_caneVMax (c : CaneCmd) (s : State) : exec (.caneVMax c) s = execCaneVMax c s := rfl
@[simp] theorem exec_caneVAnd (c : CaneCmd) (s : State) : exec (.caneVAnd c) s = execCaneVAnd c s := rfl
@[simp] theorem exec_caneVOr (c : CaneCmd) (s : State) : exec (.caneVOr c) s = execCaneVOr c s := rfl
@[simp] theorem exec_caneVXor (c : CaneCmd) (s : State) : exec (.caneVXor c) s = execCaneVXor c s := rfl
@[simp] theorem exec_caneVAndn (c : CaneCmd) (s : State) : exec (.caneVAndn c) s = execCaneVAndn c s := rfl
@[simp] theorem exec_caneVShl (c : CaneCmd) (s : State) : exec (.caneVShl c) s = execCaneVShl c s := rfl
@[simp] theorem exec_caneVShr (c : CaneCmd) (s : State) : exec (.caneVShr c) s = execCaneVShr c s := rfl
@[simp] theorem exec_caneVSar (c : CaneCmd) (s : State) : exec (.caneVSar c) s = execCaneVSar c s := rfl
@[simp] theorem exec_caneVCmp (c : CaneCmd) (s : State) : exec (.caneVCmp c) s = execCaneVCmp c s := rfl
@[simp] theorem exec_caneVMov (c : CaneCmd) (s : State) : exec (.caneVMov c) s = execCaneVMov c s := rfl
@[simp] theorem exec_caneVLi (c : CaneCmd) (s : State) : exec (.caneVLi c) s = execCaneVLi c s := rfl
@[simp] theorem exec_cPush (c : CaneCmd) (s : State) : exec (.cPush c) s = execCPush c s := rfl
@[simp] theorem exec_cElse (c : CaneCmd) (s : State) : exec (.cElse c) s = execCElse c s := rfl
@[simp] theorem exec_cPop (c : CaneCmd) (s : State) : exec (.cPop c) s = execCPop c s := rfl
@[simp] theorem exec_cBfa (c : CaneCmd) (s : State) : exec (.cBfa c) s = execCBfa c s := rfl
@[simp] theorem exec_netSend (w : NWord) (s : State) : exec (.netSend w) s = execNetSend w s := rfl
@[simp] theorem exec_netGet (w : NWord) (s : State) : exec (.netGet w) s = execNetGet w s := rfl
@[simp] theorem exec_netArm (w : NWord) (s : State) : exec (.netArm w) s = execNetArm w s := rfl
@[simp] theorem exec_cntInit (w : NWord) (s : State) : exec (.cntInit w) s = execCntInit w s := rfl
@[simp] theorem exec_cntWait (w : NWord) (s : State) : exec (.cntWait w) s = execCntWait w s := rfl
@[simp] theorem exec_cntGet (w : NWord) (s : State) : exec (.cntGet w) s = execCntGet w s := rfl
@[simp] theorem exec_collStep (w : NWord) (s : State) : exec (.collStep w) s = execCollStep w s := rfl
@[simp] theorem exec_trap (w : YWord) (s : State) : exec (.trap w) s = execTrap w s := rfl
@[simp] theorem exec_rte (w : YWord) (s : State) : exec (.rte w) s = execRte w s := rfl
@[simp] theorem exec_sysGet (w : YWord) (s : State) : exec (.sysGet w) s = execSysGet w s := rfl
@[simp] theorem exec_sysSet (w : YWord) (s : State) : exec (.sysSet w) s = execSysSet w s := rfl
@[simp] theorem exec_bkpt (w : YWord) (s : State) : exec (.bkpt w) s = execBkpt w s := rfl
@[simp] theorem exec_prio (w : YWord) (s : State) : exec (.prio w) s = execPrio w s := rfl
@[simp] theorem exec_nop (w : YWord) (s : State) : exec (.nop w) s = execNop w s := rfl
@[simp] theorem exec_halt (w : YWord) (s : State) : exec (.halt w) s = execHalt w s := rfl
@[simp] theorem exec_pairVAdd (h : Half) (s : State) : exec (.pairVAdd h) s = execPairVAdd h s := rfl
@[simp] theorem exec_pairVSub (h : Half) (s : State) : exec (.pairVSub h) s = execPairVSub h s := rfl
@[simp] theorem exec_pairVMul (h : Half) (s : State) : exec (.pairVMul h) s = execPairVMul h s := rfl
@[simp] theorem exec_pairVMulh (h : Half) (s : State) : exec (.pairVMulh h) s = execPairVMulh h s := rfl
@[simp] theorem exec_pairVAbsd (h : Half) (s : State) : exec (.pairVAbsd h) s = execPairVAbsd h s := rfl
@[simp] theorem exec_pairVMin (h : Half) (s : State) : exec (.pairVMin h) s = execPairVMin h s := rfl
@[simp] theorem exec_pairVMax (h : Half) (s : State) : exec (.pairVMax h) s = execPairVMax h s := rfl
@[simp] theorem exec_pairVAnd (h : Half) (s : State) : exec (.pairVAnd h) s = execPairVAnd h s := rfl
@[simp] theorem exec_pairVOr (h : Half) (s : State) : exec (.pairVOr h) s = execPairVOr h s := rfl
@[simp] theorem exec_pairVXor (h : Half) (s : State) : exec (.pairVXor h) s = execPairVXor h s := rfl
@[simp] theorem exec_pairVAndn (h : Half) (s : State) : exec (.pairVAndn h) s = execPairVAndn h s := rfl
@[simp] theorem exec_pairVShl (h : Half) (s : State) : exec (.pairVShl h) s = execPairVShl h s := rfl
@[simp] theorem exec_pairVShr (h : Half) (s : State) : exec (.pairVShr h) s = execPairVShr h s := rfl
@[simp] theorem exec_pairVSar (h : Half) (s : State) : exec (.pairVSar h) s = execPairVSar h s := rfl
@[simp] theorem exec_pairVMov (h : Half) (s : State) : exec (.pairVMov h) s = execPairVMov h s := rfl
@[simp] theorem exec_pairVClz (h : Half) (s : State) : exec (.pairVClz h) s = execPairVClz h s := rfl
@[simp] theorem exec_pairVPopc (h : Half) (s : State) : exec (.pairVPopc h) s = execPairVPopc h s := rfl
@[simp] theorem exec_pairVFadd (h : Half) (s : State) : exec (.pairVFadd h) s = execPairVFadd h s := rfl
@[simp] theorem exec_pairVFsub (h : Half) (s : State) : exec (.pairVFsub h) s = execPairVFsub h s := rfl
@[simp] theorem exec_pairVFmul (h : Half) (s : State) : exec (.pairVFmul h) s = execPairVFmul h s := rfl
@[simp] theorem exec_pairVFmin (h : Half) (s : State) : exec (.pairVFmin h) s = execPairVFmin h s := rfl
@[simp] theorem exec_pairVFmax (h : Half) (s : State) : exec (.pairVFmax h) s = execPairVFmax h s := rfl
@[simp] theorem exec_pairVFrnd (h : Half) (s : State) : exec (.pairVFrnd h) s = execPairVFrnd h s := rfl
@[simp] theorem exec_pairVFclass (h : Half) (s : State) : exec (.pairVFclass h) s = execPairVFclass h s := rfl
@[simp] theorem exec_atinv (w : YWord) (s : State) : exec (.atinv w) s = execAtinv w s := rfl
@[simp] theorem exec_accessTableInvalidationDone  (s : State) : exec (.accessTableInvalidationDone) s = execAccessTableInvalidationDone  s := rfl
@[simp] theorem exec_wake (w : YWord) (s : State) : exec (.wake w) s = execWake w s := rfl
@[simp] theorem exec_launchRecordCheck (ctx queue : Nat) (s : State) : exec (.launchRecordCheck ctx queue) s = execLaunchRecordCheck ctx queue s := rfl
@[simp] theorem exec_gridStart (ctx queue : Nat) (s : State) : exec (.gridStart ctx queue) s = execGridStart ctx queue s := rfl
@[simp] theorem exec_clusterPlacement (pick : Nat) (s : State) : exec (.clusterPlacement pick) s = execClusterPlacement pick s := rfl
@[simp] theorem exec_taskGroupFormation (ctx grid core : Nat) (s : State) : exec (.taskGroupFormation ctx grid core) s = execTaskGroupFormation ctx grid core s := rfl
@[simp] theorem exec_gatherWindowExpiry (ctx grid core : Nat) (s : State) : exec (.gatherWindowExpiry ctx grid core) s = execGatherWindowExpiry ctx grid core s := rfl
@[simp] theorem exec_taskGroupPlacement (core pick : Nat) (s : State) : exec (.taskGroupPlacement core pick) s = execTaskGroupPlacement core pick s := rfl
@[simp] theorem exec_taskSteal (ctx core : Nat) (s : State) : exec (.taskSteal ctx core) s = execTaskSteal ctx core s := rfl
@[simp] theorem exec_candidatePick (core part : Nat) (s : State) : exec (.candidatePick core part) s = execCandidatePick core part s := rfl
@[simp] theorem exec_icacheFill (gid : Nat) (slotB : Bool) (s : State) : exec (.icacheFill gid slotB) s = execIcacheFill gid slotB s := rfl
@[simp] theorem exec_spinFloorTimeout (gid : Nat) (slotB : Bool) (s : State) : exec (.spinFloorTimeout gid slotB) s = execSpinFloorTimeout gid slotB s := rfl
@[simp] theorem exec_loadResultWrite (id : Nat) (replaced : Bool) (s : State) : exec (.loadResultWrite id replaced) s = execLoadResultWrite id replaced s := rfl
@[simp] theorem exec_wcbTimeout (id : Nat) (s : State) : exec (.wcbTimeout id) s = execWcbTimeout id s := rfl
@[simp] theorem exec_homeStorePerform (id : Nat) (s : State) : exec (.homeStorePerform id) s = execHomeStorePerform id s := rfl
@[simp] theorem exec_l1RecallReceive (id : Nat) (s : State) : exec (.l1RecallReceive id) s = execL1RecallReceive id s := rfl
@[simp] theorem exec_recallBeat (die : Nat) (s : State) : exec (.recallBeat die) s = execRecallBeat die s := rfl
@[simp] theorem exec_beatReceive (core die : Nat) (s : State) : exec (.beatReceive core die) s = execBeatReceive core die s := rfl
@[simp] theorem exec_beatTimeout (core die : Nat) (s : State) : exec (.beatTimeout core die) s = execBeatTimeout core die s := rfl
@[simp] theorem exec_homeAtomicPerform (id : Nat) (s : State) : exec (.homeAtomicPerform id) s = execHomeAtomicPerform id s := rfl
@[simp] theorem exec_l2Fill (id : Nat) (bad : Bool) (s : State) : exec (.l2Fill id bad) s = execL2Fill id bad s := rfl
@[simp] theorem exec_towerWriteAck (id : Nat) (s : State) : exec (.towerWriteAck id) s = execTowerWriteAck id s := rfl
@[simp] theorem exec_farAtomicAtHome (id : Nat) (s : State) : exec (.farAtomicAtHome id) s = execFarAtomicAtHome id s := rfl
@[simp] theorem exec_farAtomicTowerCheck (id : Nat) (s : State) : exec (.farAtomicTowerCheck id) s = execFarAtomicTowerCheck id s := rfl
@[simp] theorem exec_farAtomicAnswer (id : Nat) (s : State) : exec (.farAtomicAnswer id) s = execFarAtomicAnswer id s := rfl
@[simp] theorem exec_farAtomicApply (id : Nat) (s : State) : exec (.farAtomicApply id) s = execFarAtomicApply id s := rfl
@[simp] theorem exec_pageWalkComplete (id : Nat) (s : State) : exec (.pageWalkComplete id) s = execPageWalkComplete id s := rfl
@[simp] theorem exec_sfuResultWrite (id : Nat) (s : State) : exec (.sfuResultWrite id) s = execSfuResultWrite id s := rfl
@[simp] theorem exec_fusionWindowTimeout (id : Nat) (s : State) : exec (.fusionWindowTimeout id) s = execFusionWindowTimeout id s := rfl
@[simp] theorem exec_matrixPassStart (id : Nat) (s : State) : exec (.matrixPassStart id) s = execMatrixPassStart id s := rfl
@[simp] theorem exec_matrixPassWriteback (id : Nat) (s : State) : exec (.matrixPassWriteback id) s = execMatrixPassWriteback id s := rfl
@[simp] theorem exec_tileTransferComplete (id : Nat) (s : State) : exec (.tileTransferComplete id) s = execTileTransferComplete id s := rfl
@[simp] theorem exec_copyComplete (run : CopyRun) (s : State) : exec (.copyComplete run) s = execCopyComplete run s := rfl
@[simp] theorem exec_copyFault (id : Nat) (s : State) : exec (.copyFault id) s = execCopyFault id s := rfl
@[simp] theorem exec_haloSourceRead (run : CopyRun) (s : State) : exec (.haloSourceRead run) s = execHaloSourceRead run s := rfl
@[simp] theorem exec_cpMcDelivery (run : CopyRun) (team : Nat) (s : State) : exec (.cpMcDelivery run team) s = execCpMcDelivery run team s := rfl
@[simp] theorem exec_regroupPair (g h : Nat) (s : State) : exec (.regroupPair g h) s = execRegroupPair g h s := rfl
@[simp] theorem exec_napTimeout (gid : Nat) (slotB : Bool) (s : State) : exec (.napTimeout gid slotB) s = execNapTimeout gid slotB s := rfl
@[simp] theorem exec_serviceEventSignal (gid : Nat) (s : State) : exec (.serviceEventSignal gid) s = execServiceEventSignal gid s := rfl
@[simp] theorem exec_groupRetire (gid : Nat) (s : State) : exec (.groupRetire gid) s = execGroupRetire gid s := rfl
@[simp] theorem exec_taskCounterAdd (id : Nat) (s : State) : exec (.taskCounterAdd id) s = execTaskCounterAdd id s := rfl
@[simp] theorem exec_gridDoneAdd (ctx grid : Nat) (s : State) : exec (.gridDoneAdd ctx grid) s = execGridDoneAdd ctx grid s := rfl
@[simp] theorem exec_towerBlockComplete (id : Nat) (s : State) : exec (.towerBlockComplete id) s = execTowerBlockComplete id s := rfl
@[simp] theorem exec_towerScrub (tower : Nat) (bad : Option (Nat × Nat)) (s : State) : exec (.towerScrub tower bad) s = execTowerScrub tower bad s := rfl
@[simp] theorem exec_towerCaneSwitch (tower pair : Nat) (s : State) : exec (.towerCaneSwitch tower pair) s = execTowerCaneSwitch tower pair s := rfl
@[simp] theorem exec_netReceive (m : NetMsg) (s : State) : exec (.netReceive m) s = execNetReceive m s := rfl
@[simp] theorem exec_receiveCounterIncrement (id : Nat) (s : State) : exec (.receiveCounterIncrement id) s = execReceiveCounterIncrement id s := rfl
@[simp] theorem exec_netGetLand (id : Nat) (data : List Byte) (s : State) : exec (.netGetLand id data) s = execNetGetLand id data s := rfl
@[simp] theorem exec_errorArrival (id : Nat) (s : State) : exec (.errorArrival id) s = execErrorArrival id s := rfl
@[simp] theorem exec_stationOperation (id : Nat) (s : State) : exec (.stationOperation id) s = execStationOperation id s := rfl
@[simp] theorem exec_collChunkFireAtRetire (team : Nat) (s : State) : exec (.collChunkFireAtRetire team) s = execCollChunkFireAtRetire team s := rfl
@[simp] theorem exec_collResultLand (team : Nat) (msg : List Byte) (s : State) : exec (.collResultLand team msg) s = execCollResultLand team msg s := rfl
@[simp] theorem exec_collAbortReceive (team : Nat) (msg : List Byte) (s : State) : exec (.collAbortReceive team msg) s = execCollAbortReceive team msg s := rfl
@[simp] theorem exec_holdSend (ctx : Nat) (s : State) : exec (.holdSend ctx) s = execHoldSend ctx s := rfl
@[simp] theorem exec_reductionMessageDrop (hdr : List Byte) (s : State) : exec (.reductionMessageDrop hdr) s = execReductionMessageDrop hdr s := rfl
@[simp] theorem exec_unsupportedPacketDrop (port : Nat) (s : State) : exec (.unsupportedPacketDrop port) s = execUnsupportedPacketDrop port s := rfl
@[simp] theorem exec_portLinkDrop (port : Nat) (s : State) : exec (.portLinkDrop port) s = execPortLinkDrop port s := rfl
@[simp] theorem exec_portRetryTimeout (port : Nat) (s : State) : exec (.portRetryTimeout port) s = execPortRetryTimeout port s := rfl
@[simp] theorem exec_portRetrain (port : Nat) (s : State) : exec (.portRetrain port) s = execPortRetrain port s := rfl
@[simp] theorem exec_destinationUnreachable (id : Nat) (failed : Option Nat) (s : State) : exec (.destinationUnreachable id failed) s = execDestinationUnreachable id failed s := rfl
@[simp] theorem exec_preemptSave (ctx : Nat) (s : State) : exec (.preemptSave ctx) s = execPreemptSave ctx s := rfl
@[simp] theorem exec_watchdogExpiry (ctx : Nat) (s : State) : exec (.watchdogExpiry ctx) s = execWatchdogExpiry ctx s := rfl
@[simp] theorem exec_externalWaitTimeout (gid : Nat) (slotB : Bool) (s : State) : exec (.externalWaitTimeout gid slotB) s = execExternalWaitTimeout gid slotB s := rfl
@[simp] theorem exec_culletSwap (u : CulletUnit) (s : State) : exec (.culletSwap u) s = execCulletSwap u s := rfl
@[simp] theorem exec_timeSyncLoss (die : Nat) (s : State) : exec (.timeSyncLoss die) s = execTimeSyncLoss die s := rfl
@[simp] theorem exec_sensorSample (readings : List Nat) (s : State) : exec (.sensorSample readings) s = execSensorSample readings s := rfl
@[simp] theorem exec_powerGood (refetched : List Byte) (s : State) : exec (.powerGood refetched) s = execPowerGood refetched s := rfl
@[simp] theorem exec_functionReady (entry : Nat) (s : State) : exec (.functionReady entry) s = execFunctionReady entry s := rfl
@[simp] theorem exec_powerOff  (s : State) : exec (.powerOff) s = execPowerOff  s := rfl
@[simp] theorem exec_firmwareStage (image : List Byte) (cmd : StageCmd) (s : State) : exec (.firmwareStage image cmd) s = execFirmwareStage image cmd s := rfl
@[simp] theorem exec_firmwareCommit (cmd : CommitCmd) (s : State) : exec (.firmwareCommit cmd) s = execFirmwareCommit cmd s := rfl
@[simp] theorem exec_operatorKeyWrite (key : Nat) (viaLink : Bool) (sig : Nat) (s : State) : exec (.operatorKeyWrite key viaLink sig) s = execOperatorKeyWrite key viaLink sig s := rfl
@[simp] theorem exec_jobSetup (msg : List Byte) (s : State) : exec (.jobSetup msg) s = execJobSetup msg s := rfl
@[simp] theorem exec_contextCreate (msg : List Byte) (s : State) : exec (.contextCreate msg) s = execContextCreate msg s := rfl
@[simp] theorem exec_contextDestroy (msg : List Byte) (s : State) : exec (.contextDestroy msg) s = execContextDestroy msg s := rfl
@[simp] theorem exec_caneGrant (msg : List Byte) (s : State) : exec (.caneGrant msg) s = execCaneGrant msg s := rfl
@[simp] theorem exec_caneReturn (msg : List Byte) (s : State) : exec (.caneReturn msg) s = execCaneReturn msg s := rfl
@[simp] theorem exec_memoryMap (msg : List Byte) (s : State) : exec (.memoryMap msg) s = execMemoryMap msg s := rfl
@[simp] theorem exec_memoryUnmap (msg : List Byte) (s : State) : exec (.memoryUnmap msg) s = execMemoryUnmap msg s := rfl
@[simp] theorem exec_memoryWrite (msg : List Byte) (s : State) : exec (.memoryWrite msg) s = execMemoryWrite msg s := rfl
@[simp] theorem exec_memoryRead (msg : List Byte) (s : State) : exec (.memoryRead msg) s = execMemoryRead msg s := rfl
@[simp] theorem exec_launchQueueWrite (msg : List Byte) (s : State) : exec (.launchQueueWrite msg) s = execLaunchQueueWrite msg s := rfl
@[simp] theorem exec_treeCreate (msg : List Byte) (s : State) : exec (.treeCreate msg) s = execTreeCreate msg s := rfl
@[simp] theorem exec_treeFree (msg : List Byte) (s : State) : exec (.treeFree msg) s = execTreeFree msg s := rfl
@[simp] theorem exec_preEmpt (msg : List Byte) (s : State) : exec (.preEmpt msg) s = execPreEmpt msg s := rfl
@[simp] theorem exec_resume (msg : List Byte) (s : State) : exec (.resume msg) s = execResume msg s := rfl
@[simp] theorem exec_telemetry (msg : List Byte) (s : State) : exec (.telemetry msg) s = execTelemetry msg s := rfl
@[simp] theorem exec_attest (msg : List Byte) (s : State) : exec (.attest msg) s = execAttest msg s := rfl
@[simp] theorem exec_power (msg : List Byte) (s : State) : exec (.power msg) s = execPower msg s := rfl
@[simp] theorem exec_breakpointResume (msg : List Byte) (s : State) : exec (.breakpointResume msg) s = execBreakpointResume msg s := rfl
@[simp] theorem exec_completionTimePassed  (s : State) : exec (.completionTimePassed) s = execCompletionTimePassed  s := rfl
@[simp] theorem exec_remoteGetRequest (m : GetReq) (s : State) : exec (.remoteGetRequest m) s = execRemoteGetRequest m s := rfl
@[simp] theorem exec_cxlWriteAck (id : Nat) (s : State) : exec (.cxlWriteAck id) s = execCxlWriteAck id s := rfl
@[simp] theorem exec_remoteSendSourceRelease (id : Nat) (s : State) : exec (.remoteSendSourceRelease id) s = execRemoteSendSourceRelease id s := rfl
@[simp] theorem exec_remoteStoreAck (id : Nat) (s : State) : exec (.remoteStoreAck id) s = execRemoteStoreAck id s := rfl
@[simp] theorem exec_malformedServiceMessage (msg : List Byte) (s : State) : exec (.malformedServiceMessage msg) s = execMalformedServiceMessage msg s := rfl

end Sys2Proof.Laws
end

