-- ==== Sys2Proof/Laws/State.lean ====
section
/-! SUPPORT. What each named update of the state and of a group leaves alone: one lemma per field per update, so that no proof
unfolds a record update. -/

namespace Sys2Proof.Laws
open Sys2Proof.Machine

/-! `putG` changes groups alone. -/

@[simp] theorem putG_time (s : State) (g : Group) : (putG s g).time = s.time := rfl
@[simp] theorem putG_turns (s : State) (g : Group) : (putG s g).turns = s.turns := rfl
@[simp] theorem putG_focus (s : State) (g : Group) : (putG s g).focus = s.focus := rfl
@[simp] theorem putG_nextId (s : State) (g : Group) : (putG s g).nextId = s.nextId := rfl
@[simp] theorem putG_freeCount (s : State) (g : Group) : (putG s g).freeCount = s.freeCount := rfl
@[simp] theorem putG_power (s : State) (g : Group) : (putG s g).power = s.power := rfl
@[simp] theorem putG_cap (s : State) (g : Group) : (putG s g).cap = s.cap := rfl
@[simp] theorem putG_throttle (s : State) (g : Group) : (putG s g).throttle = s.throttle := rfl
@[simp] theorem putG_status (s : State) (g : Group) : (putG s g).status = s.status := rfl
@[simp] theorem putG_corr (s : State) (g : Group) : (putG s g).corr = s.corr := rfl
@[simp] theorem putG_dropPackets (s : State) (g : Group) : (putG s g).dropPackets = s.dropPackets := rfl
@[simp] theorem putG_dropReductions (s : State) (g : Group) : (putG s g).dropReductions = s.dropReductions := rfl
@[simp] theorem putG_log (s : State) (g : Group) : (putG s g).log = s.log := rfl
@[simp] theorem putG_sensors (s : State) (g : Group) : (putG s g).sensors = s.sensors := rfl
@[simp] theorem putG_sampled (s : State) (g : Group) : (putG s g).sampled = s.sampled := rfl
@[simp] theorem putG_firmware (s : State) (g : Group) : (putG s g).firmware = s.firmware := rfl
@[simp] theorem putG_operatorKey (s : State) (g : Group) : (putG s g).operatorKey = s.operatorKey := rfl
@[simp] theorem putG_jobs (s : State) (g : Group) : (putG s g).jobs = s.jobs := rfl
@[simp] theorem putG_trees (s : State) (g : Group) : (putG s g).trees = s.trees := rfl
@[simp] theorem putG_atTable (s : State) (g : Group) : (putG s g).atTable = s.atTable := rfl
@[simp] theorem putG_atRemoved (s : State) (g : Group) : (putG s g).atRemoved = s.atRemoved := rfl
@[simp] theorem putG_atPrev (s : State) (g : Group) : (putG s g).atPrev = s.atPrev := rfl
@[simp] theorem putG_atBase (s : State) (g : Group) : (putG s g).atBase = s.atBase := rfl
@[simp] theorem putG_atBusy (s : State) (g : Group) : (putG s g).atBusy = s.atBusy := rfl
@[simp] theorem putG_ctxSel (s : State) (g : Group) : (putG s g).ctxSel = s.ctxSel := rfl
@[simp] theorem putG_stBlk (s : State) (g : Group) : (putG s g).stBlk = s.stBlk := rfl
@[simp] theorem putG_waits (s : State) (g : Group) : (putG s g).waits = s.waits := rfl
@[simp] theorem putG_queued (s : State) (g : Group) : (putG s g).queued = s.queued := rfl
@[simp] theorem putG_mgmtOut (s : State) (g : Group) : (putG s g).mgmtOut = s.mgmtOut := rfl
@[simp] theorem putG_msgs (s : State) (g : Group) : (putG s g).msgs = s.msgs := rfl
@[simp] theorem putG_noticeSeq (s : State) (g : Group) : (putG s g).noticeSeq = s.noticeSeq := rfl
@[simp] theorem putG_outs (s : State) (g : Group) : (putG s g).outs = s.outs := rfl
@[simp] theorem putG_mem (s : State) (g : Group) : (putG s g).mem = s.mem := rfl
@[simp] theorem putG_cxlMem (s : State) (g : Group) : (putG s g).cxlMem = s.cxlMem := rfl
@[simp] theorem putG_cxlCaps (s : State) (g : Group) : (putG s g).cxlCaps = s.cxlCaps := rfl
@[simp] theorem putG_l2 (s : State) (g : Group) : (putG s g).l2 = s.l2 := rfl
@[simp] theorem putG_plru (s : State) (g : Group) : (putG s g).plru = s.plru := rfl
@[simp] theorem putG_llc (s : State) (g : Group) : (putG s g).llc = s.llc := rfl
@[simp] theorem putG_homes (s : State) (g : Group) : (putG s g).homes = s.homes := rfl
@[simp] theorem putG_l1 (s : State) (g : Group) : (putG s g).l1 = s.l1 := rfl
@[simp] theorem putG_icache (s : State) (g : Group) : (putG s g).icache = s.icache := rfl
@[simp] theorem putG_recallSent (s : State) (g : Group) : (putG s g).recallSent = s.recallSent := rfl
@[simp] theorem putG_recallSeen (s : State) (g : Group) : (putG s g).recallSeen = s.recallSeen := rfl
@[simp] theorem putG_beatSent (s : State) (g : Group) : (putG s g).beatSent = s.beatSent := rfl
@[simp] theorem putG_beatSeq (s : State) (g : Group) : (putG s g).beatSeq = s.beatSeq := rfl
@[simp] theorem putG_beatTime (s : State) (g : Group) : (putG s g).beatTime = s.beatTime := rfl
@[simp] theorem putG_blind (s : State) (g : Group) : (putG s g).blind = s.blind := rfl
@[simp] theorem putG_tlb (s : State) (g : Group) : (putG s g).tlb = s.tlb := rfl
@[simp] theorem putG_ctxs (s : State) (g : Group) : (putG s g).ctxs = s.ctxs := rfl
@[simp] theorem putG_grids (s : State) (g : Group) : (putG s g).grids = s.grids := rfl
@[simp] theorem putG_gridSeq (s : State) (g : Group) : (putG s g).gridSeq = s.gridSeq := rfl
@[simp] theorem putG_dispPassed (s : State) (g : Group) : (putG s g).dispPassed = s.dispPassed := rfl
@[simp] theorem putG_lastDie (s : State) (g : Group) : (putG s g).lastDie = s.lastDie := rfl
@[simp] theorem putG_taskAge (s : State) (g : Group) : (putG s g).taskAge = s.taskAge := rfl
@[simp] theorem putG_pool (s : State) (g : Group) : (putG s g).pool = s.pool := rfl
@[simp] theorem putG_formed (s : State) (g : Group) : (putG s g).formed = s.formed := rfl
@[simp] theorem putG_clusters (s : State) (g : Group) : (putG s g).clusters = s.clusters := rfl
@[simp] theorem putG_teams (s : State) (g : Group) : (putG s g).teams = s.teams := rfl
@[simp] theorem putG_parts (s : State) (g : Group) : (putG s g).parts = s.parts := rfl
@[simp] theorem putG_canes (s : State) (g : Group) : (putG s g).canes = s.canes := rfl
@[simp] theorem putG_badMem (s : State) (g : Group) : (putG s g).badMem = s.badMem := rfl
@[simp] theorem putG_badCane (s : State) (g : Group) : (putG s g).badCane = s.badCane := rfl
@[simp] theorem putG_resumes (s : State) (g : Group) : (putG s g).resumes = s.resumes := rfl
@[simp] theorem putG_pend (s : State) (g : Group) : (putG s g).pend = s.pend := rfl
@[simp] theorem putG_spares (s : State) (g : Group) : (putG s g).spares = s.spares := rfl
@[simp] theorem putG_sites (s : State) (g : Group) : (putG s g).sites = s.sites := rfl
@[simp] theorem putG_failedSites (s : State) (g : Group) : (putG s g).failedSites = s.failedSites := rfl
@[simp] theorem putG_unitEvents (s : State) (g : Group) : (putG s g).unitEvents = s.unitEvents := rfl
@[simp] theorem putG_margins (s : State) (g : Group) : (putG s g).margins = s.margins := rfl
@[simp] theorem putG_fatalSent (s : State) (g : Group) : (putG s g).fatalSent = s.fatalSent := rfl

/-! `putT` changes teams alone. -/

@[simp] theorem putT_time (s : State) (t : Team) : (putT s t).time = s.time := rfl
@[simp] theorem putT_turns (s : State) (t : Team) : (putT s t).turns = s.turns := rfl
@[simp] theorem putT_focus (s : State) (t : Team) : (putT s t).focus = s.focus := rfl
@[simp] theorem putT_nextId (s : State) (t : Team) : (putT s t).nextId = s.nextId := rfl
@[simp] theorem putT_freeCount (s : State) (t : Team) : (putT s t).freeCount = s.freeCount := rfl
@[simp] theorem putT_power (s : State) (t : Team) : (putT s t).power = s.power := rfl
@[simp] theorem putT_cap (s : State) (t : Team) : (putT s t).cap = s.cap := rfl
@[simp] theorem putT_throttle (s : State) (t : Team) : (putT s t).throttle = s.throttle := rfl
@[simp] theorem putT_status (s : State) (t : Team) : (putT s t).status = s.status := rfl
@[simp] theorem putT_corr (s : State) (t : Team) : (putT s t).corr = s.corr := rfl
@[simp] theorem putT_dropPackets (s : State) (t : Team) : (putT s t).dropPackets = s.dropPackets := rfl
@[simp] theorem putT_dropReductions (s : State) (t : Team) : (putT s t).dropReductions = s.dropReductions := rfl
@[simp] theorem putT_log (s : State) (t : Team) : (putT s t).log = s.log := rfl
@[simp] theorem putT_sensors (s : State) (t : Team) : (putT s t).sensors = s.sensors := rfl
@[simp] theorem putT_sampled (s : State) (t : Team) : (putT s t).sampled = s.sampled := rfl
@[simp] theorem putT_firmware (s : State) (t : Team) : (putT s t).firmware = s.firmware := rfl
@[simp] theorem putT_operatorKey (s : State) (t : Team) : (putT s t).operatorKey = s.operatorKey := rfl
@[simp] theorem putT_jobs (s : State) (t : Team) : (putT s t).jobs = s.jobs := rfl
@[simp] theorem putT_trees (s : State) (t : Team) : (putT s t).trees = s.trees := rfl
@[simp] theorem putT_atTable (s : State) (t : Team) : (putT s t).atTable = s.atTable := rfl
@[simp] theorem putT_atRemoved (s : State) (t : Team) : (putT s t).atRemoved = s.atRemoved := rfl
@[simp] theorem putT_atPrev (s : State) (t : Team) : (putT s t).atPrev = s.atPrev := rfl
@[simp] theorem putT_atBase (s : State) (t : Team) : (putT s t).atBase = s.atBase := rfl
@[simp] theorem putT_atBusy (s : State) (t : Team) : (putT s t).atBusy = s.atBusy := rfl
@[simp] theorem putT_ctxSel (s : State) (t : Team) : (putT s t).ctxSel = s.ctxSel := rfl
@[simp] theorem putT_stBlk (s : State) (t : Team) : (putT s t).stBlk = s.stBlk := rfl
@[simp] theorem putT_waits (s : State) (t : Team) : (putT s t).waits = s.waits := rfl
@[simp] theorem putT_queued (s : State) (t : Team) : (putT s t).queued = s.queued := rfl
@[simp] theorem putT_mgmtOut (s : State) (t : Team) : (putT s t).mgmtOut = s.mgmtOut := rfl
@[simp] theorem putT_msgs (s : State) (t : Team) : (putT s t).msgs = s.msgs := rfl
@[simp] theorem putT_noticeSeq (s : State) (t : Team) : (putT s t).noticeSeq = s.noticeSeq := rfl
@[simp] theorem putT_outs (s : State) (t : Team) : (putT s t).outs = s.outs := rfl
@[simp] theorem putT_mem (s : State) (t : Team) : (putT s t).mem = s.mem := rfl
@[simp] theorem putT_cxlMem (s : State) (t : Team) : (putT s t).cxlMem = s.cxlMem := rfl
@[simp] theorem putT_cxlCaps (s : State) (t : Team) : (putT s t).cxlCaps = s.cxlCaps := rfl
@[simp] theorem putT_l2 (s : State) (t : Team) : (putT s t).l2 = s.l2 := rfl
@[simp] theorem putT_plru (s : State) (t : Team) : (putT s t).plru = s.plru := rfl
@[simp] theorem putT_llc (s : State) (t : Team) : (putT s t).llc = s.llc := rfl
@[simp] theorem putT_homes (s : State) (t : Team) : (putT s t).homes = s.homes := rfl
@[simp] theorem putT_l1 (s : State) (t : Team) : (putT s t).l1 = s.l1 := rfl
@[simp] theorem putT_icache (s : State) (t : Team) : (putT s t).icache = s.icache := rfl
@[simp] theorem putT_recallSent (s : State) (t : Team) : (putT s t).recallSent = s.recallSent := rfl
@[simp] theorem putT_recallSeen (s : State) (t : Team) : (putT s t).recallSeen = s.recallSeen := rfl
@[simp] theorem putT_beatSent (s : State) (t : Team) : (putT s t).beatSent = s.beatSent := rfl
@[simp] theorem putT_beatSeq (s : State) (t : Team) : (putT s t).beatSeq = s.beatSeq := rfl
@[simp] theorem putT_beatTime (s : State) (t : Team) : (putT s t).beatTime = s.beatTime := rfl
@[simp] theorem putT_blind (s : State) (t : Team) : (putT s t).blind = s.blind := rfl
@[simp] theorem putT_tlb (s : State) (t : Team) : (putT s t).tlb = s.tlb := rfl
@[simp] theorem putT_ctxs (s : State) (t : Team) : (putT s t).ctxs = s.ctxs := rfl
@[simp] theorem putT_grids (s : State) (t : Team) : (putT s t).grids = s.grids := rfl
@[simp] theorem putT_gridSeq (s : State) (t : Team) : (putT s t).gridSeq = s.gridSeq := rfl
@[simp] theorem putT_dispPassed (s : State) (t : Team) : (putT s t).dispPassed = s.dispPassed := rfl
@[simp] theorem putT_lastDie (s : State) (t : Team) : (putT s t).lastDie = s.lastDie := rfl
@[simp] theorem putT_taskAge (s : State) (t : Team) : (putT s t).taskAge = s.taskAge := rfl
@[simp] theorem putT_pool (s : State) (t : Team) : (putT s t).pool = s.pool := rfl
@[simp] theorem putT_formed (s : State) (t : Team) : (putT s t).formed = s.formed := rfl
@[simp] theorem putT_clusters (s : State) (t : Team) : (putT s t).clusters = s.clusters := rfl
@[simp] theorem putT_groups (s : State) (t : Team) : (putT s t).groups = s.groups := rfl
@[simp] theorem putT_parts (s : State) (t : Team) : (putT s t).parts = s.parts := rfl
@[simp] theorem putT_canes (s : State) (t : Team) : (putT s t).canes = s.canes := rfl
@[simp] theorem putT_badMem (s : State) (t : Team) : (putT s t).badMem = s.badMem := rfl
@[simp] theorem putT_badCane (s : State) (t : Team) : (putT s t).badCane = s.badCane := rfl
@[simp] theorem putT_resumes (s : State) (t : Team) : (putT s t).resumes = s.resumes := rfl
@[simp] theorem putT_pend (s : State) (t : Team) : (putT s t).pend = s.pend := rfl
@[simp] theorem putT_spares (s : State) (t : Team) : (putT s t).spares = s.spares := rfl
@[simp] theorem putT_sites (s : State) (t : Team) : (putT s t).sites = s.sites := rfl
@[simp] theorem putT_failedSites (s : State) (t : Team) : (putT s t).failedSites = s.failedSites := rfl
@[simp] theorem putT_unitEvents (s : State) (t : Team) : (putT s t).unitEvents = s.unitEvents := rfl
@[simp] theorem putT_margins (s : State) (t : Team) : (putT s t).margins = s.margins := rfl
@[simp] theorem putT_fatalSent (s : State) (t : Team) : (putT s t).fatalSent = s.fatalSent := rfl

/-! `putC` changes ctxs alone. -/

@[simp] theorem putC_time (s : State) (c : Context) : (putC s c).time = s.time := rfl
@[simp] theorem putC_turns (s : State) (c : Context) : (putC s c).turns = s.turns := rfl
@[simp] theorem putC_focus (s : State) (c : Context) : (putC s c).focus = s.focus := rfl
@[simp] theorem putC_nextId (s : State) (c : Context) : (putC s c).nextId = s.nextId := rfl
@[simp] theorem putC_freeCount (s : State) (c : Context) : (putC s c).freeCount = s.freeCount := rfl
@[simp] theorem putC_power (s : State) (c : Context) : (putC s c).power = s.power := rfl
@[simp] theorem putC_cap (s : State) (c : Context) : (putC s c).cap = s.cap := rfl
@[simp] theorem putC_throttle (s : State) (c : Context) : (putC s c).throttle = s.throttle := rfl
@[simp] theorem putC_status (s : State) (c : Context) : (putC s c).status = s.status := rfl
@[simp] theorem putC_corr (s : State) (c : Context) : (putC s c).corr = s.corr := rfl
@[simp] theorem putC_dropPackets (s : State) (c : Context) : (putC s c).dropPackets = s.dropPackets := rfl
@[simp] theorem putC_dropReductions (s : State) (c : Context) : (putC s c).dropReductions = s.dropReductions := rfl
@[simp] theorem putC_log (s : State) (c : Context) : (putC s c).log = s.log := rfl
@[simp] theorem putC_sensors (s : State) (c : Context) : (putC s c).sensors = s.sensors := rfl
@[simp] theorem putC_sampled (s : State) (c : Context) : (putC s c).sampled = s.sampled := rfl
@[simp] theorem putC_firmware (s : State) (c : Context) : (putC s c).firmware = s.firmware := rfl
@[simp] theorem putC_operatorKey (s : State) (c : Context) : (putC s c).operatorKey = s.operatorKey := rfl
@[simp] theorem putC_jobs (s : State) (c : Context) : (putC s c).jobs = s.jobs := rfl
@[simp] theorem putC_trees (s : State) (c : Context) : (putC s c).trees = s.trees := rfl
@[simp] theorem putC_atTable (s : State) (c : Context) : (putC s c).atTable = s.atTable := rfl
@[simp] theorem putC_atRemoved (s : State) (c : Context) : (putC s c).atRemoved = s.atRemoved := rfl
@[simp] theorem putC_atPrev (s : State) (c : Context) : (putC s c).atPrev = s.atPrev := rfl
@[simp] theorem putC_atBase (s : State) (c : Context) : (putC s c).atBase = s.atBase := rfl
@[simp] theorem putC_atBusy (s : State) (c : Context) : (putC s c).atBusy = s.atBusy := rfl
@[simp] theorem putC_ctxSel (s : State) (c : Context) : (putC s c).ctxSel = s.ctxSel := rfl
@[simp] theorem putC_stBlk (s : State) (c : Context) : (putC s c).stBlk = s.stBlk := rfl
@[simp] theorem putC_waits (s : State) (c : Context) : (putC s c).waits = s.waits := rfl
@[simp] theorem putC_queued (s : State) (c : Context) : (putC s c).queued = s.queued := rfl
@[simp] theorem putC_mgmtOut (s : State) (c : Context) : (putC s c).mgmtOut = s.mgmtOut := rfl
@[simp] theorem putC_msgs (s : State) (c : Context) : (putC s c).msgs = s.msgs := rfl
@[simp] theorem putC_noticeSeq (s : State) (c : Context) : (putC s c).noticeSeq = s.noticeSeq := rfl
@[simp] theorem putC_outs (s : State) (c : Context) : (putC s c).outs = s.outs := rfl
@[simp] theorem putC_mem (s : State) (c : Context) : (putC s c).mem = s.mem := rfl
@[simp] theorem putC_cxlMem (s : State) (c : Context) : (putC s c).cxlMem = s.cxlMem := rfl
@[simp] theorem putC_cxlCaps (s : State) (c : Context) : (putC s c).cxlCaps = s.cxlCaps := rfl
@[simp] theorem putC_l2 (s : State) (c : Context) : (putC s c).l2 = s.l2 := rfl
@[simp] theorem putC_plru (s : State) (c : Context) : (putC s c).plru = s.plru := rfl
@[simp] theorem putC_llc (s : State) (c : Context) : (putC s c).llc = s.llc := rfl
@[simp] theorem putC_homes (s : State) (c : Context) : (putC s c).homes = s.homes := rfl
@[simp] theorem putC_l1 (s : State) (c : Context) : (putC s c).l1 = s.l1 := rfl
@[simp] theorem putC_icache (s : State) (c : Context) : (putC s c).icache = s.icache := rfl
@[simp] theorem putC_recallSent (s : State) (c : Context) : (putC s c).recallSent = s.recallSent := rfl
@[simp] theorem putC_recallSeen (s : State) (c : Context) : (putC s c).recallSeen = s.recallSeen := rfl
@[simp] theorem putC_beatSent (s : State) (c : Context) : (putC s c).beatSent = s.beatSent := rfl
@[simp] theorem putC_beatSeq (s : State) (c : Context) : (putC s c).beatSeq = s.beatSeq := rfl
@[simp] theorem putC_beatTime (s : State) (c : Context) : (putC s c).beatTime = s.beatTime := rfl
@[simp] theorem putC_blind (s : State) (c : Context) : (putC s c).blind = s.blind := rfl
@[simp] theorem putC_tlb (s : State) (c : Context) : (putC s c).tlb = s.tlb := rfl
@[simp] theorem putC_grids (s : State) (c : Context) : (putC s c).grids = s.grids := rfl
@[simp] theorem putC_gridSeq (s : State) (c : Context) : (putC s c).gridSeq = s.gridSeq := rfl
@[simp] theorem putC_dispPassed (s : State) (c : Context) : (putC s c).dispPassed = s.dispPassed := rfl
@[simp] theorem putC_lastDie (s : State) (c : Context) : (putC s c).lastDie = s.lastDie := rfl
@[simp] theorem putC_taskAge (s : State) (c : Context) : (putC s c).taskAge = s.taskAge := rfl
@[simp] theorem putC_pool (s : State) (c : Context) : (putC s c).pool = s.pool := rfl
@[simp] theorem putC_formed (s : State) (c : Context) : (putC s c).formed = s.formed := rfl
@[simp] theorem putC_clusters (s : State) (c : Context) : (putC s c).clusters = s.clusters := rfl
@[simp] theorem putC_teams (s : State) (c : Context) : (putC s c).teams = s.teams := rfl
@[simp] theorem putC_groups (s : State) (c : Context) : (putC s c).groups = s.groups := rfl
@[simp] theorem putC_parts (s : State) (c : Context) : (putC s c).parts = s.parts := rfl
@[simp] theorem putC_canes (s : State) (c : Context) : (putC s c).canes = s.canes := rfl
@[simp] theorem putC_badMem (s : State) (c : Context) : (putC s c).badMem = s.badMem := rfl
@[simp] theorem putC_badCane (s : State) (c : Context) : (putC s c).badCane = s.badCane := rfl
@[simp] theorem putC_resumes (s : State) (c : Context) : (putC s c).resumes = s.resumes := rfl
@[simp] theorem putC_pend (s : State) (c : Context) : (putC s c).pend = s.pend := rfl
@[simp] theorem putC_spares (s : State) (c : Context) : (putC s c).spares = s.spares := rfl
@[simp] theorem putC_sites (s : State) (c : Context) : (putC s c).sites = s.sites := rfl
@[simp] theorem putC_failedSites (s : State) (c : Context) : (putC s c).failedSites = s.failedSites := rfl
@[simp] theorem putC_unitEvents (s : State) (c : Context) : (putC s c).unitEvents = s.unitEvents := rfl
@[simp] theorem putC_margins (s : State) (c : Context) : (putC s c).margins = s.margins := rfl
@[simp] theorem putC_fatalSent (s : State) (c : Context) : (putC s c).fatalSent = s.fatalSent := rfl

/-! `putGrid` changes grids alone. -/

@[simp] theorem putGrid_time (s : State) (g : Grid) : (putGrid s g).time = s.time := rfl
@[simp] theorem putGrid_turns (s : State) (g : Grid) : (putGrid s g).turns = s.turns := rfl
@[simp] theorem putGrid_focus (s : State) (g : Grid) : (putGrid s g).focus = s.focus := rfl
@[simp] theorem putGrid_nextId (s : State) (g : Grid) : (putGrid s g).nextId = s.nextId := rfl
@[simp] theorem putGrid_freeCount (s : State) (g : Grid) : (putGrid s g).freeCount = s.freeCount := rfl
@[simp] theorem putGrid_power (s : State) (g : Grid) : (putGrid s g).power = s.power := rfl
@[simp] theorem putGrid_cap (s : State) (g : Grid) : (putGrid s g).cap = s.cap := rfl
@[simp] theorem putGrid_throttle (s : State) (g : Grid) : (putGrid s g).throttle = s.throttle := rfl
@[simp] theorem putGrid_status (s : State) (g : Grid) : (putGrid s g).status = s.status := rfl
@[simp] theorem putGrid_corr (s : State) (g : Grid) : (putGrid s g).corr = s.corr := rfl
@[simp] theorem putGrid_dropPackets (s : State) (g : Grid) : (putGrid s g).dropPackets = s.dropPackets := rfl
@[simp] theorem putGrid_dropReductions (s : State) (g : Grid) : (putGrid s g).dropReductions = s.dropReductions := rfl
@[simp] theorem putGrid_log (s : State) (g : Grid) : (putGrid s g).log = s.log := rfl
@[simp] theorem putGrid_sensors (s : State) (g : Grid) : (putGrid s g).sensors = s.sensors := rfl
@[simp] theorem putGrid_sampled (s : State) (g : Grid) : (putGrid s g).sampled = s.sampled := rfl
@[simp] theorem putGrid_firmware (s : State) (g : Grid) : (putGrid s g).firmware = s.firmware := rfl
@[simp] theorem putGrid_operatorKey (s : State) (g : Grid) : (putGrid s g).operatorKey = s.operatorKey := rfl
@[simp] theorem putGrid_jobs (s : State) (g : Grid) : (putGrid s g).jobs = s.jobs := rfl
@[simp] theorem putGrid_trees (s : State) (g : Grid) : (putGrid s g).trees = s.trees := rfl
@[simp] theorem putGrid_atTable (s : State) (g : Grid) : (putGrid s g).atTable = s.atTable := rfl
@[simp] theorem putGrid_atRemoved (s : State) (g : Grid) : (putGrid s g).atRemoved = s.atRemoved := rfl
@[simp] theorem putGrid_atPrev (s : State) (g : Grid) : (putGrid s g).atPrev = s.atPrev := rfl
@[simp] theorem putGrid_atBase (s : State) (g : Grid) : (putGrid s g).atBase = s.atBase := rfl
@[simp] theorem putGrid_atBusy (s : State) (g : Grid) : (putGrid s g).atBusy = s.atBusy := rfl
@[simp] theorem putGrid_ctxSel (s : State) (g : Grid) : (putGrid s g).ctxSel = s.ctxSel := rfl
@[simp] theorem putGrid_stBlk (s : State) (g : Grid) : (putGrid s g).stBlk = s.stBlk := rfl
@[simp] theorem putGrid_waits (s : State) (g : Grid) : (putGrid s g).waits = s.waits := rfl
@[simp] theorem putGrid_queued (s : State) (g : Grid) : (putGrid s g).queued = s.queued := rfl
@[simp] theorem putGrid_mgmtOut (s : State) (g : Grid) : (putGrid s g).mgmtOut = s.mgmtOut := rfl
@[simp] theorem putGrid_msgs (s : State) (g : Grid) : (putGrid s g).msgs = s.msgs := rfl
@[simp] theorem putGrid_noticeSeq (s : State) (g : Grid) : (putGrid s g).noticeSeq = s.noticeSeq := rfl
@[simp] theorem putGrid_outs (s : State) (g : Grid) : (putGrid s g).outs = s.outs := rfl
@[simp] theorem putGrid_mem (s : State) (g : Grid) : (putGrid s g).mem = s.mem := rfl
@[simp] theorem putGrid_cxlMem (s : State) (g : Grid) : (putGrid s g).cxlMem = s.cxlMem := rfl
@[simp] theorem putGrid_cxlCaps (s : State) (g : Grid) : (putGrid s g).cxlCaps = s.cxlCaps := rfl
@[simp] theorem putGrid_l2 (s : State) (g : Grid) : (putGrid s g).l2 = s.l2 := rfl
@[simp] theorem putGrid_plru (s : State) (g : Grid) : (putGrid s g).plru = s.plru := rfl
@[simp] theorem putGrid_llc (s : State) (g : Grid) : (putGrid s g).llc = s.llc := rfl
@[simp] theorem putGrid_homes (s : State) (g : Grid) : (putGrid s g).homes = s.homes := rfl
@[simp] theorem putGrid_l1 (s : State) (g : Grid) : (putGrid s g).l1 = s.l1 := rfl
@[simp] theorem putGrid_icache (s : State) (g : Grid) : (putGrid s g).icache = s.icache := rfl
@[simp] theorem putGrid_recallSent (s : State) (g : Grid) : (putGrid s g).recallSent = s.recallSent := rfl
@[simp] theorem putGrid_recallSeen (s : State) (g : Grid) : (putGrid s g).recallSeen = s.recallSeen := rfl
@[simp] theorem putGrid_beatSent (s : State) (g : Grid) : (putGrid s g).beatSent = s.beatSent := rfl
@[simp] theorem putGrid_beatSeq (s : State) (g : Grid) : (putGrid s g).beatSeq = s.beatSeq := rfl
@[simp] theorem putGrid_beatTime (s : State) (g : Grid) : (putGrid s g).beatTime = s.beatTime := rfl
@[simp] theorem putGrid_blind (s : State) (g : Grid) : (putGrid s g).blind = s.blind := rfl
@[simp] theorem putGrid_tlb (s : State) (g : Grid) : (putGrid s g).tlb = s.tlb := rfl
@[simp] theorem putGrid_ctxs (s : State) (g : Grid) : (putGrid s g).ctxs = s.ctxs := rfl
@[simp] theorem putGrid_gridSeq (s : State) (g : Grid) : (putGrid s g).gridSeq = s.gridSeq := rfl
@[simp] theorem putGrid_dispPassed (s : State) (g : Grid) : (putGrid s g).dispPassed = s.dispPassed := rfl
@[simp] theorem putGrid_lastDie (s : State) (g : Grid) : (putGrid s g).lastDie = s.lastDie := rfl
@[simp] theorem putGrid_taskAge (s : State) (g : Grid) : (putGrid s g).taskAge = s.taskAge := rfl
@[simp] theorem putGrid_pool (s : State) (g : Grid) : (putGrid s g).pool = s.pool := rfl
@[simp] theorem putGrid_formed (s : State) (g : Grid) : (putGrid s g).formed = s.formed := rfl
@[simp] theorem putGrid_clusters (s : State) (g : Grid) : (putGrid s g).clusters = s.clusters := rfl
@[simp] theorem putGrid_teams (s : State) (g : Grid) : (putGrid s g).teams = s.teams := rfl
@[simp] theorem putGrid_groups (s : State) (g : Grid) : (putGrid s g).groups = s.groups := rfl
@[simp] theorem putGrid_parts (s : State) (g : Grid) : (putGrid s g).parts = s.parts := rfl
@[simp] theorem putGrid_canes (s : State) (g : Grid) : (putGrid s g).canes = s.canes := rfl
@[simp] theorem putGrid_badMem (s : State) (g : Grid) : (putGrid s g).badMem = s.badMem := rfl
@[simp] theorem putGrid_badCane (s : State) (g : Grid) : (putGrid s g).badCane = s.badCane := rfl
@[simp] theorem putGrid_resumes (s : State) (g : Grid) : (putGrid s g).resumes = s.resumes := rfl
@[simp] theorem putGrid_pend (s : State) (g : Grid) : (putGrid s g).pend = s.pend := rfl
@[simp] theorem putGrid_spares (s : State) (g : Grid) : (putGrid s g).spares = s.spares := rfl
@[simp] theorem putGrid_sites (s : State) (g : Grid) : (putGrid s g).sites = s.sites := rfl
@[simp] theorem putGrid_failedSites (s : State) (g : Grid) : (putGrid s g).failedSites = s.failedSites := rfl
@[simp] theorem putGrid_unitEvents (s : State) (g : Grid) : (putGrid s g).unitEvents = s.unitEvents := rfl
@[simp] theorem putGrid_margins (s : State) (g : Grid) : (putGrid s g).margins = s.margins := rfl
@[simp] theorem putGrid_fatalSent (s : State) (g : Grid) : (putGrid s g).fatalSent = s.fatalSent := rfl

/-! `putCl` changes clusters alone. -/

@[simp] theorem putCl_time (s : State) (k : Cluster) : (putCl s k).time = s.time := rfl
@[simp] theorem putCl_turns (s : State) (k : Cluster) : (putCl s k).turns = s.turns := rfl
@[simp] theorem putCl_focus (s : State) (k : Cluster) : (putCl s k).focus = s.focus := rfl
@[simp] theorem putCl_nextId (s : State) (k : Cluster) : (putCl s k).nextId = s.nextId := rfl
@[simp] theorem putCl_freeCount (s : State) (k : Cluster) : (putCl s k).freeCount = s.freeCount := rfl
@[simp] theorem putCl_power (s : State) (k : Cluster) : (putCl s k).power = s.power := rfl
@[simp] theorem putCl_cap (s : State) (k : Cluster) : (putCl s k).cap = s.cap := rfl
@[simp] theorem putCl_throttle (s : State) (k : Cluster) : (putCl s k).throttle = s.throttle := rfl
@[simp] theorem putCl_status (s : State) (k : Cluster) : (putCl s k).status = s.status := rfl
@[simp] theorem putCl_corr (s : State) (k : Cluster) : (putCl s k).corr = s.corr := rfl
@[simp] theorem putCl_dropPackets (s : State) (k : Cluster) : (putCl s k).dropPackets = s.dropPackets := rfl
@[simp] theorem putCl_dropReductions (s : State) (k : Cluster) : (putCl s k).dropReductions = s.dropReductions := rfl
@[simp] theorem putCl_log (s : State) (k : Cluster) : (putCl s k).log = s.log := rfl
@[simp] theorem putCl_sensors (s : State) (k : Cluster) : (putCl s k).sensors = s.sensors := rfl
@[simp] theorem putCl_sampled (s : State) (k : Cluster) : (putCl s k).sampled = s.sampled := rfl
@[simp] theorem putCl_firmware (s : State) (k : Cluster) : (putCl s k).firmware = s.firmware := rfl
@[simp] theorem putCl_operatorKey (s : State) (k : Cluster) : (putCl s k).operatorKey = s.operatorKey := rfl
@[simp] theorem putCl_jobs (s : State) (k : Cluster) : (putCl s k).jobs = s.jobs := rfl
@[simp] theorem putCl_trees (s : State) (k : Cluster) : (putCl s k).trees = s.trees := rfl
@[simp] theorem putCl_atTable (s : State) (k : Cluster) : (putCl s k).atTable = s.atTable := rfl
@[simp] theorem putCl_atRemoved (s : State) (k : Cluster) : (putCl s k).atRemoved = s.atRemoved := rfl
@[simp] theorem putCl_atPrev (s : State) (k : Cluster) : (putCl s k).atPrev = s.atPrev := rfl
@[simp] theorem putCl_atBase (s : State) (k : Cluster) : (putCl s k).atBase = s.atBase := rfl
@[simp] theorem putCl_atBusy (s : State) (k : Cluster) : (putCl s k).atBusy = s.atBusy := rfl
@[simp] theorem putCl_ctxSel (s : State) (k : Cluster) : (putCl s k).ctxSel = s.ctxSel := rfl
@[simp] theorem putCl_stBlk (s : State) (k : Cluster) : (putCl s k).stBlk = s.stBlk := rfl
@[simp] theorem putCl_waits (s : State) (k : Cluster) : (putCl s k).waits = s.waits := rfl
@[simp] theorem putCl_queued (s : State) (k : Cluster) : (putCl s k).queued = s.queued := rfl
@[simp] theorem putCl_mgmtOut (s : State) (k : Cluster) : (putCl s k).mgmtOut = s.mgmtOut := rfl
@[simp] theorem putCl_msgs (s : State) (k : Cluster) : (putCl s k).msgs = s.msgs := rfl
@[simp] theorem putCl_noticeSeq (s : State) (k : Cluster) : (putCl s k).noticeSeq = s.noticeSeq := rfl
@[simp] theorem putCl_outs (s : State) (k : Cluster) : (putCl s k).outs = s.outs := rfl
@[simp] theorem putCl_mem (s : State) (k : Cluster) : (putCl s k).mem = s.mem := rfl
@[simp] theorem putCl_cxlMem (s : State) (k : Cluster) : (putCl s k).cxlMem = s.cxlMem := rfl
@[simp] theorem putCl_cxlCaps (s : State) (k : Cluster) : (putCl s k).cxlCaps = s.cxlCaps := rfl
@[simp] theorem putCl_l2 (s : State) (k : Cluster) : (putCl s k).l2 = s.l2 := rfl
@[simp] theorem putCl_plru (s : State) (k : Cluster) : (putCl s k).plru = s.plru := rfl
@[simp] theorem putCl_llc (s : State) (k : Cluster) : (putCl s k).llc = s.llc := rfl
@[simp] theorem putCl_homes (s : State) (k : Cluster) : (putCl s k).homes = s.homes := rfl
@[simp] theorem putCl_l1 (s : State) (k : Cluster) : (putCl s k).l1 = s.l1 := rfl
@[simp] theorem putCl_icache (s : State) (k : Cluster) : (putCl s k).icache = s.icache := rfl
@[simp] theorem putCl_recallSent (s : State) (k : Cluster) : (putCl s k).recallSent = s.recallSent := rfl
@[simp] theorem putCl_recallSeen (s : State) (k : Cluster) : (putCl s k).recallSeen = s.recallSeen := rfl
@[simp] theorem putCl_beatSent (s : State) (k : Cluster) : (putCl s k).beatSent = s.beatSent := rfl
@[simp] theorem putCl_beatSeq (s : State) (k : Cluster) : (putCl s k).beatSeq = s.beatSeq := rfl
@[simp] theorem putCl_beatTime (s : State) (k : Cluster) : (putCl s k).beatTime = s.beatTime := rfl
@[simp] theorem putCl_blind (s : State) (k : Cluster) : (putCl s k).blind = s.blind := rfl
@[simp] theorem putCl_tlb (s : State) (k : Cluster) : (putCl s k).tlb = s.tlb := rfl
@[simp] theorem putCl_ctxs (s : State) (k : Cluster) : (putCl s k).ctxs = s.ctxs := rfl
@[simp] theorem putCl_grids (s : State) (k : Cluster) : (putCl s k).grids = s.grids := rfl
@[simp] theorem putCl_gridSeq (s : State) (k : Cluster) : (putCl s k).gridSeq = s.gridSeq := rfl
@[simp] theorem putCl_dispPassed (s : State) (k : Cluster) : (putCl s k).dispPassed = s.dispPassed := rfl
@[simp] theorem putCl_lastDie (s : State) (k : Cluster) : (putCl s k).lastDie = s.lastDie := rfl
@[simp] theorem putCl_taskAge (s : State) (k : Cluster) : (putCl s k).taskAge = s.taskAge := rfl
@[simp] theorem putCl_pool (s : State) (k : Cluster) : (putCl s k).pool = s.pool := rfl
@[simp] theorem putCl_formed (s : State) (k : Cluster) : (putCl s k).formed = s.formed := rfl
@[simp] theorem putCl_teams (s : State) (k : Cluster) : (putCl s k).teams = s.teams := rfl
@[simp] theorem putCl_groups (s : State) (k : Cluster) : (putCl s k).groups = s.groups := rfl
@[simp] theorem putCl_parts (s : State) (k : Cluster) : (putCl s k).parts = s.parts := rfl
@[simp] theorem putCl_canes (s : State) (k : Cluster) : (putCl s k).canes = s.canes := rfl
@[simp] theorem putCl_badMem (s : State) (k : Cluster) : (putCl s k).badMem = s.badMem := rfl
@[simp] theorem putCl_badCane (s : State) (k : Cluster) : (putCl s k).badCane = s.badCane := rfl
@[simp] theorem putCl_resumes (s : State) (k : Cluster) : (putCl s k).resumes = s.resumes := rfl
@[simp] theorem putCl_pend (s : State) (k : Cluster) : (putCl s k).pend = s.pend := rfl
@[simp] theorem putCl_spares (s : State) (k : Cluster) : (putCl s k).spares = s.spares := rfl
@[simp] theorem putCl_sites (s : State) (k : Cluster) : (putCl s k).sites = s.sites := rfl
@[simp] theorem putCl_failedSites (s : State) (k : Cluster) : (putCl s k).failedSites = s.failedSites := rfl
@[simp] theorem putCl_unitEvents (s : State) (k : Cluster) : (putCl s k).unitEvents = s.unitEvents := rfl
@[simp] theorem putCl_margins (s : State) (k : Cluster) : (putCl s k).margins = s.margins := rfl
@[simp] theorem putCl_fatalSent (s : State) (k : Cluster) : (putCl s k).fatalSent = s.fatalSent := rfl

/-! `putF` changes pend alone. -/

@[simp] theorem putF_time (s : State) (f : Flight) : (putF s f).time = s.time := rfl
@[simp] theorem putF_turns (s : State) (f : Flight) : (putF s f).turns = s.turns := rfl
@[simp] theorem putF_focus (s : State) (f : Flight) : (putF s f).focus = s.focus := rfl
@[simp] theorem putF_nextId (s : State) (f : Flight) : (putF s f).nextId = s.nextId := rfl
@[simp] theorem putF_freeCount (s : State) (f : Flight) : (putF s f).freeCount = s.freeCount := rfl
@[simp] theorem putF_power (s : State) (f : Flight) : (putF s f).power = s.power := rfl
@[simp] theorem putF_cap (s : State) (f : Flight) : (putF s f).cap = s.cap := rfl
@[simp] theorem putF_throttle (s : State) (f : Flight) : (putF s f).throttle = s.throttle := rfl
@[simp] theorem putF_status (s : State) (f : Flight) : (putF s f).status = s.status := rfl
@[simp] theorem putF_corr (s : State) (f : Flight) : (putF s f).corr = s.corr := rfl
@[simp] theorem putF_dropPackets (s : State) (f : Flight) : (putF s f).dropPackets = s.dropPackets := rfl
@[simp] theorem putF_dropReductions (s : State) (f : Flight) : (putF s f).dropReductions = s.dropReductions := rfl
@[simp] theorem putF_log (s : State) (f : Flight) : (putF s f).log = s.log := rfl
@[simp] theorem putF_sensors (s : State) (f : Flight) : (putF s f).sensors = s.sensors := rfl
@[simp] theorem putF_sampled (s : State) (f : Flight) : (putF s f).sampled = s.sampled := rfl
@[simp] theorem putF_firmware (s : State) (f : Flight) : (putF s f).firmware = s.firmware := rfl
@[simp] theorem putF_operatorKey (s : State) (f : Flight) : (putF s f).operatorKey = s.operatorKey := rfl
@[simp] theorem putF_jobs (s : State) (f : Flight) : (putF s f).jobs = s.jobs := rfl
@[simp] theorem putF_trees (s : State) (f : Flight) : (putF s f).trees = s.trees := rfl
@[simp] theorem putF_atTable (s : State) (f : Flight) : (putF s f).atTable = s.atTable := rfl
@[simp] theorem putF_atRemoved (s : State) (f : Flight) : (putF s f).atRemoved = s.atRemoved := rfl
@[simp] theorem putF_atPrev (s : State) (f : Flight) : (putF s f).atPrev = s.atPrev := rfl
@[simp] theorem putF_atBase (s : State) (f : Flight) : (putF s f).atBase = s.atBase := rfl
@[simp] theorem putF_atBusy (s : State) (f : Flight) : (putF s f).atBusy = s.atBusy := rfl
@[simp] theorem putF_ctxSel (s : State) (f : Flight) : (putF s f).ctxSel = s.ctxSel := rfl
@[simp] theorem putF_stBlk (s : State) (f : Flight) : (putF s f).stBlk = s.stBlk := rfl
@[simp] theorem putF_waits (s : State) (f : Flight) : (putF s f).waits = s.waits := rfl
@[simp] theorem putF_queued (s : State) (f : Flight) : (putF s f).queued = s.queued := rfl
@[simp] theorem putF_mgmtOut (s : State) (f : Flight) : (putF s f).mgmtOut = s.mgmtOut := rfl
@[simp] theorem putF_msgs (s : State) (f : Flight) : (putF s f).msgs = s.msgs := rfl
@[simp] theorem putF_noticeSeq (s : State) (f : Flight) : (putF s f).noticeSeq = s.noticeSeq := rfl
@[simp] theorem putF_outs (s : State) (f : Flight) : (putF s f).outs = s.outs := rfl
@[simp] theorem putF_mem (s : State) (f : Flight) : (putF s f).mem = s.mem := rfl
@[simp] theorem putF_cxlMem (s : State) (f : Flight) : (putF s f).cxlMem = s.cxlMem := rfl
@[simp] theorem putF_cxlCaps (s : State) (f : Flight) : (putF s f).cxlCaps = s.cxlCaps := rfl
@[simp] theorem putF_l2 (s : State) (f : Flight) : (putF s f).l2 = s.l2 := rfl
@[simp] theorem putF_plru (s : State) (f : Flight) : (putF s f).plru = s.plru := rfl
@[simp] theorem putF_llc (s : State) (f : Flight) : (putF s f).llc = s.llc := rfl
@[simp] theorem putF_homes (s : State) (f : Flight) : (putF s f).homes = s.homes := rfl
@[simp] theorem putF_l1 (s : State) (f : Flight) : (putF s f).l1 = s.l1 := rfl
@[simp] theorem putF_icache (s : State) (f : Flight) : (putF s f).icache = s.icache := rfl
@[simp] theorem putF_recallSent (s : State) (f : Flight) : (putF s f).recallSent = s.recallSent := rfl
@[simp] theorem putF_recallSeen (s : State) (f : Flight) : (putF s f).recallSeen = s.recallSeen := rfl
@[simp] theorem putF_beatSent (s : State) (f : Flight) : (putF s f).beatSent = s.beatSent := rfl
@[simp] theorem putF_beatSeq (s : State) (f : Flight) : (putF s f).beatSeq = s.beatSeq := rfl
@[simp] theorem putF_beatTime (s : State) (f : Flight) : (putF s f).beatTime = s.beatTime := rfl
@[simp] theorem putF_blind (s : State) (f : Flight) : (putF s f).blind = s.blind := rfl
@[simp] theorem putF_tlb (s : State) (f : Flight) : (putF s f).tlb = s.tlb := rfl
@[simp] theorem putF_ctxs (s : State) (f : Flight) : (putF s f).ctxs = s.ctxs := rfl
@[simp] theorem putF_grids (s : State) (f : Flight) : (putF s f).grids = s.grids := rfl
@[simp] theorem putF_gridSeq (s : State) (f : Flight) : (putF s f).gridSeq = s.gridSeq := rfl
@[simp] theorem putF_dispPassed (s : State) (f : Flight) : (putF s f).dispPassed = s.dispPassed := rfl
@[simp] theorem putF_lastDie (s : State) (f : Flight) : (putF s f).lastDie = s.lastDie := rfl
@[simp] theorem putF_taskAge (s : State) (f : Flight) : (putF s f).taskAge = s.taskAge := rfl
@[simp] theorem putF_pool (s : State) (f : Flight) : (putF s f).pool = s.pool := rfl
@[simp] theorem putF_formed (s : State) (f : Flight) : (putF s f).formed = s.formed := rfl
@[simp] theorem putF_clusters (s : State) (f : Flight) : (putF s f).clusters = s.clusters := rfl
@[simp] theorem putF_teams (s : State) (f : Flight) : (putF s f).teams = s.teams := rfl
@[simp] theorem putF_groups (s : State) (f : Flight) : (putF s f).groups = s.groups := rfl
@[simp] theorem putF_parts (s : State) (f : Flight) : (putF s f).parts = s.parts := rfl
@[simp] theorem putF_canes (s : State) (f : Flight) : (putF s f).canes = s.canes := rfl
@[simp] theorem putF_badMem (s : State) (f : Flight) : (putF s f).badMem = s.badMem := rfl
@[simp] theorem putF_badCane (s : State) (f : Flight) : (putF s f).badCane = s.badCane := rfl
@[simp] theorem putF_resumes (s : State) (f : Flight) : (putF s f).resumes = s.resumes := rfl
@[simp] theorem putF_spares (s : State) (f : Flight) : (putF s f).spares = s.spares := rfl
@[simp] theorem putF_sites (s : State) (f : Flight) : (putF s f).sites = s.sites := rfl
@[simp] theorem putF_failedSites (s : State) (f : Flight) : (putF s f).failedSites = s.failedSites := rfl
@[simp] theorem putF_unitEvents (s : State) (f : Flight) : (putF s f).unitEvents = s.unitEvents := rfl
@[simp] theorem putF_margins (s : State) (f : Flight) : (putF s f).margins = s.margins := rfl
@[simp] theorem putF_fatalSent (s : State) (f : Flight) : (putF s f).fatalSent = s.fatalSent := rfl

/-! `dropF` changes pend alone. -/

@[simp] theorem dropF_time (s : State) (id : Nat) : (dropF s id).time = s.time := rfl
@[simp] theorem dropF_turns (s : State) (id : Nat) : (dropF s id).turns = s.turns := rfl
@[simp] theorem dropF_focus (s : State) (id : Nat) : (dropF s id).focus = s.focus := rfl
@[simp] theorem dropF_nextId (s : State) (id : Nat) : (dropF s id).nextId = s.nextId := rfl
@[simp] theorem dropF_freeCount (s : State) (id : Nat) : (dropF s id).freeCount = s.freeCount := rfl
@[simp] theorem dropF_power (s : State) (id : Nat) : (dropF s id).power = s.power := rfl
@[simp] theorem dropF_cap (s : State) (id : Nat) : (dropF s id).cap = s.cap := rfl
@[simp] theorem dropF_throttle (s : State) (id : Nat) : (dropF s id).throttle = s.throttle := rfl
@[simp] theorem dropF_status (s : State) (id : Nat) : (dropF s id).status = s.status := rfl
@[simp] theorem dropF_corr (s : State) (id : Nat) : (dropF s id).corr = s.corr := rfl
@[simp] theorem dropF_dropPackets (s : State) (id : Nat) : (dropF s id).dropPackets = s.dropPackets := rfl
@[simp] theorem dropF_dropReductions (s : State) (id : Nat) : (dropF s id).dropReductions = s.dropReductions := rfl
@[simp] theorem dropF_log (s : State) (id : Nat) : (dropF s id).log = s.log := rfl
@[simp] theorem dropF_sensors (s : State) (id : Nat) : (dropF s id).sensors = s.sensors := rfl
@[simp] theorem dropF_sampled (s : State) (id : Nat) : (dropF s id).sampled = s.sampled := rfl
@[simp] theorem dropF_firmware (s : State) (id : Nat) : (dropF s id).firmware = s.firmware := rfl
@[simp] theorem dropF_operatorKey (s : State) (id : Nat) : (dropF s id).operatorKey = s.operatorKey := rfl
@[simp] theorem dropF_jobs (s : State) (id : Nat) : (dropF s id).jobs = s.jobs := rfl
@[simp] theorem dropF_trees (s : State) (id : Nat) : (dropF s id).trees = s.trees := rfl
@[simp] theorem dropF_atTable (s : State) (id : Nat) : (dropF s id).atTable = s.atTable := rfl
@[simp] theorem dropF_atRemoved (s : State) (id : Nat) : (dropF s id).atRemoved = s.atRemoved := rfl
@[simp] theorem dropF_atPrev (s : State) (id : Nat) : (dropF s id).atPrev = s.atPrev := rfl
@[simp] theorem dropF_atBase (s : State) (id : Nat) : (dropF s id).atBase = s.atBase := rfl
@[simp] theorem dropF_atBusy (s : State) (id : Nat) : (dropF s id).atBusy = s.atBusy := rfl
@[simp] theorem dropF_ctxSel (s : State) (id : Nat) : (dropF s id).ctxSel = s.ctxSel := rfl
@[simp] theorem dropF_stBlk (s : State) (id : Nat) : (dropF s id).stBlk = s.stBlk := rfl
@[simp] theorem dropF_waits (s : State) (id : Nat) : (dropF s id).waits = s.waits := rfl
@[simp] theorem dropF_queued (s : State) (id : Nat) : (dropF s id).queued = s.queued := rfl
@[simp] theorem dropF_mgmtOut (s : State) (id : Nat) : (dropF s id).mgmtOut = s.mgmtOut := rfl
@[simp] theorem dropF_msgs (s : State) (id : Nat) : (dropF s id).msgs = s.msgs := rfl
@[simp] theorem dropF_noticeSeq (s : State) (id : Nat) : (dropF s id).noticeSeq = s.noticeSeq := rfl
@[simp] theorem dropF_outs (s : State) (id : Nat) : (dropF s id).outs = s.outs := rfl
@[simp] theorem dropF_mem (s : State) (id : Nat) : (dropF s id).mem = s.mem := rfl
@[simp] theorem dropF_cxlMem (s : State) (id : Nat) : (dropF s id).cxlMem = s.cxlMem := rfl
@[simp] theorem dropF_cxlCaps (s : State) (id : Nat) : (dropF s id).cxlCaps = s.cxlCaps := rfl
@[simp] theorem dropF_l2 (s : State) (id : Nat) : (dropF s id).l2 = s.l2 := rfl
@[simp] theorem dropF_plru (s : State) (id : Nat) : (dropF s id).plru = s.plru := rfl
@[simp] theorem dropF_llc (s : State) (id : Nat) : (dropF s id).llc = s.llc := rfl
@[simp] theorem dropF_homes (s : State) (id : Nat) : (dropF s id).homes = s.homes := rfl
@[simp] theorem dropF_l1 (s : State) (id : Nat) : (dropF s id).l1 = s.l1 := rfl
@[simp] theorem dropF_icache (s : State) (id : Nat) : (dropF s id).icache = s.icache := rfl
@[simp] theorem dropF_recallSent (s : State) (id : Nat) : (dropF s id).recallSent = s.recallSent := rfl
@[simp] theorem dropF_recallSeen (s : State) (id : Nat) : (dropF s id).recallSeen = s.recallSeen := rfl
@[simp] theorem dropF_beatSent (s : State) (id : Nat) : (dropF s id).beatSent = s.beatSent := rfl
@[simp] theorem dropF_beatSeq (s : State) (id : Nat) : (dropF s id).beatSeq = s.beatSeq := rfl
@[simp] theorem dropF_beatTime (s : State) (id : Nat) : (dropF s id).beatTime = s.beatTime := rfl
@[simp] theorem dropF_blind (s : State) (id : Nat) : (dropF s id).blind = s.blind := rfl
@[simp] theorem dropF_tlb (s : State) (id : Nat) : (dropF s id).tlb = s.tlb := rfl
@[simp] theorem dropF_ctxs (s : State) (id : Nat) : (dropF s id).ctxs = s.ctxs := rfl
@[simp] theorem dropF_grids (s : State) (id : Nat) : (dropF s id).grids = s.grids := rfl
@[simp] theorem dropF_gridSeq (s : State) (id : Nat) : (dropF s id).gridSeq = s.gridSeq := rfl
@[simp] theorem dropF_dispPassed (s : State) (id : Nat) : (dropF s id).dispPassed = s.dispPassed := rfl
@[simp] theorem dropF_lastDie (s : State) (id : Nat) : (dropF s id).lastDie = s.lastDie := rfl
@[simp] theorem dropF_taskAge (s : State) (id : Nat) : (dropF s id).taskAge = s.taskAge := rfl
@[simp] theorem dropF_pool (s : State) (id : Nat) : (dropF s id).pool = s.pool := rfl
@[simp] theorem dropF_formed (s : State) (id : Nat) : (dropF s id).formed = s.formed := rfl
@[simp] theorem dropF_clusters (s : State) (id : Nat) : (dropF s id).clusters = s.clusters := rfl
@[simp] theorem dropF_teams (s : State) (id : Nat) : (dropF s id).teams = s.teams := rfl
@[simp] theorem dropF_groups (s : State) (id : Nat) : (dropF s id).groups = s.groups := rfl
@[simp] theorem dropF_parts (s : State) (id : Nat) : (dropF s id).parts = s.parts := rfl
@[simp] theorem dropF_canes (s : State) (id : Nat) : (dropF s id).canes = s.canes := rfl
@[simp] theorem dropF_badMem (s : State) (id : Nat) : (dropF s id).badMem = s.badMem := rfl
@[simp] theorem dropF_badCane (s : State) (id : Nat) : (dropF s id).badCane = s.badCane := rfl
@[simp] theorem dropF_resumes (s : State) (id : Nat) : (dropF s id).resumes = s.resumes := rfl
@[simp] theorem dropF_spares (s : State) (id : Nat) : (dropF s id).spares = s.spares := rfl
@[simp] theorem dropF_sites (s : State) (id : Nat) : (dropF s id).sites = s.sites := rfl
@[simp] theorem dropF_failedSites (s : State) (id : Nat) : (dropF s id).failedSites = s.failedSites := rfl
@[simp] theorem dropF_unitEvents (s : State) (id : Nat) : (dropF s id).unitEvents = s.unitEvents := rfl
@[simp] theorem dropF_margins (s : State) (id : Nat) : (dropF s id).margins = s.margins := rfl
@[simp] theorem dropF_fatalSent (s : State) (id : Nat) : (dropF s id).fatalSent = s.fatalSent := rfl

/-! `launchOp` changes nextId and pend alone. -/

@[simp] theorem launchOp_time (s : State) (gid ctx core : Nat) (cls : Cls) (op : Op) : (launchOp s gid ctx core cls op).time = s.time := rfl
@[simp] theorem launchOp_turns (s : State) (gid ctx core : Nat) (cls : Cls) (op : Op) : (launchOp s gid ctx core cls op).turns = s.turns := rfl
@[simp] theorem launchOp_focus (s : State) (gid ctx core : Nat) (cls : Cls) (op : Op) : (launchOp s gid ctx core cls op).focus = s.focus := rfl
@[simp] theorem launchOp_freeCount (s : State) (gid ctx core : Nat) (cls : Cls) (op : Op) : (launchOp s gid ctx core cls op).freeCount = s.freeCount := rfl
@[simp] theorem launchOp_power (s : State) (gid ctx core : Nat) (cls : Cls) (op : Op) : (launchOp s gid ctx core cls op).power = s.power := rfl
@[simp] theorem launchOp_cap (s : State) (gid ctx core : Nat) (cls : Cls) (op : Op) : (launchOp s gid ctx core cls op).cap = s.cap := rfl
@[simp] theorem launchOp_throttle (s : State) (gid ctx core : Nat) (cls : Cls) (op : Op) : (launchOp s gid ctx core cls op).throttle = s.throttle := rfl
@[simp] theorem launchOp_status (s : State) (gid ctx core : Nat) (cls : Cls) (op : Op) : (launchOp s gid ctx core cls op).status = s.status := rfl
@[simp] theorem launchOp_corr (s : State) (gid ctx core : Nat) (cls : Cls) (op : Op) : (launchOp s gid ctx core cls op).corr = s.corr := rfl
@[simp] theorem launchOp_dropPackets (s : State) (gid ctx core : Nat) (cls : Cls) (op : Op) : (launchOp s gid ctx core cls op).dropPackets = s.dropPackets := rfl
@[simp] theorem launchOp_dropReductions (s : State) (gid ctx core : Nat) (cls : Cls) (op : Op) : (launchOp s gid ctx core cls op).dropReductions = s.dropReductions := rfl
@[simp] theorem launchOp_log (s : State) (gid ctx core : Nat) (cls : Cls) (op : Op) : (launchOp s gid ctx core cls op).log = s.log := rfl
@[simp] theorem launchOp_sensors (s : State) (gid ctx core : Nat) (cls : Cls) (op : Op) : (launchOp s gid ctx core cls op).sensors = s.sensors := rfl
@[simp] theorem launchOp_sampled (s : State) (gid ctx core : Nat) (cls : Cls) (op : Op) : (launchOp s gid ctx core cls op).sampled = s.sampled := rfl
@[simp] theorem launchOp_firmware (s : State) (gid ctx core : Nat) (cls : Cls) (op : Op) : (launchOp s gid ctx core cls op).firmware = s.firmware := rfl
@[simp] theorem launchOp_operatorKey (s : State) (gid ctx core : Nat) (cls : Cls) (op : Op) : (launchOp s gid ctx core cls op).operatorKey = s.operatorKey := rfl
@[simp] theorem launchOp_jobs (s : State) (gid ctx core : Nat) (cls : Cls) (op : Op) : (launchOp s gid ctx core cls op).jobs = s.jobs := rfl
@[simp] theorem launchOp_trees (s : State) (gid ctx core : Nat) (cls : Cls) (op : Op) : (launchOp s gid ctx core cls op).trees = s.trees := rfl
@[simp] theorem launchOp_atTable (s : State) (gid ctx core : Nat) (cls : Cls) (op : Op) : (launchOp s gid ctx core cls op).atTable = s.atTable := rfl
@[simp] theorem launchOp_atRemoved (s : State) (gid ctx core : Nat) (cls : Cls) (op : Op) : (launchOp s gid ctx core cls op).atRemoved = s.atRemoved := rfl
@[simp] theorem launchOp_atPrev (s : State) (gid ctx core : Nat) (cls : Cls) (op : Op) : (launchOp s gid ctx core cls op).atPrev = s.atPrev := rfl
@[simp] theorem launchOp_atBase (s : State) (gid ctx core : Nat) (cls : Cls) (op : Op) : (launchOp s gid ctx core cls op).atBase = s.atBase := rfl
@[simp] theorem launchOp_atBusy (s : State) (gid ctx core : Nat) (cls : Cls) (op : Op) : (launchOp s gid ctx core cls op).atBusy = s.atBusy := rfl
@[simp] theorem launchOp_ctxSel (s : State) (gid ctx core : Nat) (cls : Cls) (op : Op) : (launchOp s gid ctx core cls op).ctxSel = s.ctxSel := rfl
@[simp] theorem launchOp_stBlk (s : State) (gid ctx core : Nat) (cls : Cls) (op : Op) : (launchOp s gid ctx core cls op).stBlk = s.stBlk := rfl
@[simp] theorem launchOp_waits (s : State) (gid ctx core : Nat) (cls : Cls) (op : Op) : (launchOp s gid ctx core cls op).waits = s.waits := rfl
@[simp] theorem launchOp_queued (s : State) (gid ctx core : Nat) (cls : Cls) (op : Op) : (launchOp s gid ctx core cls op).queued = s.queued := rfl
@[simp] theorem launchOp_mgmtOut (s : State) (gid ctx core : Nat) (cls : Cls) (op : Op) : (launchOp s gid ctx core cls op).mgmtOut = s.mgmtOut := rfl
@[simp] theorem launchOp_msgs (s : State) (gid ctx core : Nat) (cls : Cls) (op : Op) : (launchOp s gid ctx core cls op).msgs = s.msgs := rfl
@[simp] theorem launchOp_noticeSeq (s : State) (gid ctx core : Nat) (cls : Cls) (op : Op) : (launchOp s gid ctx core cls op).noticeSeq = s.noticeSeq := rfl
@[simp] theorem launchOp_outs (s : State) (gid ctx core : Nat) (cls : Cls) (op : Op) : (launchOp s gid ctx core cls op).outs = s.outs := rfl
@[simp] theorem launchOp_mem (s : State) (gid ctx core : Nat) (cls : Cls) (op : Op) : (launchOp s gid ctx core cls op).mem = s.mem := rfl
@[simp] theorem launchOp_cxlMem (s : State) (gid ctx core : Nat) (cls : Cls) (op : Op) : (launchOp s gid ctx core cls op).cxlMem = s.cxlMem := rfl
@[simp] theorem launchOp_cxlCaps (s : State) (gid ctx core : Nat) (cls : Cls) (op : Op) : (launchOp s gid ctx core cls op).cxlCaps = s.cxlCaps := rfl
@[simp] theorem launchOp_l2 (s : State) (gid ctx core : Nat) (cls : Cls) (op : Op) : (launchOp s gid ctx core cls op).l2 = s.l2 := rfl
@[simp] theorem launchOp_plru (s : State) (gid ctx core : Nat) (cls : Cls) (op : Op) : (launchOp s gid ctx core cls op).plru = s.plru := rfl
@[simp] theorem launchOp_llc (s : State) (gid ctx core : Nat) (cls : Cls) (op : Op) : (launchOp s gid ctx core cls op).llc = s.llc := rfl
@[simp] theorem launchOp_homes (s : State) (gid ctx core : Nat) (cls : Cls) (op : Op) : (launchOp s gid ctx core cls op).homes = s.homes := rfl
@[simp] theorem launchOp_l1 (s : State) (gid ctx core : Nat) (cls : Cls) (op : Op) : (launchOp s gid ctx core cls op).l1 = s.l1 := rfl
@[simp] theorem launchOp_icache (s : State) (gid ctx core : Nat) (cls : Cls) (op : Op) : (launchOp s gid ctx core cls op).icache = s.icache := rfl
@[simp] theorem launchOp_recallSent (s : State) (gid ctx core : Nat) (cls : Cls) (op : Op) : (launchOp s gid ctx core cls op).recallSent = s.recallSent := rfl
@[simp] theorem launchOp_recallSeen (s : State) (gid ctx core : Nat) (cls : Cls) (op : Op) : (launchOp s gid ctx core cls op).recallSeen = s.recallSeen := rfl
@[simp] theorem launchOp_beatSent (s : State) (gid ctx core : Nat) (cls : Cls) (op : Op) : (launchOp s gid ctx core cls op).beatSent = s.beatSent := rfl
@[simp] theorem launchOp_beatSeq (s : State) (gid ctx core : Nat) (cls : Cls) (op : Op) : (launchOp s gid ctx core cls op).beatSeq = s.beatSeq := rfl
@[simp] theorem launchOp_beatTime (s : State) (gid ctx core : Nat) (cls : Cls) (op : Op) : (launchOp s gid ctx core cls op).beatTime = s.beatTime := rfl
@[simp] theorem launchOp_blind (s : State) (gid ctx core : Nat) (cls : Cls) (op : Op) : (launchOp s gid ctx core cls op).blind = s.blind := rfl
@[simp] theorem launchOp_tlb (s : State) (gid ctx core : Nat) (cls : Cls) (op : Op) : (launchOp s gid ctx core cls op).tlb = s.tlb := rfl
@[simp] theorem launchOp_ctxs (s : State) (gid ctx core : Nat) (cls : Cls) (op : Op) : (launchOp s gid ctx core cls op).ctxs = s.ctxs := rfl
@[simp] theorem launchOp_grids (s : State) (gid ctx core : Nat) (cls : Cls) (op : Op) : (launchOp s gid ctx core cls op).grids = s.grids := rfl
@[simp] theorem launchOp_gridSeq (s : State) (gid ctx core : Nat) (cls : Cls) (op : Op) : (launchOp s gid ctx core cls op).gridSeq = s.gridSeq := rfl
@[simp] theorem launchOp_dispPassed (s : State) (gid ctx core : Nat) (cls : Cls) (op : Op) : (launchOp s gid ctx core cls op).dispPassed = s.dispPassed := rfl
@[simp] theorem launchOp_lastDie (s : State) (gid ctx core : Nat) (cls : Cls) (op : Op) : (launchOp s gid ctx core cls op).lastDie = s.lastDie := rfl
@[simp] theorem launchOp_taskAge (s : State) (gid ctx core : Nat) (cls : Cls) (op : Op) : (launchOp s gid ctx core cls op).taskAge = s.taskAge := rfl
@[simp] theorem launchOp_pool (s : State) (gid ctx core : Nat) (cls : Cls) (op : Op) : (launchOp s gid ctx core cls op).pool = s.pool := rfl
@[simp] theorem launchOp_formed (s : State) (gid ctx core : Nat) (cls : Cls) (op : Op) : (launchOp s gid ctx core cls op).formed = s.formed := rfl
@[simp] theorem launchOp_clusters (s : State) (gid ctx core : Nat) (cls : Cls) (op : Op) : (launchOp s gid ctx core cls op).clusters = s.clusters := rfl
@[simp] theorem launchOp_teams (s : State) (gid ctx core : Nat) (cls : Cls) (op : Op) : (launchOp s gid ctx core cls op).teams = s.teams := rfl
@[simp] theorem launchOp_groups (s : State) (gid ctx core : Nat) (cls : Cls) (op : Op) : (launchOp s gid ctx core cls op).groups = s.groups := rfl
@[simp] theorem launchOp_parts (s : State) (gid ctx core : Nat) (cls : Cls) (op : Op) : (launchOp s gid ctx core cls op).parts = s.parts := rfl
@[simp] theorem launchOp_canes (s : State) (gid ctx core : Nat) (cls : Cls) (op : Op) : (launchOp s gid ctx core cls op).canes = s.canes := rfl
@[simp] theorem launchOp_badMem (s : State) (gid ctx core : Nat) (cls : Cls) (op : Op) : (launchOp s gid ctx core cls op).badMem = s.badMem := rfl
@[simp] theorem launchOp_badCane (s : State) (gid ctx core : Nat) (cls : Cls) (op : Op) : (launchOp s gid ctx core cls op).badCane = s.badCane := rfl
@[simp] theorem launchOp_resumes (s : State) (gid ctx core : Nat) (cls : Cls) (op : Op) : (launchOp s gid ctx core cls op).resumes = s.resumes := rfl
@[simp] theorem launchOp_spares (s : State) (gid ctx core : Nat) (cls : Cls) (op : Op) : (launchOp s gid ctx core cls op).spares = s.spares := rfl
@[simp] theorem launchOp_sites (s : State) (gid ctx core : Nat) (cls : Cls) (op : Op) : (launchOp s gid ctx core cls op).sites = s.sites := rfl
@[simp] theorem launchOp_failedSites (s : State) (gid ctx core : Nat) (cls : Cls) (op : Op) : (launchOp s gid ctx core cls op).failedSites = s.failedSites := rfl
@[simp] theorem launchOp_unitEvents (s : State) (gid ctx core : Nat) (cls : Cls) (op : Op) : (launchOp s gid ctx core cls op).unitEvents = s.unitEvents := rfl
@[simp] theorem launchOp_margins (s : State) (gid ctx core : Nat) (cls : Cls) (op : Op) : (launchOp s gid ctx core cls op).margins = s.margins := rfl
@[simp] theorem launchOp_fatalSent (s : State) (gid ctx core : Nat) (cls : Cls) (op : Op) : (launchOp s gid ctx core cls op).fatalSent = s.fatalSent := rfl

/-! `launchPart` changes nextId and pend alone. -/

@[simp] theorem launchPart_time (s : State) (word gid ctx core : Nat) (cls : Cls) (op : Op) : (launchPart s word gid ctx core cls op).time = s.time := rfl
@[simp] theorem launchPart_turns (s : State) (word gid ctx core : Nat) (cls : Cls) (op : Op) : (launchPart s word gid ctx core cls op).turns = s.turns := rfl
@[simp] theorem launchPart_focus (s : State) (word gid ctx core : Nat) (cls : Cls) (op : Op) : (launchPart s word gid ctx core cls op).focus = s.focus := rfl
@[simp] theorem launchPart_freeCount (s : State) (word gid ctx core : Nat) (cls : Cls) (op : Op) : (launchPart s word gid ctx core cls op).freeCount = s.freeCount := rfl
@[simp] theorem launchPart_power (s : State) (word gid ctx core : Nat) (cls : Cls) (op : Op) : (launchPart s word gid ctx core cls op).power = s.power := rfl
@[simp] theorem launchPart_cap (s : State) (word gid ctx core : Nat) (cls : Cls) (op : Op) : (launchPart s word gid ctx core cls op).cap = s.cap := rfl
@[simp] theorem launchPart_throttle (s : State) (word gid ctx core : Nat) (cls : Cls) (op : Op) : (launchPart s word gid ctx core cls op).throttle = s.throttle := rfl
@[simp] theorem launchPart_status (s : State) (word gid ctx core : Nat) (cls : Cls) (op : Op) : (launchPart s word gid ctx core cls op).status = s.status := rfl
@[simp] theorem launchPart_corr (s : State) (word gid ctx core : Nat) (cls : Cls) (op : Op) : (launchPart s word gid ctx core cls op).corr = s.corr := rfl
@[simp] theorem launchPart_dropPackets (s : State) (word gid ctx core : Nat) (cls : Cls) (op : Op) : (launchPart s word gid ctx core cls op).dropPackets = s.dropPackets := rfl
@[simp] theorem launchPart_dropReductions (s : State) (word gid ctx core : Nat) (cls : Cls) (op : Op) : (launchPart s word gid ctx core cls op).dropReductions = s.dropReductions := rfl
@[simp] theorem launchPart_log (s : State) (word gid ctx core : Nat) (cls : Cls) (op : Op) : (launchPart s word gid ctx core cls op).log = s.log := rfl
@[simp] theorem launchPart_sensors (s : State) (word gid ctx core : Nat) (cls : Cls) (op : Op) : (launchPart s word gid ctx core cls op).sensors = s.sensors := rfl
@[simp] theorem launchPart_sampled (s : State) (word gid ctx core : Nat) (cls : Cls) (op : Op) : (launchPart s word gid ctx core cls op).sampled = s.sampled := rfl
@[simp] theorem launchPart_firmware (s : State) (word gid ctx core : Nat) (cls : Cls) (op : Op) : (launchPart s word gid ctx core cls op).firmware = s.firmware := rfl
@[simp] theorem launchPart_operatorKey (s : State) (word gid ctx core : Nat) (cls : Cls) (op : Op) : (launchPart s word gid ctx core cls op).operatorKey = s.operatorKey := rfl
@[simp] theorem launchPart_jobs (s : State) (word gid ctx core : Nat) (cls : Cls) (op : Op) : (launchPart s word gid ctx core cls op).jobs = s.jobs := rfl
@[simp] theorem launchPart_trees (s : State) (word gid ctx core : Nat) (cls : Cls) (op : Op) : (launchPart s word gid ctx core cls op).trees = s.trees := rfl
@[simp] theorem launchPart_atTable (s : State) (word gid ctx core : Nat) (cls : Cls) (op : Op) : (launchPart s word gid ctx core cls op).atTable = s.atTable := rfl
@[simp] theorem launchPart_atRemoved (s : State) (word gid ctx core : Nat) (cls : Cls) (op : Op) : (launchPart s word gid ctx core cls op).atRemoved = s.atRemoved := rfl
@[simp] theorem launchPart_atPrev (s : State) (word gid ctx core : Nat) (cls : Cls) (op : Op) : (launchPart s word gid ctx core cls op).atPrev = s.atPrev := rfl
@[simp] theorem launchPart_atBase (s : State) (word gid ctx core : Nat) (cls : Cls) (op : Op) : (launchPart s word gid ctx core cls op).atBase = s.atBase := rfl
@[simp] theorem launchPart_atBusy (s : State) (word gid ctx core : Nat) (cls : Cls) (op : Op) : (launchPart s word gid ctx core cls op).atBusy = s.atBusy := rfl
@[simp] theorem launchPart_ctxSel (s : State) (word gid ctx core : Nat) (cls : Cls) (op : Op) : (launchPart s word gid ctx core cls op).ctxSel = s.ctxSel := rfl
@[simp] theorem launchPart_stBlk (s : State) (word gid ctx core : Nat) (cls : Cls) (op : Op) : (launchPart s word gid ctx core cls op).stBlk = s.stBlk := rfl
@[simp] theorem launchPart_waits (s : State) (word gid ctx core : Nat) (cls : Cls) (op : Op) : (launchPart s word gid ctx core cls op).waits = s.waits := rfl
@[simp] theorem launchPart_queued (s : State) (word gid ctx core : Nat) (cls : Cls) (op : Op) : (launchPart s word gid ctx core cls op).queued = s.queued := rfl
@[simp] theorem launchPart_mgmtOut (s : State) (word gid ctx core : Nat) (cls : Cls) (op : Op) : (launchPart s word gid ctx core cls op).mgmtOut = s.mgmtOut := rfl
@[simp] theorem launchPart_msgs (s : State) (word gid ctx core : Nat) (cls : Cls) (op : Op) : (launchPart s word gid ctx core cls op).msgs = s.msgs := rfl
@[simp] theorem launchPart_noticeSeq (s : State) (word gid ctx core : Nat) (cls : Cls) (op : Op) : (launchPart s word gid ctx core cls op).noticeSeq = s.noticeSeq := rfl
@[simp] theorem launchPart_outs (s : State) (word gid ctx core : Nat) (cls : Cls) (op : Op) : (launchPart s word gid ctx core cls op).outs = s.outs := rfl
@[simp] theorem launchPart_mem (s : State) (word gid ctx core : Nat) (cls : Cls) (op : Op) : (launchPart s word gid ctx core cls op).mem = s.mem := rfl
@[simp] theorem launchPart_cxlMem (s : State) (word gid ctx core : Nat) (cls : Cls) (op : Op) : (launchPart s word gid ctx core cls op).cxlMem = s.cxlMem := rfl
@[simp] theorem launchPart_cxlCaps (s : State) (word gid ctx core : Nat) (cls : Cls) (op : Op) : (launchPart s word gid ctx core cls op).cxlCaps = s.cxlCaps := rfl
@[simp] theorem launchPart_l2 (s : State) (word gid ctx core : Nat) (cls : Cls) (op : Op) : (launchPart s word gid ctx core cls op).l2 = s.l2 := rfl
@[simp] theorem launchPart_plru (s : State) (word gid ctx core : Nat) (cls : Cls) (op : Op) : (launchPart s word gid ctx core cls op).plru = s.plru := rfl
@[simp] theorem launchPart_llc (s : State) (word gid ctx core : Nat) (cls : Cls) (op : Op) : (launchPart s word gid ctx core cls op).llc = s.llc := rfl
@[simp] theorem launchPart_homes (s : State) (word gid ctx core : Nat) (cls : Cls) (op : Op) : (launchPart s word gid ctx core cls op).homes = s.homes := rfl
@[simp] theorem launchPart_l1 (s : State) (word gid ctx core : Nat) (cls : Cls) (op : Op) : (launchPart s word gid ctx core cls op).l1 = s.l1 := rfl
@[simp] theorem launchPart_icache (s : State) (word gid ctx core : Nat) (cls : Cls) (op : Op) : (launchPart s word gid ctx core cls op).icache = s.icache := rfl
@[simp] theorem launchPart_recallSent (s : State) (word gid ctx core : Nat) (cls : Cls) (op : Op) : (launchPart s word gid ctx core cls op).recallSent = s.recallSent := rfl
@[simp] theorem launchPart_recallSeen (s : State) (word gid ctx core : Nat) (cls : Cls) (op : Op) : (launchPart s word gid ctx core cls op).recallSeen = s.recallSeen := rfl
@[simp] theorem launchPart_beatSent (s : State) (word gid ctx core : Nat) (cls : Cls) (op : Op) : (launchPart s word gid ctx core cls op).beatSent = s.beatSent := rfl
@[simp] theorem launchPart_beatSeq (s : State) (word gid ctx core : Nat) (cls : Cls) (op : Op) : (launchPart s word gid ctx core cls op).beatSeq = s.beatSeq := rfl
@[simp] theorem launchPart_beatTime (s : State) (word gid ctx core : Nat) (cls : Cls) (op : Op) : (launchPart s word gid ctx core cls op).beatTime = s.beatTime := rfl
@[simp] theorem launchPart_blind (s : State) (word gid ctx core : Nat) (cls : Cls) (op : Op) : (launchPart s word gid ctx core cls op).blind = s.blind := rfl
@[simp] theorem launchPart_tlb (s : State) (word gid ctx core : Nat) (cls : Cls) (op : Op) : (launchPart s word gid ctx core cls op).tlb = s.tlb := rfl
@[simp] theorem launchPart_ctxs (s : State) (word gid ctx core : Nat) (cls : Cls) (op : Op) : (launchPart s word gid ctx core cls op).ctxs = s.ctxs := rfl
@[simp] theorem launchPart_grids (s : State) (word gid ctx core : Nat) (cls : Cls) (op : Op) : (launchPart s word gid ctx core cls op).grids = s.grids := rfl
@[simp] theorem launchPart_gridSeq (s : State) (word gid ctx core : Nat) (cls : Cls) (op : Op) : (launchPart s word gid ctx core cls op).gridSeq = s.gridSeq := rfl
@[simp] theorem launchPart_dispPassed (s : State) (word gid ctx core : Nat) (cls : Cls) (op : Op) : (launchPart s word gid ctx core cls op).dispPassed = s.dispPassed := rfl
@[simp] theorem launchPart_lastDie (s : State) (word gid ctx core : Nat) (cls : Cls) (op : Op) : (launchPart s word gid ctx core cls op).lastDie = s.lastDie := rfl
@[simp] theorem launchPart_taskAge (s : State) (word gid ctx core : Nat) (cls : Cls) (op : Op) : (launchPart s word gid ctx core cls op).taskAge = s.taskAge := rfl
@[simp] theorem launchPart_pool (s : State) (word gid ctx core : Nat) (cls : Cls) (op : Op) : (launchPart s word gid ctx core cls op).pool = s.pool := rfl
@[simp] theorem launchPart_formed (s : State) (word gid ctx core : Nat) (cls : Cls) (op : Op) : (launchPart s word gid ctx core cls op).formed = s.formed := rfl
@[simp] theorem launchPart_clusters (s : State) (word gid ctx core : Nat) (cls : Cls) (op : Op) : (launchPart s word gid ctx core cls op).clusters = s.clusters := rfl
@[simp] theorem launchPart_teams (s : State) (word gid ctx core : Nat) (cls : Cls) (op : Op) : (launchPart s word gid ctx core cls op).teams = s.teams := rfl
@[simp] theorem launchPart_groups (s : State) (word gid ctx core : Nat) (cls : Cls) (op : Op) : (launchPart s word gid ctx core cls op).groups = s.groups := rfl
@[simp] theorem launchPart_parts (s : State) (word gid ctx core : Nat) (cls : Cls) (op : Op) : (launchPart s word gid ctx core cls op).parts = s.parts := rfl
@[simp] theorem launchPart_canes (s : State) (word gid ctx core : Nat) (cls : Cls) (op : Op) : (launchPart s word gid ctx core cls op).canes = s.canes := rfl
@[simp] theorem launchPart_badMem (s : State) (word gid ctx core : Nat) (cls : Cls) (op : Op) : (launchPart s word gid ctx core cls op).badMem = s.badMem := rfl
@[simp] theorem launchPart_badCane (s : State) (word gid ctx core : Nat) (cls : Cls) (op : Op) : (launchPart s word gid ctx core cls op).badCane = s.badCane := rfl
@[simp] theorem launchPart_resumes (s : State) (word gid ctx core : Nat) (cls : Cls) (op : Op) : (launchPart s word gid ctx core cls op).resumes = s.resumes := rfl
@[simp] theorem launchPart_spares (s : State) (word gid ctx core : Nat) (cls : Cls) (op : Op) : (launchPart s word gid ctx core cls op).spares = s.spares := rfl
@[simp] theorem launchPart_sites (s : State) (word gid ctx core : Nat) (cls : Cls) (op : Op) : (launchPart s word gid ctx core cls op).sites = s.sites := rfl
@[simp] theorem launchPart_failedSites (s : State) (word gid ctx core : Nat) (cls : Cls) (op : Op) : (launchPart s word gid ctx core cls op).failedSites = s.failedSites := rfl
@[simp] theorem launchPart_unitEvents (s : State) (word gid ctx core : Nat) (cls : Cls) (op : Op) : (launchPart s word gid ctx core cls op).unitEvents = s.unitEvents := rfl
@[simp] theorem launchPart_margins (s : State) (word gid ctx core : Nat) (cls : Cls) (op : Op) : (launchPart s word gid ctx core cls op).margins = s.margins := rfl
@[simp] theorem launchPart_fatalSent (s : State) (word gid ctx core : Nat) (cls : Cls) (op : Op) : (launchPart s word gid ctx core cls op).fatalSent = s.fatalSent := rfl

/-! `putPart` changes parts alone. -/

@[simp] theorem putPart_time (s : State) (p : Part) : (putPart s p).time = s.time := by unfold putPart; split <;> rfl
@[simp] theorem putPart_turns (s : State) (p : Part) : (putPart s p).turns = s.turns := by unfold putPart; split <;> rfl
@[simp] theorem putPart_focus (s : State) (p : Part) : (putPart s p).focus = s.focus := by unfold putPart; split <;> rfl
@[simp] theorem putPart_nextId (s : State) (p : Part) : (putPart s p).nextId = s.nextId := by unfold putPart; split <;> rfl
@[simp] theorem putPart_freeCount (s : State) (p : Part) : (putPart s p).freeCount = s.freeCount := by unfold putPart; split <;> rfl
@[simp] theorem putPart_power (s : State) (p : Part) : (putPart s p).power = s.power := by unfold putPart; split <;> rfl
@[simp] theorem putPart_cap (s : State) (p : Part) : (putPart s p).cap = s.cap := by unfold putPart; split <;> rfl
@[simp] theorem putPart_throttle (s : State) (p : Part) : (putPart s p).throttle = s.throttle := by unfold putPart; split <;> rfl
@[simp] theorem putPart_status (s : State) (p : Part) : (putPart s p).status = s.status := by unfold putPart; split <;> rfl
@[simp] theorem putPart_corr (s : State) (p : Part) : (putPart s p).corr = s.corr := by unfold putPart; split <;> rfl
@[simp] theorem putPart_dropPackets (s : State) (p : Part) : (putPart s p).dropPackets = s.dropPackets := by unfold putPart; split <;> rfl
@[simp] theorem putPart_dropReductions (s : State) (p : Part) : (putPart s p).dropReductions = s.dropReductions := by unfold putPart; split <;> rfl
@[simp] theorem putPart_log (s : State) (p : Part) : (putPart s p).log = s.log := by unfold putPart; split <;> rfl
@[simp] theorem putPart_sensors (s : State) (p : Part) : (putPart s p).sensors = s.sensors := by unfold putPart; split <;> rfl
@[simp] theorem putPart_sampled (s : State) (p : Part) : (putPart s p).sampled = s.sampled := by unfold putPart; split <;> rfl
@[simp] theorem putPart_firmware (s : State) (p : Part) : (putPart s p).firmware = s.firmware := by unfold putPart; split <;> rfl
@[simp] theorem putPart_operatorKey (s : State) (p : Part) : (putPart s p).operatorKey = s.operatorKey := by unfold putPart; split <;> rfl
@[simp] theorem putPart_jobs (s : State) (p : Part) : (putPart s p).jobs = s.jobs := by unfold putPart; split <;> rfl
@[simp] theorem putPart_trees (s : State) (p : Part) : (putPart s p).trees = s.trees := by unfold putPart; split <;> rfl
@[simp] theorem putPart_atTable (s : State) (p : Part) : (putPart s p).atTable = s.atTable := by unfold putPart; split <;> rfl
@[simp] theorem putPart_atRemoved (s : State) (p : Part) : (putPart s p).atRemoved = s.atRemoved := by unfold putPart; split <;> rfl
@[simp] theorem putPart_atPrev (s : State) (p : Part) : (putPart s p).atPrev = s.atPrev := by unfold putPart; split <;> rfl
@[simp] theorem putPart_atBase (s : State) (p : Part) : (putPart s p).atBase = s.atBase := by unfold putPart; split <;> rfl
@[simp] theorem putPart_atBusy (s : State) (p : Part) : (putPart s p).atBusy = s.atBusy := by unfold putPart; split <;> rfl
@[simp] theorem putPart_ctxSel (s : State) (p : Part) : (putPart s p).ctxSel = s.ctxSel := by unfold putPart; split <;> rfl
@[simp] theorem putPart_stBlk (s : State) (p : Part) : (putPart s p).stBlk = s.stBlk := by unfold putPart; split <;> rfl
@[simp] theorem putPart_waits (s : State) (p : Part) : (putPart s p).waits = s.waits := by unfold putPart; split <;> rfl
@[simp] theorem putPart_queued (s : State) (p : Part) : (putPart s p).queued = s.queued := by unfold putPart; split <;> rfl
@[simp] theorem putPart_mgmtOut (s : State) (p : Part) : (putPart s p).mgmtOut = s.mgmtOut := by unfold putPart; split <;> rfl
@[simp] theorem putPart_msgs (s : State) (p : Part) : (putPart s p).msgs = s.msgs := by unfold putPart; split <;> rfl
@[simp] theorem putPart_noticeSeq (s : State) (p : Part) : (putPart s p).noticeSeq = s.noticeSeq := by unfold putPart; split <;> rfl
@[simp] theorem putPart_outs (s : State) (p : Part) : (putPart s p).outs = s.outs := by unfold putPart; split <;> rfl
@[simp] theorem putPart_mem (s : State) (p : Part) : (putPart s p).mem = s.mem := by unfold putPart; split <;> rfl
@[simp] theorem putPart_cxlMem (s : State) (p : Part) : (putPart s p).cxlMem = s.cxlMem := by unfold putPart; split <;> rfl
@[simp] theorem putPart_cxlCaps (s : State) (p : Part) : (putPart s p).cxlCaps = s.cxlCaps := by unfold putPart; split <;> rfl
@[simp] theorem putPart_l2 (s : State) (p : Part) : (putPart s p).l2 = s.l2 := by unfold putPart; split <;> rfl
@[simp] theorem putPart_plru (s : State) (p : Part) : (putPart s p).plru = s.plru := by unfold putPart; split <;> rfl
@[simp] theorem putPart_llc (s : State) (p : Part) : (putPart s p).llc = s.llc := by unfold putPart; split <;> rfl
@[simp] theorem putPart_homes (s : State) (p : Part) : (putPart s p).homes = s.homes := by unfold putPart; split <;> rfl
@[simp] theorem putPart_l1 (s : State) (p : Part) : (putPart s p).l1 = s.l1 := by unfold putPart; split <;> rfl
@[simp] theorem putPart_icache (s : State) (p : Part) : (putPart s p).icache = s.icache := by unfold putPart; split <;> rfl
@[simp] theorem putPart_recallSent (s : State) (p : Part) : (putPart s p).recallSent = s.recallSent := by unfold putPart; split <;> rfl
@[simp] theorem putPart_recallSeen (s : State) (p : Part) : (putPart s p).recallSeen = s.recallSeen := by unfold putPart; split <;> rfl
@[simp] theorem putPart_beatSent (s : State) (p : Part) : (putPart s p).beatSent = s.beatSent := by unfold putPart; split <;> rfl
@[simp] theorem putPart_beatSeq (s : State) (p : Part) : (putPart s p).beatSeq = s.beatSeq := by unfold putPart; split <;> rfl
@[simp] theorem putPart_beatTime (s : State) (p : Part) : (putPart s p).beatTime = s.beatTime := by unfold putPart; split <;> rfl
@[simp] theorem putPart_blind (s : State) (p : Part) : (putPart s p).blind = s.blind := by unfold putPart; split <;> rfl
@[simp] theorem putPart_tlb (s : State) (p : Part) : (putPart s p).tlb = s.tlb := by unfold putPart; split <;> rfl
@[simp] theorem putPart_ctxs (s : State) (p : Part) : (putPart s p).ctxs = s.ctxs := by unfold putPart; split <;> rfl
@[simp] theorem putPart_grids (s : State) (p : Part) : (putPart s p).grids = s.grids := by unfold putPart; split <;> rfl
@[simp] theorem putPart_gridSeq (s : State) (p : Part) : (putPart s p).gridSeq = s.gridSeq := by unfold putPart; split <;> rfl
@[simp] theorem putPart_dispPassed (s : State) (p : Part) : (putPart s p).dispPassed = s.dispPassed := by unfold putPart; split <;> rfl
@[simp] theorem putPart_lastDie (s : State) (p : Part) : (putPart s p).lastDie = s.lastDie := by unfold putPart; split <;> rfl
@[simp] theorem putPart_taskAge (s : State) (p : Part) : (putPart s p).taskAge = s.taskAge := by unfold putPart; split <;> rfl
@[simp] theorem putPart_pool (s : State) (p : Part) : (putPart s p).pool = s.pool := by unfold putPart; split <;> rfl
@[simp] theorem putPart_formed (s : State) (p : Part) : (putPart s p).formed = s.formed := by unfold putPart; split <;> rfl
@[simp] theorem putPart_clusters (s : State) (p : Part) : (putPart s p).clusters = s.clusters := by unfold putPart; split <;> rfl
@[simp] theorem putPart_teams (s : State) (p : Part) : (putPart s p).teams = s.teams := by unfold putPart; split <;> rfl
@[simp] theorem putPart_groups (s : State) (p : Part) : (putPart s p).groups = s.groups := by unfold putPart; split <;> rfl
@[simp] theorem putPart_canes (s : State) (p : Part) : (putPart s p).canes = s.canes := by unfold putPart; split <;> rfl
@[simp] theorem putPart_badMem (s : State) (p : Part) : (putPart s p).badMem = s.badMem := by unfold putPart; split <;> rfl
@[simp] theorem putPart_badCane (s : State) (p : Part) : (putPart s p).badCane = s.badCane := by unfold putPart; split <;> rfl
@[simp] theorem putPart_resumes (s : State) (p : Part) : (putPart s p).resumes = s.resumes := by unfold putPart; split <;> rfl
@[simp] theorem putPart_pend (s : State) (p : Part) : (putPart s p).pend = s.pend := by unfold putPart; split <;> rfl
@[simp] theorem putPart_spares (s : State) (p : Part) : (putPart s p).spares = s.spares := by unfold putPart; split <;> rfl
@[simp] theorem putPart_sites (s : State) (p : Part) : (putPart s p).sites = s.sites := by unfold putPart; split <;> rfl
@[simp] theorem putPart_failedSites (s : State) (p : Part) : (putPart s p).failedSites = s.failedSites := by unfold putPart; split <;> rfl
@[simp] theorem putPart_unitEvents (s : State) (p : Part) : (putPart s p).unitEvents = s.unitEvents := by unfold putPart; split <;> rfl
@[simp] theorem putPart_margins (s : State) (p : Part) : (putPart s p).margins = s.margins := by unfold putPart; split <;> rfl
@[simp] theorem putPart_fatalSent (s : State) (p : Part) : (putPart s p).fatalSent = s.fatalSent := by unfold putPart; split <;> rfl

/-! `leavePart` changes parts alone. -/

@[simp] theorem leavePart_time (s : State) (g : Group) (b : Bool) : (leavePart s g b).time = s.time := by simp [leavePart]
@[simp] theorem leavePart_turns (s : State) (g : Group) (b : Bool) : (leavePart s g b).turns = s.turns := by simp [leavePart]
@[simp] theorem leavePart_focus (s : State) (g : Group) (b : Bool) : (leavePart s g b).focus = s.focus := by simp [leavePart]
@[simp] theorem leavePart_nextId (s : State) (g : Group) (b : Bool) : (leavePart s g b).nextId = s.nextId := by simp [leavePart]
@[simp] theorem leavePart_freeCount (s : State) (g : Group) (b : Bool) : (leavePart s g b).freeCount = s.freeCount := by simp [leavePart]
@[simp] theorem leavePart_power (s : State) (g : Group) (b : Bool) : (leavePart s g b).power = s.power := by simp [leavePart]
@[simp] theorem leavePart_cap (s : State) (g : Group) (b : Bool) : (leavePart s g b).cap = s.cap := by simp [leavePart]
@[simp] theorem leavePart_throttle (s : State) (g : Group) (b : Bool) : (leavePart s g b).throttle = s.throttle := by simp [leavePart]
@[simp] theorem leavePart_status (s : State) (g : Group) (b : Bool) : (leavePart s g b).status = s.status := by simp [leavePart]
@[simp] theorem leavePart_corr (s : State) (g : Group) (b : Bool) : (leavePart s g b).corr = s.corr := by simp [leavePart]
@[simp] theorem leavePart_dropPackets (s : State) (g : Group) (b : Bool) : (leavePart s g b).dropPackets = s.dropPackets := by simp [leavePart]
@[simp] theorem leavePart_dropReductions (s : State) (g : Group) (b : Bool) : (leavePart s g b).dropReductions = s.dropReductions := by simp [leavePart]
@[simp] theorem leavePart_log (s : State) (g : Group) (b : Bool) : (leavePart s g b).log = s.log := by simp [leavePart]
@[simp] theorem leavePart_sensors (s : State) (g : Group) (b : Bool) : (leavePart s g b).sensors = s.sensors := by simp [leavePart]
@[simp] theorem leavePart_sampled (s : State) (g : Group) (b : Bool) : (leavePart s g b).sampled = s.sampled := by simp [leavePart]
@[simp] theorem leavePart_firmware (s : State) (g : Group) (b : Bool) : (leavePart s g b).firmware = s.firmware := by simp [leavePart]
@[simp] theorem leavePart_operatorKey (s : State) (g : Group) (b : Bool) : (leavePart s g b).operatorKey = s.operatorKey := by simp [leavePart]
@[simp] theorem leavePart_jobs (s : State) (g : Group) (b : Bool) : (leavePart s g b).jobs = s.jobs := by simp [leavePart]
@[simp] theorem leavePart_trees (s : State) (g : Group) (b : Bool) : (leavePart s g b).trees = s.trees := by simp [leavePart]
@[simp] theorem leavePart_atTable (s : State) (g : Group) (b : Bool) : (leavePart s g b).atTable = s.atTable := by simp [leavePart]
@[simp] theorem leavePart_atRemoved (s : State) (g : Group) (b : Bool) : (leavePart s g b).atRemoved = s.atRemoved := by simp [leavePart]
@[simp] theorem leavePart_atPrev (s : State) (g : Group) (b : Bool) : (leavePart s g b).atPrev = s.atPrev := by simp [leavePart]
@[simp] theorem leavePart_atBase (s : State) (g : Group) (b : Bool) : (leavePart s g b).atBase = s.atBase := by simp [leavePart]
@[simp] theorem leavePart_atBusy (s : State) (g : Group) (b : Bool) : (leavePart s g b).atBusy = s.atBusy := by simp [leavePart]
@[simp] theorem leavePart_ctxSel (s : State) (g : Group) (b : Bool) : (leavePart s g b).ctxSel = s.ctxSel := by simp [leavePart]
@[simp] theorem leavePart_stBlk (s : State) (g : Group) (b : Bool) : (leavePart s g b).stBlk = s.stBlk := by simp [leavePart]
@[simp] theorem leavePart_waits (s : State) (g : Group) (b : Bool) : (leavePart s g b).waits = s.waits := by simp [leavePart]
@[simp] theorem leavePart_queued (s : State) (g : Group) (b : Bool) : (leavePart s g b).queued = s.queued := by simp [leavePart]
@[simp] theorem leavePart_mgmtOut (s : State) (g : Group) (b : Bool) : (leavePart s g b).mgmtOut = s.mgmtOut := by simp [leavePart]
@[simp] theorem leavePart_msgs (s : State) (g : Group) (b : Bool) : (leavePart s g b).msgs = s.msgs := by simp [leavePart]
@[simp] theorem leavePart_noticeSeq (s : State) (g : Group) (b : Bool) : (leavePart s g b).noticeSeq = s.noticeSeq := by simp [leavePart]
@[simp] theorem leavePart_outs (s : State) (g : Group) (b : Bool) : (leavePart s g b).outs = s.outs := by simp [leavePart]
@[simp] theorem leavePart_mem (s : State) (g : Group) (b : Bool) : (leavePart s g b).mem = s.mem := by simp [leavePart]
@[simp] theorem leavePart_cxlMem (s : State) (g : Group) (b : Bool) : (leavePart s g b).cxlMem = s.cxlMem := by simp [leavePart]
@[simp] theorem leavePart_cxlCaps (s : State) (g : Group) (b : Bool) : (leavePart s g b).cxlCaps = s.cxlCaps := by simp [leavePart]
@[simp] theorem leavePart_l2 (s : State) (g : Group) (b : Bool) : (leavePart s g b).l2 = s.l2 := by simp [leavePart]
@[simp] theorem leavePart_plru (s : State) (g : Group) (b : Bool) : (leavePart s g b).plru = s.plru := by simp [leavePart]
@[simp] theorem leavePart_llc (s : State) (g : Group) (b : Bool) : (leavePart s g b).llc = s.llc := by simp [leavePart]
@[simp] theorem leavePart_homes (s : State) (g : Group) (b : Bool) : (leavePart s g b).homes = s.homes := by simp [leavePart]
@[simp] theorem leavePart_l1 (s : State) (g : Group) (b : Bool) : (leavePart s g b).l1 = s.l1 := by simp [leavePart]
@[simp] theorem leavePart_icache (s : State) (g : Group) (b : Bool) : (leavePart s g b).icache = s.icache := by simp [leavePart]
@[simp] theorem leavePart_recallSent (s : State) (g : Group) (b : Bool) : (leavePart s g b).recallSent = s.recallSent := by simp [leavePart]
@[simp] theorem leavePart_recallSeen (s : State) (g : Group) (b : Bool) : (leavePart s g b).recallSeen = s.recallSeen := by simp [leavePart]
@[simp] theorem leavePart_beatSent (s : State) (g : Group) (b : Bool) : (leavePart s g b).beatSent = s.beatSent := by simp [leavePart]
@[simp] theorem leavePart_beatSeq (s : State) (g : Group) (b : Bool) : (leavePart s g b).beatSeq = s.beatSeq := by simp [leavePart]
@[simp] theorem leavePart_beatTime (s : State) (g : Group) (b : Bool) : (leavePart s g b).beatTime = s.beatTime := by simp [leavePart]
@[simp] theorem leavePart_blind (s : State) (g : Group) (b : Bool) : (leavePart s g b).blind = s.blind := by simp [leavePart]
@[simp] theorem leavePart_tlb (s : State) (g : Group) (b : Bool) : (leavePart s g b).tlb = s.tlb := by simp [leavePart]
@[simp] theorem leavePart_ctxs (s : State) (g : Group) (b : Bool) : (leavePart s g b).ctxs = s.ctxs := by simp [leavePart]
@[simp] theorem leavePart_grids (s : State) (g : Group) (b : Bool) : (leavePart s g b).grids = s.grids := by simp [leavePart]
@[simp] theorem leavePart_gridSeq (s : State) (g : Group) (b : Bool) : (leavePart s g b).gridSeq = s.gridSeq := by simp [leavePart]
@[simp] theorem leavePart_dispPassed (s : State) (g : Group) (b : Bool) : (leavePart s g b).dispPassed = s.dispPassed := by simp [leavePart]
@[simp] theorem leavePart_lastDie (s : State) (g : Group) (b : Bool) : (leavePart s g b).lastDie = s.lastDie := by simp [leavePart]
@[simp] theorem leavePart_taskAge (s : State) (g : Group) (b : Bool) : (leavePart s g b).taskAge = s.taskAge := by simp [leavePart]
@[simp] theorem leavePart_pool (s : State) (g : Group) (b : Bool) : (leavePart s g b).pool = s.pool := by simp [leavePart]
@[simp] theorem leavePart_formed (s : State) (g : Group) (b : Bool) : (leavePart s g b).formed = s.formed := by simp [leavePart]
@[simp] theorem leavePart_clusters (s : State) (g : Group) (b : Bool) : (leavePart s g b).clusters = s.clusters := by simp [leavePart]
@[simp] theorem leavePart_teams (s : State) (g : Group) (b : Bool) : (leavePart s g b).teams = s.teams := by simp [leavePart]
@[simp] theorem leavePart_groups (s : State) (g : Group) (b : Bool) : (leavePart s g b).groups = s.groups := by simp [leavePart]
@[simp] theorem leavePart_canes (s : State) (g : Group) (b : Bool) : (leavePart s g b).canes = s.canes := by simp [leavePart]
@[simp] theorem leavePart_badMem (s : State) (g : Group) (b : Bool) : (leavePart s g b).badMem = s.badMem := by simp [leavePart]
@[simp] theorem leavePart_badCane (s : State) (g : Group) (b : Bool) : (leavePart s g b).badCane = s.badCane := by simp [leavePart]
@[simp] theorem leavePart_resumes (s : State) (g : Group) (b : Bool) : (leavePart s g b).resumes = s.resumes := by simp [leavePart]
@[simp] theorem leavePart_pend (s : State) (g : Group) (b : Bool) : (leavePart s g b).pend = s.pend := by simp [leavePart]
@[simp] theorem leavePart_spares (s : State) (g : Group) (b : Bool) : (leavePart s g b).spares = s.spares := by simp [leavePart]
@[simp] theorem leavePart_sites (s : State) (g : Group) (b : Bool) : (leavePart s g b).sites = s.sites := by simp [leavePart]
@[simp] theorem leavePart_failedSites (s : State) (g : Group) (b : Bool) : (leavePart s g b).failedSites = s.failedSites := by simp [leavePart]
@[simp] theorem leavePart_unitEvents (s : State) (g : Group) (b : Bool) : (leavePart s g b).unitEvents = s.unitEvents := by simp [leavePart]
@[simp] theorem leavePart_margins (s : State) (g : Group) (b : Bool) : (leavePart s g b).margins = s.margins := by simp [leavePart]
@[simp] theorem leavePart_fatalSent (s : State) (g : Group) (b : Bool) : (leavePart s g b).fatalSent = s.fatalSent := by simp [leavePart]

/-! `rotatePart` changes parts alone. -/

@[simp] theorem rotatePart_time (s : State) (g : Group) (b : Bool) : (rotatePart s g b).time = s.time := by simp only [rotatePart]; split <;> simp
@[simp] theorem rotatePart_turns (s : State) (g : Group) (b : Bool) : (rotatePart s g b).turns = s.turns := by simp only [rotatePart]; split <;> simp
@[simp] theorem rotatePart_focus (s : State) (g : Group) (b : Bool) : (rotatePart s g b).focus = s.focus := by simp only [rotatePart]; split <;> simp
@[simp] theorem rotatePart_nextId (s : State) (g : Group) (b : Bool) : (rotatePart s g b).nextId = s.nextId := by simp only [rotatePart]; split <;> simp
@[simp] theorem rotatePart_freeCount (s : State) (g : Group) (b : Bool) : (rotatePart s g b).freeCount = s.freeCount := by simp only [rotatePart]; split <;> simp
@[simp] theorem rotatePart_power (s : State) (g : Group) (b : Bool) : (rotatePart s g b).power = s.power := by simp only [rotatePart]; split <;> simp
@[simp] theorem rotatePart_cap (s : State) (g : Group) (b : Bool) : (rotatePart s g b).cap = s.cap := by simp only [rotatePart]; split <;> simp
@[simp] theorem rotatePart_throttle (s : State) (g : Group) (b : Bool) : (rotatePart s g b).throttle = s.throttle := by simp only [rotatePart]; split <;> simp
@[simp] theorem rotatePart_status (s : State) (g : Group) (b : Bool) : (rotatePart s g b).status = s.status := by simp only [rotatePart]; split <;> simp
@[simp] theorem rotatePart_corr (s : State) (g : Group) (b : Bool) : (rotatePart s g b).corr = s.corr := by simp only [rotatePart]; split <;> simp
@[simp] theorem rotatePart_dropPackets (s : State) (g : Group) (b : Bool) : (rotatePart s g b).dropPackets = s.dropPackets := by simp only [rotatePart]; split <;> simp
@[simp] theorem rotatePart_dropReductions (s : State) (g : Group) (b : Bool) : (rotatePart s g b).dropReductions = s.dropReductions := by simp only [rotatePart]; split <;> simp
@[simp] theorem rotatePart_log (s : State) (g : Group) (b : Bool) : (rotatePart s g b).log = s.log := by simp only [rotatePart]; split <;> simp
@[simp] theorem rotatePart_sensors (s : State) (g : Group) (b : Bool) : (rotatePart s g b).sensors = s.sensors := by simp only [rotatePart]; split <;> simp
@[simp] theorem rotatePart_sampled (s : State) (g : Group) (b : Bool) : (rotatePart s g b).sampled = s.sampled := by simp only [rotatePart]; split <;> simp
@[simp] theorem rotatePart_firmware (s : State) (g : Group) (b : Bool) : (rotatePart s g b).firmware = s.firmware := by simp only [rotatePart]; split <;> simp
@[simp] theorem rotatePart_operatorKey (s : State) (g : Group) (b : Bool) : (rotatePart s g b).operatorKey = s.operatorKey := by simp only [rotatePart]; split <;> simp
@[simp] theorem rotatePart_jobs (s : State) (g : Group) (b : Bool) : (rotatePart s g b).jobs = s.jobs := by simp only [rotatePart]; split <;> simp
@[simp] theorem rotatePart_trees (s : State) (g : Group) (b : Bool) : (rotatePart s g b).trees = s.trees := by simp only [rotatePart]; split <;> simp
@[simp] theorem rotatePart_atTable (s : State) (g : Group) (b : Bool) : (rotatePart s g b).atTable = s.atTable := by simp only [rotatePart]; split <;> simp
@[simp] theorem rotatePart_atRemoved (s : State) (g : Group) (b : Bool) : (rotatePart s g b).atRemoved = s.atRemoved := by simp only [rotatePart]; split <;> simp
@[simp] theorem rotatePart_atPrev (s : State) (g : Group) (b : Bool) : (rotatePart s g b).atPrev = s.atPrev := by simp only [rotatePart]; split <;> simp
@[simp] theorem rotatePart_atBase (s : State) (g : Group) (b : Bool) : (rotatePart s g b).atBase = s.atBase := by simp only [rotatePart]; split <;> simp
@[simp] theorem rotatePart_atBusy (s : State) (g : Group) (b : Bool) : (rotatePart s g b).atBusy = s.atBusy := by simp only [rotatePart]; split <;> simp
@[simp] theorem rotatePart_ctxSel (s : State) (g : Group) (b : Bool) : (rotatePart s g b).ctxSel = s.ctxSel := by simp only [rotatePart]; split <;> simp
@[simp] theorem rotatePart_stBlk (s : State) (g : Group) (b : Bool) : (rotatePart s g b).stBlk = s.stBlk := by simp only [rotatePart]; split <;> simp
@[simp] theorem rotatePart_waits (s : State) (g : Group) (b : Bool) : (rotatePart s g b).waits = s.waits := by simp only [rotatePart]; split <;> simp
@[simp] theorem rotatePart_queued (s : State) (g : Group) (b : Bool) : (rotatePart s g b).queued = s.queued := by simp only [rotatePart]; split <;> simp
@[simp] theorem rotatePart_mgmtOut (s : State) (g : Group) (b : Bool) : (rotatePart s g b).mgmtOut = s.mgmtOut := by simp only [rotatePart]; split <;> simp
@[simp] theorem rotatePart_msgs (s : State) (g : Group) (b : Bool) : (rotatePart s g b).msgs = s.msgs := by simp only [rotatePart]; split <;> simp
@[simp] theorem rotatePart_noticeSeq (s : State) (g : Group) (b : Bool) : (rotatePart s g b).noticeSeq = s.noticeSeq := by simp only [rotatePart]; split <;> simp
@[simp] theorem rotatePart_outs (s : State) (g : Group) (b : Bool) : (rotatePart s g b).outs = s.outs := by simp only [rotatePart]; split <;> simp
@[simp] theorem rotatePart_mem (s : State) (g : Group) (b : Bool) : (rotatePart s g b).mem = s.mem := by simp only [rotatePart]; split <;> simp
@[simp] theorem rotatePart_cxlMem (s : State) (g : Group) (b : Bool) : (rotatePart s g b).cxlMem = s.cxlMem := by simp only [rotatePart]; split <;> simp
@[simp] theorem rotatePart_cxlCaps (s : State) (g : Group) (b : Bool) : (rotatePart s g b).cxlCaps = s.cxlCaps := by simp only [rotatePart]; split <;> simp
@[simp] theorem rotatePart_l2 (s : State) (g : Group) (b : Bool) : (rotatePart s g b).l2 = s.l2 := by simp only [rotatePart]; split <;> simp
@[simp] theorem rotatePart_plru (s : State) (g : Group) (b : Bool) : (rotatePart s g b).plru = s.plru := by simp only [rotatePart]; split <;> simp
@[simp] theorem rotatePart_llc (s : State) (g : Group) (b : Bool) : (rotatePart s g b).llc = s.llc := by simp only [rotatePart]; split <;> simp
@[simp] theorem rotatePart_homes (s : State) (g : Group) (b : Bool) : (rotatePart s g b).homes = s.homes := by simp only [rotatePart]; split <;> simp
@[simp] theorem rotatePart_l1 (s : State) (g : Group) (b : Bool) : (rotatePart s g b).l1 = s.l1 := by simp only [rotatePart]; split <;> simp
@[simp] theorem rotatePart_icache (s : State) (g : Group) (b : Bool) : (rotatePart s g b).icache = s.icache := by simp only [rotatePart]; split <;> simp
@[simp] theorem rotatePart_recallSent (s : State) (g : Group) (b : Bool) : (rotatePart s g b).recallSent = s.recallSent := by simp only [rotatePart]; split <;> simp
@[simp] theorem rotatePart_recallSeen (s : State) (g : Group) (b : Bool) : (rotatePart s g b).recallSeen = s.recallSeen := by simp only [rotatePart]; split <;> simp
@[simp] theorem rotatePart_beatSent (s : State) (g : Group) (b : Bool) : (rotatePart s g b).beatSent = s.beatSent := by simp only [rotatePart]; split <;> simp
@[simp] theorem rotatePart_beatSeq (s : State) (g : Group) (b : Bool) : (rotatePart s g b).beatSeq = s.beatSeq := by simp only [rotatePart]; split <;> simp
@[simp] theorem rotatePart_beatTime (s : State) (g : Group) (b : Bool) : (rotatePart s g b).beatTime = s.beatTime := by simp only [rotatePart]; split <;> simp
@[simp] theorem rotatePart_blind (s : State) (g : Group) (b : Bool) : (rotatePart s g b).blind = s.blind := by simp only [rotatePart]; split <;> simp
@[simp] theorem rotatePart_tlb (s : State) (g : Group) (b : Bool) : (rotatePart s g b).tlb = s.tlb := by simp only [rotatePart]; split <;> simp
@[simp] theorem rotatePart_ctxs (s : State) (g : Group) (b : Bool) : (rotatePart s g b).ctxs = s.ctxs := by simp only [rotatePart]; split <;> simp
@[simp] theorem rotatePart_grids (s : State) (g : Group) (b : Bool) : (rotatePart s g b).grids = s.grids := by simp only [rotatePart]; split <;> simp
@[simp] theorem rotatePart_gridSeq (s : State) (g : Group) (b : Bool) : (rotatePart s g b).gridSeq = s.gridSeq := by simp only [rotatePart]; split <;> simp
@[simp] theorem rotatePart_dispPassed (s : State) (g : Group) (b : Bool) : (rotatePart s g b).dispPassed = s.dispPassed := by simp only [rotatePart]; split <;> simp
@[simp] theorem rotatePart_lastDie (s : State) (g : Group) (b : Bool) : (rotatePart s g b).lastDie = s.lastDie := by simp only [rotatePart]; split <;> simp
@[simp] theorem rotatePart_taskAge (s : State) (g : Group) (b : Bool) : (rotatePart s g b).taskAge = s.taskAge := by simp only [rotatePart]; split <;> simp
@[simp] theorem rotatePart_pool (s : State) (g : Group) (b : Bool) : (rotatePart s g b).pool = s.pool := by simp only [rotatePart]; split <;> simp
@[simp] theorem rotatePart_formed (s : State) (g : Group) (b : Bool) : (rotatePart s g b).formed = s.formed := by simp only [rotatePart]; split <;> simp
@[simp] theorem rotatePart_clusters (s : State) (g : Group) (b : Bool) : (rotatePart s g b).clusters = s.clusters := by simp only [rotatePart]; split <;> simp
@[simp] theorem rotatePart_teams (s : State) (g : Group) (b : Bool) : (rotatePart s g b).teams = s.teams := by simp only [rotatePart]; split <;> simp
@[simp] theorem rotatePart_groups (s : State) (g : Group) (b : Bool) : (rotatePart s g b).groups = s.groups := by simp only [rotatePart]; split <;> simp
@[simp] theorem rotatePart_canes (s : State) (g : Group) (b : Bool) : (rotatePart s g b).canes = s.canes := by simp only [rotatePart]; split <;> simp
@[simp] theorem rotatePart_badMem (s : State) (g : Group) (b : Bool) : (rotatePart s g b).badMem = s.badMem := by simp only [rotatePart]; split <;> simp
@[simp] theorem rotatePart_badCane (s : State) (g : Group) (b : Bool) : (rotatePart s g b).badCane = s.badCane := by simp only [rotatePart]; split <;> simp
@[simp] theorem rotatePart_resumes (s : State) (g : Group) (b : Bool) : (rotatePart s g b).resumes = s.resumes := by simp only [rotatePart]; split <;> simp
@[simp] theorem rotatePart_pend (s : State) (g : Group) (b : Bool) : (rotatePart s g b).pend = s.pend := by simp only [rotatePart]; split <;> simp
@[simp] theorem rotatePart_spares (s : State) (g : Group) (b : Bool) : (rotatePart s g b).spares = s.spares := by simp only [rotatePart]; split <;> simp
@[simp] theorem rotatePart_sites (s : State) (g : Group) (b : Bool) : (rotatePart s g b).sites = s.sites := by simp only [rotatePart]; split <;> simp
@[simp] theorem rotatePart_failedSites (s : State) (g : Group) (b : Bool) : (rotatePart s g b).failedSites = s.failedSites := by simp only [rotatePart]; split <;> simp
@[simp] theorem rotatePart_unitEvents (s : State) (g : Group) (b : Bool) : (rotatePart s g b).unitEvents = s.unitEvents := by simp only [rotatePart]; split <;> simp
@[simp] theorem rotatePart_margins (s : State) (g : Group) (b : Bool) : (rotatePart s g b).margins = s.margins := by simp only [rotatePart]; split <;> simp
@[simp] theorem rotatePart_fatalSent (s : State) (g : Group) (b : Bool) : (rotatePart s g b).fatalSent = s.fatalSent := by simp only [rotatePart]; split <;> simp

/-! `endPacking` changes parts alone. -/

@[simp] theorem endPacking_time (s : State) (g : Group) (b : Bool) : (endPacking s g b).time = s.time := by simp [endPacking]
@[simp] theorem endPacking_turns (s : State) (g : Group) (b : Bool) : (endPacking s g b).turns = s.turns := by simp [endPacking]
@[simp] theorem endPacking_focus (s : State) (g : Group) (b : Bool) : (endPacking s g b).focus = s.focus := by simp [endPacking]
@[simp] theorem endPacking_nextId (s : State) (g : Group) (b : Bool) : (endPacking s g b).nextId = s.nextId := by simp [endPacking]
@[simp] theorem endPacking_freeCount (s : State) (g : Group) (b : Bool) : (endPacking s g b).freeCount = s.freeCount := by simp [endPacking]
@[simp] theorem endPacking_power (s : State) (g : Group) (b : Bool) : (endPacking s g b).power = s.power := by simp [endPacking]
@[simp] theorem endPacking_cap (s : State) (g : Group) (b : Bool) : (endPacking s g b).cap = s.cap := by simp [endPacking]
@[simp] theorem endPacking_throttle (s : State) (g : Group) (b : Bool) : (endPacking s g b).throttle = s.throttle := by simp [endPacking]
@[simp] theorem endPacking_status (s : State) (g : Group) (b : Bool) : (endPacking s g b).status = s.status := by simp [endPacking]
@[simp] theorem endPacking_corr (s : State) (g : Group) (b : Bool) : (endPacking s g b).corr = s.corr := by simp [endPacking]
@[simp] theorem endPacking_dropPackets (s : State) (g : Group) (b : Bool) : (endPacking s g b).dropPackets = s.dropPackets := by simp [endPacking]
@[simp] theorem endPacking_dropReductions (s : State) (g : Group) (b : Bool) : (endPacking s g b).dropReductions = s.dropReductions := by simp [endPacking]
@[simp] theorem endPacking_log (s : State) (g : Group) (b : Bool) : (endPacking s g b).log = s.log := by simp [endPacking]
@[simp] theorem endPacking_sensors (s : State) (g : Group) (b : Bool) : (endPacking s g b).sensors = s.sensors := by simp [endPacking]
@[simp] theorem endPacking_sampled (s : State) (g : Group) (b : Bool) : (endPacking s g b).sampled = s.sampled := by simp [endPacking]
@[simp] theorem endPacking_firmware (s : State) (g : Group) (b : Bool) : (endPacking s g b).firmware = s.firmware := by simp [endPacking]
@[simp] theorem endPacking_operatorKey (s : State) (g : Group) (b : Bool) : (endPacking s g b).operatorKey = s.operatorKey := by simp [endPacking]
@[simp] theorem endPacking_jobs (s : State) (g : Group) (b : Bool) : (endPacking s g b).jobs = s.jobs := by simp [endPacking]
@[simp] theorem endPacking_trees (s : State) (g : Group) (b : Bool) : (endPacking s g b).trees = s.trees := by simp [endPacking]
@[simp] theorem endPacking_atTable (s : State) (g : Group) (b : Bool) : (endPacking s g b).atTable = s.atTable := by simp [endPacking]
@[simp] theorem endPacking_atRemoved (s : State) (g : Group) (b : Bool) : (endPacking s g b).atRemoved = s.atRemoved := by simp [endPacking]
@[simp] theorem endPacking_atPrev (s : State) (g : Group) (b : Bool) : (endPacking s g b).atPrev = s.atPrev := by simp [endPacking]
@[simp] theorem endPacking_atBase (s : State) (g : Group) (b : Bool) : (endPacking s g b).atBase = s.atBase := by simp [endPacking]
@[simp] theorem endPacking_atBusy (s : State) (g : Group) (b : Bool) : (endPacking s g b).atBusy = s.atBusy := by simp [endPacking]
@[simp] theorem endPacking_ctxSel (s : State) (g : Group) (b : Bool) : (endPacking s g b).ctxSel = s.ctxSel := by simp [endPacking]
@[simp] theorem endPacking_stBlk (s : State) (g : Group) (b : Bool) : (endPacking s g b).stBlk = s.stBlk := by simp [endPacking]
@[simp] theorem endPacking_waits (s : State) (g : Group) (b : Bool) : (endPacking s g b).waits = s.waits := by simp [endPacking]
@[simp] theorem endPacking_queued (s : State) (g : Group) (b : Bool) : (endPacking s g b).queued = s.queued := by simp [endPacking]
@[simp] theorem endPacking_mgmtOut (s : State) (g : Group) (b : Bool) : (endPacking s g b).mgmtOut = s.mgmtOut := by simp [endPacking]
@[simp] theorem endPacking_msgs (s : State) (g : Group) (b : Bool) : (endPacking s g b).msgs = s.msgs := by simp [endPacking]
@[simp] theorem endPacking_noticeSeq (s : State) (g : Group) (b : Bool) : (endPacking s g b).noticeSeq = s.noticeSeq := by simp [endPacking]
@[simp] theorem endPacking_outs (s : State) (g : Group) (b : Bool) : (endPacking s g b).outs = s.outs := by simp [endPacking]
@[simp] theorem endPacking_mem (s : State) (g : Group) (b : Bool) : (endPacking s g b).mem = s.mem := by simp [endPacking]
@[simp] theorem endPacking_cxlMem (s : State) (g : Group) (b : Bool) : (endPacking s g b).cxlMem = s.cxlMem := by simp [endPacking]
@[simp] theorem endPacking_cxlCaps (s : State) (g : Group) (b : Bool) : (endPacking s g b).cxlCaps = s.cxlCaps := by simp [endPacking]
@[simp] theorem endPacking_l2 (s : State) (g : Group) (b : Bool) : (endPacking s g b).l2 = s.l2 := by simp [endPacking]
@[simp] theorem endPacking_plru (s : State) (g : Group) (b : Bool) : (endPacking s g b).plru = s.plru := by simp [endPacking]
@[simp] theorem endPacking_llc (s : State) (g : Group) (b : Bool) : (endPacking s g b).llc = s.llc := by simp [endPacking]
@[simp] theorem endPacking_homes (s : State) (g : Group) (b : Bool) : (endPacking s g b).homes = s.homes := by simp [endPacking]
@[simp] theorem endPacking_l1 (s : State) (g : Group) (b : Bool) : (endPacking s g b).l1 = s.l1 := by simp [endPacking]
@[simp] theorem endPacking_icache (s : State) (g : Group) (b : Bool) : (endPacking s g b).icache = s.icache := by simp [endPacking]
@[simp] theorem endPacking_recallSent (s : State) (g : Group) (b : Bool) : (endPacking s g b).recallSent = s.recallSent := by simp [endPacking]
@[simp] theorem endPacking_recallSeen (s : State) (g : Group) (b : Bool) : (endPacking s g b).recallSeen = s.recallSeen := by simp [endPacking]
@[simp] theorem endPacking_beatSent (s : State) (g : Group) (b : Bool) : (endPacking s g b).beatSent = s.beatSent := by simp [endPacking]
@[simp] theorem endPacking_beatSeq (s : State) (g : Group) (b : Bool) : (endPacking s g b).beatSeq = s.beatSeq := by simp [endPacking]
@[simp] theorem endPacking_beatTime (s : State) (g : Group) (b : Bool) : (endPacking s g b).beatTime = s.beatTime := by simp [endPacking]
@[simp] theorem endPacking_blind (s : State) (g : Group) (b : Bool) : (endPacking s g b).blind = s.blind := by simp [endPacking]
@[simp] theorem endPacking_tlb (s : State) (g : Group) (b : Bool) : (endPacking s g b).tlb = s.tlb := by simp [endPacking]
@[simp] theorem endPacking_ctxs (s : State) (g : Group) (b : Bool) : (endPacking s g b).ctxs = s.ctxs := by simp [endPacking]
@[simp] theorem endPacking_grids (s : State) (g : Group) (b : Bool) : (endPacking s g b).grids = s.grids := by simp [endPacking]
@[simp] theorem endPacking_gridSeq (s : State) (g : Group) (b : Bool) : (endPacking s g b).gridSeq = s.gridSeq := by simp [endPacking]
@[simp] theorem endPacking_dispPassed (s : State) (g : Group) (b : Bool) : (endPacking s g b).dispPassed = s.dispPassed := by simp [endPacking]
@[simp] theorem endPacking_lastDie (s : State) (g : Group) (b : Bool) : (endPacking s g b).lastDie = s.lastDie := by simp [endPacking]
@[simp] theorem endPacking_taskAge (s : State) (g : Group) (b : Bool) : (endPacking s g b).taskAge = s.taskAge := by simp [endPacking]
@[simp] theorem endPacking_pool (s : State) (g : Group) (b : Bool) : (endPacking s g b).pool = s.pool := by simp [endPacking]
@[simp] theorem endPacking_formed (s : State) (g : Group) (b : Bool) : (endPacking s g b).formed = s.formed := by simp [endPacking]
@[simp] theorem endPacking_clusters (s : State) (g : Group) (b : Bool) : (endPacking s g b).clusters = s.clusters := by simp [endPacking]
@[simp] theorem endPacking_teams (s : State) (g : Group) (b : Bool) : (endPacking s g b).teams = s.teams := by simp [endPacking]
@[simp] theorem endPacking_groups (s : State) (g : Group) (b : Bool) : (endPacking s g b).groups = s.groups := by simp [endPacking]
@[simp] theorem endPacking_canes (s : State) (g : Group) (b : Bool) : (endPacking s g b).canes = s.canes := by simp [endPacking]
@[simp] theorem endPacking_badMem (s : State) (g : Group) (b : Bool) : (endPacking s g b).badMem = s.badMem := by simp [endPacking]
@[simp] theorem endPacking_badCane (s : State) (g : Group) (b : Bool) : (endPacking s g b).badCane = s.badCane := by simp [endPacking]
@[simp] theorem endPacking_resumes (s : State) (g : Group) (b : Bool) : (endPacking s g b).resumes = s.resumes := by simp [endPacking]
@[simp] theorem endPacking_pend (s : State) (g : Group) (b : Bool) : (endPacking s g b).pend = s.pend := by simp [endPacking]
@[simp] theorem endPacking_spares (s : State) (g : Group) (b : Bool) : (endPacking s g b).spares = s.spares := by simp [endPacking]
@[simp] theorem endPacking_sites (s : State) (g : Group) (b : Bool) : (endPacking s g b).sites = s.sites := by simp [endPacking]
@[simp] theorem endPacking_failedSites (s : State) (g : Group) (b : Bool) : (endPacking s g b).failedSites = s.failedSites := by simp [endPacking]
@[simp] theorem endPacking_unitEvents (s : State) (g : Group) (b : Bool) : (endPacking s g b).unitEvents = s.unitEvents := by simp [endPacking]
@[simp] theorem endPacking_margins (s : State) (g : Group) (b : Bool) : (endPacking s g b).margins = s.margins := by simp [endPacking]
@[simp] theorem endPacking_fatalSent (s : State) (g : Group) (b : Bool) : (endPacking s g b).fatalSent = s.fatalSent := by simp [endPacking]

@[simp] theorem putG_groups (s : State) (g : Group) : (putG s g).groups = replaceFirst (fun h => h.gid == g.gid) (fun _ => g) s.groups := rfl
@[simp] theorem putT_teams (s : State) (t : Team) : (putT s t).teams = replaceFirst (fun u => u.tid == t.tid) (fun _ => t) s.teams := rfl
@[simp] theorem launchOp_nextId (s : State) (gid ctx core : Nat) (cls : Cls) (op : Op) : (launchOp s gid ctx core cls op).nextId = s.nextId + 1 := rfl

/-! `ws` changes s alone. -/

@[simp] theorem ws_gid (g : Group) (n : Nat) (v : W64) : (ws g n v).gid = g.gid := by unfold ws; split <;> rfl
@[simp] theorem ws_ctx (g : Group) (n : Nat) (v : W64) : (ws g n v).ctx = g.ctx := by unfold ws; split <;> rfl
@[simp] theorem ws_grid (g : Group) (n : Nat) (v : W64) : (ws g n v).grid = g.grid := by unfold ws; split <;> rfl
@[simp] theorem ws_cluster (g : Group) (n : Nat) (v : W64) : (ws g n v).cluster = g.cluster := by unfold ws; split <;> rfl
@[simp] theorem ws_team (g : Group) (n : Nat) (v : W64) : (ws g n v).team = g.team := by unfold ws; split <;> rfl
@[simp] theorem ws_tidx (g : Group) (n : Nat) (v : W64) : (ws g n v).tidx = g.tidx := by unfold ws; split <;> rfl
@[simp] theorem ws_num (g : Group) (n : Nat) (v : W64) : (ws g n v).num = g.num := by unfold ws; split <;> rfl
@[simp] theorem ws_width (g : Group) (n : Nat) (v : W64) : (ws g n v).width = g.width := by unfold ws; split <;> rfl
@[simp] theorem ws_core (g : Group) (n : Nat) (v : W64) : (ws g n v).core = g.core := by unfold ws; split <;> rfl
@[simp] theorem ws_part (g : Group) (n : Nat) (v : W64) : (ws g n v).part = g.part := by unfold ws; split <;> rfl
@[simp] theorem ws_rows (g : Group) (n : Nat) (v : W64) : (ws g n v).rows = g.rows := by unfold ws; split <;> rfl
@[simp] theorem ws_accN (g : Group) (n : Nat) (v : W64) : (ws g n v).accN = g.accN := by unfold ws; split <;> rfl
@[simp] theorem ws_parN (g : Group) (n : Nat) (v : W64) : (ws g n v).parN = g.parN := by unfold ws; split <;> rfl
@[simp] theorem ws_depthD (g : Group) (n : Nat) (v : W64) : (ws g n v).depthD = g.depthD := by unfold ws; split <;> rfl
@[simp] theorem ws_task (g : Group) (n : Nat) (v : W64) : (ws g n v).task = g.task := by unfold ws; split <;> rfl
@[simp] theorem ws_v (g : Group) (n : Nat) (v : W64) : (ws g n v).v = g.v := by unfold ws; split <;> rfl
@[simp] theorem ws_m (g : Group) (n : Nat) (v : W64) : (ws g n v).m = g.m := by unfold ws; split <;> rfl
@[simp] theorem ws_slotA (g : Group) (n : Nat) (v : W64) : (ws g n v).slotA = g.slotA := by unfold ws; split <;> rfl
@[simp] theorem ws_slotB (g : Group) (n : Nat) (v : W64) : (ws g n v).slotB = g.slotB := by unfold ws; split <;> rfl
@[simp] theorem ws_flags (g : Group) (n : Nat) (v : W64) : (ws g n v).flags = g.flags := by unfold ws; split <;> rfl
@[simp] theorem ws_wct (g : Group) (n : Nat) (v : W64) : (ws g n v).wct = g.wct := by unfold ws; split <;> rfl
@[simp] theorem ws_pass (g : Group) (n : Nat) (v : W64) : (ws g n v).pass = g.pass := by unfold ws; split <;> rfl
@[simp] theorem ws_draw (g : Group) (n : Nat) (v : W64) : (ws g n v).draw = g.draw := by unfold ws; split <;> rfl
@[simp] theorem ws_prio (g : Group) (n : Nat) (v : W64) : (ws g n v).prio = g.prio := by unfold ws; split <;> rfl
@[simp] theorem ws_base (g : Group) (n : Nat) (v : W64) : (ws g n v).base = g.base := by unfold ws; split <;> rfl
@[simp] theorem ws_handler (g : Group) (n : Nat) (v : W64) : (ws g n v).handler = g.handler := by unfold ws; split <;> rfl
@[simp] theorem ws_replay (g : Group) (n : Nat) (v : W64) : (ws g n v).replay = g.replay := by unfold ws; split <;> rfl
@[simp] theorem ws_due (g : Group) (n : Nat) (v : W64) : (ws g n v).due = g.due := by unfold ws; split <;> rfl
@[simp] theorem ws_scr (g : Group) (n : Nat) (v : W64) : (ws g n v).scr = g.scr := by unfold ws; split <;> rfl
@[simp] theorem ws_tstat (g : Group) (n : Nat) (v : W64) : (ws g n v).tstat = g.tstat := by unfold ws; split <;> rfl
@[simp] theorem ws_twCount (g : Group) (n : Nat) (v : W64) : (ws g n v).twCount = g.twCount := by unfold ws; split <;> rfl
@[simp] theorem ws_twTime (g : Group) (n : Nat) (v : W64) : (ws g n v).twTime = g.twTime := by unfold ws; split <;> rfl
@[simp] theorem ws_farTime (g : Group) (n : Nat) (v : W64) : (ws g n v).farTime = g.farTime := by unfold ws; split <;> rfl
@[simp] theorem ws_latch (g : Group) (n : Nat) (v : W64) : (ws g n v).latch = g.latch := by unfold ws; split <;> rfl
@[simp] theorem ws_acc (g : Group) (n : Nat) (v : W64) : (ws g n v).acc = g.acc := by unfold ws; split <;> rfl
@[simp] theorem ws_par (g : Group) (n : Nat) (v : W64) : (ws g n v).par = g.par := by unfold ws; split <;> rfl
@[simp] theorem ws_spec (g : Group) (n : Nat) (v : W64) : (ws g n v).spec = g.spec := by unfold ws; split <;> rfl
@[simp] theorem ws_seed (g : Group) (n : Nat) (v : W64) : (ws g n v).seed = g.seed := by unfold ws; split <;> rfl
@[simp] theorem ws_table (g : Group) (n : Nat) (v : W64) : (ws g n v).table = g.table := by unfold ws; split <;> rfl
@[simp] theorem ws_wcb (g : Group) (n : Nat) (v : W64) : (ws g n v).wcb = g.wcb := by unfold ws; split <;> rfl
@[simp] theorem ws_walkFail (g : Group) (n : Nat) (v : W64) : (ws g n v).walkFail = g.walkFail := by unfold ws; split <;> rfl
@[simp] theorem ws_counters (g : Group) (n : Nat) (v : W64) : (ws g n v).counters = g.counters := by unfold ws; split <;> rfl
@[simp] theorem ws_resident (g : Group) (n : Nat) (v : W64) : (ws g n v).resident = g.resident := by unfold ws; split <;> rfl
@[simp] theorem ws_pontil (g : Group) (n : Nat) (v : W64) : (ws g n v).pontil = g.pontil := by unfold ws; split <;> rfl
@[simp] theorem ws_hold (g : Group) (n : Nat) (v : W64) : (ws g n v).hold = g.hold := by unfold ws; split <;> rfl
@[simp] theorem ws_curPrio (g : Group) (n : Nat) (v : W64) : (ws g n v).curPrio = g.curPrio := by unfold ws; split <;> rfl

/-! `wv` changes v alone. -/

@[simp] theorem wv_gid (g : Group) (reg lane : Nat) (v : W64) : (wv g reg lane v).gid = g.gid := rfl
@[simp] theorem wv_ctx (g : Group) (reg lane : Nat) (v : W64) : (wv g reg lane v).ctx = g.ctx := rfl
@[simp] theorem wv_grid (g : Group) (reg lane : Nat) (v : W64) : (wv g reg lane v).grid = g.grid := rfl
@[simp] theorem wv_cluster (g : Group) (reg lane : Nat) (v : W64) : (wv g reg lane v).cluster = g.cluster := rfl
@[simp] theorem wv_team (g : Group) (reg lane : Nat) (v : W64) : (wv g reg lane v).team = g.team := rfl
@[simp] theorem wv_tidx (g : Group) (reg lane : Nat) (v : W64) : (wv g reg lane v).tidx = g.tidx := rfl
@[simp] theorem wv_num (g : Group) (reg lane : Nat) (v : W64) : (wv g reg lane v).num = g.num := rfl
@[simp] theorem wv_width (g : Group) (reg lane : Nat) (v : W64) : (wv g reg lane v).width = g.width := rfl
@[simp] theorem wv_core (g : Group) (reg lane : Nat) (v : W64) : (wv g reg lane v).core = g.core := rfl
@[simp] theorem wv_part (g : Group) (reg lane : Nat) (v : W64) : (wv g reg lane v).part = g.part := rfl
@[simp] theorem wv_rows (g : Group) (reg lane : Nat) (v : W64) : (wv g reg lane v).rows = g.rows := rfl
@[simp] theorem wv_accN (g : Group) (reg lane : Nat) (v : W64) : (wv g reg lane v).accN = g.accN := rfl
@[simp] theorem wv_parN (g : Group) (reg lane : Nat) (v : W64) : (wv g reg lane v).parN = g.parN := rfl
@[simp] theorem wv_depthD (g : Group) (reg lane : Nat) (v : W64) : (wv g reg lane v).depthD = g.depthD := rfl
@[simp] theorem wv_task (g : Group) (reg lane : Nat) (v : W64) : (wv g reg lane v).task = g.task := rfl
@[simp] theorem wv_s (g : Group) (reg lane : Nat) (v : W64) : (wv g reg lane v).s = g.s := rfl
@[simp] theorem wv_m (g : Group) (reg lane : Nat) (v : W64) : (wv g reg lane v).m = g.m := rfl
@[simp] theorem wv_slotA (g : Group) (reg lane : Nat) (v : W64) : (wv g reg lane v).slotA = g.slotA := rfl
@[simp] theorem wv_slotB (g : Group) (reg lane : Nat) (v : W64) : (wv g reg lane v).slotB = g.slotB := rfl
@[simp] theorem wv_flags (g : Group) (reg lane : Nat) (v : W64) : (wv g reg lane v).flags = g.flags := rfl
@[simp] theorem wv_wct (g : Group) (reg lane : Nat) (v : W64) : (wv g reg lane v).wct = g.wct := rfl
@[simp] theorem wv_pass (g : Group) (reg lane : Nat) (v : W64) : (wv g reg lane v).pass = g.pass := rfl
@[simp] theorem wv_draw (g : Group) (reg lane : Nat) (v : W64) : (wv g reg lane v).draw = g.draw := rfl
@[simp] theorem wv_prio (g : Group) (reg lane : Nat) (v : W64) : (wv g reg lane v).prio = g.prio := rfl
@[simp] theorem wv_base (g : Group) (reg lane : Nat) (v : W64) : (wv g reg lane v).base = g.base := rfl
@[simp] theorem wv_handler (g : Group) (reg lane : Nat) (v : W64) : (wv g reg lane v).handler = g.handler := rfl
@[simp] theorem wv_replay (g : Group) (reg lane : Nat) (v : W64) : (wv g reg lane v).replay = g.replay := rfl
@[simp] theorem wv_due (g : Group) (reg lane : Nat) (v : W64) : (wv g reg lane v).due = g.due := rfl
@[simp] theorem wv_scr (g : Group) (reg lane : Nat) (v : W64) : (wv g reg lane v).scr = g.scr := rfl
@[simp] theorem wv_tstat (g : Group) (reg lane : Nat) (v : W64) : (wv g reg lane v).tstat = g.tstat := rfl
@[simp] theorem wv_twCount (g : Group) (reg lane : Nat) (v : W64) : (wv g reg lane v).twCount = g.twCount := rfl
@[simp] theorem wv_twTime (g : Group) (reg lane : Nat) (v : W64) : (wv g reg lane v).twTime = g.twTime := rfl
@[simp] theorem wv_farTime (g : Group) (reg lane : Nat) (v : W64) : (wv g reg lane v).farTime = g.farTime := rfl
@[simp] theorem wv_latch (g : Group) (reg lane : Nat) (v : W64) : (wv g reg lane v).latch = g.latch := rfl
@[simp] theorem wv_acc (g : Group) (reg lane : Nat) (v : W64) : (wv g reg lane v).acc = g.acc := rfl
@[simp] theorem wv_par (g : Group) (reg lane : Nat) (v : W64) : (wv g reg lane v).par = g.par := rfl
@[simp] theorem wv_spec (g : Group) (reg lane : Nat) (v : W64) : (wv g reg lane v).spec = g.spec := rfl
@[simp] theorem wv_seed (g : Group) (reg lane : Nat) (v : W64) : (wv g reg lane v).seed = g.seed := rfl
@[simp] theorem wv_table (g : Group) (reg lane : Nat) (v : W64) : (wv g reg lane v).table = g.table := rfl
@[simp] theorem wv_wcb (g : Group) (reg lane : Nat) (v : W64) : (wv g reg lane v).wcb = g.wcb := rfl
@[simp] theorem wv_walkFail (g : Group) (reg lane : Nat) (v : W64) : (wv g reg lane v).walkFail = g.walkFail := rfl
@[simp] theorem wv_counters (g : Group) (reg lane : Nat) (v : W64) : (wv g reg lane v).counters = g.counters := rfl
@[simp] theorem wv_resident (g : Group) (reg lane : Nat) (v : W64) : (wv g reg lane v).resident = g.resident := rfl
@[simp] theorem wv_pontil (g : Group) (reg lane : Nat) (v : W64) : (wv g reg lane v).pontil = g.pontil := rfl
@[simp] theorem wv_hold (g : Group) (reg lane : Nat) (v : W64) : (wv g reg lane v).hold = g.hold := rfl
@[simp] theorem wv_curPrio (g : Group) (reg lane : Nat) (v : W64) : (wv g reg lane v).curPrio = g.curPrio := rfl

/-! `wm` changes m alone. -/

@[simp] theorem wm_gid (g : Group) (k : Nat) (v : W64) : (wm g k v).gid = g.gid := rfl
@[simp] theorem wm_ctx (g : Group) (k : Nat) (v : W64) : (wm g k v).ctx = g.ctx := rfl
@[simp] theorem wm_grid (g : Group) (k : Nat) (v : W64) : (wm g k v).grid = g.grid := rfl
@[simp] theorem wm_cluster (g : Group) (k : Nat) (v : W64) : (wm g k v).cluster = g.cluster := rfl
@[simp] theorem wm_team (g : Group) (k : Nat) (v : W64) : (wm g k v).team = g.team := rfl
@[simp] theorem wm_tidx (g : Group) (k : Nat) (v : W64) : (wm g k v).tidx = g.tidx := rfl
@[simp] theorem wm_num (g : Group) (k : Nat) (v : W64) : (wm g k v).num = g.num := rfl
@[simp] theorem wm_width (g : Group) (k : Nat) (v : W64) : (wm g k v).width = g.width := rfl
@[simp] theorem wm_core (g : Group) (k : Nat) (v : W64) : (wm g k v).core = g.core := rfl
@[simp] theorem wm_part (g : Group) (k : Nat) (v : W64) : (wm g k v).part = g.part := rfl
@[simp] theorem wm_rows (g : Group) (k : Nat) (v : W64) : (wm g k v).rows = g.rows := rfl
@[simp] theorem wm_accN (g : Group) (k : Nat) (v : W64) : (wm g k v).accN = g.accN := rfl
@[simp] theorem wm_parN (g : Group) (k : Nat) (v : W64) : (wm g k v).parN = g.parN := rfl
@[simp] theorem wm_depthD (g : Group) (k : Nat) (v : W64) : (wm g k v).depthD = g.depthD := rfl
@[simp] theorem wm_task (g : Group) (k : Nat) (v : W64) : (wm g k v).task = g.task := rfl
@[simp] theorem wm_s (g : Group) (k : Nat) (v : W64) : (wm g k v).s = g.s := rfl
@[simp] theorem wm_v (g : Group) (k : Nat) (v : W64) : (wm g k v).v = g.v := rfl
@[simp] theorem wm_slotA (g : Group) (k : Nat) (v : W64) : (wm g k v).slotA = g.slotA := rfl
@[simp] theorem wm_slotB (g : Group) (k : Nat) (v : W64) : (wm g k v).slotB = g.slotB := rfl
@[simp] theorem wm_flags (g : Group) (k : Nat) (v : W64) : (wm g k v).flags = g.flags := rfl
@[simp] theorem wm_wct (g : Group) (k : Nat) (v : W64) : (wm g k v).wct = g.wct := rfl
@[simp] theorem wm_pass (g : Group) (k : Nat) (v : W64) : (wm g k v).pass = g.pass := rfl
@[simp] theorem wm_draw (g : Group) (k : Nat) (v : W64) : (wm g k v).draw = g.draw := rfl
@[simp] theorem wm_prio (g : Group) (k : Nat) (v : W64) : (wm g k v).prio = g.prio := rfl
@[simp] theorem wm_base (g : Group) (k : Nat) (v : W64) : (wm g k v).base = g.base := rfl
@[simp] theorem wm_handler (g : Group) (k : Nat) (v : W64) : (wm g k v).handler = g.handler := rfl
@[simp] theorem wm_replay (g : Group) (k : Nat) (v : W64) : (wm g k v).replay = g.replay := rfl
@[simp] theorem wm_due (g : Group) (k : Nat) (v : W64) : (wm g k v).due = g.due := rfl
@[simp] theorem wm_scr (g : Group) (k : Nat) (v : W64) : (wm g k v).scr = g.scr := rfl
@[simp] theorem wm_tstat (g : Group) (k : Nat) (v : W64) : (wm g k v).tstat = g.tstat := rfl
@[simp] theorem wm_twCount (g : Group) (k : Nat) (v : W64) : (wm g k v).twCount = g.twCount := rfl
@[simp] theorem wm_twTime (g : Group) (k : Nat) (v : W64) : (wm g k v).twTime = g.twTime := rfl
@[simp] theorem wm_farTime (g : Group) (k : Nat) (v : W64) : (wm g k v).farTime = g.farTime := rfl
@[simp] theorem wm_latch (g : Group) (k : Nat) (v : W64) : (wm g k v).latch = g.latch := rfl
@[simp] theorem wm_acc (g : Group) (k : Nat) (v : W64) : (wm g k v).acc = g.acc := rfl
@[simp] theorem wm_par (g : Group) (k : Nat) (v : W64) : (wm g k v).par = g.par := rfl
@[simp] theorem wm_spec (g : Group) (k : Nat) (v : W64) : (wm g k v).spec = g.spec := rfl
@[simp] theorem wm_seed (g : Group) (k : Nat) (v : W64) : (wm g k v).seed = g.seed := rfl
@[simp] theorem wm_table (g : Group) (k : Nat) (v : W64) : (wm g k v).table = g.table := rfl
@[simp] theorem wm_wcb (g : Group) (k : Nat) (v : W64) : (wm g k v).wcb = g.wcb := rfl
@[simp] theorem wm_walkFail (g : Group) (k : Nat) (v : W64) : (wm g k v).walkFail = g.walkFail := rfl
@[simp] theorem wm_counters (g : Group) (k : Nat) (v : W64) : (wm g k v).counters = g.counters := rfl
@[simp] theorem wm_resident (g : Group) (k : Nat) (v : W64) : (wm g k v).resident = g.resident := rfl
@[simp] theorem wm_pontil (g : Group) (k : Nat) (v : W64) : (wm g k v).pontil = g.pontil := rfl
@[simp] theorem wm_hold (g : Group) (k : Nat) (v : W64) : (wm g k v).hold = g.hold := rfl
@[simp] theorem wm_curPrio (g : Group) (k : Nat) (v : W64) : (wm g k v).curPrio = g.curPrio := rfl

/-! `setSlot` changes slotA and slotB alone. -/

@[simp] theorem setSlot_gid (g : Group) (b : Bool) (x : Slot) : (setSlot g b x).gid = g.gid := by unfold setSlot; split <;> rfl
@[simp] theorem setSlot_ctx (g : Group) (b : Bool) (x : Slot) : (setSlot g b x).ctx = g.ctx := by unfold setSlot; split <;> rfl
@[simp] theorem setSlot_grid (g : Group) (b : Bool) (x : Slot) : (setSlot g b x).grid = g.grid := by unfold setSlot; split <;> rfl
@[simp] theorem setSlot_cluster (g : Group) (b : Bool) (x : Slot) : (setSlot g b x).cluster = g.cluster := by unfold setSlot; split <;> rfl
@[simp] theorem setSlot_team (g : Group) (b : Bool) (x : Slot) : (setSlot g b x).team = g.team := by unfold setSlot; split <;> rfl
@[simp] theorem setSlot_tidx (g : Group) (b : Bool) (x : Slot) : (setSlot g b x).tidx = g.tidx := by unfold setSlot; split <;> rfl
@[simp] theorem setSlot_num (g : Group) (b : Bool) (x : Slot) : (setSlot g b x).num = g.num := by unfold setSlot; split <;> rfl
@[simp] theorem setSlot_width (g : Group) (b : Bool) (x : Slot) : (setSlot g b x).width = g.width := by unfold setSlot; split <;> rfl
@[simp] theorem setSlot_core (g : Group) (b : Bool) (x : Slot) : (setSlot g b x).core = g.core := by unfold setSlot; split <;> rfl
@[simp] theorem setSlot_part (g : Group) (b : Bool) (x : Slot) : (setSlot g b x).part = g.part := by unfold setSlot; split <;> rfl
@[simp] theorem setSlot_rows (g : Group) (b : Bool) (x : Slot) : (setSlot g b x).rows = g.rows := by unfold setSlot; split <;> rfl
@[simp] theorem setSlot_accN (g : Group) (b : Bool) (x : Slot) : (setSlot g b x).accN = g.accN := by unfold setSlot; split <;> rfl
@[simp] theorem setSlot_parN (g : Group) (b : Bool) (x : Slot) : (setSlot g b x).parN = g.parN := by unfold setSlot; split <;> rfl
@[simp] theorem setSlot_depthD (g : Group) (b : Bool) (x : Slot) : (setSlot g b x).depthD = g.depthD := by unfold setSlot; split <;> rfl
@[simp] theorem setSlot_task (g : Group) (b : Bool) (x : Slot) : (setSlot g b x).task = g.task := by unfold setSlot; split <;> rfl
@[simp] theorem setSlot_s (g : Group) (b : Bool) (x : Slot) : (setSlot g b x).s = g.s := by unfold setSlot; split <;> rfl
@[simp] theorem setSlot_v (g : Group) (b : Bool) (x : Slot) : (setSlot g b x).v = g.v := by unfold setSlot; split <;> rfl
@[simp] theorem setSlot_m (g : Group) (b : Bool) (x : Slot) : (setSlot g b x).m = g.m := by unfold setSlot; split <;> rfl
@[simp] theorem setSlot_flags (g : Group) (b : Bool) (x : Slot) : (setSlot g b x).flags = g.flags := by unfold setSlot; split <;> rfl
@[simp] theorem setSlot_wct (g : Group) (b : Bool) (x : Slot) : (setSlot g b x).wct = g.wct := by unfold setSlot; split <;> rfl
@[simp] theorem setSlot_pass (g : Group) (b : Bool) (x : Slot) : (setSlot g b x).pass = g.pass := by unfold setSlot; split <;> rfl
@[simp] theorem setSlot_draw (g : Group) (b : Bool) (x : Slot) : (setSlot g b x).draw = g.draw := by unfold setSlot; split <;> rfl
@[simp] theorem setSlot_prio (g : Group) (b : Bool) (x : Slot) : (setSlot g b x).prio = g.prio := by unfold setSlot; split <;> rfl
@[simp] theorem setSlot_base (g : Group) (b : Bool) (x : Slot) : (setSlot g b x).base = g.base := by unfold setSlot; split <;> rfl
@[simp] theorem setSlot_handler (g : Group) (b : Bool) (x : Slot) : (setSlot g b x).handler = g.handler := by unfold setSlot; split <;> rfl
@[simp] theorem setSlot_replay (g : Group) (b : Bool) (x : Slot) : (setSlot g b x).replay = g.replay := by unfold setSlot; split <;> rfl
@[simp] theorem setSlot_due (g : Group) (b : Bool) (x : Slot) : (setSlot g b x).due = g.due := by unfold setSlot; split <;> rfl
@[simp] theorem setSlot_scr (g : Group) (b : Bool) (x : Slot) : (setSlot g b x).scr = g.scr := by unfold setSlot; split <;> rfl
@[simp] theorem setSlot_tstat (g : Group) (b : Bool) (x : Slot) : (setSlot g b x).tstat = g.tstat := by unfold setSlot; split <;> rfl
@[simp] theorem setSlot_twCount (g : Group) (b : Bool) (x : Slot) : (setSlot g b x).twCount = g.twCount := by unfold setSlot; split <;> rfl
@[simp] theorem setSlot_twTime (g : Group) (b : Bool) (x : Slot) : (setSlot g b x).twTime = g.twTime := by unfold setSlot; split <;> rfl
@[simp] theorem setSlot_farTime (g : Group) (b : Bool) (x : Slot) : (setSlot g b x).farTime = g.farTime := by unfold setSlot; split <;> rfl
@[simp] theorem setSlot_latch (g : Group) (b : Bool) (x : Slot) : (setSlot g b x).latch = g.latch := by unfold setSlot; split <;> rfl
@[simp] theorem setSlot_acc (g : Group) (b : Bool) (x : Slot) : (setSlot g b x).acc = g.acc := by unfold setSlot; split <;> rfl
@[simp] theorem setSlot_par (g : Group) (b : Bool) (x : Slot) : (setSlot g b x).par = g.par := by unfold setSlot; split <;> rfl
@[simp] theorem setSlot_spec (g : Group) (b : Bool) (x : Slot) : (setSlot g b x).spec = g.spec := by unfold setSlot; split <;> rfl
@[simp] theorem setSlot_seed (g : Group) (b : Bool) (x : Slot) : (setSlot g b x).seed = g.seed := by unfold setSlot; split <;> rfl
@[simp] theorem setSlot_table (g : Group) (b : Bool) (x : Slot) : (setSlot g b x).table = g.table := by unfold setSlot; split <;> rfl
@[simp] theorem setSlot_wcb (g : Group) (b : Bool) (x : Slot) : (setSlot g b x).wcb = g.wcb := by unfold setSlot; split <;> rfl
@[simp] theorem setSlot_walkFail (g : Group) (b : Bool) (x : Slot) : (setSlot g b x).walkFail = g.walkFail := by unfold setSlot; split <;> rfl
@[simp] theorem setSlot_counters (g : Group) (b : Bool) (x : Slot) : (setSlot g b x).counters = g.counters := by unfold setSlot; split <;> rfl
@[simp] theorem setSlot_resident (g : Group) (b : Bool) (x : Slot) : (setSlot g b x).resident = g.resident := by unfold setSlot; split <;> rfl
@[simp] theorem setSlot_pontil (g : Group) (b : Bool) (x : Slot) : (setSlot g b x).pontil = g.pontil := by unfold setSlot; split <;> rfl
@[simp] theorem setSlot_hold (g : Group) (b : Bool) (x : Slot) : (setSlot g b x).hold = g.hold := by unfold setSlot; split <;> rfl
@[simp] theorem setSlot_curPrio (g : Group) (b : Bool) (x : Slot) : (setSlot g b x).curPrio = g.curPrio := by unfold setSlot; split <;> rfl

/-! `raiseFlags` changes flags alone. -/

@[simp] theorem raiseFlags_gid (g : Group) (f : BitVec 5) : (raiseFlags g f).gid = g.gid := rfl
@[simp] theorem raiseFlags_ctx (g : Group) (f : BitVec 5) : (raiseFlags g f).ctx = g.ctx := rfl
@[simp] theorem raiseFlags_grid (g : Group) (f : BitVec 5) : (raiseFlags g f).grid = g.grid := rfl
@[simp] theorem raiseFlags_cluster (g : Group) (f : BitVec 5) : (raiseFlags g f).cluster = g.cluster := rfl
@[simp] theorem raiseFlags_team (g : Group) (f : BitVec 5) : (raiseFlags g f).team = g.team := rfl
@[simp] theorem raiseFlags_tidx (g : Group) (f : BitVec 5) : (raiseFlags g f).tidx = g.tidx := rfl
@[simp] theorem raiseFlags_num (g : Group) (f : BitVec 5) : (raiseFlags g f).num = g.num := rfl
@[simp] theorem raiseFlags_width (g : Group) (f : BitVec 5) : (raiseFlags g f).width = g.width := rfl
@[simp] theorem raiseFlags_core (g : Group) (f : BitVec 5) : (raiseFlags g f).core = g.core := rfl
@[simp] theorem raiseFlags_part (g : Group) (f : BitVec 5) : (raiseFlags g f).part = g.part := rfl
@[simp] theorem raiseFlags_rows (g : Group) (f : BitVec 5) : (raiseFlags g f).rows = g.rows := rfl
@[simp] theorem raiseFlags_accN (g : Group) (f : BitVec 5) : (raiseFlags g f).accN = g.accN := rfl
@[simp] theorem raiseFlags_parN (g : Group) (f : BitVec 5) : (raiseFlags g f).parN = g.parN := rfl
@[simp] theorem raiseFlags_depthD (g : Group) (f : BitVec 5) : (raiseFlags g f).depthD = g.depthD := rfl
@[simp] theorem raiseFlags_task (g : Group) (f : BitVec 5) : (raiseFlags g f).task = g.task := rfl
@[simp] theorem raiseFlags_s (g : Group) (f : BitVec 5) : (raiseFlags g f).s = g.s := rfl
@[simp] theorem raiseFlags_v (g : Group) (f : BitVec 5) : (raiseFlags g f).v = g.v := rfl
@[simp] theorem raiseFlags_m (g : Group) (f : BitVec 5) : (raiseFlags g f).m = g.m := rfl
@[simp] theorem raiseFlags_slotA (g : Group) (f : BitVec 5) : (raiseFlags g f).slotA = g.slotA := rfl
@[simp] theorem raiseFlags_slotB (g : Group) (f : BitVec 5) : (raiseFlags g f).slotB = g.slotB := rfl
@[simp] theorem raiseFlags_wct (g : Group) (f : BitVec 5) : (raiseFlags g f).wct = g.wct := rfl
@[simp] theorem raiseFlags_pass (g : Group) (f : BitVec 5) : (raiseFlags g f).pass = g.pass := rfl
@[simp] theorem raiseFlags_draw (g : Group) (f : BitVec 5) : (raiseFlags g f).draw = g.draw := rfl
@[simp] theorem raiseFlags_prio (g : Group) (f : BitVec 5) : (raiseFlags g f).prio = g.prio := rfl
@[simp] theorem raiseFlags_base (g : Group) (f : BitVec 5) : (raiseFlags g f).base = g.base := rfl
@[simp] theorem raiseFlags_handler (g : Group) (f : BitVec 5) : (raiseFlags g f).handler = g.handler := rfl
@[simp] theorem raiseFlags_replay (g : Group) (f : BitVec 5) : (raiseFlags g f).replay = g.replay := rfl
@[simp] theorem raiseFlags_due (g : Group) (f : BitVec 5) : (raiseFlags g f).due = g.due := rfl
@[simp] theorem raiseFlags_scr (g : Group) (f : BitVec 5) : (raiseFlags g f).scr = g.scr := rfl
@[simp] theorem raiseFlags_tstat (g : Group) (f : BitVec 5) : (raiseFlags g f).tstat = g.tstat := rfl
@[simp] theorem raiseFlags_twCount (g : Group) (f : BitVec 5) : (raiseFlags g f).twCount = g.twCount := rfl
@[simp] theorem raiseFlags_twTime (g : Group) (f : BitVec 5) : (raiseFlags g f).twTime = g.twTime := rfl
@[simp] theorem raiseFlags_farTime (g : Group) (f : BitVec 5) : (raiseFlags g f).farTime = g.farTime := rfl
@[simp] theorem raiseFlags_latch (g : Group) (f : BitVec 5) : (raiseFlags g f).latch = g.latch := rfl
@[simp] theorem raiseFlags_acc (g : Group) (f : BitVec 5) : (raiseFlags g f).acc = g.acc := rfl
@[simp] theorem raiseFlags_par (g : Group) (f : BitVec 5) : (raiseFlags g f).par = g.par := rfl
@[simp] theorem raiseFlags_spec (g : Group) (f : BitVec 5) : (raiseFlags g f).spec = g.spec := rfl
@[simp] theorem raiseFlags_seed (g : Group) (f : BitVec 5) : (raiseFlags g f).seed = g.seed := rfl
@[simp] theorem raiseFlags_table (g : Group) (f : BitVec 5) : (raiseFlags g f).table = g.table := rfl
@[simp] theorem raiseFlags_wcb (g : Group) (f : BitVec 5) : (raiseFlags g f).wcb = g.wcb := rfl
@[simp] theorem raiseFlags_walkFail (g : Group) (f : BitVec 5) : (raiseFlags g f).walkFail = g.walkFail := rfl
@[simp] theorem raiseFlags_counters (g : Group) (f : BitVec 5) : (raiseFlags g f).counters = g.counters := rfl
@[simp] theorem raiseFlags_resident (g : Group) (f : BitVec 5) : (raiseFlags g f).resident = g.resident := rfl
@[simp] theorem raiseFlags_pontil (g : Group) (f : BitVec 5) : (raiseFlags g f).pontil = g.pontil := rfl
@[simp] theorem raiseFlags_hold (g : Group) (f : BitVec 5) : (raiseFlags g f).hold = g.hold := rfl
@[simp] theorem raiseFlags_curPrio (g : Group) (f : BitVec 5) : (raiseFlags g f).curPrio = g.curPrio := rfl

/-! `setReplay` changes replay alone. -/

@[simp] theorem setReplay_gid (g : Group) (b : Bool) (r : Option Replay) : (setReplay g b r).gid = g.gid := rfl
@[simp] theorem setReplay_ctx (g : Group) (b : Bool) (r : Option Replay) : (setReplay g b r).ctx = g.ctx := rfl
@[simp] theorem setReplay_grid (g : Group) (b : Bool) (r : Option Replay) : (setReplay g b r).grid = g.grid := rfl
@[simp] theorem setReplay_cluster (g : Group) (b : Bool) (r : Option Replay) : (setReplay g b r).cluster = g.cluster := rfl
@[simp] theorem setReplay_team (g : Group) (b : Bool) (r : Option Replay) : (setReplay g b r).team = g.team := rfl
@[simp] theorem setReplay_tidx (g : Group) (b : Bool) (r : Option Replay) : (setReplay g b r).tidx = g.tidx := rfl
@[simp] theorem setReplay_num (g : Group) (b : Bool) (r : Option Replay) : (setReplay g b r).num = g.num := rfl
@[simp] theorem setReplay_width (g : Group) (b : Bool) (r : Option Replay) : (setReplay g b r).width = g.width := rfl
@[simp] theorem setReplay_core (g : Group) (b : Bool) (r : Option Replay) : (setReplay g b r).core = g.core := rfl
@[simp] theorem setReplay_part (g : Group) (b : Bool) (r : Option Replay) : (setReplay g b r).part = g.part := rfl
@[simp] theorem setReplay_rows (g : Group) (b : Bool) (r : Option Replay) : (setReplay g b r).rows = g.rows := rfl
@[simp] theorem setReplay_accN (g : Group) (b : Bool) (r : Option Replay) : (setReplay g b r).accN = g.accN := rfl
@[simp] theorem setReplay_parN (g : Group) (b : Bool) (r : Option Replay) : (setReplay g b r).parN = g.parN := rfl
@[simp] theorem setReplay_depthD (g : Group) (b : Bool) (r : Option Replay) : (setReplay g b r).depthD = g.depthD := rfl
@[simp] theorem setReplay_task (g : Group) (b : Bool) (r : Option Replay) : (setReplay g b r).task = g.task := rfl
@[simp] theorem setReplay_s (g : Group) (b : Bool) (r : Option Replay) : (setReplay g b r).s = g.s := rfl
@[simp] theorem setReplay_v (g : Group) (b : Bool) (r : Option Replay) : (setReplay g b r).v = g.v := rfl
@[simp] theorem setReplay_m (g : Group) (b : Bool) (r : Option Replay) : (setReplay g b r).m = g.m := rfl
@[simp] theorem setReplay_slotA (g : Group) (b : Bool) (r : Option Replay) : (setReplay g b r).slotA = g.slotA := rfl
@[simp] theorem setReplay_slotB (g : Group) (b : Bool) (r : Option Replay) : (setReplay g b r).slotB = g.slotB := rfl
@[simp] theorem setReplay_flags (g : Group) (b : Bool) (r : Option Replay) : (setReplay g b r).flags = g.flags := rfl
@[simp] theorem setReplay_wct (g : Group) (b : Bool) (r : Option Replay) : (setReplay g b r).wct = g.wct := rfl
@[simp] theorem setReplay_pass (g : Group) (b : Bool) (r : Option Replay) : (setReplay g b r).pass = g.pass := rfl
@[simp] theorem setReplay_draw (g : Group) (b : Bool) (r : Option Replay) : (setReplay g b r).draw = g.draw := rfl
@[simp] theorem setReplay_prio (g : Group) (b : Bool) (r : Option Replay) : (setReplay g b r).prio = g.prio := rfl
@[simp] theorem setReplay_base (g : Group) (b : Bool) (r : Option Replay) : (setReplay g b r).base = g.base := rfl
@[simp] theorem setReplay_handler (g : Group) (b : Bool) (r : Option Replay) : (setReplay g b r).handler = g.handler := rfl
@[simp] theorem setReplay_due (g : Group) (b : Bool) (r : Option Replay) : (setReplay g b r).due = g.due := rfl
@[simp] theorem setReplay_scr (g : Group) (b : Bool) (r : Option Replay) : (setReplay g b r).scr = g.scr := rfl
@[simp] theorem setReplay_tstat (g : Group) (b : Bool) (r : Option Replay) : (setReplay g b r).tstat = g.tstat := rfl
@[simp] theorem setReplay_twCount (g : Group) (b : Bool) (r : Option Replay) : (setReplay g b r).twCount = g.twCount := rfl
@[simp] theorem setReplay_twTime (g : Group) (b : Bool) (r : Option Replay) : (setReplay g b r).twTime = g.twTime := rfl
@[simp] theorem setReplay_farTime (g : Group) (b : Bool) (r : Option Replay) : (setReplay g b r).farTime = g.farTime := rfl
@[simp] theorem setReplay_latch (g : Group) (b : Bool) (r : Option Replay) : (setReplay g b r).latch = g.latch := rfl
@[simp] theorem setReplay_acc (g : Group) (b : Bool) (r : Option Replay) : (setReplay g b r).acc = g.acc := rfl
@[simp] theorem setReplay_par (g : Group) (b : Bool) (r : Option Replay) : (setReplay g b r).par = g.par := rfl
@[simp] theorem setReplay_spec (g : Group) (b : Bool) (r : Option Replay) : (setReplay g b r).spec = g.spec := rfl
@[simp] theorem setReplay_seed (g : Group) (b : Bool) (r : Option Replay) : (setReplay g b r).seed = g.seed := rfl
@[simp] theorem setReplay_table (g : Group) (b : Bool) (r : Option Replay) : (setReplay g b r).table = g.table := rfl
@[simp] theorem setReplay_wcb (g : Group) (b : Bool) (r : Option Replay) : (setReplay g b r).wcb = g.wcb := rfl
@[simp] theorem setReplay_walkFail (g : Group) (b : Bool) (r : Option Replay) : (setReplay g b r).walkFail = g.walkFail := rfl
@[simp] theorem setReplay_counters (g : Group) (b : Bool) (r : Option Replay) : (setReplay g b r).counters = g.counters := rfl
@[simp] theorem setReplay_resident (g : Group) (b : Bool) (r : Option Replay) : (setReplay g b r).resident = g.resident := rfl
@[simp] theorem setReplay_pontil (g : Group) (b : Bool) (r : Option Replay) : (setReplay g b r).pontil = g.pontil := rfl
@[simp] theorem setReplay_hold (g : Group) (b : Bool) (r : Option Replay) : (setReplay g b r).hold = g.hold := rfl
@[simp] theorem setReplay_curPrio (g : Group) (b : Bool) (r : Option Replay) : (setReplay g b r).curPrio = g.curPrio := rfl

/-! `setHandler` changes handler alone. -/

@[simp] theorem setHandler_gid (g : Group) (h : Option Handler) : (setHandler g h).gid = g.gid := rfl
@[simp] theorem setHandler_ctx (g : Group) (h : Option Handler) : (setHandler g h).ctx = g.ctx := rfl
@[simp] theorem setHandler_grid (g : Group) (h : Option Handler) : (setHandler g h).grid = g.grid := rfl
@[simp] theorem setHandler_cluster (g : Group) (h : Option Handler) : (setHandler g h).cluster = g.cluster := rfl
@[simp] theorem setHandler_team (g : Group) (h : Option Handler) : (setHandler g h).team = g.team := rfl
@[simp] theorem setHandler_tidx (g : Group) (h : Option Handler) : (setHandler g h).tidx = g.tidx := rfl
@[simp] theorem setHandler_num (g : Group) (h : Option Handler) : (setHandler g h).num = g.num := rfl
@[simp] theorem setHandler_width (g : Group) (h : Option Handler) : (setHandler g h).width = g.width := rfl
@[simp] theorem setHandler_core (g : Group) (h : Option Handler) : (setHandler g h).core = g.core := rfl
@[simp] theorem setHandler_part (g : Group) (h : Option Handler) : (setHandler g h).part = g.part := rfl
@[simp] theorem setHandler_rows (g : Group) (h : Option Handler) : (setHandler g h).rows = g.rows := rfl
@[simp] theorem setHandler_accN (g : Group) (h : Option Handler) : (setHandler g h).accN = g.accN := rfl
@[simp] theorem setHandler_parN (g : Group) (h : Option Handler) : (setHandler g h).parN = g.parN := rfl
@[simp] theorem setHandler_depthD (g : Group) (h : Option Handler) : (setHandler g h).depthD = g.depthD := rfl
@[simp] theorem setHandler_task (g : Group) (h : Option Handler) : (setHandler g h).task = g.task := rfl
@[simp] theorem setHandler_s (g : Group) (h : Option Handler) : (setHandler g h).s = g.s := rfl
@[simp] theorem setHandler_v (g : Group) (h : Option Handler) : (setHandler g h).v = g.v := rfl
@[simp] theorem setHandler_m (g : Group) (h : Option Handler) : (setHandler g h).m = g.m := rfl
@[simp] theorem setHandler_slotA (g : Group) (h : Option Handler) : (setHandler g h).slotA = g.slotA := rfl
@[simp] theorem setHandler_slotB (g : Group) (h : Option Handler) : (setHandler g h).slotB = g.slotB := rfl
@[simp] theorem setHandler_flags (g : Group) (h : Option Handler) : (setHandler g h).flags = g.flags := rfl
@[simp] theorem setHandler_wct (g : Group) (h : Option Handler) : (setHandler g h).wct = g.wct := rfl
@[simp] theorem setHandler_pass (g : Group) (h : Option Handler) : (setHandler g h).pass = g.pass := rfl
@[simp] theorem setHandler_draw (g : Group) (h : Option Handler) : (setHandler g h).draw = g.draw := rfl
@[simp] theorem setHandler_prio (g : Group) (h : Option Handler) : (setHandler g h).prio = g.prio := rfl
@[simp] theorem setHandler_base (g : Group) (h : Option Handler) : (setHandler g h).base = g.base := rfl
@[simp] theorem setHandler_replay (g : Group) (h : Option Handler) : (setHandler g h).replay = g.replay := rfl
@[simp] theorem setHandler_due (g : Group) (h : Option Handler) : (setHandler g h).due = g.due := rfl
@[simp] theorem setHandler_scr (g : Group) (h : Option Handler) : (setHandler g h).scr = g.scr := rfl
@[simp] theorem setHandler_tstat (g : Group) (h : Option Handler) : (setHandler g h).tstat = g.tstat := rfl
@[simp] theorem setHandler_twCount (g : Group) (h : Option Handler) : (setHandler g h).twCount = g.twCount := rfl
@[simp] theorem setHandler_twTime (g : Group) (h : Option Handler) : (setHandler g h).twTime = g.twTime := rfl
@[simp] theorem setHandler_farTime (g : Group) (h : Option Handler) : (setHandler g h).farTime = g.farTime := rfl
@[simp] theorem setHandler_latch (g : Group) (h : Option Handler) : (setHandler g h).latch = g.latch := rfl
@[simp] theorem setHandler_acc (g : Group) (h : Option Handler) : (setHandler g h).acc = g.acc := rfl
@[simp] theorem setHandler_par (g : Group) (h : Option Handler) : (setHandler g h).par = g.par := rfl
@[simp] theorem setHandler_spec (g : Group) (h : Option Handler) : (setHandler g h).spec = g.spec := rfl
@[simp] theorem setHandler_seed (g : Group) (h : Option Handler) : (setHandler g h).seed = g.seed := rfl
@[simp] theorem setHandler_table (g : Group) (h : Option Handler) : (setHandler g h).table = g.table := rfl
@[simp] theorem setHandler_wcb (g : Group) (h : Option Handler) : (setHandler g h).wcb = g.wcb := rfl
@[simp] theorem setHandler_walkFail (g : Group) (h : Option Handler) : (setHandler g h).walkFail = g.walkFail := rfl
@[simp] theorem setHandler_counters (g : Group) (h : Option Handler) : (setHandler g h).counters = g.counters := rfl
@[simp] theorem setHandler_resident (g : Group) (h : Option Handler) : (setHandler g h).resident = g.resident := rfl
@[simp] theorem setHandler_pontil (g : Group) (h : Option Handler) : (setHandler g h).pontil = g.pontil := rfl
@[simp] theorem setHandler_hold (g : Group) (h : Option Handler) : (setHandler g h).hold = g.hold := rfl
@[simp] theorem setHandler_curPrio (g : Group) (h : Option Handler) : (setHandler g h).curPrio = g.curPrio := rfl

end Sys2Proof.Laws
end

