-- ==== Sys2Proof/Laws/Store.lean ====
section
/-! SUPPORT. The laws of a sparse store: what a read finds after a write, and that writes keep the canonical form. They hold of every
list, in the canonical form or not. -/

namespace Sys2Proof.Laws
open Sys2Proof.Machine

variable {β : Type}

@[simp] theorem fget_nil (d : β) (k : Nat) : fget d k [] = d := rfl

theorem fget_fdel_same (d : β) (k : Nat) (m : FMap β) : fget d k (fdel k m) = d := by
  induction m with
  | nil => rfl
  | cons p r ih =>
    by_cases h : p.1 = k
    · simpa [fdel, h] using ih
    · have hn : k ≠ p.1 := fun e => h e.symm
      simpa [fdel, h, fget, hn] using ih

theorem fget_fdel_other (d : β) {k k' : Nat} (h : k' ≠ k) (m : FMap β) : fget d k' (fdel k m) = fget d k' m := by
  induction m with
  | nil => rfl
  | cons p r ih =>
    by_cases hk : p.1 = k
    · have hn : k' ≠ p.1 := by rw [hk]; exact h
      simp_all [fdel, fget]
    · simp_all [fdel, fget]

theorem fget_fins_same (d : β) (k : Nat) (v : β) (m : FMap β) : fget d k (fins k v m) = v := by
  induction m with
  | nil => simp [fins, fget]
  | cons p r ih =>
    obtain ⟨a, b⟩ := p
    by_cases h1 : k < a
    · simp [fins, h1, fget]
    · by_cases h2 : k = a
      · simp [fins, h2, fget]
      · simp [fins, h1, h2, fget, ih]

theorem fget_fins_other (d : β) {k k' : Nat} (h : k' ≠ k) (v : β) (m : FMap β) : fget d k' (fins k v m) = fget d k' m := by
  induction m with
  | nil => simp [fins, fget, h]
  | cons p r ih =>
    obtain ⟨a, b⟩ := p
    by_cases h1 : k < a
    · simp [fins, h1, fget, h]
    · by_cases h2 : k = a
      · subst h2; simp [fins, fget, h]
      · simp [fins, h1, h2, fget, ih]

variable [DecidableEq β]

/-- A read after a write to the same key finds what was written. -/
@[simp] theorem fget_fput_same (d : β) (k : Nat) (v : β) (m : FMap β) : fget d k (fput d k v m) = v := by
  unfold fput
  split
  · next h => rw [h]; exact fget_fdel_same d k m
  · exact fget_fins_same d k v m

/-- A write leaves every other key alone. -/
theorem fget_fput_other (d : β) {k k' : Nat} (h : k' ≠ k) (v : β) (m : FMap β) : fget d k' (fput d k v m) = fget d k' m := by
  unfold fput
  split
  · exact fget_fdel_other d h m
  · exact fget_fins_other d h v m

theorem fget_fput (d : β) (k k' : Nat) (v : β) (m : FMap β) : fget d k' (fput d k v m) = if k' = k then v else fget d k' m := by
  by_cases h : k' = k
  · simp [h]
  · simp [h, fget_fput_other]

theorem fwfFrom_mono (d : β) {lo lo' : Nat} (h : lo' ≤ lo) {m : FMap β} (hm : fwfFrom d lo m = true) : fwfFrom d lo' m = true := by
  cases m with
  | nil => rfl
  | cons p r =>
    simp only [fwfFrom, Bool.and_eq_true, decide_eq_true_eq] at *
    exact ⟨⟨by omega, hm.1.2⟩, hm.2⟩

theorem fwfFrom_fdel (d : β) (k : Nat) {lo : Nat} {m : FMap β} (hm : fwfFrom d lo m = true) : fwfFrom d lo (fdel k m) = true := by
  induction m generalizing lo with
  | nil => rfl
  | cons p r ih =>
    simp only [fwfFrom, Bool.and_eq_true, decide_eq_true_eq] at hm
    obtain ⟨⟨h1, h2⟩, h3⟩ := hm
    by_cases hk : p.1 = k
    · simp [fdel, hk]
      exact fwfFrom_mono d (by omega) (ih h3)
    · simp [fdel, hk, fwfFrom, h1, h2]
      exact ih h3

theorem fwfFrom_fins (d : β) {k lo : Nat} {v : β} (hv : v ≠ d) (hl : lo ≤ k) {m : FMap β} (hm : fwfFrom d lo m = true) :
    fwfFrom d lo (fins k v m) = true := by
  induction m generalizing lo with
  | nil => simp [fins, fwfFrom, hv, hl]
  | cons p r ih =>
    obtain ⟨a, b⟩ := p
    simp only [fwfFrom, Bool.and_eq_true, decide_eq_true_eq] at hm
    obtain ⟨⟨h1, h2⟩, h3⟩ := hm
    by_cases c1 : k < a
    · simp [fins, c1, fwfFrom, hv, hl, h2, h3]
    · by_cases c2 : k = a
      · subst c2; simp [fins, fwfFrom, hv, h1, h3]
      · simp [fins, c1, c2, fwfFrom, h1, h2]; exact ih (by omega) h3

/-- A write keeps the canonical form. -/
theorem fwf_fput (d : β) (k : Nat) (v : β) {m : FMap β} (hm : fwf d m = true) : fwf d (fput d k v m) = true := by
  unfold fput fwf at *
  split
  · exact fwfFrom_fdel d k hm
  · next h => exact fwfFrom_fins d h (Nat.zero_le k) hm

theorem fwf_fputs (d : β) (l : List (Nat × β)) {m : FMap β} (hm : fwf d m = true) : fwf d (fputs d l m) = true := by
  induction l generalizing m with
  | nil => exact hm
  | cons p r ih => exact ih (fwf_fput d p.1 p.2 hm)

theorem mem_ge_of_fwfFrom (d : β) {lo : Nat} {m : FMap β} (hm : fwfFrom d lo m = true) {p : Nat × β} (hp : p ∈ m) : lo ≤ p.1 := by
  induction m generalizing lo with
  | nil => cases hp
  | cons q r ih =>
    simp only [fwfFrom, Bool.and_eq_true, decide_eq_true_eq] at hm
    rcases List.mem_cons.1 hp with rfl | h
    · exact hm.1.1
    · exact Nat.le_trans (Nat.le_succ_of_le hm.1.1) (ih hm.2 h)

theorem fget_lt_of_fwfFrom (d : β) {lo k : Nat} (hk : k < lo) {m : FMap β} (hm : fwfFrom d lo m = true) : fget d k m = d := by
  induction m generalizing lo with
  | nil => rfl
  | cons p r ih =>
    simp only [fwfFrom, Bool.and_eq_true, decide_eq_true_eq] at hm
    have : k ≠ p.1 := by omega
    simp [fget, this]
    exact ih (by omega) hm.2

/-- Stores in canonical form that read alike are equal. -/
theorem fwf_ext (d : β) {lo : Nat} {m n : FMap β} (hm : fwfFrom d lo m = true) (hn : fwfFrom d lo n = true)
    (h : ∀ k, fget d k m = fget d k n) : m = n := by
  induction m generalizing lo n with
  | nil =>
    cases n with
    | nil => rfl
    | cons q r =>
      simp only [fwfFrom, Bool.and_eq_true, decide_eq_true_eq] at hn
      exact absurd (by simpa [fget] using (h q.1).symm) hn.1.2
  | cons p r ih =>
    obtain ⟨a, b⟩ := p
    cases n with
    | nil =>
      simp only [fwfFrom, Bool.and_eq_true, decide_eq_true_eq] at hm
      exact absurd (by simpa [fget] using h a) hm.1.2
    | cons q r' =>
      obtain ⟨a', b'⟩ := q
      simp only [fwfFrom, Bool.and_eq_true, decide_eq_true_eq] at hm hn
      obtain ⟨⟨h1, h2⟩, h3⟩ := hm
      obtain ⟨⟨h4, h5⟩, h6⟩ := hn
      have haa : a = a' := by
        rcases Nat.lt_trichotomy a a' with hlt | heq | hgt
        · have := h a
          simp [fget, show a ≠ a' by omega, fget_lt_of_fwfFrom d (show a < a' + 1 by omega) h6] at this
          exact absurd this h2
        · exact heq
        · have := h a'
          simp [fget, show a' ≠ a by omega, fget_lt_of_fwfFrom d (show a' < a + 1 by omega) h3] at this
          exact absurd this.symm h5
      subst haa
      have hb : b = b' := by simpa [fget] using h a
      subst hb
      have : r = r' := ih h3 h6 (fun k => by
        by_cases hk : k = a
        · subst hk; rw [fget_lt_of_fwfFrom d (by omega) h3, fget_lt_of_fwfFrom d (by omega) h6]
        · simpa [fget, hk] using h k)
      rw [this]

end Sys2Proof.Laws
end

