-- ==== Sys2Proof/Laws/Frame.lean ====
section
/-! SUPPORT. What each operation and each meaning does to the bytes of memory: `f_mem` says that they stay as they are, `f_wf` that a
memory in canonical form stays in it. A meaning is cited at `outState`, so one law covers every outcome. -/

namespace Sys2Proof.Laws
open Sys2Proof Sys2Proof.Machine

/-- The state a word's meaning answers with. -/
def resState (r : Res) : State := match r with | .ok s => s | .jump s _ => s | .park s _ => s | .bad s _ => s | .done s => s
/-- The state after an outcome that answers one; else the state before. -/
def outState (s : State) (o : Host.Outcome State Fault Refusal) : State := match o with | .next t => t | _ => s

@[simp] theorem resState_ok (s : State) : resState (.ok s) = s := rfl
@[simp] theorem resState_jump (s : State) (t : Nat) : resState (.jump s t) = s := rfl
@[simp] theorem resState_park (s : State) (p : Park) : resState (.park s p) = s := rfl
@[simp] theorem resState_bad (s : State) (f : FInfo) : resState (.bad s f) = s := rfl
@[simp] theorem resState_done (s : State) : resState (.done s) = s := rfl
@[simp] theorem outState_next (s t : State) : outState s (.next t) = t := rfl
@[simp] theorem outState_fault (s : State) (f : Fault) : outState s (.fault f) = s := rfl
@[simp] theorem outState_refused (s : State) (f : Refusal) : outState s (.refused f) = s := rfl

theorem foldl_mem {α : Type} (f : State → α → State) (hf : ∀ s a, (f s a).mem = s.mem) (l : List α) (s : State) : (l.foldl f s).mem = s.mem := by
  induction l generalizing s with
  | nil => rfl
  | cons a l ih => rw [List.foldl_cons, ih, hf]

theorem foldl_fst_mem {α β : Type} (f : State × β → α → State × β) (hf : ∀ a x, (f a x).1.mem = a.1.mem) (l : List α) (a : State × β) :
    (l.foldl f a).1.mem = a.1.mem := by
  induction l generalizing a with
  | nil => rfl
  | cons x l ih => rw [List.foldl_cons, ih, hf]

theorem foldl_wf {α : Type} (f : State → α → State) (hf : ∀ s a, Memory.wf s.mem = true → Memory.wf (f s a).mem = true) (l : List α)
    (s : State) (h : Memory.wf s.mem = true) : Memory.wf (l.foldl f s).mem = true := by
  induction l generalizing s with
  | nil => exact h
  | cons a l ih => exact ih _ (hf s a h)

theorem foldl_fst_wf {α β : Type} (f : State × β → α → State × β)
    (hf : ∀ p a, Memory.wf p.1.mem = true → Memory.wf (f p a).1.mem = true) (l : List α) (p : State × β) (h : Memory.wf p.1.mem = true) :
    Memory.wf (l.foldl f p).1.mem = true := by
  induction l generalizing p with
  | nil => exact h
  | cons a l ih => exact ih _ (hf p a h)

theorem foldl_opt_inv {α β : Type} (P : β → Prop) (f : β → α → Option β) (hf : ∀ p a q, P p → f p a = some q → P q) (l : List α)
    (o q : β) (h : P o) (e : l.foldl (fun a x => a.bind (fun p => f p x)) (some o) = some q) : P q := by
  induction l generalizing o with
  | nil => cases e; exact h
  | cons a l ih =>
    rw [List.foldl_cons, Option.bind_some] at e
    cases h1 : f o a with
    | none =>
      rw [h1] at e
      clear ih h1
      induction l with
      | nil => cases e
      | cons b l ih => exact ih e
    | some p =>
      rw [h1] at e
      exact ih p (hf o a p h h1) e

@[simp] theorem tickFree_mem (s : State) : (tickFree s).mem = s.mem := rfl

@[simp] theorem launchLoose_mem (s : State) (word gid ctx core : Nat) (cls : Cls) (op : Op) (loose : List Nat) : (launchLoose s word gid ctx core cls op loose).mem = s.mem := rfl

@[simp] theorem progressed_mem (s : State) (ctx : Nat) : (progressed s ctx).mem = s.mem := by
  unfold progressed
  split <;> simp

@[simp] theorem drainWcb_mem (s : State) (gid : Nat) : (drainWcb s gid).mem = s.mem := by
  unfold drainWcb
  split <;> simp

@[simp] theorem sendMsg_mem (s : State) (m : Msg) : (sendMsg s m).mem = s.mem := rfl

@[simp] theorem notice_mem (s : State) (job ctx code : Nat) (payload : List Byte) : (notice s job ctx code payload).mem = s.mem := rfl

@[simp] theorem stopCtx_mem (s : State) (ctx cause : Nat) : (stopCtx s ctx cause).mem = s.mem := by
  unfold stopCtx
  repeat' split
  all_goals simp

@[simp] theorem takeException_mem (s : State) (g : Group) (b hdr : Bool) (f : FInfo) (epc eidx : Nat) : (takeException s g b hdr f epc eidx).mem = s.mem := by
  unfold takeException
  split <;> simp

@[simp] theorem logEvent_mem (s : State) (kind detail : Nat) : (logEvent s kind detail).mem = s.mem := rfl

@[simp] theorem serviceRecord_mem (s : State) (ctx : Nat) (f : FInfo) (q1 : Nat) : (serviceRecord s ctx f q1).mem = s.mem := by
  unfold serviceRecord
  rw [notice_mem]
  split <;> simp

@[simp] theorem feedGrid_mem (s : State) (gid t : Nat) : (feedGrid s gid t).mem = s.mem := by
  unfold feedGrid
  repeat' split
  all_goals simp

@[simp] theorem machineCheck_mem (s : State) (f : Flight) (code addr eng unit index : Nat) : (machineCheck s f code addr eng unit index).mem = s.mem := by
  unfold machineCheck
  split <;> simp

@[simp] theorem holdGroup_mem (s : State) (gid : Nat) (sw : Bool) : (holdGroup s gid sw).mem = s.mem := by
  unfold holdGroup
  split <;> simp

@[simp] theorem advance_mem (s : State) (gid : Nat) (b pair : Bool) (sw : Bool) : (advance s gid b pair sw).mem = s.mem := by
  unfold advance
  dsimp only
  repeat' split
  all_goals simp

@[simp] theorem jumpTo_mem (s : State) (gid : Nat) (b : Bool) (target : Nat) (sw : Bool) : (jumpTo s gid b target sw).mem = s.mem := by
  unfold jumpTo
  split <;> simp

@[simp] theorem parkAt_mem (s : State) (gid : Nat) (b : Bool) (p : Park) : (parkAt s gid b p).mem = s.mem := by
  unfold parkAt
  split <;> simp

@[simp] theorem raiseAt_mem (s : State) (gid : Nat) (b : Bool) (f : FInfo) : (raiseAt s gid b f).mem = s.mem := by
  unfold raiseAt
  split <;> simp

@[simp] theorem settle_mem (x : Issue) (pair : Bool) (r : Res) : (settle x pair r).mem = (resState r).mem := by
  cases r <;> simp [settle]

@[simp] theorem okG_mem (s : State) (g : Group) : (resState (okG s g)).mem = s.mem := rfl

@[simp] theorem badW_mem (s : State) (cls code addr index : Nat) : (resState (badW s cls code addr index)).mem = s.mem := rfl

@[simp] theorem returnException_mem (s : State) (g : Group) (h : Handler) : (returnException s g h).mem = s.mem := by
  simp [returnException]

@[simp] theorem raiseMarker_mem (s : State) (gid : Nat) (b : Bool) (f : FInfo) : (raiseMarker s gid b f).mem = s.mem := by
  unfold raiseMarker
  dsimp only
  repeat' split
  all_goals simp

theorem headerFault_mem {s t : State} {g : Group} {b : Bool} (h : headerFault s g b = some t) : t.mem = s.mem := by
  unfold headerFault at h
  dsimp only at h
  split at h
  · cases h
  · obtain ⟨_, _, rfl⟩ := Option.map_eq_some_iff.mp h
    simp

theorem runWord_mem (i : Instr) (m : Nat) (p : Bool) (s : State) (body : State → Issue → Res)
    (hb : ∀ x, (resState (body s x)).mem = s.mem) : (outState s (runWord i m p s body)).mem = s.mem := by
  unfold runWord
  split
  · rfl
  · rw [outState_next]
    split
    · exact headerFault_mem ‹_›
    · rw [settle_mem]
      split
      · rfl
      · exact hb _

@[simp] theorem runUnknown_mem (s : State) (g : Group) (b : Bool) (w : W64) : (runUnknown s g b w).mem = s.mem := by
  unfold runUnknown
  split
  · exact headerFault_mem ‹_›
  · simp

theorem runHalf_mem (s : State) (body : State → Issue → Res) (hb : ∀ x, (resState (body s x)).mem = s.mem) :
    (outState s (runHalf s body)).mem = s.mem := by
  unfold runHalf
  split
  · rfl
  · rw [outState_next]
    split
    · exact headerFault_mem ‹_›
    · rw [settle_mem]
      split
      · exact hb _
      · split
        · rfl
        · exact hb _

@[simp] theorem scalarWord_mem (i : Instr) (w : SWord) (s : State) (f : Issue → W64 → W64 → W64) : (outState s (scalarWord i w s f)).mem = s.mem := by
  unfold scalarWord
  exact runWord_mem _ _ _ _ _ (fun _ => by simp)

@[simp] theorem execSAdd_mem (w : SWord) (s : State) : (outState s (execSAdd w s)).mem = s.mem := by
  simp [execSAdd]

@[simp] theorem execSSub_mem (w : SWord) (s : State) : (outState s (execSSub w s)).mem = s.mem := by
  simp [execSSub]

@[simp] theorem execSMul_mem (w : SWord) (s : State) : (outState s (execSMul w s)).mem = s.mem := by
  simp [execSMul]

@[simp] theorem execSMulh_mem (w : SWord) (s : State) : (outState s (execSMulh w s)).mem = s.mem := by
  simp [execSMulh]

@[simp] theorem execSDiv_mem (w : SWord) (s : State) : (outState s (execSDiv w s)).mem = s.mem := by
  simp [execSDiv]

@[simp] theorem execSRem_mem (w : SWord) (s : State) : (outState s (execSRem w s)).mem = s.mem := by
  simp [execSRem]

@[simp] theorem execSAnd_mem (w : SWord) (s : State) : (outState s (execSAnd w s)).mem = s.mem := by
  simp [execSAnd]

@[simp] theorem execSOr_mem (w : SWord) (s : State) : (outState s (execSOr w s)).mem = s.mem := by
  simp [execSOr]

@[simp] theorem execSXor_mem (w : SWord) (s : State) : (outState s (execSXor w s)).mem = s.mem := by
  simp [execSXor]

@[simp] theorem execSAndn_mem (w : SWord) (s : State) : (outState s (execSAndn w s)).mem = s.mem := by
  simp [execSAndn]

@[simp] theorem execSShl_mem (w : SWord) (s : State) : (outState s (execSShl w s)).mem = s.mem := by
  simp [execSShl]

@[simp] theorem execSShr_mem (w : SWord) (s : State) : (outState s (execSShr w s)).mem = s.mem := by
  simp [execSShr]

@[simp] theorem execSSar_mem (w : SWord) (s : State) : (outState s (execSSar w s)).mem = s.mem := by
  simp [execSSar]

@[simp] theorem execSMin_mem (w : SWord) (s : State) : (outState s (execSMin w s)).mem = s.mem := by
  simp [execSMin]

@[simp] theorem execSMax_mem (w : SWord) (s : State) : (outState s (execSMax w s)).mem = s.mem := by
  simp [execSMax]

@[simp] theorem execSClz_mem (w : SWord) (s : State) : (outState s (execSClz w s)).mem = s.mem := by
  simp [execSClz]

@[simp] theorem execSPopc_mem (w : SWord) (s : State) : (outState s (execSPopc w s)).mem = s.mem := by
  simp [execSPopc]

@[simp] theorem execSBfx_mem (w : SWord) (s : State) : (outState s (execSBfx w s)).mem = s.mem := by
  simp [execSBfx]

@[simp] theorem execSBfi_mem (w : SWord) (s : State) : (outState s (execSBfi w s)).mem = s.mem := by
  simp [execSBfi]

@[simp] theorem execSSxt_mem (w : SWord) (s : State) : (outState s (execSSxt w s)).mem = s.mem := by
  simp [execSSxt]

@[simp] theorem execSZxt_mem (w : SWord) (s : State) : (outState s (execSZxt w s)).mem = s.mem := by
  simp [execSZxt]

@[simp] theorem execSCmp_mem (w : SWord) (s : State) : (outState s (execSCmp w s)).mem = s.mem := by
  simp [execSCmp]

@[simp] theorem execSSel_mem (w : SWord) (s : State) : (outState s (execSSel w s)).mem = s.mem := by
  simp [execSSel]

@[simp] theorem execSMov_mem (w : SWord) (s : State) : (outState s (execSMov w s)).mem = s.mem := by
  simp [execSMov]

@[simp] theorem execSLi_mem (w : SWord) (s : State) : (outState s (execSLi w s)).mem = s.mem := by
  simp [execSLi]

@[simp] theorem execSLih_mem (w : SWord) (s : State) : (outState s (execSLih w s)).mem = s.mem := by
  simp [execSLih]

@[simp] theorem execSLea_mem (w : SWord) (s : State) : (outState s (execSLea w s)).mem = s.mem := by
  simp [execSLea]

@[simp] theorem execSSr_mem (w : SWord) (s : State) : (outState s (execSSr w s)).mem = s.mem := by
  unfold execSSr
  exact runWord_mem _ _ _ _ _ (fun _ => by simp)

@[simp] theorem markBad_mem (s : State) (pa code : Nat) : (markBad s pa code).mem = s.mem := rfl

theorem wrBytes_wf (s : State) (l : List (Nat × Byte)) (h : Memory.wf s.mem = true) : Memory.wf (wrBytes s l).mem = true :=
  fwf_fputs memDefault l h

@[simp] theorem tlbAdd_mem (s : State) (t : Tlb) : (tlbAdd s t).mem = s.mem := by
  unfold tlbAdd
  extract_lets
  split
  · rfl
  · split <;> rfl

@[simp] theorem stackPush_mem (s : State) (g : Group) (b : Bool) (kind : Nat) (addr : Nat) (m : W64) : (stackPush s g b kind addr m).mem = s.mem := by
  unfold stackPush
  split <;> simp

@[simp] theorem stackMove_mem (s : State) (g : Group) : (stackMove s g).mem = s.mem := by
  unfold stackMove
  split <;> simp

@[simp] theorem settleSlots_mem (s : State) (gid : Nat) : (settleSlots s gid).mem = s.mem := by
  unfold settleSlots
  dsimp only
  repeat' split
  all_goals simp

@[simp] theorem setHome_mem (s : State) (line : Nat) (h : Home) : (setHome s line h).mem = s.mem := rfl

@[simp] theorem promote_mem (s : State) (line : Nat) : (promote s line).mem = s.mem := by
  unfold promote
  split <;> simp

@[simp] theorem llcPut_mem (s : State) (line : Nat) (valid dirty : BitVec 8) : (llcPut s line valid dirty).mem = s.mem := by
  unfold llcPut
  dsimp only
  repeat' split
  all_goals simp

@[simp] theorem cxlOut_mem (s : State) (gid line : Nat) (sectors : BitVec 8) : (cxlOut s gid line sectors).mem = s.mem := rfl

@[simp] theorem l2Evict_mem (s : State) (c : CLine) : (l2Evict s c).mem = s.mem := by
  unfold l2Evict
  repeat' split
  all_goals simp

@[simp] theorem l2Put_mem (s : State) (line : Nat) (valid dirty : BitVec 8) (allowed : Nat) : (l2Put s line valid dirty allowed).mem = s.mem := by
  unfold l2Put
  dsimp only
  repeat' split
  all_goals simp

@[simp] theorem homeTouch_mem (s : State) (ctx hint pa : Nat) : (homeTouch s ctx hint pa).mem = s.mem := by
  unfold homeTouch
  dsimp only
  repeat' split
  all_goals simp

@[simp] theorem towerOut_mem (s : State) (gid line : Nat) (sectors : BitVec 8) : (towerOut s gid line sectors).mem = s.mem := by
  unfold towerOut
  repeat' split
  all_goals simp

@[simp] theorem homeStoreTags_mem (s : State) (gid ctx hint pa : Nat) : (homeStoreTags s gid ctx hint pa).mem = s.mem := by
  unfold homeStoreTags
  dsimp only
  repeat' split
  all_goals simp

@[simp] theorem l1Store_mem (s : State) (core : Nat) (bytes : List (Nat × Byte)) : (l1Store s core bytes).mem = s.mem := rfl

@[simp] theorem grant_mem (s : State) (line expiry : Nat) : (grant s line expiry).mem = s.mem := rfl

@[simp] theorem sendRecalls_mem (s : State) (line : Nat) : (sendRecalls s line).mem = s.mem := by
  unfold sendRecalls
  exact foldl_mem _ (fun _ _ => by simp) _ _

@[simp] theorem completion_mem (s : State) (line : Nat) : (completion s line).1.mem = s.mem := by
  unfold completion
  dsimp only
  repeat' split
  all_goals simp

@[simp] theorem joinWalk_mem (s : State) (unit ctx page core : Nat) (who : Nat × Bool) : (joinWalk s unit ctx page core who).mem = s.mem := by
  unfold joinWalk
  dsimp only
  repeat' split
  all_goals simp

@[simp] theorem startWalk_mem (s : State) (g : Group) (page : Nat) : (startWalk s g page).mem = s.mem := by
  unfold startWalk
  simp

@[simp] theorem flightWalk_mem (s : State) (f : Flight) (unit page : Nat) : (flightWalk s f unit page).mem = s.mem := by
  simp [flightWalk]

@[simp] theorem clearWalks_mem (s : State) (gid : Nat) : (clearWalks s gid).mem = s.mem := by
  unfold clearWalks
  split <;> simp

@[simp] theorem finishLanes_mem (s : State) (x : Issue) (good : List Nat) (bad : List FInfo) : (resState (finishLanes s x good bad)).mem = s.mem := by
  unfold finishLanes
  split <;> simp

@[simp] theorem wcbPut_mem (s : State) (gid hint : Nat) (loose : List Nat) (bytes : List (Nat × Byte)) : (wcbPut s gid hint loose bytes).mem = s.mem := by
  unfold wcbPut
  try dsimp only
  repeat' (first | (simp [apply_ite State.mem]; done) | split | (refine (foldl_mem _ (fun s a => ?_) _ _).trans ?_) | (rename_i h; have e := congrArg (fun p => p.1.mem) h; simp at e; simp [← e]; done) | (simp [apply_ite State.mem]))

@[simp] theorem sendStores_mem (s : State) (g : Group) (rel : Option Scope) (hint : Nat) (unitOp : Bool) (bytes : List (Nat × Byte)) : (sendStores s g rel hint unitOp bytes).mem = s.mem := by
  unfold sendStores
  exact foldl_mem _ (fun _ _ => by simp) _ _

@[simp] theorem noteLines_mem (s : State) (gid : Nat) (b : Bool) (lines : List Nat) : (noteLines s gid b lines).mem = s.mem := by
  unfold noteLines
  split <;> simp

@[simp] theorem issueLoad_mem (s : State) (x : Issue) (lanes : List Lane) (dst : Nat) (pair : Bool) (acq : Option Scope) (hint : Nat) : (issueLoad s x lanes dst pair acq hint).mem = s.mem := by
  unfold issueLoad
  try dsimp only
  repeat' (first | (simp [apply_ite State.mem]; done) | split | (refine (foldl_mem _ (fun s a => ?_) _ _).trans ?_) | (rename_i h; have e := congrArg (fun p => p.1.mem) h; simp at e; simp [← e]; done) | (simp [apply_ite State.mem]))

@[simp] theorem l1Install_mem (s : State) (core line : Nat) (rmost : Bool) : (l1Install s core line rmost).mem = s.mem := by
  simp [l1Install, apply_ite State.mem]

@[simp] theorem l1Drop_mem (s : State) (core line : Nat) : (l1Drop s core line).mem = s.mem := rfl

theorem readNow_mem {s : State} {g : Group} {pas : List Nat} {p : State × List Byte} (h : readNow s g pas = some (.inr p)) : p.1.mem = s.mem := by
  unfold readNow at h
  split at h
  · cases h
  · split at h
    · cases h
      rfl
    · split at h
      · cases h
      · cases h
        exact foldl_mem _ (fun s a => by simp) _ _

theorem readNow_mem' {s t : State} {g : Group} {pas : List Nat} {b : List Byte} (h : readNow s g pas = some (.inr (t, b))) : t.mem = s.mem :=
  readNow_mem h

@[simp] theorem wakeKeys_mem (s : State) (gid by_ : Nat) (keys : List Nat) : (wakeKeys s gid by_ keys).mem = s.mem := rfl

@[simp] theorem wakeLines_mem (s : State) (gid by_ : Nat) (pas : List Nat) : (wakeLines s gid by_ pas).mem = s.mem := rfl

@[simp] theorem wakeLocal_mem (s : State) (tid gid : Nat) (offs : List Nat) : (wakeLocal s tid gid offs).mem = s.mem := rfl

theorem performBy_wf (s : State) (gid by_ : Nat) (bytes : List (Nat × Byte)) (h : Memory.wf s.mem = true) : Memory.wf (performBy s gid by_ bytes).mem = true := by
  unfold performBy
  try dsimp only
  repeat' (first | (simp [*]; done) | apply wrBytes_wf)

theorem performWrite_wf (s : State) (gid : Nat) (bytes : List (Nat × Byte)) (h : Memory.wf s.mem = true) : Memory.wf (performWrite s gid bytes).mem = true := by
  unfold performWrite
  try dsimp only
  repeat' (first | (simp [*]; done) | apply performBy_wf)

@[simp] theorem feedWct_mem (s : State) (gid t : Nat) : (feedWct s gid t).mem = s.mem := by
  unfold feedWct
  split <;> simp

@[simp] theorem feedStore_mem (s : State) (f : Flight) (t : Nat) : (feedStore s f t).mem = s.mem := by
  simp [feedStore]

theorem sectorWrite_wf (s : State) (ctx hint k : Nat) (bytes : List (Nat × Byte)) (h : Memory.wf s.mem = true) :
    Memory.wf (sectorWrite s ctx hint k bytes).1.mem = true := by
  unfold sectorWrite
  rw [completion_mem, homeStoreTags_mem]
  refine performWrite_wf _ _ _ ?_
  split
  · rwa [homeTouch_mem]
  · exact h

theorem engineWrite_wf (s : State) (ctx hint : Nat) (bytes : List (Nat × Byte)) (h : Memory.wf s.mem = true) :
    Memory.wf (engineWrite s ctx hint bytes).1.mem = true := by
  unfold engineWrite
  generalize sectorsOf bytes = l
  refine foldl_fst_wf _ ?_ l _ ?_
  · intro a k ha
    exact sectorWrite_wf _ _ _ _ _ ha
  · exact h

@[simp] theorem engineRead_mem (s : State) (ctx hint : Nat) (pas : List Nat) : (engineRead s ctx hint pas).mem = s.mem := by
  unfold engineRead
  exact foldl_mem _ (fun _ _ => by simp) _ _

@[simp] theorem iInstall_mem (s : State) (core line : Nat) (rmost : Bool) (pin : Option Nat) : (iInstall s core line rmost pin).mem = s.mem := by
  simp [iInstall, apply_ite State.mem]

@[simp] theorem iFill_mem (s : State) (g : Group) (va n : Nat) : (iFill s g va n).mem = s.mem := by
  unfold iFill
  try dsimp only
  repeat' (first | (simp [apply_ite State.mem]; done) | split | (refine (foldl_mem _ (fun s a => ?_) _ _).trans ?_))

@[simp] theorem slotCheck_mem (s : State) (g : Group) (b hdr : Bool) (code addr : Nat) : (slotCheck s g b hdr code addr).mem = s.mem := by
  simp [slotCheck]

theorem transferStop_mem {s0 : State} {x : Issue} {target : Nat} {r : Res} (h : transferStop s0 x target = some r) :
    (resState r).mem = s0.mem := by
  unfold transferStop at h
  split at h <;> cases h <;> simp

@[simp] theorem transfer_mem (s0 s : State) (x : Issue) (target : Nat) (h : s.mem = s0.mem) :
    (resState (transfer s0 s x target)).mem = s0.mem := by
  unfold transfer
  cases e : transferStop s0 x target with
  | none => simpa using h
  | some r => simpa using transferStop_mem e

@[simp] theorem transferSettle_mem (s0 s : State) (x : Issue) (target : Nat) (h : s.mem = s0.mem) :
    (resState (transferSettle s0 s x target)).mem = s0.mem := by
  unfold transferSettle
  cases e : transferStop s0 x target with
  | none => simpa using h
  | some r => simpa using transferStop_mem e

@[simp] theorem spinTake_mem (s : State) (x : Issue) (target : Nat) : (spinTake s x target).mem = s.mem := by
  unfold spinTake
  dsimp only
  repeat' split
  all_goals simp

@[simp] theorem branch_mem (s0 s : State) (x : Issue) (target : Nat) (h : s.mem = s0.mem) :
    (resState (branch s0 s x target)).mem = s0.mem := by
  unfold branch
  cases e : transferStop s0 x target with
  | none => simpa using h
  | some r => simpa using transferStop_mem e

@[simp] theorem execBr_mem (w : CWord) (s : State) : (outState s (execBr w s)).mem = s.mem := by
  unfold execBr
  exact runWord_mem _ _ _ _ _ (fun _ => by simp)

@[simp] theorem execBc_mem (w : CWord) (s : State) : (outState s (execBc w s)).mem = s.mem := by
  unfold execBc
  exact runWord_mem _ _ _ _ _ (fun _ => by split <;> simp)

@[simp] theorem execBv_mem (w : CWord) (s : State) : (outState s (execBv w s)).mem = s.mem := by
  unfold execBv
  refine runWord_mem _ _ _ _ _ (fun _ => ?_)
  dsimp only
  repeat' split
  all_goals first | (rename_i h; exact transferStop_mem h) | simp

@[simp] theorem joinOther_mem (s : State) (x : Issue) (j : Nat) : (resState (joinOther s x j)).mem = s.mem := by
  unfold joinOther
  try dsimp only
  repeat' (first | (simp; done) | (apply transferSettle_mem; simp; done) | split)

@[simp] theorem execJoin_mem (w : CWord) (s : State) : (outState s (execJoin w s)).mem = s.mem := by
  unfold execJoin
  refine runWord_mem _ _ _ _ _ (fun x => ?_)
  repeat' (first | (apply transfer_mem; simp; done) | split | (simp ))

@[simp] theorem indirect_mem (s0 s : State) (x : Issue) (t : Nat) (h : s.mem = s0.mem) :
    (resState (indirect s0 s x t)).mem = s0.mem := by
  unfold indirect
  split <;> simp [h]

@[simp] theorem execBx_mem (w : SWord) (s : State) : (outState s (execBx w s)).mem = s.mem := by
  unfold execBx
  exact runWord_mem _ _ _ _ _ (fun _ => by simp)

@[simp] theorem execCall_mem (w : CWord) (s : State) : (outState s (execCall w s)).mem = s.mem := by
  unfold execCall
  exact runWord_mem _ _ _ _ _ (fun x => transfer_mem _ _ _ _ (by simp))

@[simp] theorem execCallx_mem (w : SWord) (s : State) : (outState s (execCallx w s)).mem = s.mem := by
  unfold execCallx
  refine runWord_mem _ _ _ _ _ (fun x => ?_)
  repeat' (apply indirect_mem; simp; done)

@[simp] theorem execRet_mem (w : SWord) (s : State) : (outState s (execRet w s)).mem = s.mem := by
  unfold execRet
  exact runWord_mem _ _ _ _ _ (fun _ => by simp)

@[simp] theorem execLoop_mem (w : CWord) (s : State) : (outState s (execLoop w s)).mem = s.mem := by
  unfold execLoop
  refine runWord_mem _ _ _ _ _ (fun x => ?_)
  repeat' (first | (apply branch_mem; simp; done) | split | (simp ))

@[simp] theorem execBt_mem (w : CWord) (s : State) : (outState s (execBt w s)).mem = s.mem := by
  unfold execBt
  refine runWord_mem _ _ _ _ _ (fun _ => ?_)
  dsimp only
  repeat' split
  all_goals first | (rename_i h; exact transferStop_mem h) | simp

@[simp] theorem execYield_mem (w : SWord) (s : State) : (outState s (execYield w s)).mem = s.mem := by
  unfold execYield
  exact runWord_mem _ _ _ _ _ (fun _ => by simp)

@[simp] theorem execNap_mem (w : SWord) (s : State) : (outState s (execNap w s)).mem = s.mem := by
  unfold execNap
  refine runWord_mem _ _ _ _ _ (fun _ => ?_)
  dsimp only
  repeat' split
  all_goals simp

@[simp] theorem execIpf_mem (w : CWord) (s : State) : (outState s (execIpf w s)).mem = s.mem := by
  unfold execIpf
  refine runWord_mem _ _ _ _ _ (fun x => ?_)
  repeat' (first | (simp [apply_ite State.mem]; done) | split | (refine (foldl_mem _ (fun s a => ?_) _ _).trans ?_) | (rename_i h; have e := congrArg (fun p => p.1.mem) h; simp at e; simp [← e]; done) | (simp [apply_ite State.mem]))

@[simp] theorem execIpin_mem (w : CWord) (s : State) : (outState s (execIpin w s)).mem = s.mem := by
  unfold execIpin
  refine runWord_mem _ _ _ _ _ (fun x => ?_)
  repeat' (first | (simp [apply_ite State.mem]; done) | split | (refine (foldl_mem _ (fun s a => ?_) _ _).trans ?_) | (rename_i h; have e := congrArg (fun p => p.1.mem) h; simp at e; simp [← e]; done) | (simp [apply_ite State.mem]))

@[simp] theorem execIunpin_mem (w : CWord) (s : State) : (outState s (execIunpin w s)).mem = s.mem := by
  unfold execIunpin
  exact runWord_mem _ _ _ _ _ (fun _ => by split <;> simp)

@[simp] theorem execTrap_mem (w : YWord) (s : State) : (outState s (execTrap w s)).mem = s.mem := by
  unfold execTrap
  exact runWord_mem _ _ _ _ _ (fun _ => by simp)

@[simp] theorem execRte_mem (w : YWord) (s : State) : (outState s (execRte w s)).mem = s.mem := by
  unfold execRte
  refine runWord_mem _ _ _ _ _ (fun _ => ?_)
  dsimp only
  repeat' split
  all_goals first
    | (rename_i h; exact transferStop_mem (by assumption))
    | (rename_i h; obtain ⟨_, _, e⟩ := List.exists_of_findSome?_eq_some h; exact transferStop_mem e)
    | simp

@[simp] theorem execSysGet_mem (w : YWord) (s : State) : (outState s (execSysGet w s)).mem = s.mem := by
  unfold execSysGet
  refine runWord_mem _ _ _ _ _ (fun _ => ?_)
  dsimp only
  repeat' split
  all_goals simp

@[simp] theorem withSel_mem (s : State) (f : Context → Context) : (withSel s f).mem = s.mem := by
  unfold withSel
  split <;> simp

@[simp] theorem wakeCores_mem (s : State) (v : W64) : (wakeCores s v).mem = s.mem := rfl

theorem writeTables_wf (s : State) (h : Memory.wf s.mem = true) : Memory.wf (writeTables s).mem = true := by
  unfold writeTables
  try dsimp only
  repeat' (first | (simp [*]; done) | apply performWrite_wf)

@[simp] theorem startInvalidation_mem (s : State) : (startInvalidation s).mem = s.mem := rfl

@[simp] theorem sregWrite_mem (s : State) (g : Group) (n : Nat) (v : W64) : (sregWrite s g n v).mem = s.mem := by
  simp [sregWrite, apply_ite State.mem]

@[simp] theorem execSysSet_mem (w : YWord) (s : State) : (outState s (execSysSet w s)).mem = s.mem := by
  unfold execSysSet
  exact runWord_mem _ _ _ _ _ (fun _ => by simp)

@[simp] theorem execAtinv_mem (w : YWord) (s : State) : (outState s (execAtinv w s)).mem = s.mem := by
  unfold execAtinv
  exact runWord_mem _ _ _ _ _ (fun _ => by simp)

@[simp] theorem execWake_mem (w : YWord) (s : State) : (outState s (execWake w s)).mem = s.mem := by
  unfold execWake
  exact runWord_mem _ _ _ _ _ (fun _ => by simp)

@[simp] theorem execBkpt_mem (w : YWord) (s : State) : (outState s (execBkpt w s)).mem = s.mem := by
  unfold execBkpt
  refine runWord_mem _ _ _ _ _ (fun _ => ?_)
  dsimp only
  repeat' split
  all_goals simp

@[simp] theorem execPrio_mem (w : YWord) (s : State) : (outState s (execPrio w s)).mem = s.mem := by
  unfold execPrio
  exact runWord_mem _ _ _ _ _ (fun _ => by simp)

@[simp] theorem execNop_mem (w : YWord) (s : State) : (outState s (execNop w s)).mem = s.mem := by
  unfold execNop
  exact runWord_mem _ _ _ _ _ (fun _ => by simp)

@[simp] theorem execHalt_mem (w : YWord) (s : State) : (outState s (execHalt w s)).mem = s.mem := by
  unfold execHalt
  exact runWord_mem _ _ _ _ _ (fun _ => by simp)

theorem waitTiles_mem {s : State} {x : Issue} {l : Option (List Nat)} {k : Nat → Res} {r : Res} (hk : ∀ n, (resState (k n)).mem = s.mem)
    (h : waitTiles s x l k = some r) : (resState r).mem = s.mem := by
  unfold waitTiles at h
  dsimp only at h
  split at h
  · cases h
    exact hk _
  · obtain ⟨_, _, rfl⟩ := Option.map_eq_some_iff.mp h
    simp

theorem waitTiles_getD_mem (s : State) (x : Issue) (l : Option (List Nat)) (k : Nat → Res) (hk : ∀ n, (resState (k n)).mem = s.mem) :
    (resState ((waitTiles s x l k).getD (.ok s))).mem = s.mem := by
  cases h : waitTiles s x l k with
  | none => rfl
  | some r => exact waitTiles_mem hk h

theorem tileHold_mem {s : State} {x : Issue} {w : VWord} {a b : Bool} {r : Res} (h : tileHold s x w a b = some r) :
    (resState r).mem = s.mem := by
  unfold tileHold at h
  split at h
  · cases h
  · dsimp only at h
    split at h
    · cases h; rfl
    · exact waitTiles_mem (fun _ => rfl) h

@[simp] theorem vecWord_mem (i : Instr) (w : VWord) (s : State) (useB useC : Bool) (f : W64 → W64 → W64 → W64) : (outState s (vecWord i w s useB useC f)).mem = s.mem := by
  unfold vecWord
  refine runWord_mem _ _ _ _ _ (fun x => ?_)
  repeat' (first | (rename_i h; first | (exact tileHold_mem h) | (simpa using tileHold_mem h)) | split)

@[simp] theorem execVAdd_mem (w : VWord) (s : State) : (outState s (execVAdd w s)).mem = s.mem := by
  simp [execVAdd]

@[simp] theorem execVSub_mem (w : VWord) (s : State) : (outState s (execVSub w s)).mem = s.mem := by
  simp [execVSub]

@[simp] theorem execVMul_mem (w : VWord) (s : State) : (outState s (execVMul w s)).mem = s.mem := by
  simp [execVMul]

@[simp] theorem execVMulh_mem (w : VWord) (s : State) : (outState s (execVMulh w s)).mem = s.mem := by
  simp [execVMulh]

@[simp] theorem execVMad_mem (w : VWord) (s : State) : (outState s (execVMad w s)).mem = s.mem := by
  simp [execVMad]

@[simp] theorem execVAbsd_mem (w : VWord) (s : State) : (outState s (execVAbsd w s)).mem = s.mem := by
  simp [execVAbsd]

@[simp] theorem execVMin_mem (w : VWord) (s : State) : (outState s (execVMin w s)).mem = s.mem := by
  simp [execVMin]

@[simp] theorem execVMax_mem (w : VWord) (s : State) : (outState s (execVMax w s)).mem = s.mem := by
  simp [execVMax]

@[simp] theorem execVAnd_mem (w : VWord) (s : State) : (outState s (execVAnd w s)).mem = s.mem := by
  simp [execVAnd]

@[simp] theorem execVOr_mem (w : VWord) (s : State) : (outState s (execVOr w s)).mem = s.mem := by
  simp [execVOr]

@[simp] theorem execVXor_mem (w : VWord) (s : State) : (outState s (execVXor w s)).mem = s.mem := by
  simp [execVXor]

@[simp] theorem execVAndn_mem (w : VWord) (s : State) : (outState s (execVAndn w s)).mem = s.mem := by
  simp [execVAndn]

@[simp] theorem shiftWord_mem (i : Instr) (w : VWord) (s : State) (f : Nat → Nat → Nat → Nat) : (outState s (shiftWord i w s f)).mem = s.mem := by
  unfold shiftWord
  split <;> simp

@[simp] theorem execVShl_mem (w : VWord) (s : State) : (outState s (execVShl w s)).mem = s.mem := by
  simp [execVShl]

@[simp] theorem execVShr_mem (w : VWord) (s : State) : (outState s (execVShr w s)).mem = s.mem := by
  simp [execVShr]

@[simp] theorem execVSar_mem (w : VWord) (s : State) : (outState s (execVSar w s)).mem = s.mem := by
  simp [execVSar]

@[simp] theorem execVClz_mem (w : VWord) (s : State) : (outState s (execVClz w s)).mem = s.mem := by
  simp [execVClz]

@[simp] theorem execVPopc_mem (w : VWord) (s : State) : (outState s (execVPopc w s)).mem = s.mem := by
  simp [execVPopc]

@[simp] theorem execVBfx_mem (w : VWord) (s : State) : (outState s (execVBfx w s)).mem = s.mem := by
  simp [execVBfx]

@[simp] theorem execVBfi_mem (w : VWord) (s : State) : (outState s (execVBfi w s)).mem = s.mem := by
  simp [execVBfi]

@[simp] theorem execVSel_mem (w : VWord) (s : State) : (outState s (execVSel w s)).mem = s.mem := by
  simp [execVSel]

@[simp] theorem execVCmp_mem (w : VWord) (s : State) : (outState s (execVCmp w s)).mem = s.mem := by
  simp [execVCmp]

@[simp] theorem execVMov_mem (w : VWord) (s : State) : (outState s (execVMov w s)).mem = s.mem := by
  simp [execVMov]

@[simp] theorem execVLi_mem (w : VWord) (s : State) : (outState s (execVLi w s)).mem = s.mem := by
  unfold execVLi
  exact runWord_mem _ _ _ _ _ (fun _ => by simp)

@[simp] theorem execVFroms_mem (w : VWord) (s : State) : (outState s (execVFroms w s)).mem = s.mem := by
  unfold execVFroms
  refine runWord_mem _ _ _ _ _ (fun _ => ?_)
  dsimp only
  repeat' split
  all_goals simp

@[simp] theorem execVTos_mem (w : VWord) (s : State) : (outState s (execVTos w s)).mem = s.mem := by
  unfold execVTos
  refine runWord_mem _ _ _ _ _ (fun x => ?_)
  repeat' (first | (rename_i h; first | (exact tileHold_mem h) | (simpa using tileHold_mem h)) | split)

@[simp] theorem intHalf_mem (h : Half) (s : State) (f : Nat → W64 → W64 → W64) : (outState s (intHalf h s f)).mem = s.mem := by
  unfold intHalf
  try dsimp only
  apply runHalf_mem
  all_goals intros
  repeat' (simp; done)

@[simp] theorem execPairVAdd_mem (h : Half) (s : State) : (outState s (execPairVAdd h s)).mem = s.mem := by
  simp [execPairVAdd]

@[simp] theorem execPairVSub_mem (h : Half) (s : State) : (outState s (execPairVSub h s)).mem = s.mem := by
  simp [execPairVSub]

@[simp] theorem execPairVMul_mem (h : Half) (s : State) : (outState s (execPairVMul h s)).mem = s.mem := by
  simp [execPairVMul]

@[simp] theorem execPairVMulh_mem (h : Half) (s : State) : (outState s (execPairVMulh h s)).mem = s.mem := by
  simp [execPairVMulh]

@[simp] theorem execPairVAbsd_mem (h : Half) (s : State) : (outState s (execPairVAbsd h s)).mem = s.mem := by
  simp [execPairVAbsd]

@[simp] theorem execPairVMin_mem (h : Half) (s : State) : (outState s (execPairVMin h s)).mem = s.mem := by
  simp [execPairVMin]

@[simp] theorem execPairVMax_mem (h : Half) (s : State) : (outState s (execPairVMax h s)).mem = s.mem := by
  simp [execPairVMax]

@[simp] theorem execPairVAnd_mem (h : Half) (s : State) : (outState s (execPairVAnd h s)).mem = s.mem := by
  simp [execPairVAnd]

@[simp] theorem execPairVOr_mem (h : Half) (s : State) : (outState s (execPairVOr h s)).mem = s.mem := by
  simp [execPairVOr]

@[simp] theorem execPairVXor_mem (h : Half) (s : State) : (outState s (execPairVXor h s)).mem = s.mem := by
  simp [execPairVXor]

@[simp] theorem execPairVAndn_mem (h : Half) (s : State) : (outState s (execPairVAndn h s)).mem = s.mem := by
  simp [execPairVAndn]

@[simp] theorem execPairVShl_mem (h : Half) (s : State) : (outState s (execPairVShl h s)).mem = s.mem := by
  simp [execPairVShl]

@[simp] theorem execPairVShr_mem (h : Half) (s : State) : (outState s (execPairVShr h s)).mem = s.mem := by
  simp [execPairVShr]

@[simp] theorem execPairVSar_mem (h : Half) (s : State) : (outState s (execPairVSar h s)).mem = s.mem := by
  simp [execPairVSar]

@[simp] theorem execPairVMov_mem (h : Half) (s : State) : (outState s (execPairVMov h s)).mem = s.mem := by
  simp [execPairVMov]

@[simp] theorem execPairVClz_mem (h : Half) (s : State) : (outState s (execPairVClz h s)).mem = s.mem := by
  simp [execPairVClz]

@[simp] theorem execPairVPopc_mem (h : Half) (s : State) : (outState s (execPairVPopc h s)).mem = s.mem := by
  simp [execPairVPopc]

@[simp] theorem vecWordF_mem (i : Instr) (w : VWord) (s : State) (useB useC : Bool) (f : W64 → W64 → W64 → W64 × Nat) : (outState s (vecWordF i w s useB useC f)).mem = s.mem := by
  unfold vecWordF
  refine runWord_mem _ _ _ _ _ (fun x => ?_)
  repeat' (first | (rename_i h; first | (exact tileHold_mem h) | (simpa using tileHold_mem h)) | split)

@[simp] theorem execVFadd_mem (w : VWord) (s : State) : (outState s (execVFadd w s)).mem = s.mem := by
  simp [execVFadd]

@[simp] theorem execVFsub_mem (w : VWord) (s : State) : (outState s (execVFsub w s)).mem = s.mem := by
  simp [execVFsub]

@[simp] theorem execVFmul_mem (w : VWord) (s : State) : (outState s (execVFmul w s)).mem = s.mem := by
  simp [execVFmul]

@[simp] theorem execVFma_mem (w : VWord) (s : State) : (outState s (execVFma w s)).mem = s.mem := by
  simp [execVFma]

@[simp] theorem execVFmin_mem (w : VWord) (s : State) : (outState s (execVFmin w s)).mem = s.mem := by
  simp [execVFmin]

@[simp] theorem execVFmax_mem (w : VWord) (s : State) : (outState s (execVFmax w s)).mem = s.mem := by
  simp [execVFmax]

@[simp] theorem execVFcmp_mem (w : VWord) (s : State) : (outState s (execVFcmp w s)).mem = s.mem := by
  simp [execVFcmp]

@[simp] theorem execVFrnd_mem (w : VWord) (s : State) : (outState s (execVFrnd w s)).mem = s.mem := by
  simp [execVFrnd]

@[simp] theorem execVFclass_mem (w : VWord) (s : State) : (outState s (execVFclass w s)).mem = s.mem := by
  simp [execVFclass]

@[simp] theorem execVFdot2_mem (w : VWord) (s : State) : (outState s (execVFdot2 w s)).mem = s.mem := by
  simp [execVFdot2]

@[simp] theorem floatHalf_mem (h : Half) (s : State) (f : Fmt → Nat → Nat → Nat × Nat) : (outState s (floatHalf h s f)).mem = s.mem := by
  unfold floatHalf
  try dsimp only
  apply runHalf_mem
  all_goals intros
  repeat' (simp; done)

@[simp] theorem execPairVFadd_mem (h : Half) (s : State) : (outState s (execPairVFadd h s)).mem = s.mem := by
  simp [execPairVFadd]

@[simp] theorem execPairVFsub_mem (h : Half) (s : State) : (outState s (execPairVFsub h s)).mem = s.mem := by
  simp [execPairVFsub]

@[simp] theorem execPairVFmul_mem (h : Half) (s : State) : (outState s (execPairVFmul h s)).mem = s.mem := by
  simp [execPairVFmul]

@[simp] theorem execPairVFmin_mem (h : Half) (s : State) : (outState s (execPairVFmin h s)).mem = s.mem := by
  simp [execPairVFmin]

@[simp] theorem execPairVFmax_mem (h : Half) (s : State) : (outState s (execPairVFmax h s)).mem = s.mem := by
  simp [execPairVFmax]

@[simp] theorem execPairVFrnd_mem (h : Half) (s : State) : (outState s (execPairVFrnd h s)).mem = s.mem := by
  simp [execPairVFrnd]

@[simp] theorem execPairVFclass_mem (h : Half) (s : State) : (outState s (execPairVFclass h s)).mem = s.mem := by
  simp [execPairVFclass]

@[simp] theorem execVCvt_mem (w : VWord) (s : State) : (outState s (execVCvt w s)).mem = s.mem := by
  unfold execVCvt
  refine runWord_mem _ _ _ _ _ (fun x => ?_)
  repeat' (first | (rename_i h; first | (exact tileHold_mem h) | (simpa using tileHold_mem h)) | split)

@[simp] theorem execVPack_mem (w : VWord) (s : State) : (outState s (execVPack w s)).mem = s.mem := by
  simp [execVPack]

@[simp] theorem execVUnpack_mem (w : VWord) (s : State) : (outState s (execVUnpack w s)).mem = s.mem := by
  simp [execVUnpack]

@[simp] theorem quantWord_mem (i : Instr) (w : VWord) (s : State) (scl useB : Bool) (f : State → Issue → QuantCtx → Group × List (Nat × W64)) : (outState s (quantWord i w s scl useB f)).mem = s.mem := by
  unfold quantWord
  refine runWord_mem _ _ _ _ _ (fun x => ?_)
  dsimp only
  split
  · simp
  · split
    · rw [resState_bad, clearWalks_mem]
    · rw [resState_park, startWalk_mem]
    · split
      · exact tileHold_mem (by assumption)
      · rfl
      · rw [resState_bad, clearWalks_mem]
      · have e := readNow_mem' (by assumption)
        split <;> simp [e]

@[simp] theorem execVQuant_mem (w : VWord) (s : State) : (outState s (execVQuant w s)).mem = s.mem := by
  simp [execVQuant]

@[simp] theorem execVDequant_mem (w : VWord) (s : State) : (outState s (execVDequant w s)).mem = s.mem := by
  simp [execVDequant]

@[simp] theorem sfuWord_mem (i : Instr) (w : VWord) (s : State) (f : Nat → Nat × Nat) : (outState s (sfuWord i w s f)).mem = s.mem := by
  unfold sfuWord
  refine runWord_mem _ _ _ _ _ (fun x => ?_)
  repeat' (first | (rename_i h; first | (exact tileHold_mem h) | (simpa using tileHold_mem h)) | split)

@[simp] theorem execVRcp_mem (w : VWord) (s : State) : (outState s (execVRcp w s)).mem = s.mem := by
  simp [execVRcp]

@[simp] theorem execVRsq_mem (w : VWord) (s : State) : (outState s (execVRsq w s)).mem = s.mem := by
  simp [execVRsq]

@[simp] theorem execVSqrt_mem (w : VWord) (s : State) : (outState s (execVSqrt w s)).mem = s.mem := by
  simp [execVSqrt]

@[simp] theorem execVExp2_mem (w : VWord) (s : State) : (outState s (execVExp2 w s)).mem = s.mem := by
  simp [execVExp2]

@[simp] theorem execVLog2_mem (w : VWord) (s : State) : (outState s (execVLog2 w s)).mem = s.mem := by
  simp [execVLog2]

@[simp] theorem execVSin_mem (w : VWord) (s : State) : (outState s (execVSin w s)).mem = s.mem := by
  simp [execVSin]

@[simp] theorem execVCos_mem (w : VWord) (s : State) : (outState s (execVCos w s)).mem = s.mem := by
  simp [execVCos]

@[simp] theorem execVAct_mem (w : VWord) (s : State) : (outState s (execVAct w s)).mem = s.mem := by
  simp [execVAct]

@[simp] theorem execSfuResultWrite_mem (id : Nat) (s : State) : (outState s (execSfuResultWrite id s)).mem = s.mem := by
  unfold execSfuResultWrite
  repeat' split
  all_goals simp

@[simp] theorem crossWord_mem (i : Instr) (w : VWord) (s : State) (useB : Bool) (f : Issue → (Nat → W64) → (Nat → W64) → Nat → W64) : (outState s (crossWord i w s useB f)).mem = s.mem := by
  unfold crossWord
  refine runWord_mem _ _ _ _ _ (fun x => ?_)
  repeat' (first | (rename_i h; first | (exact tileHold_mem h) | (simpa using tileHold_mem h)) | split)

@[simp] theorem execXShf_mem (w : VWord) (s : State) : (outState s (execXShf w s)).mem = s.mem := by
  simp [execXShf]

@[simp] theorem execXBfly_mem (w : VWord) (s : State) : (outState s (execXBfly w s)).mem = s.mem := by
  unfold execXBfly
  refine runWord_mem _ _ _ _ _ (fun x => ?_)
  repeat' (first | (rename_i h; first | (exact tileHold_mem h) | (simpa using tileHold_mem h)) | split)

@[simp] theorem execXBcast_mem (w : VWord) (s : State) : (outState s (execXBcast w s)).mem = s.mem := by
  simp [execXBcast]

@[simp] theorem execXScan_mem (w : VWord) (s : State) : (outState s (execXScan w s)).mem = s.mem := by
  unfold execXScan
  refine runWord_mem _ _ _ _ _ (fun x => ?_)
  repeat' (first | (rename_i h; first | (exact tileHold_mem h) | (simpa using tileHold_mem h)) | split)

@[simp] theorem execXRed_mem (w : VWord) (s : State) : (outState s (execXRed w s)).mem = s.mem := by
  unfold execXRed
  refine runWord_mem _ _ _ _ _ (fun x => ?_)
  repeat' (first | (rename_i h; first | (exact tileHold_mem h) | (simpa using tileHold_mem h)) | split)

@[simp] theorem execXCompact_mem (w : VWord) (s : State) : (outState s (execXCompact w s)).mem = s.mem := by
  unfold execXCompact
  refine runWord_mem _ _ _ _ _ (fun x => ?_)
  repeat' (first | (rename_i h; first | (exact tileHold_mem h) | (simpa using tileHold_mem h)) | split)

@[simp] theorem voteWord_mem (i : Instr) (w : VWord) (s : State) (f : Issue → List Nat → W64) : (outState s (voteWord i w s f)).mem = s.mem := by
  unfold voteWord
  exact runWord_mem _ _ _ _ _ (fun _ => by simp)

@[simp] theorem execVoteAny_mem (w : VWord) (s : State) : (outState s (execVoteAny w s)).mem = s.mem := by
  simp [execVoteAny]

@[simp] theorem execVoteAll_mem (w : VWord) (s : State) : (outState s (execVoteAll w s)).mem = s.mem := by
  simp [execVoteAll]

@[simp] theorem execVoteBal_mem (w : VWord) (s : State) : (outState s (execVoteBal w s)).mem = s.mem := by
  simp [execVoteBal]

@[simp] theorem maskWord_mem (i : Instr) (w : VWord) (s : State) (f : W64 → W64 → W64) : (outState s (maskWord i w s f)).mem = s.mem := by
  unfold maskWord
  exact runWord_mem _ _ _ _ _ (fun _ => by simp)

@[simp] theorem execMAnd_mem (w : VWord) (s : State) : (outState s (execMAnd w s)).mem = s.mem := by
  simp [execMAnd]

@[simp] theorem execMOr_mem (w : VWord) (s : State) : (outState s (execMOr w s)).mem = s.mem := by
  simp [execMOr]

@[simp] theorem execMXor_mem (w : VWord) (s : State) : (outState s (execMXor w s)).mem = s.mem := by
  simp [execMXor]

@[simp] theorem execMAndn_mem (w : VWord) (s : State) : (outState s (execMAndn w s)).mem = s.mem := by
  simp [execMAndn]

@[simp] theorem execMPopc_mem (w : VWord) (s : State) : (outState s (execMPopc w s)).mem = s.mem := by
  simp [execMPopc]

@[simp] theorem execMFfs_mem (w : VWord) (s : State) : (outState s (execMFfs w s)).mem = s.mem := by
  simp [execMFfs]

@[simp] theorem execMSet_mem (w : VWord) (s : State) : (outState s (execMSet w s)).mem = s.mem := by
  unfold execMSet
  exact runWord_mem _ _ _ _ _ (fun _ => by simp)

@[simp] theorem execRngDraw_mem (w : VWord) (s : State) : (outState s (execRngDraw w s)).mem = s.mem := by
  unfold execRngDraw
  exact runWord_mem _ _ _ _ _ (fun _ => by simp)

theorem releaseWait_mem {s : State} {g : Group} {sc : Scope} {p : State × Park} (h : releaseWait s g sc = some p) : p.1.mem = s.mem := by
  unfold releaseWait at h
  dsimp only at h
  split at h
  · cases h
  · split at h
    · cases h
    · cases h
      simp

theorem releaseIf_mem {s : State} {g : Group} {sc : Scope} {c : Prop} [Decidable c] {t : State} {q : Park}
    (h : (if c then releaseWait s g sc else none) = some (t, q)) : t.mem = s.mem := by
  split at h
  · exact releaseWait_mem h
  · cases h

theorem releaseBind_mem {s : State} {g : Group} {o : Option Scope} {t : State} {q : Park}
    (h : o.bind (releaseWait s g) = some (t, q)) : t.mem = s.mem := by
  cases o with
  | none => cases h
  | some sc => exact releaseWait_mem h

theorem releaseIfBind_mem {s : State} {g : Group} {c : Prop} [Decidable c] {o : Option Scope} {t : State} {q : Park}
    (h : (if c then none else o.bind (releaseWait s g)) = some (t, q)) : t.mem = s.mem := by
  split at h
  · cases h
  · exact releaseBind_mem h

theorem releaseWait_mem' {s t : State} {g : Group} {sc : Scope} {q : Park} (h : releaseWait s g sc = some (t, q)) : t.mem = s.mem :=
  releaseWait_mem h

@[simp] theorem globalLoad_mem (s : State) (x : Issue) (w : MWord) (z dst : Nat) (pair : Bool) (l : List (Nat × Nat)) (perLane : Bool) : (resState (globalLoad s x w z dst pair l perLane)).mem = s.mem := by
  unfold globalLoad
  dsimp only
  repeat' split
  all_goals simp

@[simp] theorem execLdG_mem (w : MWord) (s : State) : (outState s (execLdG w s)).mem = s.mem := by
  unfold execLdG
  exact runWord_mem _ _ _ _ _ (fun _ => by simp)

@[simp] theorem execLdX_mem (w : MWord) (s : State) : (outState s (execLdX w s)).mem = s.mem := by
  unfold execLdX
  exact runWord_mem _ _ _ _ _ (fun _ => by simp)

@[simp] theorem execLdS_mem (w : MWord) (s : State) : (outState s (execLdS w s)).mem = s.mem := by
  unfold execLdS
  exact runWord_mem _ _ _ _ _ (fun _ => by simp)

@[simp] theorem globalStore_mem (s : State) (x : Issue) (w : MWord) (z : Nat) (l : List (Nat × Nat)) (val : Nat → W64) (perLane : Bool) : (resState (globalStore s x w z l val perLane)).mem = s.mem := by
  unfold globalStore
  try dsimp only
  repeat' (first | (simp [apply_ite State.mem]; done) | (exact releaseBind_mem (by assumption)) | (have e := releaseBind_mem (by assumption); simpa using e; done) | (exact releaseWait_mem' (by assumption)) | (have e := releaseWait_mem' (by assumption); simpa using e; done) | (rename_i h; first | (exact releaseBind_mem h) | (simpa using releaseBind_mem h) | (exact releaseWait_mem h) | (simpa using releaseWait_mem h)) | split | (refine (foldl_mem _ (fun s a => ?_) _ _).trans ?_) | (rename_i h; have e := congrArg (fun p => p.1.mem) h; simp at e; simp [← e]; done) | (simp [apply_ite State.mem]))

@[simp] theorem execStG_mem (w : MWord) (s : State) : (outState s (execStG w s)).mem = s.mem := by
  unfold execStG
  exact runWord_mem _ _ _ _ _ (fun _ => by simp)

@[simp] theorem execStS_mem (w : MWord) (s : State) : (outState s (execStS w s)).mem = s.mem := by
  unfold execStS
  exact runWord_mem _ _ _ _ _ (fun _ => by simp)

@[simp] theorem execLdL_mem (w : MWord) (s : State) : (outState s (execLdL w s)).mem = s.mem := by
  unfold execLdL
  refine runWord_mem _ _ _ _ _ (fun _ => ?_)
  dsimp only
  repeat' split
  all_goals simp

@[simp] theorem execStL_mem (w : MWord) (s : State) : (outState s (execStL w s)).mem = s.mem := by
  unfold execStL
  refine runWord_mem _ _ _ _ _ (fun x => ?_)
  dsimp only
  split
  · rfl
  · split
    · exact releaseBind_mem (by assumption)
    · rw [finishLanes_mem]
      repeat' split
      all_goals simp
  · split
    · exact releaseBind_mem (by assumption)
    · split
      · rfl
      · rw [finishLanes_mem]
        repeat' split
        all_goals simp

@[simp] theorem atomicWord_mem (i : Instr) (w : VWord) (s : State) (op : AtOp) (useC : Bool) : (outState s (atomicWord i w s op useC)).mem = s.mem := by
  unfold atomicWord
  refine runWord_mem _ _ _ _ _ (fun x => ?_)
  repeat' (first | (exact releaseIf_mem (by assumption)) | split | (refine (foldl_mem _ (fun s a => ?_) _ _).trans ?_) | (simp ))

@[simp] theorem execAtAdd_mem (w : VWord) (s : State) : (outState s (execAtAdd w s)).mem = s.mem := by
  simp [execAtAdd]

@[simp] theorem execAtSub_mem (w : VWord) (s : State) : (outState s (execAtSub w s)).mem = s.mem := by
  simp [execAtSub]

@[simp] theorem execAtMin_mem (w : VWord) (s : State) : (outState s (execAtMin w s)).mem = s.mem := by
  simp [execAtMin]

@[simp] theorem execAtMax_mem (w : VWord) (s : State) : (outState s (execAtMax w s)).mem = s.mem := by
  simp [execAtMax]

@[simp] theorem execAtAnd_mem (w : VWord) (s : State) : (outState s (execAtAnd w s)).mem = s.mem := by
  simp [execAtAnd]

@[simp] theorem execAtOr_mem (w : VWord) (s : State) : (outState s (execAtOr w s)).mem = s.mem := by
  simp [execAtOr]

@[simp] theorem execAtXor_mem (w : VWord) (s : State) : (outState s (execAtXor w s)).mem = s.mem := by
  simp [execAtXor]

@[simp] theorem execAtXchg_mem (w : VWord) (s : State) : (outState s (execAtXchg w s)).mem = s.mem := by
  simp [execAtXchg]

@[simp] theorem execAtCas_mem (w : VWord) (s : State) : (outState s (execAtCas w s)).mem = s.mem := by
  simp [execAtCas]

@[simp] theorem execAtCas2_mem (w : VWord) (s : State) : (outState s (execAtCas2 w s)).mem = s.mem := by
  simp [execAtCas2]

@[simp] theorem execAtFadd_mem (w : VWord) (s : State) : (outState s (execAtFadd w s)).mem = s.mem := by
  simp [execAtFadd]

@[simp] theorem atWriteBack_mem (s : State) (gid dst : Nat) (old : List (Nat × List Byte)) : (atWriteBack s gid dst old).mem = s.mem := by
  unfold atWriteBack
  repeat' split
  all_goals simp

@[simp] theorem regroupGo_mem (s : State) (gid : Nat) (v : W64) : (regroupGo s gid v).mem = s.mem := by
  unfold regroupGo
  repeat' split
  all_goals simp

@[simp] theorem regroupRelease_mem (s : State) (tid : Nat) : (regroupRelease s tid).mem = s.mem := by
  unfold regroupRelease
  try dsimp only
  repeat' (first | (simp [apply_ite State.mem]; done) | split | (refine (foldl_mem _ (fun s a => ?_) _ _).trans ?_))

@[simp] theorem regroupSeek_mem (s : State) (gid : Nat) (key : W64) : (regroupSeek s gid key).mem = s.mem := by
  unfold regroupSeek
  repeat' split
  all_goals simp

@[simp] theorem regroupWait_mem (s : State) (gid : Nat) (b : Bool) (key : W64) : (regroupWait s gid b key).mem = s.mem := by
  simp [regroupWait]

@[simp] theorem execRegroup_mem (w : VWord) (s : State) : (outState s (execRegroup w s)).mem = s.mem := by
  unfold execRegroup
  refine runWord_mem _ _ _ _ _ (fun _ => ?_)
  repeat' split
  all_goals simp

@[simp] theorem execExit_mem (w : SWord) (s : State) : (outState s (execExit w s)).mem = s.mem := by
  unfold execExit
  exact runWord_mem _ _ _ _ _ (fun _ => by split <;> simp)

@[simp] theorem fenceLoads_mem (s : State) (gid : Nat) : (fenceLoads s gid).mem = s.mem := rfl

@[simp] theorem execFence_mem (w : SWord) (s : State) : (outState s (execFence w s)).mem = s.mem := by
  unfold execFence
  refine runWord_mem _ _ _ _ _ (fun x => ?_)
  repeat' (first | (simp; done) | (exact releaseWait_mem' (by assumption)) | split)

@[simp] theorem barArriveNow_mem (s : State) (tid b num : Nat) : (barArriveNow s tid b num).mem = s.mem := by
  unfold barArriveNow
  split <;> simp

@[simp] theorem settleArrivals_mem (s : State) (gid : Nat) : (settleArrivals s gid).mem = s.mem := by
  unfold settleArrivals
  try dsimp only
  repeat' (first | (simp [apply_ite State.mem]; done) | split | (refine (foldl_mem _ (fun s a => ?_) _ _).trans ?_))

theorem arriveBar_mem {s t : State} {x : Issue} {u : Team} {b : Nat} (h : arriveBar s x u b = .inl t) : t.mem = s.mem := by
  unfold arriveBar at h
  dsimp only at h
  repeat' split at h
  all_goals (cases h; try simp)

@[simp] theorem parkBar_mem (s : State) (x : Issue) (b : Nat) : (resState (parkBar s x b)).mem = s.mem := by
  simp [parkBar]

@[simp] theorem execBarInit_mem (w : SWord) (s : State) : (outState s (execBarInit w s)).mem = s.mem := by
  unfold execBarInit
  refine runWord_mem _ _ _ _ _ (fun _ => ?_)
  dsimp only
  repeat' split
  all_goals simp

@[simp] theorem execBarArv_mem (w : SWord) (s : State) : (outState s (execBarArv w s)).mem = s.mem := by
  unfold execBarArv
  refine runWord_mem _ _ _ _ _ (fun x => ?_)
  split
  · rfl
  · split
    · rfl
    · exact arriveBar_mem (by assumption)

@[simp] theorem execBarWait_mem (w : SWord) (s : State) : (outState s (execBarWait w s)).mem = s.mem := by
  unfold execBarWait
  refine runWord_mem _ _ _ _ _ (fun _ => ?_)
  dsimp only
  repeat' split
  all_goals simp

@[simp] theorem execBarSync_mem (w : SWord) (s : State) : (outState s (execBarSync w s)).mem = s.mem := by
  unfold execBarSync
  refine runWord_mem _ _ _ _ _ (fun x => ?_)
  dsimp only
  repeat' split
  all_goals first
    | rfl | exact putG_mem _ _ | exact parkBar_mem _ _ _ | exact arriveBar_mem (by assumption)
    | exact (parkBar_mem _ _ _).trans (arriveBar_mem (by assumption))

@[simp] theorem execCbar_mem (w : SWord) (s : State) : (outState s (execCbar w s)).mem = s.mem := by
  unfold execCbar
  refine runWord_mem _ _ _ _ _ (fun x => ?_)
  repeat' (first | (exact releaseWait_mem' (by assumption)) | split | (simp ))

@[simp] theorem atL1_mem (s : State) (core : Nat) (lanes : List (Lane × Nat × Nat)) (r : List (Nat × Byte) × List (Nat × List Byte)) : (atL1 s core lanes r).mem = s.mem := rfl

theorem execHomeAtomicPerform_wf (id : Nat) (s : State) (hw : Memory.wf s.mem = true) : Memory.wf (outState s (execHomeAtomicPerform id s)).mem = true := by
  unfold execHomeAtomicPerform
  rw [outState_next]
  split
  · split
    · dsimp only
      split
      · split
        · split
          · rwa [machineCheck_mem, dropF_mem]
          · rw [settleArrivals_mem]
            have e (s0 : State) (h : s0.mem = s.mem) : Memory.wf s0.mem = true := h ▸ hw
            apply e
            repeat' split
            all_goals simp
        · exact hw
      · split
        · split
          · rwa [machineCheck_mem, dropF_mem]
          · rw [settleArrivals_mem]
            split
            · simp only [dropF_mem, atWriteBack_mem, atL1_mem]
              exact performBy_wf _ _ _ _ (by rwa [homeTouch_mem])
            · simp only [feedStore_mem, completion_mem, homeStoreTags_mem, dropF_mem, atWriteBack_mem, atL1_mem]
              exact performBy_wf _ _ _ _ (by rwa [homeTouch_mem])
        · exact hw
    · exact hw
  · exact hw

@[simp] theorem putLehr_mem (s : State) (gid : Nat) (t : Team) (h : Nat) : (putLehr s gid t h).mem = s.mem := rfl

@[simp] theorem faultLines_mem (s : State) (tid : Nat) (lines : List Nat) (index : Nat) : (faultLines s tid lines index).mem = s.mem := by
  unfold faultLines
  dsimp only
  repeat' split
  all_goals simp

theorem lehrWord_mem (i : Instr) (w : SWord) (s : State) (f : State → Issue → Team → Nat → Res)
    (hf : ∀ x t h, (resState (f s x t h)).mem = s.mem) : (outState s (lehrWord i w s f)).mem = s.mem := by
  unfold lehrWord
  refine runWord_mem _ _ _ _ _ (fun x => ?_)
  repeat' split
  · rfl
  · dsimp only
    rename_i t _
    have h := hf x t (rs x.g w.a.toNat).toNat
    repeat' split
    · rfl
    · rfl
    · rename_i e
      rw [e] at h
      simpa using h
    · exact h

@[simp] theorem execLrInit_mem (w : SWord) (s : State) : (outState s (execLrInit w s)).mem = s.mem := by
  unfold execLrInit
  refine runWord_mem _ _ _ _ _ (fun _ => ?_)
  dsimp only
  repeat' split
  all_goals simp

@[simp] theorem execLrAwait_mem (w : SWord) (s : State) : (outState s (execLrAwait w s)).mem = s.mem := by
  unfold execLrAwait
  try dsimp only
  apply lehrWord_mem
  all_goals intros
  repeat' (first | (simp; done) | split)

@[simp] theorem mcReturn_mem (s : State) (gid : Nat) (t : Team) (h k : Nat) : (mcReturn s gid t h k).mem = s.mem := by
  unfold mcReturn
  dsimp only
  repeat' split
  all_goals simp

@[simp] theorem execLrRel_mem (w : SWord) (s : State) : (outState s (execLrRel w s)).mem = s.mem := by
  unfold execLrRel
  try dsimp only
  apply lehrWord_mem
  all_goals intros
  repeat' (first | (simp [apply_ite State.mem]; done) | split | (refine (foldl_mem _ (fun s a => ?_) _ _).trans ?_) | (rename_i h; have e := congrArg (fun p => p.1.mem) h; simp at e; simp [← e]; done) | (simp [apply_ite State.mem]))

@[simp] theorem execLrFill_mem (w : SWord) (s : State) : (outState s (execLrFill w s)).mem = s.mem := by
  unfold execLrFill
  try dsimp only
  apply lehrWord_mem
  all_goals intros
  repeat' (first | (simp; done) | split)

@[simp] theorem execLrFillPut_mem (w : SWord) (s : State) : (outState s (execLrFillPut w s)).mem = s.mem := by
  unfold execLrFillPut
  try dsimp only
  apply lehrWord_mem
  all_goals intros
  repeat' (first | (simp; done) | (exact releaseWait_mem' (by assumption)) | split)

@[simp] theorem addMarks_mem (s : State) (l : List (Nat × Nat)) : (addMarks s l).mem = s.mem := by
  unfold addMarks
  exact foldl_mem _ (fun _ _ => by simp) _ _

@[simp] theorem dropMarks_mem (s : State) (l : List (Nat × Nat)) : (dropMarks s l).mem = s.mem := by
  unfold dropMarks
  exact foldl_mem _ (fun _ _ => by simp) _ _

@[simp] theorem issueCopy_mem (s : State) (x : Issue) (c : Copy) : (issueCopy s x c).mem = s.mem := by
  unfold issueCopy
  simp only [launchOp_mem, addMarks_mem, drainWcb_mem]
  split <;> simp

@[simp] theorem issueMarked_mem (s : State) (x : Issue) (c : Copy) : (issueMarked s x c).mem = s.mem := by
  simp [issueMarked]

theorem withSlot_mem (s s0 : State) (gid : Nat) (t : Team) (h n : Nat) (fit : Bool) (f : State → Team → Nat → Res) (h0 : s.mem = s0.mem)
    (hf : ∀ s1 t k, s1.mem = s0.mem → (resState (f s1 t k)).mem = s0.mem) : (resState (withSlot s gid t h n fit f)).mem = s0.mem := by
  unfold withSlot
  dsimp only
  repeat' split
  all_goals first | (apply hf; simpa using h0) | simp [h0]

@[simp] theorem execCpIn_mem (w : SWord) (s : State) : (outState s (execCpIn w s)).mem = s.mem := by
  unfold execCpIn
  refine runWord_mem _ _ _ _ _ (fun x => ?_)
  dsimp only
  repeat' split
  all_goals first | (refine withSlot_mem _ _ _ _ _ _ _ _ rfl (fun s1 t k h => ?_); simp [okG, h]; done) | simp

@[simp] theorem execCpOut_mem (w : SWord) (s : State) : (outState s (execCpOut w s)).mem = s.mem := by
  unfold execCpOut
  refine runWord_mem _ _ _ _ _ (fun x => ?_)
  dsimp only
  repeat' split
  all_goals first | (refine withSlot_mem _ _ _ _ _ _ _ _ rfl (fun s1 t k h => ?_); simp [okG, h]; done) | simp

@[simp] theorem execCpG_mem (w : SWord) (s : State) : (outState s (execCpG w s)).mem = s.mem := by
  unfold execCpG
  refine runWord_mem _ _ _ _ _ (fun x => ?_)
  dsimp only
  repeat' split
  all_goals first | (refine withSlot_mem _ _ _ _ _ _ _ _ rfl (fun s1 t k h => ?_); simp [okG, h]; done) | simp

@[simp] theorem execCpHalo_mem (w : SWord) (s : State) : (outState s (execCpHalo w s)).mem = s.mem := by
  unfold execCpHalo
  refine runWord_mem _ _ _ _ _ (fun _ => ?_)
  dsimp only
  repeat' split
  all_goals simp

@[simp] theorem mcIssue_mem (s : State) (g : Group) (h bytes sender : Nat) (ms : List Nat) : (mcIssue s g h bytes sender ms).1.mem = s.mem := by
  unfold mcIssue
  refine foldl_fst_mem _ (fun p m => ?_) _ _
  dsimp only
  repeat' split
  all_goals simp

@[simp] theorem execCpMc_mem (w : SWord) (s : State) : (outState s (execCpMc w s)).mem = s.mem := by
  unfold execCpMc
  refine runWord_mem _ _ _ _ _ (fun x => ?_)
  dsimp only
  split
  · rfl
  · split
    · rfl
    · split
      · exact badW_mem _ _ _ _ _
      · split
        · exact badW_mem _ _ _ _ _
        · split
          · rw [resState_park, putT_mem]
          · rw [resState_ok, issueCopy_mem, mcIssue_mem, putT_mem]

@[simp] theorem unitTouch_mem (s : State) (f : Flight) (hint : Nat) (pa : Option Nat) : (unitTouch s f hint pa).mem = s.mem := by
  unfold unitTouch
  split <;> simp

theorem writeUnit_wf {s t : State} {f : Flight} {hint dst i n : Nat} {l : List Byte} (e : writeUnit s f hint dst i l = .ok t n)
    (h : Memory.wf s.mem = true) : Memory.wf t.mem = true := by
  unfold writeUnit at e
  dsimp only at e
  repeat' split at e
  all_goals (cases e; try exact engineWrite_wf _ _ _ _ h)

@[simp] theorem landLocal_mem (s : State) (t : Team) (off : Nat) (l : List Byte) : (landLocal s t off l).mem = s.mem := rfl

theorem moveUnits_wf (f : Flight) (c : Copy) (l : List Nat) (p : Prog) (h : Memory.wf p.s.mem = true) :
    Memory.wf (moveUnits f c l p).s.mem = true := by
  induction l generalizing p with
  | nil => exact h
  | cons i r ih =>
    unfold moveUnits
    split
    · exact h
    · exact h
    · exact h
    · dsimp only
      split
      · split
        · exact ih _ (by simpa using h)
        · exact ih _ (by simpa using h)
      · split
        · exact h
        · exact h
        · exact h
        · rename_i e
          exact ih _ (writeUnit_wf e (by simpa using h))

theorem runCopy_wf (s : State) (f : Flight) (c : Copy) (n : Nat) (h : Memory.wf s.mem = true) : Memory.wf (runCopy s f c n).s.mem = true :=
  moveUnits_wf _ _ _ _ (by simpa using h)

@[simp] theorem addDue_mem (s : State) (f : Flight) (d : Due) (service : Nat) : (addDue s f d service).mem = s.mem := by
  unfold addDue
  split <;> simp

@[simp] theorem fillSlot_mem (s : State) (c : Copy) (time : Nat) : (fillSlot s c time).mem = s.mem := by
  unfold fillSlot
  repeat' split
  all_goals simp

@[simp] theorem faultSlot_mem (s : State) (c : Copy) (time : Nat) (e : FInfo) : (faultSlot s c time e).mem = s.mem := by
  unfold faultSlot
  repeat' split
  all_goals simp

@[simp] theorem landLines_mem (s : State) (c : Copy) (done : Nat) : (landLines s c done).mem = s.mem := by
  unfold landLines
  split <;> simp

theorem pauseCopy_wf (p : Prog) (f : Flight) (c : Copy) (h : Memory.wf p.s.mem = true) : Memory.wf (pauseCopy p f c).mem = true := by
  unfold pauseCopy
  dsimp only
  split <;> simpa using h

theorem execCopyComplete_wf (run : CopyRun) (s : State) (hw : Memory.wf s.mem = true) : Memory.wf (outState s (execCopyComplete run s)).mem = true := by
  unfold execCopyComplete
  rw [outState_next]
  split
  · split
    · split
      · dsimp only
        have h := runCopy_wf s ‹_› ‹_› run.units hw
        split
        · exact pauseCopy_wf _ _ _ h
        · rw [dropF_mem, fillSlot_mem]
          split <;> simpa using h
      · exact hw
    · exact hw
  · exact hw

@[simp] theorem execHaloSourceRead_mem (run : CopyRun) (s : State) : (outState s (execHaloSourceRead run s)).mem = s.mem := by
  unfold execHaloSourceRead
  dsimp only
  repeat' split
  all_goals simp

@[simp] theorem mcReadUnits_mem (f : Flight) (l : List Nat) (p : State × Copy × Option Nat) : (mcReadUnits f l p).1.mem = p.1.mem := by
  induction l generalizing p with
  | nil => rfl
  | cons i r ih =>
    unfold mcReadUnits
    split
    · rfl
    · rfl
    · rfl
    · rw [ih, unitTouch_mem]

@[simp] theorem mcRead_mem (s : State) (f : Flight) (c : Copy) (n : Nat) : (mcRead s f c n).1.mem = s.mem := by
  unfold mcRead
  split
  · rfl
  · rw [mcReadUnits_mem]

@[simp] theorem mcRefuse_mem (s : State) (c : Copy) (u : Team) (r : McRecv) (k : Nat) (e : FInfo) : (mcRefuse s c u r k e).1.mem = s.mem := rfl

theorem mcRead_fst {s t : State} {f : Flight} {c d : Copy} {n : Nat} {o : Option Nat} (h : mcRead s f c n = (t, d, o)) : t.mem = s.mem := by
  rw [← mcRead_mem s f c n, h]

@[simp] theorem mcLand_mem (s : State) (c : Copy) (u : Team) (r : McRecv) (k : Nat) : (mcLand s c u r k).1.mem = s.mem := by
  unfold mcLand
  dsimp only
  repeat' split
  all_goals simp

@[simp] theorem mcServe_mem (s : State) (c : Copy) (u : Team) (r : McRecv) : (mcServe s c u r).1.mem = s.mem := by
  unfold mcServe
  dsimp only
  repeat' split
  all_goals simp

@[simp] theorem endMc_mem (s : State) (f : Flight) (c : Copy) : (endMc s f c).mem = s.mem := by
  unfold endMc
  repeat' split
  all_goals simp

@[simp] theorem execCpMcDelivery_mem (run : CopyRun) (m : Nat) (s : State) : (outState s (execCpMcDelivery run m s)).mem = s.mem := by
  unfold execCpMcDelivery
  rw [outState_next]
  split
  · split
    · split
      · split
        · dsimp only
          split
          · rw [endMc_mem, serviceRecord_mem]
          · split
            · rw [endMc_mem, serviceRecord_mem, putT_mem]
            · split
              · rw [flightWalk_mem, putF_mem]
                exact mcRead_fst (by assumption)
              · rw [endMc_mem, progressed_mem, mcServe_mem]
                exact mcRead_fst (by assumption)
        · rfl
      · rfl
    · rfl
  · rfl

@[simp] theorem copyFailed_mem (s : State) (f : Flight) (e : FInfo) : (copyFailed s f e).mem = s.mem := by
  unfold copyFailed
  split <;> simp

@[simp] theorem failHalo_mem (s : State) (f : Flight) (c : Copy) (code addr : Nat) : (failHalo s f c code addr).mem = s.mem := by
  simp [failHalo]

theorem execCopyFault_wf (id : Nat) (s : State) (hw : Memory.wf s.mem = true) : Memory.wf (outState s (execCopyFault id s)).mem = true := by
  unfold execCopyFault
  rw [outState_next]
  split
  · split
    · dsimp only
      split
      · repeat' split
        all_goals (first | exact hw | simpa using hw)
      · split
        · have h := runCopy_wf s ‹_› ‹_› 0 hw
          split
          · rw [copyFailed_mem, dropF_mem, faultSlot_mem]
            split <;> simpa using h
          · exact hw
        · exact hw
    · exact hw
  · exact hw

@[simp] theorem execCcPrf_mem (w : SWord) (s : State) : (outState s (execCcPrf w s)).mem = s.mem := by
  unfold execCcPrf
  refine runWord_mem _ _ _ _ _ (fun x => ?_)
  repeat' (first | (simp [apply_ite State.mem]; done) | split | (refine (foldl_mem _ (fun s a => ?_) _ _).trans ?_) | (rename_i h; have e := congrArg (fun p => p.1.mem) h; simp at e; simp [← e]; done) | (simp [apply_ite State.mem]))

theorem ccWord_mem (i : Instr) (w : SWord) (s : State) (f : State → Issue → List (Nat × Bool) → State) (hf : ∀ s x l, (f s x l).mem = s.mem) :
    (outState s (ccWord i w s f)).mem = s.mem := by
  unfold ccWord
  refine runWord_mem _ _ _ _ _ (fun x => ?_)
  dsimp only
  repeat' split
  all_goals simp [hf]

@[simp] theorem writeBackLine_mem (s : State) (x : Issue) (hbm : Bool) (line sector : Nat) : (writeBackLine s x hbm line sector).mem = s.mem := by
  unfold writeBackLine
  dsimp only
  repeat' split
  all_goals simp

@[simp] theorem execCcWb_mem (w : SWord) (s : State) : (outState s (execCcWb w s)).mem = s.mem := by
  unfold execCcWb
  try dsimp only
  apply ccWord_mem
  all_goals intros
  repeat' (first | (simp; done) | (refine (foldl_mem _ (fun s a => ?_) _ _).trans ?_))

@[simp] theorem execCcInv_mem (w : SWord) (s : State) : (outState s (execCcInv w s)).mem = s.mem := by
  unfold execCcInv
  try dsimp only
  apply ccWord_mem
  all_goals intros
  repeat' (first | (simp; done) | (refine (foldl_mem _ (fun s a => ?_) _ _).trans ?_))

@[simp] theorem execCcWays_mem (w : SWord) (s : State) : (outState s (execCcWays w s)).mem = s.mem := by
  unfold execCcWays
  refine runWord_mem _ _ _ _ _ (fun _ => ?_)
  dsimp only
  repeat' split
  all_goals simp

@[simp] theorem closeWindow_mem (s : State) (id : Nat) : (closeWindow s id).mem = s.mem := by
  unfold closeWindow
  repeat' split
  all_goals simp

@[simp] theorem enterWindow_mem (s : State) (g : Group) (rows : Nat) (p : Pass) : (enterWindow s g rows p).mem = s.mem := by
  unfold enterWindow
  dsimp only
  repeat' split
  all_goals simp

@[simp] theorem passWord_mem (i : Instr) (w : XWord) (mmaf : Bool) (s : State) : (outState s (passWord i w mmaf s)).mem = s.mem := by
  unfold passWord
  refine runWord_mem _ _ _ _ _ (fun _ => ?_)
  dsimp only
  repeat' split
  all_goals simp

@[simp] theorem execMxMma_mem (w : XWord) (s : State) : (outState s (execMxMma w s)).mem = s.mem := by
  simp [execMxMma]

@[simp] theorem execMxMmaf_mem (w : XWord) (s : State) : (outState s (execMxMmaf w s)).mem = s.mem := by
  simp [execMxMmaf]

@[simp] theorem settleTiles_mem (s : State) (gid : Nat) : (settleTiles s gid).mem = s.mem := by
  unfold settleTiles
  try dsimp only
  repeat' (first | (simp [apply_ite State.mem]; done) | split | (refine (foldl_mem _ (fun s a => ?_) _ _).trans ?_))

@[simp] theorem tileFault_mem (s : State) (f : Flight) (loc addr : Nat) : (tileFault s f loc addr).mem = s.mem := by
  simp [tileFault]

@[simp] theorem execFusionWindowTimeout_mem (id : Nat) (s : State) : (outState s (execFusionWindowTimeout id s)).mem = s.mem := by
  unfold execFusionWindowTimeout
  repeat' split
  all_goals simp

@[simp] theorem execMatrixPassStart_mem (id : Nat) (s : State) : (outState s (execMatrixPassStart id s)).mem = s.mem := by
  unfold execMatrixPassStart
  rw [outState_next]
  split
  · split
    · dsimp only
      split
      · rw [dropF_mem]
      · split
        · rfl
        · split
          · exact (foldl_mem _ (fun _ _ => tileFault_mem _ _ _ _) _ _).trans (dropF_mem s id)
          · split
            · rfl
            · rw [dropF_mem]
    · rfl
  · split
    · rw [dropF_mem]
    · rfl
  · rfl

@[simp] theorem execMatrixPassWriteback_mem (id : Nat) (s : State) : (outState s (execMatrixPassWriteback id s)).mem = s.mem := by
  unfold execMatrixPassWriteback
  repeat' split
  all_goals simp

@[simp] theorem execTileTransferComplete_mem (id : Nat) (s : State) : (outState s (execTileTransferComplete id s)).mem = s.mem := by
  unfold execTileTransferComplete
  dsimp only
  repeat' split
  all_goals simp

@[simp] theorem execMxZero_mem (w : XWord) (s : State) : (outState s (execMxZero w s)).mem = s.mem := by
  unfold execMxZero
  refine runWord_mem _ _ _ _ _ (fun _ => ?_)
  dsimp only
  repeat' split
  all_goals simp

@[simp] theorem xferWord_mem (i : Instr) (w : XWord) (store : Bool) (s : State) : (outState s (xferWord i w store s)).mem = s.mem := by
  unfold xferWord
  refine runWord_mem _ _ _ _ _ (fun _ => ?_)
  dsimp only
  repeat' split
  all_goals simp

@[simp] theorem execMxLd_mem (w : XWord) (s : State) : (outState s (execMxLd w s)).mem = s.mem := by
  simp [execMxLd]

@[simp] theorem execMxSt_mem (w : XWord) (s : State) : (outState s (execMxSt w s)).mem = s.mem := by
  simp [execMxSt]

@[simp] theorem execMxWait_mem (w : XWord) (s : State) : (outState s (execMxWait w s)).mem = s.mem := by
  unfold execMxWait
  refine runWord_mem _ _ _ _ _ (fun x => ?_)
  dsimp only
  split
  · rfl
  · exact waitTiles_getD_mem _ _ _ _ (fun _ => rfl)

@[simp] theorem execMxRel_mem (w : XWord) (s : State) : (outState s (execMxRel w s)).mem = s.mem := by
  unfold execMxRel
  exact runWord_mem _ _ _ _ _ (fun _ => by simp)

@[simp] theorem pontilFree_mem (s : State) (core part : Nat) : (pontilFree s core part).mem = s.mem := by
  simp [pontilFree]

@[simp] theorem execPlTake_mem (w : XWord) (s : State) : (outState s (execPlTake w s)).mem = s.mem := by
  unfold execPlTake
  refine runWord_mem _ _ _ _ _ (fun _ => ?_)
  dsimp only
  repeat' split
  all_goals simp

@[simp] theorem execPlPass_mem (w : XWord) (s : State) : (outState s (execPlPass w s)).mem = s.mem := by
  unfold execPlPass
  refine runWord_mem _ _ _ _ _ (fun _ => ?_)
  dsimp only
  repeat' split
  all_goals simp

@[simp] theorem execPlPassFree_mem (w : XWord) (s : State) : (outState s (execPlPassFree w s)).mem = s.mem := by
  unfold execPlPassFree
  exact runWord_mem _ _ _ _ _ (fun _ => by split <;> simp)

@[simp] theorem execSpOpen_mem (w : SWord) (s : State) : (outState s (execSpOpen w s)).mem = s.mem := by
  unfold execSpOpen
  refine runWord_mem _ _ _ _ _ (fun _ => ?_)
  dsimp only
  repeat' split
  all_goals simp

@[simp] theorem execSpKeep_mem (w : SWord) (s : State) : (outState s (execSpKeep w s)).mem = s.mem := by
  unfold execSpKeep
  exact runWord_mem _ _ _ _ _ (fun _ => by split <;> simp)

@[simp] theorem execSpDrop_mem (w : SWord) (s : State) : (outState s (execSpDrop w s)).mem = s.mem := by
  unfold execSpDrop
  exact runWord_mem _ _ _ _ _ (fun _ => by split <;> simp)

@[simp] theorem execFbSet_mem (w : SWord) (s : State) : (outState s (execFbSet w s)).mem = s.mem := by
  unfold execFbSet
  refine runWord_mem _ _ _ _ _ (fun x => ?_)
  dsimp only
  split
  · rw [resState_bad, clearWalks_mem]
  · rw [resState_park, startWalk_mem]
  · split
    · rfl
    · rw [resState_bad, clearWalks_mem]
    · have e := readNow_mem' (by assumption)
      split <;> simp [e]

@[simp] theorem tabWord_mem (i : Instr) (w : VWord) (set : Bool) (s : State) : (outState s (tabWord i w set s)).mem = s.mem := by
  unfold tabWord
  exact runWord_mem _ _ _ _ _ (fun _ => by simp)

@[simp] theorem execFbTab_mem (w : VWord) (s : State) : (outState s (execFbTab w s)).mem = s.mem := by
  simp [execFbTab]

@[simp] theorem execFbTabSet_mem (w : VWord) (s : State) : (outState s (execFbTabSet w s)).mem = s.mem := by
  simp [execFbTabSet]

@[simp] theorem answerStation_mem (s : State) (f : Flight) (r : StRes) : (answerStation s f r).mem = s.mem := by
  unfold answerStation
  split <;> simp

theorem endStation_wf (s : State) (f : Flight) (pa : Nat) (marked : Bool) (first : List (Nat × Byte)) (r : StRes) (h : Memory.wf s.mem = true) : Memory.wf (endStation s f pa marked first r).mem = true := by
  unfold endStation
  try dsimp only
  repeat' (first | (simp [*, apply_ite State.mem]; done) | apply engineWrite_wf | (simp [apply_ite State.mem]))

theorem stationPerform_wf (s : State) (f : Flight) (h : Memory.wf s.mem = true) : Memory.wf (stationPerform s f).mem = true := by
  unfold stationPerform
  split
  · split
    · exact h
    · split
      · rwa [answerStation_mem]
      · dsimp only
        split
        · exact endStation_wf _ _ _ _ _ _ (by rwa [engineRead_mem])
        · rw [putF_mem, addMarks_mem]
          exact engineWrite_wf _ _ _ _ (by rwa [engineRead_mem])
  · split
    · exact endStation_wf _ _ _ _ _ _ h
    · exact h
  · exact h

theorem stWord_mem (i : Instr) (w : SWord) (s : State) (rel : Bool) (kind : Issue → StKind) (fin : State → Issue → W64 → Res)
    (hf : ∀ s x v, (resState (fin s x v)).mem = s.mem) : (outState s (stWord i w s rel kind fin)).mem = s.mem := by
  unfold stWord
  refine runWord_mem _ _ _ _ _ (fun x => ?_)
  dsimp only
  repeat' (first | (simp [hf]; done) | split | (exact releaseIf_mem ‹_›))

@[simp] theorem teamOpened_mem (s : State) (tid pa : Nat) : (teamOpened s tid pa).mem = s.mem := by
  unfold teamOpened
  split
  · rfl
  · split
    · rfl
    · simp

@[simp] theorem openDone_mem (w : SWord) (s : State) (x : Issue) (v : W64) : (resState (openDone w s x v)).mem = s.mem := by
  unfold openDone
  split
  · rfl
  · rw [resState_ok, launchOp_mem, foldl_mem _ (fun s p => teamOpened_mem _ _ _), putG_mem]

@[simp] theorem execPaOpen_mem (w : SWord) (s : State) : (outState s (execPaOpen w s)).mem = s.mem := by
  unfold execPaOpen
  try dsimp only
  apply stWord_mem
  all_goals intros
  repeat' (simp; done)

@[simp] theorem execPaOpenRp_mem (w : SWord) (s : State) : (outState s (execPaOpenRp w s)).mem = s.mem := by
  unfold execPaOpenRp
  try dsimp only
  apply stWord_mem
  all_goals intros
  repeat' (simp; done)

@[simp] theorem execPaClose_mem (w : SWord) (s : State) : (outState s (execPaClose w s)).mem = s.mem := by
  unfold execPaClose
  try dsimp only
  apply stWord_mem
  all_goals intros
  repeat' (simp; done)

@[simp] theorem execWvCommit_mem (w : SWord) (s : State) : (outState s (execWvCommit w s)).mem = s.mem := by
  unfold execWvCommit
  try dsimp only
  apply stWord_mem
  all_goals intros
  repeat' (simp; done)

@[simp] theorem execAcGet_mem (w : SWord) (s : State) : (outState s (execAcGet w s)).mem = s.mem := by
  unfold execAcGet
  refine runWord_mem _ _ _ _ _ (fun _ => ?_)
  dsimp only
  repeat' split
  all_goals simp

@[simp] theorem execAcWait_mem (w : SWord) (s : State) : (outState s (execAcWait w s)).mem = s.mem := by
  unfold execAcWait
  refine runWord_mem _ _ _ _ _ (fun _ => ?_)
  dsimp only
  repeat' split
  all_goals simp

@[simp] theorem execEbSend_mem (w : SWord) (s : State) : (outState s (execEbSend w s)).mem = s.mem := by
  unfold execEbSend
  refine runWord_mem _ _ _ _ _ (fun x => ?_)
  dsimp only
  repeat' split
  all_goals first | rfl | exact releaseWait_mem' (by assumption) | simp

@[simp] theorem askWalk_mem (s : State) (f : Flight) (va n : Nat) : (askWalk s f va n).mem = s.mem := by
  unfold askWalk
  split <;> simp

@[simp] theorem sourceWait_mem (s : State) (f : Flight) (loc : Option Nat) (src n : Nat) : (sourceWait s f loc src n).mem = s.mem := by
  unfold sourceWait
  split <;> simp

@[simp] theorem addArrivals_mem (s : State) (word ctx wct : Nat) (e : ErrMsg) (data : List Byte) : (addArrivals s word ctx wct e data).mem = s.mem := by
  unfold addArrivals
  try dsimp only
  repeat' (first | (simp; done) | split | (refine (foldl_mem _ (fun s a => ?_) _ _).trans ?_))

@[simp] theorem groupless_mem (s : State) (ctx : Nat) (e : FInfo) : (groupless s ctx e).mem = s.mem := by
  simp [groupless]

@[simp] theorem sendEntries_mem (s : State) (f : Flight) (pass : Nat) (es : List (List Byte)) (data : List Byte) : (sendEntries s f pass es data).mem = s.mem := by
  unfold sendEntries
  try dsimp only
  repeat' (first | (simp [apply_ite State.mem]; done) | split | (refine (foldl_mem _ (fun s a => ?_) _ _).trans ?_))

@[simp] theorem dropArrival_mem (s : State) (f : Flight) (a : Arrival) (code : Nat) : (dropArrival s f a code).mem = s.mem := rfl

theorem advanceRcv_wf (s : State) (f : Flight) (a : Arrival) (pa : Nat) (hw : Memory.wf s.mem = true) : Memory.wf (advanceRcv s f a pa).mem = true := by
  unfold advanceRcv
  dsimp only
  split
  · exact hw
  · rw [progressed_mem]
    exact engineWrite_wf _ _ _ _ hw

theorem landArrival_wf (s : State) (f : Flight) (a : Arrival) (t : Team) (pa h : Nat) (hw : Memory.wf s.mem = true) : Memory.wf (landArrival s f a t pa h).mem = true := by
  unfold landArrival
  exact advanceRcv_wf _ _ _ _ (by simpa using hw)

theorem arrivalPerform_wf (s : State) (f : Flight) (a : Arrival) (h : Memory.wf s.mem = true) : Memory.wf (arrivalPerform s f a).mem = true := by
  unfold arrivalPerform
  try dsimp only
  repeat' (first | assumption | (simp [*, apply_ite State.mem]; done) | split | apply landArrival_wf | (refine foldl_wf _ (fun s a h => ?_) _ _ ?_) | (refine foldl_fst_wf _ (fun s a h => ?_) _ _ ?_) | (rename_i e; have e' := congrArg Prod.fst e; dsimp only at e'; subst e') | (rw [outState_next]) | (simp only [progressed_mem, putF_mem, dropF_mem, serviceRecord_mem]) | (simp [apply_ite State.mem]))

theorem execErrorArrival_wf (id : Nat) (s : State) (h : Memory.wf s.mem = true) : Memory.wf (outState s (execErrorArrival id s)).mem = true := by
  unfold execErrorArrival
  try dsimp only
  repeat' (first | (simp [*]; done) | split | apply arrivalPerform_wf)

theorem execStationOperation_wf (id : Nat) (s : State) (h : Memory.wf s.mem = true) : Memory.wf (outState s (execStationOperation id s)).mem = true := by
  unfold execStationOperation
  try dsimp only
  repeat' (first | (simp [*]; done) | split | apply stationPerform_wf | apply arrivalPerform_wf)

@[simp] theorem canePut_mem (s : State) (k v : Nat) : (canePut s k v).mem = s.mem := rfl

@[simp] theorem rowPut_mem (s : State) (k row w v : Nat) : (rowPut s k row w v).mem = s.mem := rfl

@[simp] theorem issueTower_mem (s : State) (x : Issue) (q : TwSel) (sh : Share) : (issueTower s x q sh).mem = s.mem := by
  unfold issueTower
  try dsimp only
  repeat' (first | (simp; done) | split | (refine (foldl_mem _ (fun s a => ?_) _ _).trans ?_))

@[simp] theorem xferT_mem (i : Instr) (w : TWord) (out : Bool) (s : State) : (outState s (xferT i w out s)).mem = s.mem := by
  unfold xferT
  refine runWord_mem _ _ _ _ _ (fun _ => ?_)
  repeat' split
  all_goals simp

@[simp] theorem execTwXin_mem (w : TWord) (s : State) : (outState s (execTwXin w s)).mem = s.mem := by
  simp [execTwXin]

@[simp] theorem execTwXout_mem (w : TWord) (s : State) : (outState s (execTwXout w s)).mem = s.mem := by
  simp [execTwXout]

theorem towerRead_mem {s t : State} {f : Flight} {hint : Nat} {pas : List Nat} {d : List Byte} (h : towerRead s f hint pas = some (.inr (t, d))) :
    t.mem = s.mem := by
  unfold towerRead at h
  repeat' split at h
  all_goals (cases h; try simp)

@[simp] theorem caneMend_mem (s : State) (canes : List Nat) (d : Nat × Nat) : (caneMend s canes d).mem = s.mem := rfl

@[simp] theorem checkShare_mem (s : State) (f : Flight) (sh : Share) (code addr : Nat) : (checkShare s f sh code addr).mem = s.mem := by
  simp [checkShare]

@[simp] theorem putBlock_mem (s : State) (canes : List Nat) (row : Nat) (b : Bfp) : (putBlock s canes row b).mem = s.mem := by
  unfold putBlock
  rw [foldl_mem]
  intro s p
  rw [rowPut_mem]

@[simp] theorem moveIn_mem (s : State) (sh : Share) (data : List Byte) : (moveIn s sh data).1.mem = s.mem := by
  unfold moveIn
  split
  · refine (foldl_fst_mem _ (fun a p => ?_) _ _).trans rfl
    simp
  · refine (foldl_mem _ (fun a p => ?_) _ _).trans rfl
    split <;> simp

@[simp] theorem wordStatus_mem (s : State) (gid word : Nat) (st : BitVec 2) : (wordStatus s gid word st).mem = s.mem := by
  unfold wordStatus
  dsimp only
  repeat' split
  all_goals simp

@[simp] theorem finishShare_mem (s : State) (f : Flight) (sh : Share) (st wct : Nat) : (finishShare s f sh st wct).mem = s.mem := by
  unfold finishShare
  dsimp only
  repeat' split
  all_goals simp

@[simp] theorem stopShare_mem (s : State) (f : Flight) (sh : Share) (e : FInfo) : (stopShare s f sh e).mem = s.mem := by
  unfold stopShare
  split <;> simp

@[simp] theorem shareIn_mem (s : State) (f : Flight) (sh : Share) : (shareIn s f sh).mem = s.mem := by
  unfold shareIn
  have h : ∀ (t : State) (d : List Byte), t.mem = s.mem → (match caneErrors t sh.canes [] (sh.row, sh.w) with
      | g :: _ => checkShare t f sh 8 (g / 16)
      | [] => finishShare (caneMend (moveIn t sh d).1 sh.canes (sh.row, sh.w)) f sh (moveIn t sh d).2 0).mem = s.mem := by
    intro t d e
    split <;> simp [e]
  dsimp only
  split
  · exact h _ _ rfl
  · split
    · simp
    · simp
    · split
      · rfl
      · simp
      · exact h _ _ (towerRead_mem (by assumption))

theorem shareOut_wf (s : State) (f : Flight) (sh : Share) (h : Memory.wf s.mem = true) : Memory.wf (shareOut s f sh).mem = true := by
  unfold shareOut
  try dsimp only
  repeat' (first | assumption | (simp [*, apply_ite State.mem]; done) | split | apply engineWrite_wf | (refine foldl_wf _ (fun s a h => ?_) _ _ ?_) | (refine foldl_fst_wf _ (fun s a h => ?_) _ _ ?_) | (rename_i e; have e' := congrArg Prod.fst e; dsimp only at e'; subst e') | (rw [outState_next]) | (simp only [progressed_mem, putF_mem, dropF_mem, serviceRecord_mem]) | (simp [apply_ite State.mem]))

theorem execTowerBlockComplete_wf (id : Nat) (s : State) (hw : Memory.wf s.mem = true) : Memory.wf (outState s (execTowerBlockComplete id s)).mem = true := by
  unfold execTowerBlockComplete
  rw [outState_next]
  split
  · split
    · split
      · exact hw
      · split
        · split
          · rwa [finishShare_mem]
          · exact hw
        · rwa [shareIn_mem]
        · exact shareOut_wf _ _ _ hw
    · exact hw
  · exact hw

@[simp] theorem execTwRun_mem (w : TWord) (s : State) : (outState s (execTwRun w s)).mem = s.mem := by
  unfold execTwRun
  refine runWord_mem _ _ _ _ _ (fun _ => ?_)
  dsimp only
  repeat' split
  all_goals simp

@[simp] theorem beginShare_mem (s : State) (f : Flight) (sh : Share) : (beginShare s f sh).mem = s.mem := by
  unfold beginShare
  split <;> simp

@[simp] theorem restartShare_mem (s : State) (g : Group) (b : Bool) (q : TowerRef) : (resState (restartShare s g b q)).mem = s.mem := by
  unfold restartShare
  dsimp only
  repeat' split
  all_goals simp

theorem towerReplay_mem {s : State} {g : Group} {b a : Bool} {r : Res} (h : towerReplay s g b a = some r) :
    (resState r).mem = s.mem := by
  unfold towerReplay at h
  repeat' split at h
  all_goals (first | cases h | skip)
  all_goals simp

theorem towerReplay_ok_mem {s t : State} {g : Group} {b a : Bool} (h : towerReplay s g b a = some (.ok t)) : t.mem = s.mem :=
  towerReplay_mem h

theorem towerReplay_bad_mem {s t : State} {g : Group} {b a : Bool} {i : FInfo} (h : towerReplay s g b a = some (.bad t i)) :
    t.mem = s.mem :=
  towerReplay_mem h

@[simp] theorem execTwWait_mem (w : TWord) (s : State) : (outState s (execTwWait w s)).mem = s.mem := by
  unfold execTwWait
  refine runWord_mem _ _ _ _ _ (fun x => ?_)
  dsimp only
  have hr (r : Res) (h : (if x.replay then towerReplay s x.g x.b false else none) = some r) : (resState r).mem = s.mem := by
    split at h
    · exact towerReplay_mem h
    · cases h
  split
  · repeat' split
    all_goals simp
  · rename_i h
    have e := hr _ h
    rw [resState_ok] at e
    repeat' split
    all_goals simpa using e
  · exact hr _ (by assumption)

@[simp] theorem execFarAdd_mem (w : VWord) (s : State) : (outState s (execFarAdd w s)).mem = s.mem := by
  unfold execFarAdd
  refine runWord_mem _ _ _ _ _ (fun x => ?_)
  repeat' (first | split | (refine (foldl_mem _ (fun s a => ?_) _ _).trans ?_) | (simp ))

@[simp] theorem execFarFence_mem (w : TWord) (s : State) : (outState s (execFarFence w s)).mem = s.mem := by
  unfold execFarFence
  refine runWord_mem _ _ _ _ _ (fun _ => ?_)
  repeat' split
  all_goals simp

theorem farEvent_mem (id : Nat) (s : State) (h : Flight → Lane → Bool → List Byte → Nat → Option FInfo → Bool → Bool → State)
    (hh : ∀ f l b v st c an ap, (h f l b v st c an ap).mem = s.mem) : (outState s (farEvent id s h)).mem = s.mem := by
  unfold farEvent
  repeat' split
  all_goals simp [hh]

theorem farEvent_wf (id : Nat) (s : State) (k : Flight → Lane → Bool → List Byte → Nat → Option FInfo → Bool → Bool → State)
    (hk : ∀ f l b v st c an ap, Memory.wf (k f l b v st c an ap).mem = true) (hw : Memory.wf s.mem = true) :
    Memory.wf (outState s (farEvent id s k)).mem = true := by
  unfold farEvent
  rw [outState_next]
  split
  · split
    · exact hk _ _ _ _ _ _ _ _
    · exact hw
  · exact hw

@[simp] theorem execFarAtomicAtHome_mem (id : Nat) (s : State) : (outState s (execFarAtomicAtHome id s)).mem = s.mem := by
  unfold execFarAtomicAtHome
  refine farEvent_mem _ _ _ (fun f l bfp v st c an ap => ?_)
  dsimp only
  split
  · rfl
  · rw [putF_mem, setHome_mem]
    split
    · rw [l2Evict_mem]
    · rfl

@[simp] theorem execFarAtomicTowerCheck_mem (id : Nat) (s : State) : (outState s (execFarAtomicTowerCheck id s)).mem = s.mem := by
  unfold execFarAtomicTowerCheck
  try dsimp only
  apply farEvent_mem
  all_goals intros
  repeat' (first | (simp [apply_ite State.mem]; done) | split)

@[simp] theorem execFarAtomicAnswer_mem (id : Nat) (s : State) : (outState s (execFarAtomicAnswer id s)).mem = s.mem := by
  unfold execFarAtomicAnswer
  refine farEvent_mem _ _ _ (fun f l bfp v st c an ap => ?_)
  dsimp only
  split
  · rfl
  · split
    · have hc : (match getG (completion s (l.pas.headD 0 / 1024)).1 f.gid with
          | some g => putG (completion s (l.pas.headD 0 / 1024)).1 { g with farTime := max g.farTime (completion s (l.pas.headD 0 / 1024)).2 }
          | none => (completion s (l.pas.headD 0 / 1024)).1).mem = s.mem := by
        split
        · rw [putG_mem, completion_mem]
        · rw [completion_mem]
      split
      · rw [dropF_mem]
        exact hc
      · rw [putF_mem]
        exact hc
    · split
      · rfl
      · rw [addDue_mem, dropF_mem, setHome_mem]

theorem execFarAtomicApply_wf (id : Nat) (s : State) (hw : Memory.wf s.mem = true) : Memory.wf (outState s (execFarAtomicApply id s)).mem = true := by
  unfold execFarAtomicApply
  refine farEvent_wf _ _ _ (fun f l b v st c an ap => ?_) hw
  dsimp only
  split
  · exact hw
  · split
    · simpa using hw
    · split <;> simp only [dropF_mem, putF_mem, setHome_mem] <;> split <;>
        first | (rwa [llcPut_mem]; done) | exact performWrite_wf _ _ _ (by rwa [llcPut_mem])

theorem runCane_mem (s : State) (bad : Bool) (cols : Share → List Nat) (srcs : List (Nat × Nat)) (d : Nat × Nat) (run : State → Flight → Share → CaneRes)
    (hr : ∀ f sh t u, run s f sh = .ok t u → t.mem = s.mem) : (outState s (runCane s bad cols srcs d run)).mem = s.mem := by
  unfold runCane
  split
  · split
    · split
      · rw [outState_next]
        split
        · rw [stopShare_mem]
        · dsimp only
          split
          · rw [stopShare_mem]
          · rw [flightWalk_mem]
          · rfl
          · rw [checkShare_mem]
          · have e := hr _ _ _ _ (by assumption)
            split <;> simp [e]
      · rfl
    · rfl
  · rfl

@[simp] theorem runNoCommand_mem (s : State) : (outState s (runNoCommand s)).mem = s.mem :=
  runCane_mem s true _ _ _ _ (fun _ _ _ _ h => by cases h; rfl)

theorem caneValue_mem {d dw : Nat} {f : Nat → Nat} {s t : State} {x : Flight} {sh u : Share} (h : caneValue d dw f s x sh = .ok t u) :
    t.mem = s.mem := by
  unfold caneValue at h
  cases h
  exact foldl_mem _ (fun s p => by split <;> simp) _ _

@[simp] theorem runValue_mem (c : CaneCmd) (im : Nat) (satOk mul cc extra : Bool) (d : Nat × Nat) (srcs : List (Nat × Nat)) (f : Nat → Nat) (s : State) :
    (outState s (runValue c im satOk mul cc extra d srcs f s)).mem = s.mem :=
  runCane_mem s _ _ _ _ _ (fun _ _ _ _ h => caneValue_mem h)

@[simp] theorem caneAB_mem (c : CaneCmd) (satOk : Bool) (f : Int → Int → Int) (s : State) : (outState s (caneAB c satOk f s)).mem = s.mem := by
  simp [caneAB]

@[simp] theorem execCaneVAdd_mem (c : CaneCmd) (s : State) : (outState s (execCaneVAdd c s)).mem = s.mem := by
  simp [execCaneVAdd]

@[simp] theorem execCaneVSub_mem (c : CaneCmd) (s : State) : (outState s (execCaneVSub c s)).mem = s.mem := by
  simp [execCaneVSub]

@[simp] theorem execCaneVMin_mem (c : CaneCmd) (s : State) : (outState s (execCaneVMin c s)).mem = s.mem := by
  simp [execCaneVMin]

@[simp] theorem execCaneVMax_mem (c : CaneCmd) (s : State) : (outState s (execCaneVMax c s)).mem = s.mem := by
  simp [execCaneVMax]

@[simp] theorem caneMul_mem (c : CaneCmd) (acc : Bool) (s : State) : (outState s (caneMul c acc s)).mem = s.mem := by
  unfold caneMul
  apply runCane_mem
  intro _ _ _ _ h
  exact caneValue_mem h

@[simp] theorem execCaneVMul_mem (c : CaneCmd) (s : State) : (outState s (execCaneVMul c s)).mem = s.mem := by
  simp [execCaneVMul]

@[simp] theorem execCaneVMad_mem (c : CaneCmd) (s : State) : (outState s (execCaneVMad c s)).mem = s.mem := by
  simp [execCaneVMad]

@[simp] theorem caneBits_mem (c : CaneCmd) (f : Nat → Nat → Nat) (s : State) : (outState s (caneBits c f s)).mem = s.mem := by
  simp [caneBits]

@[simp] theorem execCaneVAnd_mem (c : CaneCmd) (s : State) : (outState s (execCaneVAnd c s)).mem = s.mem := by
  simp [execCaneVAnd]

@[simp] theorem execCaneVOr_mem (c : CaneCmd) (s : State) : (outState s (execCaneVOr c s)).mem = s.mem := by
  simp [execCaneVOr]

@[simp] theorem execCaneVXor_mem (c : CaneCmd) (s : State) : (outState s (execCaneVXor c s)).mem = s.mem := by
  simp [execCaneVXor]

@[simp] theorem execCaneVAndn_mem (c : CaneCmd) (s : State) : (outState s (execCaneVAndn c s)).mem = s.mem := by
  simp [execCaneVAndn]

@[simp] theorem caneShift_mem (c : CaneCmd) (f : Nat → Nat → Nat) (s : State) : (outState s (caneShift c f s)).mem = s.mem := by
  simp [caneShift]

@[simp] theorem execCaneVShl_mem (c : CaneCmd) (s : State) : (outState s (execCaneVShl c s)).mem = s.mem := by
  simp [execCaneVShl]

@[simp] theorem execCaneVShr_mem (c : CaneCmd) (s : State) : (outState s (execCaneVShr c s)).mem = s.mem := by
  simp [execCaneVShr]

@[simp] theorem execCaneVSar_mem (c : CaneCmd) (s : State) : (outState s (execCaneVSar c s)).mem = s.mem := by
  simp [execCaneVSar]

@[simp] theorem execCaneVCmp_mem (c : CaneCmd) (s : State) : (outState s (execCaneVCmp c s)).mem = s.mem := by
  simp [execCaneVCmp]

@[simp] theorem execCaneVMov_mem (c : CaneCmd) (s : State) : (outState s (execCaneVMov c s)).mem = s.mem := by
  simp [execCaneVMov]

@[simp] theorem execCaneVLi_mem (c : CaneCmd) (s : State) : (outState s (execCaneVLi c s)).mem = s.mem := by
  simp [execCaneVLi]

@[simp] theorem caneStack_mem (c : CaneCmd) (ccOk aOk : Bool) (reads : List (Nat × Nat)) (bad : Nat → Bool)
    (f : Nat → Bool × List Bool → Bool × List Bool) (s : State) : (outState s (caneStack c ccOk aOk reads bad f s)).mem = s.mem :=
  runCane_mem s _ _ _ _ _ (fun _ _ _ _ h => by
    split at h
    · cases h
    · cases h
      rfl)

@[simp] theorem execCPush_mem (c : CaneCmd) (s : State) : (outState s (execCPush c s)).mem = s.mem := by
  simp [execCPush]

@[simp] theorem execCElse_mem (c : CaneCmd) (s : State) : (outState s (execCElse c s)).mem = s.mem := by
  simp [execCElse]

@[simp] theorem execCPop_mem (c : CaneCmd) (s : State) : (outState s (execCPop c s)).mem = s.mem := by
  simp [execCPop]

theorem bfaWrite_mem {c : CaneCmd} {s t : State} {sh u : Share} {m : List Byte} (h : bfaWrite c s sh m = .ok t u) : t.mem = s.mem := by
  unfold bfaWrite at h
  cases h
  exact foldl_fst_mem _ (fun a p => by simp) _ _

theorem bfaMemory_mem {c : CaneCmd} {s t : State} {f : Flight} {sh u : Share} (h : bfaMemory c s f sh = .ok t u) : t.mem = s.mem := by
  unfold bfaMemory at h
  dsimp only at h
  split at h
  · cases h
  · split at h
    · cases h
    · cases h
    · split at h
      · cases h
      · cases h
      · rename_i e
        exact (bfaWrite_mem h).trans (towerRead_mem e)

@[simp] theorem execCBfa_mem (c : CaneCmd) (s : State) : (outState s (execCBfa c s)).mem = s.mem := by
  unfold execCBfa
  apply runCane_mem
  intro _ _ _ _ h
  split at h
  · exact bfaMemory_mem h
  · exact bfaWrite_mem h

@[simp] theorem fireReady_mem (s : State) (ctx k : Nat) : (fireReady s ctx k).mem = s.mem := by
  unfold fireReady
  try dsimp only
  repeat' (first | (simp; done) | split | (refine (foldl_mem _ (fun s a => ?_) _ _).trans ?_))

@[simp] theorem counterSet_mem (s : State) (ctx k : Nat) (v : W64) : (counterSet s ctx k v).mem = s.mem := by
  unfold counterSet
  split <;> simp

@[simp] theorem counterAdd_mem (s : State) (ctx k : Nat) : (counterAdd s ctx k).mem = s.mem := by
  simp [counterAdd]

theorem netWord_mem (i : Instr) (w : NWord) (arm : Bool) (s : State) (f : State → Issue → Team → Xfer → Res)
    (hf : ∀ x t y, (resState (f s x t y)).mem = s.mem) : (outState s (netWord i w arm s f)).mem = s.mem := by
  unfold netWord
  refine runWord_mem _ _ _ _ _ (fun x => ?_)
  repeat' split
  all_goals simp [hf]

@[simp] theorem netDue_mem (s : State) (f : Flight) (cnt : Option Nat) (e : FInfo) : (netDue s f cnt e).mem = s.mem := by
  unfold netDue
  split
  · simp
  · split <;> simp

@[simp] theorem failXfer_mem (s : State) (f : Flight) (x : Xfer) (isGet : Bool) (off : Nat) (e : FInfo) : (failXfer s f x isGet off e).mem = s.mem := by
  unfold failXfer
  dsimp only
  repeat' split
  all_goals simp

@[simp] theorem loseXfer_mem (s : State) (f : Flight) (x : Xfer) (isGet : Bool) : (loseXfer s f x isGet).mem = s.mem := by
  simp [loseXfer]

@[simp] theorem failLost_mem (s : State) (job : Nat) : (failLost s job).mem = s.mem := by
  unfold failLost
  try dsimp only
  repeat' (first | (simp [apply_ite State.mem]; done) | split | (refine (foldl_mem _ (fun s a => ?_) _ _).trans ?_) | (rename_i h; have e := congrArg (fun p => p.1.mem) h; simp at e; simp [← e]; done) | (simp [apply_ite State.mem]))

@[simp] theorem issueXfer_mem (s : State) (x : Issue) (y : Xfer) (isGet : Bool) : (issueXfer s x y isGet).mem = s.mem := by
  unfold issueXfer
  dsimp only
  repeat' split
  all_goals simp

@[simp] theorem execNetSend_mem (w : NWord) (s : State) : (outState s (execNetSend w s)).mem = s.mem := by
  unfold execNetSend
  try dsimp only
  apply netWord_mem
  all_goals intros
  repeat' (simp; done)

@[simp] theorem execNetGet_mem (w : NWord) (s : State) : (outState s (execNetGet w s)).mem = s.mem := by
  unfold execNetGet
  try dsimp only
  apply netWord_mem
  all_goals intros
  repeat' (first | (simp [apply_ite State.mem]; done) | split)

@[simp] theorem sendGet_mem (s : State) (f : Flight) (x : Xfer) : (sendGet s f x).mem = s.mem := by
  unfold sendGet
  repeat' split
  all_goals simp

@[simp] theorem execNetArm_mem (w : NWord) (s : State) : (outState s (execNetArm w s)).mem = s.mem := by
  unfold execNetArm
  try dsimp only
  apply netWord_mem
  all_goals intros
  repeat' (first | (simp; done) | split)

@[simp] theorem execCntInit_mem (w : NWord) (s : State) : (outState s (execCntInit w s)).mem = s.mem := by
  unfold execCntInit
  exact runWord_mem _ _ _ _ _ (fun _ => by simp)

@[simp] theorem execCntWait_mem (w : NWord) (s : State) : (outState s (execCntWait w s)).mem = s.mem := by
  unfold execCntWait
  refine runWord_mem _ _ _ _ _ (fun x => ?_)
  split
  · simp
  · split <;> rfl

@[simp] theorem execCntGet_mem (w : NWord) (s : State) : (outState s (execCntGet w s)).mem = s.mem := by
  unfold execCntGet
  exact runWord_mem _ _ _ _ _ (fun _ => by simp)

@[simp] theorem takeOut_mem (s : State) (m : Out) : (takeOut s m).mem = s.mem := rfl

@[simp] theorem execDestinationUnreachable_mem (id : Nat) (failed : Option Nat) (s : State) : (outState s (execDestinationUnreachable id failed s)).mem = s.mem := by
  unfold execDestinationUnreachable
  dsimp only
  repeat' split
  all_goals simp

@[simp] theorem fireChunk_mem (s : State) (gid core : Nat) (t : Team) (retire : Bool) : (fireChunk s gid core t retire).mem = s.mem := by
  unfold fireChunk
  repeat' split
  all_goals simp

@[simp] theorem chunkFault_mem (s : State) (t : Team) (e : FInfo) : (chunkFault s t e).mem = s.mem := by
  unfold chunkFault
  split <;> simp

@[simp] theorem abortChunk_mem (s : State) (t : Team) (k status : Nat) : (abortChunk s t k status).mem = s.mem := by
  unfold abortChunk
  split <;> simp

@[simp] theorem sendChunk_mem (s : State) (f : Flight) (t : Team) : (sendChunk s f t).mem = s.mem := by
  unfold sendChunk
  dsimp only
  repeat' split
  all_goals simp

@[simp] theorem execCollStep_mem (w : NWord) (s : State) : (outState s (execCollStep w s)).mem = s.mem := by
  unfold execCollStep
  refine runWord_mem _ _ _ _ _ (fun _ => ?_)
  dsimp only
  repeat' split
  all_goals simp

@[simp] theorem execCollChunkFireAtRetire_mem (tid : Nat) (s : State) : (outState s (execCollChunkFireAtRetire tid s)).mem = s.mem := by
  unfold execCollChunkFireAtRetire
  dsimp only
  repeat' split
  all_goals simp

@[simp] theorem ctxCheck_mem (s : State) (ctx code addr eng : Nat) : (ctxCheck s ctx code addr eng).mem = s.mem := by
  simp [ctxCheck]

theorem receiveUnits_wf (s : State) (ctx eng va : Nat) (data : List Byte) (h : Memory.wf s.mem = true) : Memory.wf (receiveUnits s ctx eng va data).1.mem = true := by
  unfold receiveUnits
  try dsimp only
  repeat' (first | (simp [*]; done) | split | apply engineWrite_wf | (refine foldl_fst_wf _ (fun s a h => ?_) _ _ ?_))

theorem receiveUnits_wf' {s t : State} {ctx eng va : Nat} {data : List Byte} {r : Nat × Option (Nat × FInfo)}
    (e : receiveUnits s ctx eng va data = (t, r)) (h : Memory.wf s.mem = true) : Memory.wf t.mem = true := by
  have := receiveUnits_wf s ctx eng va data h
  rwa [e] at this

theorem execCollResultLand_wf (tid : Nat) (msg : List Byte) (s : State) (hw : Memory.wf s.mem = true) :
    Memory.wf (outState s (execCollResultLand tid msg s)).mem = true := by
  unfold execCollResultLand
  rw [outState_next]
  split
  · exact hw
  · split
    · exact hw
    · dsimp only
      split
      · exact hw
      · split
        · rwa [ctxCheck_mem]
        · repeat' split
          all_goals simp only [chunkFault_mem, launchOp_mem, putT_mem]
          all_goals exact receiveUnits_wf' (by assumption) hw

@[simp] theorem abortUnplaced_mem (s : State) (msg : List Byte) : (abortUnplaced s msg).mem = s.mem := by
  unfold abortUnplaced
  dsimp only
  repeat' split
  all_goals simp

@[simp] theorem execCollAbortReceive_mem (tid : Nat) (msg : List Byte) (s : State) : (outState s (execCollAbortReceive tid msg s)).mem = s.mem := by
  unfold execCollAbortReceive
  dsimp only
  repeat' split
  all_goals simp

@[simp] theorem execRemoteSendSourceRelease_mem (id : Nat) (s : State) : (outState s (execRemoteSendSourceRelease id s)).mem = s.mem := by
  unfold execRemoteSendSourceRelease
  rw [outState_next]
  repeat' split
  all_goals (try dsimp only)
  all_goals (repeat' split)
  all_goals simp

@[simp] theorem refuseRemote_mem (s : State) (ctx src tag va off : Nat) : (refuseRemote s ctx src tag va off).mem = s.mem := rfl

@[simp] theorem ackXfer_mem (s : State) (m : NetMsg) (n : Nat) : (ackXfer s m n).mem = s.mem := by
  unfold ackXfer
  repeat' split
  all_goals simp

theorem execNetReceive_wf (m : NetMsg) (s : State) (hw : Memory.wf s.mem = true) : Memory.wf (outState s (execNetReceive m s)).mem = true := by
  unfold execNetReceive
  rw [outState_next]
  dsimp only
  split
  · exact hw
  · split
    · rwa [ackXfer_mem]
    · have h1 : Memory.wf (if jobSelf s m.job = some m.src then takeOut s (.data m.src m) else s).mem = true := by
        split
        · rwa [takeOut_mem]
        · exact hw
      simp only [decide_eq_true_eq]
      generalize (if jobSelf s m.job = some m.src then takeOut s (.data m.src m) else s) = s1 at h1
      split
      · rwa [refuseRemote_mem]
      · rename_i c _
        split
        · rwa [addArrivals_mem]
        · split
          · exact hw
          · split
            · rwa [ctxCheck_mem]
            · have hr := receiveUnits_wf s1 c.ctx 4 m.va m.data h1
              split
              · rename_i e
                rw [e] at hr
                rwa [refuseRemote_mem]
              · rename_i e
                rw [e] at hr
                rw [launchOp_mem]
                split
                · rwa [dropF_mem]
                · exact hr

@[simp] theorem receiveDone_mem (s : State) (f : Flight) : (receiveDone s f).mem = s.mem := by
  unfold receiveDone
  repeat' split
  all_goals simp

@[simp] theorem execReceiveCounterIncrement_mem (id : Nat) (s : State) : (outState s (execReceiveCounterIncrement id s)).mem = s.mem := by
  unfold execReceiveCounterIncrement
  split <;> simp

@[simp] theorem execRemoteGetRequest_mem (m : GetReq) (s : State) : (outState s (execRemoteGetRequest m s)).mem = s.mem := by
  unfold execRemoteGetRequest
  dsimp only
  repeat' split
  all_goals simp

theorem landGet_wf (s : State) (f : Flight) (x : Xfer) (data : List Byte) (short : Bool) (hw : Memory.wf s.mem = true) :
    Memory.wf (landGet s f x data short).mem = true := by
  unfold landGet
  dsimp only
  split
  · split
    · simpa using hw
    · repeat' split
      all_goals simpa using hw
  · have hr := receiveUnits_wf s f.ctx 4 (x.addr + x.acked) data hw
    split
    all_goals (rename_i e; rw [e] at hr)
    · simpa using hr
    · repeat' split
      all_goals simpa using hr

theorem execNetGetLand_wf (id : Nat) (data : List Byte) (s : State) (h : Memory.wf s.mem = true) : Memory.wf (outState s (execNetGetLand id data s)).mem = true := by
  unfold execNetGetLand
  rw [outState_next]
  repeat' split
  all_goals try dsimp only
  all_goals repeat' split
  all_goals first
    | exact h
    | (rw [machineCheck_mem]; exact h)
    | (refine landGet_wf _ _ _ _ _ ?_; first | exact h | (split <;> first | (rwa [takeOut_mem]) | exact h))

@[simp] theorem addTask_mem (s : State) (g : Group) (entry counter serial : Nat) (rec : List Byte) : (addTask s g entry counter serial rec).mem = s.mem := by
  unfold addTask
  dsimp only
  repeat' split
  all_goals simp

theorem spawnRead_mem {s t : State} {g : Group} {l : List Lane} {r : List (Lane × List Byte)} (h : spawnRead s g l = some (.inr (t, r))) :
    t.mem = s.mem := by
  induction l generalizing s t r with
  | nil => cases h; rfl
  | cons a l ih =>
    unfold spawnRead at h
    split at h
    · cases h
    · cases h
    · rename_i e
      obtain ⟨q, hu, hp⟩ := Option.map_eq_some_iff.mp h
      cases q with
      | inl _ => cases hp
      | inr p =>
        cases hp
        exact (ih hu).trans (readNow_mem' e)

@[simp] theorem execSpawn_mem (w : VWord) (s : State) : (outState s (execSpawn w s)).mem = s.mem := by
  unfold execSpawn
  refine runWord_mem _ _ _ _ _ (fun x => ?_)
  dsimp only
  have hl (k n : Nat) (l : List (Lane × List Byte)) (t : State) :
      (l.foldl (fun s p => addTask s x.g (rv x.g w.a.toNat p.1.lane).toNat k n p.2) t).mem = t.mem := foldl_mem _ (fun _ _ => by simp) _ _
  repeat' split
  all_goals (first | rfl | (simp; done) | (have e := spawnRead_mem (by assumption); simpa [hl] using e))

@[simp] theorem enqueue_mem (s : State) (ctx q va : Nat) (rec : List Byte) : (enqueue s ctx q va rec).1.mem = s.mem := by
  unfold enqueue
  dsimp only
  repeat' split
  all_goals simp

@[simp] theorem execLaunch_mem (w : SWord) (s : State) : (outState s (execLaunch w s)).mem = s.mem := by
  unfold execLaunch
  refine runWord_mem _ _ _ _ _ (fun x => ?_)
  dsimp only
  split
  · simp
  · split
    · simp
    · split
      · simp
      · simp
      · split
        · exact releaseWait_mem' (by assumption)
        · split
          · rfl
          · rfl
          · rw [resState_ok, clearWalks_mem, launchOp_mem, enqueue_mem]
            exact readNow_mem' (by assumption)

@[simp] theorem dispCheck_mem (s : State) (ctx addr code : Nat) : (dispCheck s ctx addr code).mem = s.mem := by
  simp [dispCheck]

theorem dispWalk_mem {s t : State} {ctx : Nat} {l : List Nat} (h : dispWalk s ctx l = some t) : t.mem = s.mem := by
  unfold dispWalk at h
  split at h
  · cases h; rfl
  · obtain ⟨p, -, rfl⟩ := Option.map_eq_some_iff.mp h
    simp

@[simp] theorem popQueue_mem (s : State) (ctx q : Nat) : (popQueue s ctx q).mem = s.mem := by
  unfold popQueue
  split <;> simp

@[simp] theorem dropRecord_mem (s : State) (ctx q va code index : Nat) : (dropRecord s ctx q va code index).mem = s.mem := by
  simp [dropRecord]

@[simp] theorem execLaunchRecordCheck_mem (ctx q : Nat) (s : State) : (outState s (execLaunchRecordCheck ctx q s)).mem = s.mem := by
  unfold execLaunchRecordCheck
  rw [outState_next]
  repeat' split
  all_goals first | (rename_i h; exact dispWalk_mem h) | simp

theorem readColl_mem {s t : State} {ctx a : Nat} {o : Option Coll} (h : readColl s ctx a = some (t, o)) : t.mem = s.mem := by
  unfold readColl at h
  dsimp only at h
  repeat' split at h
  all_goals (cases h; try simp)

@[simp] theorem execGridStart_mem (ctx q : Nat) (s : State) : (outState s (execGridStart ctx q s)).mem = s.mem := by
  unfold execGridStart
  rw [outState_next]
  split
  · dsimp only
    split
    · rfl
    · split
      · exact dispWalk_mem (by assumption)
      · split
        · simp
        · split
          · rfl
          · split
            · simp
            · split
              · rfl
              · split
                · rfl
                · have e := readColl_mem (by assumption)
                  split <;> simp [e]
  · rfl

@[simp] theorem residentNow_mem (s : State) (ctx : Nat) : (residentNow s ctx).mem = s.mem := by
  unfold residentNow
  split <;> simp

@[simp] theorem placeTeam_mem (g : Grid) (r : LRec) (cl : Nat) (s : State) (p : Nat × Nat × List Nat) : (placeTeam g r cl s p).mem = s.mem := by
  unfold placeTeam
  exact foldl_mem _ (fun _ _ => by simp) _ _

@[simp] theorem placeCluster_mem (s : State) (g : Grid) (die : Nat) (l : List (Nat × List Nat)) : (placeCluster s g die l).mem = s.mem := by
  unfold placeCluster
  dsimp only
  rw [foldl_mem _ (fun s p => by simp)]
  simp

@[simp] theorem execClusterPlacement_mem (pick : Nat) (s : State) : (outState s (execClusterPlacement pick s)).mem = s.mem := by
  unfold execClusterPlacement
  dsimp only
  repeat' split
  all_goals simp

@[simp] theorem formGroup_mem (s : State) (g : Grid) (core : Nat) (l : List Task) : (formGroup s g core l).mem = s.mem := rfl

@[simp] theorem execTaskGroupFormation_mem (ctx grid core : Nat) (s : State) : (outState s (execTaskGroupFormation ctx grid core s)).mem = s.mem := by
  unfold execTaskGroupFormation
  dsimp only
  repeat' split
  all_goals simp

@[simp] theorem execGatherWindowExpiry_mem (ctx grid core : Nat) (s : State) : (outState s (execGatherWindowExpiry ctx grid core s)).mem = s.mem := by
  unfold execGatherWindowExpiry
  repeat' split
  all_goals simp

@[simp] theorem placeTasks_mem (s : State) (f : Formed) (g : Grid) (part : Nat) : (placeTasks s f g part).mem = s.mem := by
  unfold placeTasks
  dsimp only
  simp only [putT_mem]
  split <;> simp

@[simp] theorem execTaskGroupPlacement_mem (core pick : Nat) (s : State) : (outState s (execTaskGroupPlacement core pick s)).mem = s.mem := by
  unfold execTaskGroupPlacement
  dsimp only
  repeat' split
  all_goals simp

@[simp] theorem barriersLose_mem (s : State) (g : Group) : (barriersLose s g).mem = s.mem := by
  unfold barriersLose
  dsimp only
  repeat' split
  all_goals simp

@[simp] theorem reportDues_mem (s : State) (g : Group) : (reportDues s g).mem = s.mem := by
  unfold reportDues
  try dsimp only
  repeat' (first | (simp; done) | split | (refine (foldl_mem _ (fun s a => ?_) _ _).trans ?_))

@[simp] theorem reportAbort_mem (s : State) (g : Group) : (reportAbort s g).mem = s.mem := by
  unfold reportAbort
  repeat' split
  all_goals simp

@[simp] theorem sweep_mem (s : State) : (sweep s).mem = s.mem := rfl

@[simp] theorem endTeam_mem (s : State) (tid : Nat) : (endTeam s tid).mem = s.mem := by
  unfold endTeam
  dsimp only
  repeat' split
  all_goals simp

@[simp] theorem execTaskSteal_mem (ctx core : Nat) (s : State) : (outState s (execTaskSteal ctx core s)).mem = s.mem := by
  unfold execTaskSteal
  rw [outState_next]
  dsimp only
  split
  · rfl
  · split
    · rfl
    · rw [sweep_mem]
      exact foldl_mem _ (fun s t => endTeam_mem _ _) _ _

@[simp] theorem unpin_mem (s : State) (ctx core : Nat) : (unpin s ctx core).mem = s.mem := by
  unfold unpin
  split <;> simp

@[simp] theorem retireGroup_mem (s : State) (g : Group) : (retireGroup s g).mem = s.mem := by
  unfold retireGroup
  dsimp only
  repeat' split
  all_goals simp

@[simp] theorem execGroupRetire_mem (gid : Nat) (s : State) : (outState s (execGroupRetire gid s)).mem = s.mem := by
  unfold execGroupRetire
  repeat' split
  all_goals simp

@[simp] theorem execRegroupPair_mem (gid hid : Nat) (s : State) : (outState s (execRegroupPair gid hid s)).mem = s.mem := by
  unfold execRegroupPair
  repeat' split
  all_goals simp

theorem counterAtomic_wf (s : State) (ctx pa n : Nat) (h : Memory.wf s.mem = true) : Memory.wf (counterAtomic s ctx pa n).1.mem = true := by
  unfold counterAtomic
  split
  · rwa [dispCheck_mem]
  · exact engineWrite_wf _ _ _ _ h

theorem counterOp_wf (s : State) (ctx a n : Nat) (fail : State → State) (hf : Memory.wf (fail s).mem = true) (h : Memory.wf s.mem = true) :
    Memory.wf (counterOp s ctx a n fail).1.mem = true := by
  unfold counterOp
  split
  · simpa using h
  · split
    · exact counterAtomic_wf _ _ _ _ h
    · exact hf

theorem execTaskCounterAdd_wf (id : Nat) (s : State) (h : Memory.wf s.mem = true) : Memory.wf (outState s (execTaskCounterAdd id s)).mem = true := by
  unfold execTaskCounterAdd
  try dsimp only
  repeat' (first | assumption | (simp [*, apply_ite State.mem]; done) | split | apply counterOp_wf | (refine foldl_wf _ (fun s a h => ?_) _ _ ?_) | (refine foldl_fst_wf _ (fun s a h => ?_) _ _ ?_) | (rename_i e; have e' := congrArg Prod.fst e; dsimp only at e'; subst e') | (rw [outState_next]) | (simp only [progressed_mem, putF_mem, dropF_mem, serviceRecord_mem]) | (simp [apply_ite State.mem]))

theorem execGridDoneAdd_wf (ctx grid : Nat) (s : State) (h : Memory.wf s.mem = true) : Memory.wf (outState s (execGridDoneAdd ctx grid s)).mem = true := by
  unfold execGridDoneAdd
  try dsimp only
  repeat' (first | assumption | (simp [*, apply_ite State.mem]; done) | split | apply counterOp_wf | (refine foldl_wf _ (fun s a h => ?_) _ _ ?_) | (refine foldl_fst_wf _ (fun s a h => ?_) _ _ ?_) | (rename_i e; have e' := congrArg Prod.fst e; dsimp only at e'; subst e') | (rw [outState_next]) | (simp only [progressed_mem, putF_mem, dropF_mem, serviceRecord_mem]) | (simp [apply_ite State.mem]))

@[simp] theorem startSlot_mem (s : State) (c : Group × Bool) : (startSlot s c).mem = s.mem := by
  unfold startSlot
  dsimp only
  repeat' split
  all_goals simp

@[simp] theorem passOver_mem (s : State) (c : Group × Bool) : (passOver s c).mem = s.mem := by
  unfold passOver
  split <;> simp

@[simp] theorem unyield_mem (s : State) (g : Group) (l : List (Group × Bool)) : (unyield s g l).mem = s.mem := by
  unfold unyield
  try dsimp only
  repeat' (first | (simp; done) | split | (refine (foldl_mem _ (fun s a => ?_) _ _).trans ?_))

@[simp] theorem raiseHere_mem (s : State) (g : Group) (b : Bool) (f : FInfo) : (raiseHere s g b f).mem = s.mem := by
  unfold raiseHere
  dsimp only
  repeat' split
  all_goals simp

@[simp] theorem pickSlot_mem (s : State) (g : Group) (b : Bool) (l : List (Group × Bool)) : (pickSlot s g b l).mem = s.mem := by
  unfold pickSlot
  split
  · exact towerReplay_ok_mem (by assumption)
  · split
    · rw [raiseHere_mem]
      exact towerReplay_bad_mem (by assumption)
    · exact towerReplay_bad_mem (by assumption)
  · rfl
  · split
    · simp
    · dsimp only
      rw [putPart_mem]
      have hs (l : List (Group × Bool)) (t : State) : (l.foldl startSlot t).mem = t.mem := foldl_mem _ (fun _ _ => by simp) _ _
      have hp (l : List (Group × Bool)) (t : State) : (l.foldl passOver t).mem = t.mem := foldl_mem _ (fun _ _ => by simp) _ _
      split <;> simp [hs, hp]

@[simp] theorem execCandidatePick_mem (core part : Nat) (s : State) : (outState s (execCandidatePick core part s)).mem = s.mem := by
  unfold execCandidatePick
  dsimp only
  repeat' split
  all_goals simp

@[simp] theorem execIcacheFill_mem (gid : Nat) (slotB : Bool) (s : State) : (outState s (execIcacheFill gid slotB s)).mem = s.mem := by
  unfold execIcacheFill
  dsimp only
  repeat' split
  all_goals simp

@[simp] theorem onSlot_mem (s : State) (gid : Nat) (b : Bool) (f : Slot → Slot) : (onSlot s gid b f).mem = s.mem := by
  unfold onSlot
  split <;> simp

@[simp] theorem execSpinFloorTimeout_mem (gid : Nat) (slotB : Bool) (s : State) : (outState s (execSpinFloorTimeout gid slotB s)).mem = s.mem := by
  simp [execSpinFloorTimeout]

@[simp] theorem execNapTimeout_mem (gid : Nat) (slotB : Bool) (s : State) : (outState s (execNapTimeout gid slotB s)).mem = s.mem := by
  simp [execNapTimeout]

@[simp] theorem execServiceEventSignal_mem (gid : Nat) (s : State) : (outState s (execServiceEventSignal gid s)).mem = s.mem := by
  simp [execServiceEventSignal]

@[simp] theorem correct_mem (s : State) (k : Nat) (u : Option CulletUnit) : (correct s k u).mem = s.mem := by
  unfold correct
  dsimp only
  repeat' split
  all_goals simp

@[simp] theorem execL2Fill_mem (id : Nat) (bad : Bool) (s : State) : (outState s (execL2Fill id bad s)).mem = s.mem := by
  unfold execL2Fill
  try dsimp only
  repeat' (first | (simp [apply_ite State.mem]; done) | split | (refine (foldl_mem _ (fun s a => ?_) _ _).trans ?_))

@[simp] theorem loadL1_mem (s : State) (f : Flight) (lanes : List Lane) (hint : Nat) (replaced : Bool) (k : Nat) : (loadL1 s f lanes hint replaced k).mem = s.mem := by
  unfold loadL1
  dsimp only
  split <;> simp

@[simp] theorem finishRegs_mem (s : State) (f : Flight) (regs : List (Nat × W64)) : (finishRegs s f regs).mem = s.mem := by
  unfold finishRegs
  dsimp only
  repeat' split
  all_goals simp

@[simp] theorem freeRegs_mem (s : State) (keys : List Nat) : (freeRegs s keys).1.mem = s.mem :=
  foldl_fst_mem _ (fun _ _ => by simp) _ _

@[simp] theorem remoteLoadServe_mem (s : State) (f : Flight) (team : Nat) (lanes : List Lane) (dst z : Nat) : (remoteLoadServe s f team lanes dst z).mem = s.mem := by
  unfold remoteLoadServe
  dsimp only
  repeat' split
  all_goals simp

@[simp] theorem loadFills_mem (s : State) (f : Flight) (lanes : List Lane) (hint : Nat) (replaced : Bool) (pas : List Nat) : (loadFills s f lanes hint replaced pas).mem = s.mem := by
  unfold loadFills
  try dsimp only
  repeat' (first | (simp [apply_ite State.mem]; done) | split | (refine (foldl_mem _ (fun s a => ?_) _ _).trans ?_) | (rename_i h; have e := congrArg (fun p => p.1.mem) h; simp at e; simp [← e]; done) | (simp [apply_ite State.mem]))

@[simp] theorem looseLoad_mem (s : State) (f : Flight) (l : Lane) (dst : Nat) (pair : Bool) (hint : Nat) (own : List (Nat × Byte × Nat)) (replaced : Bool) : (looseLoad s f l dst pair hint own replaced).mem = s.mem := by
  unfold looseLoad
  dsimp only
  repeat' split
  all_goals simp

@[simp] theorem execLoadResultWrite_mem (id : Nat) (replaced : Bool) (s : State) : (outState s (execLoadResultWrite id replaced s)).mem = s.mem := by
  unfold execLoadResultWrite
  dsimp only
  repeat' split
  all_goals simp

@[simp] theorem execWcbTimeout_mem (id : Nat) (s : State) : (outState s (execWcbTimeout id s)).mem = s.mem := by
  unfold execWcbTimeout
  repeat' split
  all_goals simp

@[simp] theorem l1Perform_mem (s : State) (core : Nat) (bytes : List (Nat × Byte)) : (l1Perform s core bytes).mem = s.mem := rfl

theorem homeStore_wf (s : State) (f : Flight) (hint : Nat) (bytes : List (Nat × Byte)) (h : Memory.wf s.mem = true) :
    Memory.wf (homeStore s f hint bytes).mem = true := by
  unfold homeStore
  simp only [feedStore_mem, completion_mem, homeStoreTags_mem, l1Perform_mem]
  exact performBy_wf _ _ _ _ h

theorem execHomeStorePerform_wf (id : Nat) (s : State) (h : Memory.wf s.mem = true) : Memory.wf (outState s (execHomeStorePerform id s)).mem = true := by
  unfold execHomeStorePerform
  rw [outState_next]
  split
  · exact h
  · split
    · dsimp only
      split
      · exact h
      · split
        · rw [settleArrivals_mem]
          exact homeStore_wf _ _ _ _ (by rwa [dropF_mem])
        · exact homeStore_wf _ _ _ _ (by simpa using h)
    · exact h

@[simp] theorem execRemoteStoreAck_mem (id : Nat) (s : State) : (outState s (execRemoteStoreAck id s)).mem = s.mem := by
  unfold execRemoteStoreAck
  repeat' split
  all_goals simp

@[simp] theorem dropCopies_mem (s : State) (core : Nat) (p : Nat → Bool) : (dropCopies s core p).mem = s.mem := by
  unfold dropCopies
  dsimp only
  rw [foldl_mem _ (fun s l => by split <;> simp)]

@[simp] theorem execL1RecallReceive_mem (id : Nat) (s : State) : (outState s (execL1RecallReceive id s)).mem = s.mem := by
  unfold execL1RecallReceive
  repeat' split
  all_goals simp

@[simp] theorem execRecallBeat_mem (die : Nat) (s : State) : (outState s (execRecallBeat die s)).mem = s.mem := by
  unfold execRecallBeat
  split <;> simp

@[simp] theorem goBlind_mem (s : State) (core die : Nat) : (goBlind s core die).mem = s.mem := by
  simp only [goBlind, dropCopies_mem, correct_mem]

@[simp] theorem execBeatReceive_mem (core die : Nat) (s : State) : (outState s (execBeatReceive core die s)).mem = s.mem := by
  unfold execBeatReceive
  dsimp only
  repeat' split
  all_goals simp

@[simp] theorem execBeatTimeout_mem (core die : Nat) (s : State) : (outState s (execBeatTimeout core die s)).mem = s.mem := by
  unfold execBeatTimeout
  dsimp only
  repeat' split
  all_goals simp

@[simp] theorem execTowerWriteAck_mem (id : Nat) (s : State) : (outState s (execTowerWriteAck id s)).mem = s.mem := by
  unfold execTowerWriteAck
  repeat' split
  all_goals simp

@[simp] theorem execCxlWriteAck_mem (id : Nat) (s : State) : (outState s (execCxlWriteAck id s)).mem = s.mem := by
  unfold execCxlWriteAck
  repeat' split
  all_goals simp

@[simp] theorem walkFound_mem (unit : Nat) (t : Tlb) (s : State) (who : Nat × Bool) : (walkFound unit t s who).mem = s.mem := by
  unfold walkFound
  repeat' split
  all_goals simp

@[simp] theorem walkFailed_mem (page code index : Nat) (s : State) (who : Nat × Bool) : (walkFailed page code index s who).mem = s.mem := by
  unfold walkFailed
  repeat' split
  all_goals simp

@[simp] theorem walkCheck_mem (ctx code addr : Nat) (s : State) (who : Nat × Bool) : (walkCheck ctx code addr s who).mem = s.mem := by
  unfold walkCheck
  repeat' split
  all_goals simp

@[simp] theorem execPageWalkComplete_mem (id : Nat) (s : State) : (outState s (execPageWalkComplete id s)).mem = s.mem := by
  unfold execPageWalkComplete
  try dsimp only
  repeat' (first | (simp [apply_ite State.mem]; done) | split | (refine (foldl_mem _ (fun s a => ?_) _ _).trans ?_) | (rename_i h; have e := congrArg (fun p => p.1.mem) h; simp at e; simp [← e]; done) | (simp [apply_ite State.mem]))

@[simp] theorem execAccessTableInvalidationDone_mem (s : State) : (outState s (execAccessTableInvalidationDone s)).mem = s.mem := by
  unfold execAccessTableInvalidationDone
  split <;> simp

@[simp] theorem execCompletionTimePassed_mem (s : State) : (outState s (execCompletionTimePassed s)).mem = s.mem := by
  unfold execCompletionTimePassed
  split <;> simp

@[simp] theorem execTowerScrub_mem (tower : Nat) (bad : Option (Nat × Nat)) (s : State) : (outState s (execTowerScrub tower bad s)).mem = s.mem := by
  unfold execTowerScrub
  repeat' split
  all_goals simp

@[simp] theorem zeroPair_mem (s : State) (tower pair : Nat) : (zeroPair s tower pair).mem = s.mem := rfl

@[simp] theorem dropTower_mem (s : State) (ctx : Nat) : (dropTower s ctx).mem = s.mem := rfl

@[simp] theorem execTowerCaneSwitch_mem (tower pair : Nat) (s : State) : (outState s (execTowerCaneSwitch tower pair s)).mem = s.mem := by
  unfold execTowerCaneSwitch
  repeat' split
  all_goals simp

theorem writeSave_wf (s : State) (c : Context) (h : Memory.wf s.mem = true) : Memory.wf (writeSave s c).mem = true := by
  unfold writeSave
  try dsimp only
  repeat' (first | (simp [*]; done) | apply wrBytes_wf)

theorem setAsideCtx_wf (s : State) (c : Context) (cause : Nat) (h : Memory.wf s.mem = true) : Memory.wf (setAsideCtx s c cause).mem = true := by
  unfold setAsideCtx
  dsimp only
  rw [foldl_mem _ (fun s p => pontilFree_mem _ _ _), putC_mem]
  exact writeSave_wf _ _ h

theorem execPreemptSave_wf (ctx : Nat) (s : State) (h : Memory.wf s.mem = true) : Memory.wf (outState s (execPreemptSave ctx s)).mem = true := by
  unfold execPreemptSave
  rw [outState_next]
  split
  · exact h
  · split
    · dsimp only
      repeat' split
      · exact h
      · rwa [foldl_mem _ (fun s g => drainWcb_mem _ _)]
      · exact setAsideCtx_wf _ _ _ h
      · exact h
    · exact h

@[simp] theorem restoreCtx_mem (s : State) (c : Context) : (restoreCtx s c).mem = s.mem := by
  unfold restoreCtx
  try dsimp only
  repeat' (first | (simp [apply_ite State.mem]; done) | (refine (foldl_mem _ (fun s a => ?_) _ _).trans ?_))

@[simp] theorem execWatchdogExpiry_mem (ctx : Nat) (s : State) : (outState s (execWatchdogExpiry ctx s)).mem = s.mem := by
  unfold execWatchdogExpiry
  dsimp only
  repeat' split
  all_goals simp

@[simp] theorem execExternalWaitTimeout_mem (gid : Nat) (slotB : Bool) (s : State) : (outState s (execExternalWaitTimeout gid slotB s)).mem = s.mem := by
  unfold execExternalWaitTimeout
  dsimp only
  repeat' split
  all_goals simp

theorem writeStatus_wf (s : State) (e v : Nat) (h : Memory.wf s.mem = true) : Memory.wf (writeStatus s e v).mem = true := by
  unfold writeStatus
  try dsimp only
  repeat' (first | (simp [*]; done) | apply engineWrite_wf)

theorem setStatus_wf (s : State) (e v : Nat) (h : Memory.wf s.mem = true) : Memory.wf (setStatus s e v).mem = true := by
  unfold setStatus
  split
  · exact writeStatus_wf _ _ _ (by rwa [logEvent_mem])
  · exact h

theorem setStatuses_wf (f : State → Nat → Nat) (c : State → Nat → Bool) (l : List Nat) (s : State) (h : Memory.wf s.mem = true) :
    Memory.wf (l.foldl (fun s e => if c s e = true then setStatus s e (f s e) else s) s).mem = true :=
  foldl_wf _ (fun s e h => by
    split
    · exact setStatus_wf _ _ _ h
    · exact h) _ _ h

@[simp] theorem execHoldSend_mem (ctx : Nat) (s : State) : (outState s (execHoldSend ctx s)).mem = s.mem := by
  unfold execHoldSend
  repeat' split
  all_goals simp

@[simp] theorem execReductionMessageDrop_mem (hdr : List Byte) (s : State) : (outState s (execReductionMessageDrop hdr s)).mem = s.mem := by
  unfold execReductionMessageDrop
  split <;> simp

@[simp] theorem execUnsupportedPacketDrop_mem (port : Nat) (s : State) : (outState s (execUnsupportedPacketDrop port s)).mem = s.mem := by
  unfold execUnsupportedPacketDrop
  split <;> simp

@[simp] theorem moveTraffic_mem (s : State) (port : Nat) : (moveTraffic s port).mem = s.mem := rfl

theorem execPortLinkDrop_wf (port : Nat) (s : State) (h : Memory.wf s.mem = true) : Memory.wf (outState s (execPortLinkDrop port s)).mem = true := by
  unfold execPortLinkDrop
  rw [outState_next]
  split
  · exact setStatus_wf _ _ _ h
  · exact h

theorem execPortRetryTimeout_wf (port : Nat) (s : State) (h : Memory.wf s.mem = true) : Memory.wf (outState s (execPortRetryTimeout port s)).mem = true := by
  unfold execPortRetryTimeout
  rw [outState_next]
  split
  · exact setStatus_wf _ _ _ h
  · exact h

theorem execPortRetrain_wf (port : Nat) (s : State) (h : Memory.wf s.mem = true) : Memory.wf (outState s (execPortRetrain port s)).mem = true := by
  unfold execPortRetrain
  rw [outState_next]
  split
  · exact setStatus_wf _ _ _ h
  · exact h

theorem failDie_wf (s : State) (die : Nat) (h : Memory.wf s.mem = true) : Memory.wf (failDie s die).mem = true := by
  unfold failDie
  dsimp only
  rw [foldl_mem _ (fun s c => stopCtx_mem _ _ _)]
  exact setStatus_wf _ _ _ h

theorem execTimeSyncLoss_wf (die : Nat) (s : State) (h : Memory.wf s.mem = true) : Memory.wf (outState s (execTimeSyncLoss die s)).mem = true := by
  unfold execTimeSyncLoss
  rw [outState_next]
  split
  · dsimp only
    rw [foldl_mem _ (fun s c => stopCtx_mem _ _ _), logEvent_mem]
    exact setStatus_wf _ _ _ h
  · exact h

@[simp] theorem recallSlice_mem (s : State) (die slice : Nat) : (recallSlice s die slice).mem = s.mem := by
  unfold recallSlice
  exact foldl_mem _ (fun _ _ => by simp) _ _

@[simp] theorem swapped_mem (s : State) (u : CulletUnit) : (swapped s u).mem = s.mem := rfl

theorem execCulletSwap_wf (u : CulletUnit) (s : State) (h : Memory.wf s.mem = true) : Memory.wf (outState s (execCulletSwap u s)).mem = true := by
  have hs : Memory.wf (swapped s u).mem = true := by rwa [swapped_mem]
  unfold execCulletSwap
  rw [outState_next]
  dsimp only
  split
  · exact h
  · split
    · split
      · exact hs
      · split
        · exact hs
        · exact setStatus_wf _ _ _ hs
    · split
      · rwa [recallSlice_mem]
      · split
        · rwa [foldl_mem _ (fun s c => l2Evict_mem _ _), swapped_mem]
        · exact failDie_wf _ _ hs
    · split
      · exact hs
      · exact failDie_wf _ _ hs
    · split
      · exact hs
      · rwa [logEvent_mem]

@[simp] theorem wordCheck_mem (s : State) (gid : Nat) (b : Bool) (code addr : Nat) : (wordCheck s gid b code addr).mem = s.mem := by
  unfold wordCheck
  dsimp only
  repeat' split
  all_goals simp

@[simp] theorem releaseHomes_mem (s : State) (f : Flight) : (releaseHomes s f).mem = s.mem := by
  unfold releaseHomes
  repeat' split
  all_goals simp

theorem strike_wf (s : State) (u : Upset) (h : Memory.wf s.mem = true) : Memory.wf (strike s u).mem = true := by
  unfold strike
  repeat' split
  all_goals first | exact h | exact failDie_wf _ _ (by simpa using h) | simpa using h

@[simp] theorem answer_mem (s : State) (code job seq ctx status : Nat) (payload : List Byte) : (answer s code job seq ctx status payload).mem = s.mem := rfl

@[simp] theorem reply_mem (s : State) (m : List Byte) (status : Nat) (payload : List Byte) : (reply s m status payload).mem = s.mem := rfl

@[simp] theorem putJob_mem (s : State) (j : Job) : (putJob s j).mem = s.mem := by
  unfold putJob
  split <;> simp

theorem orQueue_mem (s : State) (m : List Byte) (body : State → State) (hb : (body s).mem = s.mem) : (orQueue s m body).mem = s.mem := by
  unfold orQueue
  split
  · rfl
  · exact hb

theorem orQueue_wf (s : State) (m : List Byte) (body : State → State)
    (hb : Memory.wf (body s).mem = true) (h : Memory.wf s.mem = true) : Memory.wf (orQueue s m body).mem = true := by
  unfold orQueue
  split
  · exact h
  · exact hb

theorem request_mem (s : State) (m : List Byte) (code : Nat) (body : State → List Byte → State) (hb : ∀ s m, (body s m).mem = s.mem) :
    (request s m code body).mem = s.mem := by
  unfold request
  repeat' split
  all_goals first | rfl | simp only [reply_mem] | rw [orQueue_mem _ _ _ (hb _ _), putJob_mem]

theorem request_wf (s : State) (m : List Byte) (code : Nat) (body : State → List Byte → State)
    (hb : ∀ s m, Memory.wf s.mem = true → Memory.wf (body s m).mem = true) (hw : Memory.wf s.mem = true) :
    Memory.wf (request s m code body).mem = true := by
  unfold request
  repeat' split
  all_goals first | exact hw | (rwa [reply_mem]; done) | exact orQueue_wf _ _ _ (hb _ _ (by rwa [putJob_mem])) (by rwa [putJob_mem])

theorem withCtx_mem (s : State) (m : List Byte) (body : State → Context → State) (hb : ∀ s c, (body s c).mem = s.mem) :
    (withCtx s m body).mem = s.mem := by
  unfold withCtx
  repeat' split
  all_goals simp [hb]

theorem withCtx_wf (s : State) (m : List Byte) (body : State → Context → State)
    (hb : ∀ s c, Memory.wf s.mem = true → Memory.wf (body s c).mem = true) (h : Memory.wf s.mem = true) :
    Memory.wf (withCtx s m body).mem = true := by
  unfold withCtx
  repeat' split
  all_goals first | exact hb _ _ h | rwa [reply_mem]

@[simp] theorem later_mem (s : State) (w : Wait) : (later s w).mem = s.mem := rfl

@[simp] theorem execMalformedServiceMessage_mem (msg : List Byte) (s : State) : (outState s (execMalformedServiceMessage msg s)).mem = s.mem := by
  unfold execMalformedServiceMessage
  split <;> simp

@[simp] theorem tellLost_mem (s : State) (job : Nat) (gone : List Nat) : (tellLost s job gone).mem = s.mem := by
  unfold tellLost
  try dsimp only
  repeat' (first | (simp; done) | (refine (foldl_mem _ (fun s a => ?_) _ _).trans ?_))

@[simp] theorem setupReq_mem (s : State) (msg : List Byte) : (setupReq s msg).mem = s.mem := by
  simp [setupReq]

@[simp] theorem execJobSetup_mem (msg : List Byte) (s : State) : (outState s (execJobSetup msg s)).mem = s.mem := by
  unfold execJobSetup
  rw [outState_next]
  dsimp only
  repeat' split
  all_goals first | rfl | simp only [setupReq_mem] | rw [orQueue_mem _ _ _ (setupReq_mem _ _), putJob_mem]

theorem createCtx_wf (s : State) (msg : List Byte) (h : Memory.wf s.mem = true) : Memory.wf (createCtx s msg).mem = true := by
  unfold createCtx
  generalize le (mPayload msg) 0 8 = root
  generalize le (mPayload msg) 8 8 = prio
  generalize watchdogOf (le (mPayload msg) 24 4) = wd
  generalize le (mPayload msg) 28 4 = ext
  generalize (List.range 4096).find? _ = found
  dsimp only
  split
  · rwa [reply_mem]
  · split
    · rwa [reply_mem]
    · cases found with
      | none =>
        dsimp only
        rwa [reply_mem]
      | some k =>
        dsimp only
        rw [reply_mem]
        refine writeTables_wf _ ?_
        exact h

theorem execContextCreate_wf (msg : List Byte) (s : State) (h : Memory.wf s.mem = true) : Memory.wf (outState s (execContextCreate msg s)).mem = true :=
  request_wf _ _ _ _ createCtx_wf h

theorem destroyCtx_wf (s : State) (c : Context) (h : Memory.wf s.mem = true) : Memory.wf (destroyCtx s c).mem = true := by
  have hz (l : List Nat) (t : Nat) (u : State) : (l.foldl (fun s i => zeroPair s t i) u).mem = u.mem :=
    foldl_mem _ (fun _ _ => zeroPair_mem _ _ _) _ _
  have ht (l a : List Nat) (u : State) : (l.foldl (fun s t => a.foldl (fun s i => zeroPair s t i) s) u).mem = u.mem :=
    foldl_mem _ (fun _ _ => hz _ _ _) _ _
  unfold destroyCtx
  extract_lets k mine free arrays s1 s2 s3
  rw [foldl_mem _ (fun s p => pontilFree_mem _ _ _)]
  refine writeTables_wf s3 ?_
  have e : s3.mem = s.mem :=
    ((foldl_mem _ (fun s f => releaseHomes_mem _ _) _ _).trans (dropTower_mem s1 k)).trans (ht _ _ _)
  rwa [e]

@[simp] theorem destroyReq_mem (s : State) (msg : List Byte) : (destroyReq s msg).mem = s.mem := by
  unfold destroyReq
  apply withCtx_mem
  intros
  try dsimp only
  repeat' split
  all_goals simp

@[simp] theorem execContextDestroy_mem (msg : List Byte) (s : State) : (outState s (execContextDestroy msg s)).mem = s.mem := by
  unfold execContextDestroy
  rw [outState_next]
  apply request_mem
  all_goals intros
  repeat' (simp; done)

@[simp] theorem preEmptReq_mem (s : State) (msg : List Byte) : (preEmptReq s msg).mem = s.mem := by
  unfold preEmptReq
  apply withCtx_mem
  intros
  try dsimp only
  repeat' split
  all_goals simp

@[simp] theorem execPreEmpt_mem (msg : List Byte) (s : State) : (outState s (execPreEmpt msg s)).mem = s.mem := by
  unfold execPreEmpt
  rw [outState_next]
  apply request_mem
  all_goals intros
  repeat' (simp; done)

@[simp] theorem resumeReq_mem (s : State) (msg : List Byte) : (resumeReq s msg).mem = s.mem := by
  unfold resumeReq
  apply withCtx_mem
  intros
  try dsimp only
  repeat' split
  all_goals simp

@[simp] theorem execResume_mem (msg : List Byte) (s : State) : (outState s (execResume msg s)).mem = s.mem := by
  unfold execResume
  rw [outState_next]
  apply request_mem
  all_goals intros
  repeat' (simp; done)

@[simp] theorem grantReq_mem (s : State) (msg : List Byte) : (grantReq s msg).mem = s.mem := by
  unfold grantReq
  apply withCtx_mem
  intros
  dsimp only
  repeat' split
  all_goals simp

@[simp] theorem execCaneGrant_mem (msg : List Byte) (s : State) : (outState s (execCaneGrant msg s)).mem = s.mem := by
  unfold execCaneGrant
  rw [outState_next]
  apply request_mem
  all_goals intros
  repeat' (simp; done)

@[simp] theorem returnReq_mem (s : State) (msg : List Byte) : (returnReq s msg).mem = s.mem := by
  unfold returnReq
  apply withCtx_mem
  intros
  dsimp only
  repeat' split
  all_goals simp

@[simp] theorem execCaneReturn_mem (msg : List Byte) (s : State) : (outState s (execCaneReturn msg s)).mem = s.mem := by
  unfold execCaneReturn
  rw [outState_next]
  apply request_mem
  all_goals intros
  repeat' (simp; done)

theorem tableBelow_wf {s : State} {ctx level table va : Nat} {p : State × Nat} (e : tableBelow s ctx level table va = some p)
    (h : Memory.wf s.mem = true) : Memory.wf p.1.mem = true := by
  unfold tableBelow at e
  dsimp only at e
  repeat' split at e
  all_goals (first | cases e | skip)
  · exact h
  · rw [putC_mem]
    exact wrBytes_wf _ _ h

theorem mapPage_wf {s t : State} {ctx level va pa flags : Nat} (e : mapPage s ctx level va pa flags = some t)
    (h : Memory.wf s.mem = true) : Memory.wf t.mem = true := by
  unfold mapPage at e
  dsimp only at e
  split at e
  · cases e
  · rename_i q e1
    obtain ⟨c, _, rfl⟩ := Option.map_eq_some_iff.mp e
    rw [putC_mem]
    refine wrBytes_wf _ _ ?_
    exact foldl_opt_inv (fun q : State × Nat => Memory.wf q.1.mem = true) _
      (fun p l q hp hq => tableBelow_wf hq hp) _ _ _ h e1

theorem mapReq_wf (s : State) (msg : List Byte) (h : Memory.wf s.mem = true) : Memory.wf (mapReq s msg).mem = true := by
  unfold mapReq
  refine withCtx_wf _ _ _ (fun s c h => ?_) h
  dsimp only
  split
  · rwa [reply_mem]
  · split
    · rwa [reply_mem]
    · split
      · rename_i s1 e
        rw [reply_mem]
        refine foldl_opt_inv (fun t : State => Memory.wf t.mem = true) _ (fun p k q hp hq => ?_) _ _ _ h e
        obtain ⟨a, _, ha⟩ := Option.bind_eq_some_iff.mp hq
        exact mapPage_wf ha hp
      · rwa [reply_mem]

theorem execMemoryMap_wf (msg : List Byte) (s : State) (h : Memory.wf s.mem = true) : Memory.wf (outState s (execMemoryMap msg s)).mem = true :=
  request_wf _ _ _ _ mapReq_wf h

theorem clearLeaf_wf (s : State) (ctx : Nat) (m : Nat × Nat × Nat) (h : Memory.wf s.mem = true) : Memory.wf (clearLeaf s ctx m).mem = true := by
  unfold clearLeaf
  try dsimp only
  repeat' (first | (simp [*]; done) | apply wrBytes_wf)

theorem unmapReq_wf (s : State) (msg : List Byte) (h : Memory.wf s.mem = true) : Memory.wf (unmapReq s msg).mem = true := by
  unfold unmapReq
  refine withCtx_wf _ _ _ (fun s c h => ?_) h
  dsimp only
  split
  · rwa [reply_mem]
  · split
    · rwa [reply_mem]
    · rw [later_mem]
      exact foldl_wf _ (fun s m h => clearLeaf_wf _ _ _ h) _ _ h

theorem execMemoryUnmap_wf (msg : List Byte) (s : State) (h : Memory.wf s.mem = true) : Memory.wf (outState s (execMemoryUnmap msg s)).mem = true :=
  request_wf _ _ _ _ unmapReq_wf h

@[simp] theorem serviceWrote_mem (s : State) (ctx t : Nat) : (serviceWrote s ctx t).mem = s.mem := by
  unfold serviceWrote
  split <;> simp

theorem withWindow_wf (s : State) (msg : List Byte) (c : Context) (va n : Nat) (body : State → List Nat → State)
    (hb : ∀ pas, Memory.wf (body s pas).mem = true) (h : Memory.wf s.mem = true) : Memory.wf (withWindow s msg c va n body).mem = true := by
  unfold withWindow
  repeat' split
  all_goals first | exact hb _ | simpa using h

theorem withWindow_mem (s : State) (msg : List Byte) (c : Context) (va n : Nat) (body : State → List Nat → State)
    (hb : ∀ pas, (body s pas).mem = s.mem) : (withWindow s msg c va n body).mem = s.mem := by
  unfold withWindow
  repeat' split
  all_goals first | exact hb _ | simp

theorem writeReq_wf (s : State) (msg : List Byte) (h : Memory.wf s.mem = true) : Memory.wf (writeReq s msg).mem = true := by
  unfold writeReq
  refine withCtx_wf _ _ _ (fun s c h => withWindow_wf _ _ _ _ _ _ (fun pas => ?_) h) h
  rw [reply_mem, serviceWrote_mem]
  exact engineWrite_wf _ _ _ _ h

theorem execMemoryWrite_wf (msg : List Byte) (s : State) (h : Memory.wf s.mem = true) : Memory.wf (outState s (execMemoryWrite msg s)).mem = true :=
  request_wf _ _ _ _ writeReq_wf h

@[simp] theorem readReq_mem (s : State) (msg : List Byte) : (readReq s msg).mem = s.mem := by
  unfold readReq
  apply withCtx_mem
  intros
  refine withWindow_mem _ _ _ _ _ _ (fun pas => ?_)
  split <;> simp

@[simp] theorem execMemoryRead_mem (msg : List Byte) (s : State) : (outState s (execMemoryRead msg s)).mem = s.mem := by
  unfold execMemoryRead
  rw [outState_next]
  apply request_mem
  all_goals intros
  repeat' (simp; done)

@[simp] theorem queueReq_mem (s : State) (msg : List Byte) : (queueReq s msg).mem = s.mem := by
  unfold queueReq
  apply withCtx_mem
  intros
  dsimp only
  repeat' split
  all_goals simp

@[simp] theorem execLaunchQueueWrite_mem (msg : List Byte) (s : State) : (outState s (execLaunchQueueWrite msg s)).mem = s.mem := by
  unfold execLaunchQueueWrite
  rw [outState_next]
  apply request_mem
  all_goals intros
  repeat' (simp; done)

@[simp] theorem treeReq_mem (s : State) (msg : List Byte) : (treeReq s msg).mem = s.mem := by
  unfold treeReq
  dsimp only
  repeat' split
  all_goals simp

@[simp] theorem execTreeCreate_mem (msg : List Byte) (s : State) : (outState s (execTreeCreate msg s)).mem = s.mem := by
  unfold execTreeCreate
  rw [outState_next]
  apply request_mem
  all_goals intros
  repeat' (simp; done)

@[simp] theorem abortTree_mem (s : State) (tree : Nat) : (abortTree s tree).mem = s.mem := by
  unfold abortTree
  try dsimp only
  repeat' (first | (simp [apply_ite State.mem]; done) | split | (refine (foldl_mem _ (fun s a => ?_) _ _).trans ?_) | (rename_i h; have e := congrArg (fun p => p.1.mem) h; simp at e; simp [← e]; done) | (simp [apply_ite State.mem]))

@[simp] theorem treeFreeReq_mem (s : State) (msg : List Byte) : (treeFreeReq s msg).mem = s.mem := by
  unfold treeFreeReq
  dsimp only
  repeat' split
  all_goals simp

@[simp] theorem execTreeFree_mem (msg : List Byte) (s : State) : (outState s (execTreeFree msg s)).mem = s.mem := by
  unfold execTreeFree
  rw [outState_next]
  apply request_mem
  all_goals intros
  repeat' (simp; done)

@[simp] theorem telemetryReq_mem (s : State) (msg : List Byte) : (telemetryReq s msg).mem = s.mem := rfl

@[simp] theorem execTelemetry_mem (msg : List Byte) (s : State) : (outState s (execTelemetry msg s)).mem = s.mem := by
  unfold execTelemetry
  rw [outState_next]
  apply request_mem
  all_goals intros
  repeat' (simp; done)

@[simp] theorem attestReq_mem (s : State) (msg : List Byte) : (attestReq s msg).mem = s.mem := by
  unfold attestReq
  repeat' split
  all_goals simp

@[simp] theorem execAttest_mem (msg : List Byte) (s : State) : (outState s (execAttest msg s)).mem = s.mem := by
  unfold execAttest
  rw [outState_next]
  apply request_mem
  all_goals intros
  repeat' (simp; done)

theorem enterStandby_wf (s : State) (h : Memory.wf s.mem = true) : Memory.wf (enterStandby s).mem = true := by
  unfold enterStandby
  exact foldl_wf _ (fun s e h => setStatus_wf _ _ _ h) _ _ h

theorem leaveStandby_wf (s : State) (h : Memory.wf s.mem = true) : Memory.wf (leaveStandby s).mem = true := by
  unfold leaveStandby
  refine foldl_wf _ (fun s e h => ?_) _ _ h
  split
  · exact setStatus_wf _ _ _ h
  · exact h

theorem powerReq_wf (s : State) (msg : List Byte) (h : Memory.wf s.mem = true) : Memory.wf (powerReq s msg).mem = true := by
  unfold powerReq
  extract_lets p st pw s1
  have h1 : Memory.wf s1.mem = true := by
    unfold s1
    split
    · exact enterStandby_wf _ h
    · split
      · exact leaveStandby_wf _ h
      · exact h
  split
  · rwa [reply_mem]
  · rw [reply_mem]
    generalize le p 0 1 * 65536 + le p 4 4 = e
    have e1 := logEvent_mem s1 0 e
    rw [← e1] at h1
    exact h1

theorem execPower_wf (msg : List Byte) (s : State) (h : Memory.wf s.mem = true) : Memory.wf (outState s (execPower msg s)).mem = true :=
  request_wf _ _ _ _ powerReq_wf h

@[simp] theorem bkptReq_mem (s : State) (msg : List Byte) : (bkptReq s msg).mem = s.mem := by
  unfold bkptReq
  apply withCtx_mem
  intros
  dsimp only
  repeat' split
  all_goals simp

@[simp] theorem execBreakpointResume_mem (msg : List Byte) (s : State) : (outState s (execBreakpointResume msg s)).mem = s.mem := by
  unfold execBreakpointResume
  rw [outState_next]
  apply request_mem
  all_goals intros
  repeat' (simp; done)

@[simp] theorem dropWait_mem (s : State) (w : Wait) : (dropWait s w).mem = s.mem := rfl

@[simp] theorem finish_mem (s : State) (w : Wait) (status : Nat) (payload : List Byte) : (finish s w status payload).mem = s.mem := rfl

theorem settleWait_wf (s : State) (w : Wait) (h : Memory.wf s.mem = true) : Memory.wf (settleWait s w).mem = true := by
  unfold settleWait
  extract_lets
  split
  · rwa [finish_mem]
  · split
    · split
      · rw [finish_mem]
        exact destroyCtx_wf _ _ h
      · exact h
    all_goals (repeat' split)
    all_goals first | exact h | (rwa [finish_mem]; done) | (rw [finish_mem]; simpa using h)

theorem performReq_wf (s : State) (m : List Byte) (h : Memory.wf s.mem = true) : Memory.wf (performReq s m).mem = true := by
  unfold performReq
  split
  · rwa [setupReq_mem]
  · exact createCtx_wf _ _ h
  · rwa [destroyReq_mem]
  · rwa [grantReq_mem]
  · rwa [returnReq_mem]
  · exact mapReq_wf _ _ h
  · exact unmapReq_wf _ _ h
  · exact writeReq_wf _ _ h
  · rwa [readReq_mem]
  · rwa [queueReq_mem]
  · rwa [treeReq_mem]
  · rwa [treeFreeReq_mem]
  · rwa [preEmptReq_mem]
  · rwa [resumeReq_mem]
  · rwa [telemetryReq_mem]
  · rwa [attestReq_mem]
  · exact powerReq_wf _ _ h
  · rwa [bkptReq_mem]
  · exact h

theorem settleQueue_wf (s : State) (h : Memory.wf s.mem = true) : Memory.wf (settleQueue s).mem = true := by
  unfold settleQueue
  refine foldl_wf _ (fun s m h => ?_) _ _ h
  split
  · exact h
  · exact performReq_wf _ _ h

theorem settleService_wf (s : State) (h : Memory.wf s.mem = true) : Memory.wf (settleService s).mem = true := by
  unfold settleService
  refine settleQueue_wf _ (foldl_wf _ (fun s w h => ?_) _ _ h)
  split
  · exact settleWait_wf _ _ h
  · exact h

@[simp] theorem logStates_mem (s : State) (v : Nat) : (logStates s v).mem = s.mem := by
  unfold logStates
  try dsimp only
  repeat' (first | (simp [apply_ite State.mem]; done) | (refine (foldl_mem _ (fun s a => ?_) _ _).trans ?_))

theorem powerDown_wf (s : State) : Memory.wf (powerDown s).mem = true := rfl

theorem execPowerOff_wf (s : State) (hw : Memory.wf s.mem = true) : Memory.wf (outState s (execPowerOff s)).mem = true := by
  exact powerDown_wf s

theorem ite_wf {c : Prop} [Decidable c] {s t : State} (hs : Memory.wf s.mem = true) (ht : Memory.wf t.mem = true) :
    Memory.wf (if c then s else t).mem = true := by
  split
  · exact hs
  · exact ht

theorem execPowerGood_wf (refetched : List Byte) (s : State) (h : Memory.wf s.mem = true) :
    Memory.wf (outState s (execPowerGood refetched s)).mem = true := by
  unfold execPowerGood
  rw [outState_next]
  refine ite_wf h ?_
  extract_lets s0 n src fw good place src2 s1
  refine ite_wf (performWrite_wf _ _ _ ?_) (powerDown_wf s)
  simp only [s1, logEvent_mem, src2, logStates_mem]
  exact powerDown_wf s

@[simp] theorem enumerate_mem (s : State) (port : Nat) : (enumerate s port).mem = s.mem := by
  unfold enumerate
  dsimp only
  repeat' split
  all_goals simp

@[simp] theorem serviceGroup_mem (s : State) (k : Nat) : (serviceGroup s k).mem = s.mem := rfl

theorem startService_wf (s : State) (h : Memory.wf s.mem = true) : Memory.wf (startService s).mem = true := by
  unfold startService
  extract_lets s1
  rw [foldl_mem _ (fun s k => serviceGroup_mem _ _)]
  exact writeTables_wf s1 h

theorem execFunctionReady_wf (entry : Nat) (s : State) (h : Memory.wf s.mem = true) : Memory.wf (outState s (execFunctionReady entry s)).mem = true := by
  unfold execFunctionReady
  rw [outState_next]
  split
  · exact h
  · have hs := setStatus_wf s entry 2 h
    dsimp only
    split
    · rwa [enumerate_mem]
    · split
      · exact startService_wf _ hs
      · exact hs

@[simp] theorem mgmtAnswer_mem (s : State) (chan : Option (Nat × Nat)) (status : Nat) : (mgmtAnswer s chan status).mem = s.mem := rfl

@[simp] theorem execFirmwareStage_mem (image : List Byte) (cmd : StageCmd) (s : State) : (outState s (execFirmwareStage image cmd s)).mem = s.mem := by
  unfold execFirmwareStage
  repeat' split
  all_goals simp

theorem execFirmwareCommit_wf (cmd : CommitCmd) (s : State) (h : Memory.wf s.mem = true) :
    Memory.wf (outState s (execFirmwareCommit cmd s)).mem = true := by
  unfold execFirmwareCommit
  rw [outState_next]
  split
  · rwa [mgmtAnswer_mem]
  · split
    · rwa [mgmtAnswer_mem]
    · dsimp only
      split
      · exact powerDown_wf _
      · rwa [mgmtAnswer_mem, logEvent_mem]

@[simp] theorem execOperatorKeyWrite_mem (key : Nat) (viaLink : Bool) (sig : Nat) (s : State) : (outState s (execOperatorKeyWrite key viaLink sig s)).mem = s.mem := by
  unfold execOperatorKeyWrite
  repeat' split
  all_goals simp

@[simp] theorem execSensorSample_mem (readings : List Nat) (s : State) : (outState s (execSensorSample readings s)).mem = s.mem := by
  unfold execSensorSample
  rw [outState_next]
  split
  · rfl
  · dsimp only
    refine (foldl_mem _ (fun s d => ?_) _ _).trans rfl
    split
    all_goals (split; all_goals (try rw [logEvent_mem]); all_goals rfl)

@[simp] theorem withFocus_mem (s : State) (f : Focus) : (withFocus s f).mem = s.mem := rfl

@[simp] theorem engineProgress_mem (s0 s : State) : (engineProgress s0 s).mem = s.mem := by
  unfold engineProgress
  exact foldl_mem _ (fun _ _ => by simp) _ _

@[simp] theorem idlePower_mem (s0 s : State) : (idlePower s0 s).mem = s.mem := by
  unfold idlePower
  repeat' split
  all_goals simp

@[simp] theorem fatalNotice_mem (s0 s : State) : (fatalNotice s0 s).mem = s.mem := by
  unfold fatalNotice
  dsimp only
  repeat' split
  all_goals simp

theorem resave_wf (s0 s : State) (h : Memory.wf s.mem = true) : Memory.wf (resave s0 s).mem = true := by
  unfold resave
  exact foldl_wf _ (fun _ _ h => writeSave_wf _ _ h) _ _ h

theorem afterEvent_wf (s0 s : State) (h : Memory.wf s.mem = true) : Memory.wf (afterEvent s0 s).mem = true := by
  unfold afterEvent
  rw [idlePower_mem, fatalNotice_mem]
  exact settleService_wf _ (by rw [engineProgress_mem]; exact resave_wf _ _ h)

@[simp] theorem passTime_mem (s : State) (dt : Nat) : (passTime s dt).mem = s.mem := rfl

@[simp] theorem withWord_mem (s : State) (pair : Bool) (w : W64) : (withWord s pair w).mem = s.mem := rfl

@[simp] theorem withCommand_mem (s : State) (w : W64) : (withCommand s w).mem = s.mem := rfl

theorem afterTurn_wf (s : State) (t : Turn) (r : List Turn) (h : Memory.wf s.mem = true) : Memory.wf (afterTurn s t r).mem = true := by
  unfold afterTurn
  exact foldl_wf _ (fun s u h => strike_wf _ _ h) _ _ (by simpa using h)

@[simp] theorem State.withFetchWord_mem (s : State) (nbits w : Nat) : (State.withFetchWord s nbits w).mem = s.mem := by
  unfold State.withFetchWord
  repeat' split
  all_goals simp

end Sys2Proof.Laws
end

