-- ==== Sys2Proof/Laws/Lookup.lean ====
section
/-! SUPPORT. Lookup after update, for every table of the state that is keyed by identity; and reading a register of a group after a
write. -/

namespace Sys2Proof.Laws
open Sys2Proof Sys2Proof.Machine

section tables
variable {α : Type}

/-- Replacing the first element of an identity leaves what is found under another identity alone. -/
theorem find_replaceFirst_other (p q : α → Bool) (y : α) (hq : ∀ x, p x = true → q x = false) (hy : q y = false) (l : List α) :
    (replaceFirst p (fun _ => y) l).find? q = l.find? q := by
  induction l with
  | nil => rfl
  | cons x r ih =>
    by_cases hp : p x
    · simp [replaceFirst, hp, hy, hq x hp]
    · by_cases hx : q x <;> simp [replaceFirst, hp, hx, ih]

/-- What is found under the replaced identity is the new element. -/
theorem find_replaceFirst_same (p : α → Bool) (y : α) (hy : p y = true) (l : List α) (h : (l.find? p).isSome) :
    (replaceFirst p (fun _ => y) l).find? p = some y := by
  induction l with
  | nil => simp at h
  | cons x r ih =>
    by_cases hp : p x
    · simp [replaceFirst, hp, hy]
    · simp [hp] at h
      simp [replaceFirst, hp]
      exact ih (by simpa using h)

/-- Replacing does nothing where the identity is absent. -/
theorem replaceFirst_absent (p : α → Bool) (f : α → α) (l : List α) (h : l.find? p = none) : replaceFirst p f l = l := by
  induction l with
  | nil => rfl
  | cons x r ih =>
    by_cases hp : p x
    · simp [hp] at h
    · simp [hp] at h
      simp [replaceFirst, hp]
      exact ih (by simpa using h)

end tables

theorem getG_gid {s : State} {n : Nat} {g : Group} (h : getG s n = some g) : g.gid = n := by
  have := List.find?_some h; simpa using this

theorem getT_tid {s : State} {n : Nat} {t : Team} (h : getT s n = some t) : t.tid = n := by
  have := List.find?_some h; simpa using this

theorem getC_ctx {s : State} {n : Nat} {c : Context} (h : getC s n = some c) : c.ctx = n := by
  have := List.find?_some h; simpa using this

theorem getF_id {s : State} {n : Nat} {f : Flight} (h : getF s n = some f) : f.id = n := by
  have := List.find?_some h; simpa using this

theorem getG_putG_same {s : State} {g g0 : Group} (h : getG s g.gid = some g0) : getG (putG s g) g.gid = some g :=
  find_replaceFirst_same _ g (by simp) _ (by simpa [getG] using congrArg Option.isSome h)

theorem getG_putG_other {s : State} {g : Group} {n : Nat} (h : n ≠ g.gid) : getG (putG s g) n = getG s n :=
  find_replaceFirst_other _ _ g (by intro x hx; simp at hx ⊢; omega) (by simp; omega) _

theorem getT_putT_same {s : State} {t t0 : Team} (h : getT s t.tid = some t0) : getT (putT s t) t.tid = some t :=
  find_replaceFirst_same _ t (by simp) _ (by simpa [getT] using congrArg Option.isSome h)

theorem getT_putT_other {s : State} {t : Team} {n : Nat} (h : n ≠ t.tid) : getT (putT s t) n = getT s n :=
  find_replaceFirst_other _ _ t (by intro x hx; simp at hx ⊢; omega) (by simp; omega) _

theorem getC_putC_same {s : State} {c c0 : Context} (h : getC s c.ctx = some c0) : getC (putC s c) c.ctx = some c :=
  find_replaceFirst_same _ c (by simp) _ (by simpa [getC] using congrArg Option.isSome h)

theorem getC_putC_other {s : State} {c : Context} {n : Nat} (h : n ≠ c.ctx) : getC (putC s c) n = getC s n :=
  find_replaceFirst_other _ _ c (by intro x hx; simp at hx ⊢; omega) (by simp; omega) _

theorem getF_putF_same {s : State} {f f0 : Flight} (h : getF s f.id = some f0) : getF (putF s f) f.id = some f :=
  find_replaceFirst_same _ f (by simp) _ (by simpa [getF] using congrArg Option.isSome h)

theorem getF_putF_other {s : State} {f : Flight} {n : Nat} (h : n ≠ f.id) : getF (putF s f) n = getF s n :=
  find_replaceFirst_other _ _ f (by intro x hx; simp at hx ⊢; omega) (by simp; omega) _

/-- An operation that has ended is no longer in flight. -/
theorem getF_dropF_same (s : State) (id : Nat) : getF (dropF s id) id = none := by
  simp [getF, dropF, List.find?_eq_none]

theorem getF_dropF_other {s : State} {id n : Nat} (h : n ≠ id) : getF (dropF s id) n = getF s n := by
  simp only [getF, dropF]
  induction s.pend with
  | nil => rfl
  | cons f r ih => by_cases hf : f.id = id <;> by_cases hn : f.id = n <;> simp_all

/-! Registers (R31, R32). -/

/-- s0 reads as zero after any write; every other scalar register reads what was written to it. -/
theorem rs_ws (g : Group) (n k : Nat) (v : W64) : rs (ws g n v) k = if k = 0 then 0#64 else if k = n then v else rs g k := by
  unfold rs ws
  by_cases hn : n = 0 <;> by_cases hk : k = 0 <;> simp [hn, hk, fget_fput]

theorem rv_wv (g : Group) (r l r' l' : Nat) (v : W64) (hl : l < 64) (hl' : l' < 64) :
    rv (wv g r l v) r' l' = if r' = r ∧ l' = l then v else rv g r' l' := by
  unfold rv wv
  have : (r' * 64 + l' = r * 64 + l) ↔ (r' = r ∧ l' = l) := by omega
  simp [fget_fput, this]

theorem rm_wm (g : Group) (k k' : Nat) (v : W64) : rm (wm g k v) k' = if k' = k then v &&& widthMask g else rm g k' := by
  unfold rm wm
  simp [fget_fput]

@[simp] theorem slotOf_setSlot_same (g : Group) (b : Bool) (x : Slot) : slotOf (setSlot g b x) b = x := by cases b <;> rfl
@[simp] theorem slotOf_setSlot_other (g : Group) (b : Bool) (x : Slot) : slotOf (setSlot g b x) (!b) = slotOf g (!b) := by cases b <;> rfl
@[simp] theorem slotOf_ws (g : Group) (b : Bool) (n : Nat) (v : W64) : slotOf (ws g n v) b = slotOf g b := by cases b <;> simp [slotOf]
@[simp] theorem slotOf_wv (g : Group) (b : Bool) (r l : Nat) (v : W64) : slotOf (wv g r l v) b = slotOf g b := by cases b <;> simp [slotOf]
@[simp] theorem slotOf_wm (g : Group) (b : Bool) (k : Nat) (v : W64) : slotOf (wm g k v) b = slotOf g b := by cases b <;> simp [slotOf]

end Sys2Proof.Laws
end

