-- ==== Sys2Proof/Laws/Memory.lean ====
section
/-! SUPPORT. Every instruction keeps a memory in canonical form in it. -/

namespace Sys2Proof.Laws
open Sys2Proof Sys2Proof.Machine

theorem exec_wf (i : Instr) (s : State) (h : Memory.wf s.mem = true) : Memory.wf (outState s (exec i s)).mem = true := by
  cases i with
  | sAdd _ => rw [exec_sAdd, execSAdd_mem]; exact h
  | sSub _ => rw [exec_sSub, execSSub_mem]; exact h
  | sMul _ => rw [exec_sMul, execSMul_mem]; exact h
  | sMulh _ => rw [exec_sMulh, execSMulh_mem]; exact h
  | sDiv _ => rw [exec_sDiv, execSDiv_mem]; exact h
  | sRem _ => rw [exec_sRem, execSRem_mem]; exact h
  | sAnd _ => rw [exec_sAnd, execSAnd_mem]; exact h
  | sOr _ => rw [exec_sOr, execSOr_mem]; exact h
  | sXor _ => rw [exec_sXor, execSXor_mem]; exact h
  | sAndn _ => rw [exec_sAndn, execSAndn_mem]; exact h
  | sShl _ => rw [exec_sShl, execSShl_mem]; exact h
  | sShr _ => rw [exec_sShr, execSShr_mem]; exact h
  | sSar _ => rw [exec_sSar, execSSar_mem]; exact h
  | sMin _ => rw [exec_sMin, execSMin_mem]; exact h
  | sMax _ => rw [exec_sMax, execSMax_mem]; exact h
  | sClz _ => rw [exec_sClz, execSClz_mem]; exact h
  | sPopc _ => rw [exec_sPopc, execSPopc_mem]; exact h
  | sBfx _ => rw [exec_sBfx, execSBfx_mem]; exact h
  | sBfi _ => rw [exec_sBfi, execSBfi_mem]; exact h
  | sSxt _ => rw [exec_sSxt, execSSxt_mem]; exact h
  | sZxt _ => rw [exec_sZxt, execSZxt_mem]; exact h
  | sCmp _ => rw [exec_sCmp, execSCmp_mem]; exact h
  | sSel _ => rw [exec_sSel, execSSel_mem]; exact h
  | sMov _ => rw [exec_sMov, execSMov_mem]; exact h
  | sLi _ => rw [exec_sLi, execSLi_mem]; exact h
  | sLih _ => rw [exec_sLih, execSLih_mem]; exact h
  | sLea _ => rw [exec_sLea, execSLea_mem]; exact h
  | sSr _ => rw [exec_sSr, execSSr_mem]; exact h
  | br _ => rw [exec_br, execBr_mem]; exact h
  | bc _ => rw [exec_bc, execBc_mem]; exact h
  | bv _ => rw [exec_bv, execBv_mem]; exact h
  | join _ => rw [exec_join, execJoin_mem]; exact h
  | bx _ => rw [exec_bx, execBx_mem]; exact h
  | bt _ => rw [exec_bt, execBt_mem]; exact h
  | call _ => rw [exec_call, execCall_mem]; exact h
  | callx _ => rw [exec_callx, execCallx_mem]; exact h
  | ret _ => rw [exec_ret, execRet_mem]; exact h
  | loop _ => rw [exec_loop, execLoop_mem]; exact h
  | exit _ => rw [exec_exit, execExit_mem]; exact h
  | spawn _ => rw [exec_spawn, execSpawn_mem]; exact h
  | launch _ => rw [exec_launch, execLaunch_mem]; exact h
  | regroup _ => rw [exec_regroup, execRegroup_mem]; exact h
  | yield _ => rw [exec_yield, execYield_mem]; exact h
  | nap _ => rw [exec_nap, execNap_mem]; exact h
  | ipf _ => rw [exec_ipf, execIpf_mem]; exact h
  | ipin _ => rw [exec_ipin, execIpin_mem]; exact h
  | iunpin _ => rw [exec_iunpin, execIunpin_mem]; exact h
  | vAdd _ => rw [exec_vAdd, execVAdd_mem]; exact h
  | vSub _ => rw [exec_vSub, execVSub_mem]; exact h
  | vMul _ => rw [exec_vMul, execVMul_mem]; exact h
  | vMulh _ => rw [exec_vMulh, execVMulh_mem]; exact h
  | vMad _ => rw [exec_vMad, execVMad_mem]; exact h
  | vAbsd _ => rw [exec_vAbsd, execVAbsd_mem]; exact h
  | vMin _ => rw [exec_vMin, execVMin_mem]; exact h
  | vMax _ => rw [exec_vMax, execVMax_mem]; exact h
  | vAnd _ => rw [exec_vAnd, execVAnd_mem]; exact h
  | vOr _ => rw [exec_vOr, execVOr_mem]; exact h
  | vXor _ => rw [exec_vXor, execVXor_mem]; exact h
  | vAndn _ => rw [exec_vAndn, execVAndn_mem]; exact h
  | vShl _ => rw [exec_vShl, execVShl_mem]; exact h
  | vShr _ => rw [exec_vShr, execVShr_mem]; exact h
  | vSar _ => rw [exec_vSar, execVSar_mem]; exact h
  | vClz _ => rw [exec_vClz, execVClz_mem]; exact h
  | vPopc _ => rw [exec_vPopc, execVPopc_mem]; exact h
  | vBfx _ => rw [exec_vBfx, execVBfx_mem]; exact h
  | vBfi _ => rw [exec_vBfi, execVBfi_mem]; exact h
  | vSel _ => rw [exec_vSel, execVSel_mem]; exact h
  | vCmp _ => rw [exec_vCmp, execVCmp_mem]; exact h
  | vMov _ => rw [exec_vMov, execVMov_mem]; exact h
  | vLi _ => rw [exec_vLi, execVLi_mem]; exact h
  | vFroms _ => rw [exec_vFroms, execVFroms_mem]; exact h
  | vTos _ => rw [exec_vTos, execVTos_mem]; exact h
  | vFadd _ => rw [exec_vFadd, execVFadd_mem]; exact h
  | vFsub _ => rw [exec_vFsub, execVFsub_mem]; exact h
  | vFmul _ => rw [exec_vFmul, execVFmul_mem]; exact h
  | vFma _ => rw [exec_vFma, execVFma_mem]; exact h
  | vFmin _ => rw [exec_vFmin, execVFmin_mem]; exact h
  | vFmax _ => rw [exec_vFmax, execVFmax_mem]; exact h
  | vFcmp _ => rw [exec_vFcmp, execVFcmp_mem]; exact h
  | vFrnd _ => rw [exec_vFrnd, execVFrnd_mem]; exact h
  | vFclass _ => rw [exec_vFclass, execVFclass_mem]; exact h
  | vFdot2 _ => rw [exec_vFdot2, execVFdot2_mem]; exact h
  | vCvt _ => rw [exec_vCvt, execVCvt_mem]; exact h
  | vQuant _ => rw [exec_vQuant, execVQuant_mem]; exact h
  | vDequant _ => rw [exec_vDequant, execVDequant_mem]; exact h
  | vPack _ => rw [exec_vPack, execVPack_mem]; exact h
  | vUnpack _ => rw [exec_vUnpack, execVUnpack_mem]; exact h
  | vRcp _ => rw [exec_vRcp, execVRcp_mem]; exact h
  | vRsq _ => rw [exec_vRsq, execVRsq_mem]; exact h
  | vSqrt _ => rw [exec_vSqrt, execVSqrt_mem]; exact h
  | vExp2 _ => rw [exec_vExp2, execVExp2_mem]; exact h
  | vLog2 _ => rw [exec_vLog2, execVLog2_mem]; exact h
  | vSin _ => rw [exec_vSin, execVSin_mem]; exact h
  | vCos _ => rw [exec_vCos, execVCos_mem]; exact h
  | vAct _ => rw [exec_vAct, execVAct_mem]; exact h
  | xShf _ => rw [exec_xShf, execXShf_mem]; exact h
  | xBfly _ => rw [exec_xBfly, execXBfly_mem]; exact h
  | xBcast _ => rw [exec_xBcast, execXBcast_mem]; exact h
  | xScan _ => rw [exec_xScan, execXScan_mem]; exact h
  | xRed _ => rw [exec_xRed, execXRed_mem]; exact h
  | xCompact _ => rw [exec_xCompact, execXCompact_mem]; exact h
  | voteAny _ => rw [exec_voteAny, execVoteAny_mem]; exact h
  | voteAll _ => rw [exec_voteAll, execVoteAll_mem]; exact h
  | voteBal _ => rw [exec_voteBal, execVoteBal_mem]; exact h
  | mAnd _ => rw [exec_mAnd, execMAnd_mem]; exact h
  | mOr _ => rw [exec_mOr, execMOr_mem]; exact h
  | mXor _ => rw [exec_mXor, execMXor_mem]; exact h
  | mAndn _ => rw [exec_mAndn, execMAndn_mem]; exact h
  | mPopc _ => rw [exec_mPopc, execMPopc_mem]; exact h
  | mFfs _ => rw [exec_mFfs, execMFfs_mem]; exact h
  | mSet _ => rw [exec_mSet, execMSet_mem]; exact h
  | ldG _ => rw [exec_ldG, execLdG_mem]; exact h
  | stG _ => rw [exec_stG, execStG_mem]; exact h
  | ldS _ => rw [exec_ldS, execLdS_mem]; exact h
  | stS _ => rw [exec_stS, execStS_mem]; exact h
  | ldL _ => rw [exec_ldL, execLdL_mem]; exact h
  | stL _ => rw [exec_stL, execStL_mem]; exact h
  | ldX _ => rw [exec_ldX, execLdX_mem]; exact h
  | atAdd _ => rw [exec_atAdd, execAtAdd_mem]; exact h
  | atSub _ => rw [exec_atSub, execAtSub_mem]; exact h
  | atMin _ => rw [exec_atMin, execAtMin_mem]; exact h
  | atMax _ => rw [exec_atMax, execAtMax_mem]; exact h
  | atAnd _ => rw [exec_atAnd, execAtAnd_mem]; exact h
  | atOr _ => rw [exec_atOr, execAtOr_mem]; exact h
  | atXor _ => rw [exec_atXor, execAtXor_mem]; exact h
  | atXchg _ => rw [exec_atXchg, execAtXchg_mem]; exact h
  | atCas _ => rw [exec_atCas, execAtCas_mem]; exact h
  | atCas2 _ => rw [exec_atCas2, execAtCas2_mem]; exact h
  | atFadd _ => rw [exec_atFadd, execAtFadd_mem]; exact h
  | fence _ => rw [exec_fence, execFence_mem]; exact h
  | barInit _ => rw [exec_barInit, execBarInit_mem]; exact h
  | barArv _ => rw [exec_barArv, execBarArv_mem]; exact h
  | barWait _ => rw [exec_barWait, execBarWait_mem]; exact h
  | barSync _ => rw [exec_barSync, execBarSync_mem]; exact h
  | cbar _ => rw [exec_cbar, execCbar_mem]; exact h
  | lrInit _ => rw [exec_lrInit, execLrInit_mem]; exact h
  | lrAwait _ => rw [exec_lrAwait, execLrAwait_mem]; exact h
  | lrRel _ => rw [exec_lrRel, execLrRel_mem]; exact h
  | lrFill _ => rw [exec_lrFill, execLrFill_mem]; exact h
  | lrFillPut _ => rw [exec_lrFillPut, execLrFillPut_mem]; exact h
  | cpIn _ => rw [exec_cpIn, execCpIn_mem]; exact h
  | cpOut _ => rw [exec_cpOut, execCpOut_mem]; exact h
  | cpG _ => rw [exec_cpG, execCpG_mem]; exact h
  | cpHalo _ => rw [exec_cpHalo, execCpHalo_mem]; exact h
  | cpMc _ => rw [exec_cpMc, execCpMc_mem]; exact h
  | ccPrf _ => rw [exec_ccPrf, execCcPrf_mem]; exact h
  | ccWb _ => rw [exec_ccWb, execCcWb_mem]; exact h
  | ccInv _ => rw [exec_ccInv, execCcInv_mem]; exact h
  | ccWays _ => rw [exec_ccWays, execCcWays_mem]; exact h
  | mxMma _ => rw [exec_mxMma, execMxMma_mem]; exact h
  | mxMmaf _ => rw [exec_mxMmaf, execMxMmaf_mem]; exact h
  | mxZero _ => rw [exec_mxZero, execMxZero_mem]; exact h
  | mxLd _ => rw [exec_mxLd, execMxLd_mem]; exact h
  | mxSt _ => rw [exec_mxSt, execMxSt_mem]; exact h
  | mxWait _ => rw [exec_mxWait, execMxWait_mem]; exact h
  | mxRel _ => rw [exec_mxRel, execMxRel_mem]; exact h
  | plTake _ => rw [exec_plTake, execPlTake_mem]; exact h
  | plPass _ => rw [exec_plPass, execPlPass_mem]; exact h
  | plPassFree _ => rw [exec_plPassFree, execPlPassFree_mem]; exact h
  | spOpen _ => rw [exec_spOpen, execSpOpen_mem]; exact h
  | spKeep _ => rw [exec_spKeep, execSpKeep_mem]; exact h
  | spDrop _ => rw [exec_spDrop, execSpDrop_mem]; exact h
  | fbSet _ => rw [exec_fbSet, execFbSet_mem]; exact h
  | fbTab _ => rw [exec_fbTab, execFbTab_mem]; exact h
  | fbTabSet _ => rw [exec_fbTabSet, execFbTabSet_mem]; exact h
  | ebSend _ => rw [exec_ebSend, execEbSend_mem]; exact h
  | paOpen _ => rw [exec_paOpen, execPaOpen_mem]; exact h
  | paOpenRp _ => rw [exec_paOpenRp, execPaOpenRp_mem]; exact h
  | paClose _ => rw [exec_paClose, execPaClose_mem]; exact h
  | acGet _ => rw [exec_acGet, execAcGet_mem]; exact h
  | acWait _ => rw [exec_acWait, execAcWait_mem]; exact h
  | wvCommit _ => rw [exec_wvCommit, execWvCommit_mem]; exact h
  | rngDraw _ => rw [exec_rngDraw, execRngDraw_mem]; exact h
  | twXin _ => rw [exec_twXin, execTwXin_mem]; exact h
  | twXout _ => rw [exec_twXout, execTwXout_mem]; exact h
  | twRun _ => rw [exec_twRun, execTwRun_mem]; exact h
  | twWait _ => rw [exec_twWait, execTwWait_mem]; exact h
  | farAdd _ => rw [exec_farAdd, execFarAdd_mem]; exact h
  | farFence _ => rw [exec_farFence, execFarFence_mem]; exact h
  | caneVAdd _ => rw [exec_caneVAdd, execCaneVAdd_mem]; exact h
  | caneVSub _ => rw [exec_caneVSub, execCaneVSub_mem]; exact h
  | caneVMul _ => rw [exec_caneVMul, execCaneVMul_mem]; exact h
  | caneVMad _ => rw [exec_caneVMad, execCaneVMad_mem]; exact h
  | caneVMin _ => rw [exec_caneVMin, execCaneVMin_mem]; exact h
  | caneVMax _ => rw [exec_caneVMax, execCaneVMax_mem]; exact h
  | caneVAnd _ => rw [exec_caneVAnd, execCaneVAnd_mem]; exact h
  | caneVOr _ => rw [exec_caneVOr, execCaneVOr_mem]; exact h
  | caneVXor _ => rw [exec_caneVXor, execCaneVXor_mem]; exact h
  | caneVAndn _ => rw [exec_caneVAndn, execCaneVAndn_mem]; exact h
  | caneVShl _ => rw [exec_caneVShl, execCaneVShl_mem]; exact h
  | caneVShr _ => rw [exec_caneVShr, execCaneVShr_mem]; exact h
  | caneVSar _ => rw [exec_caneVSar, execCaneVSar_mem]; exact h
  | caneVCmp _ => rw [exec_caneVCmp, execCaneVCmp_mem]; exact h
  | caneVMov _ => rw [exec_caneVMov, execCaneVMov_mem]; exact h
  | caneVLi _ => rw [exec_caneVLi, execCaneVLi_mem]; exact h
  | cPush _ => rw [exec_cPush, execCPush_mem]; exact h
  | cElse _ => rw [exec_cElse, execCElse_mem]; exact h
  | cPop _ => rw [exec_cPop, execCPop_mem]; exact h
  | cBfa _ => rw [exec_cBfa, execCBfa_mem]; exact h
  | netSend _ => rw [exec_netSend, execNetSend_mem]; exact h
  | netGet _ => rw [exec_netGet, execNetGet_mem]; exact h
  | netArm _ => rw [exec_netArm, execNetArm_mem]; exact h
  | cntInit _ => rw [exec_cntInit, execCntInit_mem]; exact h
  | cntWait _ => rw [exec_cntWait, execCntWait_mem]; exact h
  | cntGet _ => rw [exec_cntGet, execCntGet_mem]; exact h
  | collStep _ => rw [exec_collStep, execCollStep_mem]; exact h
  | trap _ => rw [exec_trap, execTrap_mem]; exact h
  | rte _ => rw [exec_rte, execRte_mem]; exact h
  | sysGet _ => rw [exec_sysGet, execSysGet_mem]; exact h
  | sysSet _ => rw [exec_sysSet, execSysSet_mem]; exact h
  | bkpt _ => rw [exec_bkpt, execBkpt_mem]; exact h
  | prio _ => rw [exec_prio, execPrio_mem]; exact h
  | nop _ => rw [exec_nop, execNop_mem]; exact h
  | halt _ => rw [exec_halt, execHalt_mem]; exact h
  | pairVAdd _ => rw [exec_pairVAdd, execPairVAdd_mem]; exact h
  | pairVSub _ => rw [exec_pairVSub, execPairVSub_mem]; exact h
  | pairVMul _ => rw [exec_pairVMul, execPairVMul_mem]; exact h
  | pairVMulh _ => rw [exec_pairVMulh, execPairVMulh_mem]; exact h
  | pairVAbsd _ => rw [exec_pairVAbsd, execPairVAbsd_mem]; exact h
  | pairVMin _ => rw [exec_pairVMin, execPairVMin_mem]; exact h
  | pairVMax _ => rw [exec_pairVMax, execPairVMax_mem]; exact h
  | pairVAnd _ => rw [exec_pairVAnd, execPairVAnd_mem]; exact h
  | pairVOr _ => rw [exec_pairVOr, execPairVOr_mem]; exact h
  | pairVXor _ => rw [exec_pairVXor, execPairVXor_mem]; exact h
  | pairVAndn _ => rw [exec_pairVAndn, execPairVAndn_mem]; exact h
  | pairVShl _ => rw [exec_pairVShl, execPairVShl_mem]; exact h
  | pairVShr _ => rw [exec_pairVShr, execPairVShr_mem]; exact h
  | pairVSar _ => rw [exec_pairVSar, execPairVSar_mem]; exact h
  | pairVMov _ => rw [exec_pairVMov, execPairVMov_mem]; exact h
  | pairVClz _ => rw [exec_pairVClz, execPairVClz_mem]; exact h
  | pairVPopc _ => rw [exec_pairVPopc, execPairVPopc_mem]; exact h
  | pairVFadd _ => rw [exec_pairVFadd, execPairVFadd_mem]; exact h
  | pairVFsub _ => rw [exec_pairVFsub, execPairVFsub_mem]; exact h
  | pairVFmul _ => rw [exec_pairVFmul, execPairVFmul_mem]; exact h
  | pairVFmin _ => rw [exec_pairVFmin, execPairVFmin_mem]; exact h
  | pairVFmax _ => rw [exec_pairVFmax, execPairVFmax_mem]; exact h
  | pairVFrnd _ => rw [exec_pairVFrnd, execPairVFrnd_mem]; exact h
  | pairVFclass _ => rw [exec_pairVFclass, execPairVFclass_mem]; exact h
  | atinv _ => rw [exec_atinv, execAtinv_mem]; exact h
  | accessTableInvalidationDone => rw [exec_accessTableInvalidationDone, execAccessTableInvalidationDone_mem]; exact h
  | wake _ => rw [exec_wake, execWake_mem]; exact h
  | launchRecordCheck _ _ => rw [exec_launchRecordCheck, execLaunchRecordCheck_mem]; exact h
  | gridStart _ _ => rw [exec_gridStart, execGridStart_mem]; exact h
  | clusterPlacement _ => rw [exec_clusterPlacement, execClusterPlacement_mem]; exact h
  | taskGroupFormation _ _ _ => rw [exec_taskGroupFormation, execTaskGroupFormation_mem]; exact h
  | gatherWindowExpiry _ _ _ => rw [exec_gatherWindowExpiry, execGatherWindowExpiry_mem]; exact h
  | taskGroupPlacement _ _ => rw [exec_taskGroupPlacement, execTaskGroupPlacement_mem]; exact h
  | taskSteal _ _ => rw [exec_taskSteal, execTaskSteal_mem]; exact h
  | candidatePick _ _ => rw [exec_candidatePick, execCandidatePick_mem]; exact h
  | icacheFill _ _ => rw [exec_icacheFill, execIcacheFill_mem]; exact h
  | spinFloorTimeout _ _ => rw [exec_spinFloorTimeout, execSpinFloorTimeout_mem]; exact h
  | loadResultWrite _ _ => rw [exec_loadResultWrite, execLoadResultWrite_mem]; exact h
  | wcbTimeout _ => rw [exec_wcbTimeout, execWcbTimeout_mem]; exact h
  | homeStorePerform a0 => rw [exec_homeStorePerform]; exact execHomeStorePerform_wf a0 s h
  | l1RecallReceive _ => rw [exec_l1RecallReceive, execL1RecallReceive_mem]; exact h
  | recallBeat _ => rw [exec_recallBeat, execRecallBeat_mem]; exact h
  | beatReceive _ _ => rw [exec_beatReceive, execBeatReceive_mem]; exact h
  | beatTimeout _ _ => rw [exec_beatTimeout, execBeatTimeout_mem]; exact h
  | homeAtomicPerform a0 => rw [exec_homeAtomicPerform]; exact execHomeAtomicPerform_wf a0 s h
  | l2Fill _ _ => rw [exec_l2Fill, execL2Fill_mem]; exact h
  | towerWriteAck _ => rw [exec_towerWriteAck, execTowerWriteAck_mem]; exact h
  | farAtomicAtHome _ => rw [exec_farAtomicAtHome, execFarAtomicAtHome_mem]; exact h
  | farAtomicTowerCheck _ => rw [exec_farAtomicTowerCheck, execFarAtomicTowerCheck_mem]; exact h
  | farAtomicAnswer _ => rw [exec_farAtomicAnswer, execFarAtomicAnswer_mem]; exact h
  | farAtomicApply a0 => rw [exec_farAtomicApply]; exact execFarAtomicApply_wf a0 s h
  | pageWalkComplete _ => rw [exec_pageWalkComplete, execPageWalkComplete_mem]; exact h
  | sfuResultWrite _ => rw [exec_sfuResultWrite, execSfuResultWrite_mem]; exact h
  | fusionWindowTimeout _ => rw [exec_fusionWindowTimeout, execFusionWindowTimeout_mem]; exact h
  | matrixPassStart _ => rw [exec_matrixPassStart, execMatrixPassStart_mem]; exact h
  | matrixPassWriteback _ => rw [exec_matrixPassWriteback, execMatrixPassWriteback_mem]; exact h
  | tileTransferComplete _ => rw [exec_tileTransferComplete, execTileTransferComplete_mem]; exact h
  | copyComplete a0 => rw [exec_copyComplete]; exact execCopyComplete_wf a0 s h
  | copyFault a0 => rw [exec_copyFault]; exact execCopyFault_wf a0 s h
  | haloSourceRead _ => rw [exec_haloSourceRead, execHaloSourceRead_mem]; exact h
  | cpMcDelivery _ _ => rw [exec_cpMcDelivery, execCpMcDelivery_mem]; exact h
  | regroupPair _ _ => rw [exec_regroupPair, execRegroupPair_mem]; exact h
  | napTimeout _ _ => rw [exec_napTimeout, execNapTimeout_mem]; exact h
  | serviceEventSignal _ => rw [exec_serviceEventSignal, execServiceEventSignal_mem]; exact h
  | groupRetire _ => rw [exec_groupRetire, execGroupRetire_mem]; exact h
  | taskCounterAdd a0 => rw [exec_taskCounterAdd]; exact execTaskCounterAdd_wf a0 s h
  | gridDoneAdd a0 a1 => rw [exec_gridDoneAdd]; exact execGridDoneAdd_wf a0 a1 s h
  | towerBlockComplete a0 => rw [exec_towerBlockComplete]; exact execTowerBlockComplete_wf a0 s h
  | towerScrub _ _ => rw [exec_towerScrub, execTowerScrub_mem]; exact h
  | towerCaneSwitch _ _ => rw [exec_towerCaneSwitch, execTowerCaneSwitch_mem]; exact h
  | netReceive a0 => rw [exec_netReceive]; exact execNetReceive_wf a0 s h
  | receiveCounterIncrement _ => rw [exec_receiveCounterIncrement, execReceiveCounterIncrement_mem]; exact h
  | netGetLand a0 a1 => rw [exec_netGetLand]; exact execNetGetLand_wf a0 a1 s h
  | errorArrival a0 => rw [exec_errorArrival]; exact execErrorArrival_wf a0 s h
  | stationOperation a0 => rw [exec_stationOperation]; exact execStationOperation_wf a0 s h
  | collChunkFireAtRetire _ => rw [exec_collChunkFireAtRetire, execCollChunkFireAtRetire_mem]; exact h
  | collResultLand a0 a1 => rw [exec_collResultLand]; exact execCollResultLand_wf a0 a1 s h
  | collAbortReceive _ _ => rw [exec_collAbortReceive, execCollAbortReceive_mem]; exact h
  | holdSend _ => rw [exec_holdSend, execHoldSend_mem]; exact h
  | reductionMessageDrop _ => rw [exec_reductionMessageDrop, execReductionMessageDrop_mem]; exact h
  | unsupportedPacketDrop _ => rw [exec_unsupportedPacketDrop, execUnsupportedPacketDrop_mem]; exact h
  | portLinkDrop a0 => rw [exec_portLinkDrop]; exact execPortLinkDrop_wf a0 s h
  | portRetryTimeout a0 => rw [exec_portRetryTimeout]; exact execPortRetryTimeout_wf a0 s h
  | portRetrain a0 => rw [exec_portRetrain]; exact execPortRetrain_wf a0 s h
  | destinationUnreachable _ _ => rw [exec_destinationUnreachable, execDestinationUnreachable_mem]; exact h
  | preemptSave a0 => rw [exec_preemptSave]; exact execPreemptSave_wf a0 s h
  | watchdogExpiry _ => rw [exec_watchdogExpiry, execWatchdogExpiry_mem]; exact h
  | externalWaitTimeout _ _ => rw [exec_externalWaitTimeout, execExternalWaitTimeout_mem]; exact h
  | culletSwap a0 => rw [exec_culletSwap]; exact execCulletSwap_wf a0 s h
  | timeSyncLoss a0 => rw [exec_timeSyncLoss]; exact execTimeSyncLoss_wf a0 s h
  | sensorSample _ => rw [exec_sensorSample, execSensorSample_mem]; exact h
  | powerGood a0 => rw [exec_powerGood]; exact execPowerGood_wf a0 s h
  | functionReady a0 => rw [exec_functionReady]; exact execFunctionReady_wf a0 s h
  | powerOff => rw [exec_powerOff]; exact execPowerOff_wf  s h
  | firmwareStage _ _ => rw [exec_firmwareStage, execFirmwareStage_mem]; exact h
  | firmwareCommit a0 => rw [exec_firmwareCommit]; exact execFirmwareCommit_wf a0 s h
  | operatorKeyWrite _ _ _ => rw [exec_operatorKeyWrite, execOperatorKeyWrite_mem]; exact h
  | jobSetup _ => rw [exec_jobSetup, execJobSetup_mem]; exact h
  | contextCreate a0 => rw [exec_contextCreate]; exact execContextCreate_wf a0 s h
  | contextDestroy _ => rw [exec_contextDestroy, execContextDestroy_mem]; exact h
  | caneGrant _ => rw [exec_caneGrant, execCaneGrant_mem]; exact h
  | caneReturn _ => rw [exec_caneReturn, execCaneReturn_mem]; exact h
  | memoryMap a0 => rw [exec_memoryMap]; exact execMemoryMap_wf a0 s h
  | memoryUnmap a0 => rw [exec_memoryUnmap]; exact execMemoryUnmap_wf a0 s h
  | memoryWrite a0 => rw [exec_memoryWrite]; exact execMemoryWrite_wf a0 s h
  | memoryRead _ => rw [exec_memoryRead, execMemoryRead_mem]; exact h
  | launchQueueWrite _ => rw [exec_launchQueueWrite, execLaunchQueueWrite_mem]; exact h
  | treeCreate _ => rw [exec_treeCreate, execTreeCreate_mem]; exact h
  | treeFree _ => rw [exec_treeFree, execTreeFree_mem]; exact h
  | preEmpt _ => rw [exec_preEmpt, execPreEmpt_mem]; exact h
  | resume _ => rw [exec_resume, execResume_mem]; exact h
  | telemetry _ => rw [exec_telemetry, execTelemetry_mem]; exact h
  | attest _ => rw [exec_attest, execAttest_mem]; exact h
  | power a0 => rw [exec_power]; exact execPower_wf a0 s h
  | breakpointResume _ => rw [exec_breakpointResume, execBreakpointResume_mem]; exact h
  | completionTimePassed => rw [exec_completionTimePassed, execCompletionTimePassed_mem]; exact h
  | remoteGetRequest _ => rw [exec_remoteGetRequest, execRemoteGetRequest_mem]; exact h
  | cxlWriteAck _ => rw [exec_cxlWriteAck, execCxlWriteAck_mem]; exact h
  | remoteSendSourceRelease _ => rw [exec_remoteSendSourceRelease, execRemoteSendSourceRelease_mem]; exact h
  | remoteStoreAck _ => rw [exec_remoteStoreAck, execRemoteStoreAck_mem]; exact h
  | malformedServiceMessage _ => rw [exec_malformedServiceMessage, execMalformedServiceMessage_mem]; exact h

end Sys2Proof.Laws
end

