-- ==== Sys2Proof/Laws/Word.lean ====
section
/-! SUPPORT. How a word runs: one lemma per shared operation of Machine/Ops.lean and Machine/Check.lean that says all it can do. -/

namespace Sys2Proof.Laws
open Sys2Proof Sys2Proof.Machine

/-- The issuing slot belongs to a group of the state. -/
theorem issuer_some {s : State} {w : W64} {m : Nat} {p : Bool} {x : Issue} (h : issuer s w m p = some x) :
    s.focus = .word x.g.gid x.b ∧ getG s x.g.gid = some x.g ∧ x.exec = (slotOf x.g x.b).mask ∧ x.w = w := by
  unfold issuer at h
  split at h
  · next gid b hf =>
    simp only [Option.map_eq_some_iff] at h
    obtain ⟨g, hg, rfl⟩ := h
    have := getG_gid hg
    subst this
    exact ⟨hf, hg, rfl, rfl⟩
  · simp at h

/-- A word that issues normally runs its body. -/
theorem runWord_issues {s : State} {i : Instr} {x : Issue} (h : Issues s i x) (body : State → Issue → Res) :
    runWord i (mselOf i) (perLaneOf i) s body = .next (settle x false (body s x)) := by
  obtain ⟨h1, h2, h3⟩ := h
  simp [runWord, h1, h2, h3]

/-- The same, for the mask select and lane use that the word's meaning names. -/
theorem runWord_normal {s : State} {i : Instr} {x : Issue} {m : Nat} {p : Bool} (h : Issues s i x) (hm : m = mselOf i) (hp : p = perLaneOf i)
    (body : State → Issue → Res) : runWord i m p s body = .next (settle x false (body s x)) := by
  subst hm hp; exact runWord_issues h body

/-- A half that issues normally runs its body. -/
theorem runHalf_issues {s : State} {x : Issue} (h : HalfIssues s x) (body : State → Issue → Res) :
    runHalf s body = .next (settle x true (body s x)) := by
  obtain ⟨h1, h2, h3⟩ := h
  simp only [runHalf, h1, h2]
  rcases h3 with h3 | h3
  · simp only [h3, if_true]
  · simp only [h3, ite_self]

@[simp] theorem settle_ok (x : Issue) (s1 : State) : settle x false (.ok s1) = performed x s1 := by simp [settle, performed]
@[simp] theorem settle_okHalf (x : Issue) (s1 : State) : settle x true (.ok s1) = performedHalf x s1 := by simp [settle, performedHalf]
@[simp] theorem settle_jump (x : Issue) (s1 : State) (t : Nat) : settle x false (.jump s1 t) = jumped x s1 t := rfl
@[simp] theorem settle_park (x : Issue) (p : Bool) (s1 : State) (k : Park) : settle x p (.park s1 k) = parked x s1 k := rfl
@[simp] theorem settle_bad (x : Issue) (p : Bool) (s1 : State) (f : FInfo) : settle x p (.bad s1 f) = raised x s1 f := rfl
@[simp] theorem settle_done (x : Issue) (p : Bool) (s1 : State) : settle x p (.done s1) = s1 := rfl

/-- A scalar word that issues normally writes its function of its sources to d (R236). -/
theorem scalarWord_normal {s : State} {i : Instr} {x : Issue} (h : Issues s i x) (hm : mselOf i = 0) (hp : perLaneOf i = false) (w : SWord)
    (f : Issue → W64 → W64 → W64) :
    scalarWord i w s f = .next (performed x (putG s (ws x.g w.d.toNat (f x (rs x.g w.a.toNat) (srcB x.g w))))) := by
  unfold scalarWord
  rw [runWord_normal h hm.symm hp.symm]
  simp [okG]

/-- Changing the partitions changes nothing else. -/
theorem putPart_eq (s : State) (p : Part) : ∃ ps, putPart s p = withParts s ps := by
  unfold putPart; split <;> exact ⟨_, rfl⟩

theorem leavePart_eq (s : State) (g : Group) (b : Bool) : ∃ ps, leavePart s g b = withParts s ps := putPart_eq _ _
theorem rotatePart_eq (s : State) (g : Group) (b : Bool) : ∃ ps, rotatePart s g b = withParts s ps := by
  simp only [rotatePart]; split
  · exact leavePart_eq _ _ _
  · exact putPart_eq _ _

theorem switchPark_cases (s : State) (g : Group) (sw : Bool) : switchPark s g sw = none ∨ sw = true ∧ switchPark s g sw = some .marker := by
  cases sw
  · exact .inl (by simp [switchPark, markHolds])
  · unfold switchPark
    split
    · exact .inr ⟨rfl, rfl⟩
    · exact .inl rfl

/-- A performed word moves its slot on by one word and changes nothing else (R207). -/
theorem advance_moved {s1 : State} {gid : Nat} {b sw : Bool} {g : Group} (h : getG s1 gid = some g) :
    Moved s1 gid b sw (advance s1 gid b false sw) := by
  unfold advance
  simp only [h, Bool.false_and, Bool.false_eq_true, if_false]
  split
  · obtain ⟨ps, hp⟩ := rotatePart_eq (putG s1 (setSlot (setReplay g b none) b (slotAfter (slotOf g b) (switchPark s1 g sw)
      (if (decide ((slotOf g b).idx < fld (slotOf g b).hdr.toNat 60 4) && !sw) = true then (slotOf g b).waitSince else s1.time))))
      (setReplay g b none) b
    exact ⟨g, _, _, ps, h, switchPark_cases s1 g sw, hp⟩
  · obtain ⟨ps, hp⟩ := leavePart_eq (putG s1 (setSlot (setReplay g b none) b (slotAfter (slotOf g b) (switchPark s1 g sw)
      (if (decide ((slotOf g b).idx < fld (slotOf g b).hdr.toNat 60 4) && !sw) = true then (slotOf g b).waitSince else s1.time))))
      (setReplay g b none) b
    exact ⟨g, _, _, ps, h, switchPark_cases s1 g sw, hp⟩

/-- A transfer sets the slot to start at its target and changes nothing else (R244). -/
theorem jumpTo_transferred {s1 : State} {gid : Nat} {b sw : Bool} {t : Nat} {g : Group} (h : getG s1 gid = some g) :
    Transferred s1 gid b sw t (jumpTo s1 gid b t sw) := by
  unfold jumpTo
  simp only [h]
  obtain ⟨ps, hp⟩ := leavePart_eq (putG s1 (setSlot (setReplay g b none) b (slotJump (slotOf g b) t (switchPark s1 g sw)
    s1.time))) (setReplay g b none) b
  exact ⟨g, _, _, ps, h, switchPark_cases s1 g sw, hp⟩

/-- Before its second half, a half of a pair word leaves its slot at the word, with the half marked as done (R229). -/
theorem advance_first_half {s1 : State} {gid : Nat} {b : Bool} {g : Group} (h : getG s1 gid = some g) (hh : (slotOf g b).half = false) :
    advance s1 gid b true false = putG s1 (setSlot (setReplay g b none) b (halfDone (slotOf g b))) := by
  simp [advance, h, hh]

end Sys2Proof.Laws
end

