-- ==== Sys2Proof/Tests/Slice0.lean ====
section
/-! SUPPORT. The model's own tests: words written out from the specification decode to what they stand for; ill-formed terms are refused;
single steps on small states give the results the specification works out; and for every statement with hypotheses a concrete state and
operands that meet them. -/

namespace Sys2Proof.Tests
open Sys2Proof Sys2Proof.Machine
set_option Elab.async false

/-! Short ways to write a word. -/

def tS (d a : BitVec 6) (src : SSrc) (f7 : BitVec 7) : SWord := { sw := false, msel := 0, d, a, src, f7 }
def tC (ra cf : BitVec 6) (off : BitVec 40) : CWord := { sw := false, msel := 0, ra, cf, off }
def tV (m rc d a b c : Nat) (ty : BitVec 5) (fn : BitVec 7) : VWord :=
  { sw := false, msel := BitVec.ofNat 3 m, rows := BitVec.ofNat 2 (rc / 4), cols := BitVec.ofNat 2 rc, d := BitVec.ofNat 9 d,
    a := BitVec.ofNat 9 a, b := BitVec.ofNat 9 b, c := BitVec.ofNat 9 c, ty, fn }
def tM (data index : BitVec 9) (base : BitVec 5) (off : BitVec 20) (width order : BitVec 2) (scope : BitVec 3) : MWord :=
  { sw := false, msel := 0, data, index, base, off, width, order, scope, hint := 0 }
def tX (m : BitVec 3) (tile : BitVec 5) (a : BitVec 9) (base : BitVec 6) (off : BitVec 20) (slot : BitVec 3) (wa wb : BitVec 2) (bit4 : Bool) :
    XWord :=
  { sw := false, msel := m, tile, a, base, off, slot, wa, wb, bit4, sat := false, mix := false, rsv := 0 }
def tT (m : BitVec 3) (sa sb sc : BitVec 6) (row : BitVec 10) (wm1 : BitVec 6) (ty : BitVec 5) (f8 : BitVec 8) : TWord :=
  { sw := false, msel := m, sa, sb, sc, start := 0, row, wm1, ty, f8 }
def tN (sa sb sc sd : BitVec 6) (dev : BitVec 16) (f12 : BitVec 12) : NWord := { sw := false, msel := 0, sa, sb, sc, sd, dev, f12 }
def tY (d a : BitVec 6) (sreg : BitVec 16) (imm24 : BitVec 24) : YWord := { sw := false, msel := 0, d, a, sreg, imm24 }
def tK (d a b : BitVec 10) (wm1 wam1 wbm1 : BitVec 6) (i s : Bool) (cc : BitVec 3) : CaneCmd :=
  { d, a, b, wm1, wam1, wbm1, i, s, sat := false, cc, rsv := 0 }

/-! Decoding: words that the specification writes out. -/

/-- Files 09, 15, 16 and 18. -/
theorem test_decode_scalar_and_control :
    ([(0x1908E04D5E6F7800#64, .sLi (tS 7 0 (.imm 0x9ABCDEF0) 0)), (0x1A08E3891A2B3C00#64, .sLih (tS 7 7 (.imm 0x12345678) 0)),
      (0x160144800000_0001#64, .sCmp (tS 10 9 (.reg 0 0 0) 1)), (0x0B09650000001000#64, .sShl (tS 11 10 (.imm 32) 0)),
      (0x0A08950000000780#64, .sAndn (tS 4 42 (.imm 15) 0)), (0x1E0241FFFFFFFFFC#64, .bc (tC 9 1 0xFFFFFFFFFC)),
      (0x1D0000FFFFFFFFED#64, .br (tC 0 0 0xFFFFFFFFED)), (0x26000CFFFFFFFFF2#64, .loop (tC 0 12 0xFFFFFFFFF2)),
      (0x2000000000000004#64, .join (tC 0 0 4)), (0x2700000000000000#64, .exit (tS 0 0 (.reg 0 0 0) 0)),
      (0x2A07B2DA42834101#64, .regroup (tV 0 7 357 361 20 52 2 1)), (0xF20A800105000000#64, .sysGet (tY 42 0 0x105 0)),
      (0xF100000000000000#64, .rte (tY 0 0 0 0))] : List (W64 × Instr)).all (fun p => decodeWord p.1 == some p.2) = true := by
  decide +kernel

/-- Files 08, 10, 15 and 24. -/
theorem test_decode_vector :
    ([(0x3036110088400180#64, .vAdd (tV 3 6 34 2 66 0 3 0)), (0x30200381C1200581#64, .vAdd (tV 2 0 7 7 9 0 11 1)),
      (0x4C0114022C638301#64, .vFma (tV 0 1 40 8 355 56 6 1)), (0x610700000100_8103#64, .xBfly (tV 0 7 0 0 8 8 2 3)),
      (0x6300018200000008#64, .xScan (tV 0 0 3 8 0 0 0 8)), (0x4700045900000101#64, .vFroms (tV 0 0 8 356 0 0 2 1)),
      (0x4800BA0240000101#64, .vTos (tV 0 0 372 9 0 0 2 1)), (0x3D00010040008101#64, .vShr (tV 0 0 2 1 0 8 2 1))] : List (W64 × Instr)).all
      (fun p => decodeWord p.1 == some p.2) = true := by decide +kernel

/-- File 08: the two halves of a pair word, and a cane command of file 13 and of file 17. -/
theorem test_decode_halves_and_commands :
    decodeHalf 0x02004103#32 = some (.pairVAdd { ctype := 4, rsv := 0, d := 1, a := 2, b := 3 }) ∧
    decodeHalf 0x9C020202#32 = some (.pairVFmul { ctype := 8, rsv := 0, d := 8, a := 4, b := 2 }) ∧
    decodeCane 0x4618000000F000C0#64 = some (.caneVLi (tK 96 0 0 15 0 0 true true 0)) ∧
    decodeCane 0x441C060040F000D4#64 = some (.caneVCmp (tK 112 96 16 15 0 0 true true 5)) ∧
    decodeCane 0xD800070000000000#64 = some (.cPush (tK 0 112 0 0 0 0 false false 0)) ∧
    decodeCane 0xD900000000000000#64 = some (.cElse (tK 0 0 0 0 0 0 false false 0)) := by decide +kernel

/-- Files 11, 15, 16, 17 and 24. -/
theorem test_decode_memory_and_copies :
    ([(0x700067FCA00081B0#64, .ldG (tM 12 511 5 0x40 3 1 4)), (0x7100102860000100#64, .stG (tM 2 10 3 0 2 0 0)),
      (0x730B6FFE600001D0#64, .stS (tM 365 511 19 0 3 2 4)), (0x761017FC800001B0#64, .ldX { tM 2 511 4 0 3 1 4 with msel := 1 }),
      (0x800005008080_6AF0#64, .atCas2 (tV 0 0 10 2 4 6 21 0x70)), (0x772003016E400190#64, .atAdd (tV 2 0 6 5 370 0 3 0x10)),
      (0x9103200000000000#64, .lrAwait (tS 25 0 (.reg 0 0 0) 0)), (0x9401220C38000007#64, .cpIn (tS 9 4 (.reg 6 7 0) 7)),
      (0x95000F0B00000000#64, .cpOut (tS 0 30 (.reg 5 32 0) 0))] : List (W64 × Instr)).all (fun p => decodeWord p.1 == some p.2) = true := by
  decide +kernel

/-- Files 12, 13, 16, 17 and 18. -/
theorem test_decode_engines :
    ([(0xB0018305004004D0#64, .mxMma (tX 0 3 12 5 0x400 2 1 2 true)), (0xB110820D00000140#64, .mxMmaf (tX 1 1 8 13 0 0 2 2 false)),
      (0xB490000000400000#64, .mxSt { tX 1 0 0 0 0x400 0 0 0 false with sw := true }), (0xC3000D8000000000#64, .fbSet (tS 0 27 (.reg 0 0 0) 0)),
      (0xC500E31E40000000#64, .ebSend (tS 7 6 (.reg 15 8 0) 0)), (0xC600810600000880#64, .paOpen (tS 4 2 (.reg 3 0 0x11) 0)),
      (0xC700011000000900#64, .paClose (tS 0 2 (.reg 8 0 0x12) 0)), (0xC900012A00000800#64, .acWait (tS 0 2 (.reg 21 0 0x10) 0)),
      (0xCA00011108000800#64, .wvCommit (tS 0 2 (.reg 8 33 0x10) 0)), (0xD013082802007101#64, .twXin (tT 1 12 8 10 64 3 17 1)),
      (0xD2154828_00000000#64, .twRun (tT 1 21 8 10 0 0 0 0)), (0xD3000B0000000000#64, .twWait (tT 0 0 11 0 0 0 0 0)),
      (0xD40000_00C0800300#64, .farAdd (tV 0 0 0 3 4 0 6 0)), (0xE203_8E0CD0000204#64, .netArm (tN 14 14 3 13 0 0x204)),
      (0xE402800000000006#64, .cntWait (tN 10 0 0 0 0 6))] : List (W64 × Instr)).all (fun p => decodeWord p.1 == some p.2) = true := by
  decide +kernel

/-- R233: an opcode no row names, and the sequencer's opcodes in a core's word. -/
theorem test_decode_refuses : decodeWord 0#64 = none ∧ decodeWord 0xFF00000000000000#64 = none ∧ decodeWord 0xD800070000000000#64 = none ∧
    decodeHalf 0xC0000000#32 = none ∧ decodeCane 0x0100A30E00000000#64 = none := by decide +kernel

/-- R409: kstart's word `bc.le s21, open` as `step` fetches it, and a half and a command of the tables. -/
theorem test_decode_table_word : decodeTableWord 64 0x1E05440000000012 = some (.bc (tC 21 4 18)) ∧
    decodeTableWord 32 0x02004103 = some (.pairVAdd { ctype := 4, rsv := 0, d := 1, a := 2, b := 3 }) ∧
    decodeTableWord 64 0xDA00000000000000 = some (.cPop (tK 0 0 0 0 0 0 false false 0)) := by decide +kernel

/-! Ill-formed terms: one for each check. -/

theorem test_wellFormed_refuses :
    ([.lrFill (tS 5 6 (.reg 0 0 0) 1), .lrFillPut (tS 0 6 (.reg 7 0 0) 0), .plPass (tX 0 3 0 0 0 0 0 0 true), .plPassFree (tX 0 0 0 0 0 0 0 0 false),
      .fbTab (tV 0 0 0 17 0 0 9 1), .fbTabSet (tV 0 0 0 17 0 0 9 0), .paOpen (tS 5 6 (.reg 7 0 0) 1), .paOpenRp (tS 5 6 (.reg 7 0 0) 0),
      .sysSet (tY 0 6 0x8011 0), .sysSet (tY 0 6 0x8021 0), .atinv (tY 0 6 0x8010 0), .wake (tY 0 6 0x8020 0), .launchRecordCheck 4096 0,
      .gridStart 1 16, .taskGroupFormation 1 1 104, .gatherWindowExpiry 4096 1 0, .taskGroupPlacement 104 0, .taskSteal 1 104,
      .candidatePick 0 4, .recallBeat 4, .beatReceive 104 0, .beatTimeout 0 4, .gridDoneAdd 4096 1, .towerScrub 16 none, .towerCaneSwitch 0 8,
      .holdSend 4096, .unsupportedPacketDrop 8, .portLinkDrop 8, .portRetryTimeout 8, .portRetrain 8, .preemptSave 4096, .watchdogExpiry 4096,
      .timeSyncLoss 4, .functionReady 130, .culletSwap (.core 0 28), .culletSwap (.slice 0 256), .culletSwap (.arrayLine 16 0 true 0),
      .culletSwap (.dramRow 16 0), .culletSwap (.linkLane 256)] : List Instr).all (fun i => !i.wellFormed) = true := by decide +kernel

end Sys2Proof.Tests

namespace Sys2Proof.Tests
open Sys2Proof Sys2Proof.Machine
set_option Elab.async false

/-! Single steps. -/

/-- A state that issues one word: `h` sets up the group, `f` the rest. -/
def tst (f : State → State) (h : Group → Group) (i : Instr) : State :=
  let s := withWord State.reset false ((encode i).getD 0#64)
  f { s with groups := s.groups.map h }

/-- The word issues, its checks pass (`Issues`), and `h` holds of the issue. -/
def okW (s : State) (i : Instr) (h : Issue → Bool) : Bool :=
  match issuer s ((encode i).getD 0#64) (mselOf i) (perLaneOf i) with
  | some x => (headerFault s x.g x.b).isNone && (wordFault x.g x.slot i x.w.toNat).isNone && h x
  | none => false

theorem okW_issues {s : State} {i : Instr} {h : Issue → Bool} (k : okW s i h = true) : ∃ x, Issues s i x ∧ h x = true := by
  unfold okW at k
  split at k
  · rename_i x e
    simp only [Bool.and_eq_true, Option.isNone_iff_eq_none] at k
    exact ⟨x, ⟨e, k.1.1, k.1.2⟩, k.2⟩
  · cases k

/-- The state after the word, and its group. -/
def aft (s : State) (i : Instr) : State := match exec i s with | .next t => t | _ => s
def gOf (s : State) : Group := (getG s soloGid).getD (soloGroup false 0#64)
/-- The group after a word issued by a group that `h` sets up. -/
def aftG (h : Group → Group) (i : Instr) : Group := gOf (aft (tst id h i) i)

def two (a b : W64) (g : Group) : Group := ws (ws g 6 a) 7 b
def r7 : SSrc := .reg 7 0 0

/-- Hand calculation from R238 to R241: s5 after the word, with s6 and s7 given. -/
theorem test_scalar_results : ([
    (.sAdd (tS 5 6 r7 0), 0xFFFFFFFFFFFFFFFF, 2, 1), (.sAdd (tS 5 6 (.imm 0xFFFFFFF4) 0), 5, 0, 0xFFFFFFFFFFFFFFF9),
    (.sSub (tS 5 6 r7 0), 1, 2, 0xFFFFFFFFFFFFFFFF), (.sMul (tS 5 6 r7 0), 0x100000001, 0x100000000, 0x100000000),
    (.sMulh (tS 5 6 r7 0), 0xFFFFFFFFFFFFFFFF, 0xFFFFFFFFFFFFFFFF, 0), (.sMulh (tS 5 6 r7 1), 0xFFFFFFFFFFFFFFFF, 0xFFFFFFFFFFFFFFFF, 0xFFFFFFFFFFFFFFFE),
    (.sDiv (tS 5 6 r7 0), 0xFFFFFFFFFFFFFFF9, 2, 0xFFFFFFFFFFFFFFFD), (.sDiv (tS 5 6 r7 1), 7, 0, 0xFFFFFFFFFFFFFFFF),
    (.sRem (tS 5 6 r7 0), 0xFFFFFFFFFFFFFFF9, 2, 0xFFFFFFFFFFFFFFFF), (.sRem (tS 5 6 r7 0), 0x8000000000000000, 0xFFFFFFFFFFFFFFFF, 0),
    (.sAnd (tS 5 6 r7 0), 12, 10, 8), (.sOr (tS 5 6 r7 0), 12, 10, 14), (.sXor (tS 5 6 r7 0), 12, 10, 6), (.sAndn (tS 5 6 r7 0), 12, 10, 4),
    (.sShl (tS 5 6 r7 0), 1, 65, 2), (.sShr (tS 5 6 r7 0), 0x8000000000000000, 63, 1), (.sSar (tS 5 6 r7 0), 0x8000000000000000, 1, 0xC000000000000000),
    (.sMin (tS 5 6 r7 0), 1, 0xFFFFFFFFFFFFFFFF, 0xFFFFFFFFFFFFFFFF), (.sMin (tS 5 6 r7 1), 1, 0xFFFFFFFFFFFFFFFF, 1),
    (.sMax (tS 5 6 r7 0), 1, 0xFFFFFFFFFFFFFFFF, 1), (.sMax (tS 5 6 r7 1), 1, 0xFFFFFFFFFFFFFFFF, 0xFFFFFFFFFFFFFFFF),
    (.sClz (tS 5 6 (.reg 0 0 0) 0), 0, 0, 64), (.sClz (tS 5 6 (.reg 0 0 0) 0), 1, 0, 63), (.sPopc (tS 5 6 (.reg 0 0 0) 0), 0xF0F, 0, 8),
    (.sBfx (tS 5 6 (.reg 0 0 0xC4) 0), 0xF0, 0, 0xFFFFFFFFFFFFFFFF), (.sBfx (tS 5 6 (.reg 0 0 0xC4) 1), 0xF0, 0, 15),
    (.sBfi (tS 5 6 (.reg 7 0 0xC4) 0), 0xFFF, 2, 0xF2F), (.sSxt (tS 5 6 (.reg 0 0 7) 0), 0x180, 0, 0xFFFFFFFFFFFFFF80),
    (.sZxt (tS 5 6 (.reg 0 0 7) 0), 0x180, 0, 0x80), (.sCmp (tS 5 6 r7 2), 0xFFFFFFFFFFFFFFFF, 1, 1), (.sCmp (tS 5 6 r7 10), 0xFFFFFFFFFFFFFFFF, 1, 0),
    (.sSel (tS 5 6 (.reg 7 0 0) 0), 1, 2, 2), (.sMov (tS 5 6 (.reg 0 0 0) 0), 9, 0, 9), (.sLi (tS 5 0 (.imm 0x9ABCDEF0) 0), 0, 0, 0xFFFFFFFF9ABCDEF0),
    (.sLih (tS 5 6 (.imm 0x12345678) 0), 0xFFFFFFFF9ABCDEF0, 0, 0x123456789ABCDEF0), (.sLea (tS 5 6 (.reg 7 0 1) 3), 100, 2, 117),
    (.sLea (tS 5 6 (.imm 0xFFFFFFFF) 0), 100, 0, 99), (.sSr (tS 5 0 (.reg 0 0 6) 0), 0, 0, 0)] : List (Instr × Nat × Nat × Nat)).all
    (fun p => rs (aftG (two (BitVec.ofNat 64 p.2.1) (BitVec.ofNat 64 p.2.2.1)) p.1) 5 == BitVec.ofNat 64 p.2.2.2) = true := by decide +kernel

/-- Three pages of 1 GiB that the core and the towers translate, all of memory allowed to the context at every target. -/
def mapped (s : State) : State :=
  { s with time := 1000, tlb := [0, 128].flatMap (fun u => [0, 2 ^ 32 - 2 ^ 30, 2 ^ 32].map (fun va =>
             { unit := u, ctx := 1, va := va, size := 2 ^ 30, pa := va, rights := 7, rmost := false })),
           atTable := (List.range 60).map (fun k =>
             { target := k / 12, ctx := 1, eng := k % 12, base := 0, size := 2 ^ 44, rd := true, w := true, atomic := true }) }

/-- R245, R251: where a taken or a fallen-through word leaves its slot; this clause is at 2^32, the next at 2^32 + 16. -/
theorem test_transfers : ([(.br (tC 0 0 4), 0, 2 ^ 32 + 32), (.bc (tC 6 0 4), 0, 2 ^ 32 + 32), (.bc (tC 6 0 4), 1, 2 ^ 32 + 16),
    (.bc (tC 6 2 4), 2 ^ 64 - 1, 2 ^ 32 + 32), (.bc (tC 6 5 0xFFFFFFFFFC), 1, 2 ^ 32 - 32), (.loop (tC 0 6 4), 2, 2 ^ 32 + 32),
    (.loop (tC 0 6 4), 1, 2 ^ 32 + 16), (.call (tC 5 0 4), 0, 2 ^ 32 + 32), (.bx (tS 0 6 (.reg 0 0 0) 0), 64, 64),
    (.ret (tS 0 6 (.reg 0 0 0) 0), 64, 64), (.callx (tS 5 6 (.reg 0 0 0) 0), 64, 64), (.nop (tY 0 0 0 0), 0, 2 ^ 32 + 16)] :
    List (Instr × Nat × Nat)).all (fun p =>
      (gOf (aft (tst mapped (fun g => ws g 6 (BitVec.ofNat 64 p.2.1)) p.1) p.1)).slotA.clause == p.2.2) = true := by decide +kernel

end Sys2Proof.Tests

namespace Sys2Proof.Tests
open Sys2Proof Sys2Proof.Machine
set_option Elab.async false

/-- v17, v18 and v19 of lane 0, the one lane of the slot. -/
def three (a b c : Nat) (g : Group) : Group :=
  wv (wv (wv { g with slotA := { g.slotA with mask := 1#64 } } 17 0 (BitVec.ofNat 64 a)) 18 0 (BitVec.ofNat 64 b)) 19 0 (BitVec.ofNat 64 c)
/-- A word on v16 from v17, v18 and v19, of a type and function. -/
def vw (ty : BitVec 5) (fn : BitVec 7) : VWord := tV 0 0 16 17 18 19 ty fn
def vw2 (ty : BitVec 5) (fn : BitVec 7) : VWord := tV 0 0 16 17 18 0 ty fn
def vw1 (ty : BitVec 5) (fn : BitVec 7) : VWord := tV 0 0 16 17 0 0 ty fn
/-- v16 of lane 0 after each word is as expected. -/
def vecAll (l : List (Instr × Nat × Nat × Nat × Nat)) : Bool :=
  l.all (fun p => rv (aftG (three p.2.1 p.2.2.1 p.2.2.2.1) p.1) 16 0 == BitVec.ofNat 64 p.2.2.2.2)

/-- R274 to R278, by hand, with the example of R274 (100 + 60 at .sat.i8). -/
theorem test_vector_integer : vecAll [
    (.vAdd (vw2 11 1), 0x64000000, 0x3C000000, 0, 0x7F000000), (.vAdd (vw2 11 0), 0x64000000, 0x3C000000, 0, 0xA0000000),
    (.vSub (vw2 4 1), 1, 2, 0, 0), (.vSub (vw2 4 0), 1, 2, 0, 0xFFFFFFFF), (.vMul (vw2 3 0), 0xFFFFFFFF, 3, 0, 0xFFFFFFFD),
    (.vMulh (vw2 3 0), 0xFFFFFFFF, 3, 0, 0xFFFFFFFF), (.vMulh (vw2 4 0), 0xFFFFFFFF, 3, 0, 2), (.vMad (vw 3 0), 5, 6, 7, 37),
    (.vAbsd (vw2 11 0), 0x80, 0x7F, 0, 0xFF), (.vMin (vw2 11 0), 0x80, 0x7F, 0, 0x80), (.vMin (vw2 12 0), 0x80, 0x7F, 0, 0x7F),
    (.vMax (vw2 11 0), 0x80, 0x7F, 0, 0x7F), (.vMax (vw2 12 0), 0x80, 0x7F, 0, 0x80), (.vAnd (vw2 2 0), 12, 10, 0, 8), (.vOr (vw2 2 0), 12, 10, 0, 14),
    (.vXor (vw2 2 0), 12, 10, 0, 6), (.vAndn (vw2 2 0), 12, 10, 0, 4), (.vShl (vw2 5 0), 0x100000001, 0x0000002000000001, 0, 2),
    (.vShr (tV 0 0 16 17 0 8 2 1), 0x1234, 0, 0, 0x12), (.vSar (vw2 3 0), 0x80000000, 40, 0, 0xFFFFFFFF), (.vClz (vw1 8 0), 1, 0, 0, 0x001000100010000F),
    (.vPopc (vw1 13 0), 0xFF07, 0, 0, 0x0803), (.vBfx (tV 0 0 16 17 0 4 4 3), 0xF0, 0, 0, 0xF), (.vBfx (tV 0 0 16 17 0 4 3 3), 0xF0, 0, 0, 0xFFFFFFFF),
    (.vBfi (tV 0 0 16 17 18 4 4 3), 0xFFF, 2, 0, 0xF2F), (.vSel (vw 5 0), 1, 2, 0x100000000, 0x2),
    (.vCmp (vw2 3 2), 0xFFFFFFFF, 1, 0, 0xFFFFFFFF), (.vCmp (vw2 4 2), 0xFFFFFFFF, 1, 0, 0), (.vMov (vw1 2 0), 77, 0, 0, 77),
    (.vLi (tV 0 0 16 0 511 511 11 0), 0, 0, 0, 0xFFFFFFFFFFFFFFFF), (.vPack (vw2 3 0), 0x123456789, 0x2, 0, 0x0000000223456789),
    (.vPack (vw2 3 1), 0x123456789, 0x2, 0, 0x000000027FFFFFFF), (.vUnpack (vw1 3 0), 0x7FFFFFFF80000000, 0, 0, 0xFFFFFFFF80000000),
    (.vUnpack (vw1 3 1), 0x7FFFFFFF80000000, 0, 0, 0x7FFFFFFF)] = true := by decide +kernel

/-- R177 to R186, R280 to R285, by hand: 1 + 1, 3 - 1, 2 × 2, 1.5 × 2 + 1, NaN and infinity, 300.0 to .f8a. -/
theorem test_vector_float : vecAll [
    (.vFadd (vw2 6 0), 0x3F800000, 0x3F800000, 0, 0x40000000), (.vFadd (vw2 6 0), 0x7F800000, 0xFF800000, 0, 0x7FC00000),
    (.vFsub (vw2 9 0), 0x4040, 0x3F80, 0, 0x4000), (.vFmul (vw2 10 0), 0x4000, 0x4000, 0, 0x4400),
    (.vFma (vw 6 0), 0x3FC00000, 0x40000000, 0x3F800000, 0x40800000), (.vFma (vw 6 1), 0, 0x7F800000, 0x7FC00001, 0x7FC00001),
    (.vFmin (vw2 6 0), 0x80000000, 0, 0, 0x80000000), (.vFmax (vw2 6 0), 0x7FC00000, 0x3F800000, 0, 0x3F800000),
    (.vFcmp (vw2 6 2), 0x3F800000, 0x40000000, 0, 0xFFFFFFFF), (.vFcmp (vw2 6 2), 0x7FC00000, 0x40000000, 0, 0),
    (.vFrnd (vw1 6 0), 0x40200000, 0, 0, 0x40000000), (.vFrnd (vw1 6 3), 0x40200000, 0, 0, 0x40400000 - 0x400000), (.vFclass (vw1 6 0), 0xFF800000, 0, 0, 0x0000000600000002),
    (.vFclass (vw1 6 0), 1, 0, 0, 0x0000000600000007), (.vFdot2 (vw 10 0), 0x3C003C00, 0x40003C00, 0x3F800000, 0x40800000),
    (.vCvt (tV 0 0 16 17 1 6 14 0), 0x4396000000000000, 0, 0, 0x79000000), (.vCvt (tV 0 0 16 17 0 3 6 0), 0xFFFFFFFF, 0, 0, 0xBF800000)] = true := by
  decide +kernel

/-- R283, R186: the conversion of 300.0 raises inexact, bit 0 of FLAGS; opposite infinities raise invalid, bit 4 (R179). -/
theorem test_vector_flags : (aftG (three 0x4396000000000000 0 0) (.vCvt (tV 0 0 16 17 1 6 14 0))).flags = 1#5 ∧
    (aftG (three 0x7F800000 0xFF800000 0) (.vFadd (vw2 6 0))).flags = 16#5 := by decide +kernel

/-- R38, R33: a block of two registers in the lanes of m2; another lane, and the register beside the block, keep what they hold. -/
theorem test_vector_block_and_mask :
    (let g := aftG (fun g => wm (wv (wv (wv g 18 1 5#64) 16 3 9#64) 17 1 4#64) 2 2#64) (.vAdd (tV 2 1 16 17 17 0 0 0))
     (rv g 16 1, rv g 17 1, rv g 16 3, rv g 18 1)) = (8#64, 10#64, 9#64, 5#64) := by decide +kernel

/-- A group of eight lanes. -/
def eight (g : Group) : Group := { g with width := 8, slotA := { g.slotA with mask := 0xFF#64 } }
def lanes8 (r : Nat) (l : List Nat) (g : Group) : Group := l.zipIdx.foldl (fun g p => wv g r p.2 (BitVec.ofNat 64 p.1)) g

/-- The worked example of R296, file 10: an exclusive scan in the lanes of m1, and its inclusive form. -/
theorem test_scan :
    (let h := fun g => wm (lanes8 3 [70, 71, 72, 73, 74, 75, 76, 77] (lanes8 2 [3, 1, 4, 1, 5, 9, 2, 6] (eight g))) 1 0xB6#64
     let g := aftG h (.xScan (tV 1 0 3 2 0 0 0 8))
     let k := aftG h (.xScan (tV 1 0 3 2 0 0 0 0))
     ((List.range 8).map (fun l => (rv g 3 l).toNat), (List.range 8).map (fun l => (rv k 3 l).toNat))) =
      ([70, 0, 1, 73, 5, 10, 76, 19], [70, 1, 5, 73, 10, 19, 76, 25]) := by decide +kernel

/-- R293 to R299: by hand on lanes holding 0 to 7. -/
theorem test_cross_lane :
    (let h := fun g => wm (lanes8 18 [1, 0, 0, 1, 7, 7, 7, 63] (lanes8 17 [10, 11, 12, 13, 14, 15, 16, 17] (eight g))) 1 0x0F#64
     let v := fun i => (List.range 8).map (fun l => (rv (aftG h i) 16 l).toNat)
     (v (.xShf (tV 0 0 16 17 18 0 2 0)), v (.xBcast (tV 0 0 16 17 0 3 2 1)), v (.xCompact (tV 0 0 16 17 18 0 2 0)), v (.xRed (tV 0 0 16 17 0 0 2 5)))) =
      ([11, 10, 10, 11, 17, 17, 17, 0], [13, 13, 13, 13, 13, 13, 13, 13], [10, 13, 14, 15, 16, 17, 0, 0], [0, 0, 0, 0, 0, 0, 0, 0]) := by decide +kernel

theorem test_votes_and_masks :
    (let h := fun g => wm (wm (lanes8 17 [0, 1, 0, 2, 0, 0, 0, 0] (eight g)) 1 0x0F#64) 2 0x35#64
     let s := fun i => rs (aftG h i) 5
     [s (.voteAny (tV 0 0 357 17 0 0 2 0)), s (.voteAll (tV 0 0 357 17 0 0 2 0)), s (.voteBal (tV 1 0 357 17 0 0 2 0)), s (.mPopc (tV 0 0 357 450 0 0 2 0)),
      s (.mFfs (tV 0 0 357 451 0 0 2 0)), rm (aftG h (.mAndn (tV 0 0 451 450 449 0 2 0))) 3, rm (aftG h (.mXor (tV 0 0 451 450 449 0 2 0))) 3,
      rm (aftG h (.mSet (tV 0 0 451 17 0 0 2 0))) 3]) = [1#64, 0#64, 10#64, 4#64, 64#64, 0x30#64, 0x3A#64, 10#64] := by decide +kernel

/-- R279: one element from a scalar, and to one, sign-extended. -/
theorem test_element_moves :
    rv (aftG (fun g => ws g 6 0x1FF#64) (.vFroms (tV 0 0 16 358 0 9 11 1))) 16 1 = 0xFF00#64 ∧
    rs (aftG (fun g => wv g 17 1 0xFF00#64) (.vTos (tV 0 0 357 17 0 9 11 1))) 5 = BitVec.allOnes 64 := by decide +kernel

/-- R229: a half of a pair word adds its v2 and v3 into v1, and the slot stays at the word. -/
theorem test_pair_half :
    (let s := withWord State.reset true 0x020041039C020202#64
     let g := gOf (aft { s with groups := s.groups.map (fun g => wv (wv g 2 0 0xFFFFFFFF#64) 3 0 2#64) } (.pairVAdd { ctype := 4, rsv := 0, d := 1, a := 2, b := 3 }))
     (rv g 1 0, g.slotA.half, g.slotA.idx)) = (1#64, true, 0) := by decide +kernel

end Sys2Proof.Tests

/-! Witnesses: for each statement, states and operands that meet its hypotheses, one for each clause. -/

namespace Sys2Proof.Tests
open Sys2Proof Sys2Proof.Machine
set_option Elab.async false

theorem wit_EncodedInstructionDecodes :
    (let i := Instr.sAdd (tS 5 6 r7 0); i.wellFormed && (encode i).isSome && (form 64 i).isSome) = true ∧
    (let i := Instr.pairVAdd { ctype := 4, rsv := 0, d := 1, a := 2, b := 3 }; i.wellFormed && (encode i).isSome && (halfOf i).isSome) = true ∧
    (let i := Instr.cPop (tK 0 0 0 0 0 0 false false 0); i.wellFormed && (encode i).isSome && (form 64 i).isNone && (halfOf i).isNone) = true := by
  decide +kernel

theorem wit_DecodedInstructionEncodes : (decodeWord 0x0100A30E00000000#64).isSome = true ∧ (decodeHalf 0x02004103#32).isSome = true ∧
    (decodeCane 0xDA00000000000000#64).isSome = true := by decide +kernel

/-! A record of `n` bytes with fields at byte offsets; a grid with the launch record's fields, and its cluster. -/
def recB (n : Nat) (l : List (Nat × Nat × Nat)) : List Byte := toBytes n (l.foldl (fun a p => setFld a (8 * p.1) (8 * p.2.1) p.2.2) 0)
def grid0 (l : List (Nat × Nat × Nat)) : Grid := { grid := 1, ctx := 1, queue := 0, prio := 0, order := 0, lrec := recB 256 l }
def inGrid (l : List (Nat × Nat × Nat)) (s : State) : State :=
  { mapped s with grids := [grid0 l], clusters := [{ ctx := 1, grid := 1, idx := 0, w := 1, h := 1, bars := [(0, (1, 0, 0)), (1, (2, 0, 0))] }] }
/-- A trap clause at 2^32 + 1024. -/
def trapped : State → State := inGrid [(48, 8, 2 ^ 32 + 1024)]
def onSlot (f : Slot → Slot) (g : Group) : Group := { g with slotA := f g.slotA }
def onState (s : State) (h : Group → Group) : State := { s with groups := s.groups.map h }

def slotWord (s : State) : Option (W64 ⊕ BitVec 32) := (getG s soloGid).map (fun g =>
  if g.slotA.hdr.getLsbD (32 + g.slotA.idx) then
    .inr (if g.slotA.half then (g.slotA.words.getD g.slotA.idx 0#64).extractLsb' 0 32 else (g.slotA.words.getD g.slotA.idx 0#64).extractLsb' 32 32)
  else .inl (g.slotA.words.getD g.slotA.idx 0#64))
def slotInstr (s : State) : Option Instr := (slotWord s).bind (fun w => match w with | .inl w => decodeWord w | .inr h => decodeHalf h)

def turnsOf (m : Move) (s : State) : State := { s with turns := [{ dt := 3, move := m }], focus := .idle }
theorem wit_StepRunsDecodedInstruction :
    (let s := turnsOf (.issue 0 0) (tst id id (.nop (tY 0 0 0 0)))
     s.turns = { dt := 3, move := .issue 0 0 } :: [] ∧ (getPart (afterTurn s { dt := 3, move := .issue 0 0 } []) 0 0).cur = [(soloGid, false)] ∧
       slotInstr (afterTurn s { dt := 3, move := .issue 0 0 } []) = some (.nop (tY 0 0 0 0))) ∧
    (let s := turnsOf (.issue 0 0) (withWord State.reset true 0x020041039C020202#64)
     (getPart (afterTurn s { dt := 3, move := .issue 0 0 } []) 0 0).cur = [(soloGid, false)] ∧
       slotInstr (afterTurn s { dt := 3, move := .issue 0 0 } []) = some (.pairVAdd { ctype := 4, rsv := 0, d := 1, a := 2, b := 3 })) ∧
    (let s := onState (withWord State.reset true 0x020041039C020202#64) (onSlot (fun x => { x with half := true }))
     s.turns = [] ∧ issuing s = some (getPart s 0 0) ∧ slotInstr s = some (.pairVFmul { ctype := 8, rsv := 0, d := 8, a := 4, b := 2 })) ∧
    ((turnsOf (.event (.recallBeat 0)) State.reset).turns = [{ dt := 3, move := .event (.recallBeat 0) }] ∧ encode (.recallBeat 0) = none) ∧
    (let s := withCommand State.reset 0xDA00000000000000#64
     s.turns = [{ dt := 0, move := .sequencer soloGid }] ∧ ∃ f, getF (afterTurn s { dt := 0, move := .sequencer soloGid } []) soloGid = some f ∧ match f.op with
       | .share sh => sh.kind = .run ∧ sh.begun = true ∧ sh.idx < sh.block.length ∧ shareTurn (afterTurn s { dt := 0, move := .sequencer soloGid } []) f sh = true ∧
           decodeCane (sh.block.getD sh.idx 0#64) = some (.cPop (tK 0 0 0 0 0 0 false false 0))
       | _ => False) := by
  refine ⟨by decide +kernel, by decide +kernel, by decide +kernel, by decide +kernel, by decide +kernel, ?_⟩
  exact ⟨_, rfl, by decide +kernel⟩

/-- The checks before a word, of its header and of the word. -/
def headOf (s : State) (i : Instr) : Option (Option State × Option FInfo) :=
  (issuer s ((encode i).getD 0#64) (mselOf i) (perLaneOf i)).map (fun x => (headerFault s x.g x.b, wordFault x.g x.slot i x.w.toNat))
def soloOf (i : Instr) : Group := soloGroup false ((encode i).getD 0#64)
theorem wit_IllegalAndPrivilegedWords :
    (let s := turnsOf (.issue 0 0) (withWord State.reset false 0#64)
     let u := afterTurn s { dt := 3, move := .issue 0 0 } []
     (getPart u 0 0).cur = [(soloGid, false)] ∧ slotWord u = some (.inl 0#64) ∧ decodeWord 0#64 = none ∧
       headerFault (withFocus u (.word soloGid false)) (soloGroup false 0#64) false = none) ∧
    (let i := Instr.sSxt (tS 5 6 (.reg 0 0 64) 0)
     (form 64 i).isSome = true ∧ (headOf (tst id id i) i).any (fun p => p.1.isNone && p.2.isSome) = true) ∧
    (let i := Instr.nop (tY 0 0 0 0)
     (headOf (tst id (onSlot (fun x => { x with hdr := 1#64 })) i) i).any (fun p => p.1.isSome) = true) ∧
    (let s := withWord State.reset true 0x040041039C020202#64
     (issuer s 0#64 0 false).any (fun x => (headerFault s x.g x.b).isNone && !x.slot.half &&
       (pairFault x.g (x.slot.words.getD x.slot.idx 0#64).toNat).isSome) = true) ∧
    (∀ p ∈ [(Instr.halt (tY 0 0 0 0), 0xF7), (.sysGet (tY 5 0 0x8000 0), 0xF2), (.sysSet (tY 0 6 0x8000 0), 0xF3), (.atinv (tY 0 6 0x8011 0), 0xF3),
        (.wake (tY 0 6 0x8021 0), 0xF3)], (form 64 p.1).any (fun f => (decodeBad (soloOf p.1) (soloOf p.1).slotA p.1 f
          ((encode p.1).getD 0#64).toNat).isNone) = true ∧ ((encode p.1).getD 0#64).toNat / 2 ^ 56 = p.2) ∧
    (soloGroup false 0#64).core < 96 ∧ (soloGroup false 0#64).ctx ≠ 0 := by decide +kernel

theorem wit_RegisterAndMemoryWrites :
    Memory.wf (wrBytes State.reset [(5, 1#8), (5, 0#8)]).mem = true ∧ Memory.wf State.reset.mem = true ∧
      ∀ a, rdByte (wrBytes State.reset [(5, 1#8), (5, 0#8)]) a = rdByte State.reset a := by
  refine ⟨by decide, by decide, fun a => ?_⟩
  have h : (wrBytes State.reset [(5, 1#8), (5, 0#8)]).mem = State.reset.mem := by decide
  simp only [rdByte, h]

theorem wit_WordsMoveTheirSlot :
    (let s := tst id id (.nop (tY 0 0 0 0)); (issuer s 0#64 0 false).any (fun x => (getG s x.g.gid).isSome && !x.slot.half) = true) ∧
    (let s := onState (withWord State.reset true 0x020041039C020202#64) (onSlot (fun x => { x with half := true }))
     (issuer s 0#64 0 false).any (fun x => (getG s x.g.gid).any (fun g => (slotOf g x.b).half)) = true) := by decide +kernel

/-- Every scalar word, in the forms the statements take. -/
def scalarWords : List Instr := [.sAdd (tS 5 6 r7 0), .sSub (tS 5 6 r7 0), .sMul (tS 5 6 r7 0), .sMulh (tS 5 6 r7 1), .sDiv (tS 5 6 r7 0), .sRem (tS 5 6 r7 1),
  .sAnd (tS 5 6 r7 0), .sOr (tS 5 6 r7 0), .sXor (tS 5 6 r7 0), .sAndn (tS 5 6 r7 0), .sShl (tS 5 6 r7 0), .sShr (tS 5 6 r7 0), .sSar (tS 5 6 r7 0),
  .sMin (tS 5 6 r7 0), .sMax (tS 5 6 r7 1), .sClz (tS 5 6 (.reg 0 0 0) 0), .sPopc (tS 5 6 (.reg 0 0 0) 0), .sBfx (tS 5 6 (.reg 0 0 0xFC0) 1),
  .sBfi (tS 5 6 (.reg 7 0 0xFC0) 0), .sSxt (tS 5 6 (.reg 0 0 63) 0), .sZxt (tS 5 6 (.reg 0 0 63) 0), .sCmp (tS 5 6 r7 13), .sSel (tS 5 6 (.reg 7 8 0) 0),
  .sMov (tS 5 6 (.reg 0 0 0) 0), .sLi (tS 5 0 (.imm 0) 0), .sLih (tS 5 6 (.imm 0) 0), .sLea (tS 5 6 (.imm 0) 0), .sLea (tS 5 6 (.reg 7 0 9) 3),
  .sLea (tS 5 0 (.reg 7 0 9) 64), .sSr (tS 5 0 (.reg 0 0 0) 0), .sSr (tS 5 0 (.reg 0 0 10) 0)]
theorem wit_ScalarWordResults : scalarWords.all (fun i => okW (tst id id i) i (fun x => (slotOf x.g x.b).mask.getLsbD 0)) = true := by
  decide +kernel
theorem wit_ScalarWordsFrame : scalarWords.all (fun i => okW (tst id id i) i (fun _ => true)) = true := wit_ScalarWordResults ▸ by decide +kernel

/-- Divisors 0 and -1 at the ends of the range, and an ordinary pair. -/
theorem wit_DivisionWords : ∀ p ∈ [(7, 0), (2 ^ 63, 2 ^ 64 - 1), (2 ^ 64 - 7, 2)], ∀ i ∈ [Instr.sDiv (tS 5 6 r7 0), .sRem (tS 5 6 r7 0), .sDiv (tS 5 6 r7 1),
    .sRem (tS 5 6 r7 1)], okW (tst id (two (BitVec.ofNat 64 p.1) (BitVec.ofNat 64 p.2)) i) i (fun x => (rs x.g 6).toNat == p.1 && (rs x.g 7).toNat == p.2) = true := by
  decide +kernel

theorem wit_ShuffleWord : okW (tst id id (.xShf (tV 0 0 16 17 18 0 4 0))) (.xShf (tV 0 0 16 17 18 0 4 0)) (fun x =>
      (tileHold (tst id id (.xShf (tV 0 0 16 17 18 0 4 0))) x (tV 0 0 16 17 18 0 4 0) true true).isNone && decide (widV (tV 0 0 16 17 18 0 4 0) = 32)) = true ∧
    isSca (tV 0 0 16 17 360 0 4 0).b.toNat = true ∧ (tV 0 0 16 17 18 0 4 1).fn.extractLsb' 0 6 ≠ 0#6 ∧
    ((tV 0 0 16 17 18 5 4 0).c ≠ 0#9 ∧ isAcc (tV 0 0 16 17 18 5 4 0).a.toNat = false ∧ isAcc (tV 0 0 16 17 18 5 4 0).b.toNat = false) := by decide +kernel

/-! Exceptions. -/

def slotAt_ (c : Nat) : Slot := { st := .running, clause := c, mask := 0xF0#64 }
theorem wit_TakingAnException :
    (let s := tst trapped (fun g => { g with slotB := slotAt_ (2 ^ 32 + 256) }) (.nop (tY 0 0 0 0))
     let g := gOf s
     getG s g.gid = some g ∧ trapOf s g ≠ 0 ∧ g.handler = none ∧ toHandler 0x18 = true ∧ (slotOf g (!false)).st ≠ .free ∧
       (slotOf g (!false)).started = false) ∧ toHandler 0x1E = true := by decide +kernel

def anFault : FInfo := { cls := 255, code := 2 ^ 24 - 1, addr := 2 ^ 57, index := 2 ^ 32 - 1, unit := 255, eng := 15 }
theorem wit_FaultRecords :
    (let s := tst mapped id (.nop (tY 0 0 0 0)); let g := gOf s
     anFault.cls < 256 ∧ anFault.code < 2 ^ 24 ∧ g.ctx < 4096 ∧ g.core < 128 ∧ g.part < 4 ∧ g.num < 32 ∧ g.tidx < 16 ∧ g.task = false ∧ g.cluster < 2 ^ 32 ∧
       g.grid < 2 ^ 32 ∧ anFault.addr < 2 ^ 64 ∧ s.time < 2 ^ 64 ∧ anFault.index < 2 ^ 32 ∧ anFault.unit < 256 ∧ anFault.eng < 16 ∧
       (slotOf g false).clause < 2 ^ 56 ∧ (slotOf g false).idx < 16) ∧
    (let s := tst mapped id (.nop (tY 0 0 0 0)); let g := gOf s
     getG s g.gid = some g ∧ trapOf s g = 0 ∧ (getC s g.ctx).any (fun c => c.run == .running) = true) ∧
    (let s := tst trapped (fun g => { g with handler := some { slotB := false, epc := 0, eidx := 0, done := 0#64, frec := [], lanes := 0#64 } }) (.nop (tY 0 0 0 0))
     let g := gOf s
     getG s g.gid = some g ∧ trapOf s g ≠ 0 ∧ g.handler ≠ none ∧ (getC s g.ctx).any (fun c => c.run == .running) = true) := by decide +kernel

def handler0 (g : Group) : Group :=
  { g with handler := some { slotB := false, epc := 2 ^ 32 + 256, eidx := 0, done := 1#64, mask := 3#64, frec := [1#64, 2#64, 3#64, 4#64, 5#64, 6#64, 7#64, 8#64],
                             lanes := 7#64, word := some (2 ^ 32 + 256, 0), other := some .pontil },
           slotB := { slotAt_ (2 ^ 32 + 256) with park := some .handler } }
theorem wit_ReturnFromException :
    (let i := Instr.rte (tY 0 0 0 0); let s := tst trapped handler0 i
     okW s i (fun x => match x.g.handler with
       | some h => h.mark.isNone && (targetBad h.epc).isNone && (transferStop s x h.epc).isNone && (codeBad s x.g h.epc 8).isNone &&
           (iWord (iFill s x.g h.epc 8) x.g h.epc).any (fun q => decide (h.eidx ≤ fld q.toNat 60 4) &&
             (clauseTail h.epc q).all (fun a => (transferStop s x a).isNone)) &&
           (slotOf x.g (!h.slotB)).park == some .handler && h.word == some (h.epc, h.eidx) && h.before.isNone
       | none => false)) = true := by decide +kernel

end Sys2Proof.Tests

namespace Sys2Proof.Tests
open Sys2Proof Sys2Proof.Machine
set_option Elab.async false

/-! Control words. -/

/-- The word issues in `f`'s state with `h`'s group, and `k` holds of the state and the issue. -/
def ok (f : State → State) (h : Group → Group) (i : Instr) (k : State → Issue → Bool) : Bool := let s := tst f h i; okW s i (k s)
def mask1 (m : W64) (g : Group) : Group := wm g 1 m
def goesTo (off : BitVec 40) (s : State) (x : Issue) : Bool := (transferStop s x (targetC x off)).isNone

theorem wit_BranchesTransfer :
    ok mapped id (.br (tC 0 0 4)) (goesTo 4) = true ∧ ok id id (.br (tC 0 0 0x8000000000)) (fun _ x => decide (2 ^ 57 ≤ targetC x 0x8000000000)) = true ∧
    ok mapped (fun g => ws g 5 0x8000000000000000#64) (.bc (tC 5 2 4)) (goesTo 4) = true ∧
    ok mapped id (.bc (tC 5 1 4)) (goesTo 4) = true ∧
    ok mapped (mask1 (BitVec.allOnes 64)) (.bv (tC 0 1 4)) (fun s x => goesTo 4 s x && ((slotOf x.g x.b).mask &&& ~~~rm x.g 1 == 0#64)) = true ∧
    ok mapped (mask1 (BitVec.allOnes 64)) (.bv (tC 0 9 4)) (fun s x => goesTo 4 s x && ((slotOf x.g x.b).mask &&& ~~~(~~~rm x.g 1) != 0#64) &&
      ((slotOf x.g x.b).mask &&& ~~~rm x.g 1 == 0#64)) = true ∧
    ok mapped (fun g => ws g 9 1#64) (.loop (tC 0 9 4)) (goesTo 4) = true ∧ ok mapped (fun g => ws g 9 0#64) (.loop (tC 0 9 4)) (goesTo 4) = true := by
  decide +kernel

/-- A state with an entry on the stack of the group's slot. -/
def stacked (kind addr : Nat) (m : W64) (s : State) : State :=
  let g := gOf s
  putG (stackPush s g false kind addr m) (setSlot g false { slotOf g false with depth := (slotOf g false).depth + 1 })
/-- The address of `join`'s target at offset 4. -/
def at4 : Nat := 2 ^ 32 + 32
def busyB (st : SlotSt) (g : Group) : Group := { g with slotB := { slotAt_ at4 with st := st } }
theorem wit_DivergenceAndJoin :
    ok mapped (mask1 15#64) (.bv (tC 0 1 4)) (fun s x => goesTo 4 s x && (slotOf x.g (!x.b)).st == .free &&
      (slotOf x.g x.b).mask &&& rm x.g 1 != 0#64 && (slotOf x.g x.b).mask &&& ~~~rm x.g 1 != 0#64) = true ∧
    ok mapped (fun g => busyB .running (mask1 15#64 (onSlot (fun y => { y with depth := 63 }) g))) (.bv (tC 0 1 4)) (fun s x => goesTo 4 s x &&
      (slotOf x.g (!x.b)).st != .free && decide ((slotOf x.g x.b).depth < x.g.depthD)) = true ∧
    ok mapped (fun g => busyB .running (mask1 15#64 (onSlot (fun y => { y with depth := 64 }) g))) (.bv (tC 0 1 4)) (fun s x => goesTo 4 s x &&
      (slotOf x.g (!x.b)).st != .free && decide (x.g.depthD ≤ (slotOf x.g x.b).depth)) = true ∧
    ok (fun s => stacked 0 (2 ^ 32 + 256) 7#64 (mapped s)) id (.join (tC 0 0 4)) (fun s x => stackTop s x.g x.b == some (0, 2 ^ 32 + 256, 7#64)) = true ∧
    ok (fun s => stacked 1 at4 7#64 (mapped s)) id (.join (tC 0 0 4)) (fun s x => goesTo 4 s x && stackTop s x.g x.b == some (1, at4, 7#64) &&
      targetC x 4 == at4) = true ∧
    (∀ st ∈ [SlotSt.free, .running, .waiting at4], ok mapped (busyB st) (.join (tC 0 0 4)) (fun s x => goesTo 4 s x && (stackTop s x.g x.b).isNone &&
      (slotOf x.g (!x.b)).st == st && (slotOf x.g (!x.b)).depth == 0 && targetC x 4 == at4) = true) ∧
    ok mapped id (.exit (tS 0 0 (.reg 0 0 0) 0)) (fun s x => (stackTop s x.g x.b).isNone) = true ∧
    ok (fun s => stacked 0 at4 7#64 (mapped s)) id (.exit (tS 0 0 (.reg 0 0 0) 0)) (fun s x => (stackTop s x.g x.b).isSome) = true := by decide +kernel

theorem wit_CallsAndIndirectTransfers :
    ok mapped id (.call (tC 5 0 4)) (goesTo 4) = true ∧
    (∀ i ∈ [Instr.callx (tS 5 6 (.reg 0 0 0) 0), .bx (tS 0 6 (.reg 0 0 0) 0), .ret (tS 0 6 (.reg 0 0 0) 0)],
      ok mapped (fun g => ws g 6 (BitVec.ofNat 64 at4)) i (fun s x => let t := (rs x.g 6).toNat
        t % 8 == 0 && decide (t < 2 ^ 57) && (transferStop s x t).isNone) = true ∧
      ok mapped (fun g => ws g 6 1#64) i (fun _ x => (rs x.g 6).toNat % 8 != 0) = true) ∧
    (∀ n ∈ [0, 3, 4], ok mapped (fun g => ws g 5 (BitVec.ofNat 64 n)) (.bt (tC 5 3 4)) (fun s x =>
      let a := (targetC x 4 + 8 * n) % 2 ^ 64
      (rs x.g 5).toNat == n && (decide (3 < n) || (transferStop s x a).isNone && (codeBad s x.g a 8).isNone && (iWord (iFill s x.g a 8) x.g a).any (fun q =>
        q.toNat % 8 == 0 && decide (q.toNat < 2 ^ 57) && (transferStop (iFill s x.g a 8) x q.toNat).isNone))) = true) := by decide +kernel

/-- Every lane passes its check. -/
def okLanes (l : List LaneRes) : Bool := l == (goodLanes l).map .ok
def napping (d : Option Nat) (k : Nat) (g : Group) : Group := onSlot (fun y => { y with park := some (.nap d none k) }) g
theorem wit_WaitingAndGroupWords_1 :
    ok id id (.yield (tS 0 0 (.reg 0 0 0) 0)) (fun _ _ => true) = true ∧
    ok id id (.nap (tS 5 6 r7 0)) (fun _ x => x.slot.park.isNone && rs x.g 6 == 0#64 && rs x.g 7 == 0#64) = true ∧
    ok id (two 100#64 0#64) (.nap (tS 5 6 r7 0)) (fun _ x => x.slot.park.isNone && rs x.g 6 != 0#64 && rs x.g 7 == 0#64) = true ∧
    ok id (fun g => napping (some 5) 1 (two 5#64 0#64 g)) (.nap (tS 5 6 r7 0)) (fun _ x => x.slot.park == some (.nap (some 5) none 1)) = true ∧
    ok mapped id (.ipf (tC 0 255 4)) (fun s x => (ipMiss s x (tC 0 255 4)).isNone) = true ∧
    ok mapped id (.iunpin (tC 0 0 4)) (fun s x => (ipMiss s x (tC 0 0 4)).isNone) = true ∧
    ok mapped id (.ipin (tC 0 255 4)) (fun s x => (ipMiss s x (tC 0 255 4)).isNone && (ipLines x (tC 0 255 4)).all (fun k =>
      (fetchFault s x.g x.b (k * 128)).isNone && (codeBad s x.g (k * 128) 1).isNone && (codeAt s x.g (k * 128)).any (fun p => homeReady s p.1))) = true ∧
    ok id id (.regroup (tV 0 0 357 358 18 0 2 0)) (fun s x => (slotOf x.g (!x.b)).st == .free && (slotOf x.g x.b).depth == 0 && x.g.spec.isNone &&
      allQuiet s x.g && x.g.due.isEmpty) = true := by decide +kernel

/-- A read that gives a value. -/
def gotR {α : Type} (r : Option (FInfo ⊕ α)) : Bool := match r with | some (.inr _) => true | _ => false
/-- A grid whose tasks have one row, in two lanes; the records are at 0, the entries at 2^32. -/
def spawnW : VWord := tV 0 0 0 17 18 360 2 0
def spawnG (g : Group) : Group := onSlot (fun y => { y with mask := 3#64 }) (wv (wv g 17 0 (2 ^ 32 : Nat)) 17 1 (2 ^ 32 : Nat))
theorem wit_WaitingAndGroupWords_2 :
    ok (inGrid [(32, 1, 1)]) spawnG (.spawn spawnW) (fun s x =>
      let res := (lanesOf x.active).map (fun l => spawnLane s x.g l (rv x.g 17 l).toNat (rv x.g 18 l).toNat)
      (getGrid s x.g.ctx x.g.grid).any (fun r => (lrecOf r.lrec).trows != 0) && (rs x.g 8).toNat == 0 && okLanes res &&
        decide ((goodLanes res).length ≤ poolRoom s x.g.ctx x.g.core) && (goodLanes res).length == 2 &&
        gotR (spawnRead (drainWcb s x.g.gid) x.g (goodLanes res))) = true ∧
    ok (inGrid []) (two 64#64 15#64) (.launch (tS 5 6 r7 0)) (fun s x =>
      let res := (List.range 4).map (fun k => laneCheck s x.g 0 (64 + 64 * k) 64 1 1 false 1)
      okLanes res && (rs x.g 6).toNat == 64 && (rs x.g 7).toNat == 15 && (releaseWait s x.g .dv).isNone &&
        gotR (readNow s x.g ((goodLanes res).flatMap (fun l => l.pas)))) = true := by decide +kernel

/-! System words. -/

theorem wit_SystemWordsEffects :
    (∀ i ∈ [Instr.trap (tY 0 0 0 7), .prio (tY 0 0 0 3), .nop (tY 0 0 0 0)], ok id id i (fun _ _ => true) = true) ∧
    ok id id (.bkpt (tY 0 0 0 7)) (fun s x => (getC s x.g.ctx).any (fun c => !c.debugger)) = true ∧
    ok id (fun g => { g with core := 96, ctx := 0 }) (.halt (tY 0 0 0 0)) (fun _ _ => true) = true := by decide +kernel

def service (g : Group) : Group := { g with core := 96, ctx := 0 }
theorem wit_SpecialRegisters :
    ([0x0000, 0x0001, 0x0002, 0x0003, 0x0004, 0x0100, 0x0107, 0x0110, 0x0111, 0x0112, 0x0120, 0x0123] : List (BitVec 16)).all (fun r =>
      ok id handler0 (.sysGet (tY 5 0 r 0)) (fun s x => x.g.handler.isSome && !sregOpen s r.toNat)) = true ∧
    ok (fun s => { s with ctxSel := 4095 }) service (.sysGet (tY 5 0 0x8001 0)) (fun s _ => sregOpen s 0x8001) = true ∧
    (tst id id (.nop (tY 0 0 0 0))).groups.any (fun g => g.handler.isNone) = true ∧
    ([0x0000, 0x0110, 0x0111, 0x0112, 0x0120, 0x0123] : List (BitVec 16)).all (fun r =>
      ok id handler0 (.sysSet (tY 0 6 r 0)) (fun _ x => x.g.handler.isSome)) = true ∧
    ([0x8000, 0x8001, 0x8002, 0x8003, 0x8004, 0x8010] : List (BitVec 16)).all (fun r =>
      ok (fun s => { s with ctxSel := 1 }) service (.sysSet (tY 0 6 r 0)) (fun s _ => (getC s s.ctxSel).isSome)) = true ∧
    ok id service (.atinv (tY 0 6 0x8011 0)) (fun _ _ => true) = true ∧ ok id service (.wake (tY 0 6 0x8021 0)) (fun _ _ => true) = true ∧
    (wakeCores (tst id service (.nop (tY 0 0 0 0))) 1#64).groups.any (fun g => decide (96 ≤ g.core) && (1#64).getLsbD (g.core - 96)) = true := by
  decide +kernel

/-! Vector words. -/

def noHold (w : VWord) (a b : Bool) (s : State) (x : Issue) : Bool := (tileHold s x w a b).isNone
/-- Words of one shape: operands 16, 17, 18 (and 19), masked by m1, one register; the ends of a block's size are taken by `wide`. -/
def wide (l : List (VWord → Instr)) (ty : BitVec 5) (fn : BitVec 7) : Bool :=
  l.all (fun f => let w := tV 1 15 32 96 160 0 ty fn; ok id (mask1 5#64) (f w) (noHold w true true))
theorem wit_VectorIntegerWords :
    wide [.vAdd, .vSub, .vMul] 3 1 = true ∧ wide [.vMulh, .vAbsd, .vMin, .vMax] 12 0 = true ∧ wide [.vAnd, .vOr, .vXor, .vAndn] 2 0 = true ∧
    wide [.vCmp] 4 5 = true ∧ wide [.vShl, .vShr, .vSar] 7 0 = true ∧
    (∀ i ∈ [Instr.vMad (vw 3 0), .vSel (vw 5 0)], ok id id i (noHold (vw 3 0) true true) = true) ∧
    (∀ f ∈ [Instr.vShl, .vShr, .vSar], let w := tV 0 0 16 17 0 63 0 1; ok id id (f w) (noHold w true false) = true) ∧
    (∀ i ∈ [Instr.vClz (vw1 3 0), .vPopc (vw1 3 0), .vBfx (tV 0 0 16 17 0 63 0 0), .vMov (vw1 2 0)], ok id id i (noHold (vw1 3 0) true false) = true) ∧
    ok id id (.vBfi (tV 0 0 16 17 18 0 4 31)) (noHold (vw2 4 0) true true) = true ∧ ok id id (.vLi (tV 0 0 16 0 256 0 3 0)) (fun _ _ => true) = true := by
  decide +kernel
theorem wit_VectorFloatResults :
    wide [.vFadd, .vFsub, .vFmul] 6 3 = true ∧ wide [.vFmin, .vFmax] 9 4 = true ∧ wide [.vFcmp] 10 13 = true ∧
    (∀ i ∈ [Instr.vFma (vw 6 1), .vFdot2 (vw 9 2)], ok id id i (noHold (vw 6 0) true true) = true) ∧
    (∀ i ∈ [Instr.vFrnd (vw1 6 2), .vFclass (vw1 10 0)], ok id id i (noHold (vw1 6 0) true false) = true) ∧
    (let x := decF fmtF32 false 0x40000000; let y := decF fmtF32 false 0x3F800000; let n := decF fmtF32 false 0x7F800001
     x = .num false 8388608 (-22) ∧ y = .num false 8388608 (-23) ∧ x.isNan = false ∧ x.isInf = false ∧ x.isZero = false ∧
     y.isNan = false ∧ y.isInf = false ∧ n.isNan = true ∧ n.isSig = true ∧ decF fmtF32 false 0xFF800000 = .inf true ∧
     (decF fmtF32 false 0).isZero = true) := by decide +kernel
/-- The two numbers of the witness differ and are not zero. -/
theorem wit_VectorFloatResults_2 : let x := valueQ (.num false 8388608 (-22)); let y := valueQ (.num false 8388608 (-23))
    x + y ≠ 0 ∧ x - y ≠ 0 ∧ x * y ≠ 0 ∧ x * y + y ≠ 0 ∧ y < x := by norm_num [valueQ]
theorem wit_PackingAndElementMoves :
    ok id id (.vPack (vw2 11 1)) (noHold (vw2 11 1) true true) = true ∧ ok id id (.vUnpack (vw1 3 1)) (noHold (vw1 3 1) true false) = true ∧
    ok id (fun g => ws g 7 511#64) (.vFroms (tV 0 0 16 358 359 0 11 0)) (fun _ _ => true) = true ∧
    ok id id (.vFroms (tV 0 0 16 358 0 511 11 1)) (fun _ _ => true) = true ∧
    ok id (fun g => ws g 7 (BitVec.allOnes 64)) (.vTos (tV 0 0 357 17 359 0 3 0)) (noHold (tV 0 0 357 17 359 0 3 0) true false) = true := by decide +kernel
/-- The pair word issues, at its first or second half. -/
def halfOk (second : Bool) : Bool :=
  let s := onState (withWord State.reset true 0x020041039C020202#64) (onSlot (fun y => { y with half := second }))
  (issuer s 0#64 0 false).any (fun x => (headerFault s x.g x.b).isNone && (x.slot.half == second) &&
    (second || (pairFault x.g (x.slot.words.getD x.slot.idx 0#64).toNat).isNone))
theorem wit_PairHalves : halfOk false = true ∧ halfOk true = true ∧ ctypeCode 0 ≠ none ∧ ctypeCode 8 ≠ none := by decide +kernel

/-! Conversions, special functions and words across lanes. -/

def quantW : VWord := tV 0 0 16 17 0 360 4 0
theorem wit_ConversionAndQuantising_1 :
    (∀ w ∈ [tV 0 0 16 17 1 6 14 0, tV 0 0 16 17 0 6 3 4, tV 0 0 16 17 1 9 6 0], ok id id (.vCvt w) (noHold w true false) = true) ∧
    (∀ i ∈ [Instr.vQuant quantW, .vDequant quantW], ok id (fun g => ws g 8 1#64) i (fun _ x => (rs x.g 8).toNat % 64 != 0) = true) ∧
    (let n : FV := decF fmtF32 false 0x7FC00000; n.isNan = true ∧ n.isInf = false) ∧ (decF fmtF32 false 0).isZero = true ∧
    (decF fmtF32 false 0x7F800000).isNan = false ∧ (decF fmtF32 false 0x7F800000).isInf = true ∧
    decTy 6 false 0x40000000 = .num false 8388608 (-22) ∧ intFV (intTy 3 5) = .num false 5 0 ∧
    (let x : FV := .num false 8388608 (-22); x.isNan = false ∧ x.isInf = false) := by decide +kernel
/-- The numbers of the witness are not zero, and the first has exponent 1. -/
theorem wit_ConversionAndQuantising_3 : let x := valueQ (.num false 8388608 (-22))
    x ≠ 0 ∧ valueQ (.num false 5 0) ≠ 0 ∧ |x| < 2 ^ ((1 : ℤ) + 1) ∧ (2 : ℚ) ^ (1 : ℤ) ≤ |x| := by norm_num [valueQ, abs_of_pos]

theorem wit_SpecialFunctionWords :
    (∀ f ∈ [Instr.vRcp, .vRsq, .vSqrt, .vExp2, .vLog2, .vSin, .vCos], ok id id (f (vw1 6 4)) (noHold (vw1 6 4) true false) = true) ∧
    ok id id (.vAct (vw1 6 9)) (noHold (vw1 6 9) true false) = true ∧
    (let f : Flight := { id := 5, word := 5, gid := soloGid, ctx := 1, core := 0, cls := .sfu, op := .sfu 0 0 [(1024, 7#64)] 1#5 }
     let s := { tst id id (.nop (tY 0 0 0 0)) with pend := [f, { f with id := 6 }] }
     getF s 5 = some f ∧ (getG s f.gid).isSome = true ∧ s.pend.all (fun o => match o.op with | .sfu 0 0 _ _ => decide (5 ≤ o.id) | _ => true) = true) := by
  decide +kernel

/-- 2 and -2: not zero, one greater than 0, one less, their magnitudes at least 1. -/
theorem wit_SpecialFunctionWords_2 : decF fmtF32 false 0x40000000 = .num false 8388608 (-22) ∧ decF fmtF32 false 0xC0000000 = .num true 8388608 (-22) ∧
    0x40000000 < 2 ^ fmtF32.w ∧ 0xC0000000 < 2 ^ fmtF32.w ∧ 0 < valueQ (.num false 8388608 (-22)) ∧ valueQ (.num true 8388608 (-22)) < 0 ∧
    1 ≤ |valueQ (.num false 8388608 (-22))| := by
  refine ⟨by decide +kernel, by decide +kernel, by decide, by decide, ?_, ?_, ?_⟩ <;> norm_num [valueQ, abs_of_pos]

theorem wit_CrossLaneWords :
    (∀ w ∈ [tV 0 0 16 17 18 0 2 64, tV 1 15 32 96 160 0 11 0], ok id (mask1 5#64) (.xShf w) (noHold w true true) = true) ∧
    (∀ w ∈ [tV 0 0 16 17 359 0 2 64, tV 0 0 16 17 0 511 11 1], ok id id (.xBcast w) (noHold w true false) = true) ∧
    (∀ w ∈ [tV 0 0 16 17 18 20 2 5, tV 0 7 0 0 8 8 2 3], ok id id (.xBfly w) (noHold w true true) = true) ∧
    (∀ w ∈ [tV 0 0 16 17 0 0 0 8, tV 0 0 16 17 0 0 6 33, tV 0 0 16 17 0 0 2 5], ok id id (.xScan w) (noHold w true false) = true) ∧
    (∀ w ∈ [tV 0 0 16 17 0 0 3 16, tV 0 0 357 17 0 0 6 2], ok id id (.xRed w) (noHold w true false) = true) ∧
    isSca (tV 0 0 16 17 0 0 3 16).d.toNat = false ∧ isSca (tV 0 0 357 17 0 0 6 2).d.toNat = true ∧
    ok id (mask1 5#64) (.xCompact (tV 1 0 16 17 18 0 11 0)) (noHold (tV 1 0 16 17 18 0 11 0) true true) = true := by decide +kernel

theorem wit_VotesMasksAndRandom :
    ([.voteAny (tV 1 0 357 17 0 0 2 0), .voteAll (tV 0 0 357 448 0 0 2 0), .voteBal (tV 0 0 451 17 0 0 2 0), .mAnd (tV 0 0 449 448 449 0 2 0),
      .mOr (tV 0 0 449 448 449 0 2 0), .mXor (tV 0 0 449 448 358 0 2 0), .mAndn (tV 0 0 449 448 449 0 2 0), .mPopc (tV 0 0 357 448 0 0 2 0),
      .mFfs (tV 0 0 357 449 0 0 2 0), .mSet (tV 0 0 449 17 0 0 2 0), .mSet (tV 0 0 449 358 0 0 2 0), .rngDraw (tV 1 15 32 0 0 0 2 0)] : List Instr).all
      (fun i => ok id (mask1 5#64) i (fun _ _ => true)) = true := by decide +kernel

end Sys2Proof.Tests

namespace Sys2Proof.Tests
open Sys2Proof Sys2Proof.Machine
set_option Elab.async false

/-! Memory words. -/

/-- Two lanes; lane 1's index register holds `n`, the base register `b`. -/
def lanes2 (b n : Nat) (g : Group) : Group := ws (wv (onSlot (fun y => { y with mask := 3#64 }) g) 20 1 (BitVec.ofNat 64 n)) 5 (BitVec.ofNat 64 b)
def gWord : MWord := tM 12 20 5 0 3 0 0
theorem wit_GlobalChecksAndFailingLanes :
    (2 ^ 57 < (2 ^ 57 - 7) + 8 ∧ (2 ^ 57 - 8) + 8 ≤ 2 ^ 57 ∧ (2 ^ 57 - 12) + 8 ≤ 2 ^ 57 ∧ (2 ^ 57 - 12) % 8 ≠ 0) ∧
    okLanes [laneCheck (tst mapped id (.nop (tY 0 0 0 0))) (soloGroup false 0#64) 3 64 8 1 1 true 1] = true ∧
    (∀ p ∈ [(Instr.ldG gWord, 1), (.stG gWord, 2)],
      ok mapped (lanes2 64 (2 ^ 57)) p.1 (fun s x => let res := checkLanes s x (lanesM x gWord 8) 8 p.2 p.2 false 1
        (missPage res).isNone && (pickFault (badLanes res)).isSome && (goodLanes res).length == 1) = true ∧
      ok mapped (lanes2 64 (2 ^ 30)) p.1 (fun s x => (missPage (checkLanes s x (lanesM x gWord 8) 8 p.2 p.2 false 1)).isSome) = true) ∧
    orderScope gWord = none ∧ (0 : Nat) < 8 ∧ pickFault [{ cls := 7, code := 1 }, { cls := 6, code := 1 }] ≠ none := by decide +kernel

/-- The lanes of the whole word pass. -/
def passes (w : MWord) (z need : Nat) (al : Bool) (s : State) (x : Issue) : Bool := okLanes (checkLanes s x (lanesM x w z) z need need al 1)
def passesS (w : MWord) (need : Nat) (s : State) (x : Issue) : Bool :=
  okLanes (checkLanes s x [(0, (rs x.g w.base.toNat + w.off.signExtend 64).toNat)] (2 ^ w.width.toNat) need need (orderScope w).isSome 1)
def late (g : Group) : Group := { g with wct := 1000 }
theorem wit_GlobalLoadAndStoreWords :
    ok mapped (lanes2 64 9) (.ldG (tM 12 20 5 0 0 0 0)) (passes (tM 12 20 5 0 0 0 0) 1 1 false) = true ∧
    ok mapped (lanes2 64 8) (.ldG (tM 12 20 5 0 3 1 4)) (passes (tM 12 20 5 0 3 1 4) 8 1 true) = true ∧
    ok mapped (lanes2 64 16) (.ldX (tM 12 20 5 0 3 1 4)) (passes (tM 12 20 5 0 3 1 4) 16 1 true) = true ∧
    ok mapped id (.ldS (tM 357 511 5 64 3 1 4)) (passesS (tM 357 511 5 64 3 1 4) 1) = true ∧
    ok mapped (lanes2 64 9) (.stG (tM 12 20 5 0 0 0 0)) (passes (tM 12 20 5 0 0 0 0) 1 2 false) = true ∧
    ok mapped id (.stS (tM 357 511 5 64 3 0 0)) (passesS (tM 357 511 5 64 3 0 0) 2) = true ∧
    ok mapped (lanes2 64 8) (.stG (tM 12 20 5 0 3 2 4)) (fun s x => passes (tM 12 20 5 0 3 2 4) 8 2 true s x && (releaseWait s x.g .dv).isNone) = true ∧
    ok mapped late (.stS (tM 357 511 5 64 3 2 4)) (fun s x => passesS (tM 357 511 5 64 3 2 4) 2 s x && (releaseWait s x.g .dv).isSome) = true ∧
    orderScope (tM 12 20 5 0 3 2 4) = some .dv ∧ orderScope (tM 357 511 5 64 3 0 0) = none ∧
    (let l : Lane := { lane := 3, va := 64, pas := [64, 65] }
     l.pas.length = 2 ∧ l.pas.Nodup ∧ l.pas[1]? = some 65 ∧ (∀ y ∈ [{ l with pas := [66, 67] }], 65 ∉ y.pas)) ∧
    (let s := tst mapped id (.nop (tY 0 0 0 0))
     (getG s soloGid).any (fun g => g.wcb.isEmpty && (g.wcb.find? (fun e => e.line == 0)).isNone) = true ∧ ∀ q ∈ ownPending s soloGid, q.1 ≠ 64) ∧
    (∀ n ∈ [1, 127], let e : Wcb := { id := 7, line := 0, since := 0, bytes := (List.range n).map (fun i => (i, some 1#8)), hint := 0 }
      ([e].find? (fun e => e.line == 127 / 128) = some e) ∧ (fput none 127 (some 2#8) e.bytes).length = n + 1) := by decide +kernel

/-- A state with one operation of the group in flight; the L2 holds line 0. -/
def flying (op : Op) (cls : Cls) (g : Group → Group) : State :=
  let s := tst (fun s => { mapped s with l2 := [{ line := 0, way := 0, valid := 0xFF#8, dirty := 0#8 }] }) g (.nop (tY 0 0 0 0))
  { s with nextId := 9, pend := [{ id := 5, word := 5, gid := soloGid, ctx := 1, core := 0, cls := cls, op := op }] }
def flightOf (s : State) : Flight := (getF s 5).getD { id := 0, word := 0, gid := 0, ctx := 0, core := 0, cls := .none, op := .value [] }
def aLane : Lane := { lane := 3, va := 64, pas := [64, 65] }
theorem wit_LoadsAndStoresAtTheirHomes :
    (aLane ∈ [aLane]) ∧
    (let s := flying (.load [aLane] 12 false none 0 []) .loads id
     getF s 5 = some (flightOf s) ∧ (flightOf s).op = .load [aLane] 12 false none 0 [] ∧ (flightOf s).loose = [] ∧ (getG s (flightOf s).gid).isSome = true ∧
       accessTurn s (flightOf s) [64, 65] true = true ∧ (∀ p ∈ [64, 65], homeReady s p = true) ∧ needsFill s 1 0 [64, 65] = false ∧ badAt s [64, 65] = none) ∧
    (let s := flying (.store [(64, 1#8), (65, 2#8)] none 0 false) .stcomp id
     getF s 5 = some (flightOf s) ∧ (flightOf s).op = .store [(64, 1#8), (65, 2#8)] none 0 false ∧ (getG s (flightOf s).gid).isSome = true ∧
       (flightOf s).loose = [] ∧ storeTurn s (flightOf s) [64, 65] false = true ∧ storeFill s (flightOf s) 0 [64, 65] = false ∧
       1 < (storeParts { flightOf s with loose := [64, 65] } [(64, 1#8), (65, 2#8)]).length) ∧
    (let s := flying (.load [{ aLane with pas := [2048, 2049] }] 12 false none 0 []) .loads id
     accessPas s (flightOf s) = some ([2048, 2049], 0, true) ∧ missing s [2048, 2049] ≠ [] ∧
       ∀ k ∈ missing s [2048, 2049], fillFree s (k / 8) = true) ∧
    (let s := tst mapped (fun g => { g with wcb := [{ id := 7, line := 0, since := 957, bytes := [(64, some 1#8)], hint := 0 }] }) (.nop (tY 0 0 0 0))
     (s.groups.find? (fun g => g.wcb.any (fun e => e.id == 7))).any (fun g => (g.wcb.find? (fun e => e.id == 7)).any (fun e =>
       decide (e.since + 43 ≤ s.time))) = true) := by decide +kernel

/-- A second team of a cluster of two, on the same core. -/
def pairTeam (s : State) : State :=
  { inGrid [] s with clusters := [{ ctx := 1, grid := 1, idx := 0, w := 2, h := 1 }], teams := s.teams ++ [{ soloTeam with tid := 77, tidx := 1 }] }
def lWord (hint : BitVec 2) : MWord := { tM 12 20 5 0 3 0 0 with hint }
def localOk (w : MWord) (load own : Bool) (s : State) (x : Issue) : Bool :=
  (localTeam s x w).any (fun t => (t.tid == x.g.team) == own) && (localLanes s x w load).2 == ([], none) && (localLanes s x w load).1.length == 2 &&
    !acquiring s x.g.gid s.nextId && (orderScope w).isNone
theorem wit_LocalLoadsAndStores :
    (∀ p ∈ [(Instr.ldL (lWord 0), true), (.stL (lWord 0), false)], ok pairTeam (lanes2 64 8) p.1 (localOk (lWord 0) p.2 true) = true) ∧
    (∀ p ∈ [(Instr.ldL (lWord 1), true), (.stL (lWord 1), false)], ok pairTeam (lanes2 (64 + 2 ^ 32) 8) p.1 (localOk (lWord 1) p.2 false) = true) ∧
    (∀ p ∈ [((3 : Nat), 1#8)], p.1 ≠ 4) ∧ soloTeam.lines * 128 < 10233 + 8 ∧ (10232 + 8 ≤ soloTeam.lines * 128 ∧ stackHit soloTeam 10232 8 = true) ∧
    (8191 + 2 ≤ soloTeam.lines * 128 ∧ stackHit soloTeam 8191 2 = true ∧ stackHit soloTeam 8184 8 = false) := by decide +kernel

def atW (ty : BitVec 5) (fn : BitVec 7) : VWord := tV 0 0 16 20 18 0 ty fn
def atLanes (z : Nat) (s : State) (x : Issue) : Bool :=
  okLanes (checkLanes s x ((lanesOf x.active).map (fun l => (l, (rv x.g 20 l).toNat))) z 3 4 true 2)
theorem wit_AtomicWords :
    (∀ i ∈ [Instr.atAdd (atW 4 4), .atSub (atW 3 4), .atMin (atW 3 4), .atMax (atW 4 4), .atAnd (atW 5 4), .atOr (atW 5 4), .atXor (atW 5 4),
        .atXchg (atW 5 4), .atFadd (atW 6 4)], ok mapped (lanes2 0 4) i (atLanes 4) = true) ∧
    ok mapped (lanes2 0 8) (.atCas (tV 0 0 16 20 18 22 2 0x70)) (fun s x => atLanes 8 s x && (releaseWait s x.g .dv).isNone &&
      atScope (tV 0 0 16 20 18 22 2 0x70) == .dv) = true ∧
    ok mapped (lanes2 0 16) (.atCas2 (tV 0 0 16 20 18 22 21 0x10)) (atLanes 16) = true ∧
    (2 ^ 32 - 1 < 2 ^ (8 * 4) ∧ 1 < 2 ^ (8 * 4)) ∧
    (let s := flying (.atomic .cas false [({ aLane with pas := [64, 65, 66, 67] }, 0, 7)] 16 false false .dv) .stcomp id
     getF s 5 = some (flightOf s) ∧ (getG s (flightOf s).gid).isSome = true ∧ [64, 65, 66, 67].Nodup ∧
       accessTurn s (flightOf s) [64, 65, 66, 67] false = true ∧ unitPending s (flightOf s) [64, 65, 66, 67] = false ∧
       atomicReady s [64, 65, 66, 67] = true ∧ badAt s [64, 65, 66, 67] = none) ∧
    (∀ sc ∈ [Scope.gr, .tm], let l : Nat → Lane := fun n => { lane := n, va := 64, pas := [64, 65, 66, 67] }
     let s := flying (.atomic .add false [(l 3, 7, 0), (l 5, 9, 0)] 16 false false sc) .stcomp id
     (flightOf s).op = .atomic .add false [(l 3, 7, 0), (l 5, 9, 0)] 16 false false sc ∧ (getG s (flightOf s).gid).isSome = true ∧
       accessTurn s (flightOf s) ([l 3, l 5].flatMap (fun l => l.pas)) false = true ∧ ([l 3, l 5].flatMap (fun l => l.pas)).all (homeReady s) = true ∧
       (Sys2Proof.Machine.atLanes .add false (unitBytes s 0) [(l 3, 7, 0), (l 5, 9, 0)]).1 ≠ [] ∧ ([3, 5] : List Nat).Nodup ∧ (l 3).pas.length ≤ 8 ∧
       unitPending s (flightOf s) [64, 65, 66, 67] = false ∧ atomicReady s [64, 65, 66, 67] = true ∧ badAt s [64, 65, 66, 67] = none) := by decide +kernel

/-! Ordering, barriers, lehrs and copies. -/

theorem wit_FencesAndReleases :
    (let s := flying (.store [(64, 1#8)] none 0 false) .stcomp (fun g => { g with wcb := [{ id := 7, line := 0, since := 0, bytes := [], hint := 0 }] })
     getG s soloGid = some (gOf s) ∧ ∀ e ∈ (gOf s).wcb, e.id < s.nextId) ∧
    (∀ p ∈ [(0, Scope.ln), (1, .gr)], ok mapped id (.fence (tS 0 0 (.reg 0 0 0) (BitVec.ofNat 7 p.1))) (fun _ _ => scopeOf p.1 == some p.2) = true) ∧
    (∀ p ∈ [(2, Scope.tm), (3, .cl), (4, .dv), (5, .sy)], scopeOf p.1 = some p.2 ∧
      ok mapped id (.fence (tS 0 0 (.reg 0 0 0) (BitVec.ofNat 7 p.1))) (fun s x => (releaseWait s x.g p.2).isNone) = true) ∧
    ok mapped late (.fence (tS 0 0 (.reg 0 0 0) 4)) (fun s x => (releaseWait s x.g .dv).isSome) = true := by decide +kernel

end Sys2Proof.Tests

namespace Sys2Proof.Tests
open Sys2Proof Sys2Proof.Machine
set_option Elab.async false

def withTeam (f : Team → Team) (s : State) : State := { s with teams := s.teams.map f }
/-- A team with barrier 2 of `n` groups, `a` of them arrived in phase `p`, and the group's last arrival in phase `l` (less one). -/
def bars (n a p l : Nat) (s : State) : State :=
  withTeam (fun t => { t with bars := fput (0, 0, 0) 2 (n, a, p) t.bars, barLast := fput 0 64 l t.barLast }) (mapped s)
def barW : SWord := tS 0 6 (.reg 0 0 2) 0
def barW0 : SWord := tS 0 0 (.reg 0 0 2) 0
def teamIs (k : Team → Bool) (s : State) (x : Issue) : Bool := (teamOf s x.g).any k
/-- The arrival is made when the word issues; `arriving` has an earlier arrival of the group still to be made. -/
def atOnce (s : State) (x : Issue) : Bool := (releaseWait s x.g .tm).isNone && s.pend.all (fun f => f.gid != x.g.gid)
def arriving (b : Nat) (s : State) : State :=
  { bars 2 0 5 0 s with pend := [{ id := 4, word := 4, gid := soloGid, ctx := 1, core := 0, cls := .bar, op := .barArrive soloGid b }], nextId := 9 }
theorem wit_BarrierWords :
    (∀ n ∈ [1, 32, 0, 33], ok (bars 2 0 5 0) (fun g => ws g 6 (BitVec.ofNat 64 n)) (.barInit barW) (fun s x => (rs x.g 6).toNat == n &&
      teamIs (fun t => fget (0, 0, 0) (barNum barW) t.bars == (2, 0, 5)) s x) = true) ∧
    ok (bars 2 1 5 0) (fun g => ws g 6 1#64) (.barInit barW) (teamIs (fun t => (fget (0, 0, 0) 2 t.bars).2.1 == 1)) = true ∧
    (∀ i ∈ [Instr.barArv barW0, .barSync barW0],
      ok (bars 0 0 0 0) id i (fun s x => x.slot.park.isNone && teamIs (fun t => (fget (0, 0, 0) 2 t.bars).1 == 0) s x) = true ∧
      ok (bars 2 1 5 6) id i (fun s x => x.slot.park.isNone && teamIs (fun t => barArrived t 2 x.g.num) s x) = true ∧
      ok (arriving 2) id i (fun s x => x.slot.park.isNone && barPending s x.g.gid 2) = true) ∧
    ok (bars 2 0 5 0) id (.barArv barW0) (fun s x => atOnce s x && teamIs (fun t => !barArrived t 2 x.g.num) s x && !barPending s x.g.gid 2) = true ∧
    ok (arriving 3) id (.barArv barW0) (fun s x => teamIs (fun t => !barArrived t 2 x.g.num) s x && !barPending s x.g.gid 2 &&
      s.pend.any (fun f => f.gid == x.g.gid && f.op == .barArrive soloGid 3)) = true ∧
    ok (bars 2 0 5 0) id (.barWait barW0) (fun s x => teamIs (fun t => barLastOf t 2 0 == 0) s x && !barPending s x.g.gid 2) = true ∧
    ok (bars 2 0 5 5) id (.barWait barW0) (fun s x => teamIs (fun t => barLastOf t 2 0 != 0 && !barArrived t 2 0) s x && !barPending s x.g.gid 2) = true ∧
    ok (bars 2 1 5 6) id (.barWait barW0) (fun s x => teamIs (fun t => barArrived t 2 0) s x) = true ∧
    (∀ p ∈ [((1 : Nat), true), (2, false)], ok (bars p.1 0 5 0) id (.barSync barW0) (fun s x => x.slot.park.isNone && teamIs (fun t => !barArrived t 2 0) s x &&
      atOnce s x && barDone (barArriveNow (drainWcb s x.g.gid) x.g.team 2 x.g.num) x.g 2 == p.2) = true) ∧
    (getT (bars 2 1 5 0 (tst id id (.nop (tY 0 0 0 0)))) soloGid).any (fun t => fget (0, 0, 0) 2 t.bars == (2, 1, 5)) = true ∧
    (∀ p ∈ [(0 : Nat), 1], ok (inGrid []) id (.cbar (tS 0 0 (.reg 0 0 (BitVec.ofNat 20 p)) 0)) (fun s x => (clusterOf s x.g).any (fun k => !cbarArrived k p x.g &&
      fget (0, 0, 0) p k.bars == (p + 1, 0, 0)) && x.slot.park.isNone && (releaseWait s x.g .cl).isNone) = true) ∧
    ok (inGrid []) late (.cbar (tS 0 0 (.reg 0 0 0) 0)) (fun s x => (releaseWait s x.g .cl).isSome) = true := by decide +kernel

/-- A lehr at 256: two slots of one line, `held` of them held, `aw` awaited, the filled and faulted slots as masks, the time of the last fill. -/
def lehrAt (held aw filled fault time : Nat) (s : State) : State :=
  let s := withTeam (fun t => { lehrWrite t 256 { lines := 1, cnt := 2, held := held, aw := aw, wr := 0, filled := filled, fault := fault, time := time } with
    slotFault := [(256, 0, { cls := 0x10, code := 1 })] }) (mapped s)
  s
def atHead (g : Group) : Group := ws g 6 256#64
def head (k : Team → Lehr → Bool) (s : State) (x : Issue) : Bool :=
  (rs x.g 6).toNat == 256 && teamIs (fun t => (headerCheck t 256).isNone && k t (lehrRead t 256)) s x
def lr (i : Instr) (f : State → State) (k : State → Issue → Team → Lehr → Bool) : Bool := ok f atHead i (fun s x => head (k s x) s x)
def lrA : SWord := tS 5 6 (.reg 0 0 0) 0
def lrP : SWord := tS 0 6 (.reg 7 0 0) 1
theorem wit_LehrStatements :
    (let l : Lehr := { lines := 8192, cnt := 64, held := 64, aw := 64, wr := 63, filled := 2 ^ 64 - 1, fault := 0, time := 7 }
     1 ≤ l.lines ∧ l.lines ≤ 8192 ∧ 1 ≤ l.cnt ∧ l.cnt ≤ 64 ∧ l.held ≤ 64 ∧ l.aw ≤ 64 ∧ l.wr < 64 ∧ l.filled < 2 ^ 64 ∧ l.fault < 2 ^ 64 ∧ l.time < 2 ^ 64) ∧
    (∀ p ∈ [((1 : Nat), (1 : Nat)), (32, 1), (1, 30)], ok (lehrAt 0 0 0 0 0) (fun g => ws (ws (atHead g) 7 (BitVec.ofNat 64 p.1)) 8 (BitVec.ofNat 64 p.2)) (.lrInit (tS 0 6 (.reg 7 8 0) 0))
      (fun s x => (srcB x.g (tS 0 6 (.reg 7 8 0) 0)).toNat == p.1 && (srcC x.g (tS 0 6 (.reg 7 8 0) 0)).toNat == p.2 &&
        head (fun t l => (localBad t (128 * ((256 + 159) / 128)) (128 * p.1 * p.2)).isNone && l.held == 0) s x) = true) ∧
    (∀ p ∈ [((0 : Nat), (1 : Nat)), (65, 1), (1, 0), (1, 8193)], ok (lehrAt 0 0 0 0 0) (fun g => ws (ws (atHead g) 7 (BitVec.ofNat 64 p.1)) 8 (BitVec.ofNat 64 p.2))
      (.lrInit (tS 0 6 (.reg 7 8 0) 0)) (head (fun _ _ => true)) = true) ∧
    lr (.lrAwait lrA) (lehrAt 1 0 1 0 999) (fun s x t l => !awaitBefore s x.g x.b 256 && (lehrRel t 256 + l.aw) % l.cnt == 0 && decide (l.aw < l.held) &&
      !l.fault.testBit 0 && l.filled.testBit 0 && decide (l.time < s.time)) = true ∧
    lr (.lrAwait lrA) (lehrAt 1 1 1 0 999) (fun s x _ l => !awaitBefore s x.g x.b 256 && decide (l.held ≤ l.aw)) = true ∧
    lr (.lrAwait lrA) (lehrAt 1 0 0 0 0) (fun _ _ _ l => !l.fault.testBit 0 && !l.filled.testBit 0) = true ∧
    lr (.lrAwait lrA) (lehrAt 1 0 1 0 1000) (fun s _ _ l => !l.fault.testBit 0 && decide (s.time ≤ l.time)) = true ∧
    lr (.lrAwait lrA) (lehrAt 1 0 1 1 0) (fun _ _ t l => decide (l.aw < l.held) && l.fault.testBit 0 &&
      (t.slotFault.find? (fun e => e.1 == 256 && e.2.1 == 0)).isSome) = true ∧
    lr (.lrRel (tS 0 6 (.reg 0 0 0) 0)) (lehrAt 1 1 1 0 0) (fun _ _ t l => decide (1 ≤ l.held) && decide (1 ≤ l.aw) && !l.fault.testBit (lehrRel t 256) &&
      fget 0 (256 * 64 + lehrRel t 256) t.mcOwner == 0) = true ∧
    lr (.lrRel (tS 0 6 (.reg 0 0 0) 0)) (lehrAt 0 0 0 0 0) (fun _ _ _ l => l.held == 0) = true ∧
    lr (.lrRel (tS 0 6 (.reg 0 0 0) 0)) (lehrAt 1 0 0 0 0) (fun _ _ t l => l.aw == 0 && !l.fault.testBit (lehrRel t 256)) = true ∧
    lr (.lrFill lrA) (lehrAt 1 0 0 0 0) (fun _ _ _ l => decide (l.held < l.cnt)) = true ∧
    lr (.lrFill lrA) (lehrAt 2 0 0 0 0) (fun _ _ _ l => decide (l.cnt ≤ l.held)) = true ∧
    (∀ p ∈ [((384 : Nat), true), (385, false)], ok (lehrAt 1 0 0 0 0) (fun g => ws (atHead g) 7 (BitVec.ofNat 64 p.1)) (.lrFillPut lrP) (fun s x => (releaseWait s x.g .tm).isNone &&
      head (fun t _ => (slotAt t 256 (srcB x.g lrP).toNat).isSome == p.2) s x) = true) := by decide +kernel

/-! Copies. -/

def ops3 (a b c d : Nat) (g : Group) : Group :=
  ws (ws (ws (ws g 6 (BitVec.ofNat 64 a)) 7 (BitVec.ofNat 64 b)) 8 (BitVec.ofNat 64 c)) 5 (BitVec.ofNat 64 d)
def cpW (d f7 : Nat) : SWord := tS (BitVec.ofNat 6 d) 6 (.reg 7 8 0) (BitVec.ofNat 7 f7)
/-- A halo descriptor at 512: two rows of eight bytes from team 0. -/
def haloTeam : State → State := fun s => withTeam (fun t => lwr t (at_ 512 (recB 32 [(0, 4, 0), (4, 4, 1), (8, 4, 8), (12, 4, 0), (16, 4, 0)]))) (inGrid [] s)
theorem wit_CopyAndHaloWords_1 :
    (∀ n ∈ [(0 : Nat), 2 ^ 30 + 8, 12], (n < 8 ∨ 2 ^ 30 < n ∨ n % 8 ≠ 0) ∧ ∀ i ∈ [Instr.cpIn (cpW 0 0), .cpOut (cpW 0 0), .cpG (cpW 0 0)],
      ok (lehrAt 0 0 0 0 0) (ops3 512 64 n 0) i (fun s x => (teamOf s x.g).isSome && (srcC x.g (cpW 0 0)).toNat == n) = true) ∧
    (∀ n ∈ [(8 : Nat), 1024], ok (lehrAt 0 0 0 0 0) (ops3 512 64 n 0) (.cpIn (cpW 0 0)) (teamIs (fun t => (localBad t 512 n).isNone)) = true ∧
      ok (lehrAt 0 0 0 0 0) (ops3 512 64 n 0) (.cpOut (cpW 0 0)) (teamIs (fun t => (localBad t 512 n).isNone)) = true) ∧
    ok (lehrAt 0 0 0 0 0) (ops3 256 64 128 0) (.cpIn (cpW 5 4)) (head (fun t l => decide (128 ≤ l.lines * 128) && !lehrFull t 256 &&
      (localBad t (slotAddr 256 l ((lehrRel t 256 + l.held) % l.cnt)) 128).isNone)) = true ∧
    ok (lehrAt 0 0 0 0 0) (ops3 512 64 128 256) (.cpOut (cpW 5 4)) (teamIs (fun t => (localBad t 512 128).isNone && (headerCheck t 256).isNone &&
      !lehrFull t 256)) = true ∧
    (∀ a ∈ [(72 : Nat), 56], ok (lehrAt 0 0 0 0 0) (ops3 a 64 8 0) (.cpG (cpW 0 0)) (fun s x => (teamOf s x.g).isSome) = true ∧ (a + 8 ≤ 64 ∨ 64 + 8 ≤ a)) ∧
    ok (lehrAt 0 0 0 0 0) (ops3 72 64 8 256) (.cpG (cpW 5 4)) (teamIs (fun t => (headerCheck t 256).isNone && !lehrFull t 256)) = true ∧
    ok (lehrAt 0 0 0 0 0) (ops3 64 64 8 0) (.cpG (cpW 0 0)) (fun s x => (teamOf s x.g).isSome) = true ∧
    (let b := 2 ^ 31; ok (lehrAt 0 0 0 0 0) (ops3 512 b 8 0) (.cpOut (cpW 0 0)) (fun s x => (rangeMiss s x.g b 8 2).isSome && teamIs (fun t => (localBad t 512 8).isNone) s x) = true ∧
      ok (lehrAt 0 0 0 0 0) (ops3 512 b 8 0) (.cpG (cpW 0 0)) (fun s x => (rangeMiss s x.g b 8 2).isSome && (teamOf s x.g).isSome) = true) ∧
    ok (lehrAt 0 0 0 0 0) (ops3 512 64 8 0) (.cpOut (cpW 0 0)) (fun s x => (rangeMiss s x.g 64 8 2).isNone && (teamOf s x.g).isSome) = true := by decide +kernel

end Sys2Proof.Tests

namespace Sys2Proof.Tests
open Sys2Proof Sys2Proof.Machine
set_option Elab.async false

/-- The teams' local memory with bytes at an offset. -/
def localBytes (a : Nat) (b : List Byte) (s : State) : State := withTeam (fun t => lwr t (at_ a b)) s
/-- A halo of two rows of eight bytes, from offset `src` of team 0 to 2048. -/
def haloRec (src : Nat) : List Byte := toBytes 32 (src * 2 ^ 16 + 2048 * 2 ^ 36 + (8 * 2 ^ 24 + 8 * 2 ^ 44 + 1 * 2 ^ 13) * 2 ^ 64)
def mcWord : SWord := tS 0 6 (.reg 7 8 1) 0
def mcState (free : FMap Nat) (s : State) : State :=
  let s := lehrAt 0 0 0 0 0 (inGrid [] s)
  if free = [] then s else withTeam (fun t => { t with mc := [{ off := 256, free := free }] }) s
theorem wit_CopyAndHaloWords_2 :
    (∀ p ∈ [(1024, true), (10236, false)], ok (fun s => localBytes 512 (haloRec (p.1 / 8 * 8)) (inGrid [] s)) (fun g => ws g 6 512#64) (.cpHalo (tS 0 6 (.reg 0 0 1) 0))
      (fun s x => teamIs (fun t => (localBad t 512 32).isNone && (absentLine t 512 32).isNone &&
        (let h := haloDec (lrd t 512 32)
         h.good && (clusterTeamAny s x.g h.team).any (fun u => (haloRowBad t u h).isNone == p.2) &&
           (clusterOf s x.g).any (fun cl => decide (h.team < cl.w * cl.h)))) s x) = true) ∧
    ok (fun s => localBytes 512 (toBytes 32 1) (inGrid [] s)) (fun g => ws g 6 512#64) (.cpHalo (tS 0 6 (.reg 0 0 1) 0)) (fun s x =>
      teamIs (fun t => (localBad t 512 32).isNone && (absentLine t 512 32).isNone && !(haloDec (lrd t 512 32)).good) s x && (clusterOf s x.g).isSome) = true ∧
    (∀ p ∈ [(([] : FMap Nat), false), ([(0, 0), (4096, 1)], true)], ok (mcState p.1) (ops3 256 64 128 0) (.cpMc mcWord) (fun s x =>
      teamIs (fun t => (clusterOf s x.g).any (fun cl => cl.w * cl.h == 1) && imm20 mcWord % 4096 == 1 && (clusterTeam s x.g 0).any (fun u =>
        (localBad u 256 32).isNone && decide (128 ≤ (lehrRead u 256).lines * 128)) &&
        (decide (t.mc.length < 4) || t.mc.any (fun c => c.off == 256)) && (fget 0 0 (mcChannel s x.g t 256 [0]).free == 0) == p.2) s x) = true) := by decide +kernel

def ccW : SWord := tS 0 6 (.reg 7 0 0) 1
theorem wit_CacheControlWords :
    ok mapped (ops3 0 256 0 0) (.ccPrf { ccW with f7 := 0 }) (fun s x => (rangeMiss s x.g 0 256 1).isNone) = true ∧
    ok mapped (ops3 (2 ^ 31) 256 0 0) (.ccPrf { ccW with f7 := 0 }) (fun s x => (rangeMiss s x.g (2 ^ 31) 256 1).isSome) = true ∧
    (∀ i ∈ [Instr.ccWb ccW, .ccInv { ccW with f7 := 0 }],
      ok mapped (ops3 (2 ^ 31) 256 0 0) i (fun s x => (ccCheck s x (2 ^ 31) 256).any (fun r => r.isRight)) = true ∧
      ok mapped (ops3 (2 ^ 57 - 1) 2 0 0) i (fun s x => (ccCheck s x (2 ^ 57 - 1) 2).any (fun r => r.isLeft)) = true) ∧
    (∀ i ∈ [Instr.ccWb ccW, .ccInv { ccW with f7 := 0 }], ok mapped (ops3 64 0 0 0) i (fun _ x => (rs x.g 7).toNat == 0) = true) ∧
    (∀ n ∈ [(1 : Nat), 300], ok mapped (ops3 64 n 0 0) (.ccWb ccW) (fun s x => (ccCheck s x 64 n).isNone) = true ∧
      ok mapped (ops3 64 n 0 0) (.ccInv { ccW with f7 := 0 }) (fun s x => (ccCheck s x 64 n).isNone) = true) ∧
    (∀ i ∈ [Instr.ccWb ccW, .ccInv { ccW with f7 := 0 }], ok mapped (ops3 64 (2 ^ 57 - 63) 0 0) i (fun _ x => decide (2 ^ 57 < (rs x.g 6).toNat + (rs x.g 7).toNat)) = true) ∧
    (∀ n ∈ [(0 : Nat), 2 ^ 16 - 1, 2 ^ 16], ok mapped (ops3 n 0 0 0) (.ccWays (tS 0 6 (.reg 0 0 0) 0)) (fun s x => (getC s x.g.ctx).isSome) = true) := by
  decide +kernel

/-! Matrix words. -/

/-- Format slot 2 names b16; the slot issues in lane 0 with tiles 0 to 3. -/
def b16Grid : State → State := inGrid [(160, 8, 2)]
def lane0 (g : Group) : Group := onSlot (fun y => { y with mask := 1#64 }) g
def mmaW (m : BitVec 3) : XWord := tX m 3 12 5 0x400 2 2 2 true
def mmafW : XWord := tX 0 3 12 5 0 2 2 2 false
def passOk (w : XWord) (mmaf : Bool) (s : State) (x : Issue) : Bool :=
  (gridSlot s x.g 2).any (fun t => (passBad x.g w mmaf (some t) ((rs x.g 5).toNat / 2 ^ 32)).isNone &&
    (pairing t.el 2 2 false).any (fun pr => teamIs (fun tm => mmaf || (mxAddrBad tm (rs x.g 5).toNat (mxAddr x.g w) 16 (bBytes pr t.scale)).isNone &&
      (mxFaulted tm (mxAddr x.g w) (bBytes pr t.scale)).isNone) s x))
def pontilOf (n : Nat) (s : State) : State := { b16Grid s with parts := s.parts.map (fun p => { p with pontil := some n }), groups := s.groups ++ [{ soloGroup false 0#64 with gid := 55, num := 4 }] }
theorem wit_MatrixPasses_1 :
    ok b16Grid lane0 (.mxMma (mmaW 0)) (passOk (mmaW 0) false) = true ∧ ok b16Grid lane0 (.mxMmaf mmafW) (passOk mmafW true) = true ∧
    ok b16Grid (fun g => lane0 { g with latch := some (12, [1#64]) }) (.mxMma (mmaW 0)) (fun s x => passOk (mmaW 0) false s x && x.g.latch.any (fun l => l.1 == 12)) = true ∧
    ok b16Grid (fun g => lane0 { g with latch := some (13, [1#64]) }) (.mxMma (mmaW 0)) (fun s x => passOk (mmaW 0) false s x && x.g.latch.any (fun l => l.1 != 12)) = true ∧
    ok b16Grid lane0 (.mxMma (mmaW 1)) (fun s x => passOk (mmaW 1) false s x && 8 * octets x.active x.g.width == 0) = true ∧
    ok b16Grid lane0 (.mxMma (mmaW 0)) (fun s x => 8 * octets x.active x.g.width == 8 && (getPart s x.g.core x.g.part).pontil.isNone) = true ∧
    ok (pontilOf soloGid) lane0 (.mxMma (mmaW 0)) (fun s x => passOk (mmaW 0) false s x && (getPart s x.g.core x.g.part).pontil == some x.g.gid) = true ∧
    ok (pontilOf 55) lane0 (.mxMma (mmaW 0)) (fun s x => passOk (mmaW 0) false s x && (getPart s x.g.core x.g.part).pontil == some 55 && (getG s 55).isSome) = true ∧
    (∀ i ∈ [Instr.mxMma { mmaW 0 with tile := 4 }, .mxMmaf { mmafW with tile := 31 }], ok b16Grid lane0 i (fun _ x => decide (x.g.accN ≤ 4)) = true) := by decide +kernel
theorem wit_MatrixPasses_2 :
    (∃ t pr, slotDec 8 0 = some t ∧ pairing t.el 2 2 false = some pr ∧ pr.int = true ∧ t.scale = false) ∧ 2 ^ 32 - 1 < 2 ^ 32 ∧
    (decF fmtF32 false 0x3F800000).isNan = false ∧ (∃ v ∈ [((decF fmtF32 false 0, true) : FV × Bool)], v.2 = true) ∧
    (let l : List (FV × Bool) := [(decF fmtF32 false 0x7FC00000, false)]
     (∀ v ∈ l, v.2 = false) ∧ (∀ v ∈ l, v.1.isInf = false) ∧ (decF fmtF32 false 0x3F800000).isInf = false ∧ ∃ v ∈ l, v.1.isNan = true) ∧
    (decF fmtF32 false 0xFF800000).isInf = true ∧ (decF fmtF32 false 0xFF800000).isNan = false ∧ (decF fmtF32 false 0x7FC00001).isNan = true ∧
    (let o := decF fmtF32 false 0x7F800000; let l : List (FV × Bool) := [(decF fmtF32 false 0xFF800000, false)]
     FV.inf true ∈ o :: l.map Prod.fst ∧ FV.inf false ∈ o :: l.map Prod.fst ∧ o.isNan = false ∧ (∀ v ∈ l, v.2 = false)) ∧
    (let o := decF fmtF32 false 0x3F800000; let l : List (FV × Bool) := [(decF fmtF32 false 0x7F800000, false)]
     FV.inf true ∉ o :: l.map Prod.fst ∧ FV.inf false ∈ o :: l.map Prod.fst ∧ (∀ v ∈ l, v.2 = false ∧ v.1.isNan = false)) ∧
    (let o := decF fmtF32 false 0x3F800000; let l : List (FV × Bool) := [(decF fmtF32 false 0x40000000, false)]
     (∀ v ∈ l, v.2 = false) ∧ (∀ v ∈ o :: l.map Prod.fst, v.isNan = false ∧ v.isInf = false) ∧ o = .num false 8388608 (-23) ∧
       l.map Prod.fst = [.num false 8388608 (-22)]) ∧
    (∃ t pr, slotDec 2 0 = some t ∧ pairing t.el 2 2 false = some pr ∧ pr.int = false ∧ t.scale = false) := by
  refine ⟨⟨_, _, rfl, rfl, by decide +kernel⟩, by decide +kernel, by decide +kernel, by decide +kernel, by decide +kernel, by decide +kernel,
    by decide +kernel, by decide +kernel, by decide +kernel, by decide +kernel, by decide +kernel, ⟨_, _, rfl, rfl, by decide +kernel⟩⟩
/-- The exact sum of the witness is not zero. -/
theorem wit_MatrixPasses_3 : valueQ (.num false 8388608 (-23)) + ([valueQ (.num false 8388608 (-22))] : List ℚ).sum ≠ 0 := by norm_num [valueQ]

def xw (tile : BitVec 5) (base : BitVec 6) (off : BitVec 20) (bit4 : Bool) : XWord := tX 0 tile 0 base off 0 0 0 bit4
def spW (n c : Nat) : SWord := tS 0 0 (.reg 0 0 (BitVec.ofNat 20 (n + 32 * (c - 1)))) 0
def openSpec (g : Group) : Group := { g with spec := some (3, 1) }
theorem wit_TilePontilAndSpeculation :
    ok mapped id (.mxZero (xw 3 0 0 false)) (fun _ x => decide (3 < x.g.accN) && x.active != 0#64) = true ∧
    ok mapped (onSlot (fun y => { y with mask := 0#64 })) (.mxZero (xw 3 0 0 false)) (fun _ x => x.active == 0#64) = true ∧
    (∀ i ∈ [Instr.mxSt (xw 3 5 128 false), .mxLd (xw 3 5 128 false)], ok mapped (fun g => lane0 { g with width := 8 }) i (fun s x =>
      mxAddr x.g (xw 3 5 128 false) == 128 && x.active != 0#64 && teamIs (fun t => (mxAddrBad t (rs x.g 5).toNat 128 128 (256 * x.g.width)).isNone &&
        (lanesOf x.active).all (fun l => (mxFaulted t (128 + 256 * l) 256).isNone)) s x) = true) ∧
    ok mapped id (.mxWait (xw 3 0 0 false)) (fun s x => let a := some [3, tileLoc x.g 3]; !tileBusy s x.g.gid a (tileMark s x) && (tileDue x.g a).isNone) = true ∧
    ok mapped id (.mxWait (xw 0 0 0 true)) (fun s x => !tileBusy s x.g.gid none (tileMark s x) && (tileDue x.g none).isNone) = true ∧ ok mapped id (.mxRel (xw 0 0 0 false)) (fun _ _ => true) = true ∧
    (∀ i ∈ [Instr.mxZero (xw 4 0 0 false), .mxLd (xw 31 5 128 false), .mxSt (xw 4 5 128 false)], ok mapped id i (fun s x => decide (x.g.accN ≤ 4) && (teamOf s x.g).isSome) = true) ∧
    (∀ p ∈ [(none : Option Nat), some soloGid, some 55], ∀ i ∈ [Instr.plTake (xw 0 0 0 false), .plPass (xw 4 0 0 false), .plPass (xw 5 0 0 false), .plPassFree (xw 0 0 0 true)],
      ok (fun s => match p with | none => b16Grid s | some n => pontilOf n s) id i (fun s x => (getPart s x.g.core x.g.part).pontil == p) = true) ∧
    (let s := pontilOf soloGid (tst id id (.nop (tY 0 0 0 0)))
     (s.groups.any (fun g => g.team == soloGid && g.core == 0 && g.part == 0 && g.num == 4)) = true ∧
     (s.groups.all (fun g => !(g.team == soloGid && g.core == 0 && g.part == 0 && g.num == 5))) = true) ∧
    (∀ p ∈ [((3 : Nat), (1 : Nat)), (4, 1), (0, 2)], ok mapped id (.spOpen (spW p.1 p.2)) (fun _ x => imm20 (spW p.1 p.2) % 32 == p.1 && imm20 (spW p.1 p.2) / 32 % 16 + 1 == p.2 &&
      x.g.spec.isNone && (decide (x.g.accN < p.1 + p.2) == (p.1 == 4)) && (decide (x.g.parN < p.2) == (p.2 == 2))) = true) ∧
    ok mapped openSpec (.spOpen (spW 3 1)) (fun _ x => x.g.spec.isSome && decide (3 + 1 ≤ x.g.accN ∧ 1 ≤ x.g.parN)) = true ∧
    (∀ i ∈ [Instr.spKeep (spW 0 1), .spDrop (spW 0 1)], ok mapped openSpec i (fun _ x => x.g.spec.isSome) = true ∧ ok mapped id i (fun _ x => x.g.spec.isNone) = true) := by
  decide +kernel

/-- A feedback record at 0 with a seed and two entries. -/
def withMem (a : Nat) (b : List Byte) (s : State) : State := wrBytes s (at_ a b)
theorem wit_FeedbackWords :
    ok (fun s => withMem 0 (recB 64 [(0, 4, 77), (8, 2, 0x3F80), (38, 2, 0xBF80)]) (mapped s)) id (.fbSet (tS 0 6 (.reg 0 0 0) 0)) (fun s x =>
      match laneCheck s x.g 0 (rs x.g 6).toNat 64 1 1 true 4 with
      | .ok l => (match readNow s x.g l.pas with
        | some (.inr p) => p.2.length == 64 && (List.range 64).all (fun i => decide (i < 4) || decide (8 ≤ i ∧ i < 40) || p.2.getD i 0#8 == 0#8)
        | _ => false)
      | _ => false) = true ∧
    ok mapped (fun g => onSlot (fun y => { y with mask := 9#64 }) g) (.fbTab (tV 0 0 0 17 0 0 9 0)) (fun _ x => x.active == 9#64) = true ∧
    ok mapped id (.fbTabSet (tV 0 0 0 17 0 0 9 1)) (fun _ _ => true) = true := by decide +kernel

end Sys2Proof.Tests

namespace Sys2Proof.Tests
open Sys2Proof Sys2Proof.Machine
set_option Elab.async false

/-! Stations, towers and the network. -/

def stW (d : BitVec 6) (f7 : BitVec 7) : SWord := tS d 6 (.reg 7 0 0x10) f7
def commitW : SWord := tS 0 6 (.reg 7 8 0x10) 0
def stWords : List (Instr × Bool) := [(.paOpen (stW 5 0), false), (.paOpenRp (stW 5 1), false), (.paClose (stW 0 0), true), (.wvCommit commitW, true)]
def answered (r : StRes) (g : Group) : Group := onSlot (fun y => { y with stop := some (4, some r) }) (two 2048#64 3#64 g)
theorem wit_StationsAndBroadcast_1 :
    (∀ p ∈ stWords, ok mapped (two 2048#64 3#64) p.1 (fun s x => x.slot.stop.isNone && srcB x.g (stW 5 0) != 0#64 && (rs x.g 6).toNat % 2048 == 0 &&
        (srcC x.g commitW).extractLsb' 16 16 == 0#16 && (match recCheck s x.g 2048 3 with | .ok _ => true | _ => false) && (releaseWait s x.g .dv).isNone &&
        (getG (launchOp (drainWcb s x.g.gid) x.g.gid x.g.ctx x.g.core .none (.barArrive 0 0)) x.g.gid).isSome) = true ∧
      ok mapped (answered (.ok 1#64)) p.1 (fun s x => (getG s x.g.gid).isSome && x.slot.stop == some (4, some (.ok 1#64))) = true ∧
      ok mapped (answered (.bad { cls := 0x14, code := 2 })) p.1 (fun _ x => match x.slot.stop with | some (4, some (.bad _)) => true | _ => false) = true ∧
      ok mapped (two 2048#64 0#64) p.1 (fun _ x => x.slot.stop.isNone && srcB x.g (stW 5 0) == 0#64) = true) := by decide +kernel
theorem wit_StationsAndBroadcast_2 :
    ok mapped (two 2048#64 0#64) (.acGet (tS 5 6 (.reg 0 0 0x1F) 0)) (fun s x => ctrOf (tS 5 6 (.reg 0 0 0x1F) 0) == some 15 &&
      (match recCheck s x.g 2048 1 with | .ok _ => true | _ => false)) = true ∧
    (∀ p ∈ [((0 : Nat), false), (3, true)], ok (fun s => withMem (2048 + 64) (recB 8 [(0, 8, p.1)]) (mapped s)) (two 2048#64 3#64) (.acWait (stW 0 0)) (fun s x =>
      let s1 := clearWalks (drainWcb s x.g.gid) x.g.gid
      srcB x.g (stW 0 0) != 0#64 && acReady s1 x.g.gid 2048 0 3 == p.2 && (badAt s1 [2048 + 64]).isNone) = true) := by decide +kernel

/-- A record at 0: one retention slot, one tile of version 1, the pass and binding of slot 0. -/
def recAt (pass bind : Nat) : State := withMem 0 (recB 800 [(208, 4, 0), (212, 4, 1), (704, 8, pass), (712, 8, bind)]) State.reset
theorem wit_StationsAndBroadcast_3 :
    (recQ (recAt 7 (2 ^ 63)) 0 (retOff 0 + 8)).testBit 63 = true ∧
    ((recQ (recAt 0 0) 0 (retOff 0 + 8)).testBit 63 = false ∧ recBad (recAt 0 0) 0 = false ∧ 0 < recTiles (recAt 0 0) 0) ∧
    (recQ (recAt 7 (2 ^ 63)) 0 (retOff 0 + 8)).testBit 63 = true ∧ recQ (recAt 7 (2 ^ 63)) 0 (retOff 0) ≠ 6 ∧
    ((2 : Nat).testBit 1 = true ∧ recTiles (recAt 0 0) 0 ≤ 1 ∧ ∀ u < 1, (2 : Nat).testBit u = true → u < recTiles (recAt 0 0) 0) ∧
    (1 < 2 ^ 16 ∧ recTiles (recAt 0 0) 0 = 1 ∧ verOf (recAt 0 0) 0 0 (newest (recAt 0 0) 0 0) < 2 ∧
      fld (recQ (recAt 0 0) 0 (tileOff 0 + 24)) (16 * (1 - newest (recAt 0 0) 0 0)) 16 = 0) ∧
    (recQ (recAt 7 (2 ^ 63)) 0 (retOff 0) = 7 ∧ recBad (recAt 7 (2 ^ 63)) 0 = false) ∧
    (let s := wrBytes (recAt 7 (2 ^ 63)) (at_ 8 [1#8])
     recBad s 0 = true ∧ recQ s 0 (retOff 0) = 7 ∧ (recQ s 0 (retOff 0 + 8)).testBit 63 = true) ∧
    (let s := wrBytes (recAt 0 0) (at_ 8 [1#8]); recBad s 0 = true ∧ (recQ s 0 (retOff 0 + 8)).testBit 63 = false) ∧
    ((1 : Nat).testBit 0 = true ∧ 1 ≤ verOf (recAt 0 0) 0 0 (newest (recAt 0 0) 0 0)) ∧
    (let s := wrBytes (recAt 0 0) (at_ 216 (toBytes 8 (2 ^ 16 + 1)))
     verOf s 0 0 (newest s 0 0) < 2 ∧ fld (recQ s 0 (tileOff 0 + 24)) (16 * (1 - newest s 0 0)) 16 ≠ 0) := by decide +kernel

/-- A list of one entry at 64: every team of the cluster on this device. -/
def ebList (s : State) : State := withMem 64 (recB 64 [(0, 8, 0), (32, 8, 0), (40, 8, 1), (48, 8, 2 ^ 35)]) (mapped s)
theorem wit_StationsAndBroadcast_4 : ok ebList (ops3 0 8 1 64) (.ebSend (tS 5 6 (.reg 7 8 0) 0)) (fun s x => teamIs (fun t =>
    (ebOperand x.g t (tS 5 6 (.reg 7 8 0) 0)).isNone && (releaseWait s x.g .tm).isNone &&
    (match laneCheck s x.g 0 64 32 1 1 true 1 with
     | .ok hd => readReady s x.g hd.pas true && (badAt s hd.pas).isNone && fld (le (hd.pas.map (rdByte s)) 0 8) 6 58 == 0 && ((hd.pas.map (rdByte s)).drop 8).all (· == 0#8) &&
        fld (le (hd.pas.map (rdByte s)) 0 8) 0 6 + 1 == 1
     | _ => false) &&
    (let res := (List.range 1).map (fun k => laneCheck s x.g 0 (96 + 32 * k) 32 1 1 true 1)
     okLanes res && readReady s x.g ((goodLanes res).flatMap (fun y => y.pas)) true && (badAt s ((goodLanes res).flatMap (fun y => y.pas))).isNone &&
      (splitEntries 1 (((goodLanes res).flatMap (fun y => y.pas)).map (rdByte s))).all (fun e => !entryBad s x.g.ctx e))) s x) = true ∧
    entryBad (tst ebList id (.nop (tY 0 0 0 0))) 1 (List.replicate 32 0xFF#8) = true := by decide +kernel

/-- The context holds cane pair 7; towers 0 and 1, segment 0, canes 0 to 31. -/
def caned (s : State) : State := { mapped s with ctxs := [{ soloCtx with pairs := 0x80 }] }
def selRegs (a : Nat) (g : Group) : Group := ws (ws (ws g 6 (BitVec.ofNat 64 a)) 5 3#64) 7 (BitVec.ofNat 64 (32 * 2 ^ 16))
def block0 : State → State := fun s => localBytes 512 (recB 56 [(0, 8, 1), (40, 8, 0x4618000000F000C0), (48, 8, 0xDA00000000000000)]) (caned s)
def selOk (w : TWord) (k : TwSel → Bool) (s : State) (x : Issue) : Bool := match twSelect s x w with | .inl q => k q | .inr _ => false
theorem wit_TowerAndFarAtomicWords_1 :
    (∀ w ∈ [tT 0 6 5 7 0 31 6 0, tT 0 6 5 7 1016 7 12 1, tT 0 6 5 7 0 31 22 0], ok caned (selRegs 128) (.twXin w) (fun s x => selOk w (fun q => (xferBad x.g w q false).isNone) s x) = true) ∧
    ok caned (selRegs 128) (.twXout (tT 0 6 5 7 0 31 6 0)) (fun s x => selOk (tT 0 6 5 7 0 31 6 0) (fun q => (xferBad x.g (tT 0 6 5 7 0 31 6 0) q true).isNone) s x) = true ∧
    (let w := { tT 0 6 5 7 0 0 0 0 with start := (1 : BitVec 5) }
     ok block0 (selRegs 512) (.twRun w) (fun s x => selOk w (fun _ => true) s x && teamIs (fun t => match readBlock t 512 with
       | .ok h _ c => decide (h < 32 ∧ 1 < c.length) | _ => false) s x) = true) ∧
    (∀ i ∈ [Instr.twXin (tT 0 6 5 7 0 31 6 0), .twXout (tT 0 6 5 7 0 31 6 0), .twRun (tT 0 6 5 7 0 0 0 0)], ok mapped (selRegs 128) i (fun s x =>
      match twSelect s x (tT 0 6 5 7 0 31 6 0) with | .inr _ => true | .inl _ => false) = true) := by decide +kernel
def shareOf (word : Nat) : Op :=
  .share { kind := .run, word := word, tower := 0, ctx := 1, team := soloGid, canes := [], first := 0, addr := 0, row := 0, w := 0, ty := 0, bc := none, sat := false, hint := 0, block := [], gaddr := [], idx := 0, active := [] }
def waitW : TWord := tT 0 6 5 0 0 0 0 0
def withOp (op : Op) (s : State) : State :=
  { mapped s with pend := [{ id := 5, word := 5, gid := soloGid, ctx := 1, core := 0, cls := (match op with | .share _ => .tower | _ => .far), op := op }] }
theorem wit_TowerAndFarAtomicWords_2 :
    ok (withOp (shareOf 1)) (fun g => { g with twCount := 1 }) (.twWait waitW) (fun s x => !x.replay && twBusy s x.g 0) = true ∧
    ok (withOp (shareOf 1)) (fun g => ws { g with twCount := 1 } 6 1#64) (.twWait waitW) (fun s x => !x.replay && !twBusy s x.g (sregT x.g 6)) = true ∧
    ok mapped (fun g => { g with twTime := 999 }) (.twWait waitW) (fun s x => !twBusy s x.g 0 && x.g.due.isEmpty && decide (x.g.twTime < s.time)) = true ∧
    ok mapped (fun g => { g with twTime := 1000 }) (.twWait waitW) (fun s x => !twBusy s x.g 0 && decide (s.time ≤ x.g.twTime)) = true ∧
    ok mapped (fun g => { g with due := [{ cls := .tower, info := { cls := 0x15, code := 3 }, word := 0 }] }) (.twWait waitW) (fun s x => !twBusy s x.g 0 &&
      (x.g.due.find? (fun d => d.cls == .tower && twNamed x.g 0 d.word)).isSome) = true ∧
    (∀ w ∈ [tV 0 0 0 17 18 0 6 0, tV 0 15 0 17 32 0 22 0], ok mapped (fun g => lanes2 0 0 g) (.farAdd w) (fun s x =>
      okLanes ((lanesOf x.active).map (fun l => farLane s x.g l (rv x.g 17 l).toNat (if w.ty.toNat = 22 then 128 else 4)))) = true) ∧
    ok (withOp (.far { lane := 0, va := 0, pas := [0, 1, 2, 3] } false [] 0 none false false)) id (.farFence (tT 0 0 0 0 0 0 0 0)) (fun s x => !quiet s x.g .far) = true ∧
    ok mapped (fun g => { g with farTime := 999 }) (.farFence (tT 0 0 0 0 0 0 0 0)) (fun s x => quiet s x.g .far && x.g.due.isEmpty && decide (x.g.farTime < s.time)) = true ∧
    ok mapped (fun g => { g with farTime := 1000 }) (.farFence (tT 0 0 0 0 0 0 0 0)) (fun s x => quiet s x.g .far && decide (s.time ≤ x.g.farTime)) = true ∧
    ok mapped (fun g => { g with due := [{ cls := .far, info := { cls := 0x17, code := 3 } }] }) (.farFence (tT 0 0 0 0 0 0 0 0)) (fun s x => quiet s x.g .far &&
      (x.g.due.find? (fun d => d.cls == .far)).isSome) = true := by decide +kernel

/-- Device 12 is known to the job; `n` sends are armed, counter 4 is at 9. -/
def netted (n : Nat) (s : State) : State :=
  { mapped s with jobs := [{ job := 0, key := 0, mgmtKey := 0, self := 1, table := [1, 12], seq := 0 }],
                  ctxs := [{ soloCtx with counters := [(4, 9#64)],
                                          armed := List.replicate n { loc := none, src := 0, dst := 0, bytes := 8, dev := 12, trig := 4, thr := 10, cnt := none } }] }
def netLost (n : Nat) (s : State) : State := { netted n s with jobs := [{ job := 0, key := 0, mgmtKey := 0, self := 1, table := [1, 12], seq := 0, lost := [12] }] }
def cntDue (g : Group) : Group := { g with due := [{ cls := .net, info := { cls := 0x1E, code := 1 }, cnt := some 4 }] }
def netRegs (dev : Nat) (g : Group) : Group := ops3 128 8 (12 * 0 + dev) 0 (ws g 9 (BitVec.ofNat 64 64))
def nW (f12 : BitVec 12) : NWord := tN 6 9 7 0 12 f12
def armW : NWord := tN 6 9 7 8 0 0x204
theorem wit_NetworkAndCounterWords_1 :
    ok (netted 0) (netRegs 0) (.netSend (nW 0x205)) (fun s x => teamIs (fun t => (netBad s x.g t (nW 0x205) false).isNone) s x) = true ∧
    ok mapped (netRegs 0) (.netSend (nW 0x205)) (fun s x => teamIs (fun t => (netBad s x.g t (nW 0x205) false).isSome) s x) = true ∧
    (∀ f ∈ [(0x200 : Nat), 0x400], ok (netted 0) (netRegs 0) (.netGet (nW (BitVec.ofNat 12 f))) (fun s x => teamIs (fun t =>
      (netBad s x.g t (nW (BitVec.ofNat 12 f)) false).isNone && !lostDev s x.g.ctx 12) s x) = true) ∧
    (∀ f ∈ [(0x200 : Nat), 0x400], ok (netLost 0) (netRegs 0) (.netGet (nW (BitVec.ofNat 12 f))) (fun s x => teamIs (fun t =>
      (netBad s x.g t (nW (BitVec.ofNat 12 f)) false).isNone && lostDev s x.g.ctx 12 && (getF (launchOp (if f == 0x400 then
        putT (drainWcb s x.g.gid) { clearLines t 128 8 with inbound := t.inbound + 1 } else drainWcb s x.g.gid) x.g.gid x.g.ctx x.g.core .net
        (.get (xferOf x.g t (nW (BitVec.ofNat 12 f)) false))) (drainWcb s x.g.gid).nextId).isSome) s x) = true) ∧
    ok mapped (netRegs 0) (.netGet (nW 0x200)) (fun s x => teamIs (fun t => (netBad s x.g t (nW 0x200) false).isSome) s x) = true ∧
    (∀ n ∈ [(0 : Nat), 255, 256], ok (netted n) (netRegs 12) (.netArm armW) (fun s x => teamIs (fun t => (netBad s x.g t armW true).isNone) s x &&
      (getC s x.g.ctx).any (fun c => c.armed.length == n)) = true) ∧
    ok (netted 0) id (.cntInit (tN 6 0 0 0 0 511)) (fun _ _ => true) = true ∧ ok (netted 0) id (.cntGet (tN 0 0 0 8 0 4)) (fun _ _ => true) = true ∧
    (∀ p ∈ [((9 : Nat), true), (10, false)], ok (netted 0) (fun g => ws g 6 (BitVec.ofNat 64 p.1)) (.cntWait (tN 6 0 0 0 0 4)) (fun s x =>
      (x.g.due.find? (fun d => d.cnt == some 4)).isNone && decide ((rs x.g 6).toNat ≤ (counterOf s x.g.ctx 4).toNat) == p.2) = true) ∧
    ok (netted 0) cntDue (.cntWait (tN 6 0 0 0 0 4)) (fun _ x => (x.g.due.find? (fun d => d.cnt == some 4)).isSome) = true ∧
    (let s := netted 2 (tst id id (.nop (tY 0 0 0 0))); (getC s 1).any (fun c => c.ctx == 1 && c.armed.length == 2) = true) := by decide +kernel
def collState (landed : Bool) (fired : Bool) (s : State) : State :=
  { withTeam (fun t => { t with chunk := { t.chunk with fired := fired, landed := landed } }) (inGrid [] s) with
    grids := [{ grid0 [] with coll := some { op := 0, members := 2, rank := 0, cgroup := 0, tree := 1, chunk := 64, buffer := 0, total := 64, dctr := none } }] }
theorem wit_NetworkAndCounterWords_2 :
    (∀ fired ∈ [true, false], ok (collState false fired) id (.collStep (tN 0 0 0 0 0 0)) (fun s x => !x.g.task && x.g.num == 0 &&
      teamIs (fun t => (chunkOf s t).any (fun c => c.1.cgroup == 0)) s x) = true) ∧
    (∀ landed ∈ [true, false], ok (collState landed true) id (.collStep (tN 0 0 0 0 0 1)) (fun s x => !x.g.task && x.g.num == 0 &&
      teamIs (fun t => (chunkOf s t).any (fun c => c.1.cgroup == 0 && c.1.members != 1 && c.1.total != 0) && t.chunk.abort.isNone && t.chunk.fired &&
        (getT s t.tid).isSome) s x) = true) ∧
    ok (collState false false) (fun g => { g with num := 1 }) (.collStep (tN 0 0 0 0 0 0)) (fun s x => teamIs (fun t => (chunkOf s t).any (fun c =>
      x.g.num != c.1.cgroup)) s x) = true ∧
    ok (collState false false) (fun g => { g with task := true }) (.collStep (tN 0 0 0 0 0 1)) (fun s x => x.g.task && teamIs (fun t => (chunkOf s t).isSome) s x) = true := by decide +kernel

/-! Cane commands. -/

theorem wit_CaneCommandsAndMasks :
    (let c := tK 300 100 116 15 7 3 false true 0
     caneBad { c with wam1 := 0, wbm1 := 0 } 1 true false false false (c.d.toNat, 16) (caneSrcs { c with wam1 := 0, wbm1 := 0 }) = false ∧
     caneBad { c with wam1 := 0, wbm1 := 0, s := false } 1 false false false false (c.d.toNat, 16) (caneSrcs { c with wam1 := 0, wbm1 := 0 }) = false ∧
     caneBad c 0 true true false false (c.d.toNat, 16) [(c.a.toNat, 8), (c.b.toNat, 4)] = false) ∧
    (∀ b ∈ [(0 : Nat), 63], let c := tK 1008 100 (BitVec.ofNat 10 b) 15 0 0 true false 0
      c.b.toNat < 64 ∧ caneBad c 2 false false false false (c.d.toNat, 16) [(c.a.toNat, 16)] = false) ∧
    (∀ k ∈ [(0 : Nat), 5], let c := tK 112 96 16 15 0 0 true true (BitVec.ofNat 3 k)
      c.cc.toNat ≤ 5 ∧ caneBad c 1 false false true false (c.d.toNat, 1) (caneSrcs c) = false) ∧
    (let c := tK 113 96 0 15 0 0 false false 0; c.b = 0#10 ∧ caneBad c 0 false false false false (c.d.toNat, 16) [(c.a.toNat, 16)] = false) ∧
    (let c := tK 96 0 511 15 0 0 true false 0; c.a = 0#10 ∧ caneBad c 2 false false false false (c.d.toNat, 16) [] = false) := by decide +kernel
def shareAt (active : List (Bool × List Bool)) : Share :=
  { kind := .run, word := 1, tower := 0, ctx := 1, team := soloGid, canes := [0, 1], first := 0, addr := 512, row := 0, w := 0, ty := 0, bc := none,
    sat := false, hint := 0, block := [0xDA00000000000000#64], gaddr := [0, 2 ^ 20, 0, 0], idx := 0, active := active, begun := true }
def sequencing (active : List (Bool × List Bool)) : State :=
  { withOp (.share (shareAt active)) (tst id id (.nop (tY 0 0 0 0))) with focus := .tower 5 }
def allCanes : Share := { shareAt (List.replicate 32 (true, [])) with canes := List.range 32 }
def bfaC (i : Bool) (b : BitVec 10) : CaneCmd := tK 128 256 b 31 0 0 i false 0
theorem wit_CaneCommandsAndMasks_2 :
    (let s := sequencing [(true, []), (false, [])]
     s.focus = .tower 5 ∧ getF s 5 = some (flightOf s) ∧ (flightOf s).op = .share (shareAt [(true, []), (false, [])]) ∧ [0, 1].Nodup ∧
       caneErrors s (activeCanes (shareAt [(true, []), (false, [])])) [(100, 16), (116, 16)] (300, 16) = [] ∧
       ∀ r ∈ [(100 : Nat), 131], caneErrors { s with badCane := [(rowGroup 0 r, 1)] } (activeCanes (shareAt [(true, []), (false, [])])) [(100, 16), (116, 16)] (300, 16) =
         rowGroup 0 r :: []) ∧
    stackBad (tK 0 112 0 0 0 0 false false 1) true true = false ∧ stackBad (tK 0 0 0 0 0 0 false false 0) false false = false ∧
    caneErrors (sequencing []) [0, 1] [(112, 1)] (0, 0) = [] ∧
    (∀ l ∈ [[], [true, true, true]], ∀ p ∈ (shareAt [(true, l), (true, l)]).active, p.2.length < 4) ∧
    (∀ p ∈ (shareAt [(true, [true]), (true, [true, false])]).active, p.2 ≠ []) ∧
    (∃ p ∈ (shareAt [(true, []), (true, [true, true, true, true])]).active, 4 ≤ p.2.length) ∧
    (∃ p ∈ (shareAt [(true, []), (true, [true, true, true, true])]).active, p.2 = []) ∧
    (let c := bfaC false 512; caneErrors (sequencing (List.replicate 32 (true, []))) (bfaCanes allCanes) [(c.a.toNat, 32), (c.b.toNat, 32)] (c.d.toNat, 32) = [] ∧
      caneBad c 1 false false false (c.s || decide (c.wm1 ≠ 31#6)) (c.d.toNat, 32) [(c.a.toNat, 32), (c.b.toNat, 32)] = false) ∧
    (∀ b ∈ [(0 : Nat), 3], let c := bfaC true (BitVec.ofNat 10 b)
      caneBad c 1 false false false (c.s || decide (c.wm1 ≠ 31#6) || decide (4 ≤ c.b.toNat)) (c.d.toNat, 32) [(c.a.toNat, 32)] = false ∧
      (shareAt []).gaddr.getD b 0 < 2 ^ 57 ∧ caneErrors (sequencing (List.replicate 32 (true, []))) (bfaCanes allCanes) [(c.a.toNat, 32)] (c.d.toNat, 32) = []) ∧
    (let s := sequencing (List.replicate 32 (true, []))
     (match bfaWrite (bfaC false 512) s allCanes [] with | .ok _ _ => true | _ => false) = true ∧
     (match bfaPages s (flightOf s) allCanes 0 with
      | .ok pas => pas.length == 128 && (match towerRead s (flightOf s) 0 pas with
        | some (.inr p) => (match bfaWrite (bfaC true 0) p.1 allCanes p.2 with | .ok _ _ => true | _ => false)
        | _ => false)
      | _ => false) = true) ∧
    (∀ n ∈ [(1 : Nat), 2], let c := { tK 300 100 116 15 0 0 false false 0 with rsv := BitVec.ofNat 2 n }
      caneBad c 1 true false false false (c.d.toNat, 16) (caneSrcs c) = true ∧ stackBad c true true = true) ∧
    allCanes.canes.Nodup ∧ (bfaBlocks allCanes)[0]? = some (0, 0) ∧ (0 : Nat) ∉ bfaCanes (shareAt []) ∧
    (let b : Bfp := { e := 255, m := List.replicate 32 (2 ^ 23 - 1) }
     b.m.length = 32 ∧ b.e < 256 ∧ ∃ i < 32, 2 ^ 23 ≤ elemOf b i + elemOf b i) := by decide +kernel

end Sys2Proof.Tests

namespace Sys2Proof.Tests
open Sys2Proof Sys2Proof.Machine
set_option Elab.async false

/-! The device's own steps. -/

/-- The service's unit translates too. -/
def served (s : State) : State :=
  let s1 := mapped s
  { s1 with tlb := s1.tlb ++ [{ unit := 255, ctx := 1, va := 0, size := 2 ^ 30, pa := 0, rights := 7, rmost := false }] }
/-- One group of the solo context; every function ready. -/
def ready (s : State) : State := { served s with status := List.replicate 130 (2, 0) }
def dev (f : State → State) : State := tst (fun s => f (ready s)) id (.nop (tY 0 0 0 0))
/-- A launch record of one cluster of one group of 64 lanes, `l` more fields. -/
def launchRec (l : List (Nat × Nat × Nat)) : List Byte :=
  recB 256 ([(0, 8, 2 ^ 32), (16, 8, 1 + 3 * 2 ^ 42 + 20 * 2 ^ 44), (24, 8, 64), (32, 8, 20)] ++ l)
def queued (checked : Nat) (b : List Byte) (s : State) : State :=
  { s with ctxs := [{ soloCtx with queues := fput [] 15 [(4096, b)] [], checked := fput 0 15 checked [] }] }
def gridded (g : Grid) (s : State) : State := { s with grids := [g] }
def inFlight (op : Op) (s : State) : State :=
  { s with pend := [{ id := 5, word := 5, gid := soloGid, ctx := 1, core := 0, cls := .none, op := op }], nextId := 9 }
def ctxOf (s : State) : Context := (getC s 1).getD soloCtx
def grid1 (l : List (Nat × Nat × Nat)) : Grid := { grid := 1, ctx := 1, queue := 0, prio := 0, order := 0, lrec := launchRec l }

theorem wit_DispatcherEvents_1 :
    (let s := dev (queued 0 (launchRec []))
     getC s (ctxOf s).ctx = some (ctxOf s) ∧ queueHead s 1 15 = some (4096, launchRec []) ∧ (ctxOf s).run = .running ∧ fget 0 15 (ctxOf s).checked = 0 ∧
       recordBad s 1 (launchRec []) = none ∧ dispWalk s 1 (usedDeps (launchRec []) ++ [(lrecOf (launchRec [])).done]) = none) ∧
    (let b := launchRec [(0, 8, 2 ^ 57)]
     recordBad (dev id) 1 b = some (1, 7) ∧ dispWalk (dev id) 1 (usedDeps b ++ [(lrecOf b).done]) = none) ∧
    (let s := { dev id with badMem := fput 0 0 2 [] }
     (dispWalk s 1 [8]).isSome = true ∧ (∀ p ∈ rangeTrail s 1 8 8, homeReady s p = true) ∧ (trailBad s 1 8 8).isSome = true ∧
       trailBad s 1 (2 ^ 56) 8 = none) ∧
    (let s := setHome (dev id) 0 { marks := 1 }
     (∃ p ∈ rangeTrail s 1 8 8, homeReady s p = false) ∧ (dispWalk s 1 [8]).isSome = true) ∧
    (let b := launchRec [(64, 8, 128), (72, 8, 9)]
     let s := withMem 128 [9#8, 0#8, 0#8, 0#8, 0#8, 0#8, 0#8, 0#8] (dev (queued 1 b))
     getC s (ctxOf s).ctx = some (ctxOf s) ∧ queueHead s 1 15 = some (4096, b) ∧ (ctxOf s).run = .running ∧ fget 0 15 (ctxOf s).checked ≠ 0 ∧ dispWalk s 1 (usedDeps b) = none ∧
       counterPa s 1 (depOf b 0).1 1 = some 128 ∧ homeReady s 128 = true ∧ badAt s ((List.range 8).map (fun i => 128 + i)) = none ∧ (depOf b 0).2 ≤ ofBytes (rdBytes s 128 8) ∧
       (∀ k < 4, (depOf b k).1 ≠ 0 → k = 0) ∧ (lrecOf b).coll = 0 ∧ s.grids.length < 2 ^ 32) ∧
    (let s := { dev (gridded (grid1 [])) with groups := [] }
     (dispatchList s).head? = some (grid1 []) ∧ findRect s (lrecOf (launchRec [])) = some (0, [(0, [0])]) ∧ packageDrain s = false ∧
       taskFirst s 0 = false) := by decide +kernel
theorem wit_DispatcherEvents_3 :
    (let big := grid1 [(24, 8, 2 ^ 14 - 1)]
     let small := { grid1 [] with grid := 2, order := 1 }
     let s := { dev (fun s => { s with grids := [big, small] }) with groups := [] }
     (dispatchList s).head? = some big ∧ (dispatchList s)[1]? = some small ∧ packageDrain s = false ∧ findRect s (lrecOf big.lrec) = none ∧
       findRect s (lrecOf small.lrec) = some (0, [(0, [0])]) ∧ taskFirst s 0 = false) := by decide +kernel

theorem wit_DispatcherEvents_2 :
    (let s := dev (inFlight (.taskAdd 2 1 [] 999)); getF s 5 = some (flightOf s) ∧ (flightOf s).op = .taskAdd 2 1 [] 999 ∧ 999 < s.time ∧
       getGrid s 1 2 = none) ∧
    (let s := dev (fun s => inFlight (.taskAdd 1 1 [(128, 1)] 999) (gridded (grid1 []) s))
     getF s 5 = some (flightOf s) ∧ (flightOf s).op = .taskAdd 1 1 [(128, 1)] 999 ∧ 999 < s.time ∧ counterPa s 1 128 3 = some 128 ∧
       addReady s 1 128 = true ∧ trailBad s 1 128 8 = none ∧ badAt s ((List.range 8).map (fun i => 128 + i)) = none ∧ getGrid s 1 1 = some (grid1 [])) ∧
    (let s := dev (fun s => inFlight (.taskAdd 1 1 [] 999) (gridded (grid1 []) s))
     getF s 5 = some (flightOf s) ∧ (flightOf s).op = .taskAdd 1 1 [] 999 ∧ getGrid s 1 1 = some (grid1 [])) ∧
    (∀ d ∈ [(0 : Nat), 128],
      let g := { grid1 [(40, 8, d)] with next := 1, ended := 1, wct := 999 }
      let s := dev (gridded g)
      getGrid s 1 1 = some g ∧ gridComplete g = true ∧ g.wct < s.time ∧ (lrecOf g.lrec).done = d ∧ counterPa s 1 128 3 = some 128 ∧
        addReady s 1 128 = true ∧ trailBad s 1 128 8 = none) ∧
    counterPa (dev id) 1 (2 ^ 31) 3 = none ∧ addReady (dev id) 1 (2 ^ 31) = true ∧ trailBad (dev id) 1 (2 ^ 31) 8 = none := by
  decide +kernel

/-! Task groups. -/

/-- A task of the grid on core 1, of entry 2^32, that came at `t`. -/
def aTask (age t : Nat) : Task :=
  { ctx := 1, grid := 1, core := 1, age := age, entry := 2 ^ 32, record := recB 64 [], counter := 0, since := t, ready := 0, gid := 0, wct := 0 }
/-- One group's width is 8; the window is 30 clocks. -/
def tasked (n : Nat) (s : State) : State :=
  { gridded (grid1 [(16, 8, 1 + 20 * 2 ^ 44), (32, 8, 20 + 30 * 2 ^ 28)]) s with pool := (List.range n).map (fun k => aTask k 980) }
def formed0 : Formed := { ctx := 1, grid := 1, core := 1, tasks := [aTask 0 980], draw := 0#64 }
def regW : VWord := tV 0 7 357 361 20 52 2 1
def meeting (num : Nat) (gid mate : Nat) (g : Group) : Group :=
  { g with num := num, gid := gid, width := 64,
           slotA := { g.slotA with mask := 0xFFFF#64, words := [(encode (.regroup regW)).getD 0#64], park := some (.regroup 7#64 true (some mate)) } }
def pairOf : State := { dev id with groups := [meeting 0 7 8 (soloGroup false 0#64), meeting 1 8 7 (soloGroup false 0#64)] }
theorem wit_TaskAndGroupEvents :
    (∀ n ∈ [(1 : Nat), 8], let s := dev (tasked n)
      ∃ g ∈ s.grids, getGrid s 1 1 = some g ∧ (gatherUnit s g 1).length = n ∧ ctxRuns s 1 = true ∧ taskTeam s 1 1 1 = none) ∧
    (let s := { dev (tasked 8) with teams := [{ soloTeam with task := true, core := 1 }] }
     ∃ t ∈ s.teams, taskTeam s 1 1 1 = some t ∧ (gatherUnit s ((s.grids.headD (grid1 []))) 1).length = 8) ∧
    (let s := { dev (tasked 1) with teams := [{ soloTeam with task := true, core := 1, tid := 99 }] }
     ∃ t ∈ s.teams, taskTeam s 1 1 1 = some t ∧ ∀ h ∈ s.groups, h.team ≠ t.tid) ∧
    (let s := dev (tasked 1); ∃ g ∈ s.grids, gatherUnit s g 1 = [aTask 0 980] ∧ 980 + (2 * (lrecOf g.lrec).gather + 2) / 3 = s.time) ∧
    (let s := dev (fun s => { tasked 0 s with formed := [formed0] })
     (coreOrder s 1).head? = some formed0 ∧ packageDrain s = false ∧ fitTask s formed0 = some 0 ∧ (getGrid s 1 1).isSome = true) ∧
    (let s := dev (tasked 3)
     coreUp s 0 = true ∧ coreUp s 2 = true ∧ ctxRuns s 1 = true ∧ (s.pool.all (fun t => t.core != 2)) = true ∧
       (s.groups.all (fun g => g.core != 2)) = true ∧ (s.pool.any (fun t => t.ctx == 1 && t.core / 24 == 0)) = true) ∧
    (let s := onState (dev id) (fun g => { g with slotA := {} })
     ∃ g ∈ s.groups, getG s soloGid = some g ∧ g.slotA.st = .free ∧ g.slotB.st = .free ∧ allQuiet s g = true ∧ ctxRuns s g.ctx = true) ∧
    (∃ g h, getG pairOf 7 = some g ∧ getG pairOf 8 = some h ∧ regroupPair g = some (7#64, h.gid) ∧ g.num < h.num ∧ ctxRuns pairOf g.ctx = true ∧
      (getPart pairOf h.core h.part).pontil ≠ some h.gid ∧ regroupWord g = some regW ∧
      (getPart { pairOf with parts := pairOf.parts.map (fun p => { p with pontil := some 8 }) } h.core h.part).pontil = some h.gid) := by
  refine ⟨by decide +kernel, by decide +kernel, by decide +kernel, by decide +kernel, by decide +kernel, by decide +kernel, by decide +kernel, ?_⟩
  exact ⟨_, _, rfl, rfl, by decide +kernel, by decide +kernel, by decide +kernel, by decide +kernel, by decide +kernel, by decide +kernel⟩

end Sys2Proof.Tests

namespace Sys2Proof.Tests
open Sys2Proof Sys2Proof.Machine
set_option Elab.async false

/-! Picking, fetching, and the memory system. -/

/-- The group is at the start of a clause of one word at `a`; partition 0 issues nothing. -/
def starting (a : Nat) (p : Option Park) (s : State) : State :=
  { onState s (onSlot (fun y => { y with clause := a, started := false, park := p })) with parts := [], focus := .idle }
/-- Its clause lies in memory at 2^32 - 2^30, and its line in the instruction cache. -/
def clauseAt : Nat := 2 ^ 32 - 2 ^ 30
def cached (s : State) : State :=
  { s with icache := [{ core := 0, line := clauseAt / 128, expiry := none, pinCtx := 1, data := 0#1024 }] }
/-- Some group has the solo group's number and passes. -/
def theG (s : State) (k : Group → Bool) : Bool := (getG s soloGid).any k
theorem wit_PickAndFetchEvents_1 :
    (∀ p ∈ [(none : Option Park), some .yield], let s := starting clauseAt p (dev cached)
      (getPart s 0 0).cur = [] ∧ (match candidates s 0 0 with | [c] => !c.2 && c.1.gid == soloGid && yielding c == (p == some .yield) | _ => false) = true) ∧
    ({} : Slot).floor = none := by decide +kernel
/-- What stops the fetch, as a number. -/
def stopKind (r : Option FetchStop) : Nat := match r with | none => 0 | some (.walk _) => 1 | some (.fault _) => 2 | some (.check _ _) => 3
theorem wit_PickAndFetchEvents_2 :
    (∀ p ∈ [((clauseAt : Nat), (0 : Nat)), (2 ^ 40, 1), (2 ^ 57, 2)], let s := starting p.1 none (dev id)
      theG s (fun g => (slotOf g false).st == .running && !(slotOf g false).started && ctxRuns s g.ctx && stopKind (clauseStop s g false p.1) == p.2 &&
        (slotOf g false).park.isNone && (p.2 != 0 || (codeAt s g (clauseAt / 128 * 128)).any (fun k => !isCxl (k.1 / 128 * 128) &&
          homeReady s (k.1 / 128 * 128)) && decide ((s.icache.filter (fun x => x.core == g.core)).length < 1000))) = true) ∧
    (let s := starting clauseAt none (dev (fun s => { s with badMem := fput 0 (clauseAt / 8) 2 [] }))
     theG s (fun g => stopKind (clauseStop s g false clauseAt) == 3) = true) := by decide +kernel
def floored (l : List Nat) : State := { onState (dev id) (onSlot (fun y => { y with floor := some (0, l) })) with time := 10923 }
def napOf : State := onState (dev id) (onSlot (fun y => { y with park := some (.nap (some 1000) none 0) }))
theorem wit_PickAndFetchEvents_3 :
    (∀ l ∈ [([] : List Nat), [1, 2, 3, 4, 5]], theG (floored l) (fun g => (slotOf g false).floor == some (0, l)) = true ∧ (l = [] ∨ 4 < l.length) ∧
      0 + 10923 ≤ (floored l).time) ∧
    (theG napOf (fun g => (slotOf g false).park == some (.nap (some 1000) none 0) && (slotOf g true).park.isNone) = true ∧ 1000 ≤ napOf.time) ∧
    (∀ d ∈ [none, some (1000 : Nat), some 1001], theG (onState (dev id) (onSlot (fun y => { y with park := some (.nap d none 0) })))
      (fun g => (slotOf g false).park == some (.nap d none 0)) = true) := by
  decide +kernel

def recalled (s : State) : State :=
  { s with l1 := [{ core := 3, line := 9, expiry := 5000, data := 0#1024 }, { core := 3, line := 16, expiry := 5000, data := 0#1024 }] }
def seen (v : Nat) (s : State) : State :=
  { recalled s with beatSent := [(0, 970)], beatSeq := [(3, 1)], recallSeen := fput 0 3 v [] }
/-- A root table at 2^20; where `h` says so, its walk ends in a page of 2 MiB at 2^24 with every right. -/
def walked (h : Nat → Bool) : State :=
  let s := dev (fun s => { inFlight (.walk 0 1 1 [(soloGid, false)]) s with ctxs := [{ soloCtx with root := 2 ^ 20 }] })
  if h 0 then [(2 ^ 20, 2 ^ 21 + 1), (2 ^ 21, 2 ^ 22 + 1), (2 ^ 22, 2 ^ 23 + 1), (2 ^ 23, 2 ^ 24 + 0x3B)].foldl (fun s p => withMem p.1 (recB 8 [(0, 8, p.2)]) s) s
  else s
def met (s : State) (op : Op) : Bool := (getF s 5).any (fun f => f.op == op)
theorem wit_CoherenceEvents :
    met (dev (fun s => inFlight (.recall 3 1 2000) (recalled s))) (.recall 3 1 2000) = true ∧
    (let s := dev (fun s => { s with beatSent := [(3, 960)] }); 3 < 4 ∧ fget 0 3 s.beatSent + 40 ≤ s.time) ∧
    (∀ v ∈ [(0 : Nat), 1], let s := dev (seen v)
      103 < 104 ∧ fget 0 0 s.beatSent ≠ 0 ∧ s.time ≤ fget 0 0 s.beatSent + 30 ∧
        s.beatSeq.all (fun p => !(keyDie p.1 == 0 && keyCore p.1 == 3) || decide (p.2 ≤ fget 0 p.1 s.recallSeen)) = (v == 1)) ∧
    (let s := dev recalled; fget 0 (3 * 4 + 0) s.beatTime + 100 ≤ s.time ∧ fget 0 (3 * 4 + 0) s.blind = 0) ∧
    (∀ op ∈ [Op.towerWrite 0, .writeBack 0, .cxlWrite 0], met (dev (inFlight op)) op = true) ∧
    (∀ h ∈ [true, false], let s := walked (fun _ => h)
      let pas := (walkTrail s 1 65536).flatMap (fun a => (List.range 8).map (fun i => a + i))
      met s (.walk 0 1 1 [(soloGid, false)]) = true ∧ walkTurn s 0 5 = true ∧ (walkTrail s 1 65536).all (homeReady s) = true ∧ badAt s pas = none ∧
        (badAt { s with badMem := [(2 ^ 20 / 8, 1)] } pas).isSome = true) ∧
    ((getG (walked (fun _ => true)) soloGid).isSome = true ∧
      (match walk (walked (fun _ => false)) 1 (1 * 65536) with | .bad _ _ => (getG (walked (fun _ => false)) soloGid).isSome | _ => false) = true ∧
      walk (walked (fun _ => true)) 1 (1 * 65536) = .page 0 (2 ^ 24) (2 ^ 21) 7 false) ∧
    (let s := dev (inFlight (.remoteStore soloGid 1 [(0, 1#8)]))
     (getF s 5).any (fun f => f.op == .remoteStore soloGid 1 [(0, 1#8)] && remoteTurn s f soloGid) = true ∧
       (getT s soloGid).any (fun t => !t.retired && (absentLine t 0 1).isNone) = true ∧
       (getT { s with teams := s.teams.map (fun t => { t with retired := true }) } soloGid).any (fun t => t.retired) = true ∧
       (let u := { s with teams := s.teams.map (fun t => { t with ranges := [[0]] }) }
        (getT u soloGid).any (fun t => !t.retired && isAbsent t 0 && inRange t 0) = true)) ∧
    ([(8, 1#8), (9, 2#8), (10, 3#8), (11, 4#8)].map Prod.fst).Nodup ∧
    (let s := dev (fun s => { s with atBusy := true }); s.atBusy = true ∧ invalidationReady s = true) ∧
    (let s := onState (dev id) late; least ((recordedTimes s).filter (fun t => decide (s.time ≤ t))) = some 1000) := by decide +kernel

end Sys2Proof.Tests

namespace Sys2Proof.Tests
open Sys2Proof Sys2Proof.Machine
set_option Elab.async false

/-! Far atomics, matrix passes, copies and towers. -/

/-- Operation 5 is in flight with this operation, and passes. -/
def flies (s : State) (op : Op) (k : Flight → Bool) : Bool := (getF s 5).any (fun f => f.op == op && k f)
def farOp (stage : Nat) (an ap : Bool) : Op := .far { lane := 2, va := 64, pas := [64, 65, 66, 67] } false [0#8, 0#8, 0x80#8, 0x3F#8] stage (if stage = 3 then some { cls := 0x17, code := 1 } else none) an ap
def farL : Lane := { lane := 2, va := 64, pas := [64, 65, 66, 67] }
theorem wit_FarAndMatrixEvents_1 :
    (let s := dev (inFlight (farOp 0 false false)); flies s (farOp 0 false false) (fun f => engineTurn s f) = true ∧ s.pend.length = 1) ∧
    (let s := dev (inFlight (farOp 1 false false)); flies s (farOp 1 false false) (fun f => (farCheck s f farL).isNone && farTurn s f farL) = true) ∧
    (let s := dev (fun s => inFlight (farOp 1 false false) { s with atTable := [] })
     flies s (farOp 1 false false) (fun f => farTurn s f farL && (match farCheck s f farL with | some (.inl _) => true | _ => false)) = true) ∧
    (let s := dev (fun s => inFlight (farOp 1 false false) { s with tlb := [] })
     flies s (farOp 1 false false) (fun f => farTurn s f farL && (match farCheck s f farL with | some (.inr _) => true | _ => false)) = true) ∧
    (∀ ap ∈ [false, true], let s := dev (inFlight (farOp 3 false ap)); flies s (farOp 3 false ap) (fun f => (getG s f.gid).isSome) = true) ∧
    (∀ ap ∈ [false, true], let s := dev (inFlight (farOp 2 false ap)); flies s (farOp 2 false ap) (fun f => (getG s f.gid).isSome) = true) ∧
    (∀ an ∈ [false, true], let s := dev (inFlight (farOp 2 an false)); flies s (farOp 2 an false) (fun _ => true) = true ∧ l2Has s 0 0 = false ∧
      badAt s farL.pas = none ∧ (badAt { s with badMem := fput 0 8 2 [] } farL.pas).isSome = true ∧
      l2Has { s with l2 := [{ line := 0, way := 0, valid := 0xFF#8, dirty := 0#8 }] } 0 0 = true ∧ s.pend.takeWhile (fun o => o.id != 5) = []) := by decide +kernel

def aPass (b : Option (List Byte)) : Op :=
  .pass { mmaf := false, tile := 0, lanes := [(3, 0x3F80#64)], team := soloGid, baddr := 1024, slot := 2, wa := 2, wb := 2, sat := false, mix := false,
          seed := 0#32, table := [], row0 := 0, col0 := 0, window := 6 } b
def windowed (s : State) : State :=
  let s1 := inFlight (aPass none) (b16Grid s)
  { ready s1 with pend := s1.pend ++ [{ id := 6, word := 5, gid := soloGid, ctx := 1, core := 0, cls := .none, op := .window 0 0 8 990 true }] }
theorem wit_FarAndMatrixEvents_2 :
    (let s := dev (inFlight (.window 0 0 8 997 false)); flies s (.window 0 0 8 997 false) (fun _ => true) = true ∧ 8 ≤ 3 * (s.time - 997)) ∧
    (let s := dev windowed
     (getF s 6).any (fun f => f.op == .window 0 0 8 990 true) = true ∧ (windowPasses s 6).length = 1 ∧
       (windowPasses s 6).all (fun p => !p.2.mmaf && (getT s p.2.team).any (fun t => (mxFaulted t p.2.baddr (bRange s p.1 p.2)).isNone &&
         (absentLine t p.2.baddr (bRange s p.1 p.2)).isNone && bRange s p.1 p.2 == 128)) = true) ∧
    (let s := dev (fun s => ready (inFlight (aPass (some (List.replicate 128 0#8))) (b16Grid s)))
     flies s (aPass (some (List.replicate 128 0#8))) (fun f => tileTurn s f && (getG s f.gid).any (fun g => (gridSlot s g 2).any (fun t =>
       (pairing t.el 2 2 false).isSome))) = true) ∧
    (∀ store ∈ [true, false], let s := dev (inFlight (.tileXfer store 31 [0, 7] soloGid 128))
      flies s (.tileXfer store 31 [0, 7] soloGid 128) (fun f => tileTurn s f && (getG s f.gid).isSome && (getT s soloGid).any (fun t =>
        [0, 7].all (fun l => (linesOf (128 + 256 * l) 256).all (fun k => !isAbsent t k)))) = true) := by decide +kernel

def aCopy (kind : CopyKind) (src dst n : Nat) (slot : Option (Nat × Nat × Nat)) : Copy :=
  { kind := kind, team := soloGid, src := src, srcLocal := false, dst := dst, bytes := n, slot := slot, marks := [], hint := 0 }
def copying (c : Copy) : State := dev (fun s => inFlight (.copy c) (ready (lehrAt 1 0 0 0 0 (inGrid [] s))))
/-- The copy is in flight in its turn, and what it does passes. -/
def copies (c : Copy) (n : Nat) (k : Prog → Bool) : Bool :=
  let s := copying c
  flies s (.copy c) (fun f => engineTurn s f && k (runCopy s f c n))
def slot0 : Option (Nat × Nat × Nat) := some (soloGid, 256, 0)
theorem wit_CopyAndTowerEvents_1 :
    copies (aCopy .cin 64 512 16 slot0) 0 (fun p => !p.wait && p.bad.isNone && p.done == 16 && (getT p.s soloGid).isSome) = true ∧
    (∀ k ∈ [CopyKind.cout, .cg], copies (aCopy k 64 512 16 none) 0 (fun p => !p.wait && p.bad.isNone && p.done == 16) = true) ∧
    copies (aCopy .cin 64 512 16 slot0) 1 (fun p => p.done == 8 && p.walk.isNone) = true ∧
    (let c := aCopy .cin 64 512 16 slot0; let s := { copying c with tlb := [] }
     flies s (.copy c) (fun f => engineTurn s f && (runCopy s f c 0).wait && (runCopy s f c 0).walk.isSome) = true) ∧
    (∀ k ∈ [CopyKind.cout, .cg], copies (aCopy k (2 ^ 57) 512 16 none) 0 (fun p => p.bad.any (fun e => e.cls != 0x19) && p.walk.isNone) = true) ∧
    copies (aCopy .cin (2 ^ 57) 512 16 slot0) 0 (fun p => p.bad.any (fun e => e.cls != 0x19) && (getT p.s soloGid).isSome) = true ∧
    ((aCopy .cin 64 512 16 slot0).slot = some (soloGid, 256, 0) ∧ (getT (copying (aCopy .cin 64 512 16 slot0)) soloGid).isSome = true) := by decide +kernel
def haloCopy : Copy := { aCopy .halo 0 0 16 none with desc := haloRec 1024, k := 0, phase := 0 }
def mcCopy (recv : List McRecv) : Copy := { aCopy .mc 128 256 128 none with recv := recv }
/-- The halo's barrier has left phase 0; `h` changes the teams. -/
def meeting2 (c : Copy) (h : Team → Team) : State :=
  let s := copying c
  { s with clusters := s.clusters.map (fun k => { k with bars := [(0, (1, 0, 1))] }), teams := s.teams.map h }
theorem wit_CopyAndTowerEvents_2 :
    (let s := meeting2 haloCopy (fun t => t)
     flies s (.copy haloCopy) (fun f => engineTurn s f && haloPhase s haloCopy && (getT s soloGid).any (fun t => (haloSource s f haloCopy).any (fun u =>
       [((0 : Nat), (16 : Nat)), (1, 8)].all (fun p => (haloMove t u (haloDec haloCopy.desc) 0 (haloNext u (haloDec haloCopy.desc) 0 p.1)).2 == p.2)))) = true) ∧
    (∀ l ∈ [[{ team := 0, slot := some 1 }], [{ team := 0 }, ({ team := 15 } : McRecv)]], let s := meeting2 (mcCopy l) (fun t => { t with mem := (lehrWrite t 256 { lines := 1, cnt := 2, held := 1, aw := 0, wr := 0, filled := 0, fault := 0, time := 0 }).mem })
      flies s (.copy (mcCopy l)) (fun f => (l.find? (fun r => r.team == 0)).isSome && engineTurn s f && (getT s soloGid).any (fun t =>
        (s.teams.find? (fun u => u.ctx == f.ctx && u.grid == t.grid && u.cluster == t.cluster && u.tidx == 0 && !u.task)).any (fun u =>
          !u.retired && (match mcRead s f (mcCopy l) 0 with | (s1, _, none) => (getT s1 u.tid).isSome | _ => false)))) = true) ∧
    (let s := meeting2 (mcCopy [{ team := 0 }]) (fun t => { t with retired := true })
     flies s (.copy (mcCopy [{ team := 0 }])) (fun f => engineTurn s f && (getT s soloGid).any (fun t =>
        (s.teams.find? (fun u => u.ctx == f.ctx && u.grid == t.grid && u.cluster == t.cluster && u.tidx == 0 && !u.task)).any (fun u => u.retired))) = true) ∧
    (let c := { mcCopy [] with data := List.replicate 128 0#8 }; c.data.length = c.bytes ∧ c.recv = [] ∧ c.failed = []) ∧
    ((getT (copying (mcCopy [])) soloGid).any (fun t => !mcSlotBad t 256 1 128 && mcSlotBad t 256 1 256) = true) := by
  decide +kernel

def aShare (kind : TwKind) (bc : Option W64) (begun : Bool) : Share :=
  { kind := kind, word := 0, tower := 0, ctx := 1, team := soloGid, canes := List.range 32, first := 0, addr := 128, row := 0, w := 8, ty := 11, bc := bc,
    sat := false, hint := 0, block := [], gaddr := [], idx := 0, active := [], begun := begun }
def sharing (h : State → State) (sh : Share) : State := dev (fun s => h (inFlight (.share sh) s))
def shares (h : State → State) (sh : Share) (k : State → Flight → Bool) : Bool :=
  let s := sharing h sh
  flies s (.share sh) (fun f => shareTurn s f sh && k s f)
def aWait : Wait := { code := 4, job := 0, seq := 1, ctx := 1, pairs := 0x80 }
/-- A row group of row 3 of array 0 of tower 0 is in error. -/
def badRow (s : State) : State := { s with badCane := [(rowGroup 0 3, 1)] }
theorem wit_CopyAndTowerEvents_3 :
    shares id (aShare .run none true) (fun _ _ => decide ((aShare .run none true).block.length ≤ 0)) = true ∧
    shares id (aShare .xin none false) (fun s f => match towerPages s f 0 128 32 1 with
      | .ok pas => pas.length == 32 && (match towerRead s f 0 pas with | some (.inr p) => (caneErrors p.1 (aShare .xin none false).canes [] (0, 8)).isEmpty | _ => false)
      | _ => false) = true ∧
    shareRange (aShare .xin none false) = (128, 32) ∧
    shares id (aShare .xin (some 7#64) false) (fun s _ => (caneErrors s (List.range 32) [] (0, 8)).isEmpty) = true ∧
    shares badRow (aShare .xin (some 7#64) false) (fun s _ => !(caneErrors s (List.range 32) [] (0, 8)).isEmpty) = true ∧
    shares id (aShare .xout none false) (fun s f => match towerPages s f 0 128 32 2 with
      | .ok pas => (caneErrors s (List.range 32) [(0, 8)] (0, 0)).isEmpty && engineFree s f.ctx 0 (pas.zip (moveOut s (aShare .xout none false)))
      | _ => false) = true ∧
    shares badRow (aShare .xout none false) (fun s f => match towerPages s f 0 128 32 2 with
      | .ok _ => !(caneErrors s (List.range 32) [(0, 8)] (0, 0)).isEmpty | _ => false) = true ∧
    shares (fun s => { s with tlb := [] }) (aShare .xout none false) (fun s f => match towerPages s f 0 128 32 2 with | .walk _ => true | _ => false) = true ∧
    shares (fun s => { s with atTable := [] }) (aShare .xout none false) (fun s f => match towerPages s f 0 128 32 2 with | .bad _ => true | _ => false) = true ∧
    shares id (aShare .run none true) (fun s f => (getG s f.gid).isSome && s.pend.all (fun o => o.id == f.id)) = true ∧
    (let s := sharing id (aShare .run none true)
     let o : Flight := { flightOf s with id := 6 }
     (s.pend ++ [o]).find? (fun o => o.id != 5 && o.gid == soloGid && (match o.op with | .share t => t.word == (aShare .run none true).word | _ => false)) = some o) ∧
    (let s := dev (fun s => { s with ctxs := [{ soloCtx with pairs := 0x80 }] })
     (∀ arr ∈ [2688, 3071], (pairOwner s (arr / 384)).isSome = true ∧ rowBad s 15 arr 1023 = false ∧
       rowBad { s with badCane := [(((15 * 3072 + arr) * 1024 + 1023) * 16 + 15, 1)] } 15 arr 1023 = true) ∧ 15 < 16 ∧ 1023 < 1024) ∧
    (let s := dev (fun s => { s with waits := [aWait] }); s.waits = [aWait] ∧ aWait.code = 4 ∧ aWait.pairs.testBit 7 = true ∧ (15, 7) ∉ aWait.done ∧ 15 < 16) := by
  decide +kernel

end Sys2Proof.Tests

namespace Sys2Proof.Tests
open Sys2Proof Sys2Proof.Machine
set_option Elab.async false

/-! Transfers, stations and collectives. -/

def aXfer (loc : Option Nat) (cnt : Option Nat) (sent : Option Nat) : Xfer :=
  { loc := loc, addr := 128, remote := 64, bytes := 16, dev := 12, cnt := cnt, fired := false, sent := sent }
/-- Device 12 is known; `lost` tells whether it is marked lost. -/
def jobbed (lost : Bool) (s : State) : State :=
  { s with jobs := [{ job := 0, key := 0, mgmtKey := 0, self := 1, table := [1, 12], seq := 0, lost := if lost then [12] else [] }],
           ctxs := [{ soloCtx with counters := [(4, 9#64)] }] }
def aMsg (va : Nat) : NetMsg := { job := 0, src := 12, tag := 3, va := va, data := List.replicate 16 7#8, cnt := some 4 }
def aGet : GetReq := { job := 0, requester := 12, tag := 3, va := 64, bytes := 16 }
theorem wit_TransferEvents_1 :
    (∀ l ∈ [(none : Option Nat), some soloGid], let x := aXfer l (some 4) none
      let s := dev (fun s => inFlight (.send x) (jobbed false s))
      flies s (.send x) (fun f => engineTurn s f && canLeave s f x && x.sent.isNone && (readSource s f l 128 16).stop.isNone) = true) ∧
    (let x := aXfer none none none; let s := dev (fun s => inFlight (.send x) (jobbed true s))
     flies s (.send x) (fun f => engineTurn s f && !canLeave s f x) = true) ∧
    (∀ p ∈ [((64 : Nat), true), (2 ^ 57 - 8, false)], let s := dev (jobbed false)
      (aMsg p.1).err = none ∧ (aMsg p.1).ack = none ∧ jobSelf s 0 ≠ some 12 ∧ statusOf s 0 = 2 ∧ trailBad s 1 p.1 16 = none ∧ (jobCtx s 0).any (fun c => match receiveUnits s c.ctx 4 p.1 (aMsg p.1).data with
        | (_, _, none) => p.2 | (_, _, some _) => !p.2) = true ∧ p.1 % 8 = 0 ∧ (aMsg p.1).data.length % 8 = 0 ∧
      receiveFree s 1 p.1 (aMsg p.1).data = true ∧ (jobCtx s 0).any (fun c => c.ctx == 1) = true) ∧
    (let x := aXfer none none none; let s := dev (fun s => inFlight (.get x) (jobbed false s))
     flies s (.get x) (fun f => engineTurn s f && canLeave s f x) = true) ∧
    (let x := aXfer (some soloGid) none none; let s := dev (fun s => inFlight (.get x) (jobbed true s))
     flies s (.get x) (fun f => engineTurn s f && !canLeave s f x) = true ∧ (getT s soloGid).isSome = true) ∧
    (∀ n ∈ [(8 : Nat), 16], let x := aXfer none none (some 7); let s := dev (fun s => inFlight (.send x) (jobbed false s))
     let m : NetMsg := { aMsg 64 with tag := 5, ack := some n }
     m.ack = some n ∧ jobSelf s m.job ≠ some m.src ∧ statusOf s 0 = 2 ∧
       flies s (.send x) (fun f => jobOf s f.ctx == m.job && x.dev == m.src && x.sent.isSome && decide (x.bytes ≤ n) == (n == 16)) = true) ∧
    (let s := dev (fun s => inFlight (.received 1 (some 4) 999) (jobbed false s))
     flies s (.received 1 (some 4) 999) (fun _ => true) = true ∧ 999 < s.time ∧ (getC s 1).any (fun c => c.armed.isEmpty) = true) ∧
    (let s := dev (jobbed false); jobSelf s aGet.job ≠ some aGet.requester ∧ statusOf s 0 = 2 ∧
      (∀ p ∈ rangeTrail s 1 aGet.va aGet.bytes, homeReady s p = true) ∧ trailBad s 1 aGet.va aGet.bytes = none ∧ (jobCtx s aGet.job).any (fun c =>
      (readRange s c.ctx 4 (fun a => .inl (xlate s 255 c.ctx a 1 false)) aGet.va aGet.bytes).stop.isNone) = true) := by decide +kernel
theorem wit_TransferEvents_2 :
    (let x := aXfer (some soloGid) none (some 0); let s := dev (fun s => inFlight (.get x) (jobbed false s))
     flies s (.get x) (fun f => x.dev != selfDev s f.ctx && x.sent.isSome && (getT s soloGid).any (fun t => !t.retired)) = true ∧
       x.acked + (List.replicate 16 7#8).length = x.bytes ∧ x.acked + (List.replicate 8 7#8).length < x.bytes ∧ statusOf s 0 = 2) ∧
    (let x := aXfer none (some 4) (some 0); let s := dev (fun s => inFlight (.get x) (jobbed false s))
     flies s (.get x) (fun f => x.dev != selfDev s f.ctx && x.sent.isSome && receiveFree s f.ctx x.addr (List.replicate 16 7#8) && (trailBad s f.ctx x.addr 16).isNone &&
       (match receiveUnits s f.ctx 4 x.addr (List.replicate 16 7#8) with | (_, _, none) => true | _ => false)) = true) ∧
    (∀ lost ∈ [true, false], let x := aXfer none none (some 1000)
      let s := { dev (fun s => inFlight (.send x) (jobbed lost s)) with time := 100001000 }
      flies s (.send x) (fun f => lostDev s f.ctx 12 == lost && x.dev != selfDev s f.ctx) = true ∧ 1000 + 100000000 ≤ s.time ∧ s.time < 2000 + 100000000) := by decide +kernel

/-- A station record of 64 retention slots at 0. -/
def stationed (s : State) : State := withMem 0 (recB 800 [(0, 4, 63 * 64 + 1024 * 4)]) s
def openOp (n : Nat) : Op := .station (.openPass false) 0 n none none
def doneOp : Op := .station .closePass 0 3 none (some (999, [], .ok 0#64))
def anArrival (tidx : Nat) : Arrival :=
  { station := 0, grid := 1, cluster := 0, tidx := tidx, entry := 0, good := true, pass := 3, data := [], device := 12, core := 5 }
/-- The record names the lehr at 256. -/
def ringed (s : State) : State := withMem 0 (recB 800 [(0, 8, 256 * 4096)]) (ready (lehrAt 1 0 0 0 0 s))
theorem wit_StationAndCollectiveEvents_1 :
    (∀ n ∈ [(3 : Nat), 20, 63], let s := dev (fun s => inFlight (openOp n) (stationed s))
      flies s (openOp n) (fun f => recFree s 0 && (badAt s ((List.range 2048).map (fun k => 0 + k))).isNone && (recBytes 0 1 (stOpen s 0 n none false).2).isEmpty == decide (n < 20) && !acquiring s f.gid f.word) = true) ∧
    (let s := setHome (dev (fun s => inFlight (openOp 3) (stationed s))) 0 { marks := 1 }; flies s (openOp 3) (fun _ => !recFree s 0) = true) ∧
    (let s := dev (inFlight doneOp); flies s doneOp (fun f => engineFree s f.ctx 0 []) = true ∧ 999 < s.time ∧ { s with time := 999 }.time ≤ 999) ∧
    (let s := dev (inFlight (.arrival (anArrival 1))); flies s (.arrival (anArrival 1)) (fun f => (arrivalTeam s f.ctx (anArrival 1)).isNone &&
      s.teams.all (fun t => !(t.ctx == f.ctx && t.grid == 1 && t.cluster == 0 && t.tidx == 1))) = true) ∧
    (let s := dev (fun s => inFlight (.arrival (anArrival 0)) (ringed s))
     flies s (.arrival (anArrival 0)) (fun f => (arrivalTeam s f.ctx (anArrival 0)).any (fun t => flightXlate s f f.core 0 3 false == .inl (.ok 0 false) && (badAt s ((List.range 2048).map (fun k => 0 + k))).isNone &&
       (accessCheck s f.ctx 0 0 2048 3).isNone && decide (256 % 32 = 0) && !arrivalOutside t 256 (anArrival 0) && recFree s 0 && !recBad s 0 && fld (recQ s 0 0) 12 20 == 256 && (localBad t 256 32).isNone &&
       !lehrMalformed t 256 && (absentLine t 256 32).isNone && !lehrFull t 256)) = true) ∧
    (let s := dev (fun s => inFlight (.arrival (anArrival 0)) (withMem 0 (recB 800 [(0, 8, 2016 * 4096)]) (ready (localBytes 2016 (List.replicate 32 0xFF#8) (lehrAt 1 0 0 0 0 s)))))
     flies s (.arrival (anArrival 0)) (fun f => (arrivalTeam s f.ctx (anArrival 0)).any (fun t => flightXlate s f f.core 0 3 false == .inl (.ok 0 false) &&
       fld (recQ s 0 0) 12 20 == 2016 && (lehrMalformed t 2016 || (localBad t 2016 32).isSome) && recFree s 0)) = true) := by decide +kernel

def collGrid (members total : Nat) (dctr : Option Nat) : Grid :=
  { grid0 [] with coll := some { op := 0, members := members, rank := 0, cgroup := 0, tree := 1, chunk := max 128 total, buffer := 128, total := total, dctr := dctr } }
/-- The solo team's chunk; `k` sets it. -/
def collective (g : Grid) (retired : Bool) (k : Chunk) : State :=
  dev (fun s => { withTeam (fun t => { t with chunk := k, retired := retired }) s with grids := [g] })
def inColl (s : State) (k : Team → Coll → Nat → Nat → Bool) : Bool :=
  (getT s soloGid).any (fun t => (chunkOf s t).any (fun p => k t p.1 p.2.2.1 p.2.2.2)) && s.pend.isEmpty
theorem wit_StationAndCollectiveEvents_2 :
    (∀ p ∈ [((1 : Nat), (128 : Nat)), (2, 0)], inColl (collective (collGrid p.1 p.2 none) true {}) (fun t c _ _ => t.retired && !t.chunk.fired && !t.chunk.dead &&
      (c.members == 1 || c.total == 0) && c.dctr.isNone) = true) ∧
    (let s := collective (collGrid 2 128 none) true {}
     statusOf s 0 = 2 ∧ (∀ o ∈ s.pend, o.id < s.nextId) ∧ inColl s (fun t c va n => t.retired && !t.chunk.fired && !t.chunk.dead && c.members != 1 && c.total != 0 &&
      (getF (fireChunk s 0 t.core t true) s.nextId).any (fun f =>
        (readRange (fireChunk s 0 t.core t true) t.ctx 5 (readXlate (fireChunk s 0 t.core t true) f) va n).stop.isNone)) = true) ∧
    (∀ p ∈ [((128 : Nat), (0 : Nat), (none : Option Nat)), (128, 0, some 4), (4224, 1, none)], let s := collective (collGrid 2 p.1 p.2.2) false { fired := true }
      let msg := recB 160 [(0, 4, 1), (8, 1, 16), (16, 4, p.2.1), (20, 2, 128)]
      inColl s (fun t c va n => t.chunk.fired && !t.chunk.landed && n == p.1 && c.dctr == p.2.2 && !t.chunk.dead && !redBad s msg && c.tree == 1 && t.chunk.round == 0 &&
        t.chunk.got.isEmpty && decide (p.2.1 < segCount n) && (decide (1 < segCount n) == (p.1 == 4224)) && (msg.drop 32).take (min 4096 (n - 4096 * p.2.1)) == msg.drop 32 &&
        receiveFree s t.ctx (va + 4096 * p.2.1) (msg.drop 32) && (trailBad s t.ctx (va + 4096 * p.2.1) 128).isNone && s.trees.all (fun q => q.tree != c.tree) &&
        (match receiveUnits s t.ctx 5 (va + 4096 * p.2.1) (msg.drop 32) with | (_, _, none) => true | _ => false)) = true) ∧
    (∀ p ∈ [(true, true), (true, false), (false, false)], let s0 := collective (collGrid 2 128 none) false { fired := p.1 }
      let s := if p.2 then s0 else { s0 with groups := [] }
      let msg := recB 32 [(0, 4, 1), (8, 1, 3 * 16), (24, 8, 2 * 2 ^ 56)]
      inColl s (fun t c _ _ => t.chunk.fired == p.1 && !t.chunk.landed && t.chunk.got.isEmpty && c.tree == 1 && !redBad s msg && t.chunk.round == 0 &&
        fld (le msg 8 1) 4 4 == 3 && le msg 4 4 == 0 && le msg 12 4 == 0 && (!p.1 || chunkWaiter s t == p.2)) = true) := by decide +kernel

/-! The fabric, stopping, power. -/

/-- Context 1 was set aside at 0 and its team's chunk has not fired. -/
def heldOff : State := { collective (collGrid 2 128 none) false {} with time := 10000000, ctxs := [{ soloCtx with run := .aside 0x100 }] }
theorem wit_FabricEvents :
    (setAside heldOff 1 = true ∧ (getC heldOff 1).any (fun c => c.held == 0 || decide (c.held + 10000000 ≤ heldOff.time)) = true ∧
      inColl heldOff (fun t l _ _ => !t.chunk.fired && !t.chunk.dead && l.members != 1 && l.total != 0) = true) ∧
    (let g := collGrid 2 128 none; g.coll.isSome = true ∧ g.next * gridPer g ≤ 0 ∧ 0 < (lrecOf { g with lrec := launchRec [] }.lrec).clusters * gridPer g) ∧
    (let x := { aXfer none none (some 7) with port := some 7 }; let s := dev (inFlight (.send x))
     flies s (.send x) (fun _ => true) = true ∧ statusOf s 7 = 2 ∧ statusOf s 0 = 2) ∧
    redBad (dev id) [] = true ∧
    (let s := dev id; 7 < 8 ∧ statusOf s 7 = 2 ∧ (∀ d ∈ [0, 3], statusOf s (28 + d) = 2) ∧ (getC s 1).any (fun c => c.run == .running) = true) ∧
    (let s := dev (fun s => { s with status := s.status.set 7 (3, 0) }); statusOf s 7 = 3) ∧
    (∀ l ∈ [([] : List (Nat × Nat)), [(3, 6), (3, 13), (3, 20), (3, 27)]], let s := dev (fun s => { s with failedSites := l, margins := [.core 3 26] })
      culletDue s (.core 3 26) = true ∧ unitBusy s (.core 3 26) = false ∧ coreAt s 3 26 = some 95 ∧
        freeSite { swapped s (.core 3 26) with failedSites := s.failedSites ++ [(3, 26)] } 3 = if l = [] then some 6 else none) := by
  decide +kernel

def endingCtx (s : State) : State := { s with ctxs := [{ soloCtx with run := .stopping 0x100 }] }
def atClause (g : Group) : Group := onSlot (fun y => { y with started := false }) g
def aWcb : Wcb := { id := 3, line := 0, since := 0, bytes := [], hint := 0 }
def waiting0 (p : Option Park) (g : Group) : Group := onSlot (fun y => { y with park := p, waitSince := 0, extSince := 0 }) g
theorem wit_StoppingAndTimeLimits :
    (∀ l ∈ [([] : List Wcb), [aWcb]], let s := onState (dev endingCtx) (fun g => { atClause g with wcb := l })
      (getC s 1).any (fun c => c.run == .stopping 0x100) = true ∧ s.groups.all (fun g => g.ctx == 1 && slotStopped s g false && slotStopped s g true &&
        g.wcb == l && groupSettled s g == l.isEmpty) = true) ∧
    (∃ c ∈ (dev id).ctxs, getC (dev id) c.ctx = some c) ∧
    (let s := { dev id with time := 2000000000 }
     s.groups.length = 1 ∧ s.groups.all (fun g => (external s g false).isNone && (external s g true).isNone && g.slotA.st != .free && g.slotB.st == .free &&
       (getC s g.ctx).any (fun c => c.run == .running && g.ctx != 0 && watchFrom s c + c.watchdog == s.time)) = true) ∧
    (∀ p ∈ [(Park.cnt 4 10, (0 : Nat)), (.ac 0 0 1, 2), (.nap none none 0, 3)], let s := { onState (dev id) (waiting0 (some p.1)) with time := 10000000000 }
      theG s (fun g => external s g false == some p.2 && (getC s g.ctx).any (fun c => c.run == .running && c.extTimeout != 0 &&
        decide ((slotOf g false).extSince + c.extTimeout ≤ s.time))) = true) ∧
    (let s := { onState (collective (collGrid 2 128 none) false { fired := true }) (waiting0 (some .coll)) with time := 10000000000 }
     theG s (fun g => external s g false == some 1) = true) ∧
    (let s := { onState (dev (fun s => inFlight (.send (aXfer none none none)) s)) (waiting0 (some .marker)) with time := 10000000000 }
     let u := { s with pend := s.pend.map (fun f => { f with cls := .net }) }
     theG u (fun g => external u g false == some 5) = true) ∧
    (let s := onState (dev id) (waiting0 (some .yield)); theG s (fun g => (slotOf g false).park == some .yield && parkOver s g false .yield) = true) := by
  decide +kernel

theorem wit_PowerAndFirmwareEvents :
    (State.reset.power = .off ∧ State.reset.firmware.torn = false ∧ State.reset.operatorKey = none) ∧
    (∀ e ∈ [0, 129], let s := { dev id with status := List.replicate 130 (1, 0) }; statusOf s e = 1) ∧
    ((dev (fun s => { s with power := .active })).power ≠ .off ∧ (dev (fun s => { s with power := .active })).firmware.staged = none ∧
      channelOk (dev id) none (1#8 :: ([1#8] ++ toBytes 64 5)) = true ∧ channelOk (dev id) (some (9, 5)) (1#8 :: ([1#8] ++ toBytes 64 5)) = false) ∧
    (let s := dev (fun s => { s with firmware := { staged := some ([1#8], 5) } }); s.firmware.staged = some ([1#8], 5) ∧ channelOk s none [2#8] = true) ∧
    (let s := dev (fun s => { s with operatorKey := some 7 }); s.operatorKey = some 7) ∧
    (let s := { dev (fun s => { s with power := .idle }) with time := 100000 }; s.power ≠ .off ∧ s.sampled + 100000 ≤ s.time) := by decide +kernel

end Sys2Proof.Tests

namespace Sys2Proof.Tests
open Sys2Proof Sys2Proof.Machine
set_option Elab.async false

/-! Requests. -/

/-- A message of job 0, sequence number 1, context `ctx`. -/
def aReq (code ctx : Nat) (p : List Byte) : List Byte :=
  toBytes 2 code ++ toBytes 2 0 ++ toBytes 4 p.length ++ toBytes 8 0 ++ toBytes 8 1 ++ toBytes 2 ctx ++ List.replicate 38 0#8 ++ p ++ List.replicate 64 0#8
def aJob : Job := { job := 0, key := 0, mgmtKey := 0, self := 1, table := [1], seq := 0 }
/-- The service is up for job 0; `h` sets context 1. -/
def jobs0 (h : Context → Context) (s : State) : State := { s with jobs := [aJob], power := .active, ctxs := [h soloCtx] }
/-- What every clause about a known job asks. -/
def known (s : State) (m : List Byte) : Bool :=
  statusOf s 129 == 2 && !msgBad m && (getJob s (mJob m)).any (fun j => decide (j.seq < mSeq m) &&
    (let s1 := putJob s { j with seq := mSeq m }; !mustWait s1 s1.queued m))
/-- What every clause about a context asks. -/
def knownCtx (s : State) (m : List Byte) (k : Context → Bool) : Bool :=
  known s m && (getC s (mCtx m)).any (fun c => c.job == 0 && c.ctx != 0 && !deadCtx c && k c)

theorem wit_RequestsOfJobs_1 :
    (statusOf (dev id) 129 = 2 ∧ msgBad [] = true) ∧
    (∀ key ∈ [(none : Option Nat), some 7], let s := dev (fun s => { s with operatorKey := key })
      statusOf s 129 = 2 ∧ msgBad (aReq 1 0 (recB 204 [])) = false ∧ mCode (aReq 1 0 (recB 204 [])) = 1 ∧
        getJob s (mJob (aReq 1 0 (recB 204 []))) = none ∧ s.operatorKey = key ∧ le (mPayload (aReq 1 0 (recB 204 []))) 0 8 = mJob (aReq 1 0 (recB 204 []))) ∧
    (∀ h ∈ [(fun s => s : State → State), jobs0 id], let s := dev h
      serviceUp s = true ∧ msgBad (aReq 12 0 (recB 4 [])) = false ∧ (getJob s 0).isSome = !s.jobs.isEmpty) ∧
    (let s := dev (fun s => jobs0 id { s with waits := [aWait] }); ∃ w ∈ s.waits, w.job = mJob (aReq 12 0 (recB 4 []))) ∧
    (let s := dev (fun s => jobs0 id { s with waits := [{ aWait with job := 5 }] }); ∃ w ∈ s.waits, mCtx (aReq 6 1 []) ≠ 0 ∧ w.ctx = mCtx (aReq 6 1 [])) := by decide +kernel
theorem wit_RequestsOfJobs_2 :
    (let s := dev (jobs0 id); let m := aReq 2 0 (recB 48 [(0, 8, 4096), (24, 4, 1000), (28, 4, 3600000)]); let p := mPayload m
     known s m = true ∧ mCode m = 2 ∧ le p 0 8 % 4096 = 0 ∧ le p 0 8 < 2 ^ 52 ∧ le p 8 8 < 2 ^ 48 ∧ watchdogOf (le p 24 4) = 1000 ∧ le p 28 4 = 3600000 ∧
       memoryReady s = true ∧ (List.range 4096).find? (fun k => decide (k ≠ 0) && (getC s k).isNone) = some 2) ∧
    (∀ q ∈ [(11, recB 12 []), (12, recB 4 []), (15, recB 8 []), (16, recB 32 [])], known (dev (jobs0 id)) (aReq q.1 0 q.2) = true ∧
      mCode (aReq q.1 0 q.2) = q.1) ∧
    (∀ n ∈ [1, 9], known (dev (jobs0 id)) (aReq 16 n (recB 32 [])) = true ∧ ((getC (dev (jobs0 id)) n).any (fun c => c.job == 0 && !deadCtx c) == (n == 1)) = true) ∧ (dev (jobs0 id)).trees = [] ∧
    (∀ v ∈ [0, 1, 2], known (dev (jobs0 id)) (aReq 17 0 (recB 8 [(0, 1, v), (4, 4, 1200)])) = true) ∧ ((dev (jobs0 id)).ctxs.any (fun c => c.ctx != 0)) = true := by
  decide +kernel

def mapReq (va n : Nat) : List Byte := aReq 6 1 (recB 19 [(0, 8, va), (8, 8, n), (18, 1, 3)])
theorem wit_ContextRequests_1 :
    (∀ code ∈ [3, 5, 13], knownCtx (dev (jobs0 id)) (aReq code 1 []) (fun c => c.pairs == 0) = true ∧ mCode (aReq code 1 []) = code) ∧
    (∀ d ∈ [0, 1], let s := dev (fun s => { jobs0 (fun c => { c with pairs := 0x80 }) s with grids := [{ grid1 [(16, 8, 1 + 2 ^ 49)] with done := d == 1 }] })
      knownCtx s (aReq 5 1 []) (fun c => c.pairs != 0) = true ∧ s.grids.any (fun g => g.ctx == 1 && !g.done && (lrecOf g.lrec).cane) = (d == 0)) ∧
    (∀ k ∈ [0x19, 0x1A], ∀ q ∈ [(3, recB 0 []), (4, recB 1 [(0, 1, 1)]), (5, recB 0 []), (6, recB 19 []), (7, recB 16 []), (8, recB 13 [(8, 4, 1)]), (9, recB 12 [(8, 4, 1)]),
        (10, recB 264 []), (13, recB 0 []), (14, recB 0 []), (16, recB 32 []), (18, recB 64 [])], let s := dev (jobs0 (fun c => { c with run := .aside k }))
      known s (aReq q.1 1 q.2) = true ∧ mCode (aReq q.1 1 q.2) = q.1 ∧ (getC s 1).any (fun c => c.job == 0 && c.ctx != 0 && deadCtx c) = true) ∧
    (∀ n ∈ [1, 7], knownCtx (dev (jobs0 id)) (aReq 4 1 (recB 1 [(0, 1, n)])) (fun _ => true) = true) ∧
    knownCtx (dev (jobs0 id)) (mapReq 1 0) (fun _ => le (mPayload (mapReq 1 0)) 0 8 % pageSize (le (mPayload (mapReq 1 0)) 16 1) != 0) = true ∧
    knownCtx (dev (jobs0 id)) (aReq 7 1 (recB 16 [(8, 8, 65536)])) (fun c => c.maps.isEmpty) = true ∧
    knownCtx (dev (jobs0 (fun c => { c with maps := [(65536, 2 ^ 24, 65536)] }))) (aReq 7 1 (recB 16 [(0, 8, 65536), (8, 8, 65536)])) (fun c =>
      c.maps == [(65536, 2 ^ 24, 65536)] && memoryReady (dev (jobs0 id))) = true ∧
    (∀ n ∈ [0, 63, 64], knownCtx (dev (jobs0 (fun c => { c with queues := fput [] 15 (List.replicate n (0, [])) [] }))) (aReq 10 1 (recB 264 [(0, 1, 15)])) (fun c =>
      (fget [] (le (mPayload (aReq 10 1 (recB 264 [(0, 1, 15)]))) 0 1) c.queues).length == n) = true) ∧
    knownCtx (dev (jobs0 id)) (aReq 14 1 []) (fun c => c.run == .running) = true ∧
    (∀ k ∈ [0x1B, 0x100], knownCtx (dev (jobs0 (fun c => { c with run := .aside k }))) (aReq 14 1 []) (fun c => c.run == .aside k) = true) := by
  decide +kernel

/-- The service up, and a walk that maps 2 MiB at 0. -/
def mapped1 : State := { walked (fun _ => true) with jobs := [aJob], power := .active }
theorem wit_ContextRequests_2 :
    let m := aReq 6 1 (recB 19 [(0, 8, 2 ^ 21), (8, 8, 2 ^ 21), (16, 1, 1), (18, 1, 3)])
    let s1 := putJob mapped1 { aJob with seq := 1 }
    knownCtx mapped1 m (fun c => c.maps.isEmpty && memoryReady mapped1) = true ∧ le (mPayload m) 0 8 % pageSize (le (mPayload m) 16 1) = 0 ∧
      le (mPayload m) 8 8 = pageSize (le (mPayload m) 16 1) ∧ le (mPayload m) 0 8 + le (mPayload m) 8 8 ≤ 2 ^ 57 ∧
      (findFree s1 false (2 ^ 21)).any (fun pa => (mapPage s1 1 1 (2 ^ 21) pa 3).isSome) = true := by decide +kernel
theorem wit_ContextRequests_3 :
    (∀ va ∈ [65536, 2 ^ 21 - 1], (let m := aReq 8 1 (recB 13 [(0, 8, va), (8, 4, 1)])
      knownCtx mapped1 m (fun c => (windowPas (putJob mapped1 { aJob with seq := 1 }) c.ctx (le (mPayload m) 0 8) (le (mPayload m) 8 4)).any (fun l => l.all (fun a => !isCxl a)) &&
        memoryReady mapped1 && (trailBad (putJob mapped1 { aJob with seq := 1 }) c.ctx (le (mPayload m) 0 8) (le (mPayload m) 8 4)).isNone) = true) ∧
     (let m := aReq 9 1 (recB 12 [(0, 8, va), (8, 4, 1)])
      let s1 := putJob mapped1 { aJob with seq := 1 }
      knownCtx mapped1 m (fun c => (windowPas s1 c.ctx (le (mPayload m) 0 8) (le (mPayload m) 8 4)).any (fun l => (badAt s1 l).isNone && l.all (fun a => !isCxl a)) &&
        memoryReady mapped1 && (trailBad s1 c.ctx (le (mPayload m) 0 8) (le (mPayload m) 8 4)).isNone) = true)) ∧
    (let s := dev (fun s => { jobs0 id s with status := s.status.set 28 (3, 0) })
     memoryReady s = false ∧ knownCtx s (aReq 8 1 (recB 13 [(8, 4, 1)])) (fun _ => true) = true ∧ knownCtx s (aReq 9 1 (recB 12 [(8, 4, 1)])) (fun _ => true) = true) ∧
    (let m := aReq 18 1 (recB 64 [(4, 3, 77), (8, 4, 1)])
     let s := onState (dev (jobs0 id)) (waiting0 (some (.bkpt 77)))
     knownCtx s m (fun c => s.groups.length == 1 && s.groups.all (fun g => (slotOf g false).park == some (.bkpt 77) && g.ctx == c.ctx &&
       g.core == fld (le (mPayload m) 0 8) 13 7 && g.part == fld (le (mPayload m) 0 8) 11 2 && g.num == fld (le (mPayload m) 0 8) 6 5 && !g.task &&
       g.tidx == fld (le (mPayload m) 0 8) 2 4 && g.cluster == le (mPayload m) 8 8 / 2 ^ 32 && g.grid == le (mPayload m) 8 8 % 2 ^ 32 &&
       77 == fld (le (mPayload m) 0 8) 32 24 && fld (le (mPayload m) 0 8) 56 8 == 0) && !(le (mPayload m) 0 8).testBit 1) = true) := by decide +kernel

/-! Quantising. -/

/-- A record at 0 of a tensor of 128 elements in scaled blocks of eight. -/
def tensorAt (s : State) : State := withMem 0 (recB 64 [(8, 2, 128), (10, 2, 1), (12, 2, 1), (14, 2, 1), (16, 8, 147)]) (mapped s)
theorem wit_ConversionAndQuantising_2 :
    let k (w : VWord) (scl : Bool) (s : State) (x : Issue) : Bool := (rs x.g 8).toNat == 0 && (match laneCheck s x.g 0 0 64 1 1 false 1 with
      | .ok l => (match readNow s x.g l.pas with
        | some (.inr p) => (match quantBad w scl (rs x.g 9).toNat 128 p.2 with | .inl _ => true | .inr _ => false)
        | _ => false)
      | _ => false)
    let w := tV 0 0 16 17 0 360 14 0
    ok tensorAt id (.vQuant w) (fun s x => k w (w.fn.getLsbD 0) s x && noHold w true false s x) = true ∧
      ok tensorAt id (.vDequant w) (fun s x => k w false s x && noHold w true true s x) = true := by decide +kernel

end Sys2Proof.Tests

/-! The memory invariant. -/

namespace Sys2Proof.Tests
open Sys2Proof Sys2Proof.Machine
set_option Elab.async false

/-- A listed byte, and a step that answers a next state. -/
theorem wit_MemoryStaysCanonical :
    let s := turnsOf (.event .completionTimePassed) (wrBytes State.reset [(5, 7#8), (3, 1#8)])
    Memory.wf s.mem = true ∧ s.mem = [(3, 1#8), (5, 7#8)] ∧
      (match step s with | .next t => t.mem == s.mem | _ => false) = true := by decide +kernel

end Sys2Proof.Tests
end

section
/-! PROOF. The statements of 00_scope.md: the state at package reset, reading back what was written, and the canonical form of memory
along every step. -/

namespace Sys2Proof.Proofs
open Sys2Proof Sys2Proof.Machine Sys2Proof.Laws

/-! Reset. -/

/-- Settles O6: every field of the reset state is given by its definition, and the empty memory lists no byte that could break the form. -/
theorem resetState : Obligations.ResetState := by
  have status : ∀ e ∈ State.reset.status, e = (0, 0) := fun _ he => List.eq_of_mem_replicate he
  have memory : State.reset.memOk = true := rfl
  exact ⟨rfl, List.length_replicate, status, rfl, rfl, rfl, rfl, rfl, rfl, rfl, rfl, rfl, rfl, rfl, rfl, rfl, rfl, rfl, memory⟩

/-! Registers, masks and memory bytes. -/

/-- The bits of the width mask are the lanes that exist (R31). -/
theorem getLsbD_widthMask (g : Group) {l : Nat} (hl : l < 64) : (widthMask g).getLsbD l = decide (l < g.width) := by
  simp only [widthMask, BitVec.getLsbD_ofNat, Nat.testBit_two_pow_sub_one, hl, decide_true, Bool.true_and]

theorem getLsbD_rm_wm (g : Group) (k k' : Nat) (v : W64) {l : Nat} (hl : l < 64) :
    (rm (wm g k v) k').getLsbD l = if k' = k then v.getLsbD l && decide (l < g.width) else (rm g k').getLsbD l := by
  rw [rm_wm]
  split
  · rw [BitVec.getLsbD_and, getLsbD_widthMask g hl]
  · rfl

/-- Writes at other keys leave what a key reads as. -/
theorem fget_fputs_of_forall_ne {β : Type} [DecidableEq β] (d : β) {k : Nat} {l : List (Nat × β)} (h : ∀ p ∈ l, p.1 ≠ k) (m : FMap β) :
    fget d k (fputs d l m) = fget d k m := by
  induction l generalizing m with
  | nil => rfl
  | cons p l ih =>
    obtain ⟨hp, hl⟩ := List.forall_mem_cons.1 h
    exact (ih hl _).trans (fget_fput_other d hp.symm p.2 m)

theorem rdByte_wrBytes_singleton (s : State) (a b : Nat) (v : Byte) : rdByte (wrBytes s [(a, v)]) b = if b = a then v else rdByte s b :=
  fget_fput memDefault a b v s.mem

theorem rdByte_wrBytes_of_forall_ne (s : State) {l : List (Nat × Byte)} {b : Nat} (h : ∀ p ∈ l, p.1 ≠ b) :
    rdByte (wrBytes s l) b = rdByte s b :=
  fget_fputs_of_forall_ne memDefault h s.mem

/-- Memories in canonical form that read alike are equal. -/
theorem mem_eq_of_rdByte_eq {s t : State} (hs : Memory.wf s.mem = true) (ht : Memory.wf t.mem = true)
    (h : ∀ a, rdByte s a = rdByte t a) : s.mem = t.mem :=
  fwf_ext memDefault hs ht h

/-- Settles O7: the laws of the sparse stores, read off registers, masks and memory. -/
theorem registerAndMemoryWrites : Obligations.RegisterAndMemoryWrites :=
  ⟨⟨rs_ws, fun g k k' v _ hl => getLsbD_rm_wm g k k' v hl, fun g r l r' l' v hl hl' => rv_wv g r l r' l' v hl hl'⟩,
    rdByte_wrBytes_singleton, wrBytes_wf, fun s _ _ h => rdByte_wrBytes_of_forall_ne s h, fun _ _ hs ht h => mem_eq_of_rdByte_eq hs ht h⟩

/-! A move: the instruction it comes to runs in a state whose memory is that of the state before. -/

/-- The state in which a move's instruction runs, or at which the move stops. -/
def jobState : Job1 → State
  | .run s _ => s
  | .stop s => s

@[simp] theorem jobState_run (s : State) (i : Instr) : jobState (.run s i) = s := rfl
@[simp] theorem jobState_stop (s : State) : jobState (.stop s) = s := rfl

@[simp] theorem issueSlot_mem (s : State) (gid : Nat) (b : Bool) : (jobState (issueSlot s gid b)).mem = s.mem := by
  unfold issueSlot
  dsimp only
  split
  · rfl
  · split
    · split
      · rfl
      · rw [jobState_stop]
        split
        · next h => rw [headerFault_mem h, withFocus_mem]
        · split <;> simp
    · split <;> simp

@[simp] theorem sequencerTurn_mem (s : State) (id : Nat) : (jobState (sequencerTurn s id)).mem = s.mem := by
  unfold sequencerTurn
  split
  · rfl
  · next f _ =>
    split
    · next sh _ =>
      have begun : (withFocus (beginShare s f sh) (.tower id)).mem = s.mem := by simp
      dsimp only
      split_ifs
      · rfl
      · split
        · exact begun
        · exact (runNoCommand_mem _).trans begun
    · rfl

@[simp] theorem toRun_mem (s : State) (m : Move) : (jobState (toRun s m)).mem = s.mem := by
  cases m with
  | issue core part =>
    dsimp only [toRun]
    split
    · exact issueSlot_mem s _ _
    · rfl
  | sequencer id => exact sequencerTurn_mem s id
  | event i =>
    dsimp only [toRun]
    split <;> rfl

/-! The canonical form of memory, kept by each outcome. -/

/-- Does an outcome answer, if it answers one, a state with a memory in canonical form? -/
def OutcomeWf (o : Host.Outcome State Fault Refusal) : Prop := ∀ t, o = .next t → Memory.wf t.mem = true

theorem outcomeWf_next {s : State} (h : Memory.wf s.mem = true) : OutcomeWf (.next s) := by
  rintro t ⟨⟩
  exact h

theorem outcomeWf_of_outState {s : State} {o : Host.Outcome State Fault Refusal} (h : Memory.wf (outState s o).mem = true) :
    OutcomeWf o := by
  rintro t rfl
  exact h

theorem exec_outcomeWf (i : Instr) {s : State} (h : Memory.wf s.mem = true) : OutcomeWf (exec i s) :=
  outcomeWf_of_outState (exec_wf i s h)

theorem withAfter_outcomeWf (s0 : State) {o : Host.Outcome State Fault Refusal} (h : OutcomeWf o) : OutcomeWf (withAfter s0 o) := by
  cases o with
  | next s => exact outcomeWf_next (afterEvent_wf s0 s (h s rfl))
  | fault _ => exact h
  | refused _ => exact h

theorem runMove_outcomeWf (m : Move) {s : State} (h : Memory.wf s.mem = true) : OutcomeWf (runMove s m) := by
  have start : Memory.wf (jobState (toRun s m)).mem = true := by rwa [toRun_mem]
  unfold runMove
  cases e : toRun s m with
  | stop s1 =>
    rw [e] at start
    exact outcomeWf_next start
  | run s1 i =>
    rw [e] at start
    cases m with
    | event _ => exact withAfter_outcomeWf s (exec_outcomeWf i start)
    | issue _ _ => exact exec_outcomeWf i start
    | sequencer _ => exact exec_outcomeWf i start

/-! What is on offer without turns. -/

/-- Does an offer, when it is an effect, keep the canonical form of memory? -/
def OfferKeepsWf : Offer → Prop
  | .move _ => True
  | .effect f => ∀ s, Memory.wf s.mem = true → Memory.wf (outState s (f s)).mem = true

@[simp] theorem offerKeepsWf_move (m : Move) : OfferKeepsWf (.move m) := trivial

@[simp] theorem offerKeepsWf_effect (f : State → Host.Outcome State Fault Refusal) :
    OfferKeepsWf (.effect f) ↔ ∀ s, Memory.wf s.mem = true → Memory.wf (outState s (f s)).mem = true := Iff.rfl

/-- The events that move an operation in flight on: most leave memory alone, the others write it by the rules listed. -/
theorem opEvents_keepWf (f : Flight) : ∀ o ∈ opEvents f, OfferKeepsWf o := by
  unfold opEvents
  cases f.op with
  | copy c =>
    dsimp only
    split <;> simp +contextual [execCopyComplete_wf, execCopyFault_wf, or_imp]
  | _ =>
    simp +contextual [execHomeStorePerform_wf, execHomeAtomicPerform_wf, execFarAtomicApply_wf, execTowerBlockComplete_wf,
      execErrorArrival_wf, execStationOperation_wf, execTaskCounterAdd_wf]

theorem outEvents_keepWf (s : State) (o : Out) : ∀ e ∈ outEvents s o, OfferKeepsWf e := by
  unfold outEvents
  split
  · split <;> simp +contextual [execNetReceive_wf]
  · split <;> simp
  · split
    · split <;> simp +contextual [execNetGetLand_wf]
    · simp
  · simp
  · simp

theorem groupEvents_keepWf (s : State) (g : Group) : ∀ e ∈ groupEvents s g, OfferKeepsWf e := by
  have fetch (b p : Bool) : ∀ e ∈ (if p then [Offer.effect (execIcacheFill g.gid b)] else []), OfferKeepsWf e := by cases p <;> simp
  unfold groupEvents
  dsimp only
  simp only [List.forall_mem_append]
  refine ⟨⟨⟨⟨fetch _ _, fetch _ _⟩, by simp⟩, by simp⟩, ?_⟩
  split <;> simp

theorem ctxEvents_keepWf (s : State) (c : Context) : ∀ e ∈ ctxEvents s c, OfferKeepsWf e := by
  unfold ctxEvents
  simp only [List.forall_mem_append, List.forall_mem_flatMap, List.forall_mem_map]
  simp +contextual [execGridDoneAdd_wf, execPreemptSave_wf]

theorem offers_keepWf (s : State) : ∀ o ∈ offers s, OfferKeepsWf o := by
  unfold offers
  simp only [List.forall_mem_append, List.forall_mem_flatMap, List.forall_mem_map]
  refine ⟨⟨⟨⟨⟨⟨⟨⟨⟨⟨by simp, by simp⟩, fun f _ => opEvents_keepWf f⟩, fun o _ => outEvents_keepWf s o⟩,
    fun g _ => groupEvents_keepWf s g⟩, fun c _ => ctxEvents_keepWf s c⟩, by simp⟩, by simp⟩, by simp⟩, fun w _ o ho => ?switches⟩, by simp⟩
  case switches =>
    obtain ⟨k, -, hk⟩ := List.mem_filterMap.1 ho
    split at hk
    · cases hk
      simp
    · cases hk

theorem nextOffer_keepsWf (s : State) : OfferKeepsWf (nextOffer s) := by
  unfold nextOffer
  rw [List.getD_eq_getElem?_getD]
  cases h : (offers s)[s.time % (offers s).length]? with
  | some o => exact offers_keepWf s o (List.mem_of_getElem? h)
  | none => simp

theorem runDefault_outcomeWf {s : State} (h : Memory.wf s.mem = true) : OutcomeWf (runDefault s) := by
  unfold runDefault
  split
  · exact runMove_outcomeWf _ h
  · have idle : Memory.wf ({ passTime s 1 with focus := .idle } : State).mem = true := h
    have offer := nextOffer_keepsWf { passTime s 1 with focus := .idle }
    dsimp only
    split
    · exact runMove_outcomeWf _ idle
    · next e =>
      rw [e] at offer
      exact withAfter_outcomeWf _ (outcomeWf_of_outState (offer _ idle))

/-! A step. -/

theorem step_outcomeWf {s : State} (h : Memory.wf s.mem = true) : OutcomeWf (step s) := by
  unfold step
  split
  · exact runMove_outcomeWf _ (afterTurn_wf s _ _ h)
  · exact runDefault_outcomeWf h

/-- Settles O60: a step is a move or an effect on offer after time has passed and errors have struck, and each of these keeps the form. -/
theorem memoryStaysCanonical : Obligations.MemoryStaysCanonical :=
  fun _ t h e => step_outcomeWf h t e

end Sys2Proof.Proofs
end

section
/-! PROOF. Shared by the statements of 01_fjarbin_at_a_glance.md: what a write at the homes stores and what it leaves alone, entries of the
status block, and contexts that are stopped. -/

namespace Sys2Proof.Proofs
open Sys2Proof Sys2Proof.Machine Sys2Proof.Laws

/-! Work at the homes: caches, tags and operations in flight change, nothing else. -/

/-- A state without what work at the homes touches: the bytes with their errors, the caches, the homes' line state, the operations in flight
and the groups. -/
def besideMemory (s : State) : State :=
  { s with mem := [], cxlMem := [], badMem := [], l2 := [], plru := [], llc := [], homes := [], l1 := [], icache := [], recallSent := [],
           nextId := 0, pend := [], groups := [] }

/-- `t` comes from `s` by work at the homes: what is in flight stays so, the number of groups is the same, and all else is as it was. -/
structure MemoryWork (s t : State) : Prop where
  beside : besideMemory t = besideMemory s
  pend : s.pend <+: t.pend
  groups : t.groups.length = s.groups.length

namespace MemoryWork

theorem refl (s : State) : MemoryWork s s := ⟨rfl, List.prefix_rfl, rfl⟩

theorem trans {s t u : State} (h : MemoryWork s t) (k : MemoryWork t u) : MemoryWork s u :=
  ⟨k.beside.trans h.beside, h.pend.trans k.pend, k.groups.trans h.groups⟩

section fields
variable {s t : State} (h : MemoryWork s t)
include h

theorem status : t.status = s.status := (congrArg State.status h.beside :)
theorem stBlk : t.stBlk = s.stBlk := (congrArg State.stBlk h.beside :)
theorem corr : t.corr = s.corr := (congrArg State.corr h.beside :)
theorem outs : t.outs = s.outs := (congrArg State.outs h.beside :)
theorem ctxs : t.ctxs = s.ctxs := (congrArg State.ctxs h.beside :)

end fields

theorem foldl {α : Type} {f : State → α → State} (hf : ∀ s a, MemoryWork s (f s a)) (l : List α) (s : State) : MemoryWork s (l.foldl f s) :=
  List.foldlRecOn l f (motive := MemoryWork s) (refl s) fun t h a _ => h.trans (hf t a)

theorem launchOp (s : State) (gid ctx core : Nat) (cls : Cls) (op : Op) : MemoryWork s (launchOp s gid ctx core cls op) :=
  ⟨rfl, List.prefix_append _ _, rfl⟩

theorem promote (s : State) (line : Nat) : MemoryWork s (promote s line) := by
  unfold Machine.promote
  split
  · exact refl s
  · exact ⟨rfl, List.prefix_rfl, rfl⟩

theorem llcPut (s : State) (line : Nat) (valid dirty : BitVec 8) : MemoryWork s (llcPut s line valid dirty) := by
  unfold Machine.llcPut
  dsimp only
  split
  · exact ⟨rfl, List.prefix_rfl, rfl⟩
  · split <;> exact ⟨rfl, List.prefix_rfl, rfl⟩

theorem cxlOut (s : State) (gid line : Nat) (sectors : BitVec 8) : MemoryWork s (cxlOut s gid line sectors) :=
  ⟨rfl, List.prefix_append _ _, rfl⟩

theorem l2Evict (s : State) (c : CLine) : MemoryWork s (l2Evict s c) := by
  have dropped : MemoryWork s { s with l2 := s.l2.filter (fun x => x.line != c.line) } := ⟨rfl, List.prefix_rfl, rfl⟩
  unfold Machine.l2Evict
  dsimp only
  split_ifs
  · exact dropped
  · exact dropped.trans (cxlOut _ _ _ _)
  · exact dropped.trans (llcPut _ _ _ _)

theorem l2Put (s : State) (line : Nat) (valid dirty : BitVec 8) (allowed : Nat) : MemoryWork s (l2Put s line valid dirty allowed) := by
  unfold Machine.l2Put
  dsimp only
  split
  · exact ⟨rfl, List.prefix_rfl, rfl⟩
  · split
    · exact ⟨rfl, List.prefix_rfl, rfl⟩
    · split
      · exact (l2Evict s _).trans ⟨rfl, List.prefix_rfl, rfl⟩
      · exact ⟨rfl, List.prefix_rfl, rfl⟩

theorem homeTouch (s : State) (ctx hint pa : Nat) : MemoryWork s (homeTouch s ctx hint pa) := by
  have filled (v : BitVec 8) (w : Nat) := (l2Put s (pa / 1024) v 0#8 w).trans (promote _ (pa / 1024))
  unfold Machine.homeTouch
  dsimp only
  split_ifs
  · exact refl s
  · exact promote s _
  · exact refl s
  · exact filled _ _
  · exact (filled _ _).trans (llcPut _ _ _ _)

theorem setHome (s : State) (line : Nat) (h : Home) : MemoryWork s (setHome s line h) := ⟨rfl, List.prefix_rfl, rfl⟩

theorem towerOut (s : State) (gid line : Nat) (sectors : BitVec 8) : MemoryWork s (towerOut s gid line sectors) := by
  unfold Machine.towerOut
  dsimp only
  split
  · exact cxlOut s _ _ _
  · refine MemoryWork.trans ?_ ((setHome _ _ _).trans (launchOp _ _ _ _ _ _))
    split
    · exact llcPut s _ _ _
    · exact refl s

theorem homeStoreTags (s : State) (gid ctx hint pa : Nat) : MemoryWork s (homeStoreTags s gid ctx hint pa) := by
  have marked (s1 : State) (f : CLine → CLine) : MemoryWork s1 { s1 with l2 := replaceFirst (fun c => c.line == pa / 1024) f s1.l2 } :=
    ⟨rfl, List.prefix_rfl, rfl⟩
  unfold Machine.homeStoreTags
  dsimp only
  split_ifs
  · exact (marked s _).trans (towerOut _ _ _ _)
  · exact (promote s _).trans (marked _ _)
  · exact towerOut s _ _ _
  · exact (l2Put s _ _ _ _).trans (promote _ _)

theorem sendRecalls (s : State) (line : Nat) : MemoryWork s (sendRecalls s line) := by
  unfold Machine.sendRecalls
  extract_lets _ expired
  refine MemoryWork.trans (t := expired) ⟨rfl, List.prefix_rfl, rfl⟩ (foldl ?sent _ expired)
  case sent => exact fun _ _ => ⟨rfl, List.prefix_append _ _, rfl⟩

theorem completion (s : State) (line : Nat) : MemoryWork s (completion s line).1 := by
  unfold Machine.completion
  dsimp only
  split
  · exact refl s
  · exact (sendRecalls s line).trans (setHome _ _ _)

theorem performWrite (s : State) (gid : Nat) (bytes : List (Nat × Byte)) : MemoryWork s (performWrite s gid bytes) :=
  ⟨rfl, List.prefix_rfl, List.length_map _⟩

theorem sectorWrite (s : State) (ctx hint k : Nat) (bytes : List (Nat × Byte)) : MemoryWork s (sectorWrite s ctx hint k bytes).1 := by
  unfold Machine.sectorWrite
  refine MemoryWork.trans ?_ ((performWrite _ _ _).trans ((homeStoreTags _ _ _ _ _).trans (completion _ _)))
  split
  · exact homeTouch s _ _ _
  · exact refl s

theorem engineWrite (s : State) (ctx hint : Nat) (bytes : List (Nat × Byte)) : MemoryWork s (engineWrite s ctx hint bytes).1 := by
  unfold Machine.engineWrite
  exact List.foldlRecOn (sectorsOf bytes) _ (motive := fun a : State × Nat => MemoryWork s a.1) (refl s) fun _ h k _ => h.trans (sectorWrite _ _ _ k _)

end MemoryWork

/-! The bytes that a write stores. -/

theorem fget_fputs_of_mem {β : Type} [DecidableEq β] (d : β) {k : Nat} {v : β} {l : List (Nat × β)} (h : (k, v) ∈ l)
    (same : ∀ p ∈ l, p.1 = k → p.2 = v) (m : FMap β) : fget d k (fputs d l m) = v := by
  induction l generalizing m with
  | nil => cases h
  | cons p l ih =>
    obtain ⟨hp, hl⟩ := List.forall_mem_cons.1 same
    by_cases later : (k, v) ∈ l
    · exact ih later hl _
    · obtain rfl : (k, v) = p := (List.mem_cons.1 h).resolve_right later
      have absent : ∀ q ∈ l, q.1 ≠ k := by
        rintro ⟨k', v'⟩ hq rfl
        obtain rfl : v' = v := hl _ hq rfl
        exact later hq
      exact (fget_fputs_of_forall_ne d absent _).trans (fget_fput_same d k v m)

theorem fputs_append {β : Type} [DecidableEq β] (d : β) (l r : List (Nat × β)) (m : FMap β) : fputs d (l ++ r) m = fputs d r (fputs d l m) := by
  induction l generalizing m with
  | nil => rfl
  | cons p l ih => exact ih _

@[simp] theorem performWrite_mem (s : State) (gid : Nat) (bytes : List (Nat × Byte)) :
    (performWrite s gid bytes).mem = fputs memDefault bytes s.mem := rfl

@[simp] theorem sectorWrite_mem (s : State) (ctx hint k : Nat) (bytes : List (Nat × Byte)) :
    (sectorWrite s ctx hint k bytes).1.mem = fputs memDefault bytes s.mem := by
  unfold sectorWrite
  rw [completion_mem, homeStoreTags_mem, performWrite_mem]
  split
  · rw [homeTouch_mem]
  · rfl

/-- An engine's write stores its bytes, in order of their sectors. -/
theorem engineWrite_mem (s : State) (ctx hint : Nat) (bytes : List (Nat × Byte)) :
    (engineWrite s ctx hint bytes).1.mem = fputs memDefault ((sectorsOf bytes).flatMap (sectorPart bytes)) s.mem := by
  have sectors (l : List Nat) (a : State × Nat) :
      (l.foldl (fun a k => let r := sectorWrite a.1 ctx hint k (sectorPart bytes k); (r.1, max a.2 r.2)) a).1.mem =
        fputs memDefault (l.flatMap (sectorPart bytes)) a.1.mem := by
    induction l generalizing a with
    | nil => rfl
    | cons k l ih => rw [List.foldl_cons, ih, List.flatMap_cons, fputs_append, sectorWrite_mem]
  exact sectors _ _

/-- Every byte lies in one of the sectors, and no other byte does. -/
theorem mem_flatMap_sectorPart {bytes : List (Nat × Byte)} {p : Nat × Byte} : p ∈ (sectorsOf bytes).flatMap (sectorPart bytes) ↔ p ∈ bytes := by
  simp only [List.mem_flatMap, sectorPart, List.mem_filter, beq_iff_eq, sectorsOf, List.mem_eraseDups, List.mem_map]
  exact ⟨fun ⟨_, _, hp, _⟩ => hp, fun hp => ⟨p.1 / 128, ⟨p, hp, rfl⟩, hp, rfl⟩⟩

theorem mem_at_ {off : Nat} {l : List Byte} {p : Nat × Byte} : p ∈ at_ off l ↔ ∃ i, l[i]? = some p.2 ∧ p.1 = off + i := by
  rw [at_, List.mem_map]
  constructor
  · rintro ⟨⟨i, b⟩, h, rfl⟩
    obtain ⟨j, hj⟩ := List.mem_iff_getElem?.1 h
    obtain ⟨hi, hb⟩ := List.getElem?_zip_eq_some.1 hj
    obtain ⟨_, rfl⟩ := List.getElem?_eq_some_iff.1 hi
    exact ⟨j, hb, by simp⟩
  · rintro ⟨i, hb, hp⟩
    have hi : (List.range l.length)[i]? = some i := List.getElem?_range (List.getElem?_eq_some_iff.1 hb).1
    exact ⟨(i, p.2), List.mem_iff_getElem?.2 ⟨i, List.getElem?_zip_eq_some.2 ⟨hi, hb⟩⟩, Prod.ext hp.symm rfl⟩

/-- Whatever order the bytes of a row are stored in, each of them is read back. -/
theorem fget_fputs_at_ {off : Nat} {l : List Byte} {bytes : List (Nat × Byte)} (h : ∀ p, p ∈ bytes ↔ p ∈ at_ off l) (m : FMap Byte) {i : Nat}
    (hi : i < l.length) : fget memDefault (off + i) (fputs memDefault bytes m) = l[i] := by
  refine fget_fputs_of_mem _ ((h _).2 (mem_at_.2 ⟨i, List.getElem?_eq_getElem hi, rfl⟩)) ?_ m
  rintro ⟨a, v⟩ hp rfl
  obtain ⟨j, hj, e⟩ := mem_at_.1 ((h _).1 hp)
  obtain rfl : i = j := Nat.add_left_cancel e
  exact ((List.getElem?_eq_some_iff.1 hj).2).symm

/-- Bytes outside a row are as they were. -/
theorem fget_fputs_outside_at_ {off : Nat} {l : List Byte} {bytes : List (Nat × Byte)} (h : ∀ p, p ∈ bytes ↔ p ∈ at_ off l) (m : FMap Byte)
    {a : Nat} (ha : a < off ∨ off + l.length ≤ a) : fget memDefault a (fputs memDefault bytes m) = fget memDefault a m := by
  refine fget_fputs_of_forall_ne _ ?_ m
  rintro ⟨b, v⟩ hp rfl
  obtain ⟨j, hj, e⟩ := mem_at_.1 ((h _).1 hp)
  have := (List.getElem?_eq_some_iff.1 hj).1
  simp only at e
  omega

/-- A part of a row that memory holds is read as that part. -/
theorem rdBytes_of_row {t : State} {off : Nat} {l : List Byte} (h : ∀ i (hi : i < l.length), rdByte t (off + i) = l[i]) {k n : Nat}
    (hn : k + n ≤ l.length) : rdBytes t (off + k) n = (l.drop k).take n := by
  refine List.ext_getElem (by simp [rdBytes]; omega) fun i hi _ => ?_
  have hin : i < n := by simpa [rdBytes] using hi
  simp only [rdBytes, List.getElem_map, List.getElem_range, List.getElem_take, List.getElem_drop, Nat.add_assoc]
  exact h _ _

@[simp] theorem length_toBytes (n x : Nat) : (toBytes n x).length = n := by
  induction n generalizing x with
  | zero => rfl
  | succ n ih => simp [toBytes, ih]

theorem ofBytes_toBytes (n x : Nat) : ofBytes (toBytes n x) = x % 2 ^ (8 * n) := by
  induction n generalizing x with
  | zero => simp [toBytes, ofBytes, Nat.mod_one]
  | succ n ih =>
    simp only [toBytes, ofBytes, ih, BitVec.toNat_ofNat, Nat.shiftLeft_eq, Nat.shiftRight_eq_div_pow]
    rw [show 8 * (n + 1) = 8 + 8 * n by omega, Nat.pow_add, Nat.mod_mul, Nat.mul_comm (2 ^ 8)]

/-! The status block (R434). -/

/-- A function whose entry does not read off has an entry. -/
theorem lt_length_of_statusOf_ne_zero {s : State} {e : Nat} (h : statusOf s e ≠ 0) : e < s.status.length := by
  by_contra hlt
  exact h (by simp [statusOf, List.getD_eq_getElem?_getD, List.getElem?_eq_none (Nat.le_of_not_lt hlt)])

theorem statusOf_congr {s t : State} (h : t.status = s.status) (e : Nat) : statusOf t e = statusOf s e := by rw [statusOf, statusOf, h]

theorem statusOf_of_status_set {s t : State} {e v : Nat} (h : t.status = s.status.set e (v, s.time)) (he : e < s.status.length) (k : Nat) :
    statusOf t k = if k = e then v else statusOf s k := by
  simp only [statusOf, h, List.getD_eq_getElem?_getD, List.getElem?_set]
  by_cases hk : e = k
  · simp [hk, hk ▸ he]
  · simp [hk, Ne.symm hk]

/-- A change of an entry is one of the entry and the log, and work at the homes. -/
theorem setStatus_work (s : State) (e v : Nat) : ∃ st lg, MemoryWork { s with status := st, log := lg } (setStatus s e v) := by
  unfold setStatus
  split
  · exact ⟨_, _, MemoryWork.engineWrite _ _ _ _⟩
  · exact ⟨s.status, s.log, MemoryWork.refl s⟩

theorem setStatus_outs (s : State) (e v : Nat) : (setStatus s e v).outs = s.outs := by
  obtain ⟨_, _, h⟩ := setStatus_work s e v
  exact h.outs

theorem setStatus_ctxs (s : State) (e v : Nat) : (setStatus s e v).ctxs = s.ctxs := by
  obtain ⟨_, _, h⟩ := setStatus_work s e v
  exact h.ctxs

theorem setStatus_corr (s : State) (e v : Nat) : (setStatus s e v).corr = s.corr := by
  obtain ⟨_, _, h⟩ := setStatus_work s e v
  exact h.corr

theorem setStatus_pend (s : State) (e v : Nat) : s.pend <+: (setStatus s e v).pend := by
  obtain ⟨_, _, h⟩ := setStatus_work s e v
  exact h.pend

theorem setStatus_groups_length (s : State) (e v : Nat) : (setStatus s e v).groups.length = s.groups.length := by
  obtain ⟨_, _, h⟩ := setStatus_work s e v
  exact h.groups

/-- The value and the time stand in the entry's 16 bytes (R434). -/
theorem writeStatus_row (s : State) (e v : Nat) :
    ofBytes (rdBytes (writeStatus s e v) (s.stBlk + 16 * e) 8) = v % 2 ^ 64 ∧
      ∀ a, (a < s.stBlk + 16 * e ∨ s.stBlk + 16 * e + 16 ≤ a) → rdByte (writeStatus s e v) a = rdByte s a := by
  have mem : (writeStatus s e v).mem = _ := engineWrite_mem _ _ _ _
  constructor
  · have row : ∀ i (hi : i < (toBytes 8 v ++ toBytes 8 s.time).length),
        rdByte (writeStatus s e v) (s.stBlk + 16 * e + i) = (toBytes 8 v ++ toBytes 8 s.time)[i] := fun i hi => by
      rw [rdByte, mem]
      exact fget_fputs_at_ (fun _ => mem_flatMap_sectorPart) _ hi
    have read := rdBytes_of_row row (k := 0) (n := 8) (by simp)
    rw [Nat.add_zero, List.drop_zero, List.take_left' (length_toBytes 8 v)] at read
    rw [read, ofBytes_toBytes]
  · intro a ha
    rw [rdByte, mem]
    exact fget_fputs_outside_at_ (fun _ => mem_flatMap_sectorPart) _ (by simpa using ha)

theorem statusChanged_setStatus {s : State} {e v : Nat} (on : statusOf s e ≠ 0) (hne : statusOf s e ≠ v) (hv : v < 2 ^ 64) :
    StatusChanged s (setStatus s e v) e v := by
  have he := lt_length_of_statusOf_ne_zero on
  have entry : setStatus s e v = writeStatus (logEvent { s with status := s.status.set e (v, s.time) } 1 (e * 16 + v)) e v :=
    if_pos ⟨he, hne⟩
  have status := statusOf_of_status_set (t := setStatus s e v) (by rw [entry]; exact (MemoryWork.engineWrite _ _ _ _).status) he
  obtain ⟨value, others⟩ := writeStatus_row (logEvent { s with status := s.status.set e (v, s.time) } 1 (e * 16 + v)) e v
  refine ⟨by rw [status, if_pos rfl], fun k hk => by rw [status, if_neg hk], ?_, ?_⟩
  · rw [entry]
    exact value.trans (Nat.mod_eq_of_lt hv)
  · rw [entry]
    exact others

/-- What changes neither the entries nor memory keeps a change of an entry. -/
theorem statusChanged_congr {s s' t t' : State} {e v : Nat} (h : StatusChanged s t e v) (status : s'.status = s.status) (mem : s'.mem = s.mem)
    (stBlk : s'.stBlk = s.stBlk) (status' : t'.status = t.status) (mem' : t'.mem = t.mem) : StatusChanged s' t' e v := by
  obtain ⟨value, others, bytes, rest⟩ := h
  have read (a : Nat) : rdByte t' a = rdByte t a := by rw [rdByte, rdByte, mem']
  refine ⟨(statusOf_congr status' e).trans value, fun k hk => ?_, ?_, fun a ha => ?_⟩
  · rw [statusOf_congr status', statusOf_congr status, others k hk]
  · rw [stBlk]
    simpa only [rdBytes, read] using bytes
  · rw [stBlk] at ha
    rw [read, rest a ha, rdByte, rdByte, mem]

/-! Contexts that are stopped (R448, R87). -/

/-- Stopping a context changes contexts alone. -/
theorem stopCtx_eq (s : State) (ctx cause : Nat) : ∃ cs, stopCtx s ctx cause = { s with ctxs := cs } := by
  unfold stopCtx
  split
  · exact ⟨_, rfl⟩
  · split
    · exact ⟨_, rfl⟩
    · split <;> exact ⟨_, rfl⟩
    · split <;> exact ⟨_, rfl⟩

theorem stopCtxs_eq (l : List Nat) (s : State) (cause : Nat) : ∃ cs, l.foldl (fun s c => stopCtx s c cause) s = { s with ctxs := cs } :=
  List.foldlRecOn l _ (motive := fun t => ∃ cs, t = { s with ctxs := cs }) ⟨_, rfl⟩ fun t ⟨cs, ht⟩ c _ => by
    obtain ⟨cs', h⟩ := stopCtx_eq t c cause
    exact ⟨cs', by rw [h, ht]⟩

/-- The context stops for this cause. -/
def StopsFor (s : State) (ctx cause : Nat) : Prop := ∃ c, getC s ctx = some c ∧ c.run = .stopping cause

theorem stopCtx_stops {s : State} {ctx : Nat} {c : Context} (h : getC s ctx = some c) (hr : c.run = .running) (cause : Nat) :
    StopsFor (stopCtx s ctx cause) ctx cause := by
  obtain rfl := getC_ctx h
  have stop : stopCtx s c.ctx cause = putC s { c with run := .stopping cause } := by simp [stopCtx, h, hr]
  exact ⟨_, by rw [stop]; exact getC_putC_same (c := { c with run := .stopping cause }) h, rfl⟩

theorem stopCtx_getC_other {s : State} {ctx k : Nat} (h : k ≠ ctx) (cause : Nat) : getC (stopCtx s ctx cause) k = getC s k := by
  unfold stopCtx
  cases hc : getC s ctx with
  | none => rfl
  | some c =>
    obtain rfl := getC_ctx hc
    have other (r : Run) : getC (putC s { c with run := r }) k = getC s k := getC_putC_other (c := { c with run := r }) h
    dsimp only
    split
    · exact other _
    · split <;> exact other _
    · split <;> exact other _

/-- A context that stops for a cause goes on doing so when it, or another, is stopped for that cause. -/
theorem StopsFor.stopCtx {s : State} {ctx cause : Nat} (h : StopsFor s ctx cause) (k : Nat) : StopsFor (stopCtx s k cause) ctx cause := by
  obtain ⟨c, hc, hr⟩ := h
  by_cases hk : ctx = k
  · subst hk
    obtain rfl := getC_ctx hc
    have stop : Machine.stopCtx s c.ctx cause = putC s { c with run := .stopping cause } := by simp [Machine.stopCtx, hc, hr]
    exact ⟨_, by rw [stop]; exact getC_putC_same (c := { c with run := .stopping cause }) hc, rfl⟩
  · exact ⟨c, (stopCtx_getC_other hk cause).trans hc, hr⟩

theorem StopsFor.stopCtxs {s : State} {ctx cause : Nat} (h : StopsFor s ctx cause) (l : List Nat) :
    StopsFor (l.foldl (fun s c => Machine.stopCtx s c cause) s) ctx cause :=
  List.foldlRecOn l _ (motive := fun t => StopsFor t ctx cause) h fun _ ht k _ => ht.stopCtx k

/-- Stopping a list of contexts stops each of them that runs. -/
theorem stopCtxs_stops {s : State} {ctx : Nat} {c : Context} {l : List Nat} (hl : ctx ∈ l) (h : getC s ctx = some c) (hr : c.run = .running)
    (cause : Nat) : StopsFor (l.foldl (fun s c => stopCtx s c cause) s) ctx cause := by
  induction l generalizing s with
  | nil => cases hl
  | cons k l ih =>
    by_cases hk : ctx = k
    · subst hk
      exact (stopCtx_stops h hr cause).stopCtxs l
    · exact ih ((List.mem_cons.1 hl).resolve_left hk) ((stopCtx_getC_other hk cause).trans h)

end Sys2Proof.Proofs
end

section
/-! PROOF. The fabric: holds, ports, errors that strike, cullet and time agreement (01_fjarbin_at_a_glance.md R12 and the rules it is with). -/

namespace Sys2Proof.Proofs
open Sys2Proof Sys2Proof.Machine Sys2Proof.Laws

/-! Holds (R500). -/

theorem exec_holdSend_due {s : State} {ctx : Nat} {c : Context} (hc : getC s ctx = some c) (aside : setAside s ctx = true)
    (due : c.held = 0 ∨ c.held + 10000000 ≤ s.time) :
    exec (.holdSend ctx) s = .next (putC { s with outs := s.outs ++ holdMsgs s ctx } { c with held := s.time }) := by
  have hnot : ¬ (!setAside s ctx ∨ (c.held ≠ 0 ∧ s.time < c.held + 10000000)) := by
    rw [aside]
    simp only [Bool.not_true, Bool.false_eq_true, false_or]
    omega
  rw [exec_holdSend, execHoldSend, hc]
  dsimp only
  rw [if_neg hnot]

theorem hold_of_team {s : State} {ctx k va n : Nat} {m : Team} {l : Coll} (hm : m ∈ s.teams) (hctx : m.ctx = ctx)
    (unfired : m.chunk.fired = false) (alive : m.chunk.dead = false) (hk : chunkOf s m = some (l, k, va, n)) (many : l.members ≠ 1)
    (hasData : l.total ≠ 0) :
    Out.red { tree := l.tree, chunk := k, kind := 2, op := l.op, rank := l.rank, round := m.chunk.round } ∈ holdMsgs s ctx :=
  List.mem_append_left _ (List.mem_filterMap.2 ⟨m, hm, by simp [hctx, unfired, alive, hk, many, hasData]⟩)

theorem hold_of_grid {s : State} {ctx k : Nat} {g : Grid} {l : Coll} (hg : g ∈ s.grids) (hctx : g.ctx = ctx) (hl : g.coll = some l)
    (many : l.members ≠ 1) (hasData : l.total ≠ 0) (lo : g.next * gridPer g ≤ k) (hi : k < (lrecOf g.lrec).clusters * gridPer g) :
    Out.red { tree := l.tree, chunk := k, kind := 2, op := l.op, rank := l.rank, round := fget 0 k g.rounds } ∈ holdMsgs s ctx := by
  refine List.mem_append_right _ (List.mem_flatMap.2 ⟨g, hg, ?_⟩)
  have unplaced : k - g.next * gridPer g < fld (le g.lrec 16 8) 0 32 * gridPer g - g.next * gridPer g := Nat.sub_lt_sub_right lo hi
  simp only [hl, hctx, bne_iff_ne, ne_eq, many, hasData, not_false_eq_true, and_self, if_true, Bool.and_eq_true]
  exact List.mem_map.2 ⟨k - g.next * gridPer g, List.mem_range.2 unplaced, by rw [Nat.add_sub_cancel' lo]⟩

theorem holdSend_holds {s : State} {ctx : Nat} {c : Context} (hc : getC s ctx = some c) (aside : setAside s ctx = true)
    (due : c.held = 0 ∨ c.held + 10000000 ≤ s.time) :
    ∃ t, exec (.holdSend ctx) s = .next t ∧ t.teams = s.teams ∧ t.mem = s.mem ∧ getC t ctx = some { c with held := s.time } ∧
      (∀ m ∈ s.teams, m.ctx = ctx → m.chunk.fired = false → m.chunk.dead = false → ∀ l k va n, chunkOf s m = some (l, k, va, n) →
        l.members ≠ 1 → l.total ≠ 0 →
        Out.red { tree := l.tree, chunk := k, kind := 2, op := l.op, rank := l.rank, round := m.chunk.round } ∈ t.outs) ∧
      (∀ g ∈ s.grids, g.ctx = ctx → ∀ l k, g.coll = some l → l.members ≠ 1 → l.total ≠ 0 → g.next * gridPer g ≤ k →
        k < (lrecOf g.lrec).clusters * gridPer g →
        Out.red { tree := l.tree, chunk := k, kind := 2, op := l.op, rank := l.rank, round := fget 0 k g.rounds } ∈ t.outs) := by
  have hold : ∀ o ∈ holdMsgs s ctx, o ∈ s.outs ++ holdMsgs s ctx := fun o => List.mem_append_right _
  refine ⟨_, exec_holdSend_due hc aside due, rfl, rfl, ?found, ?teams, ?grids⟩
  case found =>
    obtain rfl := getC_ctx hc
    exact getC_putC_same (c := { c with held := s.time }) hc
  case teams => exact fun m hm hctx unfired alive l k va n hk many hasData => hold _ (hold_of_team hm hctx unfired alive hk many hasData)
  case grids => exact fun g hg hctx l k hl many hasData lo hi => hold _ (hold_of_grid hg hctx hl many hasData lo hi)

/-! Ports (R498). -/

theorem pickPort_ready {s : State} (h : ∃ p < 8, statusOf s p = 2) : ∃ p, pickPort s = some p ∧ p < 8 ∧ statusOf s p = 2 := by
  have ready (p : Nat) : p ∈ readyPorts s ↔ p < 8 ∧ statusOf s p = 2 := by simp [readyPorts, statusOf]
  obtain ⟨q, hq⟩ := h
  have nonempty : readyPorts s ≠ [] := List.ne_nil_of_mem ((ready q).2 hq)
  have index : (openValue s).toNat % (readyPorts s).length < (readyPorts s).length := Nat.mod_lt _ (List.length_pos_iff.2 nonempty)
  refine ⟨(readyPorts s)[(openValue s).toNat % (readyPorts s).length], ?_, (ready _).1 (List.getElem_mem index)⟩
  unfold pickPort
  split
  · next none_ => exact absurd none_ nonempty
  · rw [List.getD_eq_getElem?_getD, List.getElem?_eq_getElem index, Option.getD_some]

theorem moveTraffic_send {s : State} {port : Nat} {f : Flight} {x : Xfer} (hf : f ∈ s.pend) (hop : f.op = .send x) (hx : x.port = some port)
    (up : ∃ p < 8, statusOf s p = 2) :
    ∃ g ∈ (moveTraffic s port).pend, ∃ p, g = { f with op := .send { x with port := some p } } ∧ p < 8 ∧ statusOf s p = 2 := by
  obtain ⟨p, pick, ready⟩ := pickPort_ready up
  refine ⟨{ f with op := .send { x with port := some p } }, List.mem_map.2 ⟨f, hf, ?_⟩, p, rfl, ready⟩
  simp [hop, hx, pick]

/-- A ready port comes to read failed, and its transfers move to another that is ready. -/
theorem failPort_status {s : State} {port : Nat} (h : statusOf s port = 2) :
    StatusChanged s (moveTraffic (setStatus s port 3) port) port 3 :=
  have failed : StatusChanged s (setStatus s port 3) port 3 := statusChanged_setStatus (by omega) (by omega) (by decide)
  statusChanged_congr failed rfl rfl rfl rfl rfl

theorem failPort_corr (s : State) (port : Nat) : (moveTraffic (setStatus s port 3) port).corr = s.corr := setStatus_corr s port 3

theorem failPort_moves {s : State} {port : Nat} (h : statusOf s port = 2) {f : Flight} {x : Xfer} (hf : f ∈ s.pend) (hop : f.op = .send x)
    (hx : x.port = some port) (up : ∃ p < 8, p ≠ port ∧ statusOf s p = 2) :
    ∃ g ∈ (moveTraffic (setStatus s port 3) port).pend, ∃ p, g = { f with op := .send { x with port := some p } } ∧ p < 8 ∧ p ≠ port ∧
      statusOf s p = 2 := by
  obtain ⟨failed, others, -, -⟩ := failPort_status h
  obtain ⟨q, hq, hne, hready⟩ := up
  obtain ⟨g, hg, p, moved, hp, hpr⟩ := moveTraffic_send ((setStatus_pend s port 3).subset hf) hop hx ⟨q, hq, (others q hne).trans hready⟩
  have differs : p ≠ port := by
    rintro rfl
    have : statusOf (setStatus s p 3) p = 3 := failed
    omega
  exact ⟨g, hg, p, moved, hp, differs, (others p differs).symm.trans hpr⟩

theorem portLinkDrop_ready {s : State} {port : Nat} (hp : port < 8) (h : statusOf s port = 2) :
    exec (.portLinkDrop port) s = .next (moveTraffic (setStatus s port 3) port) := by
  rw [exec_portLinkDrop, execPortLinkDrop, if_pos ⟨hp, h⟩]

/-- A port on which frames were retried without success fails, with the retries counted. -/
theorem portRetryTimeout_ready {s : State} {port : Nat} (hp : port < 8) (h : statusOf s port = 2) :
    ∃ t, exec (.portRetryTimeout port) s = .next t ∧ StatusChanged s t port 3 ∧ fget 0 11 t.corr = fget 0 11 s.corr + 1 := by
  have failed : StatusChanged { s with corr := fput 0 11 (fget 0 11 s.corr + 1) s.corr } _ port 3 := failPort_status h
  refine ⟨_, by rw [exec_portRetryTimeout, execPortRetryTimeout, if_pos ⟨hp, h⟩], statusChanged_congr failed rfl rfl rfl rfl rfl, ?_⟩
  exact (congrArg (fget 0 11) (failPort_corr _ port)).trans (fget_fput_same 0 11 (fget 0 11 s.corr + 1) s.corr)

theorem portRetrain_failed {s : State} {port : Nat} (hp : port < 8) (h : statusOf s port = 3) :
    ∃ t, exec (.portRetrain port) s = .next t ∧ StatusChanged s t port 2 :=
  ⟨_, by rw [exec_portRetrain, execPortRetrain, if_pos ⟨hp, h⟩],
    statusChanged_setStatus (by omega) (by omega) (by decide)⟩

/-! Errors that strike (R456 to R458). -/

/-- The 8 bytes at an address lie in their granule. -/
theorem granule_covers (pa code : Nat) : ∃ i < (granule (pa / 8) code).2 / 8, (granule (pa / 8) code).1 / 8 + i = pa / 8 := by
  unfold granule
  split
  · exact ⟨pa / 8 % 8, by omega, by omega⟩
  · exact ⟨0, by omega, by omega⟩

/-- Marks of one code at several keys: each key of the list reads as the code. -/
theorem fget_foldl_fput {β : Type} [DecidableEq β] (d v : β) (f : Nat → Nat) {l : List Nat} {i : Nat} (hi : i ∈ l) (m : FMap β) :
    fget d (f i) (l.foldl (fun m i => fput d (f i) v m) m) = v := by
  induction l using List.reverseRecOn with
  | nil => cases hi
  | append_singleton l j ih =>
    rw [List.foldl_append, List.foldl_cons, List.foldl_nil, fget_fput]
    split
    · rfl
    · next other =>
      rcases List.mem_append.1 hi with early | last
      · exact ih early
      · obtain rfl := List.mem_singleton.1 last
        exact absurd rfl other

theorem badAt_markBad (s : State) (pa : Nat) {code : Nat} (h : code ≠ 0) : badAt (markBad s pa code) [pa] = some (pa, code) := by
  have marked : fget 0 (pa / 8) (markBad s pa code).badMem = code := by
    obtain ⟨i, hi, covers⟩ := granule_covers pa code
    rw [← covers]
    exact fget_foldl_fput 0 code (fun i => (granule (pa / 8) code).1 / 8 + i) (List.mem_range.2 hi) s.badMem
  have nonempty : (markBad s pa code).badMem.isEmpty = false := by
    cases hm : (markBad s pa code).badMem with
    | nil => exact absurd (by simpa [hm] using marked.symm) h
    | cons _ _ => rfl
  unfold badAt
  rw [nonempty]
  obtain ⟨k, rfl⟩ := Nat.exists_eq_succ_of_ne_zero h
  simp [marked]

theorem strike_memory (s : State) (pa k : Nat) (h : k = 5 ∨ k = 7 ∨ k = 9 ∨ k = 11) :
    badAt (strike s (.memory pa k)) [pa] = some (pa, k) ∧ (strike s (.memory pa k)).mem = s.mem := by
  have struck : strike s (.memory pa k) = logEvent (markBad s pa k) 3 k := if_pos h
  rw [struck]
  exact ⟨badAt_markBad s pa (by omega), rfl⟩

theorem correct_corr (s : State) (k : Nat) (u : Option CulletUnit) : (correct s k u).corr = fput 0 k (fget 0 k s.corr + 1) s.corr := by
  unfold correct
  dsimp only
  split
  · rfl
  · split <;> rfl

theorem correct_l1 (s : State) (k : Nat) (u : Option CulletUnit) : (correct s k u).l1 = s.l1 := by
  unfold correct
  dsimp only
  split
  · rfl
  · split <;> rfl

theorem correct_unitEvents (s : State) (k : Nat) (u : CulletUnit) : (correct s k (some u)).unitEvents = s.unitEvents ++ [(u, s.time)] := by
  unfold correct
  dsimp only
  split <;> rfl

theorem strike_fixed_corr (s : State) {k : Nat} (u : Option CulletUnit) (hk : k < 12) (h3 : k ≠ 3) (h4 : k ≠ 4) :
    fget 0 k (strike s (.fixed k u)).corr = fget 0 k s.corr + 1 := by
  have struck : strike s (.fixed k u) = correct s k u := if_pos ⟨hk, h3, h4⟩
  rw [struck, correct_corr, fget_fput_same]

theorem strike_l1Line (s : State) (core line : Nat) : fget 0 3 (strike s (.l1Line core line)).corr = fget 0 3 s.corr + 1 ∧
    (∀ x ∈ (strike s (.l1Line core line)).l1, ¬ (x.core = core ∧ x.line = line)) ∧
    (core < 96 → (CulletUnit.core (core / 24) (siteOf s core), s.time) ∈ (strike s (.l1Line core line)).unitEvents) := by
  have struck : strike s (.l1Line core line) = correct (l1Drop s core line) 3 (coreUnit s core) := rfl
  rw [struck]
  refine ⟨?_, fun x hx => ?_, fun hcore => ?_⟩
  · rw [correct_corr, fget_fput_same]
    rfl
  · rw [correct_l1] at hx
    have kept := (List.mem_filter.1 hx).2
    rintro ⟨rfl, rfl⟩
    simp at kept
  · have unit : coreUnit s core = some (.core (core / 24) (siteOf s core)) := if_pos hcore
    rw [unit, correct_unitEvents]
    exact List.mem_append_right _ (List.mem_singleton.2 rfl)

/-! Core sites (R12, R460, R461). -/

theorem siteOf_sites_fput_same (s : State) (c p : Nat) : siteOf { s with sites := fput 0 c (p + 1) s.sites } c = p := by
  simp [siteOf]

theorem siteOf_sites_fput_other (s : State) {c k : Nat} (p : Nat) (h : k ≠ c) :
    siteOf { s with sites := fput 0 c (p + 1) s.sites } k = siteOf s k := by
  simp [siteOf, fget_fput_other _ h]

/-- A core that is due moves to a free site of its die, or fails where there is none. -/
theorem culletSwap_core {s s1 : State} {die site c : Nat} (hdie : die < 4) (hsite : site < 28) (due : culletDue s (.core die site) = true)
    (idle : unitBusy s (.core die site) = false)
    (hs1 : s1 = { swapped s (.core die site) with failedSites := s.failedSites ++ [(die, site)] }) (hc : coreAt s die site = some c) :
    (∀ p, freeSite s1 die = some p → ∃ t, exec (.culletSwap (.core die site)) s = .next t ∧ t = { s1 with sites := fput 0 c (p + 1) s1.sites } ∧
      siteOf t c = p ∧ (∀ k, k ≠ c → siteOf t k = siteOf s k)) ∧
    (freeSite s1 die = none → exec (.culletSwap (.core die site)) s = .next (setStatus s1 (32 + c) 3)) := by
  have ok : unitOk (.core die site) = true := by simp [unitOk, hdie, hsite]
  subst hs1
  rw [exec_culletSwap, execCulletSwap]
  simp only [ok, due, idle, Bool.not_true, Bool.or_self, Bool.false_eq_true, if_false, hc]
  refine ⟨fun p free => ⟨_, by simp only [free], rfl, siteOf_sites_fput_same _ c p, fun k hk => ?_⟩, fun full => by simp only [full]⟩
  exact siteOf_sites_fput_other (swapped s (.core die site)) p hk

/-! Time agreement (R478). -/

theorem mem_userCtxs {s : State} {ctx : Nat} {c : Context} (h : getC s ctx = some c) (user : ctx ≠ 0) : ctx ∈ userCtxs s := by
  refine List.mem_filter.2 ⟨List.mem_map.2 ⟨c, List.mem_of_find?_eq_some h, getC_ctx h⟩, ?_⟩
  simpa using user

theorem timeSyncLoss_ready {s : State} {die : Nat} (hdie : die < 4) (h : statusOf s (28 + die) = 2) :
    ∃ t, exec (.timeSyncLoss die) s = .next t ∧ StatusChanged s t (28 + die) 3 ∧ t.outs = s.outs ++ [.fatal] ∧
      ∀ ctx c, ctx ≠ 0 → getC s ctx = some c → c.run = .running → ∃ c', getC t ctx = some c' ∧ c'.run = .stopping 0x100 := by
  have failed : StatusChanged s (setStatus s (28 + die) 3) (28 + die) 3 :=
    statusChanged_setStatus (by omega) (by omega) (by decide)
  have sameCtxs : (logEvent (setStatus s (28 + die) 3) 3 (28 + die)).ctxs = s.ctxs := setStatus_ctxs s (28 + die) 3
  have stopped (ctx : Nat) (c : Context) (user : ctx ≠ 0) (hc : getC s ctx = some c) (hr : c.run = .running) :=
    stopCtxs_stops (s := logEvent (setStatus s (28 + die) 3) 3 (28 + die)) (mem_userCtxs hc user)
      (by rw [getC, sameCtxs]; exact hc) hr 0x100
  refine ⟨_, by rw [exec_timeSyncLoss, execTimeSyncLoss, if_pos ⟨hdie, h⟩], ?_⟩
  dsimp only
  obtain ⟨cs, only⟩ := stopCtxs_eq (userCtxs s) (logEvent (setStatus s (28 + die) 3) 3 (28 + die)) 0x100
  rw [only] at stopped ⊢
  exact ⟨statusChanged_congr failed rfl rfl rfl rfl rfl, congrArg (· ++ [Out.fatal]) (setStatus_outs s (28 + die) 3), stopped⟩

/-- Settles O55: each event of the fabric, by what it does to the entry, the transfers, the counters, the sites and the contexts. -/
theorem fabricEvents : Obligations.FabricEvents := by
  refine ⟨fun s ctx c => holdSend_holds, fun s b bad => ?drop,
    fun s port hp => ⟨fun up => ?packet, fun up => ?link, fun up => ?retry, fun failed => ?retrain⟩, strike_memory,
    fun s k u => strike_fixed_corr s u, strike_l1Line, fun s s1 die site c => culletSwap_core, fun s die => timeSyncLoss_ready⟩
  case drop => rw [exec_reductionMessageDrop, execReductionMessageDrop, if_pos bad]
  case packet => rw [exec_unsupportedPacketDrop, execUnsupportedPacketDrop, if_pos ⟨hp, up⟩]
  case link =>
    exact ⟨_, portLinkDrop_ready hp up, failPort_status up, fun f hf x hop hx other => failPort_moves up hf hop hx other⟩
  case retry => exact portRetryTimeout_ready hp up
  case retrain => exact portRetrain_failed hp failed

end Sys2Proof.Proofs
end

section
/-! PROOF. Bring-up, power, firmware, keys and sensors (01_fjarbin_at_a_glance.md R25 and the rules it is with). -/

namespace Sys2Proof.Proofs
open Sys2Proof Sys2Proof.Machine Sys2Proof.Laws

/-! Power (R434, R437, R442). -/

/-- Logging the changes of entries changes the log alone. -/
theorem logStates_eq (s : State) (v : Nat) : ∃ lg, logStates s v = { s with log := lg } := by
  unfold logStates
  generalize List.range 130 = entries
  refine List.foldlRecOn entries _ (motive := fun t => ∃ lg, t = { s with log := lg }) ?start ?step
  case start => exact ⟨s.log, rfl⟩
  case step =>
    rintro _ ⟨lg, rfl⟩ e -
    split
    · exact ⟨lg, rfl⟩
    · exact ⟨_, rfl⟩

theorem statusOf_of_status_replicate {t : State} {n v : Nat} (h : t.status = List.replicate n (v, 0)) (e : Nat) :
    statusOf t e = if e < n then v else 0 := by
  rw [statusOf, h, List.getD_eq_getElem?_getD, List.getElem?_replicate]
  split <;> rfl

/-- Without power every entry reads off. -/
theorem statusOf_of_status_reset {t : State} (h : t.status = State.reset.status) (e : Nat) : statusOf t e = 0 :=
  (statusOf_of_status_replicate h e).trans (ite_self 0)

theorem flatten_replicate_drop_take {α : Type} (b : List α) {n e k : Nat} (he : e < n) (hk : k ≤ b.length) :
    (((List.replicate n b).flatten).drop (b.length * e)).take k = b.take k := by
  obtain ⟨m, rfl⟩ := Nat.exists_eq_add_of_lt he
  rw [Nat.add_assoc, List.replicate_add, List.flatten_append, List.drop_left' (by simp [Nat.mul_comm]), List.replicate_succ, List.flatten_cons,
    List.take_append_of_le_length hk]

theorem rdByte_performWrite_at_ (s : State) (gid off : Nat) {l : List Byte} {i : Nat} (hi : i < l.length) :
    rdByte (performWrite s gid (at_ off l)) (off + i) = l[i] :=
  fget_fputs_at_ (fun _ => Iff.rfl) s.mem hi

/-- The entries of the status block as the service writes them at bring-up: each initialising, at time 0. -/
def firstEntries : List Byte := (List.replicate 130 (toBytes 8 1 ++ toBytes 8 0)).flatten

theorem firstEntries_read {t : State} {off : Nat} (h : ∀ i (hi : i < firstEntries.length), rdByte t (off + i) = firstEntries[i]) {e : Nat}
    (he : e < 130) : ofBytes (rdBytes t (off + 16 * e) 8) = 1 := by
  have len : firstEntries.length = 130 * 16 := by
    rw [firstEntries, List.length_flatten, List.map_replicate, List.sum_replicate, List.length_append, length_toBytes, length_toBytes, smul_eq_mul]
  rw [rdBytes_of_row h (by omega)]
  have entry := flatten_replicate_drop_take (toBytes 8 1 ++ toBytes 8 0) he (k := 8) (by simp)
  rw [List.length_append, length_toBytes, length_toBytes, List.take_left' (length_toBytes 8 1)] at entry
  exact (congrArg ofBytes entry).trans (ofBytes_toBytes 8 1)

theorem powerDown_log (s : State) : (powerDown s).log = (logStates s 0).log := by rw [powerDown]

theorem powerDown_status (s : State) : (powerDown s).status = State.reset.status := by rw [powerDown]

theorem powerDown_firmware (s : State) : (powerDown s).firmware = { s.firmware with running := [], staged := none } := by rw [powerDown]

theorem powerDown_torn (s : State) : (powerDown s).firmware.torn = s.firmware.torn := by rw [powerDown_firmware]

/-- Does the ROM loader verify the image of a firmware (R439)? -/
def imageVerifies (fw : Firmware) : Bool := Config.sm2Verify Config.terbexKey (Config.sm3 fw.stored) fw.sig

theorem imageVerifies_powerDown (s : State) : imageVerifies (powerDown s).firmware = imageVerifies s.firmware := by
  rw [powerDown_firmware, imageVerifies, imageVerifies]

/-- The state that the service starts in: powered, each function initialising, with the verified image running. -/
def broughtUp (s : State) (fw : Firmware) (place : Nat) : State :=
  logEvent { logStates (powerDown s) 1 with power := .active, status := List.replicate 130 (1, 0), stBlk := place, atBase := place + 2 ^ 20,
                                            firmware := { fw with running := fw.stored, torn := false } } 0 1

/-- What bring-up comes to with an image that is not torn. -/
theorem exec_powerGood_whole {s : State} (b : List Byte) (off : s.power = .off) (whole : s.firmware.torn = false) :
    exec (.powerGood b) s = .next (
      if imageVerifies (powerDown s).firmware then
        performWrite (broughtUp s (powerDown s).firmware (Config.servicePlace % 68664 * 2 ^ 24)) 0
          (at_ (Config.servicePlace % 68664 * 2 ^ 24) firstEntries)
      else { powerDown s with power := .active }) := by
  have intact : ¬ (powerDown s).firmware.torn = true := by rw [powerDown_torn, whole]; exact Bool.false_ne_true
  rw [exec_powerGood, execPowerGood, if_neg (not_not.2 off)]
  extract_lets s0 _ _ fw good place _ s1
  have kept : fw = s0.firmware := if_neg intact
  have verdict : good = imageVerifies fw := rfl
  have start : s1 = broughtUp s fw place := rfl
  rw [verdict, start, kept]
  rfl

theorem exec_powerGood_verified {s : State} (b : List Byte) (off : s.power = .off) (whole : s.firmware.torn = false)
    (good : imageVerifies s.firmware = true) :
    ∃ place, exec (.powerGood b) s = .next (performWrite (broughtUp s (powerDown s).firmware place) 0 (at_ place firstEntries)) :=
  ⟨_, by rw [exec_powerGood_whole b off whole, if_pos ((imageVerifies_powerDown s).trans good)]⟩

theorem exec_powerGood_refused {s : State} (b : List Byte) (off : s.power = .off) (whole : s.firmware.torn = false)
    (bad : imageVerifies s.firmware = false) : exec (.powerGood b) s = .next { powerDown s with power := .active } := by
  rw [exec_powerGood_whole b off whole, if_neg (ne_true_of_eq_false ((imageVerifies_powerDown s).trans bad))]

theorem powerGood_holds {s : State} (b : List Byte) (off : s.power = .off) (whole : s.firmware.torn = false) :
    ∃ t, exec (.powerGood b) s = .next t ∧ t.power = .active ∧
    t.groups = [] ∧ t.ctxs = [] ∧ t.firmware.stored = s.firmware.stored ∧ t.operatorKey = s.operatorKey ∧
    (Config.sm2Verify Config.terbexKey (Config.sm3 s.firmware.stored) s.firmware.sig = true →
      t.firmware.running = s.firmware.stored ∧ ∀ e < 130, statusOf t e = 1 ∧ ofBytes (rdBytes t (t.stBlk + 16 * e) 8) = 1) ∧
    (Config.sm2Verify Config.terbexKey (Config.sm3 s.firmware.stored) s.firmware.sig = false → t.mem = [] ∧ ∀ e, statusOf t e = 0) := by
  cases verdict : Config.sm2Verify Config.terbexKey (Config.sm3 s.firmware.stored) s.firmware.sig with
  | true =>
    obtain ⟨place, run⟩ := exec_powerGood_verified b off whole verdict
    obtain ⟨lg, logged⟩ := logStates_eq (powerDown s) 1
    rw [broughtUp, logged] at run
    refine ⟨_, run, rfl, rfl, rfl, rfl, rfl, fun _ => ⟨rfl, fun e he =>
      ⟨(statusOf_of_status_replicate rfl e).trans (if_pos he), ?_⟩⟩, fun h => absurd h (by decide)⟩
    exact firstEntries_read (fun i hi => rdByte_performWrite_at_ _ 0 place hi) he
  | false =>
    exact ⟨_, exec_powerGood_refused b off whole verdict, rfl, rfl, rfl, rfl, rfl, fun h => absurd h (by decide),
      fun _ => ⟨rfl, statusOf_of_status_reset (powerDown_status s)⟩⟩

/-! Functions that become ready (R428, R435). -/

theorem enumerate_eq (s : State) (port : Nat) : ∃ caps, enumerate s port = { s with cxlCaps := caps } := by
  unfold enumerate
  dsimp only
  split <;> exact ⟨_, rfl⟩

/-- Each of the service's groups joins the groups and its team the teams; contexts and entries stay. -/
theorem serviceGroups_frame (l : List Nat) (s : State) : (l.foldl serviceGroup s).groups.length = s.groups.length + l.length ∧
    (l.foldl serviceGroup s).ctxs = s.ctxs ∧ (l.foldl serviceGroup s).status = s.status := by
  induction l generalizing s with
  | nil => exact ⟨rfl, rfl, rfl⟩
  | cons k l ih =>
    obtain ⟨groups, ctxs, status⟩ := ih (serviceGroup s k)
    refine ⟨?_, ctxs, status⟩
    rw [List.foldl_cons, groups]
    simp only [serviceGroup, List.length_append, List.length_cons, List.length_nil]
    omega

theorem startService_frame (s : State) : (startService s).groups.length = s.groups.length + 8 ∧ (∃ c ∈ (startService s).ctxs, c.ctx = 0) ∧
    (startService s).status = s.status := by
  unfold startService
  extract_lets s1
  obtain ⟨groups, ctxs, status⟩ := serviceGroups_frame (List.range 8) (writeTables s1)
  have tables : MemoryWork s1 (writeTables s1) := MemoryWork.performWrite _ _ _
  refine ⟨?_, ?_, status.trans tables.status⟩
  · rw [groups, tables.groups, List.length_range]
  · rw [ctxs, tables.ctxs]
    exact ⟨_, List.mem_append_right _ (List.mem_singleton.2 rfl), rfl⟩

theorem functionReady_holds {s : State} {e : Nat} (initialising : statusOf s e = 1) :
    ∃ t, exec (.functionReady e) s = .next t ∧ statusOf t e = 2 ∧
    (∀ k, k ≠ e → statusOf t k = statusOf s k) ∧ (e = 129 → (∃ c ∈ t.ctxs, c.ctx = 0) ∧ t.groups.length = s.groups.length + 8) ∧
    (e ≠ 129 → t.ctxs = s.ctxs ∧ StatusChanged s t e 2) := by
  have ready : StatusChanged s (setStatus s e 2) e 2 := statusChanged_setStatus (by omega) (by omega) (by decide)
  have ⟨value, others, _, _⟩ := ready
  rw [exec_functionReady, execFunctionReady, if_neg (not_not.2 initialising)]
  refine ⟨_, rfl, ?_⟩
  dsimp only
  split_ifs with cxl service
  · obtain ⟨caps, only⟩ := enumerate_eq (setStatus s e 2) (e - 8)
    rw [only]
    exact ⟨value, others, fun h => by omega, fun _ => ⟨setStatus_ctxs s e 2, statusChanged_congr ready rfl rfl rfl rfl rfl⟩⟩
  · obtain ⟨groups, ctx0, status⟩ := startService_frame (setStatus s e 2)
    refine ⟨(statusOf_congr status e).trans value, fun k hk => (statusOf_congr status k).trans (others k hk), fun _ => ⟨ctx0, ?_⟩,
      fun h => absurd service h⟩
    rw [groups, setStatus_groups_length]
  · exact ⟨value, others, fun h => absurd h service, fun _ => ⟨setStatus_ctxs s e 2, ready⟩⟩

/-! Firmware and the operator's key (R432, R437, R439). -/

theorem firmwareStage_holds {s : State} (image : List Byte) (sig : Nat) (chan : Option (Nat × Nat)) (on : s.power ≠ .off) :
    (channelOk s chan (1#8 :: (image ++ toBytes 64 sig)) = false → exec (.firmwareStage image ⟨sig, chan⟩) s = .next (mgmtAnswer s chan 2)) ∧
    (channelOk s chan (1#8 :: (image ++ toBytes 64 sig)) = true →
      (s.firmware.staged ≠ none → exec (.firmwareStage image ⟨sig, chan⟩) s = .next (mgmtAnswer s chan 4)) ∧
      (s.firmware.staged = none → ∃ t, exec (.firmwareStage image ⟨sig, chan⟩) s = .next t ∧ t.mem = s.mem ∧
        t.firmware.stored = s.firmware.stored ∧ (t.firmware.staged = some (image, sig) ↔
          Config.sm2Verify Config.terbexKey (Config.sm3 image) sig = true))) := by
  rw [exec_firmwareStage, execFirmwareStage, if_neg on]
  refine ⟨fun closed => ?_, fun taken => ⟨fun second => ?_, fun first => ?_⟩⟩
  · simp only [closed, Bool.not_false, if_true]
  · simp only [taken, Bool.not_true, Bool.false_eq_true, if_false, Option.isSome_iff_ne_none.2 second, if_true]
  · simp only [taken, Bool.not_true, Bool.false_eq_true, if_false, first, Option.isSome_none]
    refine ⟨_, rfl, ?_⟩
    cases verdict : Config.sm2Verify Config.terbexKey (Config.sm3 image) sig with
    | true => exact ⟨rfl, rfl, fun _ => rfl, fun _ => rfl⟩
    | false => exact ⟨rfl, rfl, fun h => absurd (first.symm.trans h) (by simp), fun h => absurd h (by decide)⟩

/-- A staged image is committed; where power fails meanwhile the module goes down with a torn one. -/
theorem exec_firmwareCommit_staged {s : State} {image : List Byte} {sig : Nat} {chan : Option (Nat × Nat)}
    (staged : s.firmware.staged = some (image, sig)) (taken : channelOk s chan [2#8] = true) (failed : Bool) :
    exec (.firmwareCommit ⟨failed, chan⟩) s = .next
      (if failed then powerDown (logEvent { s with firmware := { s.firmware with stored := image, sig := sig, torn := failed, staged := none } } 2 2)
        else mgmtAnswer (logEvent { s with firmware := { s.firmware with stored := image, sig := sig, torn := failed, staged := none } } 2 2) chan 0) := by
  rw [exec_firmwareCommit, execFirmwareCommit]
  simp only [taken, Bool.not_true, Bool.false_eq_true, if_false, staged]

/-! Sensors (R25, R436). -/

/-- `t` is `s` but for clock steps, wave splits and their log. -/
def ThrottledOnly (s t : State) : Prop := ∃ th fc lg, t = { s with throttle := th, freeCount := fc, log := lg }

theorem sensorSample_due {s : State} (l : List Nat) (on : s.power ≠ .off) (due : s.sampled + 100000 ≤ s.time) :
    ∃ t, exec (.sensorSample l) s = .next t ∧ ThrottledOnly { s with sensors := l.take 76, sampled := s.time } t := by
  have taken : ¬ (s.power = .off ∨ s.time < s.sampled + 100000) := by simp [on, due]
  rw [exec_sensorSample, execSensorSample, if_neg taken]
  refine ⟨_, rfl, List.foldlRecOn (List.range 20) _ ⟨_, _, _, rfl⟩ ?_⟩
  rintro _ ⟨th, fc, lg, rfl⟩ d -
  dsimp only
  split_ifs <;> exact ⟨_, _, _, rfl⟩

/-- Settles O57: each event of bring-up, power, firmware, keys and sensors, by its cases. -/
theorem powerAndFirmwareEvents : Obligations.PowerAndFirmwareEvents := by
  refine ⟨fun s b => powerGood_holds b, fun s e => functionReady_holds, fun s => ?powerOff,
    fun s image sig chan => firmwareStage_holds image sig chan,
    fun s image sig chan staged taken => ?commit, fun s key sig => ⟨fun first => ?install, fun k v present => ?replace⟩,
    fun s l on due => ?sample⟩
  case powerOff =>
    exact ⟨_, exec_powerOff s, rfl, rfl, rfl, rfl, powerDown_log s, rfl, rfl, rfl, statusOf_of_status_reset (powerDown_status s)⟩
  case commit =>
    have run := exec_firmwareCommit_staged staged taken
    exact ⟨_, _, run false, rfl, rfl, rfl, rfl, rfl, rfl, run true, rfl, rfl⟩
  case install => simp only [exec_operatorKeyWrite, execOperatorKeyWrite, first, if_true, Bool.false_eq_true, if_false, and_self]
  case replace => simp only [exec_operatorKeyWrite, execOperatorKeyWrite, present]
  case sample =>
    obtain ⟨_, run, _, _, _, rfl⟩ := sensorSample_due l on due
    exact ⟨_, run, rfl, rfl, rfl, rfl, rfl, rfl⟩

end Sys2Proof.Proofs
end

section
/-! PROOF. Scalar words: what they leave alone (02_execution_model.md R33). -/

namespace Sys2Proof.Proofs
open Sys2Proof Sys2Proof.Machine Sys2Proof.Laws

/-- Of two replacements of one element the later stands. -/
theorem replaceFirst_replaceFirst {α : Type} {p : α → Bool} {y : α} (hy : p y = true) (z : α) (l : List α) :
    replaceFirst p (fun _ => z) (replaceFirst p (fun _ => y) l) = replaceFirst p (fun _ => z) l := by
  induction l with
  | nil => rfl
  | cons a l ih =>
    by_cases ha : p a
    · simp [replaceFirst, ha, hy]
    · simp [replaceFirst, ha, ih]

/-- Of two updates of one group the later stands. -/
theorem putG_putG (s : State) {g h : Group} (e : h.gid = g.gid) : putG (putG s g) h = putG s h := by
  have groups : (putG (putG s g) h).groups = (putG s h).groups := by
    simp only [putG, e]
    exact replaceFirst_replaceFirst (y := g) (beq_self_eq_true g.gid) h s.groups
  exact congrArg (fun l => { s with groups := l }) groups

@[simp] theorem slotAfter_mask (sl : Slot) (p : Option Park) (t : Nat) : (slotAfter sl p t).mask = sl.mask := by
  unfold slotAfter
  split <;> rfl

@[simp] theorem slotAfter_depth (sl : Slot) (p : Option Park) (t : Nat) : (slotAfter sl p t).depth = sl.depth := by
  unfold slotAfter
  split <;> rfl

/-- A performed word that changed its own group alone has changed, beside that, its slot's place, its replay, and which slots the
partitions are issuing. -/
theorem performed_putG {s : State} {x : Issue} {g : Group} (hx : getG s x.g.gid = some x.g) (hg : g.gid = x.g.gid) :
    ∃ sl ps, performed x (putG s g) = withParts (putG s (setSlot (setReplay g x.b none) x.b sl)) ps ∧
      sl.mask = (slotOf g x.b).mask ∧ sl.depth = (slotOf g x.b).depth := by
  have found : getG (putG s g) x.g.gid = some g := hg ▸ getG_putG_same (hg ▸ hx)
  obtain ⟨g', park, since, ps, hg', -, moved⟩ := advance_moved (b := x.b) (sw := x.w.getLsbD 55) found
  obtain rfl : g = g' := Option.some.inj (found.symm.trans hg')
  refine ⟨slotAfter (slotOf g x.b) park since, ps, ?_, slotAfter_mask _ _ _, slotAfter_depth _ _ _⟩
  rw [performed, moved, putG_putG s (by simp)]

/-- `s.sr` is a scalar word whose function reads the state (R242). -/
theorem execSSr_eq (w : SWord) (s : State) : execSSr w s = scalarWord (.sSr w) w s fun x _ _ => specialReg s x (imm20 w) := rfl

/-- The scalar words of one form of operands (R236). -/
def scalarWords (w : SWord) : List Instr :=
  [.sAdd w, .sSub w, .sMul w, .sMulh w, .sDiv w, .sRem w, .sAnd w, .sOr w, .sXor w, .sAndn w, .sShl w, .sShr w, .sSar w, .sMin w, .sMax w,
   .sClz w, .sPopc w, .sBfx w, .sBfi w, .sSxt w, .sZxt w, .sCmp w, .sSel w, .sMov w, .sLi w, .sLih w, .sLea w, .sSr w]

/-- A scalar word runs once for its slot, whatever its mask select, as one function of its sources (R33, R236). -/
theorem exec_eq_scalarWord {w : SWord} {i : Instr} (hi : i ∈ scalarWords w) (s : State) :
    mselOf i = 0 ∧ perLaneOf i = false ∧ ∃ f, exec i s = scalarWord i w s f := by
  simp only [scalarWords, List.mem_cons, List.not_mem_nil, or_false] at hi
  rcases hi with rfl | rfl | rfl | rfl | rfl | rfl | rfl | rfl | rfl | rfl | rfl | rfl | rfl | rfl | rfl | rfl | rfl | rfl | rfl | rfl | rfl | rfl |
    rfl | rfl | rfl | rfl | rfl | rfl
  all_goals refine ⟨rfl, rfl, ?_⟩
  pick_goal 28
  · exact ⟨_, (exec_sSr w s).trans (execSSr_eq w s)⟩
  all_goals
    simp only [exec_sAdd, exec_sSub, exec_sMul, exec_sMulh, exec_sDiv, exec_sRem, exec_sAnd, exec_sOr, exec_sXor, exec_sAndn, exec_sShl, exec_sShr,
      exec_sSar, exec_sMin, exec_sMax, exec_sClz, exec_sPopc, exec_sBfx, exec_sBfi, exec_sSxt, exec_sZxt, exec_sCmp, exec_sSel, exec_sMov, exec_sLi,
      exec_sLih, exec_sLea]
    exact ⟨_, rfl⟩

/-- A scalar word that issues writes one value to its register d. -/
theorem exec_scalar {s : State} {x : Issue} {w : SWord} {i : Instr} (hi : i ∈ scalarWords w) (h : Issues s i x) :
    ∃ v, exec i s = .next (performed x (putG s (ws x.g w.d.toNat v))) := by
  obtain ⟨msel, perLane, f, run⟩ := exec_eq_scalarWord hi s
  exact ⟨_, run.trans (scalarWord_normal h msel perLane w f)⟩

/-- Settles O10: a scalar word writes d in its own group, and its slot moves on. -/
theorem scalarWordsFrame : Obligations.ScalarWordsFrame := by
  intro s x w i hi h
  obtain ⟨v, run⟩ := exec_scalar hi h
  obtain ⟨-, hx, -, -⟩ := issuer_some h.1
  obtain ⟨sl, ps, moved, mask, depth⟩ := performed_putG hx (g := ws x.g w.d.toNat v) (ws_gid _ _ _)
  rw [slotOf_ws] at mask depth
  refine ⟨_, v, sl, ps, run, moved, mask, depth, ?_⟩
  rw [moved]
  exact ⟨fun _ => rfl, rfl, fun n hn => getG_putG_other (by simpa using hn)⟩

end Sys2Proof.Proofs
end

section
/-! PROOF. Divergence and joining (02_execution_model.md R41 to R45): `bv` that divides its lanes, `join` and `exit`, by what the slot's
stack and the other slot hold. -/

namespace Sys2Proof.Proofs
open Sys2Proof Sys2Proof.Machine Sys2Proof.Laws

/-- A word that takes no mask select, and whose lanes are not single accesses, runs its body (R244). -/
theorem runWord_unmasked {s : State} {i : Instr} {x : Issue} (h : Issues s i x) (hm : mselOf i = 0) (hp : perLaneOf i = false)
    (body : State → Issue → Res) : runWord i 0 false s body = .next (settle x false (body s x)) :=
  runWord_normal h hm.symm hp.symm body

/-! A transfer that nothing stops is made (R244). -/

section transfers
variable {s : State} {x : Issue} {t : Nat} (clear : transferStop s x t = none) (s1 : State)
include clear

theorem transfer_clear : transfer s s1 x t = .jump s1 t := by rw [transfer, clear, Option.getD_none]

theorem transferSettle_clear : transferSettle s s1 x t = .done (settleSlots (jumped x s1 t) x.g.gid) := by
  rw [transferSettle, clear, Option.getD_none, jumped]

end transfers

/-! `bv` (R43). `l` are the lanes that leave, `r` those that stay. -/

section divides
variable {s : State} {x : Issue} {w : CWord} {l r : W64}
  (hl : l = (slotOf x.g x.b).mask &&& (if w.cf.getLsbD 3 then ~~~rm x.g (w.cf.toNat % 8) else rm x.g (w.cf.toNat % 8)))
  (hr : r = (slotOf x.g x.b).mask &&& ~~~l) (leave : l ≠ 0#64) (stay : r ≠ 0#64) (h : Issues s (.bv w) x)
include hl hr leave stay h

/-- The other slot takes the leaving lanes. -/
theorem exec_bv_starts (free : (slotOf x.g (!x.b)).st = .free) (clear : transferStop s x (targetC x w.off) = none) :
    exec (.bv w) s = .next (performed x (putG s (setSlot (withMask x.g x.b r) (!x.b)
      { st := .running, clause := targetC x w.off, mask := l, last := s.time, waitSince := s.time, extSince := s.time }))) := by
  obtain ⟨-, -, lanes, -⟩ := issuer_some h.1
  rw [exec_bv, execBv, runWord_unmasked h rfl rfl]
  simp only [lanes, ← hl, ← hr, if_neg leave, if_neg stay, free, clear, settle_ok]

/-- The staying lanes wait on the slot's stack. -/
theorem exec_bv_pushes (busy : (slotOf x.g (!x.b)).st ≠ .free) (room : (slotOf x.g x.b).depth < x.g.depthD)
    (clear : transferStop s x (targetC x w.off) = none) :
    exec (.bv w) s = .next (jumped x (putG (stackPush s x.g x.b 0 x.nextClause r)
      (setSlot x.g x.b { slotOf x.g x.b with mask := l, depth := (slotOf x.g x.b).depth + 1 })) (targetC x w.off)) := by
  obtain ⟨-, -, lanes, -⟩ := issuer_some h.1
  rw [exec_bv, execBv, runWord_unmasked h rfl rfl]
  simp only [lanes, ← hl, ← hr, if_neg leave, if_neg stay, Issue.slot, if_neg (Nat.not_le_of_lt room), transfer_clear clear, settle_jump]

theorem exec_bv_overflows (busy : (slotOf x.g (!x.b)).st ≠ .free) (full : x.g.depthD ≤ (slotOf x.g x.b).depth) :
    exec (.bv w) s = .next (raised x s { cls := 9, code := 1, index := (slotOf x.g x.b).depth }) := by
  obtain ⟨-, -, lanes, -⟩ := issuer_some h.1
  rw [exec_bv, execBv, runWord_unmasked h rfl rfl]
  simp only [lanes, ← hl, ← hr, if_neg leave, if_neg stay, Issue.slot, if_pos full, settle_bad]

end divides

/-! `join` (R44). -/

section joins
variable {s : State} {x : Issue} {w : CWord}

/-- Lanes that `bv` pushed run next, and the slot's own wait for them in their place. -/
theorem exec_join_pushed (h : Issues s (.join w) x) {p : Nat} {m : W64} (top : stackTop s x.g x.b = some (0, p, m)) :
    exec (.join w) s = .next (jumped x
      (putG (stackPush s (setSlot x.g x.b { slotOf x.g x.b with depth := (slotOf x.g x.b).depth - 1 }) x.b 1 (targetC x w.off)
        (slotOf x.g x.b).mask) (withMask x.g x.b m)) p) := by
  rw [exec_join, execJoin, runWord_unmasked h rfl rfl]
  simp only [top, Issue.slot, settle_jump]

/-- Lanes that wait on the stack for this join go on with the slot's own. -/
theorem exec_join_waited (h : Issues s (.join w) x) {k : Nat} {m : W64} (top : stackTop s x.g x.b = some (k + 1, targetC x w.off, m))
    (clear : transferStop s x (targetC x w.off) = none) :
    exec (.join w) s = .next (jumped x (putG s (setSlot x.g x.b
      { slotOf x.g x.b with depth := (slotOf x.g x.b).depth - 1, mask := (slotOf x.g x.b).mask ||| m })) (targetC x w.off)) := by
  rw [exec_join, execJoin, runWord_unmasked h rfl rfl]
  simp only [top, Issue.slot, if_true, transfer_clear clear, settle_jump]

/-- With an empty stack the other slot decides. -/
theorem exec_join_empty (h : Issues s (.join w) x) (top : stackTop s x.g x.b = none) :
    exec (.join w) s = .next (settle x false (joinOther s x (targetC x w.off))) := by
  rw [exec_join, execJoin, runWord_unmasked h rfl rfl]
  simp only [top]

theorem joinOther_free {j : Nat} (free : (slotOf x.g (!x.b)).st = .free) (clear : transferStop s x j = none) :
    joinOther s x j = .jump s j := by
  simp only [joinOther, free, transfer_clear clear]

theorem joinOther_running {j : Nat} (running : (slotOf x.g (!x.b)).st = .running) :
    joinOther s x j = .done (holdGroup (leavePart (putG s (setSlot x.g x.b { slotOf x.g x.b with st := .waiting j, park := none })) x.g x.b)
      x.g.gid (x.w.getLsbD 55)) := by
  simp only [joinOther, running, Issue.slot]

theorem joinOther_waiting {j : Nat} (waiting : (slotOf x.g (!x.b)).st = .waiting j) (depth : (slotOf x.g (!x.b)).depth = 0)
    (clear : transferStop s x j = none) :
    joinOther s x j = .done (settleSlots (jumped x (putG s (setSlot (withMask x.g x.b
      ((slotOf x.g x.b).mask ||| (slotOf x.g (!x.b)).mask)) (!x.b) {})) j) x.g.gid) := by
  simp only [joinOther, waiting, depth, ne_eq, not_true_eq_false, if_false, Issue.slot, transferSettle_clear clear]

end joins

/-! `exit` (R45). -/

section exits
variable {s : State} {x : Issue} {w : SWord} (h : Issues s (.exit w) x)
include h

/-- Without lanes on its stack the slot becomes free. -/
theorem exec_exit_empty (top : stackTop s x.g x.b = none) :
    exec (.exit w) s = .next (regroupRelease (settleSlots (holdGroup (leavePart (putG s (setSlot x.g x.b {})) x.g x.b) x.g.gid
      (x.w.getLsbD 55)) x.g.gid) x.g.team) := by
  rw [exec_exit, execExit, runWord_unmasked h rfl rfl]
  simp only [top, settle_done]

/-- The lanes on top of its stack run next. -/
theorem exec_exit_popped {k a : Nat} {m : W64} (top : stackTop s x.g x.b = some (k, a, m)) :
    exec (.exit w) s = .next (settleSlots (jumped x
      (putG s (setSlot x.g x.b { slotOf x.g x.b with depth := (slotOf x.g x.b).depth - 1, mask := m })) a) x.g.gid) := by
  rw [exec_exit, execExit, runWord_unmasked h rfl rfl]
  simp only [top, settle_done, Issue.slot, jumped]

end exits

/-- Settles O17: each case of `bv`, `join` and `exit`, by the slot's stack and the other slot. -/
theorem divergenceAndJoin : Obligations.DivergenceAndJoin := by
  refine ⟨?bv, ?join, ?exit⟩
  case bv =>
    rintro s x w _ _ l r rfl rfl hl hr leave stay h clear
    exact ⟨fun free => exec_bv_starts hl hr leave stay h free clear, fun busy room => exec_bv_pushes hl hr leave stay h busy room clear,
      exec_bv_overflows hl hr leave stay h⟩
  case join =>
    rintro s x w _ rfl h
    refine ⟨fun _ _ top => exec_join_pushed h top, fun _ _ top clear => exec_join_waited h top clear, fun top free clear => ?_,
      fun top running => ?_, fun top waiting depth clear => ?_⟩
    · rw [exec_join_empty h top, joinOther_free free clear, settle_jump]
    · rw [exec_join_empty h top, joinOther_running running, settle_done]
    · rw [exec_join_empty h top, joinOther_waiting waiting depth clear, settle_done]
  case exit => exact fun s x w h => ⟨exec_exit_empty h, fun _ _ _ top => exec_exit_popped h top⟩

end Sys2Proof.Proofs
end

section
/-! PROOF. Task groups and regrouping (02_execution_model.md R48 to R57): forming and placing task groups, stealing, retirement, and the merge
of a pair. -/

namespace Sys2Proof.Proofs
open Sys2Proof Sys2Proof.Machine Sys2Proof.Laws

/-! Forming and placing task groups (R55, R70). -/

theorem exec_taskGroupFormation_forms {s : State} {ctx grid core : Nat} {g : Grid} (hg : getGrid s ctx grid = some g)
    (tasks : gatherUnit s g core ≠ []) (runs : ctxRuns s ctx = true)
    (ready : (lrecOf g.lrec).width ≤ (gatherUnit s g core).length ∨
      (∃ t, taskTeam s ctx grid core = some t ∧ ∀ h ∈ s.groups, h.team ≠ t.tid) ∨ taskTeam s ctx grid core = none) :
    exec (.taskGroupFormation ctx grid core) s = .next (formGroup s g core (gatherUnit s g core)) := by
  simp only [exec_taskGroupFormation, execTaskGroupFormation, hg, runs, List.isEmpty_eq_false_iff.2 tasks]
  rw [if_pos]
  rcases ready with full | ⟨t, team, away⟩ | noTeam
  · simp [full]
  · simpa [team] using .inr away
  · simp [noTeam]

theorem exec_gatherWindowExpiry_forms {s : State} {ctx grid core : Nat} {g : Grid} {t : Task} {r : List Task} (hg : getGrid s ctx grid = some g)
    (unit : gatherUnit s g core = t :: r) (runs : ctxRuns s ctx = true) (waited : t.since + (2 * (lrecOf g.lrec).gather + 2) / 3 ≤ s.time) :
    exec (.gatherWindowExpiry ctx grid core) s = .next (formGroup s g core (t :: r)) := by
  have window : cdiv ((lrecOf g.lrec).gather * 2) 3 = (2 * (lrecOf g.lrec).gather + 2) / 3 := by
    rw [cdiv, Nat.mul_comm]
    rfl
  simp only [exec_gatherWindowExpiry, execGatherWindowExpiry, hg, unit, runs, window, waited, decide_true, Bool.and_self, if_true]

theorem exec_taskGroupPlacement_head {s : State} {core part : Nat} {f : Formed} {g : Grid} (head : (coreOrder s core).head? = some f)
    (noDrain : packageDrain s = false) (fits : fitTask s f = some part) (hg : getGrid s f.ctx f.grid = some g) :
    exec (.taskGroupPlacement core 0) s = .next { placeTasks s f g part with
      formed := (placeTasks s f g part).formed.map (fun x => if x.core == core then { x with passes := 0 } else x) } := by
  have first : (coreOrder s core)[0]? = some f := List.head?_eq_getElem?.symm.trans head
  simp [exec_taskGroupPlacement, execTaskGroupPlacement, head, first, noDrain, fits, hg]

/-! Stealing (R56). -/

/-- The tasks a core's pool holds for a context. -/
def pooled (s : State) (ctx core : Nat) : Nat := (s.pool.filter (fun t => t.ctx == ctx && t.core == core)).length

theorem pooled_pos {s : State} {ctx core : Nat} : 0 < pooled s ctx core ↔ ∃ t ∈ s.pool, t.ctx = ctx ∧ t.core = core := by
  simp [pooled, List.length_pos_iff_exists_mem]

theorem pooled_eq_zero {s : State} {ctx core : Nat} (h : ∀ t ∈ s.pool, ¬ (t.ctx = ctx ∧ t.core = core)) : pooled s ctx core = 0 :=
  Nat.eq_zero_of_not_pos fun pos => let ⟨t, ht, here⟩ := pooled_pos.1 pos; h t ht here

/-- Of the fullest pool so far and the next core's, the fuller; an empty one is never taken. -/
def fuller (count : Nat → Nat) (a : Option Nat) (k : Nat) : Option Nat :=
  match a with
  | none => if count k = 0 then none else some k
  | some b => if count b < count k then some k else some b

/-- The first core whose pool is fullest. -/
def fullest (count : Nat → Nat) (l : List Nat) : Option Nat := l.foldl (fuller count) none

/-- What a choice among the cores `l` must be: none when every pool is empty, else one that holds tasks and no fewer than any other. -/
def FullestOf (count : Nat → Nat) (l : List Nat) : Option Nat → Prop
  | none => ∀ k ∈ l, count k = 0
  | some v => v ∈ l ∧ 0 < count v ∧ ∀ k ∈ l, count k ≤ count v

theorem FullestOf.concat {count : Nat → Nat} {l : List Nat} {a : Option Nat} (h : FullestOf count l a) (k : Nat) :
    FullestOf count (l ++ [k]) (fuller count a k) := by
  cases a with
  | none =>
    simp only [fuller]
    split
    · next empty => simpa [FullestOf, empty, or_imp, forall_and] using h
    · next holds => exact ⟨by simp, Nat.pos_of_ne_zero holds, by simpa [or_imp, forall_and] using fun k' hk' => by simp [h k' hk']⟩
  | some b =>
    obtain ⟨hb, pos, le⟩ := h
    simp only [fuller]
    split
    · next lt => exact ⟨by simp, by omega, by simpa [or_imp, forall_and] using fun k' hk' => (le k' hk').trans lt.le⟩
    · next ge => exact ⟨by simp [hb], pos, by simpa [or_imp, forall_and] using ⟨le, Nat.le_of_not_lt ge⟩⟩

theorem fullestOf_fullest (count : Nat → Nat) (l : List Nat) : FullestOf count l (fullest count l) := by
  induction l using List.reverseRecOn with
  | nil => simp [fullest, FullestOf]
  | append_singleton l k ih =>
    rw [fullest, List.foldl_concat]
    exact ih.concat k

/-- The cores of a core's die (R13). -/
def dieCores (core : Nat) : List Nat := (List.range 24).map (fun i => 24 * (core / 24) + i)

theorem mem_dieCores {core k : Nat} : k ∈ dieCores core ↔ k / 24 = core / 24 := by
  simp only [dieCores, List.mem_map, List.mem_range]
  exact ⟨fun ⟨i, hi, e⟩ => by omega, fun h => ⟨k % 24, Nat.mod_lt _ (by decide), by omega⟩⟩

/-- Inserting elements one by one brings in no others. -/
theorem mem_of_mem_insertions {α : Type} {p : α → α → Bool} {l a : List α} {x : α}
    (hx : x ∈ l.foldl (fun a t => a.takeWhile (p t) ++ [t] ++ a.dropWhile (p t)) a) : x ∈ l ∨ x ∈ a := by
  induction l generalizing a with
  | nil => exact .inr hx
  | cons t l ih =>
    rcases ih hx with h | h
    · exact .inl (List.mem_cons_of_mem t h)
    · simp only [List.mem_append, List.mem_singleton] at h
      rcases h with (h | rfl) | h
      · exact .inr ((List.takeWhile_sublist _).mem h)
      · exact .inl List.mem_cons_self
      · exact .inr ((List.dropWhile_sublist _).mem h)

@[simp] theorem sweep_pool (s : State) : (sweep s).pool = s.pool := rfl

@[simp] theorem endTeam_pool (s : State) (tid : Nat) : (endTeam s tid).pool = s.pool := by
  unfold endTeam
  split
  · rfl
  · dsimp only
    split
    · rfl
    · split
      · split <;> rfl
      · rfl

theorem endTeams_pool (l : List Team) (s : State) : (l.foldl (fun s t => endTeam s t.tid) s).pool = s.pool :=
  List.foldlRecOn l _ (motive := fun u : State => u.pool = s.pool) rfl fun _ h t _ => (endTeam_pool _ t.tid).trans h

/-- A task of the pool after the tasks `take` have moved to a core. -/
def movedTo (core : Nat) (take : List Task) (u : Task) : Task := if take.contains u then { u with core := core } else u

theorem movedTo_cases (core : Nat) (take : List Task) (u : Task) :
    movedTo core take u = u ∨ (u ∈ take ∧ movedTo core take u = { u with core := core }) := by
  unfold movedTo
  split
  · next h => exact .inr ⟨List.contains_iff_mem.1 h, rfl⟩
  · exact .inl rfl

/-- The tasks that an idle core takes of a victim: the older half, as far as there is room (R56). -/
def stolen (s : State) (ctx core v : Nat) : List Task :=
  let mine := (s.pool.filter (fun t => t.ctx == ctx && t.core == v)).foldl (fun l t =>
    l.takeWhile (fun u => decide (u.age ≤ t.age)) ++ [t] ++ l.dropWhile (fun u => decide (u.age ≤ t.age))) []
  mine.take (min (cdiv mine.length 2) (poolRoom s ctx core))

theorem stolen_of_victim {s : State} {ctx core v : Nat} {u : Task} (h : u ∈ stolen s ctx core v) : u.ctx = ctx ∧ u.core = v := by
  have mine := (mem_of_mem_insertions (p := fun (t u : Task) => decide (u.age ≤ t.age)) (List.mem_of_mem_take h)).resolve_right List.not_mem_nil
  simpa using (List.mem_filter.1 mine).2

/-- The state after a core has taken tasks of a victim, whose task teams left without groups and tasks end (R54). -/
def afterSteal (s : State) (ctx core v : Nat) : State :=
  let s1 := { s with pool := s.pool.map (movedTo core (stolen s ctx core v)) }
  sweep ((s1.teams.filter (fun t => t.task && t.ctx == ctx && t.core == v)).foldl (fun s t => endTeam s t.tid) s1)

theorem afterSteal_pool (s : State) (ctx core v : Nat) : (afterSteal s ctx core v).pool = s.pool.map (movedTo core (stolen s ctx core v)) :=
  endTeams_pool _ _

/-- An idle core steals from the fullest pool of its die. -/
theorem exec_taskSteal_idle {s : State} {ctx core v : Nat} (up : coreUp s core = true) (runs : ctxRuns s ctx = true)
    (empty : pooled s ctx core = 0) (noGroup : ∀ g ∈ s.groups, ¬ (g.ctx = ctx ∧ g.core = core))
    (victim : fullest (pooled s ctx) (dieCores core) = some v) : exec (.taskSteal ctx core) s = .next (afterSteal s ctx core v) := by
  have worker : ¬ 96 ≤ core := by
    obtain ⟨lt, -⟩ := of_decide_eq_true up
    omega
  have idle : s.groups.all (fun g => g.ctx != ctx || g.core != core) = true := by
    simpa [← Decidable.not_and_iff_not_or_not] using noGroup
  have counted : (s.pool.filter (fun t => t.ctx == ctx && t.core == core)).length = 0 := empty
  rw [exec_taskSteal, execTaskSteal]
  dsimp only
  split
  · next e => exact absurd (victim.symm.trans e) (by simp)
  · next v' e =>
    obtain rfl : v = v' := Option.some.inj (victim.symm.trans e)
    rw [if_neg (by simp [counted, idle, runs, up, worker])]
    rfl

/-- A core other than the idle one has the fullest pool of the die, when some pool of the die holds a task. -/
theorem exists_victim {s : State} {ctx core : Nat} (empty : pooled s ctx core = 0) (work : ∃ t ∈ s.pool, t.ctx = ctx ∧ t.core / 24 = core / 24) :
    ∃ v, fullest (pooled s ctx) (dieCores core) = some v ∧ v / 24 = core / 24 ∧ v ≠ core ∧ 0 < pooled s ctx v ∧
      ∀ k, k / 24 = core / 24 → pooled s ctx k ≤ pooled s ctx v := by
  have spec := fullestOf_fullest (pooled s ctx) (dieCores core)
  cases victim : fullest (pooled s ctx) (dieCores core) with
  | none =>
    obtain ⟨t, ht, hctx, hdie⟩ := work
    rw [victim] at spec
    exact absurd (spec t.core (mem_dieCores.2 hdie)) (pooled_pos.2 ⟨t, ht, hctx, rfl⟩).ne'
  | some v =>
    rw [victim] at spec
    obtain ⟨hv, pos, le⟩ := spec
    exact ⟨v, rfl, mem_dieCores.1 hv, fun e => pos.ne' (e ▸ empty), pos, fun k hk => le k (mem_dieCores.2 hk)⟩

/-- Each place of the pool holds the task it held, there or, one of the victim's, at the core that took it. -/
theorem afterSteal_pool_getElem? {s : State} {ctx core v k : Nat} {u : Task} (hu : s.pool[k]? = some u) :
    (afterSteal s ctx core v).pool[k]? = some u ∨
      (u.ctx = ctx ∧ u.core = v ∧ (afterSteal s ctx core v).pool[k]? = some { u with core := core }) := by
  rw [afterSteal_pool, List.getElem?_map, hu, Option.map_some]
  rcases movedTo_cases core (stolen s ctx core v) u with stays | ⟨taken, moves⟩
  · exact .inl (congrArg some stays)
  · obtain ⟨hctx, hcore⟩ := stolen_of_victim taken
    exact .inr ⟨hctx, hcore, congrArg some moves⟩

/-! Retirement and regrouping (R49 to R52, R252). -/

theorem exec_groupRetire_quiet {s : State} {gid : Nat} {g : Group} (hg : getG s gid = some g) (freeA : g.slotA.st = .free)
    (freeB : g.slotB.st = .free) (quiet : allQuiet s g = true) (runs : ctxRuns s g.ctx = true) :
    exec (.groupRetire gid) s = .next (sweep (regroupRelease (retireGroup s g) g.team)) := by
  simp only [exec_groupRetire, execGroupRetire, hg, freeA, freeB, quiet, runs, and_self, if_true]

section pair
variable {s : State} {g h : Group} {w : VWord} {key : W64} (hg : getG s g.gid = some g) (hh : getG s h.gid = some h)
  (pair : regroupPair g = some (key, h.gid)) (lower : g.num < h.num) (runs : ctxRuns s g.ctx = true) (word : regroupWord g = some w)
include hg hh pair lower runs word

/-- The lower-numbered group of a pair receives the other, which retires. -/
theorem exec_regroupPair_merges (free : (getPart s h.core h.part).pontil ≠ some h.gid) :
    exec (.regroupPair g.gid h.gid) s = .next
      (regroupRelease (regroupGo (retireGroup (putG s (mergeGroups g h w)) { h with counters := [] }) g.gid 1#64) g.team) := by
  simp [exec_regroupPair, execRegroupPair, hg, hh, pair, word, Nat.not_le_of_lt lower, runs, free]

/-- A donor that holds the pontil faults, and the other seeks another partner (R47). -/
theorem exec_regroupPair_refuses (held : (getPart s h.core h.part).pontil = some h.gid) :
    exec (.regroupPair g.gid h.gid) s = .next
      (regroupSeek (putG (raiseAt s h.gid false { cls := 0x0A, code := 4, index := g.num }) (mated g key none)) g.gid key) := by
  simp [exec_regroupPair, execRegroupPair, hg, hh, pair, word, Nat.not_le_of_lt lower, runs, held]

end pair

/-- Updates that each keep the scalar registers keep them. -/
theorem foldl_s {α : Type} {f : Group → α → Group} (hf : ∀ x a, (f x a).s = x.s) (l : List α) (g : Group) : (l.foldl f g).s = g.s :=
  List.foldlRecOn l f (motive := fun x => x.s = g.s) rfl fun x hx a _ => (hf x a).trans hx

/-- A merge moves vector registers and masks, and keeps the receiver's scalar registers (R49). -/
theorem mergeGroups_s (g h : Group) (w : VWord) : (mergeGroups g h w).s = g.s := by
  unfold mergeGroups
  extract_lets src n at_n regs vals g1 g2
  have kept : g2.s = g.s := (foldl_s (fun _ _ => wm_s _ _ _) _ g1).trans (foldl_s (fun _ _ => wv_s _ _ _ _) vals g)
  -- The merged group is made a variable and the goal kept as `id`'s type, so that the kernel does not evaluate the folds.
  generalize g2 = merged at kept ⊢
  exact id kept

/-- The receiver runs on with as many lanes as both groups had (R49). -/
theorem mergeGroups_mask (g h : Group) (w : VWord) : (mergeGroups g h w).slotA.mask =
    BitVec.ofNat 64 (2 ^ ((lanesOf g.slotA.mask).length + (lanesOf h.slotA.mask).length) - 1) := by
  simp only [mergeGroups, fullMask, List.length_append, List.length_map]

/-- Settles O48: each event of task groups, stealing, retirement and regrouping, by its cases. -/
theorem taskAndGroupEvents : Obligations.TaskAndGroupEvents := by
  refine ⟨?form, fun _ _ _ _ _ head noDrain fits hg => exec_taskGroupPlacement_head head noDrain fits hg, ?steal,
    fun _ _ _ hg freeA freeB quiet runs => exec_groupRetire_quiet hg freeA freeB quiet runs, ?pair,
    fun g h w => ⟨rfl, mergeGroups_s g h w, mergeGroups_mask g h w, rfl, rfl, rfl⟩⟩
  case form =>
    rintro s ctx grid core g _ hg rfl tasks runs
    exact ⟨exec_taskGroupFormation_forms hg tasks runs, fun t r unit waited => unit ▸ exec_gatherWindowExpiry_forms hg unit runs waited⟩
  case steal =>
    intro s ctx core up runs noTask noGroup work
    have empty := pooled_eq_zero noTask
    obtain ⟨v, victim, die, other, pos, le⟩ := exists_victim empty work
    refine ⟨_, v, pooled s ctx v, exec_taskSteal_idle up runs empty noGroup victim, die, other, rfl, pos, le, ?_,
      fun k _ u hu => afterSteal_pool_getElem? hu⟩
    rw [afterSteal_pool, List.length_map]
  case pair =>
    intro s g h w key hg hh pair lower runs word
    exact ⟨exec_regroupPair_merges hg hh pair lower runs word, exec_regroupPair_refuses hg hh pair lower runs word⟩

end Sys2Proof.Proofs
end

section
/-! PROOF. What a step runs (03_scheduling.md R76, R81; 08_encoding.md R207, R229): the word or half of the slot in focus, the event or the
command of the turn. -/

namespace Sys2Proof.Proofs
open Sys2Proof Sys2Proof.Machine Sys2Proof.Laws

/-- The instruction that a slot issues next: its word, or the half of its pair word that is next (R207, R229). -/
def slotDecodes (sl : Slot) : Option Instr :=
  if sl.hdr.getLsbD (32 + sl.idx) then
    decodeHalf (if sl.half then (sl.words.getD sl.idx 0#64).extractLsb' 0 32 else (sl.words.getD sl.idx 0#64).extractLsb' 32 32)
  else decodeWord (sl.words.getD sl.idx 0#64)

theorem issueSlot_of_decodes {s : State} {gid : Nat} {b : Bool} {g : Group} {i : Instr} (hg : getG s gid = some g)
    (decodes : slotDecodes (slotOf g b) = some i) : issueSlot s gid b = .run (withFocus s (.word gid b)) i := by
  unfold slotDecodes at decodes
  simp only [issueSlot, hg]
  split at decodes
  · next pair => rw [if_pos pair, decodes]
  · next whole => rw [if_neg whole, decodes]

theorem runMove_issue {s : State} {core part gid : Nat} {b : Bool} {rest : List (Nat × Bool)} {g : Group} {i : Instr}
    (cur : (getPart s core part).cur = (gid, b) :: rest) (hg : getG s gid = some g) (decodes : slotDecodes (slotOf g b) = some i) :
    runMove s (.issue core part) = exec i (withFocus s (.word gid b)) := by
  simp only [runMove, toRun, cur, issueSlot_of_decodes hg decodes]

theorem runMove_event {s : State} {i : Instr} (event : encode i = none) :
    runMove s (.event i) = withAfter s (exec i (withFocus s .idle)) := by
  have isEvent : isEvent i = true := Option.isNone_iff_eq_none.2 event
  simp only [runMove, toRun, isEvent, if_true]

theorem runMove_sequencer {s : State} {id : Nat} {f : Flight} {sh : Share} {i : Instr} (hf : getF s id = some f) (hop : f.op = .share sh)
    (hrun : sh.kind = .run) (begun : sh.begun = true) (more : sh.idx < sh.block.length) (turn : shareTurn s f sh = true)
    (decodes : decodeCane (sh.block.getD sh.idx 0#64) = some i) :
    runMove s (.sequencer id) = exec i (withFocus s (.tower id)) := by
  have started : beginShare s f sh = s := if_pos begun
  simp only [runMove, toRun, sequencerTurn, hf, hop, hrun, turn, decide_eq_false (Nat.not_le_of_lt more), started, decodes, Bool.not_true,
    Bool.or_self, Bool.false_eq_true, if_false]

theorem step_of_turn {s : State} {t : Turn} {r : List Turn} (turns : s.turns = t :: r) : step s = runMove (afterTurn s t r) t.move := by
  simp only [step, turns]

theorem step_of_issuing {s : State} {p : Part} (turns : s.turns = []) (hp : issuing s = some p) : step s = runMove s (.issue p.core p.part) := by
  simp only [step, turns, runDefault, hp]

/-- Settles O4: a step makes the move of its turn, or the default one, and each kind of move runs what it names. -/
theorem stepRunsDecodedInstruction : Obligations.StepRunsDecodedInstruction := by
  refine ⟨fun s t core part gid b r rest g i turns move cur hg decodes => ?_, fun s p gid b rest g i turns hp cur hg decodes => ?_,
    fun s t r i turns move event => ?_, fun s t id r f sh i turns move hf hop hrun begun more turn decodes => ?_⟩
  · rw [step_of_turn turns, move, runMove_issue cur hg decodes]
  · rw [step_of_issuing turns hp, runMove_issue cur hg decodes]
  · rw [step_of_turn turns, move, runMove_event event]
  · rw [step_of_turn turns, move, runMove_sequencer hf hop hrun begun more turn decodes]

end Sys2Proof.Proofs
end

section
/-! PROOF. Stopping and time limits (03_scheduling.md R87 to R90; 20_fault_model.md R453 to R455): what is set aside and its image, the
watchdog, and waits on external sources. -/

namespace Sys2Proof.Proofs
open Sys2Proof Sys2Proof.Machine Sys2Proof.Laws

/-! Once every slot has stopped (R87). -/

/-- What holds of each group of a context holds of all that are listed for it. -/
theorem all_ofCtx {s : State} {ctx : Nat} {p : Group → Bool} (h : ∀ g ∈ s.groups, g.ctx = ctx → p g = true) :
    (s.groups.filter (fun g => g.ctx == ctx)).all p = true :=
  List.all_eq_true.2 fun g hg => h g (List.mem_filter.1 hg).1 (beq_iff_eq.1 (List.mem_filter.1 hg).2)

section stopped
variable {s : State} {ctx cause : Nat} {c : Context} (hc : getC s ctx = some c) (stopping : c.run = .stopping cause)
  (stopped : ∀ g ∈ s.groups, g.ctx = ctx → slotStopped s g false = true ∧ slotStopped s g true = true)
include hc stopping stopped

theorem exec_preemptSave_saves (settled : ∀ g ∈ s.groups, g.ctx = ctx → g.wcb = [] ∧ groupSettled s g = true) :
    exec (.preemptSave ctx) s = .next (setAsideCtx s c cause) := by
  have still := all_ofCtx (p := fun g => slotStopped s g false && slotStopped s g true) (by simpa using stopped)
  have back := all_ofCtx (p := groupSettled s) fun g hg mine => (settled g hg mine).2
  have drained : (s.groups.filter (fun g => g.ctx == ctx)).any (fun g => !g.wcb.isEmpty) = false := by
    simpa using fun g hg mine => (settled g hg mine).1
  simp only [exec_preemptSave, execPreemptSave, hc, stopping, still, drained, back, Bool.not_true, Bool.false_eq_true, if_false, if_true]

theorem exec_preemptSave_drains (waits : ∃ g ∈ s.groups, g.ctx = ctx ∧ g.wcb ≠ []) : exec (.preemptSave ctx) s = .next
    ((s.groups.filter (fun g => g.ctx == ctx)).foldl (fun s g => drainWcb s g.gid) s) := by
  have still := all_ofCtx (p := fun g => slotStopped s g false && slotStopped s g true) (by simpa using stopped)
  have buffered : (s.groups.filter (fun g => g.ctx == ctx)).any (fun g => !g.wcb.isEmpty) = true := by simpa using waits
  simp only [exec_preemptSave, execPreemptSave, hc, stopping, still, buffered, Bool.not_true, Bool.false_eq_true, if_false, if_true]

end stopped

/-! What is set aside, and its image in the save area (R88, R89). -/

theorem pontilFree_eq (s : State) (core part : Nat) : ∃ ps, pontilFree s core part = withParts s ps := putPart_eq _ _

theorem pontilsFree_eq (l : List (Nat × Nat)) (s : State) : ∃ ps, l.foldl (fun s p => pontilFree s p.1 p.2) s = withParts s ps :=
  List.foldlRecOn l _ (motive := fun t => ∃ ps, t = withParts s ps) ⟨s.parts, rfl⟩ fun t ⟨ps, ht⟩ p _ => by
    obtain ⟨qs, hq⟩ := pontilFree_eq t p.1 p.2
    exact ⟨qs, by rw [hq, ht]; rfl⟩

theorem rdByte_writeSave_outside (s : State) (c : Context) {a : Nat} (ha : a < c.save ∨ c.save + (saveImage s c).length ≤ a) :
    rdByte (writeSave s c) a = rdByte s a := by
  refine rdByte_wrBytes_of_forall_ne s ?_
  rintro p hp rfl
  obtain ⟨i, hi, place⟩ := mem_at_.1 (List.mem_filter.1 hp).1
  have := (List.getElem?_eq_some_iff.1 hi).1
  omega

theorem rdByte_writeSave_inside (s : State) (c : Context) {k : Nat} (hk : k < (saveImage s c).length) (hbm : c.save + k < hbmTop) :
    rdByte (writeSave s c) (c.save + k) = (saveImage s c).getD k 0#8 := by
  rw [List.getD_eq_getElem _ _ hk]
  refine fget_fputs_of_mem memDefault (List.mem_filter.2 ⟨mem_at_.2 ⟨k, List.getElem?_eq_getElem hk, rfl⟩, by simpa using hbm⟩) ?_ s.mem
  intro p hp place
  obtain ⟨i, hi, at_i⟩ := mem_at_.1 (List.mem_filter.1 hp).1
  obtain rfl : i = k := by omega
  exact ((List.getElem?_eq_some_iff.1 hi).2).symm

/-- A context that is set aside: its image is in the save area, its groups and pins are given up, and pontils move on. -/
theorem setAsideCtx_eq (s : State) (c : Context) (cause : Nat) : ∃ m bad gs pins ps,
    setAsideCtx s c cause = withParts (putC { s with mem := m, badMem := bad, groups := gs, icache := pins }
      { c with run := .aside cause, asideAt := s.time, held := 0 }) ps ∧
    m = (writeSave s c).mem ∧ ∀ g ∈ s.groups, g.ctx ≠ c.ctx → g ∈ gs := by
  unfold setAsideCtx
  extract_lets holds keep unpinned s1 s2
  obtain ⟨ps, hps⟩ := pontilsFree_eq (pontilsOf s c.ctx) (putC s2 { c with run := .aside cause, asideAt := s.time, held := 0 })
  refine ⟨s1.mem, s1.badMem, s.groups.map keep, s1.icache.map unpinned, ps, hps, rfl, fun g hg other => List.mem_map.2 ⟨g, hg, ?_⟩⟩
  simp [keep, other]

/-- It keeps its teams, leaves other contexts' groups alone, and changes no memory but its save area. -/
theorem setAsideCtx_holds {s : State} {c : Context} (cause : Nat) (hc : getC s c.ctx = some c) :
    getC (setAsideCtx s c cause) c.ctx = some { c with run := .aside cause, asideAt := s.time, held := 0 } ∧
    (setAsideCtx s c cause).teams = s.teams ∧ (∀ g ∈ s.groups, g.ctx ≠ c.ctx → g ∈ (setAsideCtx s c cause).groups) ∧
    ∀ a, rdByte (setAsideCtx s c cause) a = rdByte (writeSave s c) a := by
  obtain ⟨m, bad, gs, pins, ps, eq, mem, others⟩ := setAsideCtx_eq s c cause
  have listed : getC { s with mem := m, badMem := bad, groups := gs, icache := pins } c.ctx = some c := hc
  rw [eq]
  exact ⟨getC_putC_same (c := { c with run := .aside cause, asideAt := s.time, held := 0 }) listed, rfl, others,
    fun a => congrArg (fget memDefault a) mem⟩

/-! The watchdog (R454). -/

/-- With one group whose other slot is free, its slot A is the one that is late. -/
theorem lateSlots_lone {s : State} {g : Group} (lone : s.groups = [g]) (busy : g.slotA.st ≠ .free) (free : g.slotB.st = .free) :
    ∃ key, lateSlots s g.ctx = [(key, g, false)] := by
  unfold lateSlots
  cases st : g.slotA.st with
  | free => exact absurd st busy
  | running => exact ⟨_, by simp [lone, slotOf, st, free]; rfl⟩
  | waiting j => exact ⟨_, by simp [lone, slotOf, st, free]; rfl⟩

theorem exec_watchdogExpiry_lone {s : State} {g : Group} {c : Context} (lone : s.groups = [g]) (hc : getC s g.ctx = some c)
    (runs : c.run = .running) (user : g.ctx ≠ 0) (waitA : external s g false = none) (waitB : external s g true = none)
    (due : watchFrom s c + c.watchdog ≤ s.time) (busy : g.slotA.st ≠ .free) (free : g.slotB.st = .free) :
    exec (.watchdogExpiry g.ctx) s = .next (leavePart (takeException s g false (!g.slotA.started)
      { cls := 0x1A, code := 0, lanes := if g.slotA.started then some (standLanes g g.slotA) else none } g.slotA.clause g.slotA.idx) g false) := by
  obtain ⟨key, late⟩ := lateSlots_lone lone busy free
  have mine : s.groups.filter (fun h => h.ctx == g.ctx) = [g] := by simp [lone]
  simp [exec_watchdogExpiry, execWatchdogExpiry, hc, mine, runs, user, waitA, waitB, Nat.not_lt.2 due, late, slotOf]

/-! Waits on external sources (R453, R455, R505). -/

section timeout
variable {s : State} {g : Group} {b : Bool} {code : Nat} {c : Context} (hg : getG s g.gid = some g) (wait : external s g b = some code)
  (hc : getC s g.ctx = some c) (runs : c.run = .running) (limited : c.extTimeout ≠ 0) (due : (slotOf g b).extSince + c.extTimeout ≤ s.time)
include hg wait hc runs limited due

theorem exec_externalWaitTimeout_word (atWord : code ≠ 5) : exec (.externalWaitTimeout g.gid b) s = .next
    (leavePart (takeException (progressed s g.ctx) g b false { cls := 0x1B, code := code, lanes := some (standLanes g (slotOf g b)) }
      (slotOf g b).clause (slotOf g b).idx) g b) := by
  simp [exec_externalWaitTimeout, execExternalWaitTimeout, hg, wait, hc, runs, limited, Nat.not_lt.2 due, atWord]

theorem exec_externalWaitTimeout_boundary (atBoundary : code = 5) : exec (.externalWaitTimeout g.gid b) s = .next
    (raiseHere (progressed s g.ctx) g b { cls := 0x1B, code := 5 }) := by
  simp [exec_externalWaitTimeout, execExternalWaitTimeout, hg, wait, hc, runs, limited, Nat.not_lt.2 due, atBoundary]

end timeout

theorem external_of_parkOver {s : State} {g : Group} {b : Bool} {p : Park} (park : (slotOf g b).park = some p)
    (ended : parkOver s g b p = true) : external s g b = none := by
  simp only [external, park, ended, if_true]

/-- Settles O56: a stopped context drains and is set aside, and each time limit by what it raises. -/
theorem stoppingAndTimeLimits : Obligations.StoppingAndTimeLimits := by
  refine ⟨fun s ctx cause c hc stopping stopped => ⟨exec_preemptSave_saves hc stopping stopped, exec_preemptSave_drains hc stopping stopped⟩,
    ?aside, ?watchdog, fun s g b code c hg wait hc runs limited due => ⟨exec_externalWaitTimeout_word hg wait hc runs limited due,
      exec_externalWaitTimeout_boundary hg wait hc runs limited due⟩, fun s g b p => external_of_parkOver⟩
  case aside =>
    rintro s _ c cause _ hc rfl rfl
    obtain ⟨aside, teams, others, bytes⟩ := setAsideCtx_holds cause hc
    exact ⟨aside, teams, others, fun a ha => (bytes a).trans (rdByte_writeSave_outside s c ha),
      fun k hk hbm => (bytes _).trans (rdByte_writeSave_inside s c hk hbm)⟩
  case watchdog =>
    rintro s g c lone hc runs user waitA waitB due busy free _ rfl
    exact exec_watchdogExpiry_lone lone hc runs user waitA waitB due busy free

end Sys2Proof.Proofs
end

section
/-! PROOF. Picking and fetching (03_scheduling.md R74 to R84; 04_memory.md R119, R124): the candidate an issue slot starts, the lines of a
clause, and what ends a floor or a nap. -/

namespace Sys2Proof.Proofs
open Sys2Proof Sys2Proof.Machine Sys2Proof.Laws

/-! The pick (R74 to R76). -/

theorem mem_candidates {s : State} {core part : Nat} {c : Group × Bool} (h : c ∈ candidates s core part) :
    slotReady s c.1 c.2 = true ∧ c.1 ∈ s.groups ∧ c.1.core = core ∧ c.1.part = part := by
  have listed := (mem_of_mem_insertions (p := fun t u : Group × Bool => !lexLt (pickKey t.1 t.2) (pickKey u.1 u.2)) h).resolve_right
    List.not_mem_nil
  obtain ⟨slot, ready⟩ := List.mem_filter.1 listed
  obtain ⟨g, hg, of_g⟩ := List.mem_flatMap.1 slot
  obtain ⟨resident, place⟩ := List.mem_filter.1 hg
  have group : c.1 = g := by
    rcases List.mem_pair.1 of_g with rfl | rfl <;> rfl
  obtain ⟨hcore, hpart⟩ : g.core = core ∧ g.part = part := by simpa using place
  exact ⟨ready, group ▸ resident, group ▸ hcore, group ▸ hpart⟩

section pick
variable {s : State} {core part : Nat} {g : Group} {b : Bool} {r : List (Group × Bool)} (free : (getPart s core part).cur = [])
include free

theorem exec_candidatePick_prompt (first : (candidates s core part).filter (fun c => !yielding c) = (g, b) :: r) :
    exec (.candidatePick core part) s =
      .next (pickSlot s g b ((candidates s core part).filter (fun c => !(c.1.gid == g.gid && c.2 == b)))) := by
  simp only [exec_candidatePick, execCandidatePick, free, first, List.isEmpty_nil, List.isEmpty_cons, Bool.not_true, Bool.false_eq_true, if_false]

theorem exec_candidatePick_yielding (yield : ∀ c ∈ candidates s core part, yielding c = true) (first : candidates s core part = (g, b) :: r) :
    exec (.candidatePick core part) s =
      .next (pickSlot s g b ((candidates s core part).filter (fun c => !(c.1.gid == g.gid && c.2 == b)))) := by
  have noPrompt : (candidates s core part).filter (fun c => !yielding c) = [] := by simpa [List.filter_eq_nil_iff] using yield
  simp only [exec_candidatePick, execCandidatePick, free, noPrompt, List.isEmpty_nil, Bool.not_true, Bool.false_eq_true, if_false, if_true]
  rw [first]

end pick

/-- A slot that is not at the floor starts the clause it stands at, and those it skipped are counted anew (R82, R83). -/
theorem startClause_unfloored {s : State} {g : Group} {sl : Slot} (floor : sl.floor = none) : startClause s g sl =
    { sl with started := true, hdr := nextHdr s g sl, words := clauseWords s g sl.clause, park := pickedPark sl.park, skip := 0, last := s.time,
              everStarted := true, starts := (sl.clause :: sl.starts).take 4, lastPrio := some s.time } := by
  simp only [startClause, floor, Option.isSome_none, Bool.false_and, Bool.false_eq_true, if_false]

/-! What a home's answer changes: tags of caches, no group and no line of an instruction cache. -/

/-- A state without the tags of L2 and LLC, the homes' line state, the CXL devices' bytes and the operations in flight. -/
def besideTags (s : State) : State := { s with l2 := [], plru := [], llc := [], homes := [], cxlMem := [], nextId := 0, pend := [] }

theorem besideTags_promote (s : State) (line : Nat) : besideTags (promote s line) = besideTags s := by
  unfold promote
  split <;> rfl

theorem besideTags_llcPut (s : State) (line : Nat) (valid dirty : BitVec 8) : besideTags (llcPut s line valid dirty) = besideTags s := by
  unfold llcPut
  dsimp only
  split
  · rfl
  · split <;> rfl

theorem besideTags_l2Evict (s : State) (c : CLine) : besideTags (l2Evict s c) = besideTags s := by
  unfold l2Evict
  dsimp only
  split_ifs
  · rfl
  · rfl
  · exact besideTags_llcPut _ _ _ _

theorem besideTags_l2Put (s : State) (line : Nat) (valid dirty : BitVec 8) (allowed : Nat) :
    besideTags (l2Put s line valid dirty allowed) = besideTags s := by
  have added (s1 : State) (l : List CLine) : besideTags { s1 with l2 := l } = besideTags s1 := rfl
  unfold l2Put
  dsimp only
  split
  · exact added s _
  · split
    · exact added s _
    · split
      · exact (added _ _).trans (besideTags_l2Evict s _)
      · exact added s _

theorem besideTags_homeTouch (s : State) (ctx hint pa : Nat) : besideTags (homeTouch s ctx hint pa) = besideTags s := by
  have filled (v : BitVec 8) (w : Nat) := (besideTags_promote _ (pa / 1024)).trans (besideTags_l2Put s (pa / 1024) v 0#8 w)
  unfold homeTouch
  dsimp only
  split_ifs
  · rfl
  · exact besideTags_promote s _
  · rfl
  · exact filled _ _
  · exact (besideTags_llcPut _ _ _ _).trans (filled _ _)

/-! Lines of an instruction cache (R92, R104). -/

/-- The instruction cache of a core holds this line. -/
def HoldsLine (s : State) (core line : Nat) : Prop := ∃ x ∈ s.icache, x.core = core ∧ x.line = line

/-- The number of lines that it holds. -/
def linesHeld (s : State) (core : Nat) : Nat := (s.icache.filter (fun x => x.core == core)).length

/-- The line that arrives, as the instruction cache then holds it. -/
def arrived (s : State) (core line : Nat) (rmost : Bool) (pin : Option Nat) : ILine :=
  { core := core, line := line, expiry := match pin with | some _ => none | none => some (leaseEnd s rmost), pinCtx := pin.getD 0,
    data := homeLine s line }

theorem iInstall_work (s : State) (core line : Nat) (rmost : Bool) (pin : Option Nat) : ∃ fc, besideTags (iInstall s core line rmost pin) =
    besideTags { s with freeCount := fc, icache := s.icache.filter (fun x => x.core != core) ++ iKeep s core line ++
      [arrived s core line rmost pin] } := by
  unfold iInstall
  extract_lets e full base s1
  have granted (u : State) (l x : Nat) : besideTags (grant u l x) = besideTags u := rfl
  refine ⟨s1.freeCount, (granted _ _ _).trans ((besideTags_homeTouch s1 0 0 (line * 128)).trans ?_)⟩
  cases h : full <;> simp only [s1, base, h] <;> rfl

theorem iInstall_groups (s : State) (core line : Nat) (rmost : Bool) (pin : Option Nat) :
    (iInstall s core line rmost pin).groups = s.groups := by
  obtain ⟨_, h⟩ := iInstall_work s core line rmost pin
  exact (congrArg State.groups h :)

theorem iInstall_icache (s : State) (core line : Nat) (rmost : Bool) (pin : Option Nat) : (iInstall s core line rmost pin).icache =
    s.icache.filter (fun x => x.core != core) ++ iKeep s core line ++ [arrived s core line rmost pin] := by
  obtain ⟨_, h⟩ := iInstall_work s core line rmost pin
  exact (congrArg State.icache h :)

theorem holdsLine_iInstall_same (s : State) (core line : Nat) (rmost : Bool) (pin : Option Nat) :
    HoldsLine (iInstall s core line rmost pin) core line :=
  ⟨arrived s core line rmost pin, by rw [iInstall_icache]; exact List.mem_append_right _ (List.mem_singleton.2 rfl), rfl, rfl⟩

/-- A cache that is not full gives up no other line. -/
theorem iKeep_of_room {s : State} {core : Nat} (line : Nat) (room : linesHeld s core < 1024) :
    iKeep s core line = s.icache.filter (fun x => x.core == core && x.line != line) := by
  have fewer : (s.icache.filter (fun x => x.core == core && x.line != line)).length ≤ linesHeld s core :=
    List.Sublist.length_le (List.monotone_filter_right _ (by simp +contextual))
  exact if_pos (by omega)

section room
variable {s : State} {core line : Nat} (rmost : Bool) (pin : Option Nat) (room : linesHeld s core < 1024)
include room

theorem HoldsLine.iInstall {other : Nat} (h : HoldsLine s core other) : HoldsLine (iInstall s core line rmost pin) core other := by
  obtain ⟨x, hx, hcore, hline⟩ := h
  by_cases same : other = line
  · exact same ▸ holdsLine_iInstall_same s core line rmost pin
  · refine ⟨x, ?_, hcore, hline⟩
    rw [iInstall_icache, iKeep_of_room line room]
    simp [hx, hcore, hline, same]

theorem linesHeld_iInstall : linesHeld (iInstall s core line rmost pin) core ≤ linesHeld s core + 1 := by
  have kept : ((s.icache.filter (fun x => x.core == core && x.line != line)).filter (fun x => x.core == core)).length ≤ linesHeld s core :=
    List.Sublist.length_le ((List.filter_sublist).filter _)
  have elsewhere : (s.icache.filter (fun x => x.core != core)).filter (fun x => x.core == core) = [] := by
    simp [List.filter_eq_nil_iff]
  rw [linesHeld, iInstall_icache, iKeep_of_room line room, List.filter_append, List.filter_append, elsewhere, List.nil_append,
    List.length_append]
  exact Nat.add_le_add kept (List.length_filter_le _ _)

end room

/-! The fill of a clause's lines (R124). -/

/-- What a fill does for one line of virtual addresses. -/
def fillLine (g : Group) (s : State) (k : Nat) : State :=
  match codeAt s g (k * 128) with
  | none => s
  | some (pa, m) =>
    match iLive s g.core (pa / 128) with
    | some _ => s
    | none => if isCxl (pa / 128 * 128) || !homeReady s (pa / 128 * 128) then s
      else iInstall s g.core (pa / 128) m (pinOf s g.core (pa / 128))

theorem iFill_eq (s : State) (g : Group) (va n : Nat) : iFill s g va n = (linesOf va n).foldl (fillLine g) s := rfl

theorem fillLine_cases (g : Group) (s : State) (k : Nat) :
    fillLine g s k = s ∨ ∃ line m pin, fillLine g s k = iInstall s g.core line m pin := by
  unfold fillLine
  split
  · exact .inl rfl
  · split
    · exact .inl rfl
    · split
      · exact .inl rfl
      · exact .inr ⟨_, _, _, rfl⟩

theorem fillLine_groups (g : Group) (s : State) (k : Nat) : (fillLine g s k).groups = s.groups := by
  rcases fillLine_cases g s k with h | ⟨line, m, pin, h⟩
  · rw [h]
  · rw [h, iInstall_groups]

theorem iFill_groups (s : State) (g : Group) (va n : Nat) : (iFill s g va n).groups = s.groups :=
  List.foldlRecOn (linesOf va n) (fillLine g) (motive := fun t => t.groups = s.groups) rfl fun t h k _ => (fillLine_groups g t k).trans h

/-- The line of a byte that may be fetched from a home that answers is then held. -/
theorem holdsLine_fillLine {s : State} {g : Group} {k pa : Nat} {m : Bool} (code : codeAt s g (k * 128) = some (pa, m))
    (near : isCxl (pa / 128 * 128) = false) (ready : homeReady s (pa / 128 * 128) = true) : HoldsLine (fillLine g s k) g.core (pa / 128) := by
  simp only [fillLine, code, near, ready, Bool.not_true, Bool.or_self, Bool.false_eq_true, if_false]
  split
  · next x live =>
    refine ⟨x, List.mem_of_find?_eq_some live, ?_⟩
    have found := List.find?_some live
    simp only [Bool.and_eq_true, beq_iff_eq] at found
    exact ⟨found.1.1.1.1, found.1.1.1.2⟩
  · exact holdsLine_iInstall_same _ _ _ _ _

/-- While there is room, filling lines gives up none. -/
theorem fillLines_keep {g : Group} {l : List Nat} {s : State} (room : linesHeld s g.core + l.length ≤ 1024) :
    (∀ line, HoldsLine s g.core line → HoldsLine (l.foldl (fillLine g) s) g.core line) ∧
      linesHeld (l.foldl (fillLine g) s) g.core ≤ linesHeld s g.core + l.length := by
  induction l generalizing s with
  | nil => exact ⟨fun _ h => h, Nat.le_refl _⟩
  | cons k l ih =>
    rw [List.length_cons] at room ⊢
    have one : (∀ line, HoldsLine s g.core line → HoldsLine (fillLine g s k) g.core line) ∧
        linesHeld (fillLine g s k) g.core ≤ linesHeld s g.core + 1 := by
      rcases fillLine_cases g s k with h | ⟨line, m, pin, h⟩
      · rw [h]
        exact ⟨fun _ held => held, Nat.le_succ _⟩
      · rw [h]
        exact ⟨fun _ held => held.iInstall m pin (by omega), linesHeld_iInstall m pin (by omega)⟩
    obtain ⟨kept, count⟩ := one
    obtain ⟨rest, total⟩ := ih (s := fillLine g s k) (by omega)
    exact ⟨fun line held => rest line (kept line held), by rw [List.foldl_cons]; omega⟩

theorem linesOf_length_le (off n : Nat) : (linesOf off n).length ≤ n / 128 + 2 := by
  unfold linesOf
  split
  · simp
  · rw [List.length_map, List.length_range]
    omega

theorem linesOf_pos_cons {off n : Nat} (h : n ≠ 0) : ∃ l, linesOf off n = off / 128 :: l := by
  rw [linesOf, if_neg h, List.range_succ_eq_map, List.map_cons]
  exact ⟨_, rfl⟩

/-- The lines of the header and of the clause behind it: at most five. -/
theorem holdsLine_iFills {s : State} {g : Group} {va n pa : Nat} {m : Bool} (code : codeAt s g (va / 128 * 128) = some (pa, m))
    (near : isCxl (pa / 128 * 128) = false) (ready : homeReady s (pa / 128 * 128) = true) (room : linesHeld s g.core < 1000) (hn : n ≤ 136) :
    HoldsLine (iFill (iFill s g va 8) g va n) g.core (pa / 128) := by
  obtain ⟨l, lines⟩ := linesOf_pos_cons (off := va) (n := 8) (by decide)
  have first := linesOf_length_le va 8
  have second := linesOf_length_le va n
  have count := (fillLines_keep (g := g) (l := [va / 128]) (s := s) (by simp; omega)).2
  rw [lines, List.length_cons] at first
  rw [List.foldl_cons, List.foldl_nil, List.length_singleton] at count
  obtain ⟨kept, more⟩ := fillLines_keep (g := g) (l := l) (s := fillLine g s (va / 128)) (by omega)
  rw [iFill_eq, iFill_eq, lines, List.foldl_cons]
  exact (fillLines_keep (by omega)).1 _ (kept _ (holdsLine_fillLine code near ready))

/-- No byte at 2^57 or above can be fetched (R119, R249). -/
theorem clauseStop_high (s : State) (g : Group) (b : Bool) {a : Nat} (high : 2 ^ 57 ≤ a) :
    clauseStop s g b a = some (.fault { cls := 7, code := 1, addr := a, index := 4 }) := by
  have beyond : codeXlat s g b a = .inl (.bad 1 4) := if_pos high
  simp only [clauseStop, lineStop, fetchMiss, fetchFault, beyond]

section fill
variable {s : State} {g : Group} {b : Bool} (hg : getG s g.gid = some g) (running : (slotOf g b).st = .running)
  (unstarted : (slotOf g b).started = false) (runs : ctxRuns s g.ctx = true)
include hg running unstarted runs

theorem exec_icacheFill_walk {p : Nat} (stop : clauseStop s g b (slotOf g b).clause = some (.walk p)) :
    exec (.icacheFill g.gid b) s = .next (joinWalk s (dieOfCore g.core) g.ctx p g.core (g.gid, b)) := by
  simp [exec_icacheFill, execIcacheFill, hg, running, unstarted, runs, stop]

theorem exec_icacheFill_fault {f : FInfo} (stop : clauseStop s g b (slotOf g b).clause = some (.fault f)) (unparked : (slotOf g b).park = none) :
    exec (.icacheFill g.gid b) s = .next (takeException s (walkDone g b) b true f (slotOf g b).clause (slotOf g b).idx) := by
  simp [exec_icacheFill, execIcacheFill, hg, running, unstarted, runs, stop, unparked]

theorem exec_icacheFill_check {p c : Nat} (stop : clauseStop s g b (slotOf g b).clause = some (.check p c)) (unparked : (slotOf g b).park = none) :
    exec (.icacheFill g.gid b) s = .next (slotCheck s g b true c p) := by
  simp [exec_icacheFill, execIcacheFill, hg, running, unstarted, runs, stop, unparked]

theorem exec_icacheFill_lines (stop : clauseStop s g b (slotOf g b).clause = none) : ∃ n ≤ 136, exec (.icacheFill g.gid b) s =
    .next (iFill (iFill s g (slotOf g b).clause 8) g (slotOf g b).clause n) := by
  refine ⟨8 * (fld (nextHdr (iFill s g (slotOf g b).clause 8) g (slotOf g b)).toNat 60 4 + 2), ?_, ?_⟩
  · have := Nat.mod_lt ((nextHdr (iFill s g (slotOf g b).clause 8) g (slotOf g b)).toNat >>> 60) (show 0 < 2 ^ 4 by decide)
    unfold fld
    omega
  · simp [exec_icacheFill, execIcacheFill, hg, running, unstarted, runs, stop]

end fill

/-! The floor and naps (R84, R254). -/

theorem onSlot_eq {s : State} {g : Group} (hg : getG s g.gid = some g) (b : Bool) (f : Slot → Slot) :
    onSlot s g.gid b f = putG s (setSlot g b (f (slotOf g b))) := by
  simp only [onSlot, hg]

theorem getG_onSlot {s : State} {gid : Nat} {g : Group} (hg : getG s gid = some g) (b : Bool) (f : Slot → Slot) :
    getG (onSlot s gid b f) gid = some (setSlot g b (f (slotOf g b))) := by
  obtain rfl := getG_gid hg
  have same := getG_putG_same (s := s) (g := setSlot g b (f (slotOf g b))) (g0 := g) (by rw [setSlot_gid, hg])
  rwa [onSlot_eq hg, ← setSlot_gid g b (f (slotOf g b))]

theorem exec_spinFloorTimeout_due {s : State} {g : Group} {b : Bool} {t : Nat} {lines : List Nat} (hg : getG s g.gid = some g)
    (floor : (slotOf g b).floor = some (t, lines)) (unwatched : lines = [] ∨ 4 < lines.length) (due : t + 10923 ≤ s.time) :
    exec (.spinFloorTimeout g.gid b) s = .next (putG s (setSlot g b { slotOf g b with floor := none, spin := {} })) := by
  have clocks : cdiv (16384 * 2) 3 = 10923 := rfl
  have expired : ((lines.isEmpty || decide (4 < lines.length)) && decide (t + cdiv (16384 * 2) 3 ≤ s.time)) = true := by
    simpa [clocks, due] using unwatched
  rw [exec_spinFloorTimeout, execSpinFloorTimeout, onSlot_eq hg]
  simp only [floor, expired, if_true]

theorem exec_napTimeout_due {s : State} {g : Group} {b : Bool} {d : Nat} {l : Option Nat} (hg : getG s g.gid = some g)
    (park : (slotOf g b).park = some (.nap (some d) l 0)) (due : d ≤ s.time) :
    exec (.napTimeout g.gid b) s = .next (putG s (setSlot g b { slotOf g b with park := some (.nap (some d) l 1) })) := by
  rw [exec_napTimeout, execNapTimeout, onSlot_eq hg]
  simp only [park, due, if_true]

/-- A slot once a signal of the service has reached it: a nap that goes on ends, with the cause of R254. -/
def signalled (now : Nat) (sl : Slot) : Slot :=
  match sl.park with
  | some (.nap d l 0) => { sl with park := some (napCause now 3 d l), extSince := now }
  | _ => sl

theorem signalled_napping {sl : Slot} {d l : Option Nat} (now : Nat) (park : sl.park = some (.nap d l 0)) :
    (signalled now sl).park = some (napCause now 3 d l) := by
  simp only [signalled, park]

theorem signalled_awake {sl : Slot} (now : Nat) (awake : ∀ d l, sl.park ≠ some (.nap d l 0)) : signalled now sl = sl := by
  unfold signalled
  split
  · next d l park => exact absurd park (awake d l)
  · rfl

/-- A signal of the service reaches both slots of a group. -/
theorem exec_serviceEventSignal_eq (s : State) (gid : Nat) : exec (.serviceEventSignal gid) s =
    .next (onSlot (onSlot s gid false (signalled s.time)) gid true (signalled s.time)) := rfl

theorem exec_serviceEventSignal_slots {s : State} {gid : Nat} {g : Group} (hg : getG s gid = some g) : ∃ t g',
    exec (.serviceEventSignal gid) s = .next t ∧ getG t gid = some g' ∧ ∀ b, slotOf g' b = signalled s.time (slotOf g b) := by
  refine ⟨_, _, exec_serviceEventSignal_eq s gid, getG_onSlot (getG_onSlot hg false _) true _, ?_⟩
  rintro (_ | _) <;> rfl

/-- Settles O49: the pick by its candidates, the fetch by what it meets, floors and naps by what ends them. -/
theorem pickAndFetchEvents : Obligations.PickAndFetchEvents := by
  refine ⟨fun s core part free => ⟨fun g b r => exec_candidatePick_prompt free, fun g b r => exec_candidatePick_yielding free,
      fun c => mem_candidates⟩, fun s g sl floor => ?start, ?fill, fun s g b a => clauseStop_high s g b,
    fun s g b t lines => exec_spinFloorTimeout_due, fun s g b d l => exec_napTimeout_due, ?signal⟩
  case start =>
    rw [startClause_unfloored floor]
    exact ⟨rfl, rfl, rfl, rfl, rfl, rfl, rfl⟩
  case fill =>
    intro s g b hg running unstarted runs
    refine ⟨fun p => exec_icacheFill_walk hg running unstarted runs, fun f => exec_icacheFill_fault hg running unstarted runs,
      fun p c => exec_icacheFill_check hg running unstarted runs, fun stop => ?_⟩
    obtain ⟨n, hn, run⟩ := exec_icacheFill_lines hg running unstarted runs stop
    refine ⟨_, run, (iFill_groups _ _ _ _).trans (iFill_groups _ _ _ _), (iFill_mem _ _ _ _).trans (iFill_mem _ _ _ _), ?_⟩
    rintro _ pa m rfl code near ready room
    exact holdsLine_iFills code near ready room hn
  case signal =>
    intro s g hg
    obtain ⟨t, g', run, hg', slots⟩ := exec_serviceEventSignal_slots hg
    refine ⟨t, g', run, hg', fun b d l park => ?_, fun b awake => (slots b).trans (signalled_awake s.time awake)⟩
    rw [slots, signalled_napping s.time park]
    rfl

end Sys2Proof.Proofs
end

section
/-! PROOF. The dispatcher (03_scheduling.md R63 to R72; 02_execution_model.md R57, R59, R67): records, grids, clusters, counters and the
completion of grids. -/

namespace Sys2Proof.Proofs
open Sys2Proof Sys2Proof.Machine Sys2Proof.Laws

/-! What translations and access checks depend on (R119 to R123, R438). -/

/-- Both states hold the same bytes and errors, contexts, backed memory, translations and access tables. -/
structure SameTables (s t : State) : Prop where
  mem : t.mem = s.mem
  badMem : t.badMem = s.badMem
  ctxs : t.ctxs = s.ctxs
  caps : t.cxlCaps = s.cxlCaps
  tlb : t.tlb = s.tlb
  access : t.atTable = s.atTable
  removed : t.atRemoved = s.atRemoved

namespace SameTables

theorem dropF (s : State) (id : Nat) : SameTables s (dropF s id) := ⟨rfl, rfl, rfl, rfl, rfl, rfl, rfl⟩

theorem putGrid (s : State) (g : Grid) : SameTables s (putGrid s g) := ⟨rfl, rfl, rfl, rfl, rfl, rfl, rfl⟩

section reads
variable {s t : State} (h : SameTables s t)
include h

theorem rdBytes_eq : rdBytes t = rdBytes s := by
  funext pa n
  simp only [rdBytes, rdByte, h.mem]

theorem badAt_eq : badAt t = badAt s := by
  funext l
  simp only [badAt, h.badMem]

theorem getC_eq : getC t = getC s := by
  funext c
  rw [getC, getC, h.ctxs]

theorem backing_eq : backing t = backing s := by
  have cap : portCap t = portCap s := by
    funext port
    simp only [portCap, h.caps]
  funext pa size
  simp only [backing, cap]

theorem walkEntry_eq : walkEntry t = walkEntry s := by
  funext level va e
  simp only [walkEntry, h.backing_eq]

-- The next two go by the recursion's functional: Lean does not derive the equations of these definitions within its limits.
theorem walkFrom_eq : walkFrom t = walkFrom s := by
  delta walkFrom walkFrom._f
  rw [h.rdBytes_eq, h.walkEntry_eq]

theorem trailFrom_eq : trailFrom t = trailFrom s := by
  delta trailFrom trailFrom._f
  rw [h.rdBytes_eq, h.walkEntry_eq]

theorem rootOf_eq : rootOf t = rootOf s := by
  funext ctx
  simp only [rootOf, h.getC_eq]

theorem walkTrail_eq : walkTrail t = walkTrail s := by
  funext ctx va
  simp only [walkTrail, h.getC_eq, h.rootOf_eq, h.backing_eq, h.trailFrom_eq]

theorem trailBad_eq : trailBad t = trailBad s := by
  funext ctx va n
  simp only [trailBad, rangeTrail, h.badAt_eq, h.walkTrail_eq]

theorem xlate_eq : xlate t = xlate s := by
  funext unit ctx va need hbm
  simp only [xlate, tlbFind, walk, h.tlb, h.getC_eq, h.rootOf_eq, h.backing_eq, h.walkFrom_eq]

theorem accessBad_eq : accessBad t = accessBad s := by
  funext target ctx eng pa n need
  rw [accessBad, accessBad, h.access, h.removed]

theorem counterPa_eq : counterPa t = counterPa s := by
  funext ctx a need
  have check : accessCheck t = accessCheck s := by
    funext ctx eng pa n need
    rw [accessCheck, accessCheck, h.accessBad_eq]
  rw [counterPa, counterPa, h.xlate_eq, check]

end reads
end SameTables

/-! Grids by their key. -/

theorem getGrid_key {s : State} {ctx n : Nat} {g : Grid} (h : getGrid s ctx n = some g) : g.ctx = ctx ∧ g.grid = n := by
  simpa using List.find?_some h

theorem getGrid_putGrid_same {s : State} {ctx n : Nat} {g g0 : Grid} (h : getGrid s ctx n = some g0) (hctx : g.ctx = ctx) (hn : g.grid = n) :
    getGrid (putGrid s g) ctx n = some g := by
  subst hctx hn
  exact find_replaceFirst_same _ g (by simp) _ (by simpa [getGrid] using congrArg Option.isSome h)

/-- While fewer than 2^32 grids are held, the next number that a context takes is one that none of its grids has (R27). -/
theorem getGrid_freeGrid {s : State} (c : Context) (few : s.grids.length < 2 ^ 32) : getGrid s c.ctx (freeGrid s c) = none := by
  unfold freeGrid
  generalize hl : (List.range (s.grids.length + 1)).map (fun k => (c.nextGrid + k) % 2 ^ 32) = numbers
  cases found : numbers.find? (fun n => (getGrid s c.ctx n).isNone) with
  | some n => simpa using List.find?_some found
  | none =>
    exfalso
    have distinct : numbers.Nodup := by
      rw [← hl]
      refine List.Nodup.map_on (fun a ha b hb same => ?_) List.nodup_range
      rw [List.mem_range] at ha hb
      omega
    have taken : numbers ⊆ s.grids.map (fun g => g.grid) := by
      intro n hn
      obtain ⟨g, hg⟩ := Option.ne_none_iff_exists'.1 (by simpa using List.find?_eq_none.1 found n hn)
      exact List.mem_map.2 ⟨g, List.mem_of_find?_eq_some hg, (getGrid_key hg).2⟩
    have fewer := (List.subperm_of_subset distinct taken).length_le
    rw [← hl] at fewer
    simp at fewer

/-! Checking records (R63, R64, R445). -/

/-- A context whose queue has lost its head. -/
def dequeued (c : Context) (q : Nat) : Context :=
  { c with queues := fput [] q ((fget [] q c.queues).drop 1) c.queues, checked := fput 0 q 0 c.checked }

theorem popQueue_eq {s : State} {c : Context} (hc : getC s c.ctx = some c) (q : Nat) : popQueue s c.ctx q = putC s (dequeued c q) := by
  simp only [popQueue, hc, dequeued]

section check
variable {s : State} {q va : Nat} {b : List Byte} {c : Context} (hc : getC s c.ctx = some c) (head : queueHead s c.ctx q = some (va, b))
  (runs : c.run = .running) (hq : q < 16) (unchecked : fget 0 q c.checked = 0)
include hc head runs hq unchecked

theorem exec_launchRecordCheck_walks {s1 : State} (walks : dispWalk s c.ctx (usedDeps b ++ [(lrecOf b).done]) = some s1) :
    exec (.launchRecordCheck c.ctx q) s = .next s1 := by
  simp [exec_launchRecordCheck, execLaunchRecordCheck, hc, head, runs, hq, unchecked, walks]

theorem exec_launchRecordCheck_valid (walked : dispWalk s c.ctx (usedDeps b ++ [(lrecOf b).done]) = none) (valid : recordBad s c.ctx b = none) :
    exec (.launchRecordCheck c.ctx q) s = .next (putC s { c with checked := fput 0 q 1 c.checked }) := by
  simp [exec_launchRecordCheck, execLaunchRecordCheck, hc, head, runs, hq, unchecked, walked, valid]

theorem exec_launchRecordCheck_invalid {code i : Nat} (walked : dispWalk s c.ctx (usedDeps b ++ [(lrecOf b).done]) = none)
    (invalid : recordBad s c.ctx b = some (code, i)) : exec (.launchRecordCheck c.ctx q) s =
      .next (serviceRecord (popQueue s c.ctx q) c.ctx { cls := 0x1C, code := code, addr := va, index := i, eng := 6 } q) := by
  simp [exec_launchRecordCheck, execLaunchRecordCheck, hc, head, runs, hq, unchecked, walked, invalid, dropRecord]

end check

/-! The dispatcher's walks (R106, R474). -/

section walks
variable {s : State} {ctx : Nat} {l : List Nat}

theorem dispWalk_waits (h : ∃ a ∈ l, ∃ p ∈ rangeTrail s ctx a 8, homeReady s p = false) : dispWalk s ctx l = some s := by
  have blocked : (dispTrail s ctx l).all (homeReady s) = false := by
    obtain ⟨a, ha, p, hp, wait⟩ := h
    exact List.all_eq_false.2 ⟨p, List.mem_flatMap.2 ⟨a, ha, hp⟩, by simp [wait]⟩
  rw [dispWalk, blocked]
  rfl

variable (ready : ∀ a ∈ l, ∀ p ∈ rangeTrail s ctx a 8, homeReady s p = true)
include ready

theorem dispWalk_ready : dispWalk s ctx l = (l.findSome? (fun a => trailBad s ctx a 8)).map (fun p => dispCheck s ctx p.1 p.2) := by
  have free : (dispTrail s ctx l).all (homeReady s) = true := by
    refine List.all_eq_true.2 fun p hp => ?_
    obtain ⟨a, ha, hp⟩ := List.mem_flatMap.1 hp
    exact ready a ha p hp
  rw [dispWalk, free]
  rfl

theorem dispWalk_walked (good : ∀ a ∈ l, trailBad s ctx a 8 = none) : dispWalk s ctx l = none := by
  rw [dispWalk_ready ready, List.findSome?_eq_none_iff.2 good, Option.map_none]

theorem dispWalk_checks {r t : List Nat} {a p code : Nat} (split : l = r ++ a :: t) (good : ∀ x ∈ r, trailBad s ctx x 8 = none)
    (bad : trailBad s ctx a 8 = some (p, code)) : dispWalk s ctx l = some (dispCheck s ctx p code) := by
  have first : l.findSome? (fun a => trailBad s ctx a 8) = some (p, code) := by
    rw [split, List.findSome?_append, List.findSome?_eq_none_iff.2 good, Option.none_or, List.findSome?_cons, bad]
  rw [dispWalk_ready ready, first, Option.map_some]

end walks

/-! Starting a grid (R64, R66). -/

namespace MemoryWork
variable {s t : State}

theorem time (h : MemoryWork s t) : t.time = s.time := (congrArg State.time h.beside :)
theorem grids (h : MemoryWork s t) : t.grids = s.grids := (congrArg State.grids h.beside :)
theorem gridSeq (h : MemoryWork s t) : t.gridSeq = s.gridSeq := (congrArg State.gridSeq h.beside :)

theorem getC_eq (h : MemoryWork s t) (ctx : Nat) : getC t ctx = getC s ctx := by rw [getC, getC, h.ctxs]

theorem getGrid_eq (h : MemoryWork s t) (ctx n : Nat) : getGrid t ctx n = getGrid s ctx n := by rw [getGrid, getGrid, h.grids]

theorem engineRead (s : State) (ctx hint : Nat) (pas : List Nat) : MemoryWork s (engineRead s ctx hint pas) :=
  MemoryWork.foldl (fun s k => homeTouch s ctx hint (k * 128)) _ s

end MemoryWork

theorem badAt_none_iff {s : State} {l : List Nat} : badAt s l = none ↔ ∀ p ∈ l, badAt s [p] = none := by
  unfold badAt
  split
  · simp
  · simp only [List.findSome?_eq_none_iff, List.mem_singleton, forall_eq]

/-- Dependence counter k of a record has come: it can be reached and read, and holds its value or more (R64). -/
def DepCame (s : State) (ctx : Nat) (b : List Byte) (k : Nat) : Prop :=
  ∃ p, counterPa s ctx (depOf b k).1 1 = some p ∧ homeReady s p = true ∧ badAt s ((List.range 8).map (fun i => p + i)) = none ∧
    (depOf b k).2 ≤ ofBytes (rdBytes s p 8)

/-- The dependences that a record uses, and the counters they name. -/
def depsUsed (b : List Byte) : List Nat := (List.range 4).filter (fun k => decide ((depOf b k).1 ≠ 0))
def depCounters (s : State) (ctx : Nat) (b : List Byte) : List Nat := (depsUsed b).filterMap (fun k => counterPa s ctx (depOf b k).1 1)

section deps
variable {s : State} {ctx : Nat} {b : List Byte} (came : ∀ k < 4, (depOf b k).1 ≠ 0 → DepCame s ctx b k)
include came

theorem DepCame.of_used {k : Nat} (hk : k ∈ depsUsed b) : DepCame s ctx b k := by
  simp only [depsUsed, List.mem_filter, List.mem_range, decide_eq_true_eq] at hk
  exact came k hk.1 hk.2

theorem deps_reached : (depsUsed b).find? (fun k => (counterPa s ctx (depOf b k).1 1).isNone) = none := by
  refine List.find?_eq_none.2 fun k hk => ?_
  obtain ⟨p, hp, -⟩ := DepCame.of_used came hk
  simp [hp]

theorem depCounter_read {p : Nat} (hp : p ∈ depCounters s ctx b) :
    homeReady s p = true ∧ badAt s ((List.range 8).map (fun i => p + i)) = none := by
  obtain ⟨k, hk, hp⟩ := List.mem_filterMap.1 hp
  obtain ⟨p', hp', ready, good, -⟩ := DepCame.of_used came hk
  obtain rfl : p' = p := Option.some.inj (hp'.symm.trans hp)
  exact ⟨ready, good⟩

theorem depCounters_ready : (depCounters s ctx b).all (homeReady s) = true :=
  List.all_eq_true.2 fun _ hp => (depCounter_read came hp).1

theorem depCounters_good : badAt s ((depCounters s ctx b).flatMap (fun p => (List.range 8).map (fun i => p + i))) = none := by
  refine badAt_none_iff.2 fun a ha => ?_
  obtain ⟨p, hp, ha⟩ := List.mem_flatMap.1 ha
  exact badAt_none_iff.1 (depCounter_read came hp).2 a ha

theorem deps_values {f : Nat → Bool} (hf : ∀ k p, counterPa s ctx (depOf b k).1 1 = some p →
    f k = decide ((depOf b k).2 ≤ ofBytes (rdBytes s p 8))) : (depsUsed b).all f = true := by
  refine List.all_eq_true.2 fun k hk => ?_
  obtain ⟨p, hp, -, -, value⟩ := DepCame.of_used came hk
  rw [hf k p hp, decide_eq_true value]

end deps

/-- The grid that starts of a record without a collective. -/
def firstGrid (s : State) (order : Nat) (c : Context) (q : Nat) (b : List Byte) : Grid :=
  { grid := freeGrid s c, ctx := c.ctx, queue := q, prio := fld c.qprio (3 * q) 3, order := order, lrec := b, coll := none }

/-- Its context, with the record gone from the queue and the next number set. -/
def startedCtx (s : State) (c : Context) (q : Nat) : Context := { dequeued c q with nextGrid := (freeGrid s c + 1) % 2 ^ 32 }

/-- The state once it has started; `u` is what the reads of its counters left. -/
def gridStarted (s u : State) (c : Context) (q : Nat) (b : List Byte) : State :=
  putC { u with grids := u.grids ++ [firstGrid s u.gridSeq c q b], gridSeq := u.gridSeq + 1 } (startedCtx s c q)

theorem exec_gridStart_starts {s : State} {q va : Nat} {b : List Byte} {c : Context} (hc : getC s c.ctx = some c)
    (head : queueHead s c.ctx q = some (va, b)) (runs : c.run = .running) (checked : fget 0 q c.checked ≠ 0)
    (walked : dispWalk s c.ctx (usedDeps b) = none) (came : ∀ k < 4, (depOf b k).1 ≠ 0 → DepCame s c.ctx b k) (single : (lrecOf b).coll = 0) :
    ∃ u c1, getC u c.ctx = some c1 ∧ u.grids = s.grids ∧ u.gridSeq = s.gridSeq ∧
      exec (.gridStart c.ctx q) s = .next (gridStarted s u c q b) := by
  have reached := deps_reached came
  have ready := depCounters_ready came
  have good := depCounters_good came
  have noColl : readColl s c.ctx (lrecOf b).coll = some (s, none) := by simp [readColl, single]
  have read := MemoryWork.engineRead s c.ctx 0 (depCounters s c.ctx b)
  have listed := (read.getC_eq c.ctx).trans hc
  have popped := popQueue_eq listed q
  have taken : getC (putC (engineRead s c.ctx 0 (depCounters s c.ctx b)) (dequeued c q)) c.ctx = some (dequeued c q) :=
    getC_putC_same (c := dequeued c q) listed
  refine ⟨_, _, taken, read.grids, read.gridSeq, ?_⟩
  rw [exec_gridStart, execGridStart]
  unfold depCounters depsUsed at *
  simp only [head, hc, runs, checked, walked, reached, ready, good, ne_eq, not_true_eq_false, or_self, if_false, Bool.not_true,
    Bool.false_eq_true]
  rw [if_neg]
  · simp only [noColl, popped, taken]
    rfl
  · rw [Bool.not_eq_true', Bool.not_eq_false]
    exact deps_values came fun k p hp => by simp only [hp]

/-- What becomes of the context of a grid that starts, and of its queue. -/
theorem gridStarted_ctx {s u : State} {c c1 : Context} (hu : getC u c.ctx = some c1) (q : Nat) (b : List Byte) :
    ∃ c', getC (gridStarted s u c q b) c.ctx = some c' ∧ c'.nextGrid = (freeGrid s c + 1) % 2 ^ 32 ∧
      fget [] q c'.queues = (fget [] q c.queues).drop 1 :=
  ⟨startedCtx s c q, getC_putC_same (c := startedCtx s c q) hu, rfl, fget_fput_same [] q _ _⟩

/-! Placing clusters (R68, R69, R72). -/

section placed
variable {g : Grid} {r : LRec} {t : Team}

/-- One group of a team is placed: it starts at the record's entry with all its lanes (R34). -/
def addGroup (g : Grid) (r : LRec) (t : Team) (s : State) (q : Nat × Nat) : State :=
  { s with nextId := s.nextId + 1,
           groups := s.groups ++ [ws (newGroup s s.nextId g t q.1 q.2 r.rows r.acc r.par r.depth r.entry (fullMask r.width)) 1 (r64 r.arg)] }

/-- A group as it is placed with a number in a partition. -/
def PlacedAs (g : Grid) (r : LRec) (t : Team) (q : Nat × Nat) (h : Group) : Prop :=
  ∃ (s : State) (gid : Nat), h = ws (newGroup s gid g t q.1 q.2 r.rows r.acc r.par r.depth r.entry (fullMask r.width)) 1 (r64 r.arg)

/-- Placing groups one by one appends each of them. -/
theorem addGroups_eq (l : List (Nat × Nat)) (s : State) : ∃ id gs, l.foldl (addGroup g r t) s = { s with nextId := id, groups := s.groups ++ gs } ∧
    List.Forall₂ (PlacedAs g r t) l gs := by
  induction l generalizing s with
  | nil => exact ⟨s.nextId, [], by simp, .nil⟩
  | cons q l ih =>
    obtain ⟨id, gs, rest, placed⟩ := ih (addGroup g r t s q)
    exact ⟨id, _ :: gs, by rw [List.foldl_cons, rest]; simp [addGroup], .cons ⟨s, s.nextId, rfl⟩ placed⟩

end placed

/-- The team that is placed (R27, R312). -/
def placedTeam (g : Grid) (r : LRec) (cl tid tidx core : Nat) : Team :=
  { tid := tid, ctx := g.ctx, grid := g.grid, cluster := cl, tidx := tidx, core := core, task := false, groups := r.groups, width := r.width,
    lines := teamLines r false, prog := r.lm, depthD := r.depth, bars := fput (0, 0, 0) 0 (r.groups, 0, 0) [],
    chunk := { round := fget 0 (cl * (r.cw * r.ch) + tidx) g.rounds } }

theorem placeTeam_eq (g : Grid) (r : LRec) (cl : Nat) (s : State) (tidx core : Nat) (parts : List Nat) : ∃ id gs,
    placeTeam g r cl s (tidx, core, parts) =
      { s with nextId := id, teams := s.teams ++ [placedTeam g r cl s.nextId tidx core], groups := s.groups ++ gs } ∧
    List.Forall₂ (PlacedAs g r (placedTeam g r cl s.nextId tidx core)) ((List.range parts.length).zip parts) gs := by
  obtain ⟨id, gs, placed, each⟩ := addGroups_eq (g := g) (r := r) (t := placedTeam g r cl s.nextId tidx core)
    ((List.range parts.length).zip parts) { s with nextId := s.nextId + 1, teams := s.teams ++ [placedTeam g r cl s.nextId tidx core] }
  exact ⟨id, gs, placed, each⟩

theorem PlacedAs.start {g : Grid} {r : LRec} {t : Team} {q : Nat × Nat} {h : Group} (placed : PlacedAs g r t q h) :
    h.num = q.1 ∧ h.part = q.2 ∧ h.core = t.core ∧ h.slotA.clause = r.entry ∧ h.slotA.mask = BitVec.ofNat 64 (2 ^ r.width - 1) ∧
      h.slotB.st = .free ∧ h.v = [] ∧ h.m = [] ∧ rs h 1 = BitVec.ofNat 64 r.arg ∧ h.prio = g.prio ∧ h.curPrio = g.prio := by
  obtain ⟨s, gid, rfl⟩ := placed
  exact ⟨rfl, rfl, rfl, rfl, rfl, rfl, rfl, rfl, rs_ws _ 1 1 _, rfl, rfl⟩

theorem placeTeam_holds (s : State) (g : Grid) (r : LRec) (cl tidx core : Nat) (parts : List Nat) : ∃ t gs,
    (placeTeam g r cl s (tidx, core, parts)).teams = s.teams ++ [t] ∧ (placeTeam g r cl s (tidx, core, parts)).groups = s.groups ++ gs ∧
    t.core = core ∧ t.tidx = tidx ∧ t.cluster = cl ∧ t.groups = r.groups ∧ fget (0, 0, 0) 0 t.bars = (r.groups, 0, 0) ∧ t.mem = [] ∧
    gs.length = parts.length ∧ ∀ k h, gs[k]? = some h → h.num = k ∧ some h.part = parts[k]? ∧ h.core = core ∧ h.slotA.clause = r.entry ∧
      h.slotA.mask = BitVec.ofNat 64 (2 ^ r.width - 1) ∧ h.slotB.st = .free ∧ h.v = [] ∧ h.m = [] ∧ rs h 1 = BitVec.ofNat 64 r.arg ∧
      h.prio = g.prio ∧ h.curPrio = g.prio := by
  obtain ⟨id, gs, placed, each⟩ := placeTeam_eq g r cl s tidx core parts
  rw [placed]
  refine ⟨_, gs, rfl, rfl, rfl, rfl, rfl, rfl, fget_fput_same _ 0 _ [], rfl, by simpa using each.length_eq.symm, fun k h hk => ?_⟩
  obtain ⟨hlt, rfl⟩ := List.getElem?_eq_some_iff.1 hk
  obtain ⟨length, at_k⟩ := List.forall₂_iff_get.1 each
  have hpart : k < parts.length := by simpa [← length] using hlt
  obtain ⟨num, part, rest⟩ := (at_k k (by simpa using hpart) hlt).start
  exact ⟨by simpa using num, by simpa [hpart] using part, rest⟩

/-- Placing changes no counts of the list of clusters. -/
theorem placeCluster_dispPassed (s : State) (g : Grid) (die : Nat) (l : List (Nat × List Nat)) :
    (placeCluster s g die l).dispPassed = s.dispPassed := by
  have resident : (residentNow s g.ctx).dispPassed = s.dispPassed := by
    unfold residentNow progressed
    split
    · rfl
    · split <;> rfl
  unfold placeCluster
  extract_lets r s0 n k s1 s2
  have before : s2.dispPassed = s.dispPassed := resident
  refine List.foldlRecOn ((List.range l.length).zip l) (placeTeam g r g.next) (motive := fun u => u.dispPassed = s.dispPassed) before ?_
  rintro u hu ⟨tidx, core, parts⟩ -
  obtain ⟨_, _, placed, -⟩ := placeTeam_eq g r g.next u tidx core parts
  rw [placed]
  exact hu

section placement
variable {s : State} {die : Nat} {cores : List (Nat × List Nat)}

theorem exec_clusterPlacement_head {g : Grid} (head : (dispatchList s).head? = some g) (fits : findRect s (lrecOf g.lrec) = some (die, cores))
    (first : packageDrain s = true ∨ ∀ c ∈ cores, taskFirst s c.1 = false) :
    exec (.clusterPlacement 0) s = .next { placeCluster s g die cores with dispPassed := [] } := by
  have atHead : (dispatchList s)[0]? = some g := List.head?_eq_getElem?.symm.trans head
  have goes : ((!packageDrain s) && cores.any (fun c => taskFirst s c.1)) = false := by
    rcases first with drain | noTask
    · rw [drain]
      rfl
    · rw [List.any_eq_false.2 fun c hc => by simp [noTask c hc], Bool.and_false]
  simp [exec_clusterPlacement, execClusterPlacement, head, atHead, fits, goes]

theorem exec_clusterPlacement_later {pick : Nat} {hd g : Grid} (head : (dispatchList s).head? = some hd) (later : pick ≠ 0)
    (picked : (dispatchList s)[pick]? = some g) (noDrain : packageDrain s = false) (blocked : findRect s (lrecOf hd.lrec) = none)
    (fits : findRect s (lrecOf g.lrec) = some (die, cores)) (noTask : ∀ c ∈ cores, taskFirst s c.1 = false) :
    exec (.clusterPlacement pick) s = .next { placeCluster s g die cores with
      dispPassed := fput 0 g.order 0 (fput 0 hd.order (fget 0 hd.order s.dispPassed + 1) s.dispPassed) } := by
  have goes : cores.any (fun c => taskFirst s c.1) = false := List.any_eq_false.2 fun c hc => by simp [noTask c hc]
  simp [exec_clusterPlacement, execClusterPlacement, head, picked, later, noDrain, blocked, fits, goes, placeCluster_dispPassed]

end placement

/-! Counters of tasks and of complete grids (R57, R59, R67). -/

theorem getElem_toBytes {n x k : Nat} (h : k < (toBytes n x).length) : (toBytes n x)[k] = BitVec.ofNat 8 (x / 2 ^ (8 * k)) := by
  induction n generalizing x k with
  | zero => simp at h
  | succ n ih =>
    cases k with
    | zero => simp [toBytes]
    | succ k =>
      have shifted : x >>> 8 / 2 ^ (8 * k) = x / 2 ^ (8 * (k + 1)) := by
        rw [Nat.shiftRight_eq_div_pow, Nat.div_div_eq_div_mul, ← Nat.pow_add, Nat.mul_succ, Nat.add_comm]
      simp [toBytes, ih, shifted]

theorem completion_time_le (s : State) (line : Nat) : s.time ≤ (completion s line).2 := by
  unfold completion
  dsimp only
  split
  · exact (Nat.le_max_left _ _).trans (Nat.le_add_right _ _)
  · exact Nat.le_add_right _ _

theorem sectorWrite_time_le (s : State) (ctx hint k : Nat) (bytes : List (Nat × Byte)) : s.time ≤ (sectorWrite s ctx hint k bytes).2 := by
  unfold sectorWrite
  refine le_trans (le_of_eq ?_) (completion_time_le _ _)
  rw [((MemoryWork.performWrite _ 0 bytes).trans (MemoryWork.homeStoreTags _ 0 ctx hint (128 * k))).time]
  split
  · exact (MemoryWork.homeTouch s ctx hint (128 * k)).time.symm
  · rfl

/-- An engine's write of some bytes completes no earlier than now. -/
theorem engineWrite_time_le (s : State) (ctx hint : Nat) {bytes : List (Nat × Byte)} (nonempty : bytes ≠ []) :
    s.time ≤ (engineWrite s ctx hint bytes).2 := by
  obtain ⟨p, l, rfl⟩ := List.exists_cons_of_ne_nil nonempty
  rw [engineWrite, sectorsOf, List.map_cons, List.eraseDups_cons, List.foldl_cons]
  refine List.foldlRecOn _ _ (motive := fun a : State × Nat => s.time ≤ a.2) ?_ fun a ha k _ => le_trans ha (Nat.le_max_left _ _)
  exact (sectorWrite_time_le _ _ _ _ _).trans (Nat.le_max_right _ _)

/-- An engine's write of a row stores it and changes no other byte. -/
theorem rdByte_engineWrite_at_ (s : State) (ctx hint off : Nat) (l : List Byte) :
    (∀ i (hi : i < l.length), rdByte (engineWrite s ctx hint (at_ off l)).1 (off + i) = l[i]) ∧
      ∀ a, (a < off ∨ off + l.length ≤ a) → rdByte (engineWrite s ctx hint (at_ off l)).1 a = rdByte s a := by
  simp only [rdByte, engineWrite_mem]
  exact ⟨fun i hi => fget_fputs_at_ (fun _ => mem_flatMap_sectorPart) _ hi,
    fun a ha => fget_fputs_outside_at_ (fun _ => mem_flatMap_sectorPart) _ ha⟩

/-- A counter without an error takes the sum, and nothing else changes but tags and what is in flight (R57). -/
theorem counterAtomic_good {s : State} {ctx p : Nat} (n : Nat) (good : badAt s ((List.range 8).map (fun i => p + i)) = none) :
    MemoryWork s (counterAtomic s ctx p n).1 ∧ s.time ≤ (counterAtomic s ctx p n).2 ∧
    (∀ k, k < 8 → rdByte (counterAtomic s ctx p n).1 (p + k) = BitVec.ofNat 8 ((ofBytes (rdBytes s p 8) + n) / 2 ^ (8 * k))) ∧
    ∀ b, (b < p ∨ p + 8 ≤ b) → rdByte (counterAtomic s ctx p n).1 b = rdByte s b := by
  have add : counterAtomic s ctx p n = engineWrite s ctx 0 (at_ p (toBytes 8 (ofBytes (rdBytes s p 8) + n))) := by
    simp only [counterAtomic, good]
  obtain ⟨inside, outside⟩ := rdByte_engineWrite_at_ s ctx 0 p (toBytes 8 (ofBytes (rdBytes s p 8) + n))
  rw [add]
  refine ⟨MemoryWork.engineWrite _ _ _ _, engineWrite_time_le _ _ _ (by simp [at_, toBytes]), fun k hk => ?_,
    fun b hb => outside b (by simpa using hb)⟩
  rw [inside k (by simpa using hk), getElem_toBytes]

theorem counterOp_reached {s : State} {ctx a p : Nat} (n : Nat) (fail : State → State) (walked : trailBad s ctx a 8 = none)
    (reached : counterPa s ctx a 3 = some p) : counterOp s ctx a n fail = counterAtomic s ctx p n := by
  simp only [counterOp, walked, reached]

theorem counterOp_refused {s : State} {ctx a : Nat} (n : Nat) (fail : State → State) (walked : trailBad s ctx a 8 = none)
    (refused : counterPa s ctx a 3 = none) : counterOp s ctx a n fail = (fail s, 0) := by
  simp only [counterOp, walked, refused]

section tasks
variable {s : State} {id grid n due : Nat} {f : Flight} (hf : getF s id = some f) (past : due < s.time)
include hf past

theorem exec_taskCounterAdd_gone (hop : f.op = .taskAdd grid n [] due) (gone : getGrid s f.ctx grid = none) :
    exec (.taskCounterAdd id) s = .next (dropF s id) := by
  have gone' : getGrid (dropF s id) f.ctx grid = none := gone
  simp [exec_taskCounterAdd, execTaskCounterAdd, hf, hop, Nat.not_le.2 past, gone']

theorem exec_taskCounterAdd_noCounter (hop : f.op = .taskAdd grid n [] due) {g : Grid} (hg : getGrid s f.ctx grid = some g) :
    exec (.taskCounterAdd id) s = .next (putGrid (dropF s id) { g with tasks := g.tasks - n, wct := max g.wct 0 }) := by
  have hg' : getGrid (dropF s id) f.ctx grid = some g := hg
  simp [exec_taskCounterAdd, execTaskCounterAdd, hf, hop, Nat.not_le.2 past, hg']

theorem exec_taskCounterAdd_counter {a p : Nat} (hop : f.op = .taskAdd grid n [(a, n)] due) {g : Grid} (hg : getGrid s f.ctx grid = some g)
    (ready : addReady s f.ctx a = true) (walked : trailBad s f.ctx a 8 = none) (reached : counterPa s f.ctx a 3 = some p)
    (good : badAt s ((List.range 8).map (fun i => p + i)) = none) :
    exec (.taskCounterAdd id) s = .next (putGrid (counterAtomic (dropF s id) f.ctx p n).1
      { g with tasks := g.tasks - n, wct := max g.wct (counterAtomic (dropF s id) f.ctx p n).2 }) := by
  have same := SameTables.dropF s id
  have op (fail : State → State) : counterOp (dropF s id) f.ctx a n fail = counterAtomic (dropF s id) f.ctx p n :=
    counterOp_reached n fail (by rw [same.trailBad_eq, walked]) (by rw [same.counterPa_eq, reached])
  obtain ⟨work, -⟩ := counterAtomic_good (s := dropF s id) (ctx := f.ctx) n (by rw [same.badAt_eq, good])
  have hg' := (work.getGrid_eq f.ctx grid).trans hg
  simp [exec_taskCounterAdd, execTaskCounterAdd, hf, hop, Nat.not_le.2 past, ready, op, hg']

end tasks

section complete
variable {s : State} {g : Grid} (hg : getGrid s g.ctx g.grid = some g) (complete : gridComplete g = true) (past : g.wct < s.time)
include hg complete past

theorem exec_gridDoneAdd_noCounter (noCounter : (lrecOf g.lrec).done = 0) :
    exec (.gridDoneAdd g.ctx g.grid) s = .next (sweep (putGrid s { g with done := true })) := by
  simp [exec_gridDoneAdd, execGridDoneAdd, hg, complete, Nat.not_le.2 past, noCounter]

theorem exec_gridDoneAdd_counter (counter : (lrecOf g.lrec).done ≠ 0) (ready : addReady s g.ctx (lrecOf g.lrec).done = true) :
    exec (.gridDoneAdd g.ctx g.grid) s = .next (sweep (counterOp (putGrid s { g with done := true }) g.ctx (lrecOf g.lrec).done 1
      (fun s => serviceRecord s g.ctx { cls := 0x1C, code := 9, addr := (lrecOf g.lrec).done, eng := 6 } g.grid)).1) := by
  simp [exec_gridDoneAdd, execGridDoneAdd, hg, complete, Nat.not_le.2 past, counter, ready]

end complete

/-- Settles O47: each event of the dispatcher, by the cases of the record, the walk, the cluster, the counter and the grid it is about. -/
theorem dispatcherEvents : Obligations.DispatcherEvents := by
  refine ⟨fun s q va b c hc head runs hq unchecked => ⟨fun s1 => exec_launchRecordCheck_walks hc head runs hq unchecked,
      exec_launchRecordCheck_valid hc head runs hq unchecked, fun code i => exec_launchRecordCheck_invalid hc head runs hq unchecked⟩,
    fun s ctx l => ⟨dispWalk_waits, fun ready => ⟨dispWalk_walked ready, fun r a t p code => dispWalk_checks ready⟩⟩, ?start,
    fun s g die cores => exec_clusterPlacement_head, fun s pick hd g die cores => exec_clusterPlacement_later, placeTeam_holds,
    fun s id grid n due f hf hop past => ⟨exec_taskCounterAdd_gone hf past hop, fun g => exec_taskCounterAdd_noCounter hf past hop⟩,
    ?counter, fun s g hg complete past => ⟨exec_gridDoneAdd_noCounter hg complete past, fun counter ready walked => ?done⟩⟩
  case start =>
    intro s q va b c hc head runs checked walked came single
    obtain ⟨u, c1, hu, grids, gridSeq, run⟩ := exec_gridStart_starts hc head runs checked walked came single
    exact ⟨_, _, run, congrArg (· ++ [firstGrid s u.gridSeq c q b]) grids, rfl, getGrid_freeGrid c, rfl, rfl, gridSeq, rfl, rfl, rfl,
      congrArg (· + 1) gridSeq, gridStarted_ctx hu q b⟩
  case counter =>
    intro s id grid n due a p f g hf hop past ready walked reached good hg
    obtain ⟨work, time, inside, outside⟩ := counterAtomic_good (s := dropF s id) (ctx := f.ctx) n
      (by rw [(SameTables.dropF s id).badAt_eq, good])
    obtain ⟨hctx, hgrid⟩ := getGrid_key hg
    exact ⟨_, exec_taskCounterAdd_counter hf past hop hg ready walked reached good, inside, outside, _,
      getGrid_putGrid_same ((work.getGrid_eq _ _).trans hg) hctx hgrid, rfl, time.trans (Nat.le_max_right _ _)⟩
  case done =>
    have same := SameTables.putGrid s { g with done := true }
    rw [exec_gridDoneAdd_counter hg complete past counter ready]
    rw [← same.trailBad_eq] at walked
    refine ⟨fun p reached => ?_, fun refused => ?_⟩
    · rw [counterOp_reached 1 _ walked (by rw [same.counterPa_eq, reached])]
    · rw [counterOp_refused 1 _ walked (by rw [same.counterPa_eq, refused])]

end Sys2Proof.Proofs
end

section
/-! PROOF. Local loads and stores of the own and of another team (04_memory.md R93 to R97). -/

namespace Sys2Proof.Proofs
open Sys2Proof Sys2Proof.Machine Sys2Proof.Laws

/-! Local words whose lanes all pass and whose lines are present (R96, R97, R301). -/

/-- A word of which no lane fails is performed, and its walks are forgotten (R464, R473). -/
theorem settle_finishLanes_good (s : State) (x : Issue) (good : List Nat) :
    settle x false (finishLanes s x good []) = performed x (clearWalks s x.g.gid) :=
  settle_ok x _

theorem loadRegs_ne_nil (dst lane : Nat) (bytes : List Byte) (pair : Bool) : loadRegs dst lane bytes pair ≠ [] := by
  unfold loadRegs
  split_ifs <;> exact List.cons_ne_nil _ _

theorem flatMap_ne_nil {α β : Type} {l : List α} {f : α → List β} (hl : l ≠ []) (hf : ∀ a, f a ≠ []) : l.flatMap f ≠ [] := by
  obtain ⟨a, r, rfl⟩ := List.exists_cons_of_ne_nil hl
  simp [hf a]

theorem at_ne_nil {off : Nat} {l : List Byte} (h : l ≠ []) : at_ off l ≠ [] := by
  obtain ⟨b, r, rfl⟩ := List.exists_cons_of_ne_nil h
  exact List.ne_nil_of_mem (a := (off + 0, b)) (mem_at_.2 ⟨0, rfl, rfl⟩)

theorem toBytes_ne_nil {z : Nat} (hz : 0 < z) (x : Nat) : toBytes z x ≠ [] :=
  List.ne_nil_of_length_pos (by rwa [length_toBytes])

/-- Bytes that some lane stores. -/
theorem storedBytes_ne_nil {good : List (Nat × Nat)} (some_ : good ≠ []) (w : MWord) (val : Nat → Nat) :
    good.flatMap (fun p => at_ p.2 (toBytes (widthM w) (val p.1))) ≠ [] :=
  flatMap_ne_nil some_ fun _ => at_ne_nil (toBytes_ne_nil (Nat.two_pow_pos _) _)

section localWords
variable {s : State} {x : Issue} {w : MWord} {t : Team} {good : List (Nat × Nat)} (ht : localTeam s x w = some t)
  (unordered : orderScope w = none)
include ht unordered

section loads
variable (pass : localLanes s x w true = (good, [], none)) (h : Issues s (.ldL w) x) (some_ : good ≠ [])
include pass h some_

/-- A load of the own team is fixed at the port. -/
theorem exec_ldL_own (own : t.tid = x.g.team) (quiet : acquiring s x.g.gid s.nextId = false) :
    exec (.ldL w) s = .next (performed x (clearWalks (launchOp (noteLines s x.g.gid x.b
      (good.flatMap (fun p => (linesOf p.2 (widthM w)).map (localLine t.tid)))) x.g.gid x.g.ctx x.g.core .loads
      (.value (good.flatMap (fun p => loadRegs w.data.toNat p.1 (lrd t p.2 (widthM w)) false)))) x.g.gid)) := by
  have regs : good.flatMap (fun p => loadRegs w.data.toNat p.1 (lrd t p.2 (widthM w)) false) ≠ [] :=
    flatMap_ne_nil some_ fun _ => loadRegs_ne_nil _ _ _ _
  rw [exec_ldL, execLdL, runWord_normal h (m := w.msel.toNat) (p := true) rfl rfl]
  simp only [pass, ht, own, quiet, unordered, Option.isSome_none, Bool.false_eq_true, if_true, if_false, List.isEmpty_iff, regs,
    settle_finishLanes_good]

/-- A load of another team travels there. -/
theorem exec_ldL_remote (other : t.tid ≠ x.g.team) :
    exec (.ldL w) s = .next (performed x (clearWalks (launchOp (noteLines s x.g.gid x.b
      (good.flatMap (fun p => (linesOf p.2 (widthM w)).map (localLine t.tid)))) x.g.gid x.g.ctx x.g.core .loads
      (.remoteLoad t.tid (good.map (fun p => { lane := p.1, va := p.2, pas := [] })) w.data.toNat (widthM w) false)) x.g.gid)) := by
  rw [exec_ldL, execLdL, runWord_normal h (m := w.msel.toNat) (p := true) rfl rfl]
  simp only [pass, ht, other, unordered, Option.isSome_none, Bool.false_eq_true, if_false, List.isEmpty_iff, some_, settle_finishLanes_good]

end loads

section stores
variable (pass : localLanes s x w false = (good, [], none)) (h : Issues s (.stL w) x) (some_ : good ≠ []) {bytes : List (Nat × Byte)}
  (hb : bytes = good.flatMap (fun p => at_ p.2 (toBytes (widthM w) (rv x.g w.data.toNat p.1).toNat)))
include pass h some_ hb

/-- A store of the own team is performed at the port. -/
theorem exec_stL_own (own : t.tid = x.g.team) (quiet : acquiring s x.g.gid s.nextId = false) :
    exec (.stL w) s = .next (performed x (clearWalks (wakeLocal (putT s (lwr t bytes)) t.tid x.g.gid (bytes.map Prod.fst)) x.g.gid)) := by
  have nonempty : bytes ≠ [] := hb ▸ storedBytes_ne_nil some_ w fun l => (rv x.g w.data.toNat l).toNat
  rw [exec_stL, execStL, runWord_normal h (m := w.msel.toNat) (p := true) rfl rfl]
  simp only [pass, ht, own, quiet, unordered, Option.isSome_none, Option.bind_none, Bool.false_eq_true, false_and, if_true, if_false, ← hb,
    List.isEmpty_iff, nonempty, settle_finishLanes_good]

/-- A store of another team travels there. -/
theorem exec_stL_remote (other : t.tid ≠ x.g.team) :
    exec (.stL w) s = .next (performed x (clearWalks (launchOp (putT s { t with inbound := t.inbound + 1 }) x.g.gid x.g.ctx x.g.core .stcomp
      (.remoteStore t.tid (widthM w) bytes)) x.g.gid)) := by
  have nonempty : bytes ≠ [] := hb ▸ storedBytes_ne_nil some_ w fun l => (rv x.g w.data.toNat l).toNat
  rw [exec_stL, execStL, runWord_normal h (m := w.msel.toNat) (p := true) rfl rfl]
  simp only [pass, ht, other, unordered, Option.isSome_none, Option.bind_none, Bool.false_eq_true, and_false, if_false, ← hb,
    List.isEmpty_iff, nonempty, settle_finishLanes_good]

end stores
end localWords

/-! Bytes of local memory (R96). -/

theorem lrd_one (t : Team) (a : Nat) : lrd t a 1 = [fget 0#8 a t.mem] := rfl

theorem lrd_lwr_of_forall_ne (t : Team) {l : List (Nat × Byte)} {a : Nat} (h : ∀ p ∈ l, p.1 ≠ a) : lrd (lwr t l) a 1 = lrd t a 1 := by
  rw [lrd_one, lrd_one, lwr, fget_fputs_of_forall_ne 0#8 h]

theorem lrd_lwr_last (t : Team) (l : List (Nat × Byte)) (a : Nat) (b : Byte) : lrd (lwr t (l ++ [(a, b)])) a 1 = [b] := by
  have last : fget 0#8 a (fputs 0#8 (l ++ [(a, b)]) t.mem) = b := by
    rw [fputs_append]
    exact fget_fput_same 0#8 a b _
  rw [lrd_one, lwr, last]

/-- The outcomes of R93's check of a range. -/
theorem localBad_cases (t : Team) (off n : Nat) : (t.lines * 128 < off + n → localBad t off n = some 1) ∧
    (off + n ≤ t.lines * 128 → stackHit t off n = true → localBad t off n = some 2) ∧
    (off + n ≤ t.lines * 128 → stackHit t off n = false → localBad t off n = none) := by
  refine ⟨fun outside => if_pos outside, fun inside hit => ?_, fun inside miss => ?_⟩
  · rw [localBad, lmSize, if_neg (Nat.not_lt_of_le inside), if_pos hit]
  · rw [localBad, lmSize, if_neg (Nat.not_lt_of_le inside), miss]
    rfl

/-- Settles O33: each local word by whose team it reaches, then the bytes and ranges of local memory. -/
theorem localLoadsAndStores : Obligations.LocalLoadsAndStores := by
  refine ⟨?loads, ?stores, fun t l a b h => ⟨lrd_lwr_of_forall_ne t h, lrd_lwr_last t l a b⟩, localBad_cases⟩
  case loads =>
    rintro s x w t good _ ht pass rfl unordered h
    exact ⟨fun own quiet some_ => exec_ldL_own ht unordered pass h some_ own quiet,
      fun other some_ => exec_ldL_remote ht unordered pass h some_ other⟩
  case stores =>
    rintro s x w t good _ bytes ht pass rfl hb some_ unordered h
    exact ⟨exec_stL_own ht unordered pass h some_ hb, exec_stL_remote ht unordered pass h some_ hb⟩

end Sys2Proof.Proofs
end

section
/-! PROOF. A store at its home (04_memory.md R107, 05_ordering.md R127): the write that it sends on to the tower is an operation of its own, whose
serial number is the state's next one. -/

namespace Sys2Proof.Proofs
open Sys2Proof Sys2Proof.Machine Sys2Proof.Laws

/-- A one-byte store with hint `.na`, which its home passes on to the tower. -/
def passingStore : Flight :=
  { id := 5, word := 5, gid := soloGid, ctx := 1, core := 0, cls := .stcomp, op := .store [(64, 1#8)] none 1 false }

/-- A state with this store in flight that gives the store's own serial number to the next operation. -/
def staleSerial : State := { State.reset with groups := [soloGroup false 0#64], nextId := 5, pend := [passingStore] }

/-- Once the store is performed, its serial number stands for the write to the tower. -/
theorem getF_staleSerial_performed :
    (getF (outState staleSerial (exec (.homeStorePerform 5) staleSerial)) 5).map (fun f => f.op) = some (.towerWrite 0) := by
  rw [exec_homeStorePerform]
  decide +kernel

/-- Refutes O32: of a store that is performed whole it says that no operation of its serial number remains. In `staleSerial`, where that number is
the next to be given out, the write to the tower takes it. (The statement does not ask that the state's next number be above those in flight.) -/
theorem not_loadsAndStoresAtTheirHomes : ¬ Obligations.LoadsAndStoresAtTheirHomes := by
  unfold Obligations.LoadsAndStoresAtTheirHomes
  rintro ⟨-, -, store, -⟩
  have inFlight : getF staleSerial 5 = some passingStore := rfl
  have turn : storeTurn staleSerial passingStore [64] false = true := by decide +kernel
  have whole : storeFill staleSerial passingStore 1 [64] = false := by decide +kernel
  obtain ⟨t, _, run, -, -, -, ends, -⟩ :=
    store staleSerial 5 1 passingStore (soloGroup false 0#64) [(64, 1#8)] none false inFlight rfl rfl turn whole
  obtain ⟨-, gone⟩ := ends rfl
  have towerWrite := getF_staleSerial_performed
  rw [run, outState_next, gone] at towerWrite
  cases towerWrite

end Sys2Proof.Proofs
end

section
/-! PROOF. Recalls, beats, acknowledgements, page walks, remote stores and invalidations (04_memory.md R104, R106, R123, R124 and the rules
they are with). -/

namespace Sys2Proof.Proofs
open Sys2Proof Sys2Proof.Machine Sys2Proof.Laws

/-! Copies that a core drops (R104, R106, R476). -/

/-- Does a core hold a copy of a line that passes `p`? -/
def copyOf (core : Nat) (p : Nat → Bool) (x : L1Line) : Bool := x.core == core && p x.line

/-- Dropping copies changes the core's L1 lines, its instruction cache, and tags at the homes. -/
theorem dropCopies_work (s : State) (core : Nat) (p : Nat → Bool) : ∃ fc ic, besideTags (dropCopies s core p) =
    besideTags { s with freeCount := fc, icache := ic, l1 := s.l1.filter (fun x => !copyOf core p x) } := by
  unfold dropCopies
  extract_lets mine pins s1
  refine List.foldlRecOn pins _ (motive := fun t => ∃ fc ic, besideTags t =
    besideTags { s with freeCount := fc, icache := ic, l1 := s.l1.filter (fun x => !copyOf core p x) }) ⟨_, _, rfl⟩ ?_
  rintro t ⟨fc, ic, ht⟩ l -
  have again (fc' : Nat) (ic' : List ILine) : besideTags { t with freeCount := fc', icache := ic' } =
      besideTags { s with freeCount := fc', icache := ic', l1 := s.l1.filter (fun x => !copyOf core p x) } :=
    congrArg (fun u => { u with freeCount := fc', icache := ic' }) ht
  split
  · obtain ⟨fc', h⟩ := iInstall_work t core l.line false (some l.pinCtx)
    exact ⟨_, _, h.trans (again _ _)⟩
  · exact ⟨_, _, again t.freeCount _⟩

section dropped
variable (s : State) (core : Nat) (p : Nat → Bool)

theorem dropCopies_l1 : (dropCopies s core p).l1 = s.l1.filter (fun x => !copyOf core p x) := by
  obtain ⟨_, _, h⟩ := dropCopies_work s core p
  exact (congrArg State.l1 h :)

theorem dropCopies_groups : (dropCopies s core p).groups = s.groups := by
  obtain ⟨_, _, h⟩ := dropCopies_work s core p
  exact (congrArg State.groups h :)

theorem dropCopies_blind : (dropCopies s core p).blind = s.blind := by
  obtain ⟨_, _, h⟩ := dropCopies_work s core p
  exact (congrArg State.blind h :)

theorem dropCopies_beatTime : (dropCopies s core p).beatTime = s.beatTime := by
  obtain ⟨_, _, h⟩ := dropCopies_work s core p
  exact (congrArg State.beatTime h :)

theorem mem_dropCopies_l1 {x : L1Line} : x ∈ (dropCopies s core p).l1 ↔ x ∈ s.l1 ∧ ¬ (x.core = core ∧ p x.line = true) := by
  simp only [dropCopies_l1, List.mem_filter, copyOf, Bool.not_eq_true', Bool.and_eq_false_iff, beq_eq_false_iff_ne, not_and_or,
    Bool.not_eq_true, ne_eq]

end dropped

/-! Recalls and beats (R131, R476). -/

theorem exec_l1RecallReceive_recall {s : State} {id core line cap : Nat} {f : Flight} (hf : getF s id = some f)
    (hop : f.op = .recall core line cap) : exec (.l1RecallReceive id) s = .next (dropCopies
      (dropF { s with recallSeen := fput 0 (recallKey line core) (fget 0 (recallKey line core) s.recallSeen + 1) s.recallSeen } id) core
      (fun l => l / 8 == line)) := by
  simp only [exec_l1RecallReceive, execL1RecallReceive, hf, hop]

theorem exec_recallBeat_due {s : State} {die : Nat} (hdie : die < 4) (due : fget 0 die s.beatSent + 40 ≤ s.time) :
    exec (.recallBeat die) s = .next { s with beatSent := fput 0 die s.time s.beatSent,
                                              beatSeq := fputs 0 (s.recallSent.filter (fun p => keyDie p.1 == die)) s.beatSeq } := by
  rw [exec_recallBeat, execRecallBeat, if_neg (by omega)]

/-- A correctable event changes counters and the log alone. -/
theorem correct_eq (s : State) (k : Nat) (u : Option CulletUnit) :
    ∃ c ue lg, correct s k u = { s with corr := c, unitEvents := ue, log := lg } := by
  unfold correct
  dsimp only
  split
  · exact ⟨_, _, _, rfl⟩
  · split <;> exact ⟨_, _, _, rfl⟩

/-- A core that counts a die's beats as missing marks it so, keeps its beat times, and holds none of the die's lines. -/
theorem goBlind_holds (s : State) (core die : Nat) : fget 0 (core * 4 + die) (goBlind s core die).blind = 1 ∧
    (goBlind s core die).beatTime = s.beatTime ∧ ∀ x ∈ (goBlind s core die).l1, ¬ (x.core = core ∧ dieOf (x.line * 128) = die) := by
  obtain ⟨c, ue, lg, counted⟩ := correct_eq { s with blind := fput 0 (core * 4 + die) 1 s.blind } 10 (beatLink core die)
  unfold goBlind
  dsimp only
  rw [counted]
  refine ⟨?_, dropCopies_beatTime _ _ _, fun x hx => ?_⟩
  · rw [dropCopies_blind]
    exact fget_fput_same 0 _ 1 s.blind
  · have kept := ((mem_dropCopies_l1 _ _ _).1 hx).2
    rwa [beq_iff_eq] at kept

/-- The recalls that a beat tells of and that the core has not seen. -/
def beatGaps (s : State) (core die : Nat) : List (Nat × Nat) :=
  s.beatSeq.filter (fun p => keyDie p.1 == die && keyCore p.1 == core && decide (fget 0 p.1 s.recallSeen < p.2))

theorem mem_beatGaps {s : State} {core die : Nat} {p : Nat × Nat} :
    p ∈ beatGaps s core die ↔ p ∈ s.beatSeq ∧ keyDie p.1 = die ∧ keyCore p.1 = core ∧ fget 0 p.1 s.recallSeen < p.2 := by
  simp only [beatGaps, List.mem_filter, Bool.and_eq_true, beq_iff_eq, decide_eq_true_eq, and_assoc]

section beats
variable {s : State} {core die : Nat} (hcore : core < 104) (hdie : die < 4)
include hcore hdie

section received
variable (sent : fget 0 die s.beatSent ≠ 0) (soon : s.time ≤ fget 0 die s.beatSent + 30)
include sent soon

theorem exec_beatReceive_whole (whole : beatGaps s core die = []) : exec (.beatReceive core die) s = .next
    { s with beatTime := fput 0 (core * 4 + die) s.time s.beatTime, blind := fput 0 (core * 4 + die) 0 s.blind } := by
  rw [exec_beatReceive, execBeatReceive]
  unfold beatGaps at whole
  dsimp only
  rw [if_neg (by omega), whole]
  rfl

theorem exec_beatReceive_gap (gap : beatGaps s core die ≠ []) : ∃ u, exec (.beatReceive core die) s = .next (goBlind u core die) ∧
    u.beatTime = fput 0 (core * 4 + die) s.time s.beatTime := by
  rw [exec_beatReceive, execBeatReceive]
  unfold beatGaps at gap
  dsimp only
  rw [if_neg (by omega), if_neg (by rwa [List.isEmpty_iff])]
  exact ⟨_, rfl, rfl⟩

theorem beatReceive_holds : ∃ t, exec (.beatReceive core die) s = .next t ∧ fget 0 (core * 4 + die) t.beatTime = s.time ∧
    ((∀ p ∈ s.beatSeq, keyDie p.1 = die → keyCore p.1 = core → p.2 ≤ fget 0 p.1 s.recallSeen) →
      fget 0 (core * 4 + die) t.blind = 0 ∧ t.l1 = s.l1) ∧
    ((∃ p ∈ s.beatSeq, keyDie p.1 = die ∧ keyCore p.1 = core ∧ fget 0 p.1 s.recallSeen < p.2) →
      fget 0 (core * 4 + die) t.blind = 1 ∧ ∀ x ∈ t.l1, ¬ (x.core = core ∧ dieOf (x.line * 128) = die)) := by
  by_cases whole : beatGaps s core die = []
  · refine ⟨_, exec_beatReceive_whole hcore hdie sent soon whole, fget_fput_same 0 _ s.time _, fun _ => ⟨fget_fput_same 0 _ 0 _, rfl⟩, ?_⟩
    rintro ⟨p, hp, gap⟩
    exact absurd (mem_beatGaps.2 ⟨hp, gap⟩) (by simp [whole])
  · obtain ⟨u, run, beatTime⟩ := exec_beatReceive_gap hcore hdie sent soon whole
    obtain ⟨blind, kept, none_⟩ := goBlind_holds u core die
    refine ⟨_, run, ?_, fun all => ?_, fun _ => ⟨blind, none_⟩⟩
    · rw [kept, beatTime, fget_fput_same]
    · obtain ⟨p, hp⟩ := List.exists_mem_of_ne_nil _ whole
      obtain ⟨hs, ofDie, ofCore, unseen⟩ := mem_beatGaps.1 hp
      exact absurd unseen (Nat.not_lt_of_le (all p hs ofDie ofCore))

end received

theorem exec_beatTimeout_due (late : fget 0 (core * 4 + die) s.beatTime + 100 ≤ s.time) (seeing : fget 0 (core * 4 + die) s.blind = 0) :
    exec (.beatTimeout core die) s = .next (goBlind s core die) := by
  rw [exec_beatTimeout, execBeatTimeout]
  dsimp only
  rw [if_neg (by omega)]

end beats

/-! Acknowledgements (R106, R135, R330). -/

section acknowledged
variable {s : State} {id line : Nat} {f : Flight} (hf : getF s id = some f)
include hf

theorem exec_towerWriteAck_towerWrite (hop : f.op = .towerWrite line) :
    exec (.towerWriteAck id) s = .next (setHome (dropF s id) line { home s line with pend := (home s line).pend - 1 }) := by
  simp only [exec_towerWriteAck, execTowerWriteAck, hf, hop]

theorem exec_towerWriteAck_writeBack (hop : f.op = .writeBack line) : exec (.towerWriteAck id) s = .next (dropF s id) := by
  simp only [exec_towerWriteAck, execTowerWriteAck, hf, hop]

theorem exec_cxlWriteAck_cxlWrite (hop : f.op = .cxlWrite line) : exec (.cxlWriteAck id) s = .next (dropF s id) := by
  simp only [exec_cxlWriteAck, execCxlWriteAck, hf, hop]

end acknowledged

/-! Page walks (R123, R124, R474). -/

theorem besideTags_engineRead (s : State) (ctx hint : Nat) (pas : List Nat) : besideTags (engineRead s ctx hint pas) = besideTags s :=
  List.foldlRecOn _ _ (motive := fun t => besideTags t = besideTags s) rfl fun _ h _ _ => (besideTags_homeTouch _ _ _ _).trans h

theorem getG_engineRead (s : State) (ctx hint : Nat) (pas : List Nat) (gid : Nat) : getG (engineRead s ctx hint pas) gid = getG s gid := by
  have groups : (engineRead s ctx hint pas).groups = s.groups := (congrArg State.groups (besideTags_engineRead s ctx hint pas) :)
  rw [getG, getG, groups]

/-- The bytes of the table entries that a walk reads. -/
def walkBytes (s : State) (ctx page : Nat) : List Nat :=
  (walkTrail s ctx (page * 65536)).flatMap (fun a => (List.range 8).map (fun i => a + i))

section walks
variable {s : State} {id unit ctx page : Nat} {who : List (Nat × Bool)} {f : Flight} (hf : getF s id = some f)
  (hop : f.op = .walk unit ctx page who) (turn : walkTurn s unit id = true)
  (ready : ∀ a ∈ walkTrail s ctx (page * 65536), homeReady s a = true)
include hf hop turn ready

/-- A walk that meets a table entry in error is a machine check of those that wait for it. -/
theorem exec_pageWalkComplete_error {a c : Nat} (bad : badAt s (walkBytes s ctx page) = some (a, c)) :
    exec (.pageWalkComplete id) s = .next (who.foldl (walkCheck ctx c a) (dropF s id)) := by
  unfold walkBytes at bad
  simp only [exec_pageWalkComplete, execPageWalkComplete, hf, hop, turn, List.all_eq_true.2 ready, bad, Bool.not_true, Bool.or_self,
    Bool.false_eq_true, if_false]

section good
variable (good : badAt s (walkBytes s ctx page) = none)
include good

/-- A walk that finds a page gives it to those that wait for it. -/
theorem exec_pageWalkComplete_page {va pa size r : Nat} {m : Bool} (found : walk s ctx (page * 65536) = .page va pa size r m) :
    exec (.pageWalkComplete id) s = .next (who.foldl
      (walkFound unit { unit := unit, ctx := ctx, va := va, size := size, pa := pa, rights := r, rmost := m })
      (engineRead (dropF s id) ctx 0 (walkTrail s ctx (page * 65536)))) := by
  unfold walkBytes at good
  simp only [exec_pageWalkComplete, execPageWalkComplete, hf, hop, turn, List.all_eq_true.2 ready, good, found, Bool.not_true, Bool.or_self,
    Bool.false_eq_true, if_false]

/-- A walk that finds none tells those that wait for it. -/
theorem exec_pageWalkComplete_bad {c i : Nat} (missing : walk s ctx (page * 65536) = .bad c i) :
    exec (.pageWalkComplete id) s = .next (who.foldl (walkFailed page c i) (engineRead (dropF s id) ctx 0 (walkTrail s ctx (page * 65536)))) := by
  unfold walkBytes at good
  simp only [exec_pageWalkComplete, execPageWalkComplete, hf, hop, turn, List.all_eq_true.2 ready, good, missing, Bool.not_true, Bool.or_self,
    Bool.false_eq_true, if_false]

end good
end walks

/-- A page enters both levels of the TLB of the group that waited for it. -/
theorem walkFound_group {s : State} {gid : Nat} {h : Group} (hg : getG s gid = some h) (unit : Nat) (t : Tlb) (b : Bool) :
    walkFound unit t s (gid, b) = tlbAdd (tlbAdd s { t with unit := h.core }) { t with unit := h.core, part := some h.part } := by
  simp only [walkFound, hg]

theorem walkFailed_group {s : State} {gid : Nat} {h : Group} (hg : getG s gid = some h) (page c i : Nat) (b : Bool) :
    walkFailed page c i s (gid, b) = putG s { h with walkFail := h.walkFail ++ [(b, page, c, i)] } := by
  simp only [walkFailed, hg]

/-! Remote stores (R97, R135, R479, R484). -/

theorem absentLine_one (t : Team) (a : Nat) : absentLine t a 1 = none ↔ isAbsent t (a / 128) = false := by
  have lines : linesOf a 1 = [a / 128] := by simp [linesOf]
  simp [absentLine, lines]

section remote
variable {s : State} {id team z : Nat} {bytes : List (Nat × Byte)} {f : Flight} {t : Team} (hf : getF s id = some f)
  (hop : f.op = .remoteStore team z bytes) (turn : remoteTurn s f team = true) (ht : getT s team = some t)
include hf hop turn ht

theorem exec_remoteStoreAck_present (alive : t.retired = false) (present : ∀ p ∈ bytes, absentLine t p.1 1 = none) :
    exec (.remoteStoreAck id) s = .next (settleArrivals (dropF (wakeLocal (putT s { lwr t bytes with inbound := t.inbound - 1 }) team f.gid
      (bytes.map Prod.fst)) id) f.gid) := by
  have none_ : bytes.find? (fun p => isAbsent t (p.1 / 128)) = none :=
    List.find?_eq_none.2 fun p hp => by simp [(absentLine_one t p.1).1 (present p hp)]
  simp only [exec_remoteStoreAck, execRemoteStoreAck, hf, hop, turn, ht, alive, none_, Bool.not_true, Bool.false_eq_true, if_false]
  rfl

theorem exec_remoteStoreAck_absent {q : Nat × Byte} (alive : t.retired = false) (first : bytes.find? (fun p => isAbsent t (p.1 / 128)) = some q)
    (faulted : inRange t (q.1 / 128) = true) : exec (.remoteStoreAck id) s = .next
      (addDue (settleArrivals (dropF (putT s { t with inbound := t.inbound - 1 }) id) f.gid) f
        { cls := .stcomp, info := { cls := 0x10, code := 4, addr := accessStart bytes z q.1, eng := 1 } } 5) := by
  simp only [exec_remoteStoreAck, execRemoteStoreAck, hf, hop, turn, ht, alive, first, faulted, Bool.not_true, Bool.false_eq_true, if_false,
    if_true]

theorem exec_remoteStoreAck_retired (gone : t.retired = true) : exec (.remoteStoreAck id) s = .next (sweep (settleArrivals (dropF (putT
    (serviceRecord s t.ctx { cls := 0x1D, code := 1, eng := 1, unit := t.tidx } 0) { t with inbound := t.inbound - 1 }) id) f.gid)) := by
  simp only [exec_remoteStoreAck, execRemoteStoreAck, hf, hop, turn, ht, gone, Bool.not_true, Bool.false_eq_true, if_false, if_true]

end remote

/-- In the bytes of accesses of one width, the access of a byte starts at the byte that stands first in it. -/
theorem accessStart_getElem? {bytes : List (Nat × Byte)} {z k j : Nat} {p q : Nat × Byte} (hj : j < z) (distinct : (bytes.map Prod.fst).Nodup)
    (hp : bytes[z * k]? = some p) (hq : bytes[z * k + j]? = some q) : accessStart bytes z q.1 = p.1 := by
  obtain ⟨hlt, rfl⟩ := List.getElem?_eq_some_iff.1 hq
  have place : bytes.findIdx (fun r => r.1 == bytes[z * k + j].1) = z * k + j := by
    refine (List.findIdx_eq hlt).2 ⟨beq_self_eq_true _, fun i hi => ?_⟩
    have length : (bytes.map Prod.fst).length = bytes.length := List.length_map _
    have other : (bytes.map Prod.fst)[i] ≠ (bytes.map Prod.fst)[z * k + j] := fun same => by
      have := distinct.getElem_inj_iff.1 same
      omega
    simpa using other
  have start : (z * k + j) / z * z = z * k := by
    rw [Nat.mul_add_div (by omega), Nat.div_eq_of_lt hj, Nat.add_zero, Nat.mul_comm]
  rw [accessStart, place, start, hp]

/-! Invalidations and completion times (R438, R133). -/

theorem exec_completionTimePassed_least {s : State} {t : Nat} (first : least ((recordedTimes s).filter (fun t => decide (s.time ≤ t))) = some t) :
    ∃ u, exec .completionTimePassed s = .next u ∧ u.time = t + 1 ∧ u.mem = s.mem ∧ u.groups = s.groups := by
  simp only [exec_completionTimePassed, execCompletionTimePassed, first]
  exact ⟨_, rfl, rfl, rfl, rfl⟩

/-- Settles O50: each event, by what it does to the copies, the beats, the homes, the TLB, the team and the tables. -/
theorem coherenceEvents : Obligations.CoherenceEvents := by
  refine ⟨?recalled, fun s die hdie due => ⟨_, exec_recallBeat_due hdie due, fget_fput_same 0 die s.time _, rfl, rfl⟩,
    fun s core die => beatReceive_holds, fun s core die hcore hdie late seeing => ?timeout,
    fun s id line f hf => ⟨exec_towerWriteAck_towerWrite hf, exec_towerWriteAck_writeBack hf, exec_cxlWriteAck_cxlWrite hf⟩, ?walk,
    fun s id team z bytes f t hf hop turn ht => ⟨exec_remoteStoreAck_present hf hop turn ht, fun q => exec_remoteStoreAck_absent hf hop turn ht,
      exec_remoteStoreAck_retired hf hop turn ht⟩,
    fun bytes z k j p q => accessStart_getElem?, fun s busy ready => ?invalidation, fun s t => exec_completionTimePassed_least⟩
  case recalled =>
    intro s id core line cap f hf hop
    refine ⟨_, exec_l1RecallReceive_recall hf hop, fun x hx => ?_, fun x hx other => ?_, ?_, dropCopies_groups _ _ _⟩
    · have kept := ((mem_dropCopies_l1 _ _ _).1 hx).2
      rwa [beq_iff_eq] at kept
    · exact (mem_dropCopies_l1 _ _ _).2 ⟨hx, by rwa [beq_iff_eq]⟩
    · rw [dropCopies_mem, dropF_mem]
  case timeout =>
    obtain ⟨blind, -, dropped⟩ := goBlind_holds s core die
    exact ⟨_, exec_beatTimeout_due hcore hdie late seeing, blind, dropped⟩
  case walk =>
    rintro s _ id unit ctx page who f _ hf hop turn ready rfl rfl
    refine ⟨?_, fun a c => exec_pageWalkComplete_error hf hop turn ready⟩
    rintro good gid b h rfl hg
    have waits : getG (engineRead (dropF s id) ctx 0 (walkTrail s ctx (page * 65536))) gid = some h := by rw [getG_engineRead]; exact hg
    refine ⟨fun va pa size r m found => ?_, fun c i missing => ?_⟩
    · rw [exec_pageWalkComplete_page hf hop turn ready good found, List.foldl_cons, List.foldl_nil, walkFound_group waits]
    · rw [exec_pageWalkComplete_bad hf hop turn ready good missing, List.foldl_cons, List.foldl_nil, walkFailed_group waits]
  case invalidation =>
    simp only [exec_accessTableInvalidationDone, execAccessTableInvalidationDone, busy, ready, Bool.and_self, if_true]

end Sys2Proof.Proofs
end

section
/-! PROOF. Far atomics at their home and at the tower, and matrix passes (04_memory.md R116, R117, 12_matrix_training.md R341 to R346). -/

namespace Sys2Proof.Proofs
open Sys2Proof Sys2Proof.Machine Sys2Proof.Laws

/-! Bytes that a write stores, by address. -/

/-- A read after writes finds the last write to its key. -/
theorem fget_fputs {β : Type} [DecidableEq β] (d : β) (k : Nat) (l : List (Nat × β)) (m : FMap β) :
    fget d k (fputs d l m) = (lastAt k l).getD (fget d k m) := by
  induction l using List.reverseRecOn with
  | nil => rfl
  | append_singleton l p ih =>
    have last : lastAt k (l ++ [p]) = if p.1 = k then some p.2 else lastAt k l := by rw [lastAt, List.foldl_append]; rfl
    have step : fget d k (fputs d (l ++ [p]) m) = if k = p.1 then p.2 else fget d k (fputs d l m) := by
      rw [fputs_append]
      exact fget_fput d p.1 k p.2 _
    rw [step, last, ih]
    by_cases hk : k = p.1
    · simp [hk]
    · simp [hk, Ne.symm hk]

/-! Far atomics (R116, R117, R373). -/

/-- The state once the tower alone holds a line: the home's copy has gone there (R116). -/
def towerHolds (s : State) (line : Nat) : State := match l2Find s line with | some e => l2Evict s e | none => s

section far
variable {s : State} {id st : Nat} {f : Flight} {l : Lane} {bfp an ap : Bool} {v : List Byte} {c : Option FInfo} (hf : getF s id = some f)
include hf

/-- An event on a far atomic in flight runs on its fields. -/
theorem farEvent_far (hop : f.op = .far l bfp v st c an ap)
    (h : Flight → Lane → Bool → List Byte → Nat → Option FInfo → Bool → Bool → State) :
    farEvent id s h = .next (h f l bfp v st c an ap) := by
  simp only [farEvent, hf, hop]

/-- In its turn a far atomic leaves its home for the tower, which holds the line alone. -/
theorem exec_farAtomicAtHome_first (hop : f.op = .far l bfp v 0 c an ap) (turn : engineTurn s f = true)
    (first : ∀ o ∈ s.pend, ∀ m b w k a p, o.gid = f.gid → o.id < f.id → o.op = .far m b w 0 k a p → farMeet l m = false) :
    exec (.farAtomicAtHome id) s = .next
      (putF (setHome (towerHolds s (l.pas.headD 0 / 1024)) (l.pas.headD 0 / 1024)
          { home (towerHolds s (l.pas.headD 0 / 1024)) (l.pas.headD 0 / 1024) with
            pend := (home (towerHolds s (l.pas.headD 0 / 1024)) (l.pas.headD 0 / 1024)).pend + 1 })
        { f with op := .far l bfp v 1 c an ap }) := by
  rw [exec_farAtomicAtHome, execFarAtomicAtHome, farEvent_far hf hop]
  refine congrArg _ (if_neg ?_)
  simp only [turn, ne_eq, not_true_eq_false, Bool.not_true, Bool.false_eq_true, false_or, Bool.not_eq_true', Bool.not_eq_false,
    List.all_eq_true]
  intro o ho
  by_cases earlier : o.gid = f.gid ∧ o.id < f.id
  · split
    · next m b w k a p hm => simp [first o ho m b w k a p earlier.1 earlier.2 hm]
    · exact Bool.or_true _
  · rcases not_and_or.1 earlier with other | later
    · simp [other]
    · simp [later]

section check
variable (hop : f.op = .far l bfp v 1 c an ap) (turn : farTurn s f l = true)
include hop turn

theorem exec_farAtomicTowerCheck_accepts (accept : farCheck s f l = none) : exec (.farAtomicTowerCheck id) s = .next
    { dropF s id with pend := (dropF s id).pend ++ [{ f with op := .far l bfp v 2 c an ap }] } := by
  rw [exec_farAtomicTowerCheck, execFarAtomicTowerCheck, farEvent_far hf hop]
  simp [turn, accept]

theorem exec_farAtomicTowerCheck_refuses {e : FInfo} (refuse : farCheck s f l = some (.inl e)) :
    exec (.farAtomicTowerCheck id) s = .next (putF s { f with op := .far l bfp v 3 (some e) an ap }) := by
  rw [exec_farAtomicTowerCheck, execFarAtomicTowerCheck, farEvent_far hf hop]
  simp [turn, refuse]

theorem exec_farAtomicTowerCheck_walks {p : Nat} (walks : farCheck s f l = some (.inr p)) :
    exec (.farAtomicTowerCheck id) s = .next (flightWalk s f (128 + towerOf (l.pas.headD 0)) p) := by
  rw [exec_farAtomicTowerCheck, execFarAtomicTowerCheck, farEvent_far hf hop]
  simp [turn, walks]

end check

end far

@[simp] theorem setHome_groups (s : State) (line : Nat) (h : Home) : (setHome s line h).groups = s.groups := rfl

theorem foldl_groups {α : Type} {f : State → α → State} (hf : ∀ s a, (f s a).groups = s.groups) (l : List α) (s : State) :
    (l.foldl f s).groups = s.groups :=
  List.foldlRecOn l f (motive := fun t => t.groups = s.groups) rfl fun t h a _ => (hf t a).trans h

theorem sendRecalls_groups (s : State) (line : Nat) : (sendRecalls s line).groups = s.groups := by
  unfold sendRecalls
  refine (foldl_groups ?sent _ _).trans ?start
  case sent => exact fun _ _ => rfl
  case start => rfl

theorem completion_groups (s : State) (line : Nat) : (completion s line).1.groups = s.groups := by
  unfold completion
  dsimp only
  split
  · rfl
  · rw [setHome_groups, sendRecalls_groups]

section answer
variable {s : State} {id : Nat} {f : Flight} {l : Lane} {bfp ap : Bool} {v : List Byte} {c : Option FInfo} (hf : getF s id = some f)
include hf

/-- An accepted add is answered with a completion time, which its group's far atomics wait for. -/
theorem exec_farAtomicAnswer_accepted (hop : f.op = .far l bfp v 2 c false ap) {g : Group} (hg : getG s f.gid = some g) :
    ∃ t g', exec (.farAtomicAnswer id) s = .next t ∧ getG t f.gid = some g' ∧ s.time ≤ g'.farTime ∧ g.farTime ≤ g'.farTime ∧
      t.mem = s.mem := by
  obtain ⟨s1, time, answer⟩ : ∃ s1 time, completion s (l.pas.headD 0 / 1024) = (s1, time) := ⟨_, _, rfl⟩
  have later : s.time ≤ time := by simpa only [answer] using completion_time_le s (l.pas.headD 0 / 1024)
  have mem : s1.mem = s.mem := by simpa only [answer] using completion_mem s (l.pas.headD 0 / 1024)
  have groups : s1.groups = s.groups := by simpa only [answer] using completion_groups s (l.pas.headD 0 / 1024)
  have found : getG s1 f.gid = some g := by rwa [getG, groups]
  have fed : getG (putG s1 { g with farTime := max g.farTime time }) f.gid = some { g with farTime := max g.farTime time } := by
    rw [← getG_gid hg] at found ⊢
    exact getG_putG_same (g := { g with farTime := max g.farTime time }) found
  rw [exec_farAtomicAnswer, execFarAtomicAnswer, farEvent_far hf hop]
  simp only [Bool.false_eq_true, if_false, if_true, answer, found]
  refine ⟨_, { g with farTime := max g.farTime time }, rfl, ?_, later.trans (Nat.le_max_right _ _), Nat.le_max_left _ _, ?_⟩
  · cases ap <;> exact fed
  · cases ap <;> exact mem

/-- A refused add is answered with its fault, and the line's pending count falls. -/
theorem exec_farAtomicAnswer_refused {e : FInfo} (hop : f.op = .far l bfp v 3 (some e) false ap) : exec (.farAtomicAnswer id) s = .next
    (addDue (dropF (setHome s (l.pas.headD 0 / 1024)
      { home s (l.pas.headD 0 / 1024) with pend := (home s (l.pas.headD 0 / 1024)).pend - 1 }) id) f
      { cls := .far, info := e, key := l.lane } 3) := by
  rw [exec_farAtomicAnswer, execFarAtomicAnswer, farEvent_far hf hop]
  rfl

end answer

section applied
variable {s : State} {id : Nat} {f : Flight} {l : Lane} {bfp an : Bool} {v : List Byte} {c : Option FInfo} (hf : getF s id = some f)
include hf

/-- In its turn an accepted add changes memory where no sector at the home supersedes it, and finds an error there. -/
theorem exec_farAtomicApply_first (hop : f.op = .far l bfp v 2 c an false)
    (first : ∀ o ∈ s.pend.takeWhile (fun o => o.id != id), ∀ m b w k a, o.op = .far m b w 2 k a false → farMeet l m = false) :
    ∃ t, exec (.farAtomicApply id) s = .next t ∧
      (l2Has s (l.pas.headD 0 / 1024) (l.pas.headD 0 / 128 % 8) = true → t.mem = s.mem) ∧
      (l2Has s (l.pas.headD 0 / 1024) (l.pas.headD 0 / 128 % 8) = false →
        (badAt s l.pas = none → t.mem = fputs memDefault (l.pas.zip (farSum bfp (l.pas.map (rdByte s)) v)) s.mem) ∧
        ∀ q e, badAt s l.pas = some (q, e) → t = machineCheck (dropF (setHome s (l.pas.headD 0 / 1024)
          { home s (l.pas.headD 0 / 1024) with pend := (home s (l.pas.headD 0 / 1024)).pend - 1 }) id) f e q 3 (towerOf (l.pas.headD 0)) l.lane) := by
  rw [exec_farAtomicApply, execFarAtomicApply, farEvent_far hf hop]
  refine ⟨_, congrArg _ (if_neg ?turn), fun held => ?_, fun open_ => ⟨fun good => ?_, fun q e bad => ?_⟩⟩
  case turn =>
    simp only [ne_eq, not_true_eq_false, Bool.false_eq_true, false_or, Bool.not_eq_true', Bool.not_eq_false, List.all_eq_true]
    intro o ho
    split
    · next m b w k a hm => simp [first o ho m b w k a hm]
    · rfl
  · simp only [held, if_true]
    split <;> simp
  · have read : rdByte (llcPut s (l.pas.headD 0 / 1024) (1#8 <<< (l.pas.headD 0 / 128 % 8)) (1#8 <<< (l.pas.headD 0 / 128 % 8))) = rdByte s := by
      funext a
      rw [rdByte, rdByte, llcPut_mem]
    simp only [open_, good, Bool.false_eq_true, if_false, read]
    split <;> simp
  · simp only [open_, bad, Bool.false_eq_true, if_false]

end applied

/-! Matrix passes (R341, R344). -/

theorem closeWindow_window {s : State} {id c p rows o : Nat} {b : Bool} {f : Flight} (hf : getF s id = some f)
    (hop : f.op = .window c p rows o b) : closeWindow s id = putF s { f with op := .window c p rows o true } := by
  simp only [closeWindow, hf, hop]

theorem exec_fusionWindowTimeout_due {s : State} {id c p rows o : Nat} {f : Flight} (hf : getF s id = some f)
    (hop : f.op = .window c p rows o false) (due : 8 ≤ 3 * (s.time - o)) :
    exec (.fusionWindowTimeout id) s = .next (putF s { f with op := .window c p rows o true }) := by
  simp only [exec_fusionWindowTimeout, execFusionWindowTimeout, hf, hop, due, if_true, closeWindow_window hf hop]

theorem mem_windowPasses {s : State} {id : Nat} {x : Flight} {y : Pass} :
    (x, y) ∈ windowPasses s id ↔ x ∈ s.pend ∧ x.op = .pass y none ∧ y.window = id := by
  simp only [windowPasses, List.mem_filterMap]
  constructor
  · rintro ⟨o, ho, found⟩
    split at found
    · next q hq =>
      split at found
      · next hw =>
        cases found
        exact ⟨ho, hq, hw⟩
      · cases found
    · cases found
  · rintro ⟨hx, hop, hw⟩
    exact ⟨x, hx, by simp [hop, hw]⟩

/-- A closed window gives the bytes of B that it reads to each of its passes. -/
theorem exec_matrixPassStart_reads {s : State} {id c p rows o : Nat} {f f0 : Flight} {q : Pass} {r : List (Flight × Pass)} {t : Team}
    (hf : getF s id = some f) (hop : f.op = .window c p rows o true) (passes : windowPasses s id = (f0, q) :: r) (stored : q.mmaf = false)
    (ht : getT s q.team = some t) (sound : (mxFaulted t q.baddr (bRange s f0 q)).isSome = false)
    (present : absentLine t q.baddr (bRange s f0 q) = none) :
    ∃ give : Flight → Flight, exec (.matrixPassStart id) s = .next (dropF { s with pend := s.pend.map give } id) ∧
      ∀ x y, x.op = .pass y none → y.window = id → give x = { x with op := .pass y (some (lrd t q.baddr (bRange s f0 q))) } := by
  simp only [exec_matrixPassStart, execMatrixPassStart, hf, hop, passes, stored, ht, sound, present, Option.isSome_none, Bool.false_eq_true,
    if_false]
  refine ⟨_, rfl, fun x y hx hw => ?_⟩
  simp only [hx, hw, if_true]

theorem exec_matrixPassWriteback_turn {s : State} {id : Nat} {f : Flight} {p : Pass} {b : List Byte} {g : Group} {t : Slot16} {pr : Pairing}
    (hf : getF s id = some f) (hop : f.op = .pass p (some b)) (hg : getG s f.gid = some g) (turn : tileTurn s f = true)
    (ht : gridSlot s g p.slot = some t) (hpr : pairing t.el p.wa p.wb p.mix = some pr) :
    exec (.matrixPassWriteback id) s = .next (settleTiles (dropF (putG s (passRows t p pr (ofBytes b) g)) id) f.gid) := by
  simp only [exec_matrixPassWriteback, execMatrixPassWriteback, hf, hop, hg, turn, ht, hpr, if_true]

/-! Rows of a tile (R345, R346). -/

/-- The value at one place of a tile, after a write to another or the same place. -/
theorem locGet_locPut (g : Group) (loc : Nat) {l c l' c' : Nat} (v : BitVec 32) (hc : c < 64) (hc' : c' < 64) :
    locGet (locPut g loc l c v) loc l' c' = if l' = l ∧ c' = c then v else locGet g loc l' c' := by
  have place (k : Nat) : (k * 64 + l') * 64 + c' = (k * 64 + l) * 64 + c ↔ l' = l ∧ c' = c := by omega
  unfold locGet locPut
  split_ifs with tile same same <;> simp only [fget_fput, place, same, if_true, if_false]

/-- A row of a tile written from its columns' values. -/
def setRow (g : Group) (loc l : Nat) (v : Nat → BitVec 32) : Group := (List.range 64).foldl (fun g c => locPut g loc l c (v c)) g

theorem locGet_setRow (g : Group) (loc l : Nat) (v : Nat → BitVec 32) (l' : Nat) {c' : Nat} (hc' : c' < 64) :
    locGet (setRow g loc l v) loc l' c' = if l' = l then v c' else locGet g loc l' c' := by
  have columns (n : Nat) (hn : n ≤ 64) : locGet ((List.range n).foldl (fun g c => locPut g loc l c (v c)) g) loc l' c' =
      if l' = l ∧ c' < n then v c' else locGet g loc l' c' := by
    induction n with
    | zero => simp
    | succ n ih =>
      rw [List.range_succ, List.foldl_append, List.foldl_cons, List.foldl_nil, locGet_locPut _ _ _ (by omega) hc', ih (by omega)]
      by_cases last : c' = n
      · simp +contextual [last]
      · have before : c' < n + 1 ↔ c' < n := by omega
        simp [last, before]
  simpa [setRow, hc'] using columns 64 le_rfl

/-- Rows written for several lanes: each of these lanes' rows, and no other. -/
theorem locGet_setRows (g : Group) (loc : Nat) (v : Nat → Nat → BitVec 32) (lanes : List Nat) (l : Nat) {c : Nat} (hc : c < 64) :
    locGet (lanes.foldl (fun g l => setRow g loc l (v l)) g) loc l c = if l ∈ lanes then v l c else locGet g loc l c := by
  induction lanes using List.reverseRecOn with
  | nil => rfl
  | append_singleton lanes k ih =>
    rw [List.foldl_append, List.foldl_cons, List.foldl_nil, locGet_setRow _ _ _ _ _ hc, ih]
    by_cases hk : l = k
    · simp [hk]
    · simp [hk]

section transfers
variable {s : State} {id loc tid addr : Nat} {f : Flight} {store : Bool} {lanes : List Nat} {g : Group} {t : Team} (hf : getF s id = some f)
  (hop : f.op = .tileXfer store loc lanes tid addr) (hg : getG s f.gid = some g) (ht : getT s tid = some t) (turn : tileTurn s f = true)
  (present : ∀ l ∈ lanes, ∀ k ∈ linesOf (addr + 256 * l) 256, isAbsent t k = false)
include hf hop hg ht turn present

/-- A transfer whose lines are present moves its rows to local memory, or from there into its tile. -/
theorem exec_tileTransferComplete_present : exec (.tileTransferComplete id) s = .next (if store then
      settleTiles (dropF (wakeLocal (putT s (lwr t (lanes.flatMap (fun l => at_ (addr + 256 * l) (rowBytes g loc l))))) tid f.gid
        ((lanes.flatMap (fun l => at_ (addr + 256 * l) (rowBytes g loc l))).map Prod.fst)) id) f.gid
    else settleTiles (dropF (putG s (lanes.foldl (fun g l => setRow g loc l
      (fun c => BitVec.ofNat 32 (lrdN t (addr + 256 * l + 4 * c) 4))) g)) id) f.gid) := by
  have none_ (p : Nat → Bool) (hp : ∀ k, isAbsent t k = false → p k = false) :
      (lanes.flatMap (fun l => linesOf (addr + 256 * l) 256)).any p = false := by
    simp only [List.any_eq_false, List.mem_flatMap, Bool.not_eq_true]
    rintro k ⟨l, hl, hk⟩
    exact hp k (present l hl k hk)
  have faulted := none_ (fun k => isAbsent t k && inRange t k) fun k hk => by simp [hk]
  have absent := none_ (isAbsent t) fun _ hk => hk
  simp only [exec_tileTransferComplete, execTileTransferComplete, hf, hop, hg, ht, turn, faulted, absent, Bool.not_true, Bool.false_eq_true,
    if_false]
  rfl

end transfers

/-- Settles O51: far atomics by the stage they are at, then windows, passes and tile transfers. -/
theorem farAndMatrixEvents : Obligations.FarAndMatrixEvents := by
  refine ⟨?far, fun s id c p rows o f hf => ⟨exec_fusionWindowTimeout_due hf, ?start⟩,
    fun s id f p b g t pr => exec_matrixPassWriteback_turn, ?transfer⟩
  case far =>
    rintro s id c f l bfp an ap v _ hf rfl
    refine ⟨fun hop turn first => ⟨towerHolds s (l.pas.headD 0 / 1024), rfl, exec_farAtomicAtHome_first hf hop turn first⟩, fun hop turn =>
      ⟨exec_farAtomicTowerCheck_accepts hf hop turn, fun e => exec_farAtomicTowerCheck_refuses hf hop turn,
        fun p => exec_farAtomicTowerCheck_walks hf hop turn⟩, fun hop g => exec_farAtomicAnswer_accepted hf hop,
      fun e hop => ⟨_, rfl, exec_farAtomicAnswer_refused hf hop⟩, fun hop first => ?_⟩
    obtain ⟨t, run, held, open_⟩ := exec_farAtomicApply_first hf hop first
    refine ⟨fun miss good => ⟨t, run, fun p => ?_⟩, fun q e miss bad => ?_, fun hit => ⟨t, run, held hit⟩⟩
    · rw [rdByte, (open_ miss).1 good, fget_fputs]
      cases lastAt p (l.pas.zip (farSum bfp (l.pas.map (rdByte s)) v)) <;> rfl
    · rw [run, (open_ miss).2 q e bad]
  case start =>
    intro hop f0 q r t passes stored ht sound present
    obtain ⟨give, run, gives⟩ := exec_matrixPassStart_reads hf hop passes stored ht sound present
    refine ⟨_, run, rfl, rfl, fun x y hxy other => ?_⟩
    obtain ⟨hx, hop', hw⟩ := mem_windowPasses.1 hxy
    have given := gives x y hop' hw
    refine ⟨give x, List.mem_filter.2 ⟨List.mem_map.2 ⟨x, hx, rfl⟩, ?_⟩, ?_, ?_⟩
    · simpa [given] using other
    · rw [given]
    · rw [given]
  case transfer =>
    intro s id loc tid addr f store lanes g t hf hop hg ht turn present
    have run := exec_tileTransferComplete_present hf hop hg ht turn present
    refine ⟨?_, ?_⟩
    · rintro _ rfl rfl
      exact run
    · rintro rfl
      exact ⟨_, run, fun _ l c _ hc => locGet_setRows g loc _ lanes l hc⟩

end Sys2Proof.Proofs
end

section
/-! PROOF. What releases and fences wait for (05_ordering.md R135, R136, R138, 11_memory_sync.md R311). -/

namespace Sys2Proof.Proofs
open Sys2Proof Sys2Proof.Machine Sys2Proof.Laws

/-! The drained write-combining buffer (R103). -/

/-- The store that a waiting line of a group's write-combining buffer becomes. -/
def wcbStore (g : Group) (e : Wcb) : Flight :=
  { id := e.id, word := e.id, gid := g.gid, ctx := g.ctx, core := g.core, cls := .stcomp, op := .store (wcbBytes e) none e.hint false,
    by_ := e.by_, pc := e.pc, lanes := e.lanes, loose := e.loose }

section drained
variable {s : State} {g : Group} (hg : getG s g.gid = some g)
include hg

theorem drainWcb_found : drainWcb s g.gid = { putG s { g with wcb := [] } with pend := s.pend ++ g.wcb.map (wcbStore g) } := by
  simp only [drainWcb, hg]
  rfl

theorem getG_drainWcb_same : getG (drainWcb s g.gid) g.gid = some { g with wcb := [] } := by
  rw [drainWcb_found hg]
  exact getG_putG_same (g := { g with wcb := [] }) hg

theorem drainWcb_pend : (drainWcb s g.gid).pend = s.pend ++ g.wcb.map (wcbStore g) := by rw [drainWcb_found hg]
theorem drainWcb_nextId : (drainWcb s g.gid).nextId = s.nextId := by rw [drainWcb_found hg]; rfl
theorem drainWcb_time : (drainWcb s g.gid).time = s.time := by rw [drainWcb_found hg]; rfl

end drained

/-! What a release waits for (R135, R136; log entry 13). -/

/-- A release of the group, standing at serial number `n`, waits at this scope for the access to be performed: its earlier stores, atomics
and loads, and beyond team scope its remote local accesses. -/
def awaited (gid n : Nat) (sc : Scope) (f : Flight) : Bool :=
  f.gid == gid && decide (f.id < n) && (match f.op with
    | .store .. => true | .atomic .. => true | .load .. => true
    | .remoteStore .. => sc != .tm | .remoteLoad .. => sc != .tm | _ => false)

/-! Device and system scope await the accesses that cluster scope awaits. -/

theorem awaited_dv (gid n : Nat) : awaited gid n .dv = awaited gid n .cl := rfl
theorem awaited_sy (gid n : Nat) : awaited gid n .sy = awaited gid n .cl := rfl

/-- Every drained line issued before `n` is a store that a release waits for. -/
theorem awaited_wcbStore {g : Group} {e : Wcb} {n : Nat} (earlier : e.id < n) (sc : Scope) : awaited g.gid n sc (wcbStore g e) = true := by
  simp [awaited, wcbStore, earlier]

/-! What is ready at each scope. No drained line and no access counts that stands at `n` or later. -/

section ready
variable (s : State) (g : Group) (n : Nat)

theorem releaseReady_tm_iff :
    releaseReady s g .tm n = true ↔ (∀ e ∈ g.wcb, n ≤ e.id) ∧ ∀ f ∈ s.pend, awaited g.gid n .tm f = false := by
  simp only [releaseReady, Bool.and_eq_true, List.all_eq_true, decide_eq_true_eq, List.all_filter]
  refine and_congr_right' (forall₂_congr fun f _ => ?_)
  cases hop : f.op <;> simp [awaited, hop, imp_iff_not_or]

theorem releaseReady_cl_iff :
    releaseReady s g .cl n = true ↔ (∀ e ∈ g.wcb, n ≤ e.id) ∧ (∀ f ∈ s.pend, awaited g.gid n .cl f = false) ∧ g.wct < s.time := by
  simp only [releaseReady, Bool.and_eq_true, List.all_eq_true, decide_eq_true_eq, List.all_filter, and_assoc]
  rw [← and_assoc (a := ∀ f ∈ s.pend, _), ← forall₂_and]
  refine and_congr_right' (and_congr_left' (forall₂_congr fun f _ => ?_))
  cases hop : f.op <;> simp [awaited, hop, imp_iff_not_or]

theorem releaseReady_dv : releaseReady s g .dv n = releaseReady s g .cl n := rfl

theorem releaseReady_sy_iff :
    releaseReady s g .sy n = true ↔ releaseReady s g .cl n = true ∧ ∀ f ∈ s.pend, ∀ line, f.op = .cxlWrite line → n ≤ f.id := by
  refine Bool.and_eq_true_iff.trans (and_congr_right' (List.all_eq_true.trans (forall₂_congr fun f _ => ?_)))
  cases hop : f.op <;> simp

end ready

/-- At the four scopes a release waits at, with the scopes' differences as implications. -/
theorem releaseReady_iff (s : State) (g : Group) {sc : Scope} (n : Nat) (notLane : sc ≠ .ln) (notGroup : sc ≠ .gr) :
    releaseReady s g sc n = true ↔ (∀ e ∈ g.wcb, n ≤ e.id) ∧ (∀ f ∈ s.pend, awaited g.gid n sc f = false) ∧
      (sc ≠ .tm → g.wct < s.time) ∧ (sc = .sy → ∀ f ∈ s.pend, ∀ line, f.op = .cxlWrite line → n ≤ f.id) := by
  cases sc with
  | ln => exact absurd rfl notLane
  | gr => exact absurd rfl notGroup
  | tm => simpa using releaseReady_tm_iff s g n
  | cl => simpa using releaseReady_cl_iff s g n
  | dv => simpa [releaseReady_dv, awaited_dv] using releaseReady_cl_iff s g n
  | sy => simpa [awaited_sy, and_assoc] using (releaseReady_sy_iff s g n).trans (and_congr_left' (releaseReady_cl_iff s g n))

/-- A release waits with the buffer draining, and says at which scope. -/
theorem releaseWait_some {s s1 : State} {g : Group} {sc : Scope} {p : Park} (h : releaseWait s g sc = some (s1, p)) :
    s1 = drainWcb s g.gid ∧ p = .release sc := by
  simp only [releaseWait] at h
  split at h
  · cases h
  · split_ifs at h
    cases h
    exact ⟨rfl, rfl⟩

theorem releaseWait_none_iff {s : State} {g : Group} {sc : Scope} (hg : getG s g.gid = some g) (issued : ∀ e ∈ g.wcb, e.id < s.nextId)
    (notLane : sc ≠ .ln) (notGroup : sc ≠ .gr) :
    releaseWait s g sc = none ↔ g.wcb = [] ∧ (∀ f ∈ s.pend, awaited g.gid s.nextId sc f = false) ∧
      (sc ≠ .tm → g.wct < s.time) ∧ (sc = .sy → ∀ f ∈ s.pend, ∀ line, f.op = .cxlWrite line → s.nextId ≤ f.id) := by
  have ready : releaseWait s g sc = none ↔ releaseReady (drainWcb s g.gid) { g with wcb := [] } sc s.nextId = true := by
    simp only [releaseWait, getG_drainWcb_same hg, drainWcb_nextId hg]
    split_ifs with h <;> simp [h]
  have drained : (∀ f ∈ g.wcb.map (wcbStore g), awaited g.gid s.nextId sc f = false) ↔ g.wcb = [] := by
    refine ⟨fun none_ => List.eq_nil_iff_forall_not_mem.2 fun e he => ?_, fun empty => by simp [empty]⟩
    exact absurd (none_ _ (List.mem_map_of_mem he)) (by simp [awaited_wcbStore (issued e he)])
  have noCxl : ∀ f ∈ g.wcb.map (wcbStore g), ∀ line, f.op ≠ .cxlWrite line := by
    simp [wcbStore]
  rw [ready, releaseReady_iff _ _ _ notLane notGroup, drainWcb_pend hg, drainWcb_time hg]
  simp only [List.forall_mem_append, drained]
  constructor
  · rintro ⟨-, ⟨quiet, empty⟩, past, cxl⟩
    exact ⟨empty, quiet, past, fun sys => (cxl sys).1⟩
  · rintro ⟨empty, quiet, past, cxl⟩
    exact ⟨List.forall_mem_nil _, ⟨quiet, empty⟩, past, fun sys => ⟨cxl sys, fun f hf line hop => absurd hop (noCxl f hf line)⟩⟩

/-! The fence word, by its scope (R138, R311; log entry 33). -/

section fence
variable {s : State} {x : Issue} {w : SWord} {sc : Scope} (h : Issues s (.fence w) x) (scope : scopeOf (w.f7.toNat % 8) = some sc)
include h

theorem exec_fence_ln (scope : scopeOf (w.f7.toNat % 8) = some .ln) : exec (.fence w) s = .next (performed x (drainWcb s x.g.gid)) := by
  rw [exec_fence, execFence, runWord_unmasked h rfl rfl]
  simp only [scope, Option.getD_some, settle_ok]

theorem exec_fence_gr (scope : scopeOf (w.f7.toNat % 8) = some .gr) :
    exec (.fence w) s = .next (performed x (fenceLoads (drainWcb s x.g.gid) x.g.gid)) := by
  rw [exec_fence, execFence, runWord_unmasked h rfl rfl]
  simp only [scope, Option.getD_some, settle_ok]

include scope
variable (notLane : sc ≠ .ln) (notGroup : sc ≠ .gr)
include notLane notGroup

/-- From team scope on a fence settles as a release there does. -/
theorem exec_fence_wide : exec (.fence w) s = .next (settle x false ((releaseWait s x.g sc).elim (.ok (fenceLoads s x.g.gid))
    fun q => .park q.1 q.2)) := by
  rw [exec_fence, execFence, runWord_unmasked h rfl rfl]
  cases sc with
  | ln => exact absurd rfl notLane
  | gr => exact absurd rfl notGroup
  | tm | cl | dv | sy =>
    simp only [scope, Option.getD_some]
    cases releaseWait s x.g _ <;> rfl

theorem exec_fence_ready (ready : releaseWait s x.g sc = none) : exec (.fence w) s = .next (performed x (fenceLoads s x.g.gid)) := by
  rw [exec_fence_wide h scope notLane notGroup, ready, Option.elim_none, settle_ok]

theorem exec_fence_waits {s1 : State} {p : Park} (wait : releaseWait s x.g sc = some (s1, p)) :
    exec (.fence w) s = .next (parked x s1 p) := by
  rw [exec_fence_wide h scope notLane notGroup, wait, Option.elim_some, settle_park]

end fence

/-- Settles O35: a release is ready when its drained stores and its earlier accesses are performed, and a fence goes by its scope. -/
theorem fencesAndReleases : Obligations.FencesAndReleases := by
  refine ⟨?release, ?fence⟩
  case release =>
    intro s g sc early hg issued early_eq
    obtain rfl : early = awaited g.gid s.nextId sc := early_eq
    have none_iff := releaseWait_none_iff (sc := sc) hg issued
    refine ⟨?_, ?_, ?_, fun s1 p => releaseWait_some⟩
    · rintro rfl
      simpa using none_iff
    · rintro (rfl | rfl) <;> simpa using none_iff
    · rintro rfl
      simpa using none_iff
  case fence =>
    intro s x w sc h scope
    refine ⟨?_, ?_, exec_fence_ready h scope, fun s1 p notLane notGroup => exec_fence_waits h scope notLane notGroup⟩
    · rintro rfl
      exact exec_fence_ln h scope
    · rintro rfl
      exact exec_fence_gr h scope

end Sys2Proof.Proofs
end

section
/-! PROOF. Station operations at their home, arrivals of broadcasts, and collectives (06_training_flow.md R156, R171, 13_tower_network.md
R379 to R382, 19_system.md R427, 22_memory_engine_faults.md R495, 23_fabric_faults.md R501, R502). -/

namespace Sys2Proof.Proofs
open Sys2Proof Sys2Proof.Machine Sys2Proof.Laws

/-! The last of several bytes at an address, which an engine's write leaves there. -/

section lastAt
variable {β : Type} (p : Nat) (l r : List (Nat × β))

theorem lastAt_concat (q : Nat × β) : lastAt p (l ++ [q]) = if q.1 = p then some q.2 else lastAt p l := by
  rw [lastAt, List.foldl_append]
  rfl

theorem lastAt_append : lastAt p (l ++ r) = (lastAt p r).or (lastAt p l) := by
  induction r using List.reverseRecOn with
  | nil => rw [List.append_nil]; rfl
  | append_singleton r q ih =>
    rw [← List.append_assoc, lastAt_concat, lastAt_concat, ih]
    split <;> rfl

variable {p l}

theorem lastAt_eq_none (h : ∀ q ∈ l, q.1 ≠ p) : lastAt p l = none := by
  induction l using List.reverseRecOn with
  | nil => rfl
  | append_singleton l q ih =>
    rw [lastAt_concat, if_neg (h q (by simp)), ih fun x hx => h x (List.mem_append_left _ hx)]

end lastAt

theorem lastAt_sectorPart (p k : Nat) (bytes : List (Nat × Byte)) :
    lastAt p (sectorPart bytes k) = if p / 128 = k then lastAt p bytes else none := by
  induction bytes using List.reverseRecOn with
  | nil => exact (ite_self none).symm
  | append_singleton l q ih =>
    have part : sectorPart (l ++ [q]) k = sectorPart l k ++ if q.1 / 128 = k then [q] else [] := by
      simp only [sectorPart, List.filter_append, List.filter_singleton, Bool.cond_eq_ite, beq_iff_eq]
    rw [part, lastAt_concat]
    split
    · rw [lastAt_concat, ih]
      split
      · simp_all
      · rfl
    · rw [List.append_nil, ih]
      split
      · next other same => rw [if_neg (by rintro rfl; exact other same)]
      · rfl

/-- The order of the sectors doesn't matter: the bytes at one address lie in one of them. -/
theorem lastAt_flatMap_sectorPart (p : Nat) (bytes : List (Nat × Byte)) :
    lastAt p ((sectorsOf bytes).flatMap (sectorPart bytes)) = lastAt p bytes := by
  have sectors (ks : List Nat) : lastAt p (ks.flatMap (sectorPart bytes)) = if p / 128 ∈ ks then lastAt p bytes else none := by
    induction ks with
    | nil => rfl
    | cons k ks ih =>
      rw [List.flatMap_cons, lastAt_append, ih, lastAt_sectorPart]
      by_cases here : p / 128 = k
      · subst here
        by_cases later : p / 128 ∈ ks <;> simp [later]
      · simp [here]
  rw [sectors]
  split
  · rfl
  · next absent =>
    refine (lastAt_eq_none fun q hq => ?_).symm
    rintro rfl
    exact absent (List.mem_eraseDups.2 (List.mem_map_of_mem hq))

theorem rdByte_engineWrite (s : State) (ctx hint : Nat) (bytes : List (Nat × Byte)) (p : Nat) :
    rdByte (engineWrite s ctx hint bytes).1 p = (lastAt p bytes).getD (rdByte s p) := by
  rw [rdByte, engineWrite_mem, fget_fputs, lastAt_flatMap_sectorPart]
  rfl

/-! Station operations (R156). -/

/-- What the home makes of a station operation: its answer and the record's changes. -/
def stationResult (s : State) (pa n : Nat) (c : Option Nat) : StKind → StRes × RecChange
  | .openPass rp => stOpen s pa n c rp
  | .closePass => stClose s pa n c
  | .commit v m => stCommit s pa n c v m

section station
variable {s : State} {id pa n : Nat} {f : Flight} {c : Option Nat} {k : StKind}

theorem exec_stationOperation_station {late : Option (Nat × List (Nat × Byte) × StRes)} (hf : getF s id = some f)
    (hop : f.op = .station k pa n c late) : exec (.stationOperation id) s = .next (stationPerform s f) := by
  simp only [exec_stationOperation, execStationOperation, hf, hop]

section start
variable (hop : f.op = .station k pa n c none)
include hop

theorem stationPerform_waits (busy : recFree s pa = false ∨ acquiring s f.gid f.word = true) : stationPerform s f = s := by
  have wait : (!recFree s pa || acquiring s f.gid f.word) = true := by
    rcases busy with marked | acquires
    · simp [marked]
    · simp [acquires]
  simp only [stationPerform, hop, wait, if_true]

variable (free : recFree s pa = true) (turn : acquiring s f.gid f.word = false)
  (good : badAt s ((List.range 2048).map (fun k => pa + k)) = none)
include free turn good

theorem stationPerform_firstLine (one : recBytes pa 1 (stationResult s pa n c k).2 = []) :
    stationPerform s f = endStation (engineRead s f.ctx 0 (recSectors pa)) f pa false (recBytes pa 0 (stationResult s pa n c k).2)
      (stationResult s pa n c k).1 := by
  cases k <;>
    (simp only [stationResult] at one
     simp only [stationPerform, hop, free, turn, good, one, stationResult, Bool.not_true, Bool.or_self, Bool.false_eq_true, if_false])

theorem stationPerform_secondLine (two : recBytes pa 1 (stationResult s pa n c k).2 ≠ []) :
    stationPerform s f = putF
      (addMarks (engineWrite (engineRead s f.ctx 0 (recSectors pa)) f.ctx 0 (recBytes pa 1 (stationResult s pa n c k).2)).1
        [((pa + 1024) / 1024, 0)])
      { f with op := .station k pa n c (some
        ((engineWrite (engineRead s f.ctx 0 (recSectors pa)) f.ctx 0 (recBytes pa 1 (stationResult s pa n c k).2)).2,
          recBytes pa 0 (stationResult s pa n c k).2, (stationResult s pa n c k).1)) } := by
  obtain ⟨b, l, second⟩ := List.exists_cons_of_ne_nil two
  cases k <;>
    (simp only [stationResult] at second
     simp only [stationPerform, hop, free, turn, good, second, stationResult, Bool.not_true, Bool.or_self, Bool.false_eq_true, if_false])

end start

section late
variable {t : Nat} {first : List (Nat × Byte)} {r : StRes} (hop : f.op = .station k pa n c (some (t, first, r)))
include hop

theorem stationPerform_early (early : s.time ≤ t ∨ engineFree s f.ctx 0 first = false) : stationPerform s f = s := by
  simp only [stationPerform, hop]
  refine if_neg fun ⟨past, free⟩ => ?_
  rcases early with before | held
  · omega
  · exact absurd free (by simp [held])

theorem stationPerform_late (past : t < s.time) (free : engineFree s f.ctx 0 first = true) :
    stationPerform s f = endStation s f pa true first r := by
  simp only [stationPerform, hop]
  exact if_pos ⟨past, free⟩

end late

theorem rdByte_endStation (s : State) (f : Flight) (pa : Nat) (marked : Bool) (first : List (Nat × Byte)) (r : StRes) (p : Nat) :
    rdByte (endStation s f pa marked first r) p = (lastAt p first).getD (rdByte s p) := by
  have mem : (endStation s f pa marked first r).mem = (engineWrite s f.ctx 0 first).1.mem := by
    simp only [endStation, answerStation_mem, feedGrid_mem]
    cases marked
    · rfl
    · exact dropMarks_mem _ _
  rw [rdByte, mem]
  exact rdByte_engineWrite s f.ctx 0 first p

end station

/-! Arrivals (R171, R172, R495). -/

section arrival
variable {s : State} {id : Nat} {f : Flight} {a : Arrival}

theorem exec_errorArrival_arrival (hf : getF s id = some f) (hop : f.op = .arrival a) :
    exec (.errorArrival id) s = .next (arrivalPerform s f a) := by
  simp only [exec_errorArrival, execErrorArrival, hf, hop]

theorem exec_stationOperation_arrival (hf : getF s id = some f) (hop : f.op = .arrival a) :
    exec (.stationOperation id) s = exec (.errorArrival id) s := by
  rw [exec_errorArrival_arrival hf hop]
  simp only [exec_stationOperation, execStationOperation, hf, hop]

theorem arrivalPerform_noTeam (none_ : arrivalTeam s f.ctx a = none)
    (absent : ∀ t ∈ s.teams, ¬ (t.ctx = f.ctx ∧ t.grid = a.grid ∧ t.cluster = a.cluster ∧ t.tidx = a.tidx)) :
    arrivalPerform s f a = dropArrival s f a 1 := by
  simp only [arrivalPerform, none_]
  rw [List.map_congr_left (g := id), List.map_id]
  exact fun t ht => if_neg fun ⟨hctx, hgrid, hcluster, htidx, _⟩ => absent t ht ⟨hctx, hgrid, hcluster, htidx⟩

section reached
variable {t : Team} {pa : Nat} {m : Bool} (team : arrivalTeam s f.ctx a = some t) (aligned : a.station % 2048 = 0)
  (page : flightXlate s f f.core a.station 3 false = .inl (.ok pa m)) (access : accessCheck s f.ctx 0 pa 2048 3 = none)
  (free : recFree s pa = true) (good : badAt s ((List.range 2048).map (fun k => pa + k)) = none)
include team aligned page access free good

/-- An arrival whose record can be read is refused, waits, or lands, by what the record and the team's error lehr say. -/
theorem arrivalPerform_reached : arrivalPerform s f a =
    if recBad s pa ∨ fld (recQ s pa 0) 12 20 % 32 ≠ 0 ∨ (localBad t (fld (recQ s pa 0) 12 20) 32).isSome ∨
        lehrMalformed t (fld (recQ s pa 0) 12 20) ∨ arrivalOutside t (fld (recQ s pa 0) 12 20) a
    then dropArrival (putT s (uncount t a)) f a 2
    else if (absentLine t (fld (recQ s pa 0) 12 20) 32).isSome ∨ lehrFull t (fld (recQ s pa 0) 12 20) then s
    else landArrival (engineRead s f.ctx 0 (recSectors pa)) f a t pa (fld (recQ s pa 0) 12 20) := by
  simp only [arrivalPerform, team, aligned, page, access, free, good, ne_eq, not_true_eq_false, Option.isSome_none, Bool.not_true,
    Bool.false_eq_true, if_false]

theorem arrivalPerform_malformed
    (malformed : localBad t (fld (recQ s pa 0) 12 20) 32 ≠ none ∨ lehrMalformed t (fld (recQ s pa 0) 12 20) = true) :
    arrivalPerform s f a = dropArrival (putT s (uncount t a)) f a 2 := by
  rw [arrivalPerform_reached team aligned page access free good, if_pos]
  rcases malformed with outside | reserved
  · exact .inr (.inr (.inl (Option.isSome_iff_ne_none.2 outside)))
  · exact .inr (.inr (.inr (.inl reserved)))

theorem arrivalPerform_lands (whole : recBad s pa = false) (lehr : fld (recQ s pa 0) 12 20 % 32 = 0)
    (inside : localBad t (fld (recQ s pa 0) 12 20) 32 = none) (wellFormed : lehrMalformed t (fld (recQ s pa 0) 12 20) = false)
    (slotInside : arrivalOutside t (fld (recQ s pa 0) 12 20) a = false) (present : absentLine t (fld (recQ s pa 0) 12 20) 32 = none)
    (room : lehrFull t (fld (recQ s pa 0) 12 20) = false) :
    arrivalPerform s f a = landArrival (engineRead s f.ctx 0 (recSectors pa)) f a t pa (fld (recQ s pa 0) 12 20) := by
  rw [arrivalPerform_reached team aligned page access free good, if_neg, if_neg]
  · simp [present, room]
  · simp [whole, lehr, inside, wellFormed, slotInside]

end reached
end arrival

/-! Reads at the homes start no operation but write-backs to CXL devices (R105, R118). -/

/-- What `t` has in flight and `s` has not are writes on their way to a CXL device. -/
def AddsCxlWrites (s t : State) : Prop := ∀ o ∈ t.pend, o ∈ s.pend ∨ ∃ line, o.op = .cxlWrite line

namespace AddsCxlWrites

theorem of_pend_eq {s t : State} (h : t.pend = s.pend) : AddsCxlWrites s t := fun _ ho => .inl (h ▸ ho)

theorem trans {s t u : State} (h : AddsCxlWrites s t) (k : AddsCxlWrites t u) : AddsCxlWrites s u :=
  fun o ho => (k o ho).elim (h o) .inr

theorem cxlOut (s : State) (gid line : Nat) (sectors : BitVec 8) : AddsCxlWrites s (cxlOut s gid line sectors) := by
  intro o ho
  refine (List.mem_append.1 ho).imp_right fun new => ⟨line, ?_⟩
  rw [List.mem_singleton.1 new]

theorem promote (s : State) (line : Nat) : AddsCxlWrites s (promote s line) := by
  refine of_pend_eq ?_
  unfold Machine.promote
  split <;> rfl

theorem llcPut (s : State) (line : Nat) (valid dirty : BitVec 8) : AddsCxlWrites s (llcPut s line valid dirty) := by
  refine of_pend_eq ?_
  unfold Machine.llcPut
  dsimp only
  split
  · rfl
  · split <;> rfl

theorem l2Evict (s : State) (c : CLine) : AddsCxlWrites s (l2Evict s c) := by
  have dropped : AddsCxlWrites s { s with l2 := s.l2.filter (fun x => x.line != c.line) } := of_pend_eq rfl
  unfold Machine.l2Evict
  dsimp only
  split_ifs
  · exact dropped
  · exact dropped.trans (cxlOut _ _ _ _)
  · exact dropped.trans (llcPut _ _ _ _)

theorem l2Put (s : State) (line : Nat) (valid dirty : BitVec 8) (allowed : Nat) : AddsCxlWrites s (l2Put s line valid dirty allowed) := by
  unfold Machine.l2Put
  dsimp only
  split
  · exact of_pend_eq rfl
  · split
    · exact of_pend_eq rfl
    · split
      · exact (l2Evict s _).trans (of_pend_eq rfl)
      · exact of_pend_eq rfl

theorem homeTouch (s : State) (ctx hint pa : Nat) : AddsCxlWrites s (homeTouch s ctx hint pa) := by
  have filled (v : BitVec 8) (w : Nat) := (l2Put s (pa / 1024) v 0#8 w).trans (promote _ (pa / 1024))
  unfold Machine.homeTouch
  dsimp only
  split_ifs
  · exact of_pend_eq rfl
  · exact promote s _
  · exact of_pend_eq rfl
  · exact filled _ _
  · exact (filled _ _).trans (llcPut _ _ _ _)

theorem engineRead (s : State) (ctx hint : Nat) (pas : List Nat) : AddsCxlWrites s (engineRead s ctx hint pas) :=
  List.foldlRecOn _ _ (motive := AddsCxlWrites s) (of_pend_eq rfl) fun _ h _ _ => h.trans (homeTouch _ _ _ _)

end AddsCxlWrites

/-! The chunk of a collective as it fires (R380, R382). -/

/-- Is this the operation that reads a team's chunk? -/
def readsChunk (tid : Nat) (f : Flight) : Bool := match f.op with | .chunkOut k => k == tid | _ => false

theorem readsChunk_iff {tid : Nat} {f : Flight} : readsChunk tid f = true ↔ f.op = .chunkOut tid := by
  unfold readsChunk
  split
  · next k hop => simp [hop]
  · next other => exact ⟨nofun, fun hop => absurd hop (other tid)⟩

theorem find_readsChunk_none {l : List Flight} {tid : Nat} (idle : ∀ o ∈ l, o.op ≠ .chunkOut tid) : l.find? (readsChunk tid) = none :=
  List.find?_eq_none.2 fun o ho reads => idle o ho (readsChunk_iff.1 reads)

theorem getF_concat_fresh {s u : State} {o : Flight} (pend : u.pend = s.pend ++ [o]) (fresh : ∀ x ∈ s.pend, x.id < o.id) :
    getF u o.id = some o := by
  have older : s.pend.find? (fun f => f.id == o.id) = none := List.find?_eq_none.2 fun x hx => by simpa using (fresh x hx).ne
  rw [getF, pend, List.find?_append, older]
  simp

theorem find_readsChunk_concat {l : List Flight} {o : Flight} {tid : Nat} (idle : ∀ x ∈ l, x.op ≠ .chunkOut tid) (hop : o.op = .chunkOut tid) :
    (l ++ [o]).find? (readsChunk tid) = some o := by
  rw [List.find?_append, find_readsChunk_none idle]
  simp [readsChunk_iff.2 hop]

theorem readyPorts_ne_nil {s : State} (up : ∃ p < 8, statusOf s p = 2) : readyPorts s ≠ [] := by
  obtain ⟨p, hp, ready⟩ := up
  exact List.ne_nil_of_mem (List.mem_filter.2 ⟨List.mem_range.2 hp, decide_eq_true ready⟩)

theorem MemoryWork.teams {s t : State} (h : MemoryWork s t) : t.teams = s.teams := (congrArg State.teams h.beside :)

/-- A team whose chunk has fired at its retirement, to be read and sent. -/
def firedAtRetire (t : Team) : Team := { t with chunk := { t.chunk with fired := true, dead := true } }

section chunk
variable {s : State} {tid k va n : Nat} {t : Team} {c : Coll} (hk : chunkOf s t = some (c, k, va, n))
include hk

theorem fireChunk_alone (gid core : Nat) (retire : Bool) (alone : c.members = 1 ∨ c.total = 0) (noCounter : c.dctr = none) :
    fireChunk s gid core t retire = putT s { t with chunk := { t.chunk with fired := true, dead := retire, landed := true } } := by
  simp only [fireChunk, hk, if_pos alone, noCounter]

section shared
variable (many : c.members ≠ 1) (hasData : c.total ≠ 0)
include many hasData

theorem fireChunk_shared (core : Nat) :
    fireChunk s 0 core t true = launchOp (putT s (firedAtRetire t)) 0 t.ctx core .none (.chunkOut t.tid) := by
  simp only [fireChunk, hk, if_neg (not_or.2 ⟨many, hasData⟩)]
  rfl

theorem fireChunk_shared_pend (core : Nat) : ∃ o, (fireChunk s 0 core t true).pend = s.pend ++ [o] ∧ o.id = s.nextId ∧ o.ctx = t.ctx ∧
    o.op = .chunkOut t.tid := by
  rw [fireChunk_shared hk many hasData]
  exact ⟨_, rfl, rfl, rfl, rfl⟩

theorem getT_fireChunk_shared (ht : getT s t.tid = some t) (core : Nat) :
    getT (fireChunk s 0 core t true) t.tid = some (firedAtRetire t) := by
  rw [fireChunk_shared hk many hasData]
  exact getT_putT_same (t := firedAtRetire t) ht

theorem chunkOf_fireChunk_shared (core : Nat) : chunkOf (fireChunk s 0 core t true) (firedAtRetire t) = some (c, k, va, n) := by
  rw [fireChunk_shared hk many hasData]
  exact hk

theorem fireChunk_shared_outs (core : Nat) : (fireChunk s 0 core t true).outs = s.outs := by
  rw [fireChunk_shared hk many hasData]
  rfl

theorem readyPorts_fireChunk_shared (core : Nat) : readyPorts (fireChunk s 0 core t true) = readyPorts s := by
  rw [fireChunk_shared hk many hasData]
  rfl

end shared

/-- A chunk whose bytes are at hand leaves in segments. -/
theorem sendChunk_ready {f : Flight} {r : RangeRead} (read : readRange s f.ctx 5 (readXlate s f) va n = r) (whole : r.stop = none)
    (up : readyPorts s ≠ []) : sendChunk s f t = dropF { engineRead s f.ctx 0 r.pas with
      outs := (engineRead s f.ctx 0 r.pas).outs ++ chunkMsgs c k t.chunk.round r.bytes } f.id := by
  simp only [sendChunk, hk, read, whole, List.isEmpty_iff, if_neg up]

variable (ht : getT s tid = some t)
include ht

section retire
variable (retired : t.retired = true) (unfired : t.chunk.fired = false) (alive : t.chunk.dead = false)
include retired unfired alive

theorem exec_collChunkFireAtRetire_landed (nothing : (fireChunk s 0 t.core t true).pend.find? (readsChunk tid) = none) :
    exec (.collChunkFireAtRetire tid) s = .next (fireChunk s 0 t.core t true) := by
  simp only [exec_collChunkFireAtRetire, execCollChunkFireAtRetire, ht, hk, retired, unfired, alive, Bool.not_false, Option.isSome_some,
    and_self, if_true]
  split
  · next found _ => exact absurd (nothing.symm.trans found) nofun
  · rfl

theorem exec_collChunkFireAtRetire_sent {f : Flight} {t1 : Team}
    (found : (fireChunk s 0 t.core t true).pend.find? (readsChunk tid) = some f) (team : getT (fireChunk s 0 t.core t true) tid = some t1)
    (gone : getF (sendChunk (fireChunk s 0 t.core t true) f t1) f.id = none) :
    exec (.collChunkFireAtRetire tid) s = .next (sendChunk (fireChunk s 0 t.core t true) f t1) := by
  simp only [exec_collChunkFireAtRetire, execCollChunkFireAtRetire, ht, hk, retired, unfired, alive, Bool.not_false, Option.isSome_some,
    and_self, if_true]
  split
  · next f' t1' found' team' =>
    obtain rfl : f = f' := Option.some.inj (found.symm.trans found')
    obtain rfl : t1 = t1' := Option.some.inj (team.symm.trans team')
    simp only [gone, Option.isSome_none, Bool.false_eq_true, if_false]
  · next other => exact (other f t1 found team).elim

theorem collChunkFireAtRetire_alone (idle : ∀ o ∈ s.pend, o.op ≠ .chunkOut tid) (alone : c.members = 1 ∨ c.total = 0)
    (noCounter : c.dctr = none) : exec (.collChunkFireAtRetire tid) s = .next
      (putT s { t with chunk := { t.chunk with fired := true, dead := true, landed := true } }) := by
  have fire := fireChunk_alone hk 0 t.core true alone noCounter
  rw [exec_collChunkFireAtRetire_landed hk ht retired unfired alive, fire]
  rw [fire]
  exact find_readsChunk_none idle

/-- The fired chunk's bytes leave in segments, and no operation is left that reads it. -/
theorem collChunkFireAtRetire_shared (idle : ∀ o ∈ s.pend, o.op ≠ .chunkOut tid) (up : ∃ p < 8, statusOf s p = 2) (many : c.members ≠ 1)
    (hasData : c.total ≠ 0) (fresh : ∀ o ∈ s.pend, o.id < s.nextId) {f : Flight} {r : RangeRead}
    (hf : getF (fireChunk s 0 t.core t true) s.nextId = some f)
    (read : readRange (fireChunk s 0 t.core t true) t.ctx 5 (readXlate (fireChunk s 0 t.core t true) f) va n = r) (whole : r.stop = none) :
    ∃ u, exec (.collChunkFireAtRetire tid) s = .next u ∧ u.outs = s.outs ++ chunkMsgs c k t.chunk.round r.bytes ∧ u.mem = s.mem ∧
      (∀ o ∈ u.pend, o.op ≠ .chunkOut tid) ∧ getT u tid = some { t with chunk := { t.chunk with fired := true, dead := true } } := by
  obtain rfl := getT_tid ht
  obtain ⟨o, pend, oid, octx, oop⟩ := fireChunk_shared_pend hk many hasData t.core
  rw [← oid] at fresh hf
  obtain rfl : o = f := Option.some.inj ((getF_concat_fresh pend fresh).symm.trans hf)
  rw [← octx] at read
  have ports : readyPorts (fireChunk s 0 t.core t true) ≠ [] :=
    (readyPorts_fireChunk_shared hk many hasData t.core).trans_ne (readyPorts_ne_nil up)
  have sent := sendChunk_ready (chunkOf_fireChunk_shared hk many hasData t.core) read whole ports
  have found : (fireChunk s 0 t.core t true).pend.find? (readsChunk t.tid) = some o := by
    rw [pend]
    exact find_readsChunk_concat idle oop
  have team := getT_fireChunk_shared hk many hasData ht t.core
  have gone : getF (sendChunk (fireChunk s 0 t.core t true) o (firedAtRetire t)) o.id = none := by
    rw [sent]
    exact getF_dropF_same _ _
  have work := MemoryWork.engineRead (fireChunk s 0 t.core t true) o.ctx 0 r.pas
  refine ⟨_, exec_collChunkFireAtRetire_sent hk ht retired unfired alive found team gone, ?_⟩
  rw [sent]
  refine ⟨?outs, ?mem, ?pend, (congrArg (List.find? _) work.teams).trans team⟩
  case outs => exact congrArg (· ++ chunkMsgs c k t.chunk.round r.bytes) (work.outs.trans (fireChunk_shared_outs hk many hasData t.core))
  case mem => exact (engineRead_mem _ _ _ _).trans (fireChunk_mem _ _ _ _ _)
  case pend =>
    intro x hx
    obtain ⟨hx, other⟩ := List.mem_filter.1 hx
    rcases AddsCxlWrites.engineRead _ _ _ _ x hx with before | ⟨line, write⟩
    · rw [pend] at before
      rcases List.mem_append.1 before with old | new
      · exact idle x old
      · exact absurd (congrArg Flight.id (List.mem_singleton.1 new)) (bne_iff_ne.1 other)
    · simp [write]

end retire

/-! Results and aborts (R380, R427, R501, R502). -/

/-- The state once a segment of the result has been written as `u`, with completion time `w`. -/
def resultLanded (u : State) (t : Team) (c : Coll) (n seg w : Nat) : State :=
  let got := t.chunk.got ++ [seg]
  let wct := max t.chunk.wct w
  if got.length < segCount n then putT u { t with chunk := { t.chunk with got := got, wct := wct } }
  else
    let all := putT u { t with chunk := { t.chunk with landed := true, got := got, wct := wct } }
    match c.dctr with
    | some d => launchOp all 0 t.ctx t.core .none (.received t.ctx (some d) wct)
    | none => all

/-- A message for the chunk in its present round: its kind, tree, chunk number and round. -/
structure ForChunk (t : Team) (c : Coll) (k kind : Nat) (msg : List Byte) : Prop where
  kind : fld (le msg 8 1) 4 4 = kind
  tree : le msg 0 4 = c.tree
  chunk : le msg 4 4 = k
  round : le msg 12 4 = t.chunk.round

theorem exec_collResultLand_segment {msg data : List Byte} {seg w : Nat} {u : State} (idle : ∀ o ∈ s.pend, o.op ≠ .chunkOut tid)
    (fired : t.chunk.fired = true) (open_ : t.chunk.landed = false) (good : redBad s msg = false) (mine : ForChunk t c k 1 msg)
    (hseg : seg = le msg 16 4) (inside : seg < segCount n) (new : seg ∉ t.chunk.got)
    (hdata : data = (msg.drop 32).take (min 4096 (n - 4096 * seg))) (free : receiveFree s t.ctx (va + 4096 * seg) data = true)
    (live : ∀ q ∈ s.trees, q.tree = c.tree → q.freed = false) (walked : trailBad s t.ctx (va + 4096 * seg) data.length = none)
    (written : receiveUnits s t.ctx 5 (va + 4096 * seg) data = (u, w, none)) :
    exec (.collResultLand tid msg) s = .next (resultLanded u t c n seg w) := by
  subst hseg hdata
  have notRead : s.pend.any (readsChunk tid) = false := List.any_eq_false.2 fun o ho reads => idle o ho (readsChunk_iff.1 reads)
  have inUse : s.trees.any (fun q => q.tree == c.tree && q.freed) = false :=
    List.any_eq_false.2 fun q hq => by simpa using live q hq
  have addressed : decide (fld (le msg 8 1) 4 4 = 1 ∧ le msg 0 4 = c.tree ∧ le msg 4 4 = k ∧ le msg 12 4 = t.chunk.round) = true :=
    decide_eq_true ⟨mine.kind, mine.tree, mine.chunk, mine.round⟩
  rw [exec_collResultLand, execCollResultLand, ht]
  dsimp only
  rw [hk]
  dsimp only
  rw [if_neg ?guard, walked]
  case guard =>
    rintro (h | h | h | h | h | h | h | h | h)
    · simp [fired] at h
    · simp [open_] at h
    · exact Bool.false_ne_true (notRead.symm.trans h)
    · simp [good] at h
    · simp [addressed] at h
    · omega
    · exact new (List.contains_iff_mem.1 h)
    · simp [free] at h
    · simp [inUse] at h
  dsimp only
  rw [written]
  rfl

section resultLanded
omit ht hk
variable {u : State} {seg w : Nat}

theorem resultLanded_more (more : t.chunk.got.length + 1 < segCount n) : resultLanded u t c n seg w =
    putT u { t with chunk := { t.chunk with got := t.chunk.got ++ [seg], wct := max t.chunk.wct w } } := by
  simp only [resultLanded, List.length_append, List.length_singleton, if_pos more]

variable (last : segCount n ≤ t.chunk.got.length + 1)
include last

theorem resultLanded_last (noCounter : c.dctr = none) : resultLanded u t c n seg w =
    putT u { t with chunk := { t.chunk with landed := true, got := t.chunk.got ++ [seg], wct := max t.chunk.wct w } } := by
  simp only [resultLanded, List.length_append, List.length_singleton, if_neg (Nat.not_lt.2 last), noCounter]

theorem resultLanded_counted {d : Nat} (counter : c.dctr = some d) : resultLanded u t c n seg w =
    launchOp (putT u { t with chunk := { t.chunk with landed := true, got := t.chunk.got ++ [seg], wct := max t.chunk.wct w } })
      0 t.ctx t.core .none (.received t.ctx (some d) (max t.chunk.wct w)) := by
  simp only [resultLanded, List.length_append, List.length_singleton, if_neg (Nat.not_lt.2 last), counter]

end resultLanded

section abort
variable {msg : List Byte} (mine : ForChunk t c k 3 msg) (good : redBad s msg = false) (open_ : t.chunk.landed = false)
  (empty : t.chunk.got = [])
include mine good open_ empty

theorem exec_collAbortReceive_abort : exec (.collAbortReceive tid msg) s = .next (abortChunk s t k (le msg 24 8)) := by
  have addressed : decide (fld (le msg 8 1) 4 4 = 3 ∧ le msg 0 4 = c.tree ∧ le msg 4 4 = k ∧ le msg 12 4 = t.chunk.round) = true :=
    decide_eq_true ⟨mine.kind, mine.tree, mine.chunk, mine.round⟩
  simp only [exec_collAbortReceive, execCollAbortReceive, ht, hk, addressed, good, open_, empty, Bool.not_true, Bool.false_eq_true,
    List.isEmpty_nil, or_self, if_false]

end abort
end chunk

/-- The fault of chunk `k` that an abort with this status word reports. -/
def abortFault (k status : Nat) : FInfo := { cls := 0x1E, code := 3, addr := status, index := k, eng := 5 }

section abort
variable {s : State} {t : Team} {k st : Nat} {e : FInfo}

theorem abortChunk_unfired (unfired : t.chunk.fired = false) :
    abortChunk s t k st = putT s { t with chunk := { t.chunk with round := t.chunk.round + 1 } } := by
  simp only [abortChunk, unfired, Bool.false_eq_true, if_false]

theorem abortChunk_fired (fired : t.chunk.fired = true) (idle : ∀ o ∈ s.pend, o.op ≠ .chunkOut t.tid) :
    abortChunk s t k st = chunkFault s { t with chunk := { t.chunk with round := t.chunk.round + 1 } } (abortFault k st) := by
  simp only [abortChunk, fired, if_true]
  rw [List.filter_eq_self.2 ?kept]
  case kept =>
    intro o ho
    split
    · next v hop =>
      refine bne_iff_ne.2 ?_
      rintro rfl
      exact idle o ho hop
    · rfl
  rfl

theorem chunkFault_waiter (waits : chunkWaiter s t = true) :
    chunkFault s t e = putT s { t with chunk := { t.chunk with fired := false, got := [], abort := some e } } := by
  simp only [chunkFault, waits, if_true]

/-- With no group left to wait, a fabric fault goes to the service. -/
theorem chunkFault_service (waits : chunkWaiter s t = false) (fabric : e.cls = 0x1E) :
    chunkFault s t e = serviceRecord (putT s { t with chunk := { t.chunk with fired := false, got := [] } }) t.ctx e 0 := by
  simp only [chunkFault, waits, Bool.false_eq_true, if_false, groupless, fabric, if_true]

section fired
variable (fired : t.chunk.fired = true) (empty : t.chunk.got = []) (idle : ∀ o ∈ s.pend, o.op ≠ .chunkOut t.tid)
include fired empty idle

theorem abortChunk_waiter (waits : chunkWaiter s t = true) : abortChunk s t k st =
    putT s { t with chunk := { t.chunk with fired := false, round := t.chunk.round + 1, abort := some (abortFault k st) } } := by
  rw [abortChunk_fired fired idle, chunkFault_waiter (t := { t with chunk := { t.chunk with round := t.chunk.round + 1 } }) waits, ← empty]

theorem abortChunk_service (waits : chunkWaiter s t = false) : abortChunk s t k st =
    serviceRecord (putT s { t with chunk := { t.chunk with fired := false, round := t.chunk.round + 1 } }) t.ctx (abortFault k st) 0 := by
  rw [abortChunk_fired fired idle, chunkFault_service (t := { t with chunk := { t.chunk with round := t.chunk.round + 1 } }) waits rfl, ← empty]

end fired
end abort

theorem fld_eq_div_mod (x lo len : Nat) : fld x lo len = x / 2 ^ lo % 2 ^ len := congrArg (· % 2 ^ len) (Nat.shiftRight_eq_div_pow x lo)

theorem statusBad_iff (st k : Nat) : statusBad st k = true ↔ st / 2 ^ 56 % 256 = 0 ∨ 5 < st / 2 ^ 56 % 256 ∨ st / 2 ^ 32 % 256 ≠ 0 ∨
    (3 < st / 2 ^ 56 % 256 ∧ st / 2 ^ 40 % 65536 ≠ 0) ∨ st % 2 ^ 32 ≠ k := by
  have reason : fld st 56 8 = st / 2 ^ 56 % 256 := fld_eq_div_mod st 56 8
  have reserved : fld st 32 8 = st / 2 ^ 32 % 256 := fld_eq_div_mod st 32 8
  have rank : fld st 40 16 = st / 2 ^ 40 % 65536 := fld_eq_div_mod st 40 16
  have chunk : fld st 0 32 = st % 2 ^ 32 := (fld_eq_div_mod st 0 32).trans (congrArg (· % 2 ^ 32) (Nat.div_one st))
  rw [← reason, ← reserved, ← rank, ← chunk]
  exact decide_eq_true_iff

/-- Settles O54: station operations by the lines of the record that change, arrivals by what they find, and chunks as they fire, as results
land and as they are aborted. -/
theorem stationAndCollectiveEvents : Obligations.StationAndCollectiveEvents := by
  refine ⟨?start, ?late, ?bytes, ?arrival, ?chunk, statusBad_iff⟩
  case start =>
    rintro s _ id pa n f c k r hf hop rfl hr
    obtain rfl : r = stationResult s pa n c k := hr
    rw [exec_stationOperation_station hf hop]
    refine ⟨fun busy => congrArg _ (stationPerform_waits hop busy), fun free turn good => ⟨fun one => ?_, ?_⟩⟩
    · exact congrArg _ (stationPerform_firstLine hop free turn good one)
    · rintro _ rfl two
      exact congrArg _ (stationPerform_secondLine hop free turn good two)
  case late =>
    intro s id pa n t f c k first r hf hop
    rw [exec_stationOperation_station hf hop]
    exact ⟨fun early => congrArg _ (stationPerform_early hop early), fun past free => congrArg _ (stationPerform_late hop past free)⟩
  case bytes =>
    intro s f pa p m first r
    rw [rdByte_endStation]
    cases lastAt p first <;> rfl
  case arrival =>
    intro s id f a hf hop
    rw [exec_stationOperation_arrival hf hop, exec_errorArrival_arrival hf hop]
    refine ⟨rfl, fun none_ absent => congrArg _ (arrivalPerform_noTeam none_ absent), ?_⟩
    rintro t pa m _ team aligned page access free good rfl
    exact ⟨fun whole lehr inside wellFormed slotInside present room => congrArg _
        (arrivalPerform_lands team aligned page access free good whole lehr inside wellFormed slotInside present room),
      fun malformed => congrArg _ (arrivalPerform_malformed team aligned page access free good malformed)⟩
  case chunk =>
    intro s tid k va n t c ht hk idle
    refine ⟨?alone, ?shared, ?result, ?abort⟩
    case alone => exact fun retired unfired alive alone noCounter =>
      collChunkFireAtRetire_alone hk ht retired unfired alive idle alone noCounter
    case shared => exact fun f r retired unfired alive up many hasData fresh hf read whole =>
      collChunkFireAtRetire_shared hk ht retired unfired alive idle up many hasData fresh hf read whole
    case result =>
      intro msg seg data u w fired open_ good kind tree chunk round hseg inside new hdata free live walked written
      rw [exec_collResultLand_segment hk ht idle fired open_ good ⟨kind, tree, chunk, round⟩ hseg inside new hdata free live walked written]
      exact ⟨fun more => congrArg _ (resultLanded_more more), fun last noCounter => congrArg _ (resultLanded_last last noCounter),
        fun d last counter => congrArg _ (resultLanded_counted last counter)⟩
    case abort =>
      rintro msg _ kind tree chunk round good open_ empty rfl
      obtain rfl := getT_tid ht
      rw [exec_collAbortReceive_abort hk ht ⟨kind, tree, chunk, round⟩ good open_ empty]
      exact ⟨fun fired waits => congrArg _ (abortChunk_waiter fired empty idle waits),
        fun fired waits => congrArg _ (abortChunk_service fired empty idle waits), fun unfired => congrArg _ (abortChunk_unfired unfired)⟩

end Sys2Proof.Proofs
end

section
/-! PROOF. Encoding and decoding (08_encoding.md R216 to R233, 13_tower_network.md R364): every format's fields fill its word, so that a word, a half
or a command is the encoding of what it decodes to, and of nothing else that is well-formed. -/

namespace Sys2Proof.Proofs
open Sys2Proof Sys2Proof.Machine Sys2Proof.Laws

/-! The fields of a format fill the word: a word is the encoding of its opcode and fields. -/

/-- A flag of a word, written as one bit, is that bit of the word. -/
theorem bit1_getLsbD (w : W64) (k : Nat) : bit1 (w.getLsbD k) = bits w k 1 := by
  have oneBit : ∀ b : BitVec 1, bit1 (b == 1#1) = b := by decide
  rw [BitVec.getLsbD_eq_extractLsb', oneBit]

section fields
variable {op : BitVec 8} {w : W64} (h : majorOp w = op.toNat)
include h

theorem opcode_eq_bits : op = bits w 56 8 := (BitVec.eq_of_toNat_eq h).symm

theorem encV_decV : encV op (decV w) = w := by
  simp only [encV, decV, opcode_eq_bits h, bit1_getLsbD, BitVec.extractLsb'_append_extractLsb'_eq_extractLsb']
  exact BitVec.extractLsb'_eq_self

theorem encC_decC : encC op (decC w) = w := by
  simp only [encC, decC, opcode_eq_bits h, bit1_getLsbD, BitVec.extractLsb'_append_extractLsb'_eq_extractLsb']
  exact BitVec.extractLsb'_eq_self

theorem encM_decM : encM op (decM w) = w := by
  simp only [encM, decM, opcode_eq_bits h, bit1_getLsbD, BitVec.extractLsb'_append_extractLsb'_eq_extractLsb']
  exact BitVec.extractLsb'_eq_self

theorem encX_decX : encX op (decX w) = w := by
  simp only [encX, decX, opcode_eq_bits h, bit1_getLsbD, BitVec.extractLsb'_append_extractLsb'_eq_extractLsb']
  exact BitVec.extractLsb'_eq_self

theorem encT_decT : encT op (decT w) = w := by
  simp only [encT, decT, opcode_eq_bits h, bit1_getLsbD, BitVec.extractLsb'_append_extractLsb'_eq_extractLsb']
  exact BitVec.extractLsb'_eq_self

theorem encN_decN : encN op (decN w) = w := by
  simp only [encN, decN, opcode_eq_bits h, bit1_getLsbD, BitVec.extractLsb'_append_extractLsb'_eq_extractLsb']
  exact BitVec.extractLsb'_eq_self

theorem encY_decY : encY op (decY w) = w := by
  simp only [encY, decY, opcode_eq_bits h, bit1_getLsbD, BitVec.extractLsb'_append_extractLsb'_eq_extractLsb']
  exact BitVec.extractLsb'_eq_self

theorem encCane_decCaneCmd : encCane op (decCaneCmd w) = w := by
  simp only [encCane, decCaneCmd, opcode_eq_bits h, bit1_getLsbD, BitVec.extractLsb'_append_extractLsb'_eq_extractLsb']
  exact BitVec.extractLsb'_eq_self

/-- The I bit says which form the other fields are read in (R222). -/
theorem encS_decS : encS op (decS w) = w := by
  have iBit := bit1_getLsbD w 51
  simp only [encS, decS]
  cases form : w.getLsbD 51 with
  | false =>
    have zero : 0#1 = bits w 51 1 := by rwa [form] at iBit
    simp only [Bool.false_eq_true, if_false, zero, opcode_eq_bits h, bit1_getLsbD, BitVec.extractLsb'_append_extractLsb'_eq_extractLsb']
    exact BitVec.extractLsb'_eq_self
  | true =>
    have one : 1#1 = bits w 51 1 := by rwa [form] at iBit
    simp only [if_true, one, opcode_eq_bits h, bit1_getLsbD, BitVec.extractLsb'_append_extractLsb'_eq_extractLsb']
    exact BitVec.extractLsb'_eq_self

end fields

theorem encHalf_decHalf {cop : BitVec 5} {h : BitVec 32} (hc : (h.extractLsb' 27 5).toNat = cop.toNat) : encHalf cop (decHalf h) = h := by
  obtain rfl : cop = h.extractLsb' 27 5 := (BitVec.eq_of_toNat_eq hc).symm
  simp only [encHalf, decHalf, BitVec.extractLsb'_append_extractLsb'_eq_extractLsb']
  exact BitVec.extractLsb'_eq_self

theorem majorOp_lt (w : W64) : majorOp w < 256 := (bits w 56 8).isLt

/-! What an encoded word reads as, by its format: its opcode and its fields. -/

section reads
variable {n : Nat} {op : BitVec 8} {w : W64} (hn : majorOp w = n)
include hn

theorem reads_encV {v : VWord} (e : some (encV op v) = some w) : op.toNat = n ∧ decV w = v := by
  obtain rfl := Option.some.inj e
  exact ⟨(majorOp_encV op v).symm.trans hn, decV_encV op v⟩

theorem reads_encS {v : SWord} (e : some (encS op v) = some w) : op.toNat = n ∧ decS w = v := by
  obtain rfl := Option.some.inj e
  exact ⟨(majorOp_encS op v).symm.trans hn, decS_encS op v⟩

theorem reads_encC {v : CWord} (e : some (encC op v) = some w) : op.toNat = n ∧ decC w = v := by
  obtain rfl := Option.some.inj e
  exact ⟨(majorOp_encC op v).symm.trans hn, decC_encC op v⟩

theorem reads_encM {v : MWord} (e : some (encM op v) = some w) : op.toNat = n ∧ decM w = v := by
  obtain rfl := Option.some.inj e
  exact ⟨(majorOp_encM op v).symm.trans hn, decM_encM op v⟩

theorem reads_encX {v : XWord} (e : some (encX op v) = some w) : op.toNat = n ∧ decX w = v := by
  obtain rfl := Option.some.inj e
  exact ⟨(majorOp_encX op v).symm.trans hn, decX_encX op v⟩

theorem reads_encT {v : TWord} (e : some (encT op v) = some w) : op.toNat = n ∧ decT w = v := by
  obtain rfl := Option.some.inj e
  exact ⟨(majorOp_encT op v).symm.trans hn, decT_encT op v⟩

theorem reads_encN {v : NWord} (e : some (encN op v) = some w) : op.toNat = n ∧ decN w = v := by
  obtain rfl := Option.some.inj e
  exact ⟨(majorOp_encN op v).symm.trans hn, decN_encN op v⟩

theorem reads_encY {v : YWord} (e : some (encY op v) = some w) : op.toNat = n ∧ decY w = v := by
  obtain rfl := Option.some.inj e
  exact ⟨(majorOp_encY op v).symm.trans hn, decY_encY op v⟩

theorem reads_encCane {v : CaneCmd} (e : some (encCane op v) = some w) : op.toNat = n ∧ decCaneCmd w = v := by
  obtain rfl := Option.some.inj e
  exact ⟨(majorOp_encCane op v).symm.trans hn, decCaneCmd_encCane op v⟩

end reads

theorem reads_encHalf {n : Nat} {cop : BitVec 5} {h : Half} {w : W64} (hn : ((w.setWidth 32).extractLsb' 27 5).toNat = n)
    (e : some ((encHalf cop h).setWidth 64) = some w) : cop.toNat = n ∧ decHalf (w.setWidth 32) = h := by
  obtain rfl := Option.some.inj e
  have low : ((encHalf cop h).setWidth 64).setWidth 32 = encHalf cop h := by simp
  rw [low] at hn ⊢
  exact ⟨(cop_encHalf cop h).symm.trans hn, decHalf_encHalf cop h⟩

/-- A well-formed core word is read back from its encoding: its opcode leads to the row of its name, and its fields are the ones encoded. Of
the rows that share an opcode its well-formedness says which it is. -/
theorem decodeWord_of_encode {i : Instr} {w : W64} (wf : i.wellFormed = true) (e : encode i = some w) (core : (form 64 i).isSome = true) :
    decodeWord w = some i := by
  delta decodeWord
  generalize hn : majorOp w = n
  cases i with
  | sAdd v | sSub v | sMul v | sMulh v | sDiv v | sRem v | sAnd v | sOr v | sXor v | sAndn v | sShl v | sShr v | sSar v | sMin v | sMax v
  | sClz v | sPopc v | sBfx v | sBfi v | sSxt v | sZxt v | sCmp v | sSel v | sMov v | sLi v | sLih v | sLea v | sSr v | bx v | callx v
  | ret v | exit v | launch v | yield v | nap v | fence v | barInit v | barArv v | barWait v | barSync v | cbar v | lrInit v | lrAwait v
  | lrRel v | cpIn v | cpOut v | cpG v | cpHalo v | cpMc v | ccPrf v | ccWb v | ccInv v | ccWays v | spOpen v | spKeep v | spDrop v
  | fbSet v | ebSend v | paClose v | acGet v | acWait v | wvCommit v =>
    obtain ⟨rfl, rfl⟩ := reads_encS hn e
    rfl
  | br v | bc v | bv v | join v | bt v | call v | loop v | ipf v | ipin v | iunpin v =>
    obtain ⟨rfl, rfl⟩ := reads_encC hn e
    rfl
  | spawn v | regroup v | vAdd v | vSub v | vMul v | vMulh v | vMad v | vAbsd v | vMin v | vMax v | vAnd v | vOr v | vXor v | vAndn v
  | vShl v | vShr v | vSar v | vClz v | vPopc v | vBfx v | vBfi v | vSel v | vCmp v | vMov v | vLi v | vFroms v | vTos v | vFadd v | vFsub v
  | vFmul v | vFma v | vFmin v | vFmax v | vFcmp v | vFrnd v | vFclass v | vFdot2 v | vCvt v | vQuant v | vDequant v | vPack v | vUnpack v
  | vRcp v | vRsq v | vSqrt v | vExp2 v | vLog2 v | vSin v | vCos v | vAct v | xShf v | xBfly v | xBcast v | xScan v | xRed v | xCompact v
  | voteAny v | voteAll v | voteBal v | mAnd v | mOr v | mXor v | mAndn v | mPopc v | mFfs v | mSet v | atAdd v | atSub v | atMin v
  | atMax v | atAnd v | atOr v | atXor v | atXchg v | atCas v | atCas2 v | atFadd v | rngDraw v | farAdd v =>
    obtain ⟨rfl, rfl⟩ := reads_encV hn e
    rfl
  | ldG v | stG v | ldS v | stS v | ldL v | stL v | ldX v =>
    obtain ⟨rfl, rfl⟩ := reads_encM hn e
    rfl
  | mxMma v | mxMmaf v | mxZero v | mxLd v | mxSt v | mxWait v | mxRel v | plTake v =>
    obtain ⟨rfl, rfl⟩ := reads_encX hn e
    rfl
  | twXin v | twXout v | twRun v | twWait v | farFence v =>
    obtain ⟨rfl, rfl⟩ := reads_encT hn e
    rfl
  | netSend v | netGet v | netArm v | cntInit v | cntWait v | cntGet v | collStep v =>
    obtain ⟨rfl, rfl⟩ := reads_encN hn e
    rfl
  | trap v | rte v | sysGet v | bkpt v | prio v | nop v | halt v =>
    obtain ⟨rfl, rfl⟩ := reads_encY hn e
    rfl
  | lrFill v | paOpen v =>
    obtain ⟨rfl, rfl⟩ := reads_encS hn e
    exact congrArg some (if_neg (ne_true_of_eq_false (Bool.not_inj wf)))
  | fbTab v =>
    obtain ⟨rfl, rfl⟩ := reads_encV hn e
    exact congrArg some (if_neg (ne_true_of_eq_false (Bool.not_inj wf)))
  | plPass v =>
    obtain ⟨rfl, rfl⟩ := reads_encX hn e
    exact congrArg some (if_neg (ne_true_of_eq_false (Bool.not_inj wf)))
  | lrFillPut v | paOpenRp v =>
    obtain ⟨rfl, rfl⟩ := reads_encS hn e
    exact congrArg some (if_pos wf)
  | fbTabSet v =>
    obtain ⟨rfl, rfl⟩ := reads_encV hn e
    exact congrArg some (if_pos wf)
  | plPassFree v =>
    obtain ⟨rfl, rfl⟩ := reads_encX hn e
    exact congrArg some (if_pos wf)
  | sysSet v =>
    obtain ⟨rfl, rfl⟩ := reads_encY hn e
    obtain ⟨noAtinv, noWake⟩ := Bool.and_eq_true_iff.1 wf
    exact congrArg some ((if_neg (of_decide_eq_true noAtinv)).trans (if_neg (of_decide_eq_true noWake)))
  | atinv v =>
    obtain ⟨rfl, rfl⟩ := reads_encY hn e
    exact congrArg some (if_pos (of_decide_eq_true wf))
  | wake v =>
    obtain ⟨rfl, rfl⟩ := reads_encY hn e
    have noAtinv : (decY w).sreg ≠ 0x8011#16 := by rw [of_decide_eq_true wf]; decide
    exact congrArg some ((if_neg noAtinv).trans (if_pos (of_decide_eq_true wf)))
  | _ => cases core

theorem decodeHalf_of_encode {i : Instr} {w : W64} (e : encode i = some w) (half : (halfOf i).isSome = true) :
    decodeHalf (w.setWidth 32) = some i := by
  delta decodeHalf
  generalize hn : ((w.setWidth 32).extractLsb' 27 5).toNat = n
  cases i with
  | pairVAdd v | pairVSub v | pairVMul v | pairVMulh v | pairVAbsd v | pairVMin v | pairVMax v | pairVAnd v | pairVOr v | pairVXor v
  | pairVAndn v | pairVShl v | pairVShr v | pairVSar v | pairVMov v | pairVClz v | pairVPopc v | pairVFadd v | pairVFsub v | pairVFmul v
  | pairVFmin v | pairVFmax v | pairVFrnd v | pairVFclass v =>
    obtain ⟨rfl, rfl⟩ := reads_encHalf hn e
    rfl
  | _ => cases half

theorem decodeCane_of_encode {i : Instr} {w : W64} (e : encode i = some w) (noCore : (form 64 i).isNone = true)
    (noHalf : (halfOf i).isNone = true) : decodeCane w = some i := by
  have cane : ((form 64 i).isNone && (halfOf i).isNone && (encode i).isSome) = true := by rw [noCore, noHalf, e]; rfl
  delta decodeCane
  generalize hn : majorOp w = n
  cases i with
  | caneVAdd v | caneVSub v | caneVMul v | caneVMad v | caneVMin v | caneVMax v | caneVAnd v | caneVOr v | caneVXor v | caneVAndn v
  | caneVShl v | caneVShr v | caneVSar v | caneVCmp v | caneVMov v | caneVLi v | cPush v | cElse v | cPop v | cBfa v =>
    obtain ⟨rfl, rfl⟩ := reads_encCane hn e
    rfl
  | _ => cases cane

/-- Settles O2: by the format of each instruction, its opcode and fields are read back. -/
theorem encodedInstructionDecodes : Obligations.EncodedInstructionDecodes :=
  fun _ _ wf e => ⟨decodeWord_of_encode wf e, decodeHalf_of_encode e, decodeCane_of_encode e⟩

/-! The other direction: each opcode's row. -/

/-- One of two rows that share an opcode, chosen by a bit of the word, is an answer if each is for its value of the bit. -/
theorem encodes_ite {c : Bool} {i j : Instr} {w : W64} (set : c = true → i.wellFormed = true ∧ encode i = some w)
    (clear : c = false → j.wellFormed = true ∧ encode j = some w) :
    (if c then i else j).wellFormed = true ∧ encode (if c then i else j) = some w := by
  cases c with
  | true => exact set rfl
  | false => exact clear rfl

/-- A field tells apart the rows of the opcodes 0x93, 0xC6, 0xB8, 0xC4 and 0xF3; each other opcode has one row. -/
theorem decodeWord_encodes {w : W64} {i : Instr} (h : decodeWord w = some i) : i.wellFormed = true ∧ encode i = some w := by
  have lt := majorOp_lt w
  delta decodeWord at h
  generalize hn : majorOp w = n at h lt
  by_cases shared : n = 0x93 ∨ n = 0xC6 ∨ n = 0xB8 ∨ n = 0xC4 ∨ n = 0xF3
  · obtain rfl | rfl | rfl | rfl | rfl := shared <;> obtain rfl := Option.some.inj h
    · exact encodes_ite (fun set => ⟨set, congrArg some (encS_decS hn)⟩) fun clear => ⟨congrArg not clear, congrArg some (encS_decS hn)⟩
    · exact encodes_ite (fun set => ⟨set, congrArg some (encS_decS hn)⟩) fun clear => ⟨congrArg not clear, congrArg some (encS_decS hn)⟩
    · exact encodes_ite (fun set => ⟨set, congrArg some (encX_decX hn)⟩) fun clear => ⟨congrArg not clear, congrArg some (encX_decX hn)⟩
    · exact encodes_ite (fun set => ⟨set, congrArg some (encV_decV hn)⟩) fun clear => ⟨congrArg not clear, congrArg some (encV_decV hn)⟩
    · have word := congrArg some (encY_decY (op := 0xF3) hn)
      clear h
      split_ifs with atinv wake
      · exact ⟨decide_eq_true atinv, word⟩
      · exact ⟨decide_eq_true wake, word⟩
      · exact ⟨Bool.and_eq_true_iff.2 ⟨decide_eq_true atinv, decide_eq_true wake⟩, word⟩
  · interval_cases n
    any_goals contradiction
    all_goals
      cases h
      refine ⟨rfl, congrArg some ?_⟩
      simp only [hn, encS_decS, encC_decC, encV_decV, encM_decM, encX_decX, encT_decT, encN_decN, encY_decY, BitVec.reduceToNat]

theorem decodeHalf_encodes {h : BitVec 32} {i : Instr} (e : decodeHalf h = some i) : i.wellFormed = true ∧ encode i = some (h.setWidth 64) := by
  have lt : (h.extractLsb' 27 5).toNat < 32 := (h.extractLsb' 27 5).isLt
  delta decodeHalf at e
  generalize hn : (h.extractLsb' 27 5).toNat = n at e lt
  interval_cases n
  all_goals
    cases e <;> exact ⟨rfl, congrArg (fun u : BitVec 32 => some (u.setWidth 64)) (encHalf_decHalf hn)⟩

theorem decodeCane_encodes {w : W64} {i : Instr} (h : decodeCane w = some i) : i.wellFormed = true ∧ encode i = some w := by
  have lt := majorOp_lt w
  delta decodeCane at h
  generalize hn : majorOp w = n at h lt
  interval_cases n
  all_goals
    cases h <;> exact ⟨rfl, congrArg some (encCane_decCaneCmd hn)⟩

/-- Settles O3: of each decoder, the answers row by row. -/
theorem decodedInstructionEncodes : Obligations.DecodedInstructionEncodes :=
  ⟨fun _ _ => decodeWord_encodes, fun _ _ => decodeHalf_encodes, fun _ _ => decodeCane_encodes⟩

/-- Settles O1: each sample is the encoding of its instruction, which is read back. -/
theorem decodeSampleWords : Obligations.DecodeSampleWords := by
  refine ⟨?_, ?_, ?_, ?_, ?_, ?_, ?_, ?_, decodeCane_of_encode rfl rfl rfl⟩
  all_goals exact decodeWord_of_encode rfl rfl rfl

end Sys2Proof.Proofs
end

section
/-! PROOF. Where a performed word, a transfer and the halves of a pair word leave their slot (08_encoding.md R207, R214, R229). -/

namespace Sys2Proof.Proofs
open Sys2Proof Sys2Proof.Machine Sys2Proof.Laws

/-- The second half of a pair word moves its slot on as a whole word does (R229). -/
theorem advance_second_half {s : State} {gid : Nat} {b : Bool} {g : Group} (hg : getG s gid = some g) (half : (slotOf g b).half = true) :
    advance s gid b true false = advance s gid b false false := by
  simp only [advance, hg, half, Bool.not_true, Bool.and_false, Bool.false_and]

/-- Settles O8: the slot after a word, a transfer, and either half of a pair word. -/
theorem wordsMoveTheirSlot : Obligations.WordsMoveTheirSlot := by
  refine ⟨fun s x g hg => advance_moved hg, fun s x t g hg => jumpTo_transferred hg, fun s x g hg half => advance_first_half hg half,
    fun s x g hg half => ?second⟩
  case second =>
    rw [performedHalf, advance_second_half hg half]
    exact advance_moved hg

end Sys2Proof.Proofs
end

section
/-! PROOF. Words that take the fate of a check before they have any effect (08_encoding.md R208, R233; 21_instruction_exceptions.md R463 to R467):
every core word runs by `runWord`, every pair half by `runHalf`, and both make these checks first. -/

namespace Sys2Proof.Proofs
open Sys2Proof Sys2Proof.Machine Sys2Proof.Laws

/-! Every core word and every pair half has its checks in common. -/

theorem shiftWord_eq_runWord (i : Instr) (w : VWord) (f : Nat → Nat → Nat → Nat) :
    ∃ body, ∀ s, shiftWord i w s f = runWord i w.msel.toNat false s body := by
  unfold shiftWord
  cases sat0 w
  · exact ⟨_, fun _ => rfl⟩
  · exact ⟨_, fun _ => rfl⟩

/-- A core word's meaning is a body behind the checks of R463, with the mask select and lane use of its kind. -/
theorem exec_eq_runWord {i : Instr} (core : (form 64 i).isSome = true) :
    ∃ body, ∀ s, exec i s = runWord i (mselOf i) (perLaneOf i) s body := by
  cases i
  case vShl w | vShr w | vSar w => exact shiftWord_eq_runWord _ w _
  all_goals cases core <;> exact ⟨_, fun _ => rfl⟩

/-- A pair half's meaning is a body behind the checks of its whole word (R467). -/
theorem exec_eq_runHalf {i : Instr} (half : (halfOf i).isSome = true) : ∃ body, ∀ s, exec i s = runHalf s body := by
  cases i
  all_goals cases half <;> exact ⟨_, fun _ => rfl⟩

section faults
variable {s : State} {i : Instr} {x : Issue} {f : FInfo}

theorem exec_wordFault (core : (form 64 i).isSome = true) (hx : issuer s ((encode i).getD 0#64) (mselOf i) (perLaneOf i) = some x)
    (header : headerFault s x.g x.b = none) (bad : wordFault x.g x.slot i x.w.toNat = some f) : exec i s = .next (raised x s f) := by
  obtain ⟨body, run⟩ := exec_eq_runWord core
  rw [run]
  simp only [runWord, hx, header, bad, settle_bad]

theorem exec_headerFault {t : State} (core : (form 64 i).isSome = true)
    (hx : issuer s ((encode i).getD 0#64) (mselOf i) (perLaneOf i) = some x) (bad : headerFault s x.g x.b = some t) :
    exec i s = .next t := by
  obtain ⟨body, run⟩ := exec_eq_runWord core
  rw [run]
  simp only [runWord, hx, bad]

/-- Before the first half of a pair word issues, the whole word has been checked. -/
theorem exec_pairFault (half : (halfOf i).isSome = true) (hx : issuer s 0#64 0 false = some x) (header : headerFault s x.g x.b = none)
    (first : x.slot.half = false) (bad : pairFault x.g (x.slot.words.getD x.slot.idx 0#64).toNat = some f) :
    exec i s = .next (settle x true (.bad s f)) := by
  obtain ⟨body, run⟩ := exec_eq_runHalf half
  rw [run]
  simp only [runHalf, hx, header, first, bad, Bool.false_eq_true, if_false]

end faults

/-! A word that no row of the opcode map names (R233). -/

theorem runUnknown_of_header {s : State} {g : Group} {b : Bool} (header : headerFault s g b = none) (w : W64) :
    runUnknown s g b w = raiseAt s g.gid b { cls := 1, code := 1, index := w.toNat / 2 ^ 56, lanes := some (slotOf g b).mask } := by
  simp only [runUnknown, header]

theorem runMove_issue_unknown {s : State} {core part gid : Nat} {b : Bool} {rest : List (Nat × Bool)} {g : Group}
    (cur : (getPart s core part).cur = (gid, b) :: rest) (hg : getG s gid = some g)
    (whole : (slotOf g b).hdr.getLsbD (32 + (slotOf g b).idx) = false)
    (unknown : decodeWord ((slotOf g b).words.getD (slotOf g b).idx 0#64) = none) :
    runMove s (.issue core part) =
      .next (runUnknown (withFocus s (.word gid b)) g b ((slotOf g b).words.getD (slotOf g b).idx 0#64)) := by
  simp only [runMove, toRun, cur, issueSlot, hg, whole, unknown, Bool.false_eq_true, if_false]

/-! Privileged words (R264, R429). -/

/-- A word with a sound encoding that its mode refuses takes class 0x02. -/
theorem wordFault_of_privBad {g : Group} {sl : Slot} {i : Instr} {f : Form} {w c n : Nat} (hf : form g.width i = some f)
    (sound : decodeBad g sl i f w = none) (refused : privBad g i = some (c, n)) :
    wordFault g sl i w = some { cls := 2, code := c, index := n } := by
  simp only [wordFault, hf, sound, refused]

theorem privBad_halt {g : Group} (w : YWord) (compute : g.core < 96) : privBad g (.halt w) = some (1, 0xF7) := if_pos compute

/-- A register of the service's range is refused outside context 0. -/
theorem privBad_sreg {g : Group} {i : Instr} {n : Nat} {wr : Bool} (sreg : sregOf i = some (n, wr)) (service : 0x8000 ≤ n) (ctx : g.ctx ≠ 0) :
    privBad g i = some (2, n) := by
  unfold privBad
  split
  · cases sreg
  · simp only [sreg, service, ctx, ne_eq, not_false_eq_true, and_self, if_true]

/-- Settles O5: the checks a word meets, in their order, and the words that their mode refuses. -/
theorem illegalAndPrivilegedWords : Obligations.IllegalAndPrivilegedWords := by
  refine ⟨?unknown, ⟨fun s i x f => exec_wordFault, fun s i x t => exec_headerFault, fun s i x f => exec_pairFault⟩,
    fun g sl w f hf sound compute => wordFault_of_privBad hf sound (privBad_halt w compute),
    fun g sl w f hf sound service ctx => wordFault_of_privBad hf sound (privBad_sreg rfl service ctx),
    fun g sl w f i hi hf sound service ctx => wordFault_of_privBad hf sound (privBad_sreg (wr := true) ?write service ctx)⟩
  case unknown =>
    intro s t core part gid b r rest g turns move cur hg whole unknown header
    rw [step_of_turn turns, move, runMove_issue_unknown cur hg whole unknown, runUnknown_of_header header, getG_gid hg]
  case write =>
    simp only [List.mem_cons, List.not_mem_nil, or_false] at hi
    obtain rfl | rfl | rfl := hi <;> rfl

end Sys2Proof.Proofs
end

section
/-! PROOF. Shared by vector results: writes of vector registers, the sub-elements of what an operation packs, and the flags that it raises
(02_execution_model.md R28, R33, 07_numbers.md R179). -/

namespace Sys2Proof.Proofs
open Sys2Proof Sys2Proof.Machine Sys2Proof.Laws

/-! Several writes of vector registers. -/

theorem wvs_cons (g : Group) (p : Nat × Nat × W64) (l : List (Nat × Nat × W64)) : wvs g (p :: l) = wvs (wv g p.1 p.2.1 p.2.2) l := rfl

/-- Writes of vector registers change nothing else of their group. -/
theorem wvs_eq (g : Group) (l : List (Nat × Nat × W64)) : wvs g l = { g with v := (wvs g l).v } := by
  induction l generalizing g with
  | nil => rfl
  | cons p l ih => exact ih (wv g p.1 p.2.1 p.2.2)

theorem rv_wvs_of_forall_ne {l : List (Nat × Nat × W64)} (lanes : ∀ p ∈ l, p.2.1 < 64) {r k : Nat} (hk : k < 64)
    (other : ∀ p ∈ l, ¬(r = p.1 ∧ k = p.2.1)) (g : Group) : rv (wvs g l) r k = rv g r k := by
  induction l generalizing g with
  | nil => rfl
  | cons p l ih =>
    obtain ⟨hp, hl⟩ := List.forall_mem_cons.1 lanes
    obtain ⟨np, nl⟩ := List.forall_mem_cons.1 other
    rw [wvs_cons, ih hl nl, rv_wv _ _ _ _ _ _ hp hk, if_neg np]

/-- Of writes whose places differ each stands. -/
theorem rv_wvs_of_mem {l : List (Nat × Nat × W64)} (lanes : ∀ p ∈ l, p.2.1 < 64) (places : (l.map fun p => (p.1, p.2.1)).Nodup)
    {r k : Nat} {v : W64} (mem : (r, k, v) ∈ l) (g : Group) : rv (wvs g l) r k = v := by
  induction l generalizing g with
  | nil => cases mem
  | cons p l ih =>
    obtain ⟨hp, hl⟩ := List.forall_mem_cons.1 lanes
    obtain ⟨new, rest⟩ := List.nodup_cons.1 places
    rw [wvs_cons]
    obtain rfl | mem := List.mem_cons.1 mem
    · have other : ∀ q ∈ l, ¬(r = q.1 ∧ k = q.2.1) := by
        rintro q hq ⟨rfl, rfl⟩
        exact new (List.mem_map.2 ⟨q, hq, rfl⟩)
      rw [rv_wvs_of_forall_ne hl hp other, rv_wv _ _ _ _ _ _ hp hp, if_pos ⟨rfl, rfl⟩]
    · exact ih hl rest mem _

theorem mem_lanesOf {m : W64} {l : Nat} : l ∈ lanesOf m ↔ l < 64 ∧ m.getLsbD l = true := by
  simp [lanesOf]

theorem nodup_lanesOf (m : W64) : (lanesOf m).Nodup := List.nodup_range.filter _

/-! Sub-elements (R28). -/

theorem elem_lt (w k : Nat) (v : W64) : elem w k v < 2 ^ w := Nat.mod_lt _ (Nat.two_pow_pos w)

theorem wrap_lt (w : Nat) (x : Int) : wrap w x < 2 ^ w := by
  have pos : (0 : Int) < (2 ^ w : Nat) := Int.natCast_pos.2 (Nat.two_pow_pos w)
  have nonneg := Int.emod_nonneg x pos.ne'
  have lt := Int.emod_lt_of_pos x pos
  unfold wrap
  omega

theorem testBit_elem (w k : Nat) (v : W64) (i : Nat) : (elem w k v).testBit i = (decide (i < w) && v.getLsbD (k * w + i)) := by
  simp only [elem, fld, Nat.testBit_mod_two_pow, Nat.testBit_shiftRight, BitVec.testBit_toNat]

/-- A sub-element lies within its register. -/
theorem elem_end_le {w k : Nat} (hk : k < 64 / w) : k * w + w ≤ 64 := by
  calc k * w + w = (k + 1) * w := (Nat.succ_mul k w).symm
    _ ≤ 64 / w * w := Nat.mul_le_mul_right w hk
    _ ≤ 64 := Nat.div_mul_le_self 64 w

theorem elem_and (w k : Nat) (a b : W64) : elem w k (a &&& b) = elem w k a &&& elem w k b := by
  refine Nat.eq_of_testBit_eq fun i => ?_
  rw [Nat.testBit_and, testBit_elem, testBit_elem, testBit_elem, BitVec.getLsbD_and]
  cases decide (i < w) <;> rfl

theorem elem_or (w k : Nat) (a b : W64) : elem w k (a ||| b) = elem w k a ||| elem w k b := by
  refine Nat.eq_of_testBit_eq fun i => ?_
  rw [Nat.testBit_or, testBit_elem, testBit_elem, testBit_elem, BitVec.getLsbD_or]
  cases decide (i < w) <;> rfl

theorem elem_xor (w k : Nat) (a b : W64) : elem w k (a ^^^ b) = elem w k a ^^^ elem w k b := by
  refine Nat.eq_of_testBit_eq fun i => ?_
  rw [Nat.testBit_xor, testBit_elem, testBit_elem, testBit_elem, BitVec.getLsbD_xor]
  cases decide (i < w) <;> rfl

theorem elem_not {w k : Nat} (hk : k < 64 / w) (a : W64) : elem w k (~~~a) = 2 ^ w - 1 - elem w k a := by
  refine Nat.eq_of_testBit_eq fun i => ?_
  rw [Nat.sub_sub, Nat.add_comm 1, Nat.testBit_two_pow_sub_succ (elem_lt w k a), testBit_elem, testBit_elem]
  by_cases hi : i < w
  · have inside : k * w + i < 64 := lt_of_lt_of_le (Nat.add_lt_add_left hi _) (elem_end_le hk)
    simp [hi, inside]
  · simp [hi]

/-- The number that sub-elements make, the first at the low end. -/
def packed (w : Nat) (l : List Nat) : Nat := l.foldr (fun e a => a * 2 ^ w + e % 2 ^ w) 0

theorem packed_cons (w e : Nat) (l : List Nat) : packed w (e :: l) = packed w l * 2 ^ w + e % 2 ^ w := rfl

theorem packed_div_mod {w k : Nat} {l : List Nat} (hk : k < l.length) : packed w l / 2 ^ (k * w) % 2 ^ w = l[k] % 2 ^ w := by
  have low (e : Nat) : e % 2 ^ w < 2 ^ w := Nat.mod_lt e (Nat.two_pow_pos w)
  induction l generalizing k with
  | nil => cases hk
  | cons e l ih =>
    rw [packed_cons]
    cases k with
    | zero => rw [Nat.zero_mul, pow_zero, Nat.div_one, Nat.add_comm, Nat.add_mul_mod_self_right, Nat.mod_mod]; rfl
    | succ k =>
      have up : (packed w l * 2 ^ w + e % 2 ^ w) / 2 ^ w = packed w l := by
        rw [Nat.add_comm, Nat.add_mul_div_right _ _ (Nat.two_pow_pos w), Nat.div_eq_of_lt (low e), Nat.zero_add]
      rw [Nat.succ_mul, Nat.add_comm (k * w), Nat.pow_add, ← Nat.div_div_eq_div_mul, up]
      exact ih (Nat.lt_of_succ_lt_succ hk)

/-- A sub-element of a register is one of the elements that were packed into it. -/
theorem elem_pack {w k : Nat} {l : List Nat} (hk : k < l.length) (fits : k * w + w ≤ 64) : elem w k (pack w l) = l[k] % 2 ^ w := by
  rw [← packed_div_mod hk, ← Nat.shiftRight_eq_div_pow]
  refine Nat.eq_of_testBit_eq fun i => ?_
  rw [testBit_elem, pack, r64, BitVec.getLsbD_ofNat, Nat.testBit_mod_two_pow, Nat.testBit_shiftRight]
  by_cases hi : i < w
  · simp only [hi, lt_of_lt_of_le (Nat.add_lt_add_left hi _) fits, decide_true, Bool.true_and]
    rfl
  · simp only [hi, decide_false, Bool.false_and]

section each
variable {w k : Nat} (hk : k < 64 / w)
include hk

theorem elem_pack_range (f : Nat → Nat) : elem w k (pack w ((List.range (64 / w)).map f)) = f k % 2 ^ w := by
  rw [elem_pack (by simpa using hk) (elem_end_le hk), List.getElem_map, List.getElem_range]

theorem elem_each1 (f : Nat → Nat) (a : W64) : elem w k (each1 w f a) = f (elem w k a) % 2 ^ w := elem_pack_range hk _

theorem elem_each2 (f : Nat → Nat → Nat) (a b : W64) : elem w k (each2 w f a b) = f (elem w k a) (elem w k b) % 2 ^ w :=
  elem_pack_range hk _

theorem elem_each1_of_lt {f : Nat → Nat} {a : W64} (lt : f (elem w k a) < 2 ^ w) : elem w k (each1 w f a) = f (elem w k a) :=
  (elem_each1 hk f a).trans (Nat.mod_eq_of_lt lt)

theorem elem_each2_of_lt {f : Nat → Nat → Nat} {a b : W64} (lt : f (elem w k a) (elem w k b) < 2 ^ w) :
    elem w k (each2 w f a b) = f (elem w k a) (elem w k b) :=
  (elem_each2 hk f a b).trans (Nat.mod_eq_of_lt lt)

theorem elem_each2F (f : Nat → Nat → Nat × Nat) (a b : W64) :
    elem w k (each2F w f a b).1 = (f (elem w k a) (elem w k b)).1 % 2 ^ w := by
  rw [each2F, packF, List.map_map]
  exact elem_pack_range hk _

end each

/-! Values that fit a sub-element. -/

theorem ite_lt {p : Prop} [Decidable p] {a b n : Nat} (ha : a < n) (hb : b < n) : (if p then a else b) < n := by
  split <;> assumption

theorem shlE_lt (w a n : Nat) : shlE w a n < 2 ^ w := ite_lt (Nat.two_pow_pos w) (Nat.mod_lt _ (Nat.two_pow_pos w))

theorem shrE_lt {w a : Nat} (n : Nat) (ha : a < 2 ^ w) : shrE w a n < 2 ^ w :=
  ite_lt (Nat.two_pow_pos w) (lt_of_le_of_lt (Nat.shiftRight_le a n) ha)

theorem clz_lt (w a : Nat) : clz w a < 2 ^ w := by
  have le : clz w a ≤ w := by
    unfold clz
    split <;> omega
  exact lt_of_le_of_lt le Nat.lt_two_pow_self

theorem popc_lt (w a : Nat) : popc w a < 2 ^ w := by
  have le : popc w a ≤ w := (List.length_filter_le _ _).trans_eq List.length_range
  exact lt_of_le_of_lt le Nat.lt_two_pow_self

/-! Flags (R179). -/

theorem testBit_foldl_or {α : Type} (f : α → Nat) (l : List α) (a b : Nat) :
    (l.foldl (fun a x => a ||| f x) a).testBit b = (a.testBit b || l.any fun x => (f x).testBit b) := by
  induction l generalizing a with
  | nil => simp
  | cons x l ih => rw [List.foldl_cons, ih, Nat.testBit_or, List.any_cons, Bool.or_assoc]

theorem testBit_each2F (w : Nat) (f : Nat → Nat → Nat × Nat) (a b : W64) (i : Nat) :
    (each2F w f a b).2.testBit i = true ↔ ∃ k < 64 / w, (f (elem w k a) (elem w k b)).2.testBit i = true := by
  simp [each2F, packF, testBit_foldl_or]

/-- Results that raise flags are written, and their flags join the group's. -/
theorem writeF_eq (g : Group) (l : List (Nat × Nat × W64 × Nat)) :
    writeF g l = { g with
      v := (wvs g (l.map fun x => (x.1, x.2.1, x.2.2.1))).v,
      flags := g.flags ||| BitVec.ofNat 5 (l.foldl (fun a x => a ||| x.2.2.2) 0) } :=
  congrArg (raiseFlags · _) (wvs_eq g _)

end Sys2Proof.Proofs
end

section
/-! PROOF. The halves of pair words (08_encoding.md R229, R230). -/

namespace Sys2Proof.Proofs
open Sys2Proof Sys2Proof.Machine Sys2Proof.Laws

/-- One result in each lane of a mask, written to register `d`, is a block of one register (R38, R229). -/
theorem blockIn_lanes {g : Group} {d n : Nat} {act : W64} {val : Nat → W64} {f : Nat → Nat → Nat → Nat → Nat}
    (value : ∀ l k, k < 64 / n → elem n k (val l) = f 0 0 l k) :
    BlockIn (wvs g ((lanesOf act).map fun l => (d, l, val l))) g d 1 1 n act f := by
  have lanes : ∀ p ∈ (lanesOf act).map fun l => (d, l, val l), p.2.1 < 64 := by
    rintro _ hp
    obtain ⟨l, hl, rfl⟩ := List.mem_map.1 hp
    exact (mem_lanesOf.1 hl).1
  refine ⟨fun r c l k hr hc hl active hk => ?inside, fun reg l hl outside => ?outside⟩
  case inside =>
    obtain rfl := Nat.lt_one_iff.1 hr
    obtain rfl := Nat.lt_one_iff.1 hc
    have places : (((lanesOf act).map fun l => (d, l, val l)).map fun p => (p.1, p.2.1)).Nodup := by
      rw [List.map_map]
      exact (nodup_lanesOf act).map fun _ _ e => (Prod.mk.inj e).2
    have mem := List.mem_map_of_mem (f := fun l => (d, l, val l)) (mem_lanesOf.2 ⟨hl, active⟩)
    rw [show d + 16 * 0 + 0 = d from rfl, rv_wvs_of_mem lanes places mem]
    exact value l k hk
  case outside =>
    refine rv_wvs_of_forall_ne lanes hl (fun p hp => ?_) g
    obtain ⟨l', hl', rfl⟩ := List.mem_map.1 hp
    rintro ⟨rfl, rfl⟩
    exact Bool.false_ne_true ((outside 0 0 Nat.one_pos Nat.one_pos rfl).symm.trans (mem_lanesOf.1 hl').2)

/-- The results of a float half in the lanes of exec, with the flags they raise. -/
def floatResults (x : Issue) (h : Half) (t : Nat) (F : Fmt → Nat → Nat → Nat × Nat) : List (Nat × Nat × W64 × Nat) :=
  (lanesOf x.exec).map fun l => (h.d.toNat, l, each2F (tyWidth t) (F (fmtTy t)) (rv x.g h.a.toNat l) (rv x.g h.b.toNat l))

theorem flagsOf_floatResults (x : Issue) (h : Half) (t : Nat) (F : Fmt → Nat → Nat → Nat × Nat) :
    FlagsOf (x.g.flags ||| BitVec.ofNat 5 ((floatResults x h t F).foldl (fun a x => a ||| x.2.2.2) 0)) x.g.flags 1 1 (tyWidth t) x.exec
      fun _ _ l k => (F (fmtTy t) (elem (tyWidth t) k (rv x.g h.a.toNat l)) (elem (tyWidth t) k (rv x.g h.b.toNat l))).2 := by
  intro b hb
  have raised : (BitVec.ofNat 5 ((floatResults x h t F).foldl (fun a x => a ||| x.2.2.2) 0)).getLsbD b = true ↔
      ∃ l, (l < 64 ∧ x.exec.getLsbD l = true) ∧
        (each2F (tyWidth t) (F (fmtTy t)) (rv x.g h.a.toNat l) (rv x.g h.b.toNat l)).2.testBit b = true := by
    rw [BitVec.getLsbD_ofNat, testBit_foldl_or]
    simp [floatResults, hb, mem_lanesOf]
  rw [BitVec.getLsbD_or, Bool.or_eq_true, raised]
  simp only [testBit_each2F]
  refine or_congr_right ⟨?_, ?_⟩
  · rintro ⟨l, ⟨hl, active⟩, k, hk, bit⟩
    exact ⟨0, 0, l, k, Nat.one_pos, Nat.one_pos, hl, active, hk, bit⟩
  · rintro ⟨-, -, l, k, -, -, hl, active, hk, bit⟩
    exact ⟨l, ⟨hl, active⟩, k, hk, bit⟩

section halves
variable {s : State} {x : Issue} {h : Half} {t : Nat} {i : Instr} (issues : HalfIssues s x) (ht : ctypeCode h.ctype.toNat = some t)
include issues ht

/-- An integer or logic half writes its function of registers a and b to d in the lanes of exec. -/
theorem blockResult_intHalf {F : Nat → W64 → W64 → W64} (run : exec i s = intHalf h s F) {f : Nat → Nat → Nat → Nat → Nat}
    (value : ∀ l k, k < 64 / tyWidth t → elem (tyWidth t) k (F t (rv x.g h.a.toNat l) (rv x.g h.b.toNat l)) = f 0 0 l k) :
    BlockResult s x i true h.d.toNat 1 1 (tyWidth t) x.exec f := by
  refine ⟨_, _, ?_, wvs_eq _ _, blockIn_lanes value⟩
  rw [run, intHalf, runHalf_issues issues]
  simp only [ht, Option.getD_some, okG]

/-- A float half writes its function of registers a and b to d in the lanes of exec, and raises the flags of every result. -/
theorem blockResultF_floatHalf {F : Fmt → Nat → Nat → Nat × Nat} (run : exec i s = floatHalf h s F) :
    BlockResultF s x i true h.d.toNat 1 1 (tyWidth t) x.exec
      fun _ _ l k => F (fmtTy t) (elem (tyWidth t) k (rv x.g h.a.toNat l)) (elem (tyWidth t) k (rv x.g h.b.toNat l)) := by
  refine ⟨writeF x.g (floatResults x h t F), _, _, ?run, writeF_eq _ _, ?block, flagsOf_floatResults x h t F⟩
  case run =>
    rw [run, floatHalf, runHalf_issues issues]
    simp only [ht, Option.getD_some, okG, floatResults]
  case block =>
    have block := blockIn_lanes (g := x.g) (d := h.d.toNat) (act := x.exec) (n := tyWidth t)
      (val := fun l => (each2F (tyWidth t) (F (fmtTy t)) (rv x.g h.a.toNat l) (rv x.g h.b.toNat l)).1)
      (f := fun _ _ l k => (F (fmtTy t) (elem (tyWidth t) k (rv x.g h.a.toNat l)) (elem (tyWidth t) k (rv x.g h.b.toNat l))).1 % 2 ^ tyWidth t)
      fun l k hk => elem_each2F hk _ _ _
    rw [writeF_eq, floatResults, List.map_map]
    exact block

end halves

/-- Settles O25: each integer or logic half by the sub-elements of its function, and each float half by its function. -/
theorem pairHalves : Obligations.PairHalves := by
  refine ⟨fun s x h t issues ht => ?int, fun s x h t issues ht => ?float⟩
  case int =>
    refine ⟨?add, ?sub, ?mul, ?mulh, ?absd, ?min, ?max, ?and, ?or, ?xor, ?andn, ?shl, ?shr, ?sar, ?mov, ?clz, ?popc⟩
    case add => exact blockResult_intHalf issues ht (exec_pairVAdd h s) fun l k hk => elem_each2_of_lt hk (wrap_lt _ _)
    case sub => exact blockResult_intHalf issues ht (exec_pairVSub h s) fun l k hk => elem_each2_of_lt hk (wrap_lt _ _)
    case mul => exact blockResult_intHalf issues ht (exec_pairVMul h s) fun l k hk => elem_each2_of_lt hk (wrap_lt _ _)
    case mulh => exact blockResult_intHalf issues ht (exec_pairVMulh h s) fun l k hk => elem_each2_of_lt hk (wrap_lt _ _)
    case absd => exact blockResult_intHalf issues ht (exec_pairVAbsd h s) fun l k hk => elem_each2_of_lt hk (Nat.mod_lt _ (Nat.two_pow_pos _))
    case min => exact blockResult_intHalf issues ht (exec_pairVMin h s) fun l k hk => elem_each2_of_lt hk (ite_lt (elem_lt _ _ _) (elem_lt _ _ _))
    case max => exact blockResult_intHalf issues ht (exec_pairVMax h s) fun l k hk => elem_each2_of_lt hk (ite_lt (elem_lt _ _ _) (elem_lt _ _ _))
    case and => exact blockResult_intHalf issues ht (exec_pairVAnd h s) fun l k hk => elem_and _ _ _ _
    case or => exact blockResult_intHalf issues ht (exec_pairVOr h s) fun l k hk => elem_or _ _ _ _
    case xor => exact blockResult_intHalf issues ht (exec_pairVXor h s) fun l k hk => elem_xor _ _ _ _
    case andn =>
      refine blockResult_intHalf issues ht (exec_pairVAndn h s) fun l k hk => ?_
      rw [elem_and, elem_not hk]
    case shl =>
      refine blockResult_intHalf issues ht (exec_pairVShl h s) fun l k hk => ?_
      rw [elem_each2_of_lt hk (shlE_lt _ _ _), shlE, Nat.shiftLeft_eq]
    case shr =>
      refine blockResult_intHalf issues ht (exec_pairVShr h s) fun l k hk => ?_
      rw [elem_each2_of_lt hk (shrE_lt _ (elem_lt _ _ _)), shrE, Nat.shiftRight_eq_div_pow]
    case sar => exact blockResult_intHalf issues ht (exec_pairVSar h s) fun l k hk => elem_each2_of_lt hk (wrap_lt _ _)
    case mov => exact blockResult_intHalf issues ht (exec_pairVMov h s) fun l k hk => rfl
    case clz => exact blockResult_intHalf issues ht (exec_pairVClz h s) fun l k hk => elem_each1_of_lt hk (clz_lt _ _)
    case popc =>
      refine blockResult_intHalf issues ht (exec_pairVPopc h s) fun l k hk => ?_
      rw [elem_each1_of_lt hk (popc_lt _ _), popc, List.countP_eq_length_filter]
  case float =>
    exact ⟨blockResultF_floatHalf issues ht (exec_pairVFadd h s), blockResultF_floatHalf issues ht (exec_pairVFsub h s),
      blockResultF_floatHalf issues ht (exec_pairVFmul h s), blockResultF_floatHalf issues ht (exec_pairVFmin h s),
      blockResultF_floatHalf issues ht (exec_pairVFmax h s), blockResultF_floatHalf issues ht (exec_pairVFrnd h s),
      blockResultF_floatHalf issues ht (exec_pairVFclass h s)⟩

end Sys2Proof.Proofs
end

section
/-! PROOF. The addresses of a global word's lanes, their checks in order, and the lanes that fail while others stand (08_encoding.md R225,
21_instruction_exceptions.md R463, R464). -/

namespace Sys2Proof.Proofs
open Sys2Proof Sys2Proof.Machine Sys2Proof.Laws

/-! Addresses (R225). -/

theorem wrap_eq_toNat_ofInt (w : Nat) (x : Int) : wrap w x = (BitVec.ofInt w x).toNat := (BitVec.toNat_ofInt x).symm

theorem ofInt_toNat_W64 (v : W64) : BitVec.ofInt 64 v.toNat = v := by
  rw [BitVec.ofInt_natCast, BitVec.ofNat_toNat, BitVec.setWidth_eq]

theorem lanesM_eq (x : Issue) (w : MWord) (z : Nat) : lanesM x w z = (lanesOf x.active).map (fun l =>
    (l, (rs x.g w.base.toNat + w.off.signExtend 64 +
      (if w.index.toNat = 511 then BitVec.ofNat 64 (l * z) else rv x.g w.index.toNat l)).toNat)) := by
  refine List.map_congr_left fun l _ => congrArg (Prod.mk l) ?_
  have sext : BitVec.ofInt 64 w.off.toInt = w.off.signExtend 64 := rfl
  rw [wrap_eq_toNat_ofInt, BitVec.ofInt_add, BitVec.ofInt_add, ofInt_toNat_W64, sext]
  split
  · rw [BitVec.ofInt_natCast]
  · rw [BitVec.ofInt_toInt]

/-! The checks of one access (R463 step 6). -/

section check
variable (s : State) (g : Group) (lane need acc code : Nat) {va z : Nat} {al : Bool}

theorem laneCheck_beyond (beyond : 2 ^ 57 < va + z) :
    laneCheck s g lane va z need acc al code = .bad { cls := 6, code := 1, addr := va, lane := some lane } :=
  if_pos (.inr beyond)

theorem laneCheck_misaligned (pos : 0 < z) (below : va + z ≤ 2 ^ 57) (aligned : al = true) (off : va % z ≠ 0) :
    laneCheck s g lane va z need acc al code = .bad { cls := 4, code := code, addr := va, lane := some lane } :=
  (if_neg (by omega)).trans (if_pos ⟨aligned, off⟩)

end check

theorem mem_of_lowestCode {l : List FInfo} {f : FInfo} (h : lowestCode l = some f) : f ∈ l := by
  refine List.foldlRecOn l _ (motive := fun a => ∀ f, a = some f → f ∈ l) (fun _ e => by cases e) (fun a ih b hb f e => ?_) f h
  cases a with
  | none =>
    cases e
    exact hb
  | some c =>
    dsimp only at e
    split at e
    · cases e
      exact hb
    · exact ih f e

/-- The access table's refusals of an access name its lane. -/
theorem lane_of_lowestCode {l : List Nat} {bad : Nat → Option (Nat × Nat)} {lane : Nat} {f : FInfo}
    (h : lowestCode (l.filterMap fun a => (bad a).map fun r =>
      ({ cls := 0x18, code := r.1, addr := a, index := r.2, lane := some lane } : FInfo)) = some f) : f.lane = some lane := by
  obtain ⟨a, -, e⟩ := List.mem_filterMap.1 (mem_of_lowestCode h)
  obtain ⟨r, -, rfl⟩ := Option.map_eq_some_iff.1 e
  rfl

/-- All that one access of a lane can give: its lane's bytes, a fault that names the lane, or a page to be walked. -/
theorem laneCheck_cases (s : State) (g : Group) (lane va z need acc : Nat) (al : Bool) (code : Nat) :
    (∃ pas m, laneCheck s g lane va z need acc al code = .ok { lane := lane, va := va, pas := pas, rmost := m } ∧ pas.length = z ∧
      va + z ≤ 2 ^ 57 ∧ (al = true → va % z = 0)) ∨
    (∃ f, laneCheck s g lane va z need acc al code = .bad f ∧ f.lane = some lane) ∨
    ∃ p, laneCheck s g lane va z need acc al code = .miss p := by
  unfold laneCheck
  split
  · exact .inr (.inl ⟨_, rfl, rfl⟩)
  · next below =>
    split
    · exact .inr (.inl ⟨_, rfl, rfl⟩)
    · next aligned =>
      split
      · exact .inr (.inr ⟨_, rfl⟩)
      · exact .inr (.inr ⟨_, rfl⟩)
      · split
        · exact .inr (.inl ⟨_, rfl, rfl⟩)
        · exact .inr (.inl ⟨_, rfl, rfl⟩)
      · exact .inr (.inl ⟨_, rfl, rfl⟩)
      · exact .inr (.inl ⟨_, rfl, rfl⟩)
      · dsimp only
        split
        · next refused => exact .inr (.inl ⟨_, rfl, lane_of_lowestCode refused⟩)
        · exact .inl ⟨_, _, rfl, by simp, by omega, fun h => not_not.1 fun off => aligned ⟨h, off⟩⟩

theorem laneCheck_ok {s : State} {g : Group} {lane va z need acc code : Nat} {al : Bool} {l : Lane}
    (h : laneCheck s g lane va z need acc al code = .ok l) :
    l.lane = lane ∧ l.va = va ∧ l.pas.length = z ∧ va + z ≤ 2 ^ 57 ∧ (al = true → va % z = 0) := by
  obtain ⟨pas, m, e, length, below, aligned⟩ | ⟨f, e, -⟩ | ⟨p, e⟩ := laneCheck_cases s g lane va z need acc al code
  · cases e.symm.trans h
    exact ⟨rfl, rfl, length, below, aligned⟩
  · cases e.symm.trans h
  · cases e.symm.trans h

theorem laneCheck_bad {s : State} {g : Group} {lane va z need acc code : Nat} {al : Bool} {f : FInfo}
    (h : laneCheck s g lane va z need acc al code = .bad f) : f.lane = some lane := by
  obtain ⟨pas, m, e, -⟩ | ⟨f', e, named⟩ | ⟨p, e⟩ := laneCheck_cases s g lane va z need acc al code
  · cases e.symm.trans h
  · cases e.symm.trans h
    exact named
  · cases e.symm.trans h

/-! The faults of a word's lanes stand in the order of their lanes. -/

theorem pairwise_lanesOf (m : W64) : (lanesOf m).Pairwise (· < ·) := List.pairwise_lt_range.filter _

@[simp] theorem badLanes_nil : badLanes [] = [] := rfl
@[simp] theorem badLanes_ok (a : Lane) (l : List LaneRes) : badLanes (.ok a :: l) = badLanes l := rfl
@[simp] theorem badLanes_bad (f : FInfo) (l : List LaneRes) : badLanes (.bad f :: l) = f :: badLanes l := rfl
@[simp] theorem badLanes_miss (p : Nat) (l : List LaneRes) : badLanes (.miss p :: l) = badLanes l := rfl

theorem mem_badLanes {l : List LaneRes} {f : FInfo} : f ∈ badLanes l ↔ LaneRes.bad f ∈ l := by
  induction l with
  | nil => simp
  | cons r l ih => cases r <;> simp [ih]

section lanes
variable (s : State) (x : Issue) {l : List (Nat × Nat)} (z need acc code : Nat) (al : Bool)

theorem checkLanes_cons (p : Nat × Nat) (l : List (Nat × Nat)) : checkLanes s x (p :: l) z need acc al code =
    laneCheck s x.g p.1 p.2 z need acc al code :: checkLanes s x l z need acc al code := rfl

theorem lane_of_mem_badLanes {f : FInfo} (hf : f ∈ badLanes (checkLanes s x l z need acc al code)) : ∃ p ∈ l, f.lane = some p.1 := by
  obtain ⟨p, hp, e⟩ := List.mem_map.1 (mem_badLanes.1 hf)
  exact ⟨p, hp, laneCheck_bad e⟩

theorem pairwise_badLanes (increasing : l.Pairwise fun p q => p.1 < q.1) :
    ((badLanes (checkLanes s x l z need acc al code)).map fun f => f.lane.getD 64).Pairwise (· < ·) := by
  induction l with
  | nil => exact List.Pairwise.nil
  | cons p l ih =>
    obtain ⟨first, rest⟩ := List.pairwise_cons.1 increasing
    rw [checkLanes_cons]
    obtain ⟨pas, m, e, -⟩ | ⟨f, e, named⟩ | ⟨page, e⟩ := laneCheck_cases s x.g p.1 p.2 z need acc al code
    · rw [e, badLanes_ok]
      exact ih rest
    · rw [e, badLanes_bad, List.map_cons, named]
      refine List.pairwise_cons.2 ⟨fun k hk => ?_, ih rest⟩
      obtain ⟨f', hf', rfl⟩ := List.mem_map.1 hk
      obtain ⟨q, hq, later⟩ := lane_of_mem_badLanes s x z need acc code al hf'
      rw [later]
      exact first q hq
    · rw [e, badLanes_miss]
      exact ih rest

end lanes

/-! The fault a word takes (R464). -/

theorem pickFault_concat (l : List FInfo) (f : FInfo) : pickFault (l ++ [f]) =
    match pickFault l with
    | none => some f
    | some b => if rank f.cls < rank b.cls then some f else some b := by
  rw [pickFault, List.foldl_append]
  rfl

theorem pickFault_eq_none {l : List FInfo} (h : pickFault l = none) : l = [] := by
  induction l using List.reverseRecOn with
  | nil => rfl
  | append_singleton l a _ =>
    rw [pickFault_concat] at h
    split at h
    · cases h
    · split at h <;> cases h

/-- The fault picked is the first of those of the least rank. -/
theorem pickFault_first {l : List FInfo} {f : FInfo} (h : pickFault l = some f) :
    ∃ before after, l = before ++ f :: after ∧ (∀ e ∈ before, rank f.cls < rank e.cls) ∧ ∀ e ∈ after, rank f.cls ≤ rank e.cls := by
  induction l using List.reverseRecOn generalizing f with
  | nil => cases h
  | append_singleton l a ih =>
    rw [pickFault_concat] at h
    cases e : pickFault l with
    | none =>
      rw [e] at h
      cases h
      cases pickFault_eq_none e
      exact ⟨[], [], rfl, by simp, by simp⟩
    | some b =>
      obtain ⟨before, after, rfl, above, least⟩ := ih e
      rw [e] at h
      dsimp only at h
      split at h
      · next lower =>
        cases h
        refine ⟨before ++ b :: after, [], rfl, fun e he => ?_, by simp⟩
        obtain he | rfl | he := by simpa using he
        · exact lower.trans (above e he)
        · exact lower
        · exact lower.trans_le (least e he)
      · next kept =>
        cases h
        refine ⟨before, after ++ [a], by simp, above, fun e he => ?_⟩
        obtain he | rfl := by simpa using he
        · exact least e he
        · exact Nat.le_of_not_lt kept

/-! Global words whose lanes fail or whose pages must be walked. -/

theorem finishLanes_bad {x : Issue} {bad : List FInfo} {f : FInfo} (picked : pickFault bad = some f) (s : State) (good : List Nat) :
    finishLanes s x good bad = .bad (clearWalks s x.g.gid) { f with done := lanesMask good } := by
  simp only [finishLanes, picked]

section words
variable {s : State} {x : Issue} {w : MWord}

theorem exec_ldG_issues (h : Issues s (.ldG w) x) : exec (.ldG w) s =
    .next (settle x false (globalLoad s x w (widthM w) w.data.toNat false (lanesM x w (widthM w)) true)) := by
  rw [exec_ldG, execLdG, runWord_normal h (m := w.msel.toNat) (p := true) rfl rfl]

theorem exec_stG_issues (h : Issues s (.stG w) x) : exec (.stG w) s =
    .next (settle x false (globalStore s x w (widthM w) (lanesM x w (widthM w)) (rv x.g w.data.toNat) true)) := by
  rw [exec_stG, execStG, runWord_normal h (m := w.msel.toNat) (p := true) rfl rfl]

end words

/-- Settles O30: addresses and checks of single lanes, then global loads and stores with failing lanes or pages to be walked. -/
theorem globalChecksAndFailingLanes : Obligations.GlobalChecksAndFailingLanes := by
  refine ⟨⟨lanesM_eq, fun s g lane va z need acc code al pos =>
    ⟨laneCheck_beyond s g lane need acc code, laneCheck_misaligned s g lane need acc code pos⟩, fun s g lane va z need acc code al l => laneCheck_ok⟩, ?words⟩
  rintro s x w res z rfl
  refine ⟨?load, ?store, ?loadWalks, ?storeWalks, fun _ _ => pickFault_first, fun need acc code al => ⟨fun f hf => ?named, ?ordered⟩⟩
  case load =>
    rintro f h rfl present picked
    rw [exec_ldG_issues h]
    simp only [globalLoad, widthM, Bool.or_false, present, if_true, finishLanes_bad picked, settle_bad]
  case store =>
    rintro f h rfl plain present picked
    rw [exec_stG_issues h]
    simp only [globalStore, widthM, plain, Option.isSome_none, Option.bind_none, present, if_true, finishLanes_bad picked, settle_bad]
  case loadWalks =>
    rintro p h rfl absent
    rw [exec_ldG_issues h]
    simp only [globalLoad, widthM, Bool.or_false, absent, settle_park]
  case storeWalks =>
    rintro p h rfl absent
    rw [exec_stG_issues h]
    simp only [globalStore, widthM, absent, settle_park]
  case named =>
    obtain ⟨p, -, named⟩ := lane_of_mem_badLanes s x _ need acc code al hf
    rw [named]
    rfl
  case ordered =>
    refine pairwise_badLanes s x _ need acc code al ?_
    rw [lanesM_eq]
    exact List.pairwise_map.2 (pairwise_lanesOf x.active)

end Sys2Proof.Proofs
end

section
/-! PROOF. Words that transfer: branches and loops, calls, indirect transfers, returns and table branches (09_scalar_control.md R244 to R251). -/

namespace Sys2Proof.Proofs
open Sys2Proof Sys2Proof.Machine Sys2Proof.Laws

/-! What a transfer meets at its target. -/

theorem branch_clear {s0 : State} {x : Issue} {t : Nat} (clear : transferStop s0 x t = none) (s : State) :
    branch s0 s x t = .jump (spinTake s x t) t := by
  rw [branch, clear, Option.getD_none]

/-- No page lies at 2^57 or above (R119). -/
theorem transferStop_beyond (s : State) (x : Issue) {t : Nat} (beyond : 2 ^ 57 ≤ t) :
    transferStop s x t = some (.bad (clearWalks s x.g.gid) { cls := 7, code := 1, addr := t, index := 4 }) := by
  have none_there : codeXlat s x.g x.b t = .inl (.bad 1 4) := if_pos beyond
  simp only [transferStop, fetchMiss, fetchFault, none_there]

theorem targetBad_misaligned {t : Nat} (odd : t % 8 ≠ 0) : targetBad t = some { cls := 8, code := 1, addr := t } := if_pos odd

theorem targetBad_sound {t : Nat} (aligned : t % 8 = 0) (below : t < 2 ^ 57) : targetBad t = none := by
  rw [targetBad, if_neg (not_not.2 aligned), if_neg (Nat.not_le_of_lt below)]

theorem indirect_clear {s0 : State} {x : Issue} {t : Nat} (aligned : t % 8 = 0) (below : t < 2 ^ 57) (clear : transferStop s0 x t = none)
    (s : State) : indirect s0 s x t = .jump s t := by
  simp only [indirect, targetBad_sound aligned below, transfer_clear clear]

theorem indirect_misaligned {t : Nat} (odd : t % 8 ≠ 0) (s0 s : State) (x : Issue) :
    indirect s0 s x t = .bad s0 { cls := 8, code := 1, addr := t } := by
  simp only [indirect, targetBad_misaligned odd]

/-! Branches and loops (R43, R245, R246). -/

section branches
variable {s : State} {x : Issue} {w : CWord}

theorem exec_br_issues (h : Issues s (.br w) x) : exec (.br w) s = .next (settle x false (branch s s x (targetC x w.off))) := by
  rw [exec_br, execBr, runWord_unmasked h rfl rfl]

theorem exec_br_clear (h : Issues s (.br w) x) (clear : transferStop s x (targetC x w.off) = none) :
    exec (.br w) s = .next (jumped x (spinTake s x (targetC x w.off)) (targetC x w.off)) := by
  rw [exec_br_issues h, branch_clear clear, settle_jump]

theorem exec_br_beyond (h : Issues s (.br w) x) (beyond : 2 ^ 57 ≤ targetC x w.off) :
    exec (.br w) s = .next (raised x (clearWalks s x.g.gid) { cls := 7, code := 1, addr := targetC x w.off, index := 4 }) := by
  rw [exec_br_issues h, branch, transferStop_beyond s x beyond, Option.getD_some, settle_bad]

theorem exec_bc_clear (h : Issues s (.bc w) x) (clear : transferStop s x (targetC x w.off) = none) :
    exec (.bc w) s = .next (if bcHolds (w.cf.toNat % 8) (rs x.g w.ra.toNat)
      then jumped x (spinTake s x (targetC x w.off)) (targetC x w.off) else performed x s) := by
  rw [exec_bc, execBc, runWord_unmasked h rfl rfl]
  split
  · rw [branch_clear clear, settle_jump]
  · rw [settle_ok]

/-- The lanes that stay are those whose condition does not hold. -/
theorem and_not_and (m c : W64) : m &&& ~~~(m &&& c) = m &&& ~~~c := by
  ext i
  cases hm : m[i] <;> simp [hm]

section
variable {c : W64} (hc : c = if w.cf.getLsbD 3 then ~~~rm x.g (w.cf.toNat % 8) else rm x.g (w.cf.toNat % 8)) (h : Issues s (.bv w) x)
include hc h

/-- Every lane leaves. -/
theorem exec_bv_all (clear : transferStop s x (targetC x w.off) = none) (none_stays : (slotOf x.g x.b).mask &&& ~~~c = 0#64) :
    exec (.bv w) s = .next (jumped x (spinTake s x (targetC x w.off)) (targetC x w.off)) := by
  obtain ⟨-, -, lanes, -⟩ := issuer_some h.1
  rw [exec_bv, execBv, runWord_unmasked h rfl rfl]
  simp only [lanes, ← hc, and_not_and, if_pos none_stays, branch_clear clear, settle_jump]

/-- No lane leaves. -/
theorem exec_bv_none (stays : (slotOf x.g x.b).mask &&& ~~~c ≠ 0#64) (none_leaves : (slotOf x.g x.b).mask &&& c = 0#64) :
    exec (.bv w) s = .next (performed x s) := by
  obtain ⟨-, -, lanes, -⟩ := issuer_some h.1
  rw [exec_bv, execBv, runWord_unmasked h rfl rfl]
  simp only [lanes, ← hc, and_not_and, if_neg stays, if_pos none_leaves, settle_ok]

end

theorem exec_loop_clear (h : Issues s (.loop w) x) (clear : transferStop s x (targetC x w.off) = none) :
    exec (.loop w) s = .next (if rs x.g w.cf.toNat - 1#64 = 0#64 then performed x (putG s (ws x.g w.cf.toNat (rs x.g w.cf.toNat - 1#64)))
      else jumped x (spinTake (putG s (ws x.g w.cf.toNat (rs x.g w.cf.toNat - 1#64))) x (targetC x w.off)) (targetC x w.off)) := by
  rw [exec_loop, execLoop, runWord_unmasked h rfl rfl]
  by_cases last : rs x.g w.cf.toNat - 1#64 = 0#64
  · simp only [last, ne_eq, not_true_eq_false, if_false, if_true, settle_ok]
  · simp only [last, ne_eq, not_false_eq_true, if_false, if_true, branch_clear clear, settle_jump]

end branches

/-- Settles O16: a branch or loop that its condition takes goes to its target, which may be fetched, and else its slot moves on. -/
theorem branchesTransfer : Obligations.BranchesTransfer := by
  rintro s x w _ rfl
  refine ⟨exec_br_clear, exec_br_beyond, ?bc, ?bv, ?loop⟩
  case bc =>
    rintro _ rfl h clear
    exact exec_bc_clear h clear
  case bv => exact fun c hc h clear => ⟨exec_bv_all hc h clear, exec_bv_none hc h⟩
  case loop =>
    rintro _ rfl h clear
    exact exec_loop_clear h clear

/-! Calls, indirect transfers and returns (R248, R249). -/

section calls
variable {s : State} {x : Issue}

theorem exec_call_clear {w : CWord} (h : Issues s (.call w) x) (clear : transferStop s x (targetC x w.off) = none) :
    exec (.call w) s = .next (jumped x (putG s (ws x.g w.ra.toNat (linkOf x))) (targetC x w.off)) := by
  rw [exec_call, execCall, runWord_unmasked h rfl rfl, transfer_clear clear, settle_jump]

theorem exec_callx_issues {w : SWord} (h : Issues s (.callx w) x) : exec (.callx w) s =
    .next (settle x false (indirect s (putG s (ws x.g w.d.toNat (linkOf x))) x (rs x.g w.a.toNat).toNat)) := by
  rw [exec_callx, execCallx, runWord_unmasked h rfl rfl]

theorem exec_bx_issues {w : SWord} (h : Issues s (.bx w) x) :
    exec (.bx w) s = .next (settle x false (indirect s s x (rs x.g w.a.toNat).toNat)) := by
  rw [exec_bx, execBx, runWord_unmasked h rfl rfl]

theorem exec_ret_issues {w : SWord} (h : Issues s (.ret w) x) :
    exec (.ret w) s = .next (settle x false (indirect s s x (rs x.g w.a.toNat).toNat)) := by
  rw [exec_ret, execRet, runWord_unmasked h rfl rfl]

end calls

/-! Table branches (R251). -/

section tables
variable {s : State} {x : Issue} {w : CWord} (h : Issues s (.bt w) x)
include h

theorem exec_bt_above (above : w.cf.toNat < (rs x.g w.ra.toNat).toNat) : exec (.bt w) s = .next (performed x s) := by
  rw [exec_bt, execBt, runWord_unmasked h rfl rfl]
  simp only [if_pos above, settle_ok]

/-- An index within the bound goes to the address its entry holds. -/
theorem exec_bt_within {a : Nat} {q : W64} (entry : a = (targetC x w.off + 8 * (rs x.g w.ra.toNat).toNat) % 2 ^ 64)
    (within : (rs x.g w.ra.toNat).toNat ≤ w.cf.toNat) (clear : transferStop s x a = none) (good : codeBad s x.g a 8 = none)
    (holds : iWord (iFill s x.g a 8) x.g a = some q) (aligned : q.toNat % 8 = 0) (below : q.toNat < 2 ^ 57)
    (clear_there : transferStop (iFill s x.g a 8) x q.toNat = none) :
    exec (.bt w) s = .next (jumped x (iFill s x.g a 8) q.toNat) := by
  rw [exec_bt, execBt, runWord_unmasked h rfl rfl]
  simp only [if_neg (Nat.not_lt_of_le within), ← entry, clear, good, holds, targetBad_sound aligned below, transfer_clear clear_there, settle_jump]

end tables

/-- Settles O18: calls and indirect transfers by the form of their target, and `bt` by its index. -/
theorem callsAndIndirectTransfers : Obligations.CallsAndIndirectTransfers := by
  refine ⟨fun s x w h => exec_call_clear h, ?sound, ?misaligned, ?table⟩
  case sound =>
    rintro s x w _ rfl aligned below clear
    refine ⟨fun h => ?_, fun h => ?_, fun h => ?_⟩
    · rw [exec_callx_issues h, indirect_clear aligned below clear, settle_jump]
      rfl
    · rw [exec_bx_issues h, indirect_clear aligned below clear, settle_jump]
    · rw [exec_ret_issues h, indirect_clear aligned below clear, settle_jump]
  case misaligned =>
    rintro s x w _ rfl odd
    refine ⟨fun h => ?_, fun h => ?_, fun h => ?_⟩
    · rw [exec_callx_issues h, indirect_misaligned odd, settle_bad]
    · rw [exec_bx_issues h, indirect_misaligned odd, settle_bad]
    · rw [exec_ret_issues h, indirect_misaligned odd, settle_bad]
  case table =>
    rintro s x w _ _ rfl rfl h
    refine ⟨exec_bt_above h, ?_⟩
    rintro q _ within clear good holds rfl aligned below clear_there
    exact exec_bt_within h rfl within clear good holds aligned below clear_there

end Sys2Proof.Proofs
end

section
/-! PROOF. System words: trap, breakpoint, priority, halt, the system and service registers, and returning from an exception
(09_scalar_control.md R261 to R270, 19_system.md R429, R438). -/

namespace Sys2Proof.Proofs
open Sys2Proof Sys2Proof.Machine Sys2Proof.Laws

/-! Trap, breakpoint, priority, no-operation and halt (R263 to R265, R267). -/

section effects
variable {s : State} {x : Issue} {w : YWord}

theorem exec_trap_issues (h : Issues s (.trap w) x) : exec (.trap w) s =
    .next (leavePart (takeException s x.g x.b false { cls := 0, code := w.imm24.toNat } x.nextClause 0) x.g x.b) := by
  rw [exec_trap, execTrap, runWord_unmasked h rfl rfl, settle_done]

theorem exec_bkpt_plain {c : Context} (h : Issues s (.bkpt w) x) (found : getC s x.g.ctx = some c) (plain : c.debugger = false) :
    exec (.bkpt w) s = .next (performed x
      (notice s c.job x.g.ctx 33 (recordBytes (mkRecord s x.g x.b false { cls := 0, code := w.imm24.toNat } x.exec)))) := by
  rw [exec_bkpt, execBkpt, runWord_unmasked h rfl rfl]
  simp only [jobOf, found, plain, Bool.false_eq_true, if_false, settle_ok]

theorem exec_prio_issues (h : Issues s (.prio w) x) :
    exec (.prio w) s = .next (performed x (putG s { x.g with prio := min (w.imm24.toNat % 8) x.g.base })) := by
  rw [exec_prio, execPrio, runWord_unmasked h rfl rfl, okG, settle_ok]

theorem exec_nop_issues (h : Issues s (.nop w) x) : exec (.nop w) s = .next (performed x s) := by
  rw [exec_nop, execNop, runWord_unmasked h rfl rfl, settle_ok]

theorem exec_halt_issues (h : Issues s (.halt w) x) : exec (.halt w) s = .next (leavePart (putG s (setSlot x.g x.b
    { atClause (slotOf x.g x.b) x.nextClause with park := some .halt })) x.g x.b) := by
  rw [exec_halt, execHalt, runWord_unmasked h rfl rfl, settle_done]
  rfl

end effects

/-- Settles O20: each of the five words runs its body once for its slot. -/
theorem systemWordsEffects : Obligations.SystemWordsEffects :=
  fun _ _ _ => ⟨exec_trap_issues, fun _ => exec_bkpt_plain, exec_prio_issues, exec_nop_issues, exec_halt_issues⟩

/-! What the registers hold (R261, R429). -/

section reads
variable (s : State) (x : Issue)

theorem sregRead_priority :
    sregRead s x 2 = if (slotOf x.g x.b).floor = none then BitVec.ofNat 64 x.g.prio else BitVec.allOnes 64 := by
  change (if (slotOf x.g x.b).floor.isSome then _ else _) = _
  cases (slotOf x.g x.b).floor <;> rfl

theorem sregRead_scratch {k : Nat} (hk : k < 4) : sregRead s x (0x120 + k) = fget 0#64 k x.g.scr := by
  have chosen : 0x120 ≤ 0x120 + k ∧ 0x120 + k ≤ 0x123 := by omega
  rw [sregRead]
  iterate 9 rw [if_neg (by omega)]
  rw [if_pos chosen, Nat.add_sub_cancel_left]

theorem sregRead_record {k : Nat} (hk : k < 8) :
    sregRead s x (0x100 + k) = (x.g.handler.map fun h => h.frec.getD k 0#64).getD 0#64 := by
  have chosen : 0x100 ≤ 0x100 + k ∧ 0x100 + k ≤ 0x107 := by omega
  rw [sregRead]
  iterate 5 rw [if_neg (by omega)]
  rw [if_pos chosen, Nat.add_sub_cancel_left]
  cases x.g.handler <;> rfl

/-- In a handler its registers read what it holds. -/
theorem sregRead_inside {h : Handler} (inside : x.g.handler = some h) : (∀ k, k < 8 → sregRead s x (0x100 + k) = h.frec.getD k 0#64) ∧
    sregRead s x 0x110 = BitVec.ofNat 64 h.epc ∧ sregRead s x 0x111 = BitVec.ofNat 64 h.eidx ∧ sregRead s x 0x112 = h.done := by
  refine ⟨fun k hk => ?_, ?_⟩
  · rw [sregRead_record s x hk, inside, Option.map_some, Option.getD_some]
  · simp [sregRead, inside, r64]

/-- Outside a handler its registers read zero. -/
theorem sregRead_outside (outside : x.g.handler = none) : (∀ k, k < 8 → sregRead s x (0x100 + k) = 0#64) ∧ sregRead s x 0x110 = 0#64 ∧
    sregRead s x 0x111 = 0#64 ∧ sregRead s x 0x112 = 0#64 := by
  refine ⟨fun k hk => ?_, ?_⟩
  · rw [sregRead_record s x hk, outside, Option.map_none, Option.getD_none]
  · simp [sregRead, outside]

/-- A register whose value nothing states reads as an open value. -/
theorem sregRead_open {n : Nat} (unstated : sregOpen s n = true) : sregRead s x n = openValue s := by
  have service : 0x8001 ≤ n := by
    simp only [sregOpen, Bool.or_eq_true, Bool.and_eq_true, decide_eq_true_eq] at unstated
    omega
  rw [sregRead]
  iterate 10 rw [if_neg (by omega)]
  rw [if_pos unstated]

/-- The selected context's registers read what it holds. -/
theorem sregRead_selected {c : Context} (found : getC s s.ctxSel = some c) : sregRead s x 0x8001 = BitVec.ofNat 64 c.root ∧
    sregRead s x 0x8002 = BitVec.ofNat 64 c.qprio ∧ sregRead s x 0x8004 = BitVec.ofNat 64 c.pairs := by
  have stated (n : Nat) (low : n ≠ 0x8021) : sregOpen s n = false := by
    rw [sregOpen, found, decide_eq_false low, Option.isNone_some, Bool.and_false, Bool.or_false]
  simp [sregRead, stated, found, r64]

end reads

section systemRegisters
variable {s : State} {x : Issue} {w : YWord}

theorem exec_sysGet_issues (h : Issues s (.sysGet w) x) : exec (.sysGet w) s = .next (performed x
    (if sregOpen s w.sreg.toNat then tickFree (putG s (ws x.g w.d.toNat (sregRead s x w.sreg.toNat)))
      else putG s (ws x.g w.d.toNat (sregRead s x w.sreg.toNat)))) := by
  rw [exec_sysGet, execSysGet, runWord_unmasked h rfl rfl, settle_ok]

theorem exec_sysGet_stated (h : Issues s (.sysGet w) x) (stated : sregOpen s w.sreg.toNat = false) :
    exec (.sysGet w) s = .next (performed x (putG s (ws x.g w.d.toNat (sregRead s x w.sreg.toNat)))) := by
  rw [exec_sysGet_issues h, stated, if_neg Bool.false_ne_true]

theorem exec_sysGet_open (h : Issues s (.sysGet w) x) (unstated : sregOpen s w.sreg.toNat = true) :
    exec (.sysGet w) s = .next (performed x (tickFree (putG s (ws x.g w.d.toNat (openValue s))))) := by
  rw [exec_sysGet_issues h, if_pos unstated, sregRead_open s x unstated]

theorem exec_sysSet_issues (h : Issues s (.sysSet w) x) :
    exec (.sysSet w) s = .next (performed x (sregWrite s x.g w.sreg.toNat (rs x.g w.a.toNat))) := by
  rw [exec_sysSet, execSysSet, runWord_unmasked h rfl rfl, settle_ok]

theorem exec_atinv_issues (h : Issues s (.atinv w) x) :
    exec (.atinv w) s = .next (performed x (sregWrite s x.g w.sreg.toNat (rs x.g w.a.toNat))) := by
  rw [exec_atinv, execAtinv, runWord_unmasked h rfl rfl, settle_ok]

theorem exec_wake_issues (h : Issues s (.wake w) x) :
    exec (.wake w) s = .next (performed x (sregWrite s x.g w.sreg.toNat (rs x.g w.a.toNat))) := by
  rw [exec_wake, execWake, runWord_unmasked h rfl rfl, settle_ok]

end systemRegisters

/-! What writes do. -/

section writes
variable (s : State) (g : Group) (v : W64)

theorem sregWrite_scratch {k : Nat} (hk : k < 4) : sregWrite s g (0x120 + k) v = putG s { g with scr := fput 0#64 k v g.scr } := by
  have chosen : 0x120 ≤ 0x120 + k ∧ 0x120 + k ≤ 0x123 := by omega
  rw [sregWrite, if_neg (by omega), if_neg (by omega), if_neg (by omega), if_neg (by omega), if_pos chosen, Nat.add_sub_cancel_left]

/-- In a handler its registers take what is written to them. -/
theorem sregWrite_inside {h : Handler} (inside : g.handler = some h) :
    sregWrite s g 0x110 v = putG s { g with handler := some { h with epc := v.toNat } } ∧
    sregWrite s g 0x111 v = putG s { g with handler := some { h with eidx := v.toNat % 16 } } ∧
    sregWrite s g 0x112 v = putG s { g with handler := some { h with done := v } } := by
  simp [sregWrite, withHandler, inside]

/-- Outside a handler a write to its registers changes nothing. -/
theorem sregWrite_outside (outside : g.handler = none) :
    sregWrite s g 0x110 v = putG s g ∧ sregWrite s g 0x111 v = putG s g ∧ sregWrite s g 0x112 v = putG s g := by
  have unchanged (f : Handler → Handler) : withHandler g f = g := by rw [withHandler, outside, Option.map_none, ← outside]
  simp [sregWrite, unchanged]

/-- The selected context's registers take what is written to them. -/
theorem sregWrite_selected {c : Context} (found : getC s s.ctxSel = some c) :
    sregWrite s g (0x8001#16).toNat v = putC s { c with root := v.toNat } ∧
    sregWrite s g (0x8002#16).toNat v = putC s { c with qprio := v.toNat % 2 ^ 48 } ∧
    sregWrite s g (0x8003#16).toNat v = putC s { c with key := v } ∧
    sregWrite s g (0x8004#16).toNat v = putC s { c with pairs := v.toNat % 256 } := by
  simp [sregWrite, withSel, found]

/-- The entries that an invalidation removes are those that the tables in memory no longer hold. -/
theorem mem_removed (e : AtEntry) : e ∈ s.atTable.filter (fun e => !(tablesAt s).contains e) ↔ e ∈ s.atTable ∧ e ∉ tablesAt s := by
  simp

/-- A slot of a control core that WAKE names. -/
def woken (sl : Slot) : Slot := match sl.park with | some .halt => { sl with park := none } | _ => sl

theorem woken_park_ne (sl : Slot) : (woken sl).park ≠ some .halt := by
  unfold woken
  split
  · exact Option.some_ne_none _ |>.symm
  · next other => exact other

theorem not_halted_of_wakeCores {g : Group} (mem : g ∈ (wakeCores s v).groups) (control : 96 ≤ g.core) (named : v.getLsbD (g.core - 96) = true) :
    g.slotA.park ≠ some .halt ∧ g.slotB.park ≠ some .halt := by
  obtain ⟨g0, -, rfl⟩ := List.mem_map.1 mem
  by_cases chosen : 96 ≤ g0.core ∧ v.getLsbD (g0.core - 96) = true
  · simp only [if_pos chosen]
    exact ⟨woken_park_ne g0.slotA, woken_park_ne g0.slotB⟩
  · simp only [if_neg chosen] at control named
    exact absurd ⟨control, named⟩ chosen

end writes

/-- Settles O21: what each register reads, and what a write of each does. -/
theorem specialRegisters : Obligations.SpecialRegisters := by
  refine ⟨⟨fun s x w h => ⟨exec_sysGet_stated h, exec_sysGet_open h⟩, fun s x w h => exec_sysSet_issues h, ?reads, ?writes⟩,
    ?serviceReads, ?serviceWrites, ?atinv, ?wake, fun s v g => not_halted_of_wakeCores s v⟩
  case reads =>
    exact fun s x => ⟨rfl, rfl, sregRead_priority s x, rfl, rfl, fun k => sregRead_scratch s x, fun h => sregRead_inside s x,
      sregRead_outside s x⟩
  case writes =>
    exact fun s g v => ⟨rfl, fun k => sregWrite_scratch s g v, fun h => sregWrite_inside s g v, sregWrite_outside s g v⟩
  case serviceReads => exact fun s x => ⟨rfl, rfl, rfl, rfl, rfl, fun c => sregRead_selected s x⟩
  case serviceWrites =>
    rintro s x w _ rfl h
    rw [exec_sysSet_issues h]
    refine ⟨fun e => ?_, fun c found => ?_, fun e => ?_⟩
    · rw [e]
      rfl
    · obtain ⟨root, qprio, key, pairs⟩ := sregWrite_selected s x.g (rs x.g w.a.toNat) found
      exact ⟨fun e => by rw [e, root], fun e => by rw [e, qprio], fun e => by rw [e, key], fun e => by rw [e, pairs]⟩
    · rw [e]
      rfl
  case atinv =>
    intro s x w e h
    refine ⟨_, ?_, mem_removed s⟩
    rw [exec_atinv_issues h, e]
    rfl
  case wake =>
    intro s x w e h
    rw [exec_wake_issues h, e]
    rfl

/-! Returning from an exception (R269). -/

/-- The group as a return leaves it. -/
def returnedGroup (s : State) (g : Group) (h : Handler) : Group :=
  setSlot (setSlot (setReplay { setHandler g none with hold := h.hold } h.slotB (some (replayOf h))) h.slotB
    (returnSlot s (slotOf g h.slotB) h)) (!h.slotB) (unparkOther h (slotOf g (!h.slotB)))

theorem returnException_eq (s : State) (g : Group) (h : Handler) :
    returnException s g h = leavePart (putG s (returnedGroup s g h)) g h.slotB := rfl

theorem returnSlot_unmarked (s : State) (sl : Slot) {h : Handler} (unmarked : h.mark = none) : returnSlot s sl h = { sl with
    clause := h.epc, idx := h.eidx, mask := h.mask, half := false, started := false, park := none, waitSince := s.time, extSince := s.time } := by
  simp only [returnSlot, unmarked]

theorem slotOf_setSlot_not (g : Group) (b : Bool) (sl : Slot) : slotOf (setSlot g (!b) sl) b = slotOf g b := by
  cases b <;> rfl

theorem slotOf_hold (g : Group) (k b : Bool) : slotOf { g with hold := k } b = slotOf g b := by
  cases b <;> rfl

/-- A switch marker holds the group where results are outstanding, and changes nothing else of it (R78). -/
theorem getG_holdGroup {s : State} {gid : Nat} {g : Group} (found : getG s gid = some g) (sw : Bool) :
    getG (holdGroup s gid sw) gid = some { g with hold := markHolds s g sw } := by
  have same := getG_gid found
  simp only [holdGroup, found]
  rw [← same] at found ⊢
  exact getG_putG_same (g := { g with hold := markHolds s g sw }) found

theorem replayOn_setReplay (g : Group) (b : Bool) (r : Replay) (own : r.slotB = b) : replayOn (setReplay g b (some r)) b = some r := by
  have absent : (g.replay.filter fun q => q.slotB != b).find? (fun q => q.slotB == b) = none := by
    rw [List.find?_eq_none]
    intro q hq
    simpa using (List.mem_filter.1 hq).2
  simp [replayOn, setReplay, absent, own]

section returned
variable (s : State) (g : Group) (h : Handler)

theorem slotOf_returnedGroup_own : slotOf (returnedGroup s g h) h.slotB = returnSlot s (slotOf g h.slotB) h := by
  rw [returnedGroup, slotOf_setSlot_not, slotOf_setSlot_same]

theorem slotOf_returnedGroup_other : slotOf (returnedGroup s g h) (!h.slotB) = unparkOther h (slotOf g (!h.slotB)) := by
  rw [returnedGroup, slotOf_setSlot_same]

theorem replayOf_slotB (own : h.before = none) : (replayOf h).slotB = h.slotB := by
  simp only [replayOf, own]

/-- The word a fault named issues again for the lanes not done (R449). -/
theorem replayOf_named (named : h.word = some (h.epc, h.eidx)) (own : h.before = none) : (replayOf h).clause = h.epc ∧
    (replayOf h).idx = h.eidx ∧ (replayOf h).exact = true ∧ (replayOf h).lanes = h.lanes &&& ~~~h.done := by
  simp [replayOf, own, named]

theorem returnedGroup_replay : (returnedGroup s g h).replay =
    (setReplay { setHandler g none with hold := h.hold } h.slotB (some (replayOf h))).replay := by
  rw [returnedGroup, setSlot_replay, setSlot_replay]

theorem replayOn_returnedGroup (own : h.before = none) : replayOn (returnedGroup s g h) h.slotB = some (replayOf h) := by
  rw [replayOn, returnedGroup_replay]
  exact replayOn_setReplay _ _ _ (replayOf_slotB h own)

/-- A return leaves the registers, masks and flags of its group alone, and the handler. -/
theorem returnedGroup_frame : (returnedGroup s g h).gid = g.gid ∧ (returnedGroup s g h).handler = none ∧ (returnedGroup s g h).s = g.s ∧
    (returnedGroup s g h).v = g.v ∧ (returnedGroup s g h).m = g.m ∧ (returnedGroup s g h).flags = g.flags := by
  simp [returnedGroup, setHandler]

end returned

theorem exec_rte_returns {s : State} {x : Issue} {w : YWord} {h : Handler} {q : W64} (issues : Issues s (.rte w) x) (inside : x.g.handler = some h)
    (sound : targetBad h.epc = none) (clear : transferStop s x h.epc = none) (good : codeBad s x.g h.epc 8 = none)
    (holds : iWord (iFill s x.g h.epc 8) x.g h.epc = some q) (within : h.eidx ≤ fld q.toNat 60 4)
    (tail : ∀ a ∈ clauseTail h.epc q, transferStop s x a = none) :
    exec (.rte w) s = .next (holdGroup (returnException (iFill s x.g h.epc 8) x.g h) x.g.gid (x.w.getLsbD 55)) := by
  rw [exec_rte, execRte, runWord_unmasked issues rfl rfl]
  simp only [inside, sound, clear, good, holds, if_neg (Nat.not_lt_of_le within), List.findSome?_eq_none_iff.2 tail, settle_done]

/-- Settles O15: `rte` puts back the handler's slot, its replay and the other slot's park, and nothing else of the group. -/
theorem returnFromException : Obligations.ReturnFromException := by
  rintro s x w h _ issues inside unmarked sound clear good q holds rfl within tail
  obtain ⟨-, found, -, -⟩ := issuer_some issues.1
  obtain ⟨gid, handler, scalars, vectors, masks, flags⟩ := returnedGroup_frame (iFill s x.g h.epc 8) x.g h
  have stands : getG (returnException (iFill s x.g h.epc 8) x.g h) x.g.gid = some (returnedGroup (iFill s x.g h.epc 8) x.g h) := by
    obtain ⟨ps, left⟩ := leavePart_eq (putG (iFill s x.g h.epc 8) (returnedGroup (iFill s x.g h.epc 8) x.g h)) x.g h.slotB
    have filled : getG (iFill s x.g h.epc 8) x.g.gid = some x.g := by rw [getG, iFill_groups]; exact found
    rw [returnException_eq, left]
    exact gid ▸ getG_putG_same (gid ▸ filled)
  refine ⟨_, _, exec_rte_returns issues inside sound clear good holds within tail, rfl, getG_holdGroup stands _, handler, ?clause, ?idx, ?park, ?mask,
    fun parked => ?other, fun named fresh => ?replay, scalars, vectors, masks, flags⟩
  case other =>
    rw [slotOf_hold, slotOf_returnedGroup_other, unparkOther, parked]
  case replay =>
    obtain ⟨clause, idx, exact, lanes⟩ := replayOf_named h named fresh
    exact ⟨_, replayOn_returnedGroup _ x.g h fresh, clause, idx, exact, lanes⟩
  all_goals rw [slotOf_hold, slotOf_returnedGroup_own, returnSlot_unmarked _ _ unmarked]

end Sys2Proof.Proofs
end

section
/-! PROOF. Yield, nap, instruction prefetch and pinning, `regroup`, `spawn` and `launch` (09_scalar_control.md R253, R254, R257 to R260,
02_execution_model.md R47, R53, R60). -/

namespace Sys2Proof.Proofs
open Sys2Proof Sys2Proof.Machine Sys2Proof.Laws

theorem exec_yield_issues {s : State} {x : Issue} {w : SWord} (h : Issues s (.yield w) x) : exec (.yield w) s = .next (holdGroup (leavePart
    (putG s (setSlot x.g x.b { atClause (slotOf x.g x.b) x.nextClause with park := some .yield })) x.g x.b) x.g.gid (x.w.getLsbD 55)) := by
  rw [exec_yield, execYield, runWord_unmasked h rfl rfl, settle_done, Issue.slot]

/-! Naps (R254). -/

section naps
variable {s : State} {x : Issue} {w : SWord} {b c : BitVec 6} {i : BitVec 20} (form : w.src = .reg b c i) (h : Issues s (.nap w) x)
include form h

/-- With neither a time nor an address the word does not wait. -/
theorem exec_nap_nothing (fresh : x.slot.park = none) (no_time : rs x.g w.a.toNat = 0#64) (no_address : rs x.g b.toNat = 0#64) :
    exec (.nap w) s = .next (performed x (putG (clearWalks s x.g.gid) (ws (walkDone x.g x.b) w.d.toNat 0#64))) := by
  have second : numB w = b.toNat := by rw [numB, form]
  have nothing : (rs x.g w.a.toNat).toNat = 0 ∧ (rs x.g b.toNat).toNat = 0 := by rw [no_time, no_address]; exact ⟨rfl, rfl⟩
  rw [exec_nap, execNap, runWord_unmasked h rfl rfl]
  simp only [fresh, second, if_pos nothing, okG, settle_ok, r64]

/-- With a time alone the slot parks until then, at most a second. -/
theorem exec_nap_timed (fresh : x.slot.park = none) (timed : rs x.g w.a.toNat ≠ 0#64) (no_address : rs x.g b.toNat = 0#64) :
    exec (.nap w) s = .next (parked x s (.nap (some (s.time + min (rs x.g w.a.toNat).toNat 1000000000)) none 0)) := by
  have second : numB w = b.toNat := by rw [numB, form]
  have some_time : (rs x.g w.a.toNat).toNat ≠ 0 := fun e => timed (BitVec.eq_of_toNat_eq e)
  have address : (rs x.g b.toNat).toNat = 0 := by rw [no_address]; rfl
  rw [exec_nap, execNap, runWord_unmasked h rfl rfl]
  simp only [fresh, second, some_time, address, false_and, if_false, if_true, settle_park]

omit form in
/-- Once something has woken the slot, the word writes what it was. -/
theorem exec_nap_woken {d l : Option Nat} {k : Nat} (woken : x.slot.park = some (.nap d l k)) (cause : k ≠ 0) :
    exec (.nap w) s = .next (performed x (putG (clearWalks s x.g.gid) (ws (walkDone x.g x.b) w.d.toNat (BitVec.ofNat 64 k)))) := by
  rw [exec_nap, execNap, runWord_unmasked h rfl rfl]
  simp only [woken, cause, ne_eq, not_false_eq_true, if_true, okG, settle_ok, r64]

end naps

/-! Instruction prefetch and pinning (R260). -/

section prefetch
variable {s : State} {x : Issue} {w : CWord}

theorem exec_ipf_walked (h : Issues s (.ipf w) x) (walked : ipMiss s x w = none) :
    exec (.ipf w) s = .next (performed x (clearWalks
      (((ipLines x w).filter (fun k => (codeBad s x.g (k * 128) 1).isNone)).foldl (fun s k => iFill s x.g (k * 128) 1) s) x.g.gid)) := by
  rw [exec_ipf, execIpf, runWord_unmasked h rfl rfl]
  simp only [walked, settle_ok]

/-- What `iunpin` does to a line of the instruction cache: a line of the word that its context pinned is pinned no longer. -/
def unpinned (s : State) (x : Issue) (w : CWord) (l : ILine) : ILine :=
  if l.core == x.g.core && ((ipLines x w).filterMap fun k => (codeAt s x.g (k * 128)).map fun p => p.1 / 128).contains l.line &&
    l.expiry.isNone && l.pinCtx == x.g.ctx
  then { l with expiry := some s.time, pinCtx := 0 } else l

theorem exec_iunpin_walked (h : Issues s (.iunpin w) x) (walked : ipMiss s x w = none) :
    exec (.iunpin w) s = .next (performed x (clearWalks { s with icache := s.icache.map (unpinned s x w) } x.g.gid)) := by
  rw [exec_iunpin, execIunpin, runWord_unmasked h rfl rfl]
  simp only [walked, settle_ok]
  rfl

theorem unpinned_not_pinned (s : State) (x : Issue) (w : CWord) (l : ILine) : ¬ ((unpinned s x w l).core = x.g.core ∧
    (unpinned s x w l).expiry = none ∧ (unpinned s x w l).pinCtx = x.g.ctx ∧
    ∃ a ∈ ipLines x w, ∃ p, codeAt s x.g (a * 128) = some p ∧ (unpinned s x w l).line = p.1 / 128) := by
  unfold unpinned
  split
  · rintro ⟨-, loose, -⟩
    cases loose
  · next other =>
    rintro ⟨core, pin, ctx, a, named, p, code, line⟩
    refine other ?_
    have listed : l.line ∈ (ipLines x w).filterMap fun k => (codeAt s x.g (k * 128)).map fun p => p.1 / 128 :=
      List.mem_filterMap.2 ⟨a, named, by rw [code, line]; rfl⟩
    simp [core, pin, ctx, listed]

theorem exec_ipin_ready (h : Issues s (.ipin w) x) (walked : ipMiss s x w = none)
    (ready : ∀ k ∈ ipLines x w, fetchFault s x.g x.b (k * 128) = none ∧ codeBad s x.g (k * 128) 1 = none ∧
      ∀ p, codeAt s x.g (k * 128) = some p → homeReady s p.1 = true) :
    exec (.ipin w) s = .next (performed x (clearWalks (((ipLines x w).filterMap (fun k => codeAt s x.g (k * 128))).foldl (fun s p =>
      if (pinOf s x.g.core (p.1 / 128)).isSome || isCxl (p.1 / 128 * 128) then s
      else iInstall s x.g.core (p.1 / 128) p.2 (if pinned s x.g.core < 512 then some x.g.ctx else none)) s) x.g.gid)) := by
  have fetched : (ipLines x w).findSome? (fun k => fetchFault s x.g x.b (k * 128)) = none :=
    List.findSome?_eq_none_iff.2 fun k hk => (ready k hk).1
  have good : (ipLines x w).findSome? (fun k => codeBad s x.g (k * 128) 1) = none :=
    List.findSome?_eq_none_iff.2 fun k hk => (ready k hk).2.1
  have answered : ((ipLines x w).filterMap (fun k => codeAt s x.g (k * 128))).any (fun l =>
      (pinOf s x.g.core (l.1 / 128)).isNone && !isCxl l.1 && !homeReady s l.1) = false := by
    refine List.any_eq_false.2 fun p hp => ?_
    obtain ⟨k, hk, code⟩ := List.mem_filterMap.1 hp
    obtain ⟨-, -, home⟩ := ready k hk
    simp [home p code]
  rw [exec_ipin, execIpin, runWord_unmasked h rfl rfl]
  simp only [walked, fetched, good, answered, Bool.false_eq_true, if_false, settle_ok]

end prefetch

/-! Regroup (R47). -/

theorem exec_regroup_quiet {s : State} {x : Issue} {w : VWord} (h : Issues s (.regroup w) x) (free : (slotOf x.g (!x.b)).st = .free)
    (flat : (slotOf x.g x.b).depth = 0) (plain : x.g.spec = none) (quiet : allQuiet s x.g = true) (settled : x.g.due = []) :
    exec (.regroup w) s = .next (regroupWait s x.g.gid x.b (rs x.g (w.a.toNat - 352))) := by
  rw [exec_regroup, execRegroup, runWord_unmasked h rfl rfl]
  simp only [free, Issue.slot, flat, plain, quiet, settled, ne_eq, not_true_eq_false, if_false, Option.isSome_none, Bool.not_true,
    Bool.false_eq_true, settle_done]

/-! Lanes that all pass their checks. -/

theorem missPage_oks (l : List Lane) : missPage (l.map .ok) = none := by
  rw [missPage, List.findSome?_map]
  exact List.findSome?_eq_none_iff.2 fun _ _ => rfl

theorem goodLanes_oks (l : List Lane) : goodLanes (l.map .ok) = l := by
  rw [goodLanes, List.filterMap_map]
  exact List.filterMap_some

theorem badLanes_oks (l : List Lane) : badLanes (l.map .ok) = [] := by
  rw [badLanes, List.filterMap_map]
  exact List.filterMap_eq_nil_iff.2 fun _ _ => rfl

/-! Spawn and launch (R53, R60, R257, R259). -/

theorem exec_spawn_placed {s s1 : State} {x : Issue} {w : VWord} {r : Grid} {k : Nat} {good : List Lane} {recs : List (Lane × List Byte)}
    (h : Issues s (.spawn w) x) (grid : getGrid s x.g.ctx x.g.grid = some r) (tasks : (lrecOf r.lrec).trows ≠ 0)
    (counter : k = (rs x.g (w.c.toNat - 352)).toNat) (aligned : k % 8 = 0) (below : k < 2 ^ 57)
    (checked : (lanesOf x.active).map (fun l => spawnLane s x.g l (rv x.g w.a.toNat l).toNat (rv x.g w.b.toNat l).toNat) = good.map LaneRes.ok)
    (room : good.length ≤ poolRoom s x.g.ctx x.g.core) (read : spawnRead (drainWcb s x.g.gid) x.g good = some (.inr (s1, recs))) :
    exec (.spawn w) s = .next (performed x (clearWalks (recs.foldl (fun t p =>
      addTask t x.g (rv x.g w.a.toNat p.1.lane).toNat k s1.nextId p.2) s1) x.g.gid)) := by
  have address : ¬ (k % 8 ≠ 0 ∨ 2 ^ 57 ≤ k) := by omega
  have sound : spawnFault [] = none := rfl
  rw [exec_spawn, execSpawn, runWord_normal h (m := w.msel.toNat) (p := true) rfl rfl]
  simp only [grid, if_neg tasks, ← counter, if_neg address, checked, missPage_oks, goodLanes_oks, badLanes_oks, List.take_of_length_le room,
    List.drop_of_length_le room, List.map_nil, List.append_nil, read, sound, settle_ok]

theorem exec_launch_ordered {s s1 : State} {x : Issue} {w : SWord} {b c : BitVec 6} {i : BitVec 20} {ls : List Lane} {bytes : List Byte}
    (form : w.src = .reg b c i) (h : Issues s (.launch w) x) (aligned : (rs x.g w.a.toNat).toNat % 64 = 0)
    (below : (rs x.g w.a.toNat).toNat < 2 ^ 57) (queue : (rs x.g b.toNat).toNat ≤ 15)
    (checked : (List.range 4).map (fun k => laneCheck s x.g 0 ((rs x.g w.a.toNat).toNat + 64 * k) 64 1 1 false 1) = ls.map LaneRes.ok)
    (ordered : releaseWait s x.g .dv = none) (read : readNow s x.g (ls.flatMap (fun l => l.pas)) = some (.inr (s1, bytes))) :
    exec (.launch w) s = .next (performed x (clearWalks (launchOp
      (enqueue s1 x.g.ctx (rs x.g b.toNat).toNat (rs x.g w.a.toNat).toNat bytes).1 x.g.gid x.g.ctx x.g.core .loads
      (.value [(2 ^ 20 + w.d.toNat,
        if (enqueue s1 x.g.ctx (rs x.g b.toNat).toNat (rs x.g w.a.toNat).toNat bytes).2 then 0#64 else 1#64)])) x.g.gid)) := by
  have second : numB w = b.toNat := by rw [numB, form]
  have record : ¬ ((rs x.g w.a.toNat).toNat % 64 ≠ 0 ∨ 2 ^ 57 ≤ (rs x.g w.a.toNat).toNat) := by omega
  have sound : recordFault (rs x.g w.a.toNat).toNat [] = none := rfl
  rw [exec_launch, execLaunch, runWord_unmasked h rfl rfl]
  simp only [second, if_neg record, if_neg (Nat.not_lt_of_le queue), checked, missPage_oks, goodLanes_oks, badLanes_oks, sound, ordered, read,
    settle_ok]

/-- Settles O19: each word by what it finds, then the lanes and the record that `spawn` and `launch` read. -/
theorem waitingAndGroupWords : Obligations.WaitingAndGroupWords := by
  refine ⟨⟨fun s x w => exec_yield_issues, fun s x w b c i form h => ?nap, fun s x w => ⟨exec_ipf_walked, fun h walked => ?unpin, exec_ipin_ready⟩⟩,
    fun s x w => exec_regroup_quiet, ?spawn, ?launch⟩
  case nap => exact ⟨exec_nap_nothing form h, exec_nap_timed form h, fun d l k => exec_nap_woken h⟩
  case unpin =>
    refine ⟨_, exec_iunpin_walked h walked, fun l hl => ?_⟩
    obtain ⟨l, -, rfl⟩ := List.mem_map.1 hl
    exact unpinned_not_pinned s x w l
  case spawn =>
    exact fun s x w r k good s1 recs h grid tasks counter aligned below => exec_spawn_placed h grid tasks counter aligned below
  case launch =>
    rintro s x w b c i _ _ ls s1 bytes form h rfl rfl aligned below queue checked ordered read
    exact exec_launch_ordered form h aligned below queue checked ordered read

end Sys2Proof.Proofs
end

section
/-! PROOF. The functions of the scalar words, in the terms of bit vectors (09_scalar_control.md R236 to R242). -/

namespace Sys2Proof.Proofs
open Sys2Proof Sys2Proof.Machine Sys2Proof.Laws

/-! The two readings of a value (R237). -/

theorem readU_lt (u : Bool) (a b : W64) : decide (readU u a < readU u b) = if u then BitVec.ult a b else BitVec.slt a b := by
  cases u
  · exact BitVec.slt_eq_decide.symm
  · simp [readU, BitVec.ult_eq_decide]

theorem readU_le (u : Bool) (a b : W64) : decide (readU u a ≤ readU u b) = if u then BitVec.ule a b else BitVec.sle a b := by
  cases u
  · exact BitVec.sle_eq_decide.symm
  · simp [readU, BitVec.ule_eq_decide]

theorem readU_inj {u : Bool} {a b : W64} : readU u a = readU u b ↔ a = b := by
  cases u
  · exact BitVec.toInt_inj
  · exact Int.natCast_inj.trans BitVec.toNat_inj

theorem readU_eq (u : Bool) (a b : W64) : decide (readU u a = readU u b) = (a == b) := by
  rw [decide_eq_decide.2 readU_inj]
  rfl

/-- What the conditions of `s.cmp` ask of two values. -/
def comparison (c : Nat) (u : Bool) (a b : W64) : Bool :=
  match c with
  | 0 => a == b
  | 1 => a != b
  | 2 => if u then BitVec.ult a b else BitVec.slt a b
  | 3 => if u then BitVec.ule a b else BitVec.sle a b
  | 4 => if u then BitVec.ult b a else BitVec.slt b a
  | _ => if u then BitVec.ule b a else BitVec.sle b a

theorem condHolds_readU {c : Nat} (hc : c ≤ 5) (u : Bool) (a b : W64) : condHolds c (readU u a) (readU u b) = comparison c u a b := by
  interval_cases c
  · exact readU_eq u a b
  · exact (decide_not (p := readU u a = readU u b)).trans (congrArg (!·) (readU_eq u a b))
  · exact readU_lt u a b
  · exact readU_le u a b
  · exact readU_lt u b a
  · exact readU_le u b a

theorem minS_eq (u : Bool) (a b : W64) : (if readU u a ≤ readU u b then a else b) =
    if (if u then BitVec.ult b a else BitVec.slt b a) then b else a := by
  rw [← readU_lt]
  by_cases le : readU u a ≤ readU u b
  · simp [le, not_lt.2 le]
  · simp [le, not_le.1 le]

theorem maxS_eq (u : Bool) (a b : W64) : (if readU u a ≤ readU u b then b else a) =
    if (if u then BitVec.ult a b else BitVec.slt a b) then b else a := by
  rw [← readU_lt]
  rcases lt_trichotomy (readU u a) (readU u b) with lt | eq | gt
  · simp [lt, lt.le]
  · simp [readU_inj.1 eq]
  · simp [not_le.2 gt, not_lt.2 gt.le]

/-! Products and quotients (R239). -/

theorem i64_eq (z : Int) : i64 z = BitVec.ofInt 64 z := rfl

/-- The high half of an exact product. -/
theorem extractLsb'_ofInt_128 (z : Int) : (BitVec.ofInt 128 z).extractLsb' 64 64 = BitVec.ofInt 64 (z / 2 ^ 64) := by
  apply BitVec.eq_of_toNat_eq
  rw [BitVec.extractLsb'_toNat, BitVec.toNat_ofInt, BitVec.toNat_ofInt, Nat.shiftRight_eq_div_pow]
  norm_num
  omega

theorem mulhS_eq (u : Bool) (a b : W64) : i64 (readU u a * readU u b / 2 ^ 64) =
    if u then (a.setWidth 128 * b.setWidth 128).extractLsb' 64 64 else (a.signExtend 128 * b.signExtend 128).extractLsb' 64 64 := by
  rw [i64_eq, ← extractLsb'_ofInt_128, BitVec.ofInt_mul]
  cases u
  · rfl
  · simp only [readU, if_true, BitVec.ofInt_natCast, BitVec.ofNat_toNat]

theorem divS_eq (u : Bool) (a b : W64) : divS u a b = if b = 0#64 then BitVec.allOnes 64 else if u then a / b else a.sdiv b := by
  have signed : i64 (a.toInt.tdiv b.toInt) = a.sdiv b := BitVec.eq_of_toInt_eq (by rw [i64_eq, BitVec.toInt_ofInt, BitVec.toInt_sdiv])
  rw [divS, signed]

theorem remS_eq (u : Bool) (a b : W64) : remS u a b = if b = 0#64 then a else if u then a % b else a.srem b := by
  have signed : i64 (a.toInt.tmod b.toInt) = a.srem b := by rw [i64_eq, ← BitVec.toInt_srem, BitVec.ofInt_toInt]
  rw [remS, signed]

/-! Shifts, counts and bitfields (R240). -/

/-- A shift count is bits [5:0] of its source. -/
theorem shiftCount_eq (b : W64) : b.toNat % 64 = (b.extractLsb' 0 6).toNat := (BitVec.extractLsb'_toNat 0 6 b).symm

theorem clz_spec (a : W64) : clz 64 a.toNat ≤ 64 ∧ (∀ k < clz 64 a.toNat, a.getLsbD (63 - k) = false) ∧
    (clz 64 a.toNat < 64 → a.getLsbD (63 - clz 64 a.toNat) = true) := by
  by_cases zero : a = 0#64
  · simp [zero, clz]
  · have nonzero : a.toNat ≠ 0 := fun e => zero (BitVec.eq_of_toNat_eq e)
    have top : a.toNat.log2 < 64 := (Nat.log2_lt nonzero).2 a.isLt
    have count : clz 64 a.toNat = 63 - a.toNat.log2 := if_neg nonzero
    refine ⟨by omega, fun k hk => ?_, fun _ => ?_⟩
    · refine Nat.testBit_lt_two_pow (Nat.lt_log2_self.trans_le (Nat.pow_le_pow_right Nat.two_pos ?_))
      omega
    · rw [count, show 63 - (63 - a.toNat.log2) = a.toNat.log2 by omega]
      exact Nat.testBit_log2 nonzero

theorem popc_eq_countP (a : W64) : popc 64 a.toNat = (List.range 64).countP fun k => a.getLsbD k := by
  rw [popc, ← List.countP_eq_length_filter]
  rfl

/-- A field of a register is that slice of it. -/
theorem ofNat_fld (a : W64) (pos wd : Nat) : BitVec.ofNat wd (fld a.toNat pos wd) = a.extractLsb' pos wd := by
  refine BitVec.eq_of_toNat_eq ?_
  rw [BitVec.toNat_ofNat, fld, Nat.mod_mod, BitVec.extractLsb'_toNat]

theorem toS_eq_toInt (n x : Nat) : toS (n + 1) x = (BitVec.ofNat (n + 1) x).toInt := by
  have half : 2 ^ (n + 1) = 2 * 2 ^ n := Nat.pow_succ'
  rw [BitVec.toInt_eq_toNat_cond, BitVec.toNat_ofNat, toS, Nat.add_sub_cancel]
  simp only [half, Nat.mul_lt_mul_left Nat.two_pos]
  rw [← half]
  push_cast
  rfl

/-- Sign extension of the low `n + 1` bits. -/
theorem r64_sx64 (n x : Nat) : r64 (sx64 (n + 1) x) = (BitVec.ofNat (n + 1) x).signExtend 64 := by
  rw [r64, sx64, toS_eq_toInt, wrap_eq_toNat_ofInt, BitVec.ofNat_toNat, BitVec.setWidth_eq]
  rfl

/-- Zero extension of the low `n + 1` bits. -/
theorem r64_eq_setWidth {n x : Nat} (small : x < 2 ^ n) : r64 x = (BitVec.ofNat n x).setWidth 64 := by
  refine BitVec.eq_of_toNat_eq ?_
  rw [r64, BitVec.toNat_setWidth, BitVec.toNat_ofNat, BitVec.toNat_ofNat, Nat.mod_eq_of_lt small]

theorem fld_lt (x pos wd : Nat) : fld x pos wd < 2 ^ wd := Nat.mod_lt _ (Nat.two_pow_pos wd)

/-- A number is its field, what is above it, and what is below. -/
theorem setFld_eq (x lo len v : Nat) :
    setFld x lo len v = 2 ^ lo * (2 ^ len * (x / 2 ^ lo / 2 ^ len) + v % 2 ^ len) + x % 2 ^ lo := by
  have below := Nat.div_add_mod x (2 ^ lo)
  have above := Nat.div_add_mod (x / 2 ^ lo) (2 ^ len)
  rw [setFld, fld_eq_div_mod, Nat.shiftLeft_eq, Nat.shiftLeft_eq]
  calc x - x / 2 ^ lo % 2 ^ len * 2 ^ lo + v % 2 ^ len * 2 ^ lo
      = 2 ^ lo * (2 ^ len * (x / 2 ^ lo / 2 ^ len) + x / 2 ^ lo % 2 ^ len) + x % 2 ^ lo - x / 2 ^ lo % 2 ^ len * 2 ^ lo + v % 2 ^ len * 2 ^ lo := by
        rw [above, below]
    _ = _ := by
        rw [Nat.mul_add, Nat.mul_add, Nat.mul_comm (_ % 2 ^ len), Nat.mul_comm (v % _)]
        omega

theorem testBit_setFld (x lo len v k : Nat) : (setFld x lo len v).testBit k =
    if lo ≤ k ∧ k < lo + len then v.testBit (k - lo) else x.testBit k := by
  have low : x % 2 ^ lo < 2 ^ lo := Nat.mod_lt _ (Nat.two_pow_pos lo)
  have mid : v % 2 ^ len < 2 ^ len := Nat.mod_lt _ (Nat.two_pow_pos len)
  rw [setFld_eq, Nat.testBit_two_pow_mul_add _ low, Nat.testBit_two_pow_mul_add _ mid]
  by_cases below : k < lo
  · have outside : ¬ (lo ≤ k ∧ k < lo + len) := by omega
    rw [if_pos below, if_neg outside, Nat.testBit_mod_two_pow]
    simp [below]
  · rw [if_neg below]
    by_cases inside : k - lo < len
    · have within : lo ≤ k ∧ k < lo + len := by omega
      rw [if_pos inside, if_pos within, Nat.testBit_mod_two_pow]
      simp [inside]
    · have outside : ¬ (lo ≤ k ∧ k < lo + len) := by omega
      rw [if_neg inside, if_neg outside, Nat.div_div_eq_div_mul, ← Nat.pow_add, Nat.testBit_div_two_pow]
      congr 1
      omega

/-! Constants (R241). -/

theorem sLih_eq (a : W64) (imm : BitVec 32) : (a &&& 0xFFFFFFFF#64) ||| (imm.signExtend 64 <<< 32) = imm ++ a.setWidth 32 := by
  have low : ∀ i : Fin 64, (0xFFFFFFFF#64).getLsbD i = decide (i.val < 32) := by decide
  refine BitVec.eq_of_getLsbD_eq fun i hi => ?_
  rw [BitVec.getLsbD_or, BitVec.getLsbD_and, low ⟨i, hi⟩, BitVec.getLsbD_append]
  by_cases small : i < 32
  · simp [small]
  · have high : i - 32 < 32 := by omega
    simp [small, hi, BitVec.getElem_signExtend, high]

/-- The lowest set bit of a mask. -/
theorem lowBit_eq {m : W64} {l : Nat} (hl : l < 64) (set : m.getLsbD l = true) (clear : ∀ k < l, m.getLsbD k = false) :
    lowBit 64 m.toNat = l := by
  have first : (List.range 64).find? (fun i => m.toNat.testBit i) = some l :=
    List.find?_range_eq_some.2 ⟨set, List.mem_range.2 hl, fun k hk => by rw [BitVec.testBit_toNat, clear k hk]; rfl⟩
  rw [lowBit, first, Option.getD_some]

end Sys2Proof.Proofs
end

section
/-! PROOF. The results of the scalar words, and division and remainder (09_scalar_control.md R236 to R242, 08_encoding.md R235). -/

namespace Sys2Proof.Proofs
open Sys2Proof Sys2Proof.Machine Sys2Proof.Laws

/-! A coded field of a word that issues holds a code that there is (R463). -/

theorem firstBad_eq_none {l : List (Nat × Bool)} (good : firstBad l = none) {p : Nat × Bool} (hp : p ∈ l) : p.2 = true := by
  have all := List.find?_eq_none.1 (Option.map_eq_none_iff.1 good) p hp
  simpa using all

theorem coded_of_wordBad {f : Form} {w : Nat} (sound : wordBad f w = none) {p : Nat × Bool} (hp : p ∈ f.coded) : p.2 = true := by
  dsimp only [wordBad] at sound
  split at sound
  · cases sound
  · split at sound
    · cases sound
    · split at sound
      · cases sound
      · split at sound
        · cases sound
        · next coded => exact firstBad_eq_none coded hp

theorem wordBad_of_wordFault {g : Group} {sl : Slot} {i : Instr} {w : Nat} {f : Form} (sound : wordFault g sl i w = none)
    (hf : form g.width i = some f) : wordBad f w = none := by
  simp only [wordFault, hf, decodeBad] at sound
  cases bad : wordBad f w with
  | none => rfl
  | some c => simp [bad] at sound

theorem coded_of_issues {s : State} {i : Instr} {x : Issue} {f : Form} (h : Issues s i x) (hf : form x.g.width i = some f) {p : Nat × Bool}
    (hp : p ∈ f.coded) : p.2 = true := by
  obtain ⟨-, -, sound⟩ := h
  exact coded_of_wordBad (wordBad_of_wordFault sound hf) hp

theorem mem_code (f : Form) (p : Nat × Bool) : p ∈ (f.code [p]).coded := List.mem_append_right _ (List.mem_singleton.2 rfl)

section words
variable {s : State} {x : Issue} {w : SWord}

theorem condition_le_of_issues (h : Issues s (.sCmp w) x) : w.f7.toNat % 8 ≤ 5 :=
  of_decide_eq_true (coded_of_issues h rfl (mem_code _ (0, decide (w.f7.toNat % 8 ≤ 5))))

theorem special_le_of_issues (h : Issues s (.sSr w) x) : imm20 w ≤ 10 :=
  of_decide_eq_true (coded_of_issues h rfl (mem_code _ (7, decide (imm20 w ≤ 10))))

/-- A scalar word that issues writes to d what its function gives (R236). -/
theorem exec_scalar_value {i : Instr} (h : Issues s i x) (hm : mselOf i = 0) (hp : perLaneOf i = false) {f : Issue → W64 → W64 → W64}
    (run : exec i s = scalarWord i w s f) {v : W64} (value : f x (rs x.g w.a.toNat) (srcB x.g w) = v) :
    exec i s = .next (performed x (putG s (ws x.g w.d.toNat v))) := by
  rw [run, scalarWord_normal h hm hp, value]

/-! The operands of the two forms (R236). -/

theorem srcB_reg {g : Group} {b c : BitVec 6} {i : BitVec 20} (form : w.src = .reg b c i) : srcB g w = rs g b.toNat := by rw [srcB, form]
theorem srcC_reg {g : Group} {b c : BitVec 6} {i : BitVec 20} (form : w.src = .reg b c i) : srcC g w = rs g c.toNat := by rw [srcC, form]
theorem imm20_reg {b c : BitVec 6} {i : BitVec 20} (form : w.src = .reg b c i) : imm20 w = i.toNat := by rw [imm20, form]
theorem srcB_imm {g : Group} {i : BitVec 32} (form : w.src = .imm i) : srcB g w = i.signExtend 64 := by rw [srcB, form]

/-! Division (R239). -/

theorem exec_sDiv_value (h : Issues s (.sDiv w) x) : exec (.sDiv w) s = .next (performed x (putG s (ws x.g w.d.toNat
    (if srcB x.g w = 0#64 then BitVec.allOnes 64 else if w.f7.getLsbD 0 then rs x.g w.a.toNat / srcB x.g w
      else (rs x.g w.a.toNat).sdiv (srcB x.g w))))) :=
  exec_scalar_value h rfl rfl (exec_sDiv w s) (divS_eq _ _ _)

theorem exec_sRem_value (h : Issues s (.sRem w) x) : exec (.sRem w) s = .next (performed x (putG s (ws x.g w.d.toNat
    (if srcB x.g w = 0#64 then rs x.g w.a.toNat else if w.f7.getLsbD 0 then rs x.g w.a.toNat % srcB x.g w
      else (rs x.g w.a.toNat).srem (srcB x.g w))))) :=
  exec_scalar_value h rfl rfl (exec_sRem w s) (remS_eq _ _ _)

/-! Bitfields and extensions (R240). -/

/-- `s.bfx` takes a slice of A and extends it. -/
theorem bfxS_eq (u : Bool) (a : W64) (i : BitVec 20) : bfxS u a i.toNat =
    if u then (a.extractLsb' (i.extractLsb' 0 6).toNat ((i.extractLsb' 6 6).toNat + 1)).setWidth 64
    else (a.extractLsb' (i.extractLsb' 0 6).toNat ((i.extractLsb' 6 6).toNat + 1)).signExtend 64 := by
  have pos : fld i.toNat 0 6 = (i.extractLsb' 0 6).toNat := (BitVec.extractLsb'_toNat 0 6 i).symm
  have wd : fld i.toNat 6 6 = (i.extractLsb' 6 6).toNat := (BitVec.extractLsb'_toNat 6 6 i).symm
  simp only [bfxS, pos, wd, r64_sx64, r64_eq_setWidth (fld_lt _ _ _), ofNat_fld]

/-- `s.bfi` puts the low bits of B in a field of A. -/
theorem getLsbD_bfiS (a b : W64) (i : BitVec 20) {k : Nat} (hk : k < 64) : (bfiS a b i.toNat).getLsbD k =
    if (i.extractLsb' 0 6).toNat ≤ k ∧ k < (i.extractLsb' 0 6).toNat + (i.extractLsb' 6 6).toNat + 1
    then b.getLsbD (k - (i.extractLsb' 0 6).toNat) else a.getLsbD k := by
  have pos : fld i.toNat 0 6 = (i.extractLsb' 0 6).toNat := (BitVec.extractLsb'_toNat 0 6 i).symm
  have wd : fld i.toNat 6 6 = (i.extractLsb' 6 6).toNat := (BitVec.extractLsb'_toNat 6 6 i).symm
  rw [bfiS, r64, BitVec.getLsbD_ofNat, testBit_setFld, pos, wd, decide_eq_true hk, Bool.true_and]
  rfl

theorem sxtS_eq (a : W64) (i : BitVec 20) :
    r64 (sx64 (fld i.toNat 0 6 + 1) a.toNat) = (a.setWidth ((i.extractLsb' 0 6).toNat + 1)).signExtend 64 := by
  rw [r64_sx64, BitVec.ofNat_toNat]
  rfl

theorem zxtS_eq (a : W64) (i : BitVec 20) :
    r64 (fld a.toNat 0 (fld i.toNat 0 6 + 1)) = (a.setWidth ((i.extractLsb' 0 6).toNat + 1)).setWidth 64 := by
  have slice (n : Nat) : BitVec.ofNat n (fld a.toNat 0 n) = a.setWidth n :=
    BitVec.eq_of_toNat_eq (by rw [BitVec.toNat_ofNat, fld, Nat.mod_mod, BitVec.toNat_setWidth]; rfl)
  rw [r64_eq_setWidth (fld_lt _ _ _), slice]
  rfl

/-! Special registers (R242). -/

/-- What special register `k` holds for a slot of whose lanes `l` is the lowest. -/
def special (s : State) (x : Issue) (l k : Nat) : W64 :=
  match k with
  | 0 => BitVec.ofNat 64 l
  | 1 => BitVec.ofNat 64 (l % 8)
  | 2 => BitVec.ofNat 64 x.g.num
  | 3 => BitVec.ofNat 64 (if x.g.task then 0xFFFFFFFF else x.g.tidx)
  | 4 => BitVec.ofNat 64 (if x.g.task then 0xFFFFFFFF else x.g.cluster)
  | 5 => BitVec.ofNat 64 x.g.grid
  | 6 => BitVec.ofNat 64 x.g.core
  | 7 => BitVec.ofNat 64 s.time
  | 8 => BitVec.ofNat 64 x.g.wct
  | 9 => x.g.pass
  | _ => BitVec.ofNat 64 (if x.b then 1 else 0)

theorem specialReg_eq {l k : Nat} (low : lowBit 64 x.exec.toNat = l) (hk : k ≤ 10) : specialReg s x k = special s x l k := by
  subst low
  interval_cases k <;> rfl

theorem exec_sSr_value {b c : BitVec 6} {i : BitVec 20} {l : Nat} (form : w.src = .reg b c i) (h : Issues s (.sSr w) x) (hl : l < 64)
    (active : (slotOf x.g x.b).mask.getLsbD l = true) (lowest : ∀ k < l, (slotOf x.g x.b).mask.getLsbD k = false) :
    exec (.sSr w) s = .next (performed x (putG s (ws x.g w.d.toNat (special s x l i.toNat)))) := by
  obtain ⟨-, -, lanes, -⟩ := issuer_some h.1
  have low : lowBit 64 x.exec.toNat = l := lanes ▸ lowBit_eq hl active lowest
  have code := special_le_of_issues h
  refine exec_scalar_value h rfl rfl ((exec_sSr w s).trans (execSSr_eq w s)) ?_
  rw [imm20_reg form] at code ⊢
  exact specialReg_eq low code

end words

/-- Settles O9: each word writes one function of its sources, in the terms of bit vectors. -/
theorem scalarWordResults : Obligations.ScalarWordResults := by
  refine ⟨fun s x w => ?arithmetic, fun s x w => ?logic, fun s x w => ?moves⟩
  case arithmetic =>
    exact ⟨fun h => exec_scalar_value h rfl rfl (exec_sAdd w s) rfl, fun h => exec_scalar_value h rfl rfl (exec_sSub w s) rfl,
      fun h => exec_scalar_value h rfl rfl (exec_sMul w s) rfl, fun h => exec_scalar_value h rfl rfl (exec_sMulh w s) (mulhS_eq _ _ _),
      exec_sDiv_value, exec_sRem_value, fun h => exec_scalar_value h rfl rfl (exec_sMin w s) (minS_eq _ _ _),
      fun h => exec_scalar_value h rfl rfl (exec_sMax w s) (maxS_eq _ _ _)⟩
  case logic =>
    refine ⟨fun h => exec_scalar_value h rfl rfl (exec_sAnd w s) rfl, fun h => exec_scalar_value h rfl rfl (exec_sOr w s) rfl,
      fun h => exec_scalar_value h rfl rfl (exec_sXor w s) rfl, fun h => exec_scalar_value h rfl rfl (exec_sAndn w s) rfl,
      fun h => ?shl, fun h => ?shr, fun h => ?sar, fun h => ?clz, fun h => ?popc, fun b c i form h => ?bfx, fun b c i form h => ?bfi,
      fun b c i form h => ?sxt, fun b c i form h => ?zxt⟩
    case shl => exact exec_scalar_value h rfl rfl (exec_sShl w s) (congrArg (_ <<< ·) (shiftCount_eq _))
    case shr => exact exec_scalar_value h rfl rfl (exec_sShr w s) (congrArg (_ >>> ·) (shiftCount_eq _))
    case sar => exact exec_scalar_value h rfl rfl (exec_sSar w s) (congrArg (BitVec.sshiftRight _) (shiftCount_eq _))
    case clz =>
      obtain ⟨le, zeros, one⟩ := clz_spec (rs x.g w.a.toNat)
      exact ⟨_, le, exec_scalar_value h rfl rfl (exec_sClz w s) rfl, zeros, one⟩
    case popc => exact exec_scalar_value h rfl rfl (exec_sPopc w s) (congrArg r64 (popc_eq_countP _))
    case bfx => exact exec_scalar_value h rfl rfl (exec_sBfx w s) (by rw [imm20_reg form, bfxS_eq])
    case bfi =>
      refine ⟨_, exec_scalar_value h rfl rfl (exec_sBfi w s) rfl, fun k hk => ?_⟩
      rw [imm20_reg form, srcB_reg form, getLsbD_bfiS _ _ _ hk]
    case sxt => exact exec_scalar_value h rfl rfl (exec_sSxt w s) (by rw [imm20_reg form, sxtS_eq])
    case zxt => exact exec_scalar_value h rfl rfl (exec_sZxt w s) (by rw [imm20_reg form, zxtS_eq])
  case moves =>
    refine ⟨fun h => ?cmp, fun b c i form h => ?sel, fun h => exec_scalar_value h rfl rfl (exec_sMov w s) rfl, fun i form h => ?li,
      fun i form h => ?lih, fun i form h => ?leaImm, fun b c i form h => ?leaReg, fun b c i l => exec_sSr_value⟩
    case cmp =>
      refine exec_scalar_value h rfl rfl (exec_sCmp w s) ?_
      rw [condHolds_readU (condition_le_of_issues h)]
      rfl
    case sel => exact exec_scalar_value h rfl rfl (exec_sSel w s) (by rw [srcB_reg form, srcC_reg form, ite_not])
    case li => exact exec_scalar_value h rfl rfl (exec_sLi w s) (srcB_imm form)
    case lih => exact exec_scalar_value h rfl rfl (exec_sLih w s) (by rw [srcB_imm form, sLih_eq])
    case leaImm => exact exec_scalar_value h rfl rfl (exec_sLea w s) (by simp only [form, srcB_imm form])
    case leaReg => exact exec_scalar_value h rfl rfl (exec_sLea w s) (by simp only [form, srcB_reg form]; rfl)

/-! The two rules of R239 on integers. -/

/-- The quotient is rounded toward zero, but for the most negative number divided by -1. -/
theorem toInt_sdiv_of_inside {a b : W64} (inside : ¬ (a.toInt = -2 ^ 63 ∧ b.toInt = -1)) : (a.sdiv b).toInt = a.toInt.tdiv b.toInt := by
  refine BitVec.toInt_sdiv_of_ne_or_ne a b ?_
  by_contra both
  obtain ⟨rfl, rfl⟩ := by simpa only [not_or, not_not] using both
  exact inside ⟨rfl, rfl⟩

theorem toInt_sdiv_of_overflow {a b : W64} (ha : a.toInt = -2 ^ 63) (hb : b.toInt = -1) : (a.sdiv b).toInt = -2 ^ 63 := by
  rw [BitVec.toInt_sdiv, ha, hb]
  rfl

theorem srem_of_overflow {a b : W64} (hb : b.toInt = -1) : a.srem b = 0#64 := by
  refine BitVec.eq_of_toInt_eq ?_
  rw [BitVec.toInt_srem, hb]
  exact (Int.tmod_neg a.toInt 1).trans (Int.tmod_one a.toInt)

theorem ne_zero_of_toInt_neg {b : W64} (hb : b.toInt = -1) : b ≠ 0#64 := by
  rintro rfl
  cases hb

/-- Settles O11: the quotient and the remainder in the two readings, by the divisor. -/
theorem divisionWords : Obligations.DivisionWords := by
  rintro s x w _ _ rfl rfl
  refine ⟨fun h => ⟨_, exec_sDiv_value h, fun zero => ?_, fun nonzero unsigned => ?_, fun nonzero signed inside => ?_, fun signed ha hb => ?_⟩,
    fun h => ⟨_, exec_sRem_value h, fun zero => if_pos zero, fun nonzero unsigned => ?_, fun nonzero signed => ?_, fun signed ha hb => ?_⟩⟩
  · exact (if_pos zero).trans (by decide)
  · rw [if_neg nonzero, if_pos unsigned, BitVec.toNat_udiv]
  · rw [if_neg nonzero, signed, if_neg Bool.false_ne_true, toInt_sdiv_of_inside inside]
  · rw [if_neg (ne_zero_of_toInt_neg hb), signed, if_neg Bool.false_ne_true, toInt_sdiv_of_overflow ha hb]
  · rw [if_neg nonzero, if_pos unsigned, BitVec.toNat_umod, Nat.mod_def]
  · rw [if_neg nonzero, signed, if_neg Bool.false_ne_true, BitVec.toInt_srem, Int.tmod_def]
  · rw [if_neg (ne_zero_of_toInt_neg hb), signed, if_neg Bool.false_ne_true, srem_of_overflow hb]

end Sys2Proof.Proofs
end

section
/-! PROOF. Shared by the vector words: a block of results written register by register in the active lanes, with the flags that its
sub-elements raise (02_execution_model.md R33, R38, R40, 07_numbers.md R179, 10_vector.md R271). -/

namespace Sys2Proof.Proofs
open Sys2Proof Sys2Proof.Machine Sys2Proof.Laws

/-! The registers and lanes of a block (R38). -/

/-- The writes of a block: the register of each cell in each lane of `act`. -/
def blockWrites (d rows cols : Nat) (act : W64) (val : Nat → Nat → Nat → W64) : List (Nat × Nat × W64) :=
  (blockCells rows cols).flatMap fun c => (lanesOf act).map fun l => (d + 16 * c.1 + c.2, l, val c.1 c.2 l)

theorem mem_blockCells {rows cols : Nat} {p : Nat × Nat} : p ∈ blockCells rows cols ↔ p.1 < rows ∧ p.2 < cols := by
  obtain ⟨r, c⟩ := p
  simp [blockCells]

theorem nodup_blockCells (rows cols : Nat) : (blockCells rows cols).Nodup := by
  refine List.nodup_flatMap.2 ⟨fun r _ => ?_, ?_⟩
  · exact List.nodup_range.map fun _ _ e => (Prod.mk.inj e).2
  · refine List.nodup_range.imp fun ne => ?_
    simp only [Function.onFun, List.disjoint_left, List.mem_map, not_exists, not_and]
    rintro _ ⟨_, -, rfl⟩ _ - e
    exact ne (Prod.mk.inj e).1.symm

theorem mem_blockWrites {d rows cols : Nat} {act : W64} {val : Nat → Nat → Nat → W64} {p : Nat × Nat × W64} :
    p ∈ blockWrites d rows cols act val ↔
      ∃ r c l, r < rows ∧ c < cols ∧ l < 64 ∧ act.getLsbD l = true ∧ p = (d + 16 * r + c, l, val r c l) := by
  simp only [blockWrites, List.mem_flatMap, mem_blockCells, List.mem_map, mem_lanesOf, Prod.exists]
  constructor
  · rintro ⟨r, c, ⟨hr, hc⟩, l, ⟨hl, active⟩, rfl⟩
    exact ⟨r, c, l, hr, hc, hl, active, rfl⟩
  · rintro ⟨r, c, l, hr, hc, hl, active, rfl⟩
    exact ⟨r, c, ⟨hr, hc⟩, l, ⟨hl, active⟩, rfl⟩

theorem lane_lt_of_mem_blockWrites {d rows cols : Nat} {act : W64} {val : Nat → Nat → Nat → W64} :
    ∀ p ∈ blockWrites d rows cols act val, p.2.1 < 64 := by
  intro p hp
  obtain ⟨r, c, l, -, -, hl, -, rfl⟩ := mem_blockWrites.1 hp
  exact hl

/-- No two writes of a block of at most sixteen columns meet. -/
theorem nodup_places_blockWrites {cols : Nat} (narrow : cols ≤ 16) (d rows : Nat) (act : W64) (val : Nat → Nat → Nat → W64) :
    ((blockWrites d rows cols act val).map fun p => (p.1, p.2.1)).Nodup := by
  have places : (blockWrites d rows cols act val).map (fun p => (p.1, p.2.1)) =
      (blockCells rows cols).flatMap fun c => (lanesOf act).map fun l => (d + 16 * c.1 + c.2, l) := by
    simp only [blockWrites, List.map_flatMap, List.map_map]
    rfl
  rw [places]
  refine List.nodup_flatMap.2 ⟨fun c _ => (nodup_lanesOf act).map fun _ _ e => (Prod.mk.inj e).2, ?_⟩
  refine List.Nodup.pairwise_of_forall_ne (nodup_blockCells rows cols) fun p hp q hq ne => ?_
  obtain ⟨-, hp⟩ := mem_blockCells.1 hp
  obtain ⟨-, hq⟩ := mem_blockCells.1 hq
  simp only [Function.onFun, List.disjoint_left, List.mem_map, not_exists, not_and]
  rintro _ ⟨_, -, rfl⟩ _ - e
  have same := (Prod.mk.inj e).1
  exact ne (Prod.ext (by omega) (by omega))

section written
variable {d rows cols : Nat} {act : W64} {val : Nat → Nat → Nat → W64} {g : Group}

theorem rv_wvs_blockWrites (narrow : cols ≤ 16) {r c l : Nat} (hr : r < rows) (hc : c < cols) (hl : l < 64) (active : act.getLsbD l = true) :
    rv (wvs g (blockWrites d rows cols act val)) (d + 16 * r + c) l = val r c l :=
  rv_wvs_of_mem lane_lt_of_mem_blockWrites (nodup_places_blockWrites narrow d rows act val)
    (mem_blockWrites.2 ⟨r, c, l, hr, hc, hl, active, rfl⟩) g

theorem rv_wvs_blockWrites_outside {reg l : Nat} (hl : l < 64)
    (outside : ∀ r c, r < rows → c < cols → reg = d + 16 * r + c → act.getLsbD l = false) :
    rv (wvs g (blockWrites d rows cols act val)) reg l = rv g reg l := by
  refine rv_wvs_of_forall_ne lane_lt_of_mem_blockWrites hl (fun p hp => ?_) g
  obtain ⟨r, c, k, hr, hc, -, active, rfl⟩ := mem_blockWrites.1 hp
  rintro ⟨hreg, rfl⟩
  exact Bool.false_ne_true ((outside r c hr hc hreg).symm.trans active)

/-- A block that is written holds its results, and nothing else changes (R33, R38). -/
theorem blockIn_wvs (narrow : cols ≤ 16) {n : Nat} {f : Nat → Nat → Nat → Nat → Nat}
    (value : ∀ r c l k, k < 64 / n → elem n k (val r c l) = f r c l k) :
    BlockIn (wvs g (blockWrites d rows cols act val)) g d rows cols n act f := by
  refine ⟨fun r c l k hr hc hl active hk => ?_, fun reg l hl => rv_wvs_blockWrites_outside hl⟩
  rw [rv_wvs_blockWrites narrow hr hc hl active, value r c l k hk]

end written

theorem colsV_le (w : VWord) : colsV w ≤ 16 := by
  have := w.cols.isLt
  unfold colsV
  omega

/-! Blocks of results that raise flags (R179). -/

/-- A block's results with their flags, in order. -/
def flaggedWrites (d rows cols : Nat) (act : W64) (val : Nat → Nat → Nat → W64 × Nat) : List (Nat × Nat × W64 × Nat) :=
  (blockCells rows cols).flatMap fun c => (lanesOf act).map fun l => (d + 16 * c.1 + c.2, l, val c.1 c.2 l)

/-- All the flags that a block's results raise. -/
def blockFlags (d rows cols : Nat) (act : W64) (val : Nat → Nat → Nat → W64 × Nat) : BitVec 5 :=
  BitVec.ofNat 5 ((flaggedWrites d rows cols act val).foldl (fun a x => a ||| x.2.2.2) 0)

theorem map_flaggedWrites (d rows cols : Nat) (act : W64) (val : Nat → Nat → Nat → W64 × Nat) :
    (flaggedWrites d rows cols act val).map (fun x => (x.1, x.2.1, x.2.2.1)) =
      blockWrites d rows cols act fun r c l => (val r c l).1 := by
  simp only [flaggedWrites, blockWrites, List.map_flatMap, List.map_map]
  rfl

theorem getLsbD_blockFlags {d rows cols : Nat} {act : W64} {val : Nat → Nat → Nat → W64 × Nat} {b : Nat} (hb : b < 5) :
    (blockFlags d rows cols act val).getLsbD b = true ↔
      ∃ r c l, r < rows ∧ c < cols ∧ l < 64 ∧ act.getLsbD l = true ∧ (val r c l).2.testBit b = true := by
  rw [blockFlags, BitVec.getLsbD_ofNat, testBit_foldl_or]
  simp only [hb, decide_true, Bool.true_and, Nat.zero_testBit, Bool.false_or, List.any_eq_true, flaggedWrites, List.mem_flatMap, List.mem_map,
    mem_blockCells, mem_lanesOf]
  constructor
  · rintro ⟨_, ⟨⟨r, c⟩, ⟨hr, hc⟩, l, ⟨hl, active⟩, rfl⟩, bit⟩
    exact ⟨r, c, l, hr, hc, hl, active, bit⟩
  · rintro ⟨r, c, l, hr, hc, hl, active, bit⟩
    exact ⟨_, ⟨(r, c), ⟨hr, hc⟩, l, ⟨hl, active⟩, rfl⟩, bit⟩

/-- The flags of a block are those that its sub-elements raise. -/
theorem flagsOf_blockFlags {old : BitVec 5} {d rows cols n : Nat} {act : W64} {val : Nat → Nat → Nat → W64 × Nat}
    {f : Nat → Nat → Nat → Nat → Nat}
    (raise : ∀ r c l b, b < 5 → ((val r c l).2.testBit b = true ↔ ∃ k < 64 / n, (f r c l k).testBit b = true)) :
    FlagsOf (old ||| blockFlags d rows cols act val) old rows cols n act f := by
  intro b hb
  rw [BitVec.getLsbD_or, Bool.or_eq_true, getLsbD_blockFlags hb]
  refine or_congr_right ⟨?_, ?_⟩
  · rintro ⟨r, c, l, hr, hc, hl, active, bit⟩
    obtain ⟨k, hk, bit⟩ := (raise r c l b hb).1 bit
    exact ⟨r, c, l, k, hr, hc, hl, active, hk, bit⟩
  · rintro ⟨r, c, l, k, hr, hc, hl, active, hk, bit⟩
    exact ⟨r, c, l, hr, hc, hl, active, (raise r c l b hb).2 ⟨k, hk, bit⟩⟩

/-! What the words write. -/

section words
variable {s : State} {x : Issue} {i : Instr} {w : VWord}

/-- A block that a word writes is its result. -/
theorem blockResult_of_writes {d rows cols n : Nat} {act : W64} {val : Nat → Nat → Nat → W64} {f : Nat → Nat → Nat → Nat → Nat}
    (run : exec i s = .next (settle x false (okG s (wvs x.g (blockWrites d rows cols act val))))) (narrow : cols ≤ 16)
    (value : ∀ r c l k, k < 64 / n → elem n k (val r c l) = f r c l k) : BlockResult s x i false d rows cols n act f :=
  ⟨_, _, run, wvs_eq _ _, blockIn_wvs narrow value⟩

/-- A block with its flags, as a group holds it after the word. -/
def withBlock (g : Group) (d rows cols : Nat) (act draw : W64) (val : Nat → Nat → Nat → W64 × Nat) : Group :=
  { g with
    v := (wvs g (blockWrites d rows cols act fun r c l => (val r c l).1)).v,
    flags := g.flags ||| blockFlags d rows cols act val,
    draw := draw }

theorem writeF_flaggedWrites (g : Group) (d rows cols : Nat) (act : W64) (val : Nat → Nat → Nat → W64 × Nat) :
    writeF g (flaggedWrites d rows cols act val) = withBlock g d rows cols act g.draw val := by
  rw [writeF_eq, map_flaggedWrites]
  rfl

/-- Results and flags of a block that a word writes, with the draw count it leaves. -/
theorem blockResultD_of_withBlock {d rows cols n : Nat} {act draw : W64} {val : Nat → Nat → Nat → W64 × Nat}
    {f : Nat → Nat → Nat → Nat → Nat × Nat}
    (run : exec i s = .next (settle x false (okG s (withBlock x.g d rows cols act draw val)))) (narrow : cols ≤ 16)
    (value : ∀ r c l k, k < 64 / n → elem n k (val r c l).1 = (f r c l k).1 % 2 ^ n)
    (raise : ∀ r c l b, b < 5 → ((val r c l).2.testBit b = true ↔ ∃ k < 64 / n, (f r c l k).2.testBit b = true)) :
    BlockResultD s x i false d rows cols n act draw f :=
  ⟨_, _, _, run, rfl, blockIn_wvs narrow value, flagsOf_blockFlags raise⟩

variable (h : Issues s i x) (hm : w.msel.toNat = mselOf i) (hp : false = perLaneOf i) {useB : Bool}
  (clear : tileHold s x w true useB = none)
include h hm hp clear

/-- What a source that a word may leave out supplies. -/
def optionalSrc (x : Issue) (w : VWord) (use : Bool) (code : BitVec 9) (r c l : Nat) : W64 := if use then srcV x w code r c l else 0#64

/-- A vector word writes its function of its sources (R38). -/
theorem exec_vecWord {useC : Bool} {F : W64 → W64 → W64 → W64} (run : exec i s = vecWord i w s useB useC F) :
    exec i s = .next (settle x false (okG s (wvs x.g (blockWrites w.d.toNat (rowsV w) (colsV w) x.active fun r c l =>
      F (srcV x w w.a r c l) (optionalSrc x w useB w.b r c l) (optionalSrc x w useC w.c r c l))))) := by
  rw [run, vecWord, runWord_normal h hm hp]
  simp only [clear]
  rfl

theorem blockResult_vecWord {useC : Bool} {F : W64 → W64 → W64 → W64} (run : exec i s = vecWord i w s useB useC F) {n : Nat}
    {f : Nat → Nat → Nat → Nat → Nat} (value : ∀ r c l k, k < 64 / n →
      elem n k (F (srcV x w w.a r c l) (optionalSrc x w useB w.b r c l) (optionalSrc x w useC w.c r c l)) = f r c l k) :
    BlockResult s x i false w.d.toNat (rowsV w) (colsV w) n x.active f :=
  blockResult_of_writes (exec_vecWord h hm hp clear run) (colsV_le w) value

/-- A vector float word writes its function of its sources, and raises the flags of every result (R179). -/
theorem blockResultF_vecWordF {useC : Bool} {F : W64 → W64 → W64 → W64 × Nat} (run : exec i s = vecWordF i w s useB useC F) {n : Nat}
    {f : Nat → Nat → Nat → Nat → Nat × Nat}
    (value : ∀ r c l k, k < 64 / n →
      elem n k (F (srcV x w w.a r c l) (optionalSrc x w useB w.b r c l) (optionalSrc x w useC w.c r c l)).1 = (f r c l k).1 % 2 ^ n)
    (raise : ∀ r c l b, b < 5 →
      ((F (srcV x w w.a r c l) (optionalSrc x w useB w.b r c l) (optionalSrc x w useC w.c r c l)).2.testBit b = true ↔
        ∃ k < 64 / n, (f r c l k).2.testBit b = true)) :
    BlockResultF s x i false w.d.toNat (rowsV w) (colsV w) n x.active f := by
  refine blockResultD_of_withBlock ?_ (colsV_le w) value raise
  rw [run, vecWordF, runWord_normal h hm hp, ← writeF_flaggedWrites]
  simp only [clear]
  rfl

/-- A cross-lane word writes in each active lane its function of the lanes' sources (R292). -/
theorem blockResult_crossWord {F : Issue → (Nat → W64) → (Nat → W64) → Nat → W64} (run : exec i s = crossWord i w s useB F) {n : Nat}
    {f : Nat → Nat → Nat → Nat → Nat}
    (value : ∀ r c l k, k < 64 / n → elem n k (F x (srcV x w w.a r c) (optionalSrc x w useB w.b r c) l) = f r c l k) :
    BlockResult s x i false w.d.toNat (rowsV w) (colsV w) n x.active f := by
  refine blockResult_of_writes ?_ (colsV_le w) value
  rw [run, crossWord, runWord_normal h hm hp]
  simp only [clear]
  rfl

end words

end Sys2Proof.Proofs
end

section
/-! PROOF. The shuffle, and the vector integer, logic, shift, comparison and move words (10_vector.md R271 to R278, R293). -/

namespace Sys2Proof.Proofs
open Sys2Proof Sys2Proof.Machine Sys2Proof.Laws

/-! A word with a bit set that its form reserves (R217, R463). -/

theorem wordBad_of_unused {f : Form} {w i : Nat} (hi : i < 64) (used : f.used < 2 ^ 64) (unused : f.used.testBit i = false)
    (set : w.testBit i = true) : (wordBad f w).isSome = true := by
  have reserved : w &&& (2 ^ 64 - 1 - f.used) ≠ 0 := by
    intro zero
    have bit := congrArg (Nat.testBit · i) zero
    simp only [Nat.testBit_and, Nat.sub_sub, Nat.add_comm 1, Nat.testBit_two_pow_sub_succ used, Nat.zero_testBit, set, unused, hi] at bit
    exact absurd bit (by decide)
  simp only [wordBad, if_pos reserved, Option.isSome_some]

theorem wordFault_of_wordBad {g : Group} {sl : Slot} {i : Instr} {f : Form} {w : Nat} (hf : form g.width i = some f)
    (bad : (wordBad f w).isSome = true) : ∃ e, wordFault g sl i w = some e ∧ e.cls = 1 := by
  obtain ⟨c, hc⟩ := Option.isSome_iff_exists.1 bad
  refine ⟨{ cls := 1, code := c.1, index := c.2 }, ?_, rfl⟩
  simp only [wordFault, hf, decodeBad, hc]

theorem getLsbD_encV_fn (op : BitVec 8) (w : VWord) {i : Nat} (hi : i < 7) : (encV op w).getLsbD i = w.fn.getLsbD i := by
  have field : (encV op w).extractLsb' 0 7 = w.fn := congrArg VWord.fn (decV_encV op w)
  rw [← field, BitVec.getLsbD_extractLsb', decide_eq_true hi, Bool.true_and, Nat.zero_add]

theorem getLsbD_encV_c (op : BitVec 8) (w : VWord) {i : Nat} (hi : i < 9) : (encV op w).getLsbD (12 + i) = w.c.getLsbD i := by
  have field : (encV op w).extractLsb' 12 9 = w.c := congrArg VWord.c (decV_encV op w)
  rw [← field, BitVec.getLsbD_extractLsb', decide_eq_true hi, Bool.true_and]

theorem exists_bit_of_ne_zero {n : Nat} {v : BitVec n} (ne : v ≠ 0#n) : ∃ i < n, v.getLsbD i = true := by
  by_contra none
  refine ne (BitVec.eq_of_getLsbD_eq fun i hi => ?_)
  have clear : v.getLsbD i ≠ true := fun set => none ⟨i, hi, set⟩
  simpa using clear

/-- The bits that `x.shf` uses: of fn only `.z`, and of c the column pair where a fragment is read (R219, R293). -/
def shuffleUsed (fragment : Bool) : Nat :=
  fm 55 9 + fm 52 3 + fm 48 4 + fm 39 9 + fm 30 9 + fm 21 9 + (if fragment then fm 12 5 else 0) + fm 7 5 + fm 6 1

theorem form_xShf_used {n : Nat} {w : VWord} {f : Form} (hf : form n (.xShf w) = some f) :
    f.used = shuffleUsed (isAcc w.a.toNat || isAcc w.b.toNat) := by
  obtain rfl := Option.some.inj hf
  simp only [formV, shuffleUsed, opdUsed, decide_true, Bool.true_and, and_true, if_true, Nat.zero_or]

theorem shuffleUsed_lt (fragment : Bool) : shuffleUsed fragment < 2 ^ 64 := by cases fragment <;> decide

theorem shuffleUsed_fn (fragment : Bool) : ∀ i < 6, (shuffleUsed fragment).testBit i = false := by cases fragment <;> decide

theorem shuffleUsed_c : ∀ i < 9, (shuffleUsed false).testBit (12 + i) = false := by decide

/-- A set bit of fn[5:0], or of c where no fragment is read, makes `x.shf` illegal (R293). -/
theorem wordFault_xShf (g : Group) (sl : Slot) {w : VWord}
    (bits : w.fn.extractLsb' 0 6 ≠ 0#6 ∨ (w.c ≠ 0#9 ∧ isAcc w.a.toNat = false ∧ isAcc w.b.toNat = false)) :
    ∃ e, wordFault g sl (.xShf w) ((encode (.xShf w)).getD 0#64).toNat = some e ∧ e.cls = 1 := by
  refine wordFault_of_wordBad rfl ?_
  have used := form_xShf_used (n := g.width) (w := w) rfl
  obtain fn | ⟨c, a, b⟩ := bits
  · obtain ⟨i, hi, set⟩ := exists_bit_of_ne_zero fn
    rw [BitVec.getLsbD_extractLsb', decide_eq_true hi, Bool.true_and, Nat.zero_add] at set
    refine wordBad_of_unused (by omega) (used ▸ shuffleUsed_lt _) (used ▸ shuffleUsed_fn _ i hi) ?_
    exact (getLsbD_encV_fn _ w (by omega)).trans set
  · obtain ⟨i, hi, set⟩ := exists_bit_of_ne_zero c
    have unused := shuffleUsed_c i hi
    rw [a, b] at used
    refine wordBad_of_unused (i := 12 + i) (by omega) (used ▸ shuffleUsed_lt _) (used ▸ unused) ?_
    exact (getLsbD_encV_c _ w hi).trans set

/-! What a shuffle takes from a lane (R292, R293). -/

theorem fromLane_eq (x : Issue) (z : Bool) (rd : Nat → W64) (lane : Nat) :
    fromLane x z rd lane = if x.g.width ≤ lane ∨ (z = true ∧ x.active.getLsbD lane = false) then 0#64 else rd lane := by
  simp only [fromLane, Bool.not_eq_true']

theorem elem_zero (w k : Nat) : elem w k 0#64 = 0 := by
  simp [elem, fld]

theorem blockResult_xShf {s : State} {x : Issue} {w : VWord} (h : Issues s (.xShf w) x) (clear : tileHold s x w true true = none) :
    BlockResult s x (.xShf w) false w.d.toNat (rowsV w) (colsV w) (widV w) x.active fun r c l k =>
      elem (widV w) ((k + (srcV x w w.b r c l).toNat / 256 % 64) % (64 / widV w))
        (fromLane x (w.fn.getLsbD 6) (srcV x w w.a r c) ((srcV x w w.b r c l).toNat % 64)) := by
  refine blockResult_crossWord h rfl rfl clear (exec_xShf w s) fun r c l k hk => ?_
  rw [elem_pack_range hk, Nat.mod_eq_of_lt (elem_lt _ _ _)]
  simp only [optionalSrc, if_true, fld_eq_div_mod, pow_zero, Nat.div_one]
  rfl

theorem srcV_scalar {code : BitVec 9} (scalar : isSca code.toNat = true) (x : Issue) (w : VWord) (r c l : Nat) :
    srcV x w code r c l = rs x.g (code.toNat - 352) := by
  have range : 352 ≤ code.toNat ∧ code.toNat < 416 := of_decide_eq_true scalar
  have vec : isVec code.toNat = false := decide_eq_false (by omega)
  have acc : isAcc code.toNat = false := decide_eq_false (by omega)
  simp only [srcV, readSrc, vec, acc, scalar, Bool.false_eq_true, if_false, if_true]

/-- Settles O12: the lane and the rotation that b names, a scalar b, and the bits that `x.shf` does not use. -/
theorem shuffleWord : Obligations.ShuffleWord := by
  refine ⟨?result, fun x w r c l scalar => srcV_scalar scalar x w r c l, fun g sl w => wordFault_xShf g sl⟩
  case result =>
    rintro s x w _ rfl h clear
    refine (congrArg _ ?_).mp (blockResult_xShf h clear)
    funext r c l k
    rw [fromLane_eq, apply_ite (elem (widV w) _), elem_zero]

/-! Sub-elements of the integer words' functions (R274 to R278). -/

section each
variable {w k : Nat} (hk : k < 64 / w)
include hk

theorem elem_each3 (f : Nat → Nat → Nat → Nat) (a b c : W64) :
    elem w k (each3 w f a b c) = f (elem w k a) (elem w k b) (elem w k c) % 2 ^ w := elem_pack_range hk _

theorem elem_each3_of_lt {f : Nat → Nat → Nat → Nat} {a b c : W64} (lt : f (elem w k a) (elem w k b) (elem w k c) < 2 ^ w) :
    elem w k (each3 w f a b c) = f (elem w k a) (elem w k b) (elem w k c) :=
  (elem_each3 hk f a b c).trans (Nat.mod_eq_of_lt lt)

/-- Every sub-element of a register filled with one value. -/
theorem elem_pack_replicate (v : Nat) : elem w k (pack w (List.replicate (64 / w) v)) = v % 2 ^ w := by
  rw [elem_pack (by simpa using hk) (elem_end_le hk), List.getElem_replicate]

end each

theorem shlE_eq (w a n : Nat) : shlE w a n = if w ≤ n then 0 else a * 2 ^ n % 2 ^ w := by rw [shlE, Nat.shiftLeft_eq]

theorem shrE_eq (w a n : Nat) : shrE w a n = if w ≤ n then 0 else a / 2 ^ n := by rw [shrE, Nat.shiftRight_eq_div_pow]

theorem popc_eq (w a : Nat) : popc w a = (List.range w).countP fun q => a.testBit q := List.countP_eq_length_filter.symm

theorem bfxE_lt {t pos wd a : Nat} (ha : a < 2 ^ tyWidth t) : bfxE t pos wd a < 2 ^ tyWidth t := by
  have field : fld a pos wd ≤ a := (Nat.mod_le _ _).trans (Nat.shiftRight_le a pos)
  exact ite_lt (wrap_lt _ _) (field.trans_lt ha)

/-- A field inserted within an element leaves it an element. -/
theorem setFld_lt {w x pos wd : Nat} (hx : x < 2 ^ w) (inside : pos + wd ≤ w) (v : Nat) : setFld x pos wd v < 2 ^ w := by
  refine Nat.lt_pow_two_of_testBit _ fun i hi => ?_
  have outside : ¬(pos ≤ i ∧ i < pos + wd) := by omega
  rw [testBit_setFld, if_neg outside]
  exact Nat.testBit_lt_two_pow (hx.trans_le (Nat.pow_le_pow_right Nat.two_pos hi))

/-- The immediate of `v.li` is the 18 bits of b and c (R278). -/
theorem toS_bc (b c : BitVec 9) : toS 18 (b.toNat * 512 + c.toNat) = (b ++ c).toInt := by
  have bits : BitVec.ofNat 18 (b.toNat * 512 + c.toNat) = b ++ c := by
    refine BitVec.eq_of_toNat_eq ?_
    have := b.isLt
    have := c.isLt
    rw [BitVec.toNat_append, ← Nat.shiftLeft_add_eq_or_of_lt c.isLt, Nat.shiftLeft_eq, BitVec.toNat_ofNat]
    omega
  rw [toS_eq_toInt 17, bits]

section sound
variable {s : State} {x : Issue} {w : VWord}

/-- A bitfield that issues lies within its element (R277). -/
theorem field_le_of_vBfi (h : Issues s (.vBfi w) x) : w.c.toNat % 64 + (w.fn.toNat % 64 + 1) ≤ widV w := by
  have coded := coded_of_issues h rfl (mem_code _ (12, decide (fld w.c.toNat 0 6 + fld w.fn.toNat 0 6 + 1 ≤ tyWidth w.ty.toNat)))
  simpa only [fld_eq_div_mod, pow_zero, Nat.div_one, Nat.add_assoc, Nat.reducePow, widV] using of_decide_eq_true coded

theorem condition_le_of_vCmp (h : Issues s (.vCmp w) x) : w.fn.toNat % 8 ≤ 5 :=
  of_decide_eq_true (coded_of_issues h rfl (mem_code _ (0, decide (w.fn.toNat % 8 ≤ 5))))

/-- A shift word writes its shift by sub-element B, or by the count in c (R275). -/
theorem blockResult_shiftWord {i : Instr} (h : Issues s i x) (hm : w.msel.toNat = mselOf i) (hp : false = perLaneOf i)
    (clear : tileHold s x w true (!w.fn.getLsbD 0) = none) {F : Nat → Nat → Nat → Nat} (run : exec i s = shiftWord i w s F)
    (fits : ∀ a n, a < 2 ^ widV w → F (widV w) a n < 2 ^ widV w) :
    BlockResult s x i false w.d.toNat (rowsV w) (colsV w) (widV w) x.active fun r c l k =>
      F (widV w) (elem (widV w) k (srcV x w w.a r c l))
        (if w.fn.getLsbD 0 then w.c.toNat % 64 else elem (widV w) k (srcV x w w.b r c l)) := by
  rw [shiftWord, sat0] at run
  cases count : w.fn.getLsbD 0 with
  | true =>
    simp only [count, if_true, Bool.not_true] at run clear ⊢
    exact blockResult_vecWord h hm hp clear run fun r c l k hk =>
      elem_each1_of_lt (f := fun e => F (widV w) e (w.c.toNat % 64)) hk (fits _ _ (elem_lt _ _ _))
  | false =>
    simp only [count, Bool.false_eq_true, if_false, Bool.not_false] at run clear ⊢
    exact blockResult_vecWord h hm hp clear run fun r c l k hk =>
      elem_each2_of_lt (f := F (widV w)) hk (fits _ _ (elem_lt _ _ _))

/-- `v.li` writes its immediate to every sub-element (R278). -/
theorem blockResult_vLi (h : Issues s (.vLi w) x) : BlockResult s x (.vLi w) false w.d.toNat (rowsV w) (colsV w) (widV w) x.active
    fun _ _ _ _ => wrap (widV w) (w.b ++ w.c).toInt := by
  refine blockResult_of_writes (val := fun _ _ _ => pack (widV w) (List.replicate (64 / widV w) (wrap (widV w) (w.b ++ w.c).toInt)))
    ?_ (colsV_le w) fun r c l k hk => ?_
  · rw [exec_vLi, execVLi, runWord_normal (m := w.msel.toNat) (p := false) h rfl rfl, toS_bc]
    rfl
  · rw [elem_pack_replicate hk, Nat.mod_eq_of_lt (wrap_lt _ _)]

end sound

/-- Settles O22: each word by the sub-elements of its function. -/
theorem vectorIntegerWords : Obligations.VectorIntegerWords := by
  have mod_lt (a w : Nat) : a % 2 ^ w < 2 ^ w := Nat.mod_lt _ (Nat.two_pow_pos w)
  refine ⟨fun s x w => ⟨?add, ?sub, ?mul, ?mulh, ?mad, ?absd, ?min, ?max⟩,
    fun s x w => ⟨?and, ?or, ?xor, ?andn, ?shl, ?shr, ?sar, ?clz, ?popc, ?bfx, ?bfi, ?sel, ?cmp, ?mov, blockResult_vLi⟩⟩
  case add =>
    exact fun h clear => blockResult_vecWord h rfl rfl clear (exec_vAdd w s) fun r c l k hk => elem_each2_of_lt hk (wrap_lt _ _)
  case sub =>
    exact fun h clear => blockResult_vecWord h rfl rfl clear (exec_vSub w s) fun r c l k hk => elem_each2_of_lt hk (wrap_lt _ _)
  case mul =>
    exact fun h clear => blockResult_vecWord h rfl rfl clear (exec_vMul w s) fun r c l k hk => elem_each2_of_lt hk (wrap_lt _ _)
  case mulh =>
    exact fun h clear => blockResult_vecWord h rfl rfl clear (exec_vMulh w s) fun r c l k hk => elem_each2_of_lt hk (wrap_lt _ _)
  case mad =>
    exact fun h clear => blockResult_vecWord h rfl rfl clear (exec_vMad w s) fun r c l k hk => elem_each3_of_lt hk (wrap_lt _ _)
  case absd =>
    exact fun h clear => blockResult_vecWord h rfl rfl clear (exec_vAbsd w s) fun r c l k hk => elem_each2_of_lt hk (mod_lt _ _)
  case min =>
    exact fun h clear => blockResult_vecWord h rfl rfl clear (exec_vMin w s) fun r c l k hk =>
      elem_each2_of_lt hk (ite_lt (elem_lt _ _ _) (elem_lt _ _ _))
  case max =>
    exact fun h clear => blockResult_vecWord h rfl rfl clear (exec_vMax w s) fun r c l k hk =>
      elem_each2_of_lt hk (ite_lt (elem_lt _ _ _) (elem_lt _ _ _))
  case and => exact fun h clear => blockResult_vecWord h rfl rfl clear (exec_vAnd w s) fun r c l k hk => elem_and _ _ _ _
  case or => exact fun h clear => blockResult_vecWord h rfl rfl clear (exec_vOr w s) fun r c l k hk => elem_or _ _ _ _
  case xor => exact fun h clear => blockResult_vecWord h rfl rfl clear (exec_vXor w s) fun r c l k hk => elem_xor _ _ _ _
  case andn =>
    refine fun h clear => blockResult_vecWord h rfl rfl clear (exec_vAndn w s) fun r c l k hk => ?_
    rw [elem_and, elem_not hk]
    rfl
  case shl =>
    intro h clear
    simp only [← shlE_eq]
    exact blockResult_shiftWord h rfl rfl clear (exec_vShl w s) fun a n _ => shlE_lt _ a n
  case shr =>
    intro h clear
    simp only [← shrE_eq]
    exact blockResult_shiftWord h rfl rfl clear (exec_vShr w s) fun a n => shrE_lt n
  case sar => exact fun h clear => blockResult_shiftWord h rfl rfl clear (exec_vSar w s) fun a n _ => wrap_lt _ _
  case clz =>
    exact fun h clear => blockResult_vecWord h rfl rfl clear (exec_vClz w s) fun r c l k hk => elem_each1_of_lt hk (clz_lt _ _)
  case popc =>
    simp only [← popc_eq]
    exact fun h clear => blockResult_vecWord h rfl rfl clear (exec_vPopc w s) fun r c l k hk => elem_each1_of_lt hk (popc_lt _ _)
  case bfx =>
    exact fun h clear => blockResult_vecWord h rfl rfl clear (exec_vBfx w s) fun r c l k hk => elem_each1_of_lt hk (bfxE_lt (elem_lt _ _ _))
  case bfi =>
    exact fun h clear => blockResult_vecWord h rfl rfl clear (exec_vBfi w s) fun r c l k hk =>
      elem_each2_of_lt hk (setFld_lt (elem_lt _ _ _) (field_le_of_vBfi h) _)
  case sel =>
    refine fun h clear => blockResult_vecWord h rfl rfl clear (exec_vSel w s) fun r c l k hk => ?_
    rw [elem_each3_of_lt hk (ite_lt (elem_lt _ _ _) (elem_lt _ _ _)), ite_not]
    rfl
  case cmp =>
    refine fun h clear => blockResult_vecWord h rfl rfl clear (exec_vCmp w s) fun r c l k hk => ?_
    have ones_lt : ones (widV w) < 2 ^ widV w := Nat.sub_lt (Nat.two_pow_pos _) Nat.one_pos
    refine (elem_each2_of_lt hk ?fits).trans ?value
    case fits => exact ite_lt ones_lt (Nat.two_pow_pos _)
    case value =>
      have code := condition_le_of_vCmp h
      generalize w.fn.toNat % 8 = cc at code ⊢
      interval_cases cc <;> rfl
  case mov => exact fun h clear => blockResult_vecWord h rfl rfl clear (exec_vMov w s) fun r c l k hk => rfl

end Sys2Proof.Proofs
end

section
/-! PROOF. Packing, unpacking and moves between scalars and elements (10_vector.md R279, R286). -/

namespace Sys2Proof.Proofs
open Sys2Proof Sys2Proof.Machine Sys2Proof.Laws

/-! The type of a word that issues is one its row takes (R221, R463). -/

theorem types_of_wordBad {f : Form} {w : Nat} (sound : wordBad f w = none) {p : Nat × Bool} (hp : p ∈ f.types) : p.2 = true := by
  dsimp only [wordBad] at sound
  split at sound
  · cases sound
  · split at sound
    · cases sound
    · split at sound
      · cases sound
      · next types => exact firstBad_eq_none types hp

theorem types_of_issues {s : State} {i : Instr} {x : Issue} {f : Form} (h : Issues s i x) (hf : form x.g.width i = some f) {p : Nat × Bool}
    (hp : p ∈ f.types) : p.2 = true := by
  obtain ⟨-, -, sound⟩ := h
  exact types_of_wordBad (wordBad_of_wordFault sound hf) hp

theorem tyWidth_mem (t : Nat) : tyWidth t ∈ [64, 32, 16, 8, 4, 2] := by
  unfold tyWidth
  split <;> decide

theorem tyWidth_pos (t : Nat) : 0 < tyWidth t := by
  have := tyWidth_mem t
  simp only [List.mem_cons, List.not_mem_nil, or_false] at this
  omega

/-- A width of at most 32 divides half a register. -/
theorem two_mul_half {t : Nat} (narrow : tyWidth t ≤ 32) : 2 * (32 / tyWidth t) = 64 / tyWidth t := by
  have := tyWidth_mem t
  simp only [List.mem_cons, List.not_mem_nil, or_false] at this
  obtain e | e | e | e | e | e := this <;> rw [e] at narrow ⊢
  omega

theorem div_two_mul (w : Nat) : 64 / (2 * w) = 32 / w := (Nat.div_div_eq_div_mul 64 2 w).symm

/-! Packing and unpacking (R286). -/

section packing
variable {s : State} {x : Issue} {w : VWord}

theorem width_le_of_vPack (h : Issues s (.vPack w) x) : widV w ≤ 32 := by
  have types := types_of_issues h rfl (List.mem_singleton.2 rfl)
  simp only [Bool.and_eq_true, decide_eq_true_eq] at types
  exact types.2

/-- A packed element is one of its two sources', saturated or cut to its width. -/
theorem elem_packLane {t k : Nat} (narrow : tyWidth t ≤ 32) (hk : k < 64 / tyWidth t) (sat : Bool) (a b : W64) :
    elem (tyWidth t) k (packLane t sat a b) =
      let v := if k < 32 / tyWidth t then elem (2 * tyWidth t) k a else elem (2 * tyWidth t) (k - 32 / tyWidth t) b
      if sat then writeT t true (readWide t v) else v % 2 ^ tyWidth t := by
  rw [packLane, two_mul_half narrow, elem_pack_range hk]
  exact Nat.mod_eq_of_lt (ite_lt (wrap_lt _ _) (Nat.mod_lt _ (Nat.two_pow_pos _)))

/-- An unpacked element is one of its source's half, extended. -/
theorem elem_unpackLane {t k : Nat} (hk : k < 64 / (2 * tyWidth t)) (hi : Nat) (a : W64) :
    elem (2 * tyWidth t) k (unpackLane t hi a) =
      let v := elem (tyWidth t) (32 / tyWidth t * hi + k) a
      if tySigned t then wrap (2 * tyWidth t) (toS (tyWidth t) v) else v := by
  rw [unpackLane, ← div_two_mul, elem_pack_range hk]
  have wide : 2 ^ tyWidth t ≤ 2 ^ (2 * tyWidth t) := Nat.pow_le_pow_right Nat.two_pos (by omega)
  exact Nat.mod_eq_of_lt (ite_lt (wrap_lt _ _) ((elem_lt _ _ _).trans_le wide))

end packing

/-! One element of a register (R279). -/

theorem elem_setElem {w k k' : Nat} (hk' : k' < 64 / w) (e : Nat) (v : W64) :
    elem w k' (setElem w k e v) = if k' = k then e % 2 ^ w else elem w k' v := by
  refine Nat.eq_of_testBit_eq fun i => ?_
  rw [testBit_elem, apply_ite (Nat.testBit · i), Nat.testBit_mod_two_pow, testBit_elem, setElem, r64, BitVec.getLsbD_ofNat, testBit_setFld]
  by_cases hi : i < w
  · have inside : k' * w + i < 64 := lt_of_lt_of_le (Nat.add_lt_add_left hi _) (elem_end_le hk')
    have place : (k * w ≤ k' * w + i ∧ k' * w + i < k * w + w) ↔ k' = k := by
      constructor
      · rintro ⟨lo, up⟩
        have le : k < k' + 1 := Nat.lt_of_mul_lt_mul_right (a := w) (by rw [Nat.succ_mul]; omega)
        have ge : k' < k + 1 := Nat.lt_of_mul_lt_mul_right (a := w) (by rw [Nat.succ_mul]; omega)
        omega
      · rintro rfl
        omega
    simp only [hi, inside, place, decide_true, Bool.true_and, BitVec.testBit_toNat]
    split
    · next same => rw [same, Nat.add_sub_cancel_left]
    · rfl
  · simp only [hi, decide_false, Bool.false_and, ite_self]

/-- Writing a group back as it is changes nothing. -/
theorem replaceFirst_found {α : Type} {p : α → Bool} {l : List α} {a : α} (found : l.find? p = some a) :
    replaceFirst p (fun _ => a) l = l := by
  induction l with
  | nil => rfl
  | cons b l ih =>
    cases hb : p b with
    | true =>
      rw [List.find?_cons_of_pos hb] at found
      rw [replaceFirst, hb, if_pos rfl, Option.some.inj found]
    | false =>
      rw [List.find?_cons_of_neg (by simp [hb])] at found
      rw [replaceFirst, hb, if_neg Bool.false_ne_true, ih found]

theorem putG_of_getG {s : State} {g : Group} (found : getG s g.gid = some g) : putG s g = s :=
  congrArg (fun l => { s with groups := l }) (replaceFirst_found found)

theorem extend_eq (t e : Nat) : extend t e = if tySigned t then (BitVec.ofNat (tyWidth t) e).signExtend 64 else BitVec.ofNat 64 e := by
  have signed : r64 (sx64 (tyWidth t) e) = (BitVec.ofNat (tyWidth t) e).signExtend 64 := by
    obtain ⟨n, hn⟩ := Nat.exists_eq_add_one.2 (tyWidth_pos t)
    rw [hn, r64_sx64]
  rw [extend, signed]
  rfl

/-- The group with the element that `v.froms` names written. -/
def withElement (x : Issue) (w : VWord) : Group :=
  wv x.g w.d.toNat (elemIndex x.g w / (64 / widV w)) (setElem (widV w) (elemIndex x.g w % (64 / widV w))
    (rs x.g (w.a.toNat - 352)).toNat (rv x.g w.d.toNat (elemIndex x.g w / (64 / widV w))))

section moves
variable {s : State} {x : Issue} {w : VWord}

/-- `v.froms` writes its element, where the element's lane is in exec. -/
theorem exec_vFroms (h : Issues s (.vFroms w) x) : ∃ v, exec (.vFroms w) s = .next (performed x (putG s { x.g with v := v })) ∧
    ∀ r l k, l < 64 → k < 64 / widV w → elem (widV w) k (rv { x.g with v := v } r l) =
      if r = w.d.toNat ∧ l = elemIndex x.g w / (64 / widV w) ∧ k = elemIndex x.g w % (64 / widV w) ∧ x.exec.getLsbD l = true
      then (rs x.g (w.a.toNat - 352)).toNat % 2 ^ widV w else elem (widV w) k (rv x.g r l) := by
  obtain ⟨-, own, -, -⟩ := issuer_some h.1
  have run := runWord_normal (m := 0) (p := false) h rfl rfl
  by_cases there : elemIndex x.g w / (64 / widV w) < 64 ∧ x.exec.getLsbD (elemIndex x.g w / (64 / widV w)) = true
  · refine ⟨(withElement x w).v, ?_, fun r l k hl hk => ?_⟩
    · rw [Laws.exec_vFroms, execVFroms, run]
      simp only [if_pos there, okG, settle_ok]
      rfl
    · change elem (widV w) k (rv (withElement x w) r l) = _
      rw [withElement, rv_wv _ _ _ _ _ _ there.1 hl]
      by_cases place : r = w.d.toNat ∧ l = elemIndex x.g w / (64 / widV w)
      · obtain ⟨rfl, rfl⟩ := place
        simp only [and_self, if_true, elem_setElem hk, there.2, true_and, and_true]
      · rw [if_neg place, if_neg fun all => place ⟨all.1, all.2.1⟩]
  · refine ⟨x.g.v, ?_, fun r l k hl hk => ?_⟩
    · rw [Laws.exec_vFroms, execVFroms, run]
      simp only [if_neg there, settle_ok]
      rw [putG_of_getG own]
    · rw [if_neg]
      rintro ⟨-, rfl, -, active⟩
      exact there ⟨hl, active⟩

/-- `v.tos` reads its element, zero beyond the group's lanes. -/
theorem exec_vTos (h : Issues s (.vTos w) x) (clear : tileHold s x w true false = none) :
    exec (.vTos w) s = .next (performed x (putG s (ws x.g (w.d.toNat - 352)
      (if elemIndex x.g w / (64 / widV w) < x.g.width
        then extend (tyV w) (elem (widV w) (elemIndex x.g w % (64 / widV w)) (srcV x w w.a 0 0 (elemIndex x.g w / (64 / widV w))))
        else 0#64)))) := by
  rw [Laws.exec_vTos, execVTos, runWord_normal (m := 0) (p := false) h rfl rfl]
  simp only [clear, okG, settle_ok]
  rfl

end moves

/-- Settles O24: the elements of packed and unpacked registers, and the element that is moved. -/
theorem packingAndElementMoves : Obligations.PackingAndElementMoves := by
  refine ⟨fun s x w => ⟨?pack, ?unpack⟩, ?moves⟩
  case pack =>
    refine fun h clear => blockResult_vecWord h rfl rfl clear (exec_vPack w s) fun r c l k hk => ?_
    refine (elem_packLane (t := w.ty.toNat) (width_le_of_vPack h) hk _ _ _).trans ?_
    simp only [readWide, Nat.cast_ite]
    rfl
  case unpack =>
    refine fun h clear => blockResult_vecWord h rfl rfl clear (exec_vUnpack w s) fun r c l k hk => ?_
    refine (elem_unpackLane (t := w.ty.toNat) hk _ _).trans ?_
    have half : 32 / tyWidth w.ty.toNat * (if sat0 w then 1 else 0) = if w.fn.getLsbD 0 then 32 / widV w else 0 := by
      rw [sat0]
      split
      · exact Nat.mul_one _
      · exact Nat.mul_zero _
    rw [half]
    rfl
  case moves =>
    rintro s x w _ _ rfl rfl
    refine ⟨exec_vFroms, fun h clear => ?_⟩
    rw [exec_vTos h clear, extend_eq]
    rfl

end Sys2Proof.Proofs
end

section
/-! PROOF. Words across lanes: shuffles, butterflies, broadcasts, scans, reductions and compaction (10_vector.md R292 to R297). -/

namespace Sys2Proof.Proofs
open Sys2Proof Sys2Proof.Machine Sys2Proof.Laws

/-! Lists of elements in element order (R28, R292). -/

/-- The numbers below `m * n` are `n` for each number below `m`. -/
theorem range_mul (m n : Nat) : List.range (m * n) = (List.range m).flatMap fun l => (List.range n).map fun k => l * n + k := by
  induction m with
  | zero => rw [Nat.zero_mul]; rfl
  | succ m ih =>
    rw [Nat.succ_mul, List.range_add, ih, List.range_succ, List.flatMap_append, List.flatMap_singleton]

theorem div_of_mul_add {l k n : Nat} (hk : k < n) : (l * n + k) / n = l := by
  rw [Nat.add_comm, Nat.add_mul_div_right _ _ (Nat.zero_lt_of_lt hk), Nat.div_eq_of_lt hk, Nat.zero_add]

theorem mod_of_mul_add {l k n : Nat} (hk : k < n) : (l * n + k) % n = k := by
  rw [Nat.add_comm, Nat.add_mul_mod_self_right, Nat.mod_eq_of_lt hk]

/-- Elements taken lane by lane are those taken in element order. -/
theorem map_range_mul {α : Type} (m n : Nat) (f : Nat → Nat → α) :
    (List.range (m * n)).map (fun e => f (e / n) (e % n)) = (List.range m).flatMap fun l => (List.range n).map (f l) := by
  rw [range_mul, List.map_flatMap]
  refine List.flatMap_congr fun l _ => ?_
  rw [List.map_map]
  refine List.map_congr_left fun k hk => ?_
  have hk := List.mem_range.1 hk
  simp only [Function.comp_apply, div_of_mul_add hk, mod_of_mul_add hk]

theorem flatMap_filter {α β : Type} (p : α → Bool) (f : α → List β) (l : List α) :
    (l.filter p).flatMap f = l.flatMap fun a => if p a then f a else [] := by
  induction l with
  | nil => rfl
  | cons a l ih =>
    cases hp : p a <;> simp [hp, ih]

theorem map_filter_eq_filterMap {α β : Type} (p : α → Bool) (f : α → β) (l : List α) :
    (l.filter p).map f = l.filterMap fun a => if p a then some (f a) else none := by
  induction l with
  | nil => rfl
  | cons a l ih =>
    cases hp : p a <;> simp [hp, ih]

/-- The place of a number among those below it that satisfy `p`. -/
theorem countP_range_of_getElem {p : Nat → Bool} {m i : Nat} (hi : i < ((List.range m).filter p).length) :
    (List.range ((List.range m).filter p)[i]).countP p = i := by
  induction m with
  | zero => cases hi
  | succ m ih =>
    have split : (List.range (m + 1)).filter p = (List.range m).filter p ++ [m].filter p := by
      rw [List.range_succ, List.filter_append]
    simp only [split] at hi ⊢
    by_cases before : i < ((List.range m).filter p).length
    · rw [List.getElem_append_left before, ih before]
    · have last : p m = true ∧ i = ((List.range m).filter p).length := by
        cases hp : p m <;> simp [hp] at hi before ⊢ <;> omega
      obtain ⟨hp, rfl⟩ := last
      simp [hp, List.countP_eq_length_filter]

/-! Broadcasts and butterflies (R294, R295). -/

section moves
variable {s : State} {x : Issue} {w : VWord}

theorem blockResult_xBcast (h : Issues s (.xBcast w) x) (clear : tileHold s x w true false = none) :
    BlockResult s x (.xBcast w) false w.d.toNat (rowsV w) (colsV w) (widV w) x.active fun r c _ _ =>
      elem (widV w) (elemIndex x.g w % (64 / widV w))
        (fromLane x (w.fn.getLsbD 6) (srcV x w w.a r c) (elemIndex x.g w / (64 / widV w))) := by
  refine blockResult_crossWord h rfl rfl clear (exec_xBcast w s) fun r c l k hk => ?_
  exact (elem_pack_replicate hk _).trans (Nat.mod_eq_of_lt (elem_lt _ _ _))

/-- Element `q` of a butterfly's source A, or B. -/
def bflySrc (x : Issue) (w : VWord) (r c : Nat) (b : Bool) (q : Nat) : Nat :=
  elem (widV w) (q % (64 / widV w)) (srcV x w (if b then w.b else w.a) r c (q / (64 / widV w)))

/-- What a butterfly gives to element `i` of its first destination, or its second (R294). -/
def bflyElem (x : Issue) (w : VWord) (second : Bool) (r c i : Nat) : Nat :=
  if second == i.testBit (w.fn.toNat % 16) then bflySrc x w r c second i
  else bflySrc x w r c (i.testBit (w.fn.toNat % 16)) (i ^^^ 2 ^ (w.fn.toNat % 16))

/-- The writes of a butterfly's destination block. -/
def bflyWrites (x : Issue) (w : VWord) (second : Bool) (base : Nat) : List (Nat × Nat × W64) :=
  blockWrites base (rowsV w) (colsV w) x.active fun r c l =>
    pack (widV w) ((List.range (64 / widV w)).map fun k => bflyElem x w second r c (l * (64 / widV w) + k))

/-- The group after a butterfly. -/
def withButterfly (x : Issue) (w : VWord) : Group := wvs (wvs x.g (bflyWrites x w false w.d.toNat)) (bflyWrites x w true w.c.toNat)

theorem wvs_append (g : Group) (l m : List (Nat × Nat × W64)) : wvs g (l ++ m) = wvs (wvs g l) m := List.foldl_append

theorem exec_xBfly_issues (h : Issues s (.xBfly w) x) (clear : tileHold s x w true true = none) :
    exec (.xBfly w) s = .next (performed x (putG s (withButterfly x w))) := by
  have source (b : Bool) (r c l : Nat) : readSrc x.g (if b = true then w.b.toNat else w.a.toNat) (fragPair w) r c l =
      srcV x w (if b then w.b else w.a) r c l := by cases b <;> rfl
  rw [exec_xBfly, execXBfly, runWord_normal (m := w.msel.toNat) (p := false) h rfl rfl]
  simp only [clear, okG, settle_ok, source, wvs_append]
  rfl

theorem bflyElem_lt (x : Issue) (w : VWord) (second : Bool) (r c i : Nat) : bflyElem x w second r c i < 2 ^ widV w :=
  ite_lt (elem_lt _ _ _) (elem_lt _ _ _)

variable {r c l k : Nat} (hr : r < rowsV w) (hc : c < colsV w) (hl : l < 64) (active : x.active.getLsbD l = true) (hk : k < 64 / widV w)

include hr hc hl active hk in
theorem elem_wvs_bflyWrites (g : Group) (second : Bool) (base : Nat) :
    elem (widV w) k (rv (wvs g (bflyWrites x w second base)) (base + 16 * r + c) l) = bflyElem x w second r c (l * (64 / widV w) + k) := by
  rw [bflyWrites, rv_wvs_blockWrites (colsV_le w) hr hc hl active, elem_pack_range hk, Nat.mod_eq_of_lt (bflyElem_lt _ _ _ _ _ _)]

include hl in
theorem rv_wvs_bflyWrites_outside {g : Group} {second : Bool} {base reg : Nat}
    (outside : ∀ r c, r < rowsV w → c < colsV w → reg = base + 16 * r + c → x.active.getLsbD l = false) :
    rv (wvs g (bflyWrites x w second base)) reg l = rv g reg l := rv_wvs_blockWrites_outside hl outside

include hr hc hl active hk in
/-- The first destination keeps its results where the second does not meet it. -/
theorem elem_withButterfly_first
    (apart : ∀ r' c', r' < rowsV w → c' < colsV w → w.d.toNat + 16 * r + c ≠ w.c.toNat + 16 * r' + c') :
    elem (widV w) k (rv (withButterfly x w) (w.d.toNat + 16 * r + c) l) = bflyElem x w false r c (l * (64 / widV w) + k) := by
  rw [withButterfly, rv_wvs_bflyWrites_outside hl fun r' c' hr' hc' meet => absurd meet (apart r' c' hr' hc')]
  exact elem_wvs_bflyWrites hr hc hl active hk _ _ _

include hl in
theorem rv_withButterfly_outside {reg : Nat} (outside : x.active.getLsbD l = false ∨ ∀ r c, r < rowsV w → c < colsV w →
    reg ≠ w.d.toNat + 16 * r + c ∧ reg ≠ w.c.toNat + 16 * r + c) : rv (withButterfly x w) reg l = rv x.g reg l := by
  rw [withButterfly, rv_wvs_bflyWrites_outside hl fun r c hr hc meet => outside.resolve_right fun apart => (apart r c hr hc).2 meet,
    rv_wvs_bflyWrites_outside hl fun r c hr hc meet => outside.resolve_right fun apart => (apart r c hr hc).1 meet]

theorem bflyElem_second (i : Nat) : bflyElem x w true r c i =
    if i.testBit (w.fn.toNat % 16) then bflySrc x w r c true i else bflySrc x w r c false (i ^^^ 2 ^ (w.fn.toNat % 16)) := by
  rw [bflyElem]
  cases i.testBit (w.fn.toNat % 16) <;> rfl

theorem bflyElem_first (i : Nat) : bflyElem x w false r c i =
    if i.testBit (w.fn.toNat % 16) then bflySrc x w r c true (i ^^^ 2 ^ (w.fn.toNat % 16)) else bflySrc x w r c false i := by
  rw [bflyElem]
  cases i.testBit (w.fn.toNat % 16) <;> rfl

end moves

/-! Scans and reductions (R292, R296). -/

section scans
variable {s : State} {x : Issue} {w : VWord}

/-- What an element supplies to a scan: its value, or the operation's identity where its lane is not active. -/
def scanElem (x : Issue) (w : VWord) (r c l k : Nat) : Nat :=
  if x.active.getLsbD l then elem (widV w) k (srcV x w w.a r c l) else (scanOp w).ident

theorem scanElems_eq (x : Issue) (w : VWord) (r c : Nat) : scanElems x w (r, c) =
    (List.range (x.g.width * (64 / widV w))).map fun e => scanElem x w r c (e / (64 / widV w)) (e % (64 / widV w)) := by
  rw [map_range_mul, scanElems]
  refine List.flatMap_congr fun l _ => ?_
  change _ = (List.range _).map fun k => if x.active.getLsbD l then elem (widV w) k (srcV x w w.a r c l) else (scanOp w).ident
  cases x.active.getLsbD l with
  | false => simp only [Bool.false_eq_true, if_false, List.map_const', List.length_range]
  | true => rfl

theorem blockResult_xScan (h : Issues s (.xScan w) x) (clear : tileHold s x w true false = none) :
    BlockResult s x (.xScan w) false w.d.toNat (rowsV w) (colsV w) (widV w) x.active fun r c l k =>
      (scanOp w).combine ((scanElems x w (r, c)).take (l * (64 / widV w) + k + (if w.fn.getLsbD 3 then 0 else 1))) % 2 ^ widV w := by
  refine blockResult_of_writes (val := fun r c l => pack (widV w) ((List.range (64 / widV w)).map fun k =>
    (scanOp w).combine ((scanElems x w (r, c)).take (l * (64 / widV w) + k + (if w.fn.getLsbD 3 then 0 else 1)))))
    ?_ (colsV_le w) fun r c l k hk => elem_pack_range hk _
  rw [exec_xScan, execXScan, runWord_normal (m := w.msel.toNat) (p := false) h rfl rfl]
  simp only [clear]
  rfl

theorem blockResult_xRed (h : Issues s (.xRed w) x) (clear : tileHold s x w true false = none) (vector : isSca w.d.toNat = false) :
    BlockResult s x (.xRed w) false w.d.toNat (rowsV w) (colsV w) (widV w) x.active fun r c _ _ =>
      (scanOp w).combine (scanElems x w (r, c)) % 2 ^ widV w := by
  refine blockResult_of_writes (val := fun r c _ => pack (widV w) (List.replicate (64 / widV w) ((scanOp w).combine (scanElems x w (r, c)))))
    ?_ (colsV_le w) fun r c l k hk => elem_pack_replicate hk _
  rw [exec_xRed, execXRed, runWord_normal (m := w.msel.toNat) (p := false) h rfl rfl]
  simp only [clear, vector, Bool.false_eq_true, if_false]
  rfl

theorem exec_xRed_scalar (h : Issues s (.xRed w) x) (clear : tileHold s x w true false = none) (scalar : isSca w.d.toNat = true) :
    exec (.xRed w) s = .next (performed x (putG s (ws x.g (w.d.toNat - 352)
      (extend w.ty.toNat ((scanOp w).combine (scanElems x w (0, 0))))))) := by
  rw [exec_xRed, execXRed, runWord_normal (m := w.msel.toNat) (p := false) h rfl rfl]
  simp only [clear, scalar, if_true, okG, settle_ok]

end scans

/-! Compaction (R297). -/

section compaction
variable {s : State} {x : Issue} {w : VWord}

/-- The elements of A whose element of B is not zero, in element order. -/
def selected (x : Issue) (w : VWord) (r c : Nat) : List Nat :=
  ((List.range (64 * (64 / widV w))).filter fun e => x.active.getLsbD (e / (64 / widV w)) &&
    elem (widV w) (e % (64 / widV w)) (srcV x w w.b r c (e / (64 / widV w))) != 0).map
    fun e => elem (widV w) (e % (64 / widV w)) (srcV x w w.a r c (e / (64 / widV w)))

/-- What one lane selects. -/
def laneSelected (x : Issue) (w : VWord) (r c l : Nat) : List Nat :=
  ((elems (widV w) (srcV x w w.a r c l)).zip (elems (widV w) (srcV x w w.b r c l))).filterMap
    fun p => if p.2 ≠ 0 then some p.1 else none

theorem selected_eq (x : Issue) (w : VWord) (r c : Nat) : (lanesOf x.active).flatMap (laneSelected x w r c) = selected x w r c := by
  rw [lanesOf, flatMap_filter, selected, map_filter_eq_filterMap, range_mul, List.filterMap_flatMap]
  refine List.flatMap_congr fun l _ => ?_
  rw [List.filterMap_map]
  cases active : x.active.getLsbD l with
  | false =>
    rw [if_neg Bool.false_ne_true, eq_comm, List.filterMap_eq_nil_iff]
    intro k hk
    simp only [Function.comp_apply, div_of_mul_add (List.mem_range.1 hk), active, Bool.false_and, Bool.false_eq_true, if_false]
  | true =>
    rw [if_pos rfl, laneSelected, elems, elems, List.zip_map', List.filterMap_map]
    refine List.filterMap_congr fun k hk => ?_
    have hk := List.mem_range.1 hk
    simp only [Function.comp_apply, div_of_mul_add hk, mod_of_mul_add hk, active, Bool.true_and, bne_iff_ne]

theorem selected_getD_lt (x : Issue) (w : VWord) (r c i : Nat) : (selected x w r c).getD i 0 < 2 ^ widV w := by
  rw [List.getD_eq_getElem?_getD]
  cases found : (selected x w r c)[i]? with
  | none => exact Nat.two_pow_pos _
  | some v =>
    obtain ⟨e, -, rfl⟩ := List.mem_map.1 (List.mem_of_getElem? found)
    exact elem_lt _ _ _

/-- Results that go to the lanes of a mask in turn go to each by its place among them. -/
theorem zip_lanesOf {α : Type} (m : W64) (f : Nat → Nat → α) :
    ((List.range (lanesOf m).length).zip (lanesOf m)).map (fun p => f p.1 p.2) =
      (lanesOf m).map fun l => f ((List.range l).countP fun j => m.getLsbD j) l := by
  refine List.ext_getElem (by simp) fun i h1 h2 => ?_
  have hi : i < (lanesOf m).length := by simpa using h2
  rw [List.getElem_map, List.getElem_map, List.getElem_zip, List.getElem_range]
  exact congrArg (f · _) (countP_range_of_getElem (p := fun j => m.getLsbD j) hi).symm

theorem blockResult_xCompact (h : Issues s (.xCompact w) x) (clear : tileHold s x w true true = none) :
    BlockResult s x (.xCompact w) false w.d.toNat (rowsV w) (colsV w) (widV w) x.exec fun r c l k =>
      (selected x w r c).getD ((List.range l).countP (fun j => x.exec.getLsbD j) * (64 / widV w) + k) 0 := by
  refine blockResult_of_writes (val := fun r c l => pack (widV w) ((List.range (64 / widV w)).map fun k =>
    (selected x w r c).getD ((List.range l).countP (fun j => x.exec.getLsbD j) * (64 / widV w) + k) 0)) ?_ (colsV_le w) fun r c l k hk => ?_
  · rw [exec_xCompact, execXCompact, runWord_normal (m := w.msel.toNat) (p := false) h rfl rfl]
    simp only [clear]
    refine congrArg (fun l => Host.Outcome.next (settle x false (okG s (wvs x.g l)))) (List.flatMap_congr fun c _ => ?_)
    beta_reduce
    rw [← selected_eq]
    exact zip_lanesOf x.exec fun i l => (w.d.toNat + 16 * c.1 + c.2, l, pack (widV w) ((List.range (64 / widV w)).map fun k =>
      ((lanesOf x.active).flatMap (laneSelected x w c.1 c.2)).getD (i * (64 / widV w) + k) 0))
  · rw [elem_pack_range hk, Nat.mod_eq_of_lt (selected_getD_lt _ _ _ _ _)]

end compaction

theorem extractLsb'_toNat_mod (v : W64) (lo len : Nat) : (v.extractLsb' lo len).toNat = v.toNat / 2 ^ lo % 2 ^ len := by
  rw [BitVec.extractLsb'_toNat, Nat.shiftRight_eq_div_pow]

/-- Settles O28: what each word moves, by element, and what scans, reductions and compaction make of the elements in order. -/
theorem crossLaneWords : Obligations.CrossLaneWords := by
  refine ⟨?moves, ?orders⟩
  case moves =>
    rintro s x w _ rfl
    refine ⟨?take, fun h clear => ⟨(withButterfly x w).v, ?run, ?elements, ?frame⟩⟩
    case take =>
      rintro _ rfl
      refine ⟨fun h clear => ?shuffle, fun h clear => ?broadcast⟩
      case shuffle =>
        refine (congrArg _ ?_).mp (blockResult_xShf h clear)
        funext r c l k
        simp only [fromLane_eq, extractLsb'_toNat_mod, pow_zero, Nat.div_one]
        rfl
      case broadcast =>
        refine (congrArg _ ?_).mp (blockResult_xBcast h clear)
        simp only [fromLane_eq]
    case run =>
      rw [exec_xBfly_issues h clear]
      refine congrArg (fun g => Host.Outcome.next (performed x (putG s g))) ?_
      rw [withButterfly, wvs_eq _ (bflyWrites x w true w.c.toNat), wvs_eq x.g]
    case elements =>
      rintro r c l k _ src hr hc hl active hk rfl rfl
      exact ⟨(elem_wvs_bflyWrites hr hc hl active hk _ true _).trans (bflyElem_second _),
        fun apart => (elem_withButterfly_first hr hc hl active hk apart).trans (bflyElem_first _)⟩
    case frame => exact fun reg l hl outside => rv_withButterfly_outside hl outside
  case orders =>
    rintro s x w _ el rfl hel
    have elements (r c : Nat) : el r c = scanElems x w (r, c) := by rw [hel, scanElems_eq]; rfl
    refine ⟨fun h clear => ?scan, fun h clear vector => ?reduce, fun h clear scalar => ?scalar, ?compact⟩
    case scan =>
      simp only [elements]
      exact blockResult_xScan h clear
    case reduce =>
      simp only [elements]
      exact blockResult_xRed h clear vector
    case scalar =>
      rw [elements]
      exact exec_xRed_scalar h clear scalar
    case compact =>
      rintro h clear _ rfl
      exact blockResult_xCompact h clear

end Sys2Proof.Proofs
end

section
/-! PROOF. Votes, mask words and random draws (10_vector.md R298, R299, 12_matrix_training.md R357). -/

namespace Sys2Proof.Proofs
open Sys2Proof Sys2Proof.Machine Sys2Proof.Laws

/-! Masks and lists of lanes. -/

theorem getLsbD_lanesMask (l : List Nat) {i : Nat} (hi : i < 64) : (lanesMask l).getLsbD i = decide (i ∈ l) := by
  have bit (j : Nat) : ((1 <<< j : Nat).testBit i) = decide (j = i) := by rw [Nat.one_shiftLeft, Nat.testBit_two_pow]
  rw [lanesMask, BitVec.getLsbD_ofNat, testBit_foldl_or (fun j => 1 <<< j), decide_eq_true hi, Nat.zero_testBit, Bool.true_and, Bool.false_or]
  simp only [bit, List.any_eq, decide_eq_true_eq, exists_eq_right]

theorem getLsbD_lanesMask_filter (m : W64) (p : Nat → Bool) {i : Nat} (hi : i < 64) :
    (lanesMask ((lanesOf m).filter p)).getLsbD i = (m.getLsbD i && p i) := by
  rw [getLsbD_lanesMask _ hi, Bool.eq_iff_iff, decide_eq_true_eq, List.mem_filter, mem_lanesOf, Bool.and_eq_true]
  simp only [hi, true_and]

/-- The first set bit of a mask, 64 when there is none. -/
theorem lowBit_spec (m : W64) : lowBit 64 m.toNat ≤ 64 ∧ (∀ l < lowBit 64 m.toNat, m.getLsbD l = false) ∧
    (lowBit 64 m.toNat < 64 → m.getLsbD (lowBit 64 m.toNat) = true) := by
  rw [lowBit]
  cases found : (List.range 64).find? (fun i => m.toNat.testBit i) with
  | none =>
    refine ⟨le_refl 64, fun l hl => ?_, fun lt => absurd lt (lt_irrefl 64)⟩
    exact Bool.eq_false_of_not_eq_true (List.find?_eq_none.1 found l (List.mem_range.2 hl))
  | some i =>
    obtain ⟨set, hi, clear⟩ := List.find?_range_eq_some.1 found
    refine ⟨(List.mem_range.1 hi).le, fun l hl => ?_, fun _ => set⟩
    exact Bool.eq_false_of_not_eq_true' (clear l hl)

/-! Votes (R298). -/

section words
variable {s : State} {x : Issue} {w : VWord}

/-- A lane votes for, when it is active and its operand is nonzero, or set. -/
def votesFor (x : Issue) (w : VWord) (l : Nat) : Bool :=
  x.active.getLsbD l && (if isMask w.a.toNat then (readMask x w.a.toNat).getLsbD l else rv x.g w.a.toNat l != 0#64)

/-- What a lane that votes offers. -/
def ballot (x : Issue) (w : VWord) (l : Nat) : Bool :=
  if isMask w.a.toNat then (readMask x w.a.toNat).getLsbD l else decide (rv x.g w.a.toNat l ≠ 0#64)

theorem votesFor_eq (x : Issue) (w : VWord) (l : Nat) : votesFor x w l = (x.active.getLsbD l && ballot x w l) := by
  have nonzero : (rv x.g w.a.toNat l != 0#64) = decide (rv x.g w.a.toNat l ≠ 0#64) := (decide_not ..).symm
  rw [votesFor, ballot, nonzero]

theorem voteLanes_eq (x : Issue) (w : VWord) : voteLanes x w = (lanesOf x.active).filter (ballot x w) := rfl

theorem exec_vote {i : Instr} (h : Issues s i x) (hm : w.msel.toNat = mselOf i) (hp : false = perLaneOf i) {f : Issue → List Nat → W64}
    (run : exec i s = voteWord i w s f) {v : W64} (value : f x (voteLanes x w) = v) :
    exec i s = .next (performed x (putG s (writeCode x.g w.d.toNat v))) := by
  rw [run, voteWord, runWord_normal h hm hp, okG, settle_ok, value]

theorem voteAny_eq (x : Issue) (w : VWord) :
    (if (voteLanes x w).isEmpty then 0#64 else 1#64) = if (List.range 64).any (votesFor x w) then 1#64 else 0#64 := by
  have none_votes : (voteLanes x w).isEmpty = !(List.range 64).any (votesFor x w) := by
    rw [Bool.eq_iff_iff, List.isEmpty_iff, voteLanes_eq, lanesOf, List.filter_filter, List.filter_eq_nil_iff]
    simp [votesFor_eq, and_comm]
  rw [none_votes]
  cases (List.range 64).any (votesFor x w) <;> rfl

theorem voteAll_eq (x : Issue) (w : VWord) :
    (if (voteLanes x w).length = (lanesOf x.active).length then 1#64 else 0#64) =
      if (List.range 64).all (fun l => !x.active.getLsbD l || votesFor x w l) then 1#64 else 0#64 := by
  refine ite_congr (propext ?_) (fun _ => rfl) fun _ => rfl
  rw [voteLanes_eq, List.length_filter_eq_length_iff, List.all_eq_true]
  simp only [mem_lanesOf, List.mem_range, votesFor_eq]
  refine forall_congr' fun l => ?_
  cases x.active.getLsbD l <;> simp

theorem getLsbD_voteBal (x : Issue) (w : VWord) {l : Nat} (hl : l < 64) : (lanesMask (voteLanes x w)).getLsbD l = votesFor x w l := by
  rw [voteLanes_eq, getLsbD_lanesMask_filter _ _ hl, votesFor_eq]

/-! Mask words (R299). -/

theorem exec_mask {i : Instr} (h : Issues s i x) (hm : 0 = mselOf i) (hp : false = perLaneOf i) {f : W64 → W64 → W64}
    (run : exec i s = maskWord i w s f) {v : W64} (value : f (readMask x w.a.toNat) (readMask x w.b.toNat) = v) :
    exec i s = .next (performed x (putG s (writeCode x.g w.d.toNat v))) := by
  rw [run, maskWord, runWord_normal h hm hp, okG, settle_ok, value]

/-- The mask that `m.set` writes. -/
def maskOfSource (x : Issue) (w : VWord) : W64 :=
  if isVec w.a.toNat then lanesMask ((lanesOf x.exec).filter fun l => decide (rv x.g w.a.toNat l ≠ 0#64)) else readMask x w.a.toNat

theorem exec_mSet_issues (h : Issues s (.mSet w) x) :
    exec (.mSet w) s = .next (performed x (putG s (writeCode x.g w.d.toNat (maskOfSource x w)))) := by
  rw [exec_mSet, execMSet, runWord_normal (m := 0) (p := false) h rfl rfl, okG, settle_ok]
  rfl

theorem getLsbD_maskOfSource (x : Issue) (w : VWord) {l : Nat} (hl : l < 64) : (maskOfSource x w).getLsbD l =
    if isVec w.a.toNat then x.exec.getLsbD l && (rv x.g w.a.toNat l != 0#64) else (readMask x w.a.toNat).getLsbD l := by
  rw [maskOfSource]
  split
  · rw [getLsbD_lanesMask_filter _ _ hl]
    exact congrArg (x.exec.getLsbD l && ·) (decide_not ..)
  · rfl

/-! Random draws (R357). -/

theorem elem_64 {k : Nat} (hk : k < 64 / 64) (v : W64) : elem 64 k v = v.toNat := by
  obtain rfl := Nat.lt_one_iff.1 hk
  rw [elem, fld_eq_div_mod, Nat.zero_mul, pow_zero, Nat.div_one, Nat.mod_eq_of_lt v.isLt]

theorem wvs_draw (g : Group) (l : List (Nat × Nat × W64)) (n : W64) :
    { wvs g l with draw := n } = { g with v := (wvs g l).v, draw := n } := congrArg (fun g : Group => { g with draw := n }) (wvs_eq g l)

/-- The words of the group's stream, one for each register and lane of the block. -/
def drawn (s : State) (x : Issue) (w : VWord) (r c l : Nat) : Nat :=
  groupWord s x.g (x.g.draw.toNat + (r * colsV w + c) * x.g.width + l)

theorem blockResultD_rngDraw (h : Issues s (.rngDraw w) x) : BlockResultD s x (.rngDraw w) false w.d.toNat (rowsV w) (colsV w) 64 x.active
    (x.g.draw + BitVec.ofNat 64 (rowsV w * colsV w * x.g.width)) fun r c l _ => (drawn s x w r c l, 0) := by
  refine ⟨_, (wvs x.g (blockWrites w.d.toNat (rowsV w) (colsV w) x.active fun r c l => r64 (drawn s x w r c l))).v, x.g.flags, ?_, rfl,
    blockIn_wvs (colsV_le w) fun r c l k hk => ?_, fun b hb => ?_⟩
  · rw [exec_rngDraw, execRngDraw, runWord_normal (m := w.msel.toNat) (p := false) h rfl rfl]
    exact congrArg (fun g => Host.Outcome.next (settle x false (okG s g))) (wvs_draw x.g _ _)
  · rw [elem_64 hk, r64, BitVec.toNat_ofNat]
  · simp

end words

/-- Settles O29: the lanes that vote, the masks bit by bit, and the words drawn for a block. -/
theorem votesMasksAndRandom : Obligations.VotesMasksAndRandom := by
  refine ⟨fun s x w => ⟨?votes, ?and, ?or, ?xor, ?andn, ?popc, ?ffs, ?set⟩, fun s x w h => blockResultD_rngDraw h⟩
  case votes =>
    rintro _ rfl
    exact ⟨fun h => exec_vote h rfl rfl (exec_voteAny w s) (voteAny_eq x w), fun h => exec_vote h rfl rfl (exec_voteAll w s) (voteAll_eq x w),
      fun h => ⟨_, exec_vote h rfl rfl (exec_voteBal w s) rfl, fun l hl => getLsbD_voteBal x w hl⟩⟩
  case and => exact fun h => exec_mask h rfl rfl (exec_mAnd w s) rfl
  case or => exact fun h => exec_mask h rfl rfl (exec_mOr w s) rfl
  case xor => exact fun h => exec_mask h rfl rfl (exec_mXor w s) rfl
  case andn => exact fun h => exec_mask h rfl rfl (exec_mAndn w s) rfl
  case popc => exact fun h => exec_mask h rfl rfl (exec_mPopc w s) (congrArg r64 (popc_eq_countP _))
  case ffs =>
    intro h
    obtain ⟨le, clear, set⟩ := lowBit_spec (readMask x w.a.toNat)
    exact ⟨_, le, exec_mask h rfl rfl (exec_mFfs w s) rfl, clear, set⟩
  case set => exact fun h => ⟨_, exec_mSet_issues h, fun l hl => getLsbD_maskOfSource x w hl⟩

end Sys2Proof.Proofs
end

section
/-! PROOF. Rounding a magnitude to a multiple of a power of two (07_numbers.md R180, R181): what the integer part and the discarded part of
`scaleTo` say of the exact value, and which multiple `roundTo` takes in each mode. -/

namespace Sys2Proof.Proofs
open Sys2Proof Sys2Proof.Machine Sys2Proof.Laws

section magnitudes
variable {K : Type} [Field K]

/-- A value in units of 2^q. -/
def inUnits (a : K) (e q : Int) : K := a * 2 ^ (e - q)

variable {m : Nat} {e q : Int}

/-! The integer part and the discarded part. -/

theorem scaleTo_coarse (h : q ≤ e) : scaleTo m e q = (m * 2 ^ (e - q).toNat, 0, 0) := by
  rw [scaleTo, if_pos h, Nat.shiftLeft_eq]

theorem scaleTo_fine (h : e < q) :
    scaleTo m e q = (m / 2 ^ (q - e).toNat, m % 2 ^ (q - e).toNat, (q - e).toNat) := by
  rw [scaleTo, if_neg (not_le.2 h), ← Nat.shiftRight_eq_div_pow]

theorem inUnits_coarse (h : q ≤ e) : inUnits (m : K) e q = (m * 2 ^ (e - q).toNat : Nat) := by
  have power : (2 : K) ^ (e - q) = 2 ^ (e - q).toNat := by
    rw [← zpow_natCast, Int.toNat_of_nonneg (sub_nonneg.2 h)]
  rw [inUnits, power, Nat.cast_mul, Nat.cast_pow, Nat.cast_ofNat]

theorem inUnits_fine (h : e < q) (a : K) : inUnits a e q = a / 2 ^ (q - e).toNat := by
  have power : (2 : K) ^ (e - q) = (2 ^ (q - e).toNat)⁻¹ := by
    rw [← zpow_natCast, Int.toNat_of_nonneg (sub_nonneg.2 h.le), ← zpow_neg, neg_sub]
  rw [inUnits, power, div_eq_mul_inv]

/-- A number by its quotient and remainder of a power of two, in the field. -/
theorem cast_div_add_mod (m sh : Nat) : (m : K) = (m / 2 ^ sh : Nat) * 2 ^ sh + (m % 2 ^ sh : Nat) := by
  have split := congrArg (Nat.cast (R := K)) (Nat.div_add_mod m (2 ^ sh))
  push_cast at split
  rw [← split, mul_comm]

variable [LinearOrder K] [IsStrictOrderedRing K]

theorem inUnits_mul (a : K) (e q : Int) : inUnits a e q * 2 ^ q = a * 2 ^ e := by
  rw [inUnits, mul_assoc, ← zpow_add₀ two_ne_zero, sub_add_cancel]

theorem cast_mod_succ_le (m sh : Nat) : ((m % 2 ^ sh : Nat) : K) + 1 ≤ 2 ^ sh := by
  exact_mod_cast Nat.mod_lt m (Nat.two_pow_pos sh)

/-- `a` is the magnitude that `m` stands for: `m` itself, or with `st` a value strictly between `m` and `m + 1`. -/
structure Stands (m : Nat) (st : Bool) (a : K) : Prop where
  lower : (m : K) ≤ a
  upper : a < m + 1
  exact : a = m ↔ st = false

theorem Stands.natCast (m : Nat) : Stands m false (m : K) := ⟨le_refl _, lt_add_one _, by simp⟩

variable {st : Bool} {a : K}

section stands
variable (h : Stands m st a) (fine : st = true → e < q)
include h fine

theorem scaleTo_lower : ((scaleTo m e q).1 : K) ≤ inUnits a e q := by
  by_cases le : q ≤ e
  · have exact : a = m := h.exact.2 (Bool.eq_false_of_not_eq_true fun s => not_le.2 (fine s) le)
    rw [exact, scaleTo_coarse le, inUnits_coarse le]
  · have lt := not_le.1 le
    have split := cast_div_add_mod (K := K) m (q - e).toNat
    have nonneg : (0 : K) ≤ (m % 2 ^ (q - e).toNat : Nat) := Nat.cast_nonneg _
    rw [scaleTo_fine lt, inUnits_fine lt, le_div_iff₀ (by positivity)]
    linarith [h.lower]

theorem scaleTo_upper : inUnits a e q < (scaleTo m e q).1 + 1 := by
  by_cases le : q ≤ e
  · have exact : a = m := h.exact.2 (Bool.eq_false_of_not_eq_true fun s => not_le.2 (fine s) le)
    rw [exact, scaleTo_coarse le, inUnits_coarse le]
    exact lt_add_one _
  · have lt := not_le.1 le
    have split := cast_div_add_mod (K := K) m (q - e).toNat
    have rest := cast_mod_succ_le (K := K) m (q - e).toNat
    rw [scaleTo_fine lt, inUnits_fine lt, div_lt_iff₀ (by positivity)]
    linarith [h.upper]

/-- Nothing is discarded just where the value is a whole number of units. -/
theorem scaleTo_exact : inUnits a e q = (scaleTo m e q).1 ↔ (scaleTo m e q).2.1 = 0 ∧ st = false := by
  by_cases le : q ≤ e
  · have sharp : st = false := Bool.eq_false_of_not_eq_true fun s => not_le.2 (fine s) le
    rw [h.exact.2 sharp, scaleTo_coarse le, inUnits_coarse le]
    simp [sharp]
  · have lt := not_le.1 le
    have split := cast_div_add_mod (K := K) m (q - e).toNat
    have nonneg : (0 : K) ≤ (m % 2 ^ (q - e).toNat : Nat) := Nat.cast_nonneg _
    rw [scaleTo_fine lt, inUnits_fine lt, div_eq_iff (by positivity), ← h.exact]
    constructor
    · intro whole
      have rest : ((m % 2 ^ (q - e).toNat : Nat) : K) = 0 := le_antisymm (by linarith [h.lower]) nonneg
      exact ⟨by exact_mod_cast rest, by linarith⟩
    · rintro ⟨rest, exact⟩
      have rest : m % 2 ^ (q - e).toNat = 0 := rest
      rw [rest, Nat.cast_zero, add_zero] at split
      exact exact.trans split

/-- To nearest, a magnitude is rounded up above the half, and at the half when that makes it even. -/
theorem roundUp_nearest {k : Rnd} (mode : k.mode = 0) (neg : Bool) :
    roundUp k neg (scaleTo m e q).1 (scaleTo m e q).2.1 (scaleTo m e q).2.2 st = true ↔
      2 * (scaleTo m e q).1 + 1 < 2 * inUnits a e q ∨ (2 * inUnits a e q = 2 * (scaleTo m e q).1 + 1 ∧ (scaleTo m e q).1 % 2 = 1) := by
  by_cases le : q ≤ e
  · have sharp : st = false := Bool.eq_false_of_not_eq_true fun s => not_le.2 (fine s) le
    rw [h.exact.2 sharp, scaleTo_coarse le, inUnits_coarse le]
    simp only [roundUp, mode, if_true]
    constructor
    · intro no
      cases no
    · rintro (above | ⟨half, -⟩) <;> linarith
  · have lt := not_le.1 le
    obtain ⟨n, hn⟩ : ∃ n, (q - e).toNat = n + 1 := Nat.exists_eq_add_one.2 (by omega)
    have split := cast_div_add_mod (K := K) m (n + 1)
    have positive : (0 : K) < 2 ^ n := by positivity
    rw [scaleTo_fine lt, inUnits_fine lt, hn, ← mul_div_assoc, lt_div_iff₀ (by positivity), div_eq_iff (by positivity)]
    simp only [roundUp, mode, Nat.add_one_ne_zero, if_false, Nat.add_sub_cancel, Bool.or_eq_true, Bool.and_eq_true, decide_eq_true_eq]
    generalize m / 2 ^ (n + 1) = i at split ⊢
    generalize m % 2 ^ (n + 1) = rem at split ⊢
    rw [pow_succ] at split ⊢
    obtain below | half | above := lt_trichotomy rem (2 ^ n)
    · have below' : (rem : K) + 1 ≤ 2 ^ n := by exact_mod_cast below
      constructor
      · rintro (up | ⟨at_half, -⟩) <;> omega
      · rintro (up | ⟨at_half, -⟩) <;> exfalso <;> linarith [h.upper]
    · have half' : (rem : K) = 2 ^ n := by exact_mod_cast half
      cases st with
      | true =>
        have strict : (m : K) < a := lt_of_le_of_ne h.lower fun eq => Bool.noConfusion (h.exact.1 eq.symm)
        exact ⟨fun _ => .inl (by linarith), fun _ => .inr ⟨half, .inl rfl⟩⟩
      | false =>
        have exact := h.exact.2 rfl
        constructor
        · rintro (up | ⟨-, sticky | odd⟩)
          · omega
          · cases sticky
          · exact .inr ⟨by linarith, odd⟩
        · rintro (up | ⟨-, odd⟩)
          · exfalso
            linarith
          · exact .inr ⟨half, .inr odd⟩
    · have above' : (2 : K) ^ n + 1 ≤ rem := by exact_mod_cast above
      exact ⟨fun _ => .inl (by linarith [h.lower]), fun _ => .inl above⟩

/-! The multiple that is taken. -/

omit h fine in
theorem roundUp_nothing (k : Rnd) (neg : Bool) (i sh : Nat) : roundUp k neg i 0 sh false = false := by
  have positive : 0 ≠ 2 ^ (sh - 1) := (Nat.two_pow_pos _).ne
  unfold roundUp
  split <;> simp [positive]

theorem roundTo_inexact (k : Rnd) (neg : Bool) : (roundTo k neg m e q st).2 = false ↔ inUnits a e q = (scaleTo m e q).1 := by
  rw [scaleTo_exact h fine]
  simp [roundTo]

theorem roundTo_bounds (k : Rnd) (neg : Bool) :
    ((roundTo k neg m e q st).1 : K) ≤ inUnits a e q + 1 ∧ inUnits a e q < (roundTo k neg m e q st).1 + 1 := by
  have lower := scaleTo_lower h fine
  have upper := scaleTo_upper h fine
  simp only [roundTo]
  split <;> push_cast <;> constructor <;> linarith

/-- A value that is a whole number of units is taken as it is. -/
theorem roundTo_exact (k : Rnd) (neg : Bool) (exact : (roundTo k neg m e q st).2 = false) :
    ((roundTo k neg m e q st).1 : K) = inUnits a e q := by
  have whole := (roundTo_inexact h fine k neg).1 exact
  obtain ⟨none, sharp⟩ := (scaleTo_exact h fine).1 whole
  have kept : roundUp k neg (scaleTo m e q).1 (scaleTo m e q).2.1 (scaleTo m e q).2.2 st = false := by
    rw [none, sharp, roundUp_nothing]
  rw [whole, roundTo, kept]
  simp

theorem roundTo_eq_iff (k : Rnd) (neg : Bool) : ((roundTo k neg m e q st).1 : K) = inUnits a e q ↔ (roundTo k neg m e q st).2 = false := by
  refine ⟨fun eq => (roundTo_inexact h fine k neg).2 ?_, roundTo_exact h fine k neg⟩
  have lower := scaleTo_lower h fine
  have upper := scaleTo_upper h fine
  rw [← eq] at lower upper ⊢
  have lo : (scaleTo m e q).1 ≤ (roundTo k neg m e q st).1 := by exact_mod_cast lower
  have up : (roundTo k neg m e q st).1 < (scaleTo m e q).1 + 1 := by exact_mod_cast upper
  exact_mod_cast (by omega : (roundTo k neg m e q st).1 = (scaleTo m e q).1)

theorem roundTo_nearest {k : Rnd} (mode : k.mode = 0) (neg : Bool) :
    |((roundTo k neg m e q st).1 : K) - inUnits a e q| * 2 ≤ 1 ∧
      (|((roundTo k neg m e q st).1 : K) - inUnits a e q| * 2 = 1 → (roundTo k neg m e q st).1 % 2 = 0) := by
  have lower := scaleTo_lower h fine
  have upper := scaleTo_upper h fine
  have up := roundUp_nearest h fine mode neg
  simp only [roundTo]
  cases taken : roundUp k neg (scaleTo m e q).1 (scaleTo m e q).2.1 (scaleTo m e q).2.2 st with
  | true =>
    have high := up.1 taken
    have half : 2 * ((scaleTo m e q).1 : K) + 1 ≤ 2 * inUnits a e q := high.elim le_of_lt fun at_half => at_half.1.ge
    rw [if_pos rfl, Nat.cast_add_one, abs_of_pos (by linarith)]
    refine ⟨by linarith, fun tie => ?_⟩
    obtain above | ⟨-, odd⟩ := high
    · linarith
    · omega
  | false =>
    have low : ¬(2 * ((scaleTo m e q).1 : K) + 1 < 2 * inUnits a e q ∨
        (2 * inUnits a e q = 2 * ((scaleTo m e q).1 : K) + 1 ∧ (scaleTo m e q).1 % 2 = 1)) := fun high => by
      rw [up.2 high] at taken
      cases taken
    rw [not_or, not_lt, not_and] at low
    rw [if_neg Bool.false_ne_true, Nat.add_zero, abs_of_nonpos (by linarith)]
    refine ⟨by linarith [low.1], fun tie => ?_⟩
    have even := low.2 (by linarith)
    omega

theorem roundTo_down {k : Rnd} {neg : Bool} (mode : k.mode = 1 ∨ (k.mode = 2 ∧ neg = true) ∨ (k.mode = 3 ∧ neg = false)) :
    ((roundTo k neg m e q st).1 : K) ≤ inUnits a e q ∧ inUnits a e q < (roundTo k neg m e q st).1 + 1 := by
  have kept : roundUp k neg (scaleTo m e q).1 (scaleTo m e q).2.1 (scaleTo m e q).2.2 st = false := by
    obtain mode | ⟨mode, rfl⟩ | ⟨mode, rfl⟩ := mode <;> simp [roundUp, mode]
  simp only [roundTo, kept, Bool.false_eq_true, if_false, Nat.add_zero]
  exact ⟨scaleTo_lower h fine, scaleTo_upper h fine⟩

theorem roundTo_up {k : Rnd} {neg : Bool} (mode : (k.mode = 2 ∧ neg = false) ∨ (k.mode = 3 ∧ neg = true) ∨ k.mode = 5) :
    inUnits a e q ≤ (roundTo k neg m e q st).1 ∧ ((roundTo k neg m e q st).1 : K) < inUnits a e q + 1 := by
  have taken : roundUp k neg (scaleTo m e q).1 (scaleTo m e q).2.1 (scaleTo m e q).2.2 st = (roundTo k neg m e q st).2 := by
    obtain ⟨mode, rfl⟩ | ⟨mode, rfl⟩ | mode := mode <;> simp [roundUp, roundTo, mode]
  cases inexact : (roundTo k neg m e q st).2 with
  | false =>
    have exact := roundTo_exact h fine k neg inexact
    exact ⟨exact.ge, by linarith⟩
  | true =>
    have lower : ((scaleTo m e q).1 : K) < inUnits a e q := lt_of_le_of_ne (scaleTo_lower h fine) fun eq => by
      rw [(roundTo_inexact h fine k neg).2 eq.symm] at inexact
      cases inexact
    have upper := scaleTo_upper h fine
    have next : (roundTo k neg m e q st).1 = (scaleTo m e q).1 + 1 := by
      rw [inexact] at taken
      simp [roundTo, taken]
    rw [next, Nat.cast_add_one]
    exact ⟨upper.le, by linarith⟩

end stands
end magnitudes

/-- A rounding in units of one, on any unit. -/
theorem roundsTo_of_units {mode : Nat} {neg : Bool} {t u : ℚ} {i : ℕ} (positive : 0 < u) (nearest : mode = 0 → |(i : ℚ) - t| * 2 ≤ 1 ∧
      (|(i : ℚ) - t| * 2 = 1 → i % 2 = 0)) (up : (mode = 2 ∧ neg = false) ∨ (mode = 3 ∧ neg = true) → t ≤ i ∧ (i : ℚ) < t + 1)
    (down : mode = 1 ∨ (mode = 2 ∧ neg = true) ∨ (mode = 3 ∧ neg = false) → (i : ℚ) ≤ t ∧ t < i + 1) : RoundsTo mode neg (t * u) u i := by
  refine ⟨fun mode => ?_, fun mode => ?_, fun mode => ?_⟩
  · have distance : |i * u - t * u| * 2 = |(i : ℚ) - t| * 2 * u := by rw [← sub_mul, abs_mul, abs_of_pos positive]; ring
    obtain ⟨le, even⟩ := nearest mode
    rw [distance]
    refine ⟨mul_le_of_le_one_left positive.le le, fun tie => even ?_⟩
    exact mul_right_cancel₀ positive.ne' (tie.trans (one_mul u).symm)
  · obtain ⟨lower, upper⟩ := up mode
    refine ⟨mul_le_mul_of_nonneg_right lower positive.le, ?_⟩
    calc i * u < (t + 1) * u := mul_lt_mul_of_pos_right upper positive
      _ = t * u + u := by ring
  · obtain ⟨lower, upper⟩ := down mode
    refine ⟨mul_le_mul_of_nonneg_right lower positive.le, ?_⟩
    calc t * u < (i + 1) * u := mul_lt_mul_of_pos_right upper positive
      _ = i * u + u := by ring

/-- `roundTo` rounds the magnitude to units of 2^q under its mode (R180). -/
theorem roundsTo_roundTo {m : Nat} {st : Bool} {a : ℚ} {e q : Int} (h : Stands m st a) (fine : st = true → e < q) (k : Rnd) (neg : Bool) :
    RoundsTo k.mode neg (a * 2 ^ e) (2 ^ q) (roundTo k neg m e q st).1 := by
  rw [← inUnits_mul a e q]
  exact roundsTo_of_units (by positivity) (fun mode => roundTo_nearest h fine mode neg)
    (fun mode => roundTo_up h fine (mode.imp_right .inl)) fun mode => roundTo_down h fine mode

end Sys2Proof.Proofs
end

section
/-! PROOF. Patterns of the float formats and their values, and the one rounding to a format (07_numbers.md R173, R174, R180 to R186). -/

namespace Sys2Proof.Proofs
open Sys2Proof Sys2Proof.Machine Sys2Proof.Laws

/-! The magnitude of a pattern without its sign, in units of the least subnormal. -/

/-- The magnitude that an exponent field and a fraction of `fw` bits stand for, in units of the least subnormal. -/
def mag (fw p : Nat) : Nat := if p < 2 ^ fw then p else (2 ^ fw + p % 2 ^ fw) * 2 ^ (p / 2 ^ fw - 1)

theorem mag_lt_succ (fw p : Nat) : mag fw p < mag fw (p + 1) := by
  have positive := Nat.two_pow_pos fw
  have split := Nat.div_add_mod p (2 ^ fw)
  have rest := Nat.mod_lt p positive
  by_cases below : p + 1 < 2 ^ fw
  · rw [mag, mag, if_pos below, if_pos (by omega)]
    exact Nat.lt_succ_self p
  · by_cases edge : p < 2 ^ fw
    · have next : p + 1 = 2 ^ fw := by omega
      rw [mag, mag, if_pos edge, if_neg below, next, Nat.mod_self, Nat.div_self positive]
      omega
    · rw [mag, mag, if_neg edge, if_neg below]
      obtain ⟨b, hb⟩ : ∃ b, p / 2 ^ fw = b + 1 :=
        Nat.exists_eq_add_one.2 (Nat.div_pos (not_lt.1 edge) positive)
      by_cases carry : p % 2 ^ fw + 1 < 2 ^ fw
      · have quotient : (p + 1) / 2 ^ fw = p / 2 ^ fw :=
          Nat.div_eq_of_lt_le (by rw [Nat.mul_comm]; omega) (by rw [Nat.succ_mul, Nat.mul_comm]; omega)
        have remainder : (p + 1) % 2 ^ fw = p % 2 ^ fw + 1 := by
          have := Nat.div_add_mod (p + 1) (2 ^ fw)
          rw [quotient] at this
          omega
        rw [quotient, remainder]
        exact Nat.mul_lt_mul_of_pos_right (by omega) (Nat.two_pow_pos _)
      · have whole : p + 1 = 2 ^ fw * (p / 2 ^ fw + 1) := by rw [Nat.mul_succ]; omega
        rw [whole, Nat.mul_mod_right, Nat.mul_div_cancel_left _ positive, hb, Nat.add_sub_cancel, Nat.add_sub_cancel, Nat.add_zero,
          Nat.pow_succ, Nat.mul_comm (2 ^ b) 2, ← Nat.mul_assoc]
        exact Nat.mul_lt_mul_of_pos_right (by omega) (Nat.two_pow_pos _)

theorem mag_strictMono (fw : Nat) : StrictMono (mag fw) := strictMono_nat_of_lt_succ (mag_lt_succ fw)

/-- The exponent field and the fraction of a pattern of `i` units above field `s`: a carry out of the fraction raises the exponent. -/
theorem grid_fields {fw s i : Nat} (low : 2 ^ fw ≤ i) (high : i ≤ 2 ^ (fw + 1)) :
    ((s * 2 ^ fw + i) / 2 ^ fw = s + 1 ∧ (s * 2 ^ fw + i) % 2 ^ fw = i - 2 ^ fw) ∨
      (i = 2 * 2 ^ fw ∧ (s * 2 ^ fw + i) / 2 ^ fw = s + 2 ∧ (s * 2 ^ fw + i) % 2 ^ fw = 0) := by
  have positive := Nat.two_pow_pos fw
  rw [pow_succ] at high
  by_cases carry : i = 2 * 2 ^ fw
  · have whole : s * 2 ^ fw + i = (s + 2) * 2 ^ fw := by rw [carry, ← Nat.add_mul]
    rw [whole, Nat.mul_mod_left, Nat.mul_div_cancel _ positive]
    exact .inr ⟨carry, rfl, rfl⟩
  · have whole : s * 2 ^ fw + i = (i - 2 ^ fw) + (s + 1) * 2 ^ fw := by rw [Nat.succ_mul]; omega
    have fraction : i - 2 ^ fw < 2 ^ fw := by omega
    rw [whole, Nat.add_mul_mod_self_right, Nat.mod_eq_of_lt fraction, Nat.add_mul_div_right _ _ positive, Nat.div_eq_of_lt fraction, Nat.zero_add]
    exact .inl ⟨rfl, rfl⟩

/-- `i` units of 2^s times the least subnormal make a pattern. -/
theorem mag_grid {fw s i : Nat} (hi : i ≤ 2 ^ (fw + 1)) (normal : s = 0 ∨ 2 ^ fw ≤ i) : mag fw (s * 2 ^ fw + i) = i * 2 ^ s := by
  by_cases small : i < 2 ^ fw
  · obtain rfl : s = 0 := normal.resolve_right (not_le.2 small)
    rw [Nat.zero_mul, Nat.zero_add, mag, if_pos small, pow_zero, Nat.mul_one]
  · rw [mag, if_neg (by omega)]
    obtain ⟨field, fraction⟩ | ⟨rfl, field, fraction⟩ := grid_fields (s := s) (not_lt.1 small) hi
    · rw [field, fraction, Nat.add_sub_cancel, Nat.add_sub_cancel' (not_lt.1 small)]
    · rw [field, fraction, Nat.add_zero, show s + 2 - 1 = s + 1 from rfl, Nat.pow_succ]
      ring

/-! Patterns (R173, R174). -/

/-- The formats of R173. -/
def formats : List Fmt := [fmtF32, fmtF16, fmtB16, fmtF8a, fmtF8b]

/-- The value of a finite pattern without its sign. -/
def patQ (f : Fmt) (p : Nat) : ℚ := mag f.fw p * 2 ^ (1 - (f.bias : ℤ) - f.fw)

theorem patQ_lt {f : Fmt} {p p' : Nat} : patQ f p < patQ f p' ↔ p < p' := by
  rw [patQ, patQ, mul_lt_mul_iff_left₀ (by positivity), Nat.cast_lt, (mag_strictMono f.fw).lt_iff_lt]

theorem patQ_le {f : Fmt} {p p' : Nat} : patQ f p ≤ patQ f p' ↔ p ≤ p' := by
  rw [← not_lt, patQ_lt, not_lt]

section format
variable {f : Fmt} (hf : f ∈ formats)
include hf

theorem cases_of_formats : f = fmtF32 ∨ f = fmtF16 ∨ f = fmtB16 ∨ f = fmtF8a ∨ f = fmtF8b := by
  simpa only [formats, List.mem_cons, List.not_mem_nil, or_false] using hf

theorem width_format : f.w = f.ew + f.fw + 1 := by
  obtain rfl | rfl | rfl | rfl | rfl := cases_of_formats hf <;> rfl

theorem maxPat_lt : maxPat f < 2 ^ (f.ew + f.fw) := by
  obtain rfl | rfl | rfl | rfl | rfl := cases_of_formats hf <;> decide

theorem signBit_eq (neg : Bool) : signBit f neg = 2 ^ (f.ew + f.fw) * neg.toNat := by
  rw [signBit, width_format hf, Nat.add_sub_cancel]
  cases neg <;> simp

theorem signBit_add_lt {p : Nat} (hp : p < 2 ^ (f.ew + f.fw)) (neg : Bool) : signBit f neg + p < 2 ^ f.w := by
  rw [signBit_eq hf, width_format hf, Nat.pow_succ]
  cases neg <;> simp <;> omega

/-- The sign, the exponent field and the fraction of a pattern. -/
theorem fields_signed {p : Nat} (hp : p < 2 ^ (f.ew + f.fw)) (neg : Bool) :
    (signBit f neg + p).testBit (f.w - 1) = neg ∧ fld (signBit f neg + p) f.fw f.ew = p / 2 ^ f.fw ∧
      fld (signBit f neg + p) 0 f.fw = p % 2 ^ f.fw := by
  have field : p / 2 ^ f.fw < 2 ^ f.ew := Nat.div_lt_of_lt_mul (by rwa [← Nat.pow_add, Nat.add_comm])
  rw [signBit_eq hf, width_format hf, Nat.add_sub_cancel, fld_eq_div_mod, fld_eq_div_mod, pow_zero, Nat.div_one]
  refine ⟨?_, ?_, ?_⟩
  · rw [Nat.testBit_two_pow_mul_add _ hp, if_neg (lt_irrefl _), Nat.sub_self]
    cases neg <;> rfl
  · rw [Nat.pow_add, Nat.mul_comm (2 ^ f.ew), Nat.mul_assoc, Nat.mul_add_div (Nat.two_pow_pos _), Nat.mul_add_mod,
      Nat.mod_eq_of_lt field]
  · rw [Nat.pow_add, Nat.mul_comm (2 ^ f.ew), Nat.mul_assoc, Nat.mul_add_mod]

/-- A finite pattern decodes as a subnormal or as a normal number (R174). -/
theorem decF_signed {p : Nat} (hp : p ≤ maxPat f) (neg ftz : Bool) : decF f ftz (signBit f neg + p) =
    if p < 2 ^ f.fw then .num neg (if ftz then 0 else p) (1 - (f.bias : ℤ) - f.fw)
    else .num neg (2 ^ f.fw + p % 2 ^ f.fw) ((p / 2 ^ f.fw : Nat) - (f.bias : ℤ) - f.fw) := by
  have inside := hp.trans_lt (maxPat_lt hf)
  obtain ⟨sign, exponent, fraction⟩ := fields_signed hf inside neg
  have subnormal : p / 2 ^ f.fw = 0 ↔ p < 2 ^ f.fw := Nat.div_eq_zero_iff_lt (Nat.two_pow_pos _)
  have low : p < 2 ^ f.fw → p % 2 ^ f.fw = p := Nat.mod_eq_of_lt
  simp only [decF, sign, exponent, fraction]
  obtain rfl | rfl | rfl | rfl | rfl := cases_of_formats hf
  case inr.inr.inr.inl =>
    have finite : ¬(p / 2 ^ fmtF8a.fw = 15 ∧ p % 2 ^ fmtF8a.fw = 7) := by
      simp only [maxPat, Fmt.isF8a, fmtF8a] at hp ⊢
      simp at hp
      omega
    have f8a : fmtF8a.isF8a = true := rfl
    simp only [f8a, if_true, finite, if_false, subnormal]
    by_cases below : p < 2 ^ fmtF8a.fw
    · rw [if_pos below, if_pos below, low below]
      rfl
    · rw [if_neg below, if_neg below]
      have exponents : ((p / 2 ^ fmtF8a.fw : Nat) : ℤ) - 10 = (p / 2 ^ fmtF8a.fw : Nat) - (fmtF8a.bias : ℤ) - fmtF8a.fw := by
        rw [sub_sub]
        rfl
      rw [exponents]
      rfl
  all_goals
    simp only [Fmt.isF8a, fmtF32, fmtF16, fmtB16, fmtF8b, maxPat] at hp subnormal low ⊢
    simp only [Nat.reduceEqDiff, decide_false, Bool.false_eq_true, if_false, subnormal]
    rw [if_neg (by simp at hp; omega)]
    exact ite_congr rfl (fun below => by rw [low below]) fun _ => rfl

theorem decF_patQ {p : Nat} (hp : p ≤ maxPat f) (neg : Bool) :
    ∃ m e, decF f false (signBit f neg + p) = .num neg m e ∧ (m : ℚ) * 2 ^ e = patQ f p := by
  rw [decF_signed hf hp, patQ, mag]
  split
  · exact ⟨_, _, rfl, rfl⟩
  · next normal =>
    refine ⟨_, _, rfl, ?_⟩
    have field : 1 ≤ p / 2 ^ f.fw := Nat.div_pos (not_lt.1 normal) (Nat.two_pow_pos _)
    have exponent : ((p / 2 ^ f.fw : Nat) : ℤ) - f.bias - f.fw = ((p / 2 ^ f.fw - 1 : Nat) : ℤ) + (1 - (f.bias : ℤ) - f.fw) := by
      rw [Nat.cast_sub field]
      push_cast
      ring
    rw [exponent, zpow_add₀ two_ne_zero, zpow_natCast]
    push_cast
    ring

theorem patQ_maxPat : patQ f (maxPat f) = largestQ f := by
  obtain rfl | rfl | rfl | rfl | rfl := cases_of_formats hf <;>
    norm_num [patQ, mag, maxPat, largestQ, Fmt.isF8a, Nat.shiftLeft_eq, fmtF32, fmtF16, fmtB16, fmtF8a, fmtF8b]

theorem infPat_lt (neg : Bool) : infPat f neg < 2 ^ f.w := by
  obtain rfl | rfl | rfl | rfl | rfl := cases_of_formats hf <;> cases neg <;> decide

theorem decF_infPat (neg : Bool) : decF f false (infPat f neg) = if f.isF8a then .nan neg false 0 else .inf neg := by
  obtain rfl | rfl | rfl | rfl | rfl := cases_of_formats hf <;> cases neg <;> decide

theorem valueQ_largest (neg : Bool) : valueQ (decF f false (signBit f neg + maxPat f)) = (if neg then -1 else 1) * largestQ f := by
  obtain ⟨m, e, value, eq⟩ := decF_patQ hf (le_refl _) neg
  rw [value, valueQ, mul_assoc, eq, patQ_maxPat hf]

theorem overflowPat_lt (k : Rnd) (neg : Bool) : overflowPat f k neg < 2 ^ f.w :=
  ite_lt (signBit_add_lt hf (maxPat_lt hf) neg) (infPat_lt hf neg)

end format

/-! What `roundF` computes. -/

/-- The exponent of the units that a value rounds to. -/
def unitExp (f : Fmt) (m : Nat) (e : Int) : Int := max ((Nat.log2 m : Int) + e) (1 - (f.bias : Int)) - f.fw

/-- The pattern without sign that a value rounds to, in a format without a greatest one. -/
def roundPat (f : Fmt) (k : Rnd) (neg : Bool) (m : Nat) (e : Int) (st : Bool) : Nat :=
  (unitExp f m e - (1 - (f.bias : Int)) + f.fw).toNat * 2 ^ f.fw + (roundTo k neg m e (unitExp f m e) st).1

/-- Is the value rounded without a least exponent below the least normal number? -/
def tiny (f : Fmt) (k : Rnd) (neg : Bool) (m : Nat) (e : Int) (st : Bool) : Bool :=
  decide ((Nat.log2 m : Int) + e < 1 - (f.bias : Int)) && !(decide ((Nat.log2 m : Int) + e = 1 - (f.bias : Int) - 1) &&
    decide ((roundTo k neg m e ((Nat.log2 m : Int) + e - f.fw) st).1 = 2 ^ (f.fw + 1)))

/-- The flags of a result that stands. -/
def roundFlags (f : Fmt) (k : Rnd) (neg : Bool) (m : Nat) (e : Int) (st : Bool) : Nat :=
  (if (roundTo k neg m e (unitExp f m e) st).2 then 1 else 0) +
    (if tiny f k neg m e st && (roundTo k neg m e (unitExp f m e) st).2 then 2 else 0)

theorem roundF_eq (f : Fmt) (k : Rnd) (neg : Bool) (m : Nat) (e : Int) (st : Bool) : roundF f k neg m e st =
    if maxPat f < roundPat f k neg m e st then (overflowPat f k neg, 5)
    else if (roundTo k neg m e (unitExp f m e) st).1 < 2 ^ f.fw ∧ (roundTo k neg m e (unitExp f m e) st).1 ≠ 0 ∧ k.ftz then
      (signBit f neg, 3)
    else (signBit f neg + roundPat f k neg m e st, roundFlags f k neg m e st) := by
  simp only [roundPat, ← Nat.shiftLeft_eq]
  rfl

/-! A part below the last bit of the integer part is below the units too. -/

theorem fine_of_sticky {m : Nat} {st : Bool} {e q : Int} {f : Fmt} (sticky : st = true → f.fw < m.log2)
    (hq : (Nat.log2 m : Int) + e - f.fw ≤ q) : st = true → e < q := fun s => by
  have := sticky s
  omega

theorem fine_unitExp {m : Nat} {st : Bool} {e : Int} {f : Fmt} (sticky : st = true → f.fw < m.log2) : st = true → e < unitExp f m e :=
  fine_of_sticky sticky (sub_le_sub_right (le_max_left _ _) _)

section rounding
variable {K : Type} [Field K] [LinearOrder K] [IsStrictOrderedRing K] {m : Nat} {st : Bool} {a : K} (h : Stands m st a) (nonzero : m ≠ 0)
include h nonzero

/-- The binade of a magnitude is that of its integer part. -/
theorem Stands.binade (e : Int) : (2 : K) ^ ((Nat.log2 m : Int) + e) ≤ a * 2 ^ e ∧ a * 2 ^ e < 2 ^ ((Nat.log2 m : Int) + e + 1) := by
  have low : ((2 ^ m.log2 : Nat) : K) ≤ m := Nat.cast_le.2 (Nat.log2_self_le nonzero)
  have up : ((m + 1 : Nat) : K) ≤ (2 ^ (m.log2 + 1) : Nat) := Nat.cast_le.2 Nat.lt_log2_self
  push_cast at low up
  rw [show (Nat.log2 m : Int) + e + 1 = ((m.log2 + 1 : Nat) : Int) + e by push_cast; ring, zpow_add₀ two_ne_zero, zpow_add₀ two_ne_zero,
    zpow_natCast, zpow_natCast]
  exact ⟨mul_le_mul_of_nonneg_right (low.trans h.lower) (by positivity), mul_lt_mul_of_pos_right (h.upper.trans_le up) (by positivity)⟩

/-- In units `fw` below its binade, a magnitude has `fw + 1` bits. -/
theorem Stands.inUnits_binade (e : Int) (fw : Nat) :
    (2 : K) ^ fw ≤ inUnits a e ((Nat.log2 m : Int) + e - fw) ∧ inUnits a e ((Nat.log2 m : Int) + e - fw) < 2 ^ (fw + 1) := by
  obtain ⟨low, up⟩ := h.binade nonzero (e - ((Nat.log2 m : Int) + e - fw))
  rw [show (Nat.log2 m : Int) + (e - ((Nat.log2 m : Int) + e - fw)) = (fw : Nat) by ring] at low up
  rw [zpow_natCast] at low
  exact ⟨low, by exact_mod_cast up⟩

variable {e : Int} {f : Fmt} (sticky : st = true → f.fw < m.log2)
include sticky

theorem roundTo_binade (k : Rnd) (neg : Bool) : 2 ^ f.fw ≤ (roundTo k neg m e ((Nat.log2 m : Int) + e - f.fw) st).1 ∧
    (roundTo k neg m e ((Nat.log2 m : Int) + e - f.fw) st).1 ≤ 2 ^ (f.fw + 1) := by
  have fine := fine_of_sticky sticky (e := e) (le_refl _)
  obtain ⟨low, up⟩ := h.inUnits_binade nonzero e f.fw
  have bounds := roundTo_bounds h fine k neg
  have low' : ((2 ^ f.fw : Nat) : K) < (roundTo k neg m e ((Nat.log2 m : Int) + e - f.fw) st).1 + 1 := by
    push_cast
    exact low.trans_lt bounds.2
  have up' : ((roundTo k neg m e ((Nat.log2 m : Int) + e - f.fw) st).1 : K) < (2 ^ (f.fw + 1) : Nat) + 1 := by
    push_cast
    linarith [bounds.1]
  exact ⟨Nat.lt_succ_iff.1 (by exact_mod_cast low'), Nat.lt_succ_iff.1 (by exact_mod_cast up')⟩

/-- A normal value takes at least `fw + 1` bits of units, and no value more. -/
theorem roundTo_unitExp (k : Rnd) (neg : Bool) : (roundTo k neg m e (unitExp f m e) st).1 ≤ 2 ^ (f.fw + 1) ∧
    (1 - (f.bias : Int) ≤ (Nat.log2 m : Int) + e → 2 ^ f.fw ≤ (roundTo k neg m e (unitExp f m e) st).1) := by
  by_cases normal : 1 - (f.bias : Int) ≤ (Nat.log2 m : Int) + e
  · rw [unitExp, max_eq_left normal]
    have bounds := roundTo_binade (f := f) h nonzero sticky (e := e) k neg
    exact ⟨bounds.2, fun _ => bounds.1⟩
  · refine ⟨?_, fun no => absurd no normal⟩
    have bounds := roundTo_bounds h (fine_unitExp sticky (e := e) (f := f)) k neg
    obtain ⟨-, up⟩ := h.binade nonzero (e - unitExp f m e)
    have small : (Nat.log2 m : Int) + (e - unitExp f m e) + 1 ≤ (f.fw : Nat) := by
      rw [unitExp, max_eq_right (by omega)]
      omega
    have units : inUnits a e (unitExp f m e) < 2 ^ (f.fw : Int) := up.trans_le (zpow_le_zpow_right₀ one_le_two small)
    rw [zpow_natCast] at units
    have up' : ((roundTo k neg m e (unitExp f m e) st).1 : K) < (2 ^ f.fw : Nat) + 1 := by
      push_cast
      linarith [bounds.1]
    have le : (roundTo k neg m e (unitExp f m e) st).1 ≤ 2 ^ f.fw := Nat.lt_succ_iff.1 (by exact_mod_cast up')
    rw [pow_succ]
    omega

/-- The pattern a value rounds to stands for its multiple of the unit. -/
theorem patQ_roundPat (k : Rnd) (neg : Bool) :
    patQ f (roundPat f k neg m e st) = (roundTo k neg m e (unitExp f m e) st).1 * 2 ^ unitExp f m e := by
  obtain ⟨le, normal⟩ := roundTo_unitExp (f := f) h nonzero sticky (e := e) k neg
  obtain ⟨s, hs⟩ : ∃ s : Nat, (s : Int) = max ((Nat.log2 m : Int) + e) (1 - (f.bias : Int)) - (1 - (f.bias : Int)) :=
    Int.eq_ofNat_of_zero_le (sub_nonneg.2 (le_max_right _ _)) |>.imp fun _ eq => eq.symm
  have unit : unitExp f m e = s + (1 - (f.bias : Int) - f.fw) := by
    rw [unitExp, hs]
    ring
  have field : (unitExp f m e - (1 - (f.bias : Int)) + f.fw).toNat = s := by
    rw [unit]
    omega
  have grid : s = 0 ∨ 2 ^ f.fw ≤ (roundTo k neg m e (unitExp f m e) st).1 := by
    by_cases normal' : 1 - (f.bias : Int) ≤ (Nat.log2 m : Int) + e
    · exact .inr (normal normal')
    · rw [max_eq_right (by omega)] at hs
      exact .inl (by omega)
  rw [patQ, roundPat, field, mag_grid le grid, unit, zpow_add₀ two_ne_zero, zpow_natCast]
  push_cast
  ring

end rounding

end Sys2Proof.Proofs
end

section
/-! PROOF. `roundF` is the one rounding of R180 to R185, of a magnitude known by its integer part and the presence of a part below it. -/

namespace Sys2Proof.Proofs
open Sys2Proof Sys2Proof.Machine Sys2Proof.Laws

/-- A magnitude has one binade. -/
theorem binade_unique {y : ℚ} {E E' : ℤ} (low : 2 ^ E ≤ y) (up : y < 2 ^ (E + 1)) (low' : 2 ^ E' ≤ y) (up' : y < 2 ^ (E' + 1)) : E = E' := by
  have le := (zpow_lt_zpow_iff_right₀ (one_lt_two (α := ℚ))).1 (low.trans_lt up')
  have ge := (zpow_lt_zpow_iff_right₀ (one_lt_two (α := ℚ))).1 (low'.trans_lt up)
  omega

/-- A value of sign `neg` and positive magnitude. -/
def signed (neg : Bool) (y : ℚ) : ℚ := (if neg then -1 else 1) * y

section signed
variable {y : ℚ} (positive : 0 < y) (neg : Bool)
include positive

theorem abs_signed : |signed neg y| = y := by
  cases neg <;> simp [signed, abs_of_pos positive]

theorem signed_neg_iff : signed neg y < 0 ↔ neg = true := by
  cases neg <;> simp [signed, positive, positive.le]

theorem signed_pos_iff : 0 < signed neg y ↔ neg = false := by
  cases neg <;> simp [signed, positive, positive.le]

end signed

theorem patQ_leastNormal (f : Fmt) : patQ f (2 ^ f.fw) = 2 ^ (1 - (f.bias : ℤ)) := by
  have units := mag_grid (fw := f.fw) (s := 0) (i := 2 ^ f.fw) (Nat.pow_le_pow_right two_pos (Nat.le_succ _)) (.inl rfl)
  rw [Nat.zero_mul, Nat.zero_add, pow_zero, Nat.mul_one] at units
  rw [patQ, units, Nat.cast_pow, Nat.cast_ofNat, ← zpow_natCast, ← zpow_add₀ two_ne_zero]
  congr 1
  ring

section
variable {m : Nat} {st : Bool} {a : ℚ} (h : Stands m st a) (nonzero : m ≠ 0) {e : Int} {f : Fmt} (sticky : st = true → f.fw < m.log2)
  (k : Rnd) (neg : Bool)
include h nonzero sticky

/-- A result below the least normal number has less than `fw + 1` bits. -/
theorem roundTo_lt_iff :
    (roundTo k neg m e (unitExp f m e) st).1 < 2 ^ f.fw ↔ (roundTo k neg m e (unitExp f m e) st).1 * (2 : ℚ) ^ unitExp f m e < 2 ^ (1 - (f.bias : ℤ)) := by
  obtain ⟨-, normal⟩ := roundTo_unitExp (f := f) h nonzero sticky (e := e) k neg
  rw [← patQ_roundPat h nonzero sticky k neg, ← patQ_leastNormal, patQ_lt, roundPat]
  by_cases normal' : 1 - (f.bias : Int) ≤ (Nat.log2 m : Int) + e
  · have := normal normal'
    omega
  · have field : (unitExp f m e - (1 - (f.bias : Int)) + f.fw).toNat = 0 := by
      rw [unitExp, max_eq_right (by omega)]
      omega
    rw [field, Nat.zero_mul, Nat.zero_add]

/-- Tininess is detected after rounding (R183). -/
theorem tiny_iff : tiny f k neg m e st = true ↔
    (roundTo k neg m e ((Nat.log2 m : Int) + e - f.fw) st).1 * (2 : ℚ) ^ ((Nat.log2 m : Int) + e - f.fw) < 2 ^ (1 - (f.bias : ℤ)) := by
  obtain ⟨low, up⟩ := roundTo_binade (f := f) h nonzero sticky (e := e) k neg
  simp only [tiny, Bool.and_eq_true, decide_eq_true_eq, Bool.not_eq_true', Bool.and_eq_false_iff, decide_eq_false_iff_not]
  generalize (roundTo k neg m e ((Nat.log2 m : Int) + e - f.fw) st).1 = j at low up
  generalize (Nat.log2 m : Int) + e = E
  have atLeast : (2 : ℚ) ^ E ≤ j * 2 ^ (E - f.fw) := by
    have low' : (2 : ℚ) ^ f.fw ≤ j := by exact_mod_cast low
    calc (2 : ℚ) ^ E = 2 ^ f.fw * 2 ^ (E - f.fw) := by rw [← zpow_natCast, ← zpow_add₀ two_ne_zero]; congr 1; ring
      _ ≤ j * 2 ^ (E - f.fw) := mul_le_mul_of_nonneg_right low' (by positivity)
  have atMost : (2 : ℚ) ^ (E + 1) = 2 ^ (f.fw + 1) * 2 ^ (E - f.fw) := by
    rw [← zpow_natCast, ← zpow_add₀ two_ne_zero]
    congr 1
    push_cast
    ring
  obtain normal | edge | below : 1 - (f.bias : ℤ) ≤ E ∨ E = 1 - (f.bias : ℤ) - 1 ∨ E < 1 - (f.bias : ℤ) - 1 := by omega
  · have := (zpow_le_zpow_right₀ (one_le_two (α := ℚ)) normal).trans atLeast
    exact ⟨fun ⟨low, _⟩ => absurd normal (not_le.2 low), fun low => absurd low (not_lt.2 this)⟩
  · rw [show 1 - (f.bias : ℤ) = E + 1 by omega, atMost, mul_lt_mul_iff_left₀ (by positivity)]
    have cast : (j : ℚ) < 2 ^ (f.fw + 1) ↔ j < 2 ^ (f.fw + 1) := by exact_mod_cast Iff.rfl
    rw [cast]
    omega
  · have up' : (j : ℚ) ≤ 2 ^ (f.fw + 1) := by exact_mod_cast up
    have lt : (2 : ℚ) ^ (E + 1) < 2 ^ (1 - (f.bias : ℤ)) := zpow_lt_zpow_right₀ one_lt_two (by omega)
    have := mul_le_mul_of_nonneg_right up' (by positivity : (0 : ℚ) ≤ 2 ^ (E - f.fw))
    exact ⟨fun _ => by linarith, fun _ => ⟨by omega, .inl (by omega)⟩⟩

/-- The flags of a result that stands: inexact, and underflow when it is tiny too (R179, R183). -/
theorem roundFlags_eq : roundFlags f k neg m e st =
    if (roundTo k neg m e (unitExp f m e) st).1 * (2 : ℚ) ^ unitExp f m e = a * 2 ^ e then 0
    else if (roundTo k neg m e ((Nat.log2 m : Int) + e - f.fw) st).1 * (2 : ℚ) ^ ((Nat.log2 m : Int) + e - f.fw) < 2 ^ (1 - (f.bias : ℤ)) then 3
    else 1 := by
  have exact : (roundTo k neg m e (unitExp f m e) st).1 * (2 : ℚ) ^ unitExp f m e = a * 2 ^ e ↔ (roundTo k neg m e (unitExp f m e) st).2 = false := by
    rw [← inUnits_mul a e (unitExp f m e), mul_left_inj' (by positivity), roundTo_eq_iff h (fine_unitExp sticky) k neg]
  simp only [exact, ← tiny_iff h nonzero sticky k neg, roundFlags]
  cases (roundTo k neg m e (unitExp f m e) st).2 <;> cases tiny f k neg m e st <;> rfl

/-- THE ONE ROUNDING: `roundF` rounds the value that `m`, `st` and `e` stand for, once. -/
theorem roundedOnce_roundF (hf : f ∈ formats) : RoundedOnce f k (signed neg (a * 2 ^ e)) (roundF f k neg m e st) := by
  obtain ⟨low, up⟩ := h.binade nonzero e
  have positive : 0 < a * 2 ^ e := lt_of_lt_of_le (by positivity) low
  have value := patQ_roundPat h nonzero sticky (e := e) k neg
  simp only [RoundedOnce, abs_signed positive, signed_neg_iff positive, signed_pos_iff positive, Bool.decide_eq_true, roundF_eq]
  constructor
  · split
    · exact overflowPat_lt hf k neg
    · next inside =>
      split
      · exact signBit_add_lt hf (p := 0) (Nat.two_pow_pos _) neg
      · exact signBit_add_lt hf ((not_lt.1 inside).trans_lt (maxPat_lt hf)) neg
  · rintro E u un lowE upE rfl rfl
    obtain rfl := binade_unique low up lowE upE
    change ∃ i j : ℕ, RoundsTo k.mode neg (a * 2 ^ e) (2 ^ unitExp f m e) i ∧ _
    refine ⟨_, _, roundsTo_roundTo h (fine_unitExp sticky) k neg, roundsTo_roundTo h (fine_of_sticky sticky (le_refl _)) k neg, ?_, ?_⟩
    · intro beyond
      rw [show max ((Nat.log2 m : Int) + e) (1 - (f.bias : Int)) - f.fw = unitExp f m e from rfl, ← value, ← patQ_maxPat hf, patQ_lt] at beyond
      rw [if_pos beyond]
      refine ⟨rfl, ?_⟩
      have toMax : (saturates f k.ovf || decide (k.mode = 1) || (decide (k.mode = 2) && neg) || (decide (k.mode = 3) && !neg)) = true ↔
          saturates f k.ovf = true ∨ k.mode = 1 ∨ (k.mode = 2 ∧ neg = true) ∨ (k.mode = 3 ∧ neg = false) := by
        simp [or_assoc]
      simp only [overflowPat, toMax]
      split
      · exact valueQ_largest hf neg
      · have infinite := decF_infPat hf neg
        split
        · next f8a => rw [infinite, if_pos f8a]
        · next others => rw [infinite, if_neg others]
    · intro inside
      rw [show max ((Nat.log2 m : Int) + e) (1 - (f.bias : Int)) - f.fw = unitExp f m e from rfl] at inside ⊢
      have stands := inside
      rw [← value, ← patQ_maxPat hf, patQ_le] at stands
      simp only [if_neg (not_lt.2 stands), ← roundTo_lt_iff h nonzero sticky k neg]
      split
      · refine ⟨rfl, ?_⟩
        have zero := decF_signed hf (Nat.zero_le _) neg false (p := 0)
        rw [if_pos (Nat.two_pow_pos _)] at zero
        exact zero
      · obtain ⟨m', e', decoded, eq⟩ := decF_patQ hf stands neg
        exact ⟨⟨m', e', decoded, eq.trans value⟩, roundFlags_eq h nonzero sticky k neg⟩

end

/-- A finite value that is not zero is encoded by one rounding. -/
theorem roundedOnce_encF {f : Fmt} (hf : f ∈ formats) (k : Rnd) {v : FV} (other : valueQ v ≠ 0) : RoundedOnce f k (valueQ v) (encF f k v) := by
  cases v with
  | nan neg sig pay => exact absurd rfl other
  | inf neg => exact absurd rfl other
  | num neg m e =>
    cases m with
    | zero => simp [valueQ] at other
    | succ m =>
      have rounded := roundedOnce_roundF (Stands.natCast (K := ℚ) (m + 1)) (Nat.succ_ne_zero m) (e := e) (f := f) (by simp) k neg hf
      rw [signed, ← mul_assoc] at rounded
      exact rounded

end Sys2Proof.Proofs
end

section
/-! PROOF. A pattern is its sign and its magnitude; a value that a format holds is encoded by its own pattern, without a flag (07_numbers.md R173 to
R176). -/

namespace Sys2Proof.Proofs
open Sys2Proof Sys2Proof.Machine Sys2Proof.Laws

/-! Exact results. -/

/-- A whole number of units is not inexact. -/
theorem roundTo_whole {m n : Nat} {st : Bool} {a : ℚ} {e q : Int} (h : Stands m st a) (fine : st = true → e < q)
    (whole : a * 2 ^ e = n * 2 ^ q) (k : Rnd) (neg : Bool) : (roundTo k neg m e q st).2 = false := by
  rw [← inUnits_mul a e q, mul_left_inj' (by positivity)] at whole
  have lower := scaleTo_lower h fine
  have upper := scaleTo_upper h fine
  rw [roundTo_inexact h fine k neg, whole] at *
  have lower' : (scaleTo m e q).1 ≤ n := by exact_mod_cast lower
  have upper' : n < (scaleTo m e q).1 + 1 := by exact_mod_cast upper
  exact_mod_cast (by omega : n = (scaleTo m e q).1)

/-- The units of a value depend on the value alone. -/
theorem unitExp_eq_of_eq {m m' : Nat} {e e' : Int} (nonzero : m ≠ 0) (nonzero' : m' ≠ 0) (eq : (m : ℚ) * 2 ^ e = m' * 2 ^ e') (f : Fmt) :
    unitExp f m e = unitExp f m' e' := by
  obtain ⟨low, up⟩ := (Stands.natCast (K := ℚ) m).binade nonzero e
  obtain ⟨low', up'⟩ := (Stands.natCast (K := ℚ) m').binade nonzero' e'
  rw [eq] at low up
  rw [unitExp, unitExp, binade_unique low up low' up']

/-- A pattern's magnitude in the units that it rounds to. -/
theorem patQ_grid (f : Fmt) {p : Nat} (positive : p ≠ 0) : ∃ (n : Nat) (u : Int), n ≠ 0 ∧ patQ f p = n * 2 ^ u ∧ unitExp f n u = u := by
  rw [patQ, mag]
  split
  · next below =>
    refine ⟨p, _, positive, rfl, ?_⟩
    have bits : p.log2 < f.fw := (Nat.log2_lt positive).2 below
    rw [unitExp, max_eq_right (by omega)]
  · next normal =>
    have rest := Nat.mod_lt p (Nat.two_pow_pos f.fw)
    have bits : (2 ^ f.fw + p % 2 ^ f.fw).log2 = f.fw := by
      rw [Nat.log2_eq_iff (by omega), pow_succ]
      omega
    refine ⟨2 ^ f.fw + p % 2 ^ f.fw, ((p / 2 ^ f.fw - 1 : Nat) : Int) + (1 - (f.bias : ℤ) - f.fw), by omega, ?_, ?_⟩
    · rw [zpow_add₀ two_ne_zero, zpow_natCast]
      push_cast
      ring
    · rw [unitExp, bits, max_eq_left (by omega)]
      ring

section exact
variable {f : Fmt} (hf : f ∈ formats) {k : Rnd} (keeps : k.ftz = false) {m : Nat} (nonzero : m ≠ 0) {e : Int}
include hf keeps nonzero

/-- A value of the format's grid stands for itself. -/
theorem roundF_whole {n : Nat} (whole : (m : ℚ) * 2 ^ e = n * 2 ^ unitExp f m e) (inside : (m : ℚ) * 2 ^ e ≤ largestQ f) (neg : Bool) :
    ∃ p ≤ maxPat f, roundF f k neg m e false = (signBit f neg + p, 0) ∧ patQ f p = m * 2 ^ e := by
  have stands := Stands.natCast (K := ℚ) m
  have exact := roundTo_whole stands (fun s => nomatch s) whole k neg
  have value := patQ_roundPat (f := f) (e := e) stands nonzero (fun s => nomatch s) k neg
  rw [roundTo_exact stands (fun s => nomatch s) k neg exact, inUnits_mul] at value
  have le : roundPat f k neg m e false ≤ maxPat f := by rwa [← patQ_le, value, patQ_maxPat hf]
  refine ⟨_, le, ?_, value⟩
  rw [roundF_eq, if_neg (not_lt.2 le), if_neg (by simp [keeps]), roundFlags, exact]
  simp

/-- A value that a pattern stands for rounds to it. -/
theorem roundF_patQ {p : Nat} (hp : p ≤ maxPat f) (value : (m : ℚ) * 2 ^ e = patQ f p) (neg : Bool) :
    roundF f k neg m e false = (signBit f neg + p, 0) := by
  have inside := (patQ_le (f := f)).2 hp
  rw [patQ_maxPat hf, ← value] at inside
  have positive : p ≠ 0 := by
    rintro rfl
    have zero : patQ f 0 = 0 := by simp [patQ, mag]
    rw [zero] at value
    exact nonzero (by simpa [zpow_ne_zero] using value)
  obtain ⟨n, u, other, onGrid, unit⟩ := patQ_grid f positive
  have whole : (m : ℚ) * 2 ^ e = n * 2 ^ unitExp f m e := by
    rw [unitExp_eq_of_eq nonzero other (value.trans onGrid) f, unit, value, onGrid]
  obtain ⟨p', hp', rounded, value'⟩ := roundF_whole hf keeps nonzero whole inside neg
  have same : p' = p := (mag_strictMono f.fw).injective (by
    have eq := value'.trans value
    rw [patQ, patQ, mul_left_inj' (by positivity)] at eq
    exact_mod_cast eq)
  rw [rounded, same]

end exact

/-! Patterns with their signs. -/

theorem valueQ_num (neg : Bool) (m : Nat) (e : Int) : valueQ (.num neg m e) = signed neg (m * 2 ^ e) := by
  rw [valueQ, signed, mul_assoc]

section pattern
variable {f : Fmt} (hf : f ∈ formats)
include hf

/-- A pattern is its sign and the rest. -/
theorem pattern_eq {a : Nat} (ha : a < 2 ^ f.w) : ∃ p < 2 ^ (f.ew + f.fw), a = signBit f (a.testBit (f.w - 1)) + p := by
  refine ⟨a % 2 ^ (f.ew + f.fw), Nat.mod_lt _ (Nat.two_pow_pos _), ?_⟩
  rw [signBit_eq hf, width_format hf, Nat.add_sub_cancel, Nat.toNat_testBit, Nat.mod_eq_of_lt, Nat.div_add_mod]
  rw [width_format hf, Nat.pow_succ] at ha
  exact Nat.div_lt_of_lt_mul ha

omit hf in
/-- Above the largest finite value every exponent bit is set. -/
theorem exponent_of_beyond (others : f.isF8a = false) {p : Nat} (hp : p < 2 ^ (f.ew + f.fw)) (beyond : maxPat f < p) :
    p / 2 ^ f.fw = 2 ^ f.ew - 1 := by
  rw [maxPat, if_neg (by simp [others]), Nat.shiftLeft_eq] at beyond
  rw [Nat.pow_add, Nat.mul_comm] at hp
  have positive := Nat.two_pow_pos f.ew
  have below : p / 2 ^ f.fw < 2 ^ f.ew := Nat.div_lt_of_lt_mul hp
  have above : 2 ^ f.ew - 1 ≤ p / 2 ^ f.fw := (Nat.le_div_iff_mul_le (Nat.two_pow_pos _)).2 (by omega)
  omega

/-- Beyond the largest finite value stand an infinity and NaNs (R173). -/
theorem decF_beyond {p : Nat} (hp : p < 2 ^ (f.ew + f.fw)) (beyond : maxPat f < p) (neg ftz : Bool) :
    (decF f ftz (signBit f neg + p)).isNan = true ∨ (decF f ftz (signBit f neg + p)).isInf = true := by
  obtain ⟨-, exponent, -⟩ := fields_signed hf hp neg
  cases f8a : f.isF8a with
  | true =>
    obtain rfl | rfl | rfl | rfl | rfl := cases_of_formats hf
    case inr.inr.inr.inl =>
      obtain rfl : p = 127 := by
        simp [maxPat, Fmt.isF8a, fmtF8a] at beyond hp
        omega
      cases neg <;> exact .inl rfl
    all_goals cases f8a
  | false =>
    simp only [decF, f8a, Bool.false_eq_true, if_false]
    rw [exponent, if_pos (exponent_of_beyond f8a hp beyond)]
    split
    · exact .inr rfl
    · exact .inl rfl

theorem finite_of_num {a m : Nat} {e : Int} {neg ftz : Bool} (ha : a < 2 ^ f.w) (finite : decF f ftz a = .num neg m e) :
    ∃ p ≤ maxPat f, a = signBit f neg + p := by
  obtain ⟨p, hp, eq⟩ := pattern_eq hf ha
  have le : p ≤ maxPat f := by
    by_contra beyond
    have outside := decF_beyond hf hp (not_le.1 beyond) (a.testBit (f.w - 1)) ftz
    rw [← eq, finite] at outside
    simp [FV.isNan, FV.isInf] at outside
  have decoded := decF_signed hf le (a.testBit (f.w - 1)) ftz
  rw [← eq, finite] at decoded
  split at decoded
  · obtain ⟨rfl, -, -⟩ := FV.num.inj decoded
    exact ⟨p, le, eq⟩
  · obtain ⟨rfl, -, -⟩ := FV.num.inj decoded
    exact ⟨p, le, eq⟩

/-- A finite pattern is encoded by itself. -/
theorem encF_decF_signed {p : Nat} (hp : p ≤ maxPat f) {k : Rnd} (keeps : k.ftz = false) (neg : Bool) :
    encF f k (decF f false (signBit f neg + p)) = (signBit f neg + p, 0) := by
  obtain ⟨m, e, decoded, value⟩ := decF_patQ hf hp neg
  rw [decoded]
  cases m with
  | zero =>
    have zero : patQ f p = patQ f 0 := by rw [← value]; simp [patQ, mag]
    obtain rfl : p = 0 := le_antisymm (patQ_le.1 zero.le) (Nat.zero_le _)
    rfl
  | succ m => exact roundF_patQ hf keeps (Nat.succ_ne_zero m) hp value neg

theorem encF_decF {a : Nat} {k : Rnd} (ha : a < 2 ^ f.w) (keeps : k.ftz = false) (real : (decF f false a).isNan = false)
    (finite : (decF f false a).isInf = false) : encF f k (decF f false a) = (a, 0) := by
  cases decoded : decF f false a with
  | nan neg sig pay => rw [decoded] at real; cases real
  | inf neg => rw [decoded] at finite; cases finite
  | num neg m e =>
    obtain ⟨p, hp, rfl⟩ := finite_of_num hf ha decoded
    rw [← decoded]
    exact encF_decF_signed hf hp keeps neg

end pattern

/-! NaNs of the formats with a payload (R175, R176). -/

/-- The formats that have infinities and payloads of ten and more bits. -/
def wideFormats : List Fmt := [fmtF32, fmtF16, fmtB16]

theorem formats_of_wide {f : Fmt} (hf : f ∈ wideFormats) : f ∈ formats := by
  simp only [wideFormats, List.mem_cons, List.not_mem_nil, or_false] at hf
  obtain rfl | rfl | rfl := hf <;> decide

theorem others_of_wide {f : Fmt} (hf : f ∈ wideFormats) : f.isF8a = false ∧ 0 < f.fw ∧ f.fw ≤ 23 ∧ f.w ≠ 8 := by
  simp only [wideFormats, List.mem_cons, List.not_mem_nil, or_false] at hf
  obtain rfl | rfl | rfl := hf <;> decide

theorem or_two_pow (a n : Nat) : a ||| 2 ^ n = 2 ^ (n + 1) * (a / 2 ^ (n + 1)) + (2 ^ n + a % 2 ^ n) := by
  have rest := Nat.mod_lt a (Nat.two_pow_pos n)
  refine Nat.eq_of_testBit_eq fun i => ?_
  rw [Nat.testBit_or, Nat.testBit_two_pow, Nat.testBit_two_pow_mul_add _ (by rw [pow_succ]; omega)]
  obtain lt | rfl | gt := lt_trichotomy i n
  · rw [if_pos (by omega), Nat.testBit_two_pow_add_gt lt, Nat.testBit_mod_two_pow, decide_eq_true lt, decide_eq_false lt.ne',
      Bool.or_false, Bool.true_and]
  · rw [if_pos (Nat.lt_succ_self i), Nat.testBit_two_pow_add_eq, Nat.testBit_mod_two_pow, decide_eq_true rfl, Bool.or_true]
    simp
  · rw [if_neg (by omega), decide_eq_false gt.ne, Bool.or_false, Nat.testBit_div_two_pow, Nat.sub_add_cancel gt]

/-- The fields of a NaN of a wide format. -/
theorem fields_of_nan {f : Fmt} (hf : f ∈ wideFormats) {p : Nat} (hp : p < 2 ^ (f.ew + f.fw)) {ftz s neg sig : Bool} {pay : Nat}
    (nan : decF f ftz (signBit f s + p) = .nan neg sig pay) :
    neg = s ∧ p / 2 ^ f.fw = 2 ^ f.ew - 1 ∧ pay = p % 2 ^ (f.fw - 1) * 2 ^ (23 - f.fw) := by
  obtain ⟨sign, exponent, fraction⟩ := fields_signed (formats_of_wide hf) hp s
  obtain ⟨others, positive, -⟩ := others_of_wide hf
  simp only [decF, others, sign, exponent, fraction, Bool.false_eq_true, if_false] at nan
  split at nan
  · next top =>
    split at nan
    · cases nan
    · obtain ⟨rfl, -, rfl⟩ := FV.nan.inj nan
      refine ⟨rfl, top, ?_⟩
      rw [fld_eq_div_mod, pow_zero, Nat.div_one, Nat.shiftLeft_eq, Nat.mod_mod_of_dvd _ (pow_dvd_pow 2 (Nat.sub_le _ _))]
  · split at nan <;> cases nan

/-- A NaN of a format keeps its sign and payload there, and is quieted. -/
theorem encNan_decF {f : Fmt} (hf : f ∈ wideFormats) {a : Nat} (ha : a < 2 ^ f.w) {ftz neg sig : Bool} {pay : Nat}
    (nan : decF f ftz a = .nan neg sig pay) : encNan f neg pay = a ||| 2 ^ (f.fw - 1) := by
  obtain ⟨p, hp, eq⟩ := pattern_eq (formats_of_wide hf) ha
  obtain ⟨others, positive, -⟩ := others_of_wide hf
  rw [eq] at nan
  obtain ⟨rfl, top, rfl⟩ := fields_of_nan hf hp nan
  have fraction : f.fw - 1 + 1 = f.fw := Nat.sub_add_cancel positive
  have high : a / 2 ^ f.fw = 2 ^ f.ew * (a.testBit (f.w - 1)).toNat + (2 ^ f.ew - 1) := by
    rw [← top, ← Nat.mul_add_div (Nat.two_pow_pos f.fw), ← Nat.mul_assoc, ← Nat.pow_add, Nat.add_comm f.fw, ← signBit_eq (formats_of_wide hf), ← eq]
  have low : a % 2 ^ (f.fw - 1) = p % 2 ^ (f.fw - 1) := by
    have split : f.ew + f.fw = (f.fw - 1) + (f.ew + 1) := by omega
    rw [eq, signBit_eq (formats_of_wide hf), split, Nat.pow_add, Nat.mul_assoc, Nat.mul_add_mod]
  rw [or_two_pow, fraction, high, low, encNan, defNan, others, if_neg Bool.false_ne_true, if_neg Bool.false_ne_true, Nat.shiftRight_eq_div_pow,
    Nat.mul_div_cancel _ (Nat.two_pow_pos _), Nat.shiftLeft_eq, signBit_eq (formats_of_wide hf), Nat.pow_add]
  ring

end Sys2Proof.Proofs
end

section
/-! PROOF. Exact sums of products, and the order of exact values (07_numbers.md R177, R178, R181). -/

namespace Sys2Proof.Proofs
open Sys2Proof Sys2Proof.Machine Sys2Proof.Laws

/-! The exact sum. -/

/-- The value of a signed term. -/
def termQ (t : Int × Int) : ℚ := t.1 * 2 ^ t.2

theorem foldl_min_le (l : List (Int × Int)) (a : Int) :
    l.foldl (fun a t => min a t.2) a ≤ a ∧ ∀ t ∈ l, l.foldl (fun a t => min a t.2) a ≤ t.2 := by
  induction l generalizing a with
  | nil => exact ⟨le_refl a, fun t ht => nomatch ht⟩
  | cons t l ih =>
    obtain ⟨first, rest⟩ := ih (min a t.2)
    refine ⟨first.trans (min_le_left _ _), fun t' ht' => ?_⟩
    obtain rfl | ht' := List.mem_cons.1 ht'
    · exact first.trans (min_le_right _ _)
    · exact rest t' ht'

theorem foldl_scaled {l : List (Int × Int)} {low : Int} (le : ∀ t ∈ l, low ≤ t.2) (a : Int) :
    ((l.foldl (fun a t => a + t.1 * 2 ^ (t.2 - low).toNat) a : Int) : ℚ) * 2 ^ low = a * 2 ^ low + (l.map termQ).sum := by
  induction l generalizing a with
  | nil => simp
  | cons t l ih =>
    have scaled : (2 : ℚ) ^ (t.2 - low).toNat * 2 ^ low = 2 ^ t.2 := by
      rw [← zpow_natCast, Int.toNat_of_nonneg (sub_nonneg.2 (le t List.mem_cons_self)), ← zpow_add₀ two_ne_zero, sub_add_cancel]
    rw [List.foldl_cons, ih (fun t' ht' => le t' (List.mem_cons_of_mem t ht')), List.map_cons, List.sum_cons, termQ, ← scaled]
    push_cast
    ring

theorem termQ_exactSum (l : List (Int × Int)) : termQ (exactSum l) = (l.map termQ).sum := by
  simp only [exactSum, termQ, foldl_scaled (foldl_min_le l _).2, Int.cast_zero, zero_mul, zero_add]

theorem termQ_termOf (v : FV) : termQ (termOf v) = valueQ v := by
  obtain - | - | ⟨neg, m, e⟩ := v
  · simp [termOf, termQ, valueQ]
  · simp [termOf, termQ, valueQ]
  · cases neg <;> simp [termOf, termQ, valueQ]

/-- The exact sum of finite values is their sum (R181). -/
theorem valueQ_sumFV (mode : Nat) (l : List FV) : valueQ (sumFV mode l) = (l.map valueQ).sum := by
  have sum := termQ_exactSum (l.map termOf)
  rw [List.map_map, show termQ ∘ termOf = valueQ from funext termQ_termOf] at sum
  rw [← sum, termQ]
  simp only [sumFV]
  generalize exactSum (l.map termOf) = s
  by_cases zero : s.1 = 0
  · have empty : ∀ neg, valueQ (.num neg 0 0) = 0 := fun neg => by simp [valueQ]
    rw [if_neg (not_not.2 zero), zero, Int.cast_zero, zero_mul]
    split_ifs <;> exact empty _
  · rw [if_pos zero, valueQ]
    congr 1
    have abs : ((s.1.natAbs : ℕ) : ℚ) = |(s.1 : ℚ)| := by rw [Nat.cast_natAbs, Int.cast_abs]
    rw [abs]
    by_cases negative : s.1 < 0
    · have below : (s.1 : ℚ) < 0 := by exact_mod_cast negative
      rw [decide_eq_true negative, if_pos rfl, abs_of_neg below]
      ring
    · have above : (0 : ℚ) ≤ s.1 := by exact_mod_cast not_lt.1 negative
      rw [decide_eq_false negative, if_neg Bool.false_ne_true, abs_of_nonneg above]
      ring

/-! Sums of products of finite operands. -/

/-- Neither a NaN nor an infinity. -/
def IsFinite (v : FV) : Prop := v.isNan = false ∧ v.isInf = false

theorem IsFinite.flip {v : FV} (h : IsFinite v) : IsFinite v.flip := by
  cases v <;> exact h

theorem IsFinite.exists_num {v : FV} (h : IsFinite v) : ∃ neg m e, v = .num neg m e := by
  obtain ⟨real, finite⟩ := h
  cases v with
  | nan neg sig pay => cases real
  | inf neg => cases finite
  | num neg m e => exact ⟨neg, m, e, rfl⟩

theorem valueQ_flip (v : FV) : valueQ v.flip = -valueQ v := by
  obtain - | - | ⟨neg, m, e⟩ := v
  · simp [FV.flip, valueQ]
  · simp [FV.flip, valueQ]
  · cases neg <;> simp [FV.flip, valueQ]

theorem valueQ_mulFV {a b : FV} (ha : IsFinite a) (hb : IsFinite b) : valueQ (mulFV a b) = valueQ a * valueQ b := by
  obtain ⟨n, m, e, rfl⟩ := ha.exists_num
  obtain ⟨n', m', e', rfl⟩ := hb.exists_num
  have power : (2 : ℚ) ^ (e + e') = 2 ^ e * 2 ^ e' := zpow_add₀ two_ne_zero e e'
  simp only [mulFV, valueQ, power]
  cases n <;> cases n' <;> push_cast <;> simp <;> ring

theorem dotFV_finite {order : List FV} {prods : List (FV × FV)} {adds : List FV} (real : ∀ v ∈ order, v.isNan = false)
    (factors : ∀ p ∈ prods, IsFinite p.1 ∧ IsFinite p.2) (addends : ∀ v ∈ adds, v.isInf = false) (mode : Nat) :
    dotFV mode order prods adds = (sumFV mode (prods.map (fun p => mulFV p.1 p.2) ++ adds), 0) := by
  have clean : prods.filter (fun p => !p.1.isNan && !p.2.isNan) = prods := List.filter_eq_self.2 fun p hp => by
    obtain ⟨⟨first, -⟩, ⟨second, -⟩⟩ := factors p hp
    simp [first, second]
  have zeroInf : prods.any (fun p => (p.1.isZero && p.2.isInf) || (p.1.isInf && p.2.isZero)) = false := List.any_eq_false.2 fun p hp => by
    obtain ⟨⟨-, first⟩, ⟨-, second⟩⟩ := factors p hp
    simp [first, second]
  have infinite : prods.filter (fun p => (p.1.isInf || p.2.isInf) && !p.1.isZero && !p.2.isZero) = [] := List.filter_eq_nil_iff.2 fun p hp => by
    obtain ⟨⟨-, first⟩, ⟨-, second⟩⟩ := factors p hp
    simp [first, second]
  have infinite' : adds.filter FV.isInf = [] := List.filter_eq_nil_iff.2 fun v hv => by simp [addends v hv]
  have none : order.find? FV.isNan = none := List.find?_eq_none.2 fun v hv => by simp [real v hv]
  simp only [dotFV, clean, zeroInf, infinite, infinite', none]
  rfl

/-- A sum of products of finite operands that is not zero is rounded once (R181). -/
theorem roundedOnce_dotF {f : Fmt} (hf : f ∈ formats) (k : Rnd) {order : List FV} {prods : List (FV × FV)} {adds : List FV}
    (real : ∀ v ∈ order, v.isNan = false) (factors : ∀ p ∈ prods, IsFinite p.1 ∧ IsFinite p.2) (addends : ∀ v ∈ adds, v.isInf = false) {x : ℚ}
    (sum : (prods.map fun p => valueQ p.1 * valueQ p.2).sum + (adds.map valueQ).sum = x) (nonzero : x ≠ 0) :
    RoundedOnce f k x (dotF f k order prods adds) := by
  have products : prods.map (fun p => valueQ (mulFV p.1 p.2)) = prods.map fun p => valueQ p.1 * valueQ p.2 :=
    List.map_congr_left fun p hp => valueQ_mulFV (factors p hp).1 (factors p hp).2
  have value : valueQ (sumFV k.mode (prods.map (fun p => mulFV p.1 p.2) ++ adds)) = x := by
    rw [valueQ_sumFV, List.map_append, List.sum_append, List.map_map, ← sum, ← products]
    rfl
  rw [dotF, dotFV_finite real factors addends, ← value]
  simp only [Nat.or_zero]
  exact roundedOnce_encF hf k (value ▸ nonzero)

/-! The order of finite values (R178). -/

/-- The sign of a difference. -/
def orderOf (x y : ℚ) : Int := if x < y then -1 else if y < x then 1 else 0

theorem sign_exactSum (x y : FV) : (if (exactSum [termOf x, termOf y.flip]).1 < 0 then (-1 : Int) else if 0 < (exactSum [termOf x, termOf y.flip]).1 then 1 else 0) =
    orderOf (valueQ x) (valueQ y) := by
  have sum := termQ_exactSum [termOf x, termOf y.flip]
  simp only [List.map_cons, List.map_nil, List.sum_cons, List.sum_nil, add_zero, termQ_termOf, valueQ_flip] at sum
  rw [termQ] at sum
  generalize exactSum [termOf x, termOf y.flip] = s at sum
  have positive : (0 : ℚ) < 2 ^ s.2 := by positivity
  have less : valueQ x < valueQ y ↔ s.1 < 0 := by
    rw [← sub_neg, sub_eq_add_neg, ← sum, ← Int.cast_lt_zero (R := ℚ)]
    exact ⟨fun neg => by_contra fun no => absurd neg (not_lt.2 (mul_nonneg (not_lt.1 no) positive.le)), fun neg => mul_neg_of_neg_of_pos neg positive⟩
  have greater : valueQ y < valueQ x ↔ 0 < s.1 := by
    rw [← sub_pos, sub_eq_add_neg, ← sum, mul_pos_iff_of_pos_right positive]
    exact Int.cast_pos
  simp only [orderOf, less, greater]

theorem orderOf_of_lt {x y : ℚ} (lt : x < y) : orderOf x y = -1 := if_pos lt

theorem orderOf_of_gt {x y : ℚ} (gt : y < x) : orderOf x y = 1 := by rw [orderOf, if_neg (not_lt.2 gt.le), if_pos gt]

theorem orderOf_signed (n n' : Bool) {y y' : ℚ} (hy : 0 < y) (hy' : 0 < y') :
    orderOf (signed n y) 0 = (if n then -1 else 1) ∧ orderOf 0 (signed n y) = (if n then 1 else -1) ∧
      (n ≠ n' → orderOf (signed n y) (signed n' y') = if n then -1 else 1) := by
  cases n with
  | false =>
    have above : 0 < signed false y := (signed_pos_iff hy false).2 rfl
    refine ⟨orderOf_of_gt above, orderOf_of_lt above, fun ne => orderOf_of_gt (lt_trans ?_ above)⟩
    exact (signed_neg_iff hy' n').2 (by simpa using ne)
  | true =>
    have below : signed true y < 0 := (signed_neg_iff hy true).2 rfl
    refine ⟨orderOf_of_lt below, orderOf_of_gt below, fun ne => orderOf_of_lt (lt_trans below ?_)⟩
    exact (signed_pos_iff hy' n').2 (by simpa using ne)

theorem cmpFV_finite {x y : FV} (hx : IsFinite x) (hy : IsFinite y) : cmpFV x y = orderOf (valueQ x) (valueQ y) := by
  obtain ⟨n, m, e, rfl⟩ := hx.exists_num
  obtain ⟨n', m', e', rfl⟩ := hy.exists_num
  have positive (m : ℕ) (e : ℤ) (ne : m ≠ 0) : 0 < (m : ℚ) * 2 ^ e := mul_pos (by exact_mod_cast Nat.pos_of_ne_zero ne) (by positivity)
  have zero (n : Bool) (e : ℤ) : valueQ (.num n 0 e) = 0 := by simp [valueQ]
  by_cases hm : m = 0 <;> by_cases hm' : m' = 0
  · simp [cmpFV, hm, hm', zero, orderOf]
  · have := orderOf_signed n' n' (positive m' e' hm') (positive m' e' hm')
    rw [hm, zero, valueQ_num, this.2.1]
    cases n' <;> simp [cmpFV, hm']
  · have := orderOf_signed n n (positive m e hm) (positive m e hm)
    rw [hm', zero, valueQ_num, this.1]
    cases n <;> simp [cmpFV, hm]
  · by_cases same : n = n'
    · rw [← sign_exactSum, same]
      cases n' <;> simp [cmpFV, hm, hm']
    · rw [valueQ_num, valueQ_num, (orderOf_signed n n' (positive m e hm) (positive m' e' hm')).2.2 same]
      cases n <;> cases n' <;> simp [cmpFV, hm, hm'] at same ⊢

end Sys2Proof.Proofs
end

section
/-! PROOF. The vector float words (10_vector.md R280 to R283, 07_numbers.md R177, R178, R181). -/

namespace Sys2Proof.Proofs
open Sys2Proof Sys2Proof.Machine Sys2Proof.Laws

/-! The words, element by element. -/

theorem elem_packF_range {n k : Nat} (hk : k < 64 / n) (F : Nat → Nat × Nat) :
    elem n k (packF n ((List.range (64 / n)).map F)).1 = (F k).1 % 2 ^ n := by
  rw [packF, List.map_map]
  exact elem_pack_range hk _

theorem testBit_packF_range (n : Nat) (F : Nat → Nat × Nat) (b : Nat) :
    (packF n ((List.range (64 / n)).map F)).2.testBit b = true ↔ ∃ k < 64 / n, (F k).2.testBit b = true := by
  simp [packF, testBit_foldl_or]

/-- A vector float word that packs its elements' results. -/
theorem blockResultF_elements {s : State} {x : Issue} {i : Instr} {w : VWord} (h : Issues s i x) (hm : w.msel.toNat = mselOf i)
    (hp : false = perLaneOf i) {useB useC : Bool} (clear : tileHold s x w true useB = none) {F : W64 → W64 → W64 → W64 × Nat}
    (run : exec i s = vecWordF i w s useB useC F) {n : Nat} {G : W64 → W64 → W64 → Nat → Nat × Nat}
    (elements : ∀ a b c, F a b c = packF n ((List.range (64 / n)).map (G a b c))) :
    BlockResultF s x i false w.d.toNat (rowsV w) (colsV w) n x.active fun r c l k =>
      G (srcV x w w.a r c l) (optionalSrc x w useB w.b r c l) (optionalSrc x w useC w.c r c l) k := by
  refine blockResultF_vecWordF h hm hp clear run (fun r c l k hk => ?_) fun r c l b hb => ?_
  · rw [elements, elem_packF_range hk]
  · rw [elements, testBit_packF_range]

/-! Sums and products of finite operands. -/

section finite
variable {f : Fmt} (hf : f ∈ formats) (k : Rnd) {a b c : Nat} (ha : IsFinite (decF f k.ftz a)) (hb : IsFinite (decF f k.ftz b))
include hf ha hb

theorem roundedOnce_addF (sub : Bool) {x : ℚ}
    (sum : valueQ (decF f k.ftz a) + (if sub then -valueQ (decF f k.ftz b) else valueQ (decF f k.ftz b)) = x) (nonzero : x ≠ 0) :
    RoundedOnce f k x (addF f k sub a b) := by
  have real : ∀ v ∈ [decF f k.ftz a, decF f k.ftz b], v.isNan = false := by simp [ha.1, hb.1]
  refine roundedOnce_dotF hf k real (List.forall_mem_nil _) ?addends ?value nonzero
  case addends =>
    cases sub
    · simp [ha.2, hb.2]
    · simp [ha.2, hb.1, hb.flip.2]
  case value =>
    rw [← sum]
    cases sub
    · simp
    · simp [hb.1, valueQ_flip]

theorem roundedOnce_mulF (nonzero : valueQ (decF f k.ftz a) * valueQ (decF f k.ftz b) ≠ 0) :
    RoundedOnce f k (valueQ (decF f k.ftz a) * valueQ (decF f k.ftz b)) (mulF f k a b) :=
  roundedOnce_dotF hf k (by simp [ha.1, hb.1]) (by simp [ha, hb]) (List.forall_mem_nil _) (by simp) nonzero

theorem roundedOnce_fmaF (hc : IsFinite (decF f k.ftz c))
    (nonzero : valueQ (decF f k.ftz a) * valueQ (decF f k.ftz b) + valueQ (decF f k.ftz c) ≠ 0) :
    RoundedOnce f k (valueQ (decF f k.ftz a) * valueQ (decF f k.ftz b) + valueQ (decF f k.ftz c)) (fmaF f k a b c) :=
  roundedOnce_dotF hf k (by simp [ha.1, hb.1, hc.1]) (by simp [ha, hb]) (by simp [hc.2]) (by simp) nonzero

end finite

/-! NaNs and infinities among the operands (R177). -/

section kinds
variable (neg sig : Bool) (pay m : Nat) (e : Int)

@[simp] theorem isNan_nan : (FV.nan neg sig pay).isNan = true := rfl
@[simp] theorem isNan_inf : (FV.inf neg).isNan = false := rfl
@[simp] theorem isNan_num : (FV.num neg m e).isNan = false := rfl
@[simp] theorem isInf_nan : (FV.nan neg sig pay).isInf = false := rfl
@[simp] theorem isInf_inf : (FV.inf neg).isInf = true := rfl
@[simp] theorem isInf_num : (FV.num neg m e).isInf = false := rfl
@[simp] theorem isSig_nan : (FV.nan neg sig pay).isSig = sig := rfl
@[simp] theorem isSig_inf : (FV.inf neg).isSig = false := rfl
@[simp] theorem isSig_num : (FV.num neg m e).isSig = false := rfl
@[simp] theorem isZero_inf : (FV.inf neg).isZero = false := rfl
@[simp] theorem neg_inf : (FV.inf neg).neg = neg := rfl
@[simp] theorem neg_num : (FV.num neg m e).neg = neg := rfl
@[simp] theorem flip_nan : (FV.nan neg sig pay).flip = .nan (!neg) sig pay := rfl
@[simp] theorem flip_inf : (FV.inf neg).flip = .inf (!neg) := rfl
@[simp] theorem flip_num : (FV.num neg m e).flip = .num (!neg) m e := rfl

end kinds

theorem isNan_iff {v : FV} : v.isNan = true ↔ ∃ neg sig pay, v = .nan neg sig pay := by
  cases v <;> simp

theorem isInf_iff {v : FV} : v.isInf = true ↔ ∃ neg, v = .inf neg := by
  cases v <;> simp

/-- The products that no NaN enters. -/
def realProducts (prods : List (FV × FV)) : List (FV × FV) := prods.filter fun p => !p.1.isNan && !p.2.isNan

/-- The signs of the infinities among the terms of a sum of products. -/
def infiniteTerms (prods : List (FV × FV)) (adds : List FV) : List Bool :=
  ((realProducts prods).filter fun p => (p.1.isInf || p.2.isInf) && !p.1.isZero && !p.2.isZero).map (fun p => p.1.neg != p.2.neg) ++
    (adds.filter FV.isInf).map FV.neg

/-- Is a product zero times infinity, or does the sum meet infinities of both signs? -/
def invalidSum (prods : List (FV × FV)) (adds : List FV) : Bool :=
  ((realProducts prods).any fun p => (p.1.isZero && p.2.isInf) || (p.1.isInf && p.2.isZero)) ||
    ((infiniteTerms prods adds).contains true && (infiniteTerms prods adds).contains false)

section special
variable {f : Fmt} {k : Rnd} {order : List FV} {prods : List (FV × FV)} {adds : List FV} {neg sig : Bool} {pay : Nat}

/-- The first NaN among the operands is the result, quieted. -/
theorem dotF_of_nan (first : order.find? FV.isNan = some (.nan neg sig pay)) :
    dotF f k order prods adds = (encNan f neg pay, if invalidSum prods adds || order.any FV.isSig then 16 else 0) := by
  simp only [dotF, dotFV, first, encF]
  rw [if_neg Bool.false_ne_true, Nat.zero_or]
  rfl

section real
variable (real : order.find? FV.isNan = none)
include real

theorem dotF_of_invalid (invalid : invalidSum prods adds = true) : dotF f k order prods adds = (defNan f, 16) := by
  have value : dotFV k.mode order prods adds = (.nan false false 0, 16) := by
    simp only [dotFV, real]
    exact if_pos invalid
  simp only [dotF, value, encF, encNan, signBit]
  simp

theorem dotF_of_infinite (valid : invalidSum prods adds = false) {rest : List Bool} (infinite : infiniteTerms prods adds = neg :: rest) :
    dotF f k order prods adds = encF f k (.inf neg) := by
  have value : dotFV k.mode order prods adds = (.inf neg, 0) := by
    simp only [dotFV, real]
    refine (if_neg (Bool.eq_false_iff.1 valid)).trans ?_
    change (match infiniteTerms prods adds with | n :: _ => _ | [] => _) = _
    rw [infinite]
  simp only [dotF, value, Nat.or_zero]

end real
end special

theorem encF_inf {f : Fmt} (hf : f ∈ wideFormats) {k : Rnd} (stands : k.ovf ≠ 1) (neg : Bool) : encF f k (.inf neg) = (infPat f neg, 0) := by
  obtain ⟨others, -, -, wide⟩ := others_of_wide hf
  simp [encF, saturates, stands, others, wide]

section operands
variable {f : Fmt} (hf : f ∈ wideFormats) {k : Rnd} {a b : Nat}
include hf

/-- A NaN first operand is the result, quieted, with invalid where an operand signals. -/
theorem nan_fst (ha : a < 2 ^ f.w) (nan : (decF f k.ftz a).isNan = true) (sub : Bool) (c : Nat) :
    addF f k sub a b = (a ||| 2 ^ (f.fw - 1), if (decF f k.ftz a).isSig || (decF f k.ftz b).isSig then 16 else 0) ∧
      mulF f k a b = (a ||| 2 ^ (f.fw - 1), if (decF f k.ftz a).isSig || (decF f k.ftz b).isSig then 16 else 0) ∧
      (fmaF f k a b c).1 = a ||| 2 ^ (f.fw - 1) := by
  obtain ⟨neg, sig, pay, decoded⟩ := isNan_iff.1 nan
  rw [← encNan_decF hf ha decoded, decoded]
  refine ⟨?_, ?_, ?_⟩
  · rw [addF, decoded, dotF_of_nan (List.find?_cons_of_pos rfl)]
    cases decF f k.ftz b <;> cases sub <;> simp [invalidSum, infiniteTerms, realProducts]
  · rw [mulF, decoded, dotF_of_nan (List.find?_cons_of_pos rfl)]
    simp [invalidSum, infiniteTerms, realProducts]
  · rw [fmaF, decoded, dotF_of_nan (List.find?_cons_of_pos rfl)]

/-- A NaN second operand after a first that is none. -/
theorem nan_snd (hb : b < 2 ^ f.w) (real : (decF f k.ftz a).isNan = false) (nan : (decF f k.ftz b).isNan = true) (sub : Bool) (c : Nat) :
    addF f k sub a b = (b ||| 2 ^ (f.fw - 1), if (decF f k.ftz b).isSig then 16 else 0) ∧
      mulF f k a b = (b ||| 2 ^ (f.fw - 1), if (decF f k.ftz b).isSig then 16 else 0) ∧ (fmaF f k a b c).1 = b ||| 2 ^ (f.fw - 1) := by
  obtain ⟨neg, sig, pay, decoded⟩ := isNan_iff.1 nan
  have first (l : List FV) : (decF f k.ftz a :: .nan neg sig pay :: l).find? FV.isNan = some (.nan neg sig pay) := by
    rw [List.find?_cons_of_neg (by simp [real]), List.find?_cons_of_pos rfl]
  have quiet : (decF f k.ftz a).isSig = false := by
    cases value : decF f k.ftz a <;> simp [value] at real ⊢
  have signals : [decF f k.ftz a, .nan neg sig pay].any FV.isSig = sig := by simp [quiet]
  rw [← encNan_decF hf hb decoded, decoded]
  refine ⟨?_, ?_, ?_⟩
  · rw [addF, decoded, dotF_of_nan (first _), signals]
    cases infinite : (decF f k.ftz a).isInf <;> cases sig <;> simp [invalidSum, infiniteTerms, realProducts, infinite]
  · rw [mulF, decoded, dotF_of_nan (first _), signals]
    cases sig <;> simp [invalidSum, infiniteTerms, realProducts]
  · rw [fmaF, decoded, dotF_of_nan (first _)]

theorem addF_inf (stands : k.ovf ≠ 1) {n m : Bool} (da : decF f k.ftz a = .inf n) (db : decF f k.ftz b = .inf m) (sub : Bool) :
    addF f k sub a b = if n = (m != sub) then (infPat f n, 0) else (defNan f, 16) := by
  have real : [FV.inf n, FV.inf m].find? FV.isNan = none := rfl
  have second : (if sub = true ∧ (!(FV.inf m).isNan) = true then (FV.inf m).flip else FV.inf m) = .inf (m != sub) := by cases sub <;> simp
  rw [addF, da, db, second]
  split
  · next same =>
    rw [← encF_inf hf stands n, ← same]
    refine dotF_of_infinite (rest := [n]) real ?_ (by simp [infiniteTerms, realProducts, List.filter_cons])
    cases n <;> simp [invalidSum, infiniteTerms, realProducts, List.filter_cons]
  · next differ =>
    refine dotF_of_invalid real ?_
    cases n <;> simpa [invalidSum, infiniteTerms, realProducts, List.filter_cons] using differ

theorem mulF_inf (stands : k.ovf ≠ 1) {n : Bool} (da : decF f k.ftz a = .inf n) (real : (decF f k.ftz b).isNan = false) :
    mulF f k a b = if (decF f k.ftz b).isZero then (defNan f, 16) else (infPat f (n != (decF f k.ftz b).neg), 0) := by
  have real' : [FV.inf n, decF f k.ftz b].find? FV.isNan = none := by simp [real]
  rw [mulF, da]
  split
  · next zero => exact dotF_of_invalid real' (by simp [invalidSum, realProducts, real, zero])
  · next nonzero =>
    have infinite : infiniteTerms [(FV.inf n, decF f k.ftz b)] [] = [n != (decF f k.ftz b).neg] := by
      simp [infiniteTerms, realProducts, real, nonzero]
    rw [← encF_inf hf stands]
    refine dotF_of_infinite real' ?_ infinite
    simp [invalidSum, infinite, realProducts, real, nonzero]

omit hf in
theorem mulF_zero_inf (zero : (decF f k.ftz a).isZero = true) (infinite : (decF f k.ftz b).isInf = true) : mulF f k a b = (defNan f, 16) := by
  obtain ⟨m, db⟩ := isInf_iff.1 infinite
  have real : (decF f k.ftz a).isNan = false := by
    cases value : decF f k.ftz a <;> simp [value, FV.isZero] at zero ⊢
  rw [mulF, db]
  exact dotF_of_invalid (by simp [real]) (by simp [invalidSum, realProducts, real, zero])

end operands

end Sys2Proof.Proofs
end

section
/-! PROOF. Comparisons, the lesser and the greater operand, rounding to an integral value, and what the vector float words write (10_vector.md R280
to R283, 07_numbers.md R178). -/

namespace Sys2Proof.Proofs
open Sys2Proof Sys2Proof.Machine Sys2Proof.Laws

/-! Comparisons (R281). -/

theorem orderOf_lt_zero {x y : ℚ} : orderOf x y < 0 ↔ x < y := by
  obtain lt | rfl | gt := lt_trichotomy x y
  · simp [orderOf_of_lt lt, lt]
  · simp [orderOf]
  · simp [orderOf_of_gt gt, gt.le]

theorem orderOf_pos {x y : ℚ} : 0 < orderOf x y ↔ y < x := by
  obtain lt | rfl | gt := lt_trichotomy x y
  · simp [orderOf_of_lt lt, lt.le]
  · simp [orderOf]
  · simp [orderOf_of_gt gt, gt]

theorem orderOf_nonpos {x y : ℚ} : orderOf x y ≤ 0 ↔ x ≤ y := by rw [← not_lt, orderOf_pos, not_lt]

theorem orderOf_nonneg {x y : ℚ} : 0 ≤ orderOf x y ↔ y ≤ x := by rw [← not_lt, orderOf_lt_zero, not_lt]

theorem orderOf_eq_zero {x y : ℚ} : orderOf x y = 0 ↔ x = y := by
  rw [le_antisymm_iff, orderOf_nonpos, orderOf_nonneg, ← le_antisymm_iff]

theorem IsFinite.isSig {v : FV} (h : IsFinite v) : v.isSig = false := by
  obtain ⟨neg, m, e, rfl⟩ := h.exists_num
  rfl

theorem cmpF_finite {f : Fmt} {ftz : Bool} {a b cc : Nat} (ha : IsFinite (decF f ftz a)) (hb : IsFinite (decF f ftz b)) (hc : cc < 8) :
    cmpF f ftz cc a b = ([decide (valueQ (decF f ftz a) = valueQ (decF f ftz b)), decide (valueQ (decF f ftz a) ≠ valueQ (decF f ftz b)),
      decide (valueQ (decF f ftz a) < valueQ (decF f ftz b)), decide (valueQ (decF f ftz a) ≤ valueQ (decF f ftz b)),
      decide (valueQ (decF f ftz b) < valueQ (decF f ftz a)), decide (valueQ (decF f ftz b) ≤ valueQ (decF f ftz a)), false, true].getD cc false, 0) := by
  simp only [cmpF, cmpFV_finite ha hb, ha.1, hb.1, ha.isSig, hb.isSig, orderOf_lt_zero, orderOf_pos, orderOf_nonpos, orderOf_nonneg, orderOf_eq_zero, ne_eq]
  interval_cases cc <;> simp

theorem cmpF_nan {f : Fmt} {ftz : Bool} {a b cc : Nat} (nan : (decF f ftz a).isNan = true ∨ (decF f ftz b).isNan = true) (hc : cc < 8) :
    cmpF f ftz cc a b = (cc == 1 || cc == 6,
      if (2 ≤ cc ∧ cc ≤ 5) ∨ (decF f ftz a).isSig = true ∨ (decF f ftz b).isSig = true then 16 else 0) := by
  have unordered : ((decF f ftz a).isNan || (decF f ftz b).isNan) = true := by simpa using nan
  simp only [cmpF, unordered]
  interval_cases cc <;> simp

/-! The lesser and the greater operand (R178). -/

theorem valueQ_of_isZero {v : FV} (zero : v.isZero = true) : valueQ v = 0 := by
  obtain - | - | ⟨neg, - | m, e⟩ := v
  · rfl
  · rfl
  · simp [valueQ]
  · cases zero

section pick
variable {f : Fmt} (hf : f ∈ formats) {a b : Nat} (ha : a < 2 ^ f.w) (hb : b < 2 ^ f.w) (fa : IsFinite (decF f false a)) (fb : IsFinite (decF f false b))
include hf ha hb fa fb

theorem minmaxF_finite (mx : Bool) (differ : valueQ (decF f false a) ≠ valueQ (decF f false b)) : minmaxF f false mx a b =
    (if decide (valueQ (decF f false a) < valueQ (decF f false b)) = mx then b else a, 0) := by
  have zeros : ((decF f false a).isZero && (decF f false b).isZero) = false := by
    by_contra both
    obtain ⟨za, zb⟩ := Bool.and_eq_true_iff.1 (Bool.not_eq_false _ ▸ both)
    exact differ ((valueQ_of_isZero za).trans (valueQ_of_isZero zb).symm)
  have keepA := encF_decF hf (k := {}) ha rfl fa.1 fa.2
  have keepB := encF_decF hf (k := {}) hb rfl fb.1 fb.2
  have order := cmpFV_finite fa fb
  generalize valueQ (decF f false a) = va at *
  generalize valueQ (decF f false b) = vb at *
  obtain ⟨na, ma, ea, da⟩ := fa.exists_num
  obtain ⟨nb, mb, eb, db⟩ := fb.exists_num
  rw [da, db] at zeros
  rw [da] at keepA order
  rw [db] at keepB order
  have run : minmaxF f false mx a b =
      if decide (va < vb) = mx then encF f {} (.num nb mb eb) else encF f {} (.num na ma ea) := by
    simp only [minmaxF, da, db, order, orderOf_lt_zero, zeros]
    simp
  rw [run, keepA, keepB]
  split <;> rfl

end pick

/-! Rounding to an integral value (R282). -/

/-- A finite operand that does not read as zero has its pattern's value. -/
theorem patQ_of_num {f : Fmt} (hf : f ∈ formats) {a m : Nat} {e : Int} {neg ftz : Bool} (ha : a < 2 ^ f.w)
    (decoded : decF f ftz a = .num neg m e) (nonzero : m ≠ 0) :
    ∃ p ≤ maxPat f, a = signBit f neg + p ∧ (m : ℚ) * 2 ^ e = patQ f p ∧ m < 2 ^ (f.fw + 1) := by
  obtain ⟨p, hp, rfl⟩ := finite_of_num hf ha decoded
  refine ⟨p, hp, rfl, ?_, ?_⟩
  · obtain ⟨m', e', decoded', value⟩ := decF_patQ hf hp neg
    rw [decF_signed hf hp] at decoded decoded'
    rw [← value]
    split at decoded
    · next below =>
      cases ftz with
      | true => exact absurd (FV.num.inj decoded).2.1.symm nonzero
      | false =>
        rw [if_pos below, decoded] at decoded'
        obtain ⟨-, rfl, rfl⟩ := FV.num.inj decoded'
        rfl
    · next normal =>
      rw [if_neg normal, decoded] at decoded'
      obtain ⟨-, rfl, rfl⟩ := FV.num.inj decoded'
      rfl
  · have rest := Nat.mod_lt p (Nat.two_pow_pos f.fw)
    rw [decF_signed hf hp] at decoded
    rw [pow_succ]
    split at decoded
    · next below =>
      obtain ⟨-, rfl, -⟩ := FV.num.inj decoded
      cases ftz
      · exact below.trans (by omega)
      · exact absurd rfl nonzero
    · obtain ⟨-, rfl, -⟩ := FV.num.inj decoded
      omega

theorem two_pow_le_largestQ {f : Fmt} (hf : f ∈ wideFormats) : (2 : ℚ) ^ f.fw ≤ largestQ f := by
  simp only [wideFormats, List.mem_cons, List.not_mem_nil, or_false] at hf
  obtain rfl | rfl | rfl := hf <;> norm_num [largestQ, Fmt.isF8a, fmtF32, fmtF16, fmtB16]

theorem emin_le {f : Fmt} (hf : f ∈ wideFormats) : 1 - (f.bias : Int) ≤ f.fw := by
  simp only [wideFormats, List.mem_cons, List.not_mem_nil, or_false] at hf
  obtain rfl | rfl | rfl := hf <;> decide

/-- An integer of at most `fw + 1` bits is a value of the format. -/
theorem roundF_nat {f : Fmt} (hf : f ∈ wideFormats) {i : Nat} (nonzero : i ≠ 0) (le : i ≤ 2 ^ f.fw) (neg : Bool) :
    ∃ p ≤ maxPat f, roundF f {} neg i 0 false = (signBit f neg + p, 0) ∧ patQ f p = i := by
  have bits : i.log2 ≤ f.fw := Nat.lt_succ_iff.1 ((Nat.log2_lt nonzero).2 (lt_of_le_of_lt le (Nat.pow_lt_pow_right (by decide) (Nat.lt_succ_self _))))
  have below : unitExp f i 0 ≤ 0 := by
    rw [unitExp]
    have := emin_le hf
    omega
  have whole : (i : ℚ) * 2 ^ (0 : Int) = (i * 2 ^ (-unitExp f i 0).toNat : Nat) * 2 ^ unitExp f i 0 := by
    have power : (2 : ℚ) ^ (-unitExp f i 0).toNat = 2 ^ (-unitExp f i 0) := by
      rw [← zpow_natCast, Int.toNat_of_nonneg (by omega)]
    rw [Nat.cast_mul, Nat.cast_pow, Nat.cast_ofNat, power, mul_assoc, ← zpow_add₀ two_ne_zero, neg_add_cancel]
  have inside : (i : ℚ) * 2 ^ (0 : Int) ≤ largestQ f := by
    have le' : (i : ℚ) ≤ 2 ^ f.fw := by exact_mod_cast le
    rw [zpow_zero, mul_one]
    exact le'.trans (two_pow_le_largestQ hf)
  have result := roundF_whole (formats_of_wide hf) (k := {}) rfl nonzero whole inside neg
  rwa [zpow_zero, mul_one] at result

theorem rndF_num {f : Fmt} (hf : f ∈ wideFormats) {k : Rnd} {a m : Nat} {e : Int} {neg : Bool} (ha : a < 2 ^ f.w)
    (decoded : decF f k.ftz a = .num neg m e) (nonzero : m ≠ 0) :
    ∃ p ≤ maxPat f, rndF f k a = (signBit f neg + p, 0) ∧ patQ f p = (roundTo k neg m e 0 false).1 := by
  obtain ⟨m, rfl⟩ := Nat.exists_eq_succ_of_ne_zero nonzero
  have run : rndF f k a = if (roundTo k neg (m + 1) e 0 false).1 = 0 then (signBit f neg, 0)
      else ((roundF f {} neg (roundTo k neg (m + 1) e 0 false).1 0 false).1, 0) := by
    rw [rndF, decoded]
    rfl
  have stands := Stands.natCast (K := ℚ) (m + 1)
  rw [run]
  split
  · next zero => exact ⟨0, Nat.zero_le _, rfl, by rw [zero]; simp [patQ, mag]⟩
  · next positive =>
    obtain ⟨p, hp, -, value, bound⟩ := patQ_of_num (formats_of_wide hf) ha decoded nonzero
    obtain large | small := le_or_gt 0 e
    · have exact : (roundTo k neg (m + 1) e 0 false).2 = false := by simp [roundTo, scaleTo_coarse large]
      have integral := roundTo_exact stands (fun s => nomatch s) k neg exact
      rw [inUnits, sub_zero] at integral
      have whole := integral.trans value
      refine ⟨p, hp, ?_, whole.symm⟩
      rw [roundF_patQ (formats_of_wide hf) rfl positive hp (by rw [zpow_zero, mul_one, whole]) neg]
    · have bounds := (roundTo_bounds (q := 0) stands (fun s => nomatch s) k neg (e := e)).1
      have half : inUnits ((m + 1 : ℕ) : ℚ) e 0 < 2 ^ f.fw := by
        have bound' : ((m + 1 : ℕ) : ℚ) < 2 ^ (f.fw + 1) := by exact_mod_cast bound
        have power : (2 : ℚ) ^ e ≤ 2 ^ (-1 : Int) := zpow_le_zpow_right₀ one_le_two (by omega)
        rw [inUnits, sub_zero]
        calc ((m + 1 : ℕ) : ℚ) * 2 ^ e ≤ ((m + 1 : ℕ) : ℚ) * 2 ^ (-1 : Int) := mul_le_mul_of_nonneg_left power (by positivity)
          _ < 2 ^ (f.fw + 1) * 2 ^ (-1 : Int) := mul_lt_mul_of_pos_right bound' (by positivity)
          _ = 2 ^ f.fw := by rw [pow_succ, zpow_neg_one]; ring
      have few : (((roundTo k neg (m + 1) e 0 false).1 : ℕ) : ℚ) < (2 ^ f.fw + 1 : ℕ) := by
        push_cast
        linarith
      obtain ⟨p, hp, result, value⟩ := roundF_nat hf positive (Nat.lt_succ_iff.1 (by exact_mod_cast few)) neg
      exact ⟨p, hp, by rw [result], value⟩

/-- Settles O23: the words pack their elements' results and OR their flags; a sum of products of finite operands is an exact sum, which `roundF` rounds
once. -/
theorem vectorFloatResults : Obligations.VectorFloatResults := by
  refine ⟨fun s x w => ⟨?_, ?_, ?_, ?_, ?_, ?_, ?_, ?_, ?_, ?_⟩, ?finite, ?special, ?order⟩
  · exact fun h clear => blockResultF_elements h rfl rfl clear (exec_vFadd w s) fun _ _ _ => rfl
  · exact fun h clear => blockResultF_elements h rfl rfl clear (exec_vFsub w s) fun _ _ _ => rfl
  · exact fun h clear => blockResultF_elements h rfl rfl clear (exec_vFmul w s) fun _ _ _ => rfl
  · exact fun h clear => blockResultF_elements h rfl rfl clear (exec_vFma w s) fun _ _ _ => rfl
  · exact fun h clear => blockResultF_elements h rfl rfl clear (exec_vFmin w s) fun _ _ _ => rfl
  · exact fun h clear => blockResultF_elements h rfl rfl clear (exec_vFmax w s) fun _ _ _ => rfl
  · exact fun h clear => blockResultF_elements h rfl rfl clear (exec_vFcmp w s) fun _ _ _ => rfl
  · exact fun h clear => blockResultF_elements h rfl rfl clear (exec_vFrnd w s) fun _ _ _ => rfl
  · exact fun h clear => blockResultF_elements h rfl rfl clear (exec_vFclass w s) fun _ _ _ => rfl
  · exact fun h clear => blockResultF_elements h rfl rfl clear (exec_vFdot2 w s) fun _ _ _ => rfl
  case finite =>
    rintro f k a b c x y z hf - rfl rfl rfl finite
    have fa : IsFinite (decF f k.ftz a) := finite _ (by simp)
    have fb : IsFinite (decF f k.ftz b) := finite _ (by simp)
    exact ⟨roundedOnce_addF hf k fa fb false rfl, fun nonzero => roundedOnce_addF hf k fa fb true (sub_eq_add_neg _ _).symm nonzero,
      roundedOnce_mulF hf k fa fb, roundedOnce_fmaF hf k fa fb (finite _ (by simp))⟩
  case special =>
    rintro f k sub a b c x y hf stands ha hb rfl rfl
    exact ⟨fun nan => nan_fst hf ha nan sub c, fun real nan => nan_snd hf hb real nan sub c,
      fun n m da db => addF_inf hf stands da db sub, fun n da real => mulF_inf hf stands da real, fun ⟨zero, inf⟩ => mulF_zero_inf zero inf⟩
  case order =>
    rintro f k cc a b x y hf ha hb rfl rfl
    refine ⟨fun ra ia rb ib => ⟨cmpF_finite ⟨ra, ia⟩ ⟨rb, ib⟩, fun keeps less => ?_⟩, cmpF_nan, fun _ ra ia za => ?_⟩
    · rw [keeps] at ra ia rb ib less
      have ab (mx : Bool) := minmaxF_finite (formats_of_wide hf) ha hb ⟨ra, ia⟩ ⟨rb, ib⟩ mx less.ne
      have ba (mx : Bool) := minmaxF_finite (formats_of_wide hf) hb ha ⟨rb, ib⟩ ⟨ra, ia⟩ mx less.ne'
      simp only [less, decide_true, decide_eq_false (not_lt.2 less.le)] at ab ba
      exact ⟨ab false, ba false, ab true, ba true⟩
    · obtain ⟨neg, m, e, decoded⟩ := IsFinite.exists_num ⟨ra, ia⟩
      have nonzero : m ≠ 0 := by
        rintro rfl
        rw [decoded] at za
        cases za
      obtain ⟨p, hp, result, value⟩ := rndF_num hf ha decoded nonzero
      obtain ⟨m', e', decoded', value'⟩ := decF_patQ (formats_of_wide hf) hp neg
      have positive : (0 : ℚ) < m * 2 ^ e := mul_pos (by exact_mod_cast Nat.pos_of_ne_zero nonzero) (by positivity)
      rw [decoded, result, valueQ_num, abs_signed positive]
      refine ⟨rfl, (roundTo k neg m e 0 false).1, ?_, m', e', decoded', value'.trans value⟩
      exact roundsTo_roundTo (q := 0) (Stands.natCast m) (fun s => nomatch s) k neg

end Sys2Proof.Proofs
end

section
/-! PROOF. Conversions and the quantising words (10_vector.md R284 to R288, 07_numbers.md R187, R190, R199). -/

namespace Sys2Proof.Proofs
open Sys2Proof Sys2Proof.Machine Sys2Proof.Laws

/-! A lane register of a conversion (R285). -/

/-- Elements set one after another from element `o` on, with the flags of their results. -/
def setElems (w o n : Nat) (R : Nat → Nat × Nat) (v : W64) : W64 × Nat :=
  (List.range n).foldl (fun acc i => (setElem w (o + i) (R i).1 acc.1, acc.2 ||| (R i).2)) (v, 0)

theorem setElems_succ (w o n : Nat) (R : Nat → Nat × Nat) (v : W64) : setElems w o (n + 1) R v =
    (setElem w (o + n) (R n).1 (setElems w o n R v).1, (setElems w o n R v).2 ||| (R n).2) := by
  simp only [setElems, List.range_succ, List.foldl_append, List.foldl_cons, List.foldl_nil]

theorem elem_setElems {w j : Nat} (hj : j < 64 / w) (o n : Nat) (R : Nat → Nat × Nat) (v : W64) :
    elem w j (setElems w o n R v).1 = if o ≤ j ∧ j < o + n then (R (j - o)).1 % 2 ^ w else elem w j v := by
  induction n with
  | zero => rw [if_neg (by omega)]; rfl
  | succ n ih =>
    rw [setElems_succ, elem_setElem hj]
    split
    · next last => rw [if_pos (by omega), show j - o = n by omega]
    · next other =>
      rw [ih]
      exact if_congr (by omega) rfl rfl

theorem testBit_setElems (w o n : Nat) (R : Nat → Nat × Nat) (v : W64) (b : Nat) :
    (setElems w o n R v).2.testBit b = true ↔ ∃ i < n, (R i).2.testBit b = true := by
  induction n with
  | zero => simp [setElems]
  | succ n ih =>
    rw [setElems_succ, Nat.testBit_or, Bool.or_eq_true, ih]
    constructor
    · rintro (⟨i, hi, bit⟩ | bit)
      · exact ⟨i, by omega, bit⟩
      · exact ⟨n, Nat.lt_succ_self n, bit⟩
    · rintro ⟨i, hi, bit⟩
      obtain rfl | lt := Nat.eq_or_lt_of_le (Nat.lt_succ_iff.1 hi)
      · exact .inr bit
      · exact .inl ⟨i, lt, bit⟩

section convert
variable {s : State} {x : Issue} {w : VWord}

/-- Sub-element `j` of a conversion's result, and its flags: rounded with its own random bits, from the sub-element that it comes from. -/
def convElem (s : State) (g : Group) (w : VWord) (k : Rnd) (reg lane j : Nat) (a : W64) : Nat × Nat :=
  let src := w.c.toNat % 32
  let part := w.b.toNat % 32 * (64 / max (tyWidth src) (widV w))
  convTy w.ty.toNat src (if k.mode = 4 then { k with rnd := rndBits s g reg lane j (64 / widV w) k.r } else k)
    (elem (tyWidth src) (if tyWidth src < widV w then part + j else if widV w < tyWidth src then j - part else j) a)

/-- The first sub-element of the part that a conversion fills. -/
def convPart (w : VWord) : Nat :=
  if widV w < tyWidth (w.c.toNat % 32) then w.b.toNat % 32 * (64 / max (tyWidth (w.c.toNat % 32)) (widV w)) else 0

theorem cvtLane_eq (s : State) (g : Group) (w : VWord) (k : Rnd) (reg lane : Nat) (a old : W64) : cvtLane s g w k reg lane a old =
    setElems (widV w) (convPart w) (64 / max (tyWidth (w.c.toNat % 32)) (widV w)) (fun i => convElem s g w k reg lane (convPart w + i) a)
      (if widV w < tyWidth (w.c.toNat % 32) then old else 0#64) := by
  unfold cvtLane setElems
  refine congrArg (fun F => List.foldl F _ _) (funext fun acc => funext fun i => ?_)
  simp only [convElem, convPart, widV]
  by_cases narrow : tyWidth w.ty.toNat < tyWidth (w.c.toNat % 32)
  · simp [narrow, not_lt.2 narrow.le]
  · simp [narrow]

/-- The part of a conversion that issues lies in its register. -/
theorem part_lt_of_vCvt (h : Issues s (.vCvt w) x) (narrow : widV w < tyWidth (w.c.toNat % 32)) :
    w.b.toNat % 32 < tyWidth (w.c.toNat % 32) / widV w := by
  have coded := coded_of_issues h rfl
    (List.mem_cons_of_mem _ (List.mem_cons_of_mem _ (List.mem_singleton.2 rfl)))
  have lt : _ < max _ (widV w) / min _ (widV w) := of_decide_eq_true coded
  rwa [max_eq_left narrow.le, min_eq_right narrow.le] at lt

theorem ratio_mul_le (src dst : Nat) (narrow : tyWidth dst < tyWidth src) : tyWidth src / tyWidth dst * (64 / tyWidth src) = 64 / tyWidth dst := by
  have hs := tyWidth_mem src
  have hd := tyWidth_mem dst
  simp only [List.mem_cons, List.not_mem_nil, or_false] at hs hd
  obtain e | e | e | e | e | e := hs <;> obtain e' | e' | e' | e' | e' | e' := hd <;> rw [e, e'] at narrow ⊢ <;> omega

theorem convPart_add_le (h : Issues s (.vCvt w) x) : convPart w + 64 / max (tyWidth (w.c.toNat % 32)) (widV w) ≤ 64 / widV w := by
  by_cases narrow : widV w < tyWidth (w.c.toNat % 32)
  · rw [convPart, if_pos narrow, max_eq_left narrow.le, ← Nat.succ_mul, widV, ← ratio_mul_le _ _ narrow]
    exact Nat.mul_le_mul_right _ (part_lt_of_vCvt h narrow)
  · rw [convPart, if_neg narrow, max_eq_right (not_lt.1 narrow), Nat.zero_add]

/-- The result of a conversion in one register and lane. -/
def convLane (s : State) (x : Issue) (w : VWord) (r c l : Nat) : W64 × Nat :=
  cvtLane s x.g w (cvtRound s x.g w) (r * colsV w + c) l (srcV x w w.a r c l) (rv x.g (w.d.toNat + 16 * r + c) l)

/-- The group after a conversion has written its block. -/
def convWrites (s : State) (x : Issue) (w : VWord) : Group :=
  writeF x.g (flaggedWrites w.d.toNat (rowsV w) (colsV w) x.active (convLane s x w))

theorem exec_vCvt_issues (h : Issues s (.vCvt w) x) (clear : tileHold s x w true false = none) : exec (.vCvt w) s = .next (settle x false (okG s
    (if (cvtRound s x.g w).mode = 4 then drawAfter (convWrites s x w) (rowsV w * colsV w) (64 / widV w) else convWrites s x w))) := by
  rw [exec_vCvt, execVCvt, runWord_normal (m := w.msel.toNat) (p := false) h rfl rfl]
  simp only [clear]
  rfl

/-- The draw count that a conversion leaves: a stochastic one has drawn for every sub-element of its block (R190). -/
def convDraw (s : State) (x : Issue) (w : VWord) : W64 :=
  if (cvtRound s x.g w).mode = 4 then x.g.draw + BitVec.ofNat 64 (rowsV w * colsV w * x.g.width * ((64 / widV w + 3) / 4)) else x.g.draw

theorem convDraw_withBlock (s : State) (x : Issue) (w : VWord) :
    (if (cvtRound s x.g w).mode = 4 then drawAfter (convWrites s x w) (rowsV w * colsV w) (64 / widV w) else convWrites s x w) =
      withBlock x.g w.d.toNat (rowsV w) (colsV w) x.active (convDraw s x w) (convLane s x w) := by
  rw [convWrites, writeF_flaggedWrites, convDraw]
  split <;> rfl

theorem blockResultD_vCvt (h : Issues s (.vCvt w) x) (clear : tileHold s x w true false = none) :
    BlockResultD s x (.vCvt w) false w.d.toNat (rowsV w) (colsV w) (widV w) x.active (convDraw s x w)
      (fun r c l j => if convPart w ≤ j ∧ j < convPart w + 64 / max (tyWidth (w.c.toNat % 32)) (widV w)
        then convElem s x.g w (cvtRound s x.g w) (r * colsV w + c) l j (srcV x w w.a r c l)
        else (elem (widV w) j (if widV w < tyWidth (w.c.toNat % 32) then rv x.g (w.d.toNat + 16 * r + c) l else 0#64), 0)) := by
  refine blockResultD_of_withBlock ((exec_vCvt_issues h clear).trans (by rw [convDraw_withBlock])) (colsV_le w) (fun r c l j hj => ?_)
    fun r c l b hb => ?_
  · rw [convLane, cvtLane_eq, elem_setElems hj]
    split
    · next inside => rw [Nat.add_sub_cancel' inside.1]
    · exact (Nat.mod_eq_of_lt (elem_lt _ _ _)).symm
  · rw [convLane, cvtLane_eq, testBit_setElems]
    have le := convPart_add_le h
    constructor
    · rintro ⟨i, hi, bit⟩
      exact ⟨convPart w + i, by omega, by rwa [if_pos (by omega)]⟩
    · rintro ⟨j, hj, bit⟩
      split at bit
      · next inside => exact ⟨j - convPart w, by omega, by rwa [Nat.add_sub_cancel' inside.1]⟩
      · simp at bit

end convert

end Sys2Proof.Proofs
end

section
/-! PROOF. Conversion between formats, the scale of a block, and what a quantising word does with its record (10_vector.md R284 to R288,
07_numbers.md R187, R199). -/

namespace Sys2Proof.Proofs
open Sys2Proof Sys2Proof.Machine Sys2Proof.Laws

/-- A block's result says what its sub-elements are, and nothing of indices beyond them. -/
theorem blockResultD_congr {s : State} {x : Issue} {i : Instr} {pair : Bool} {d rows cols n : Nat} {act draw : W64}
    {f f' : Nat → Nat → Nat → Nat → Nat × Nat} (result : BlockResultD s x i pair d rows cols n act draw f)
    (same : ∀ r c l k, k < 64 / n → f r c l k = f' r c l k) : BlockResultD s x i pair d rows cols n act draw f' := by
  obtain ⟨g1, v, fl, run, group, ⟨inside, outside⟩, flags⟩ := result
  refine ⟨g1, v, fl, run, group, ⟨fun r c l k hr hc hl active hk => ?_, outside⟩, fun b hb => ?_⟩
  · rw [inside r c l k hr hc hl active hk]
    exact congrArg (fun y => y.1 % 2 ^ n) (same r c l k hk)
  · rw [flags b hb]
    refine or_congr_right (exists_congr fun r => exists_congr fun c => exists_congr fun l => exists_congr fun k => ?_)
    constructor
    · rintro ⟨hr, hc, hl, active, hk, bit⟩
      exact ⟨hr, hc, hl, active, hk, (congrArg (fun y : Nat × Nat => y.2.testBit b) (same r c l k hk)).symm.trans bit⟩
    · rintro ⟨hr, hc, hl, active, hk, bit⟩
      exact ⟨hr, hc, hl, active, hk, (congrArg (fun y : Nat × Nat => y.2.testBit b) (same r c l k hk)).trans bit⟩

/-! Conversion of one pattern (R285). -/

/-- Type codes of the floats but lg6, of all floats, and of the integers that are not raw. -/
def floatTypes : List Nat := [6, 9, 10, 14, 15]
def sourceFloats : List Nat := [6, 9, 10, 14, 15, 16]
def integerTypes : List Nat := [0, 1, 3, 4, 7, 8, 11, 12, 17, 18, 19, 20]

theorem fmtTy_mem (t : Nat) : fmtTy t ∈ formats := by
  unfold fmtTy
  split <;> decide

theorem floatType_facts : ∀ t ∈ floatTypes, [2, 5, 13].contains t = false ∧ tyFloat t = true ∧ t ≠ 16 := by decide

theorem sourceFloat_facts : ∀ t ∈ sourceFloats, [2, 5, 13].contains t = false ∧ tyFloat t = true := by decide

theorem integerType_facts : ∀ t ∈ integerTypes, [2, 5, 13].contains t = false ∧ tyFloat t = false ∧ minTy t ≤ 0 ∧ 0 ≤ maxTy t := by decide

theorem convTy_of_float {dst src : Nat} (hd : dst ∈ floatTypes) (hs : src ∈ sourceFloats) (k : Rnd) (a : Nat) :
    convTy dst src k a = encF (fmtTy dst) k (decTy src k.ftz a) := by
  obtain ⟨rawD, floatD, lg⟩ := floatType_facts dst hd
  obtain ⟨rawS, floatS⟩ := sourceFloat_facts src hs
  simp only [convTy, rawD, rawS, floatD, floatS, encTy, lg]
  simp

theorem convTy_of_integer {dst src : Nat} (hd : dst ∈ floatTypes) (hs : src ∈ integerTypes) (k : Rnd) (a : Nat) :
    convTy dst src k a = encF (fmtTy dst) k (intFV (intTy src a)) := by
  obtain ⟨rawD, floatD, lg⟩ := floatType_facts dst hd
  obtain ⟨rawS, floatS, -⟩ := integerType_facts src hs
  simp only [convTy, rawD, rawS, floatD, floatS, encTy, lg]
  simp

theorem convTy_to_integer {dst src : Nat} (hd : dst ∈ integerTypes) (hs : src ∈ sourceFloats) (k : Rnd) (a : Nat) : convTy dst src k a =
    (wrap (tyWidth dst) (floatToInt k (minTy dst) (maxTy dst) (decTy src k.ftz a)).1, (floatToInt k (minTy dst) (maxTy dst) (decTy src k.ftz a)).2) := by
  obtain ⟨rawD, floatD, -⟩ := integerType_facts dst hd
  obtain ⟨rawS, floatS⟩ := sourceFloat_facts src hs
  simp only [convTy, rawD, rawS, floatD, floatS]
  simp

/-- A finite value that is not zero, as an integer: rounded once, and bounded by the range (R187). -/
theorem floatToInt_num {k : Rnd} {lo hi v : Int} {neg : Bool} {m : Nat} (nonzero : m ≠ 0) (e : Int)
    (hv : v = if neg then -((roundTo k neg m e 0 false).1 : Int) else (roundTo k neg m e 0 false).1) :
    floatToInt k lo hi (.num neg m e) =
      if v < lo ∨ (neg = true ∧ lo = 0) then (lo, 16) else if hi < v then (hi, 16) else (v, if (roundTo k neg m e 0 false).2 then 1 else 0) := by
  obtain ⟨m, rfl⟩ := Nat.exists_eq_succ_of_ne_zero nonzero
  subst hv
  rfl

theorem IsFinite.exists_nonzero {v : FV} (h : IsFinite v) (nonzero : valueQ v ≠ 0) : ∃ neg m e, v = .num neg m e ∧ m ≠ 0 := by
  obtain ⟨neg, m, e, rfl⟩ := h.exists_num
  refine ⟨neg, m, e, rfl, ?_⟩
  rintro rfl
  simp [valueQ] at nonzero

theorem positive_num {m : Nat} (nonzero : m ≠ 0) (e : Int) : (0 : ℚ) < m * 2 ^ e :=
  mul_pos (by exact_mod_cast Nat.pos_of_ne_zero nonzero) (by positivity)

theorem convTy_integer {dst src : Nat} (hd : dst ∈ integerTypes) (hs : src ∈ sourceFloats) {k : Rnd} {a : Nat} {x : FV} (finite : IsFinite x)
    (nonzero : valueQ x ≠ 0) (hx : x = decTy src k.ftz a) : ∃ i : ℕ, RoundsTo k.mode x.neg |valueQ x| 1 i ∧
      ∀ v : Int, v = (if x.neg then -(i : Int) else i) →
        (v < minTy dst → convTy dst src k a = (wrap (tyWidth dst) (minTy dst), 16)) ∧
        (maxTy dst < v → convTy dst src k a = (wrap (tyWidth dst) (maxTy dst), 16)) ∧
        (minTy dst ≤ v → v ≤ maxTy dst → (x.neg = true → minTy dst < 0) →
          convTy dst src k a = (wrap (tyWidth dst) v, if (i : ℚ) = |valueQ x| then 0 else 1)) := by
  obtain ⟨neg, m, e, rfl, hm⟩ := finite.exists_nonzero nonzero
  have stands := Stands.natCast (K := ℚ) m
  obtain ⟨-, -, low, high⟩ := integerType_facts dst hd
  rw [valueQ_num, abs_signed (positive_num hm e), neg_num]
  refine ⟨(roundTo k neg m e 0 false).1, roundsTo_roundTo (q := 0) stands (fun s => nomatch s) k neg, fun v hv => ?_⟩
  have exact : (((roundTo k neg m e 0 false).1 : ℕ) : ℚ) = m * 2 ^ e ↔ (roundTo k neg m e 0 false).2 = false := by
    rw [← roundTo_eq_iff stands (fun s => nomatch s) k neg, inUnits, sub_zero]
  have negative : neg = true → v ≤ 0 := fun negative => by
    rw [negative, if_pos rfl] at hv
    omega
  rw [convTy_to_integer hd hs, ← hx, floatToInt_num hm e hv]
  simp only [exact]
  refine ⟨fun below => ?_, fun above => ?_, fun atLeast atMost signs => ?_⟩
  · rw [if_pos (.inl below)]
  · have inside : ¬(v < minTy dst ∨ (neg = true ∧ minTy dst = 0)) := by
      rintro (below | ⟨sign, -⟩)
      · omega
      · have := negative sign
        omega
    rw [if_neg inside, if_pos above]
  · have inside : ¬(v < minTy dst ∨ (neg = true ∧ minTy dst = 0)) := by
      rintro (below | ⟨sign, zero⟩)
      · omega
      · have := signs sign
        omega
    rw [if_neg inside, if_neg (not_lt.2 atMost)]
    cases (roundTo k neg m e 0 false).2 <;> rfl

/-! The scale of a block (R199). -/

theorem logFV_of_nonzero {v : FV} (h : IsFinite v) (nonzero : valueQ v ≠ 0) : ∃ t, logFV v = some t ∧ 2 ^ t ≤ |valueQ v| ∧ |valueQ v| < 2 ^ (t + 1) := by
  obtain ⟨neg, m, e, rfl, hm⟩ := h.exists_nonzero nonzero
  rw [valueQ_num, abs_signed (positive_num hm e)]
  obtain ⟨m, rfl⟩ := Nat.exists_eq_succ_of_ne_zero hm
  exact ⟨_, rfl, (Stands.natCast (K := ℚ) (m + 1)).binade hm e⟩

theorem logFV_of_zero {v : FV} (h : IsFinite v) (zero : valueQ v = 0) : logFV v = none := by
  obtain ⟨neg, m, e, rfl⟩ := h.exists_num
  cases m with
  | zero => rfl
  | succ m =>
    rw [valueQ_num] at zero
    have positive := positive_num (Nat.succ_ne_zero m) e
    rw [← abs_signed positive neg, zero, abs_zero] at positive
    exact absurd positive (lt_irrefl _)

theorem foldl_max_eq {l : List Int} {a b : Int} (start : a ≤ b) (le : ∀ t ∈ l, t ≤ b) (mem : a = b ∨ b ∈ l) : l.foldl max a = b := by
  induction l generalizing a with
  | nil => simpa using mem
  | cons t l ih =>
    refine ih (max_le start (le t List.mem_cons_self)) (fun t' ht' => le t' (List.mem_cons_of_mem t ht')) ?_
    obtain rfl | mem := mem
    · exact .inl (max_eq_left (le t List.mem_cons_self))
    · obtain rfl | mem := List.mem_cons.1 mem
      · exact .inl (max_eq_right start)
      · exact .inr mem

theorem clampI_eq {lo hi : Int} (le : lo ≤ hi) (x : Int) : clampI lo hi x = max lo (min hi x) := by
  unfold clampI
  split_ifs <;> omega

/-- The scale of a block whose greatest magnitude has the logarithm `b` (R199). -/
theorem blockScale_finite {c : Nat} {l : List FV} {b : ℤ} (hb : -1000 ≤ b)
    (below : ∀ v ∈ l, v.isNan = false ∧ v.isInf = false ∧ |valueQ v| < 2 ^ (b + 1)) (reached : ∃ v ∈ l, 2 ^ b ≤ |valueQ v|) :
    blockScale c l = ((max 0 (min 254 (b - emaxOf c + 127))).toNat, false) := by
  obtain ⟨v, hv, atLeast⟩ := reached
  have nonzero : valueQ v ≠ 0 := abs_pos.1 (lt_of_lt_of_le (by positivity) atLeast)
  have real : l.any FV.isNan = false := List.any_eq_false.2 fun v hv => by simp [(below v hv).1]
  have finite : l.any FV.isInf = false := List.any_eq_false.2 fun v hv => by simp [(below v hv).2.1]
  have zeros : l.all FV.isZero = false := List.all_eq_false.2 ⟨v, hv, fun zero => nonzero (valueQ_of_isZero zero)⟩
  have top : (l.filterMap logFV).foldl max (-1000) = b := by
    refine foldl_max_eq hb (fun t ht => ?_) (.inr (List.mem_filterMap.2 ⟨v, hv, ?_⟩))
    · obtain ⟨u, hu, log⟩ := List.mem_filterMap.1 ht
      obtain ⟨ru, fu, small⟩ := below u hu
      by_cases other : valueQ u = 0
      · rw [logFV_of_zero ⟨ru, fu⟩ other] at log
        cases log
      · obtain ⟨t', log', low, -⟩ := logFV_of_nonzero ⟨ru, fu⟩ other
        obtain rfl := Option.some.inj (log'.symm.trans log)
        have := (zpow_lt_zpow_iff_right₀ (one_lt_two (α := ℚ))).1 (low.trans_lt small)
        omega
    · obtain ⟨rv, fv, small⟩ := below v hv
      obtain ⟨t, log, low, up⟩ := logFV_of_nonzero ⟨rv, fv⟩ nonzero
      rw [log, binade_unique low up atLeast small]
  simp only [blockScale, real, zeros, finite, top, clampI_eq (show (0 : Int) ≤ 254 by decide), Bool.false_eq_true, if_false]

theorem valueQ_scaleFV (v : FV) (t : Int) : valueQ (scaleFV v t) = valueQ v * 2 ^ t := by
  obtain - | - | ⟨neg, m, e⟩ := v
  · simp [scaleFV, valueQ]
  · simp [scaleFV, valueQ]
  · simp only [scaleFV, valueQ, zpow_add₀ (two_ne_zero (α := ℚ))]
    ring

theorem quantElem_float : ∀ c ∈ [0, 1, 2, 3, 4], elInt c = false ∧ elTy c ≠ 16 := by decide

theorem roundedOnce_quantElem {c : Nat} (hc : c ∈ [0, 1, 2, 3, 4]) (e : Nat) (k : Rnd) {v : FV} (nonzero : valueQ v ≠ 0) :
    RoundedOnce (fmtTy (elTy c)) k (valueQ v * 2 ^ (127 - (e : ℤ))) (quantElem c e false false k v) := by
  obtain ⟨float, lg⟩ := quantElem_float c hc
  have run : quantElem c e false false k v = encF (fmtTy (elTy c)) k (scaleFV v (127 - (e : Int))) := by
    simp [quantElem, float, encTy, lg]
  rw [run, ← valueQ_scaleFV]
  refine roundedOnce_encF (fmtTy_mem _) k ?_
  rw [valueQ_scaleFV]
  exact mul_ne_zero nonzero (by positivity)

/-! The words (R287, R288). -/

section words
variable {s s1 : State} {x : Issue} {w : VWord} {i : Instr} {scl useB : Bool} {f : State → Issue → QuantCtx → Group × List (Nat × W64)}
  (h : Issues s i x) (hm : 0 = mselOf i) (hp : false = perLaneOf i) (run : exec i s = quantWord i w s scl useB f)
include h hm hp run

/-- A quantising word whose record passes the checks has its results return as a load's do. -/
theorem exec_quantWord {l : Lane} {b : List Byte} {q : QuantCtx} (aligned : (rs x.g (w.c.toNat - 352)).toNat % 64 = 0)
    (check : laneCheck s x.g 0 (rs x.g (w.c.toNat - 352)).toNat 64 1 1 false 1 = .ok l) (read : readNow s x.g l.pas = some (.inr (s1, b)))
    (clear : tileHold s x w true useB = none)
    (good : quantBad w scl (rs x.g (w.c.toNat - 352 + 1)).toNat (rowsV w * colsV w * x.g.width * 2) b = .inl q) :
    exec i s = .next (performed x (launchOp (clearWalks (putG s1 (f s1 x q).1) x.g.gid) x.g.gid x.g.ctx x.g.core .loads (.value (f s1 x q).2))) := by
  rw [run, quantWord, runWord_normal (m := 0) (p := false) h hm hp]
  simp only [aligned, check, clear, read, good]
  rfl

theorem exec_quantWord_misaligned (misaligned : (rs x.g (w.c.toNat - 352)).toNat % 64 ≠ 0) :
    exec i s = .next (raised x s { cls := 0x11, code := 1, addr := (rs x.g (w.c.toNat - 352)).toNat }) := by
  rw [run, quantWord, runWord_normal (m := 0) (p := false) h hm hp]
  simp only [if_pos misaligned]
  rfl

end words

/-- Settles O26: a conversion sets the elements of its part one by one, each by one rounding; a quantising word runs on the record that it reads. -/
theorem conversionAndQuantising : Obligations.ConversionAndQuantising := by
  refine ⟨⟨?convert, ?pattern⟩, ?word, ?misaligned, ?scale, ?element, ?value⟩
  case convert =>
    rintro s x w k src ws wd n q h clear rfl rfl rfl rfl rfl rfl
    refine blockResultD_congr (blockResultD_vCvt h clear) fun r c l j hj => ?_
    by_cases narrow : widV w < tyWidth (w.c.toNat % 32)
    · have part : convPart w = w.b.toNat % 32 * (64 / max (tyWidth (w.c.toNat % 32)) (widV w)) := if_pos narrow
      simp only [← part, narrow, not_lt.2 narrow.le, true_and, if_true, if_false, ite_not, convElem]
    · have whole : convPart w ≤ j ∧ j < convPart w + 64 / max (tyWidth (w.c.toNat % 32)) (widV w) := by
        rw [convPart, if_neg narrow, max_eq_right (not_lt.1 narrow)]
        omega
      simp only [whole, narrow, false_and, if_true, if_false, and_self, convElem]
  case pattern =>
    rintro dst src k a x - real finite nonzero source
    refine ⟨fun hd => ?_, fun hs hd => ?_⟩
    · obtain ⟨hs, rfl⟩ | ⟨hs, rfl⟩ := source
      · rw [convTy_of_float hd hs]
        exact roundedOnce_encF (fmtTy_mem dst) k nonzero
      · rw [convTy_of_integer hd hs]
        exact roundedOnce_encF (fmtTy_mem dst) k nonzero
    · obtain ⟨-, hx⟩ | ⟨integer, -⟩ := source
      · exact convTy_integer hd hs ⟨real, finite⟩ nonzero hx
      · have float := (sourceFloat_facts src hs).2
        rw [(integerType_facts src integer).2.1] at float
        cases float
  case word =>
    intro s x w a n l s1 b q ha hn aligned check read
    rw [ha] at aligned check
    rw [hn]
    exact ⟨fun h clear good => exec_quantWord h rfl rfl (exec_vQuant w s) aligned check read clear good,
      fun h clear good => exec_quantWord h rfl rfl (exec_vDequant w s) aligned check read clear good⟩
  case misaligned =>
    exact fun s x w odd => ⟨fun h => exec_quantWord_misaligned h rfl rfl (exec_vQuant w s) odd,
      fun h => exec_quantWord_misaligned h rfl rfl (exec_vDequant w s) odd⟩
  case scale =>
    refine fun c l => ⟨fun nan => ?_, fun zeros => ?_, fun real inf => ?_, fun b hb below reached => blockScale_finite hb below reached⟩
    · rw [blockScale, if_pos (List.any_eq_true.2 nan)]
    · have real : l.any FV.isNan = false := List.any_eq_false.2 fun v hv => by
        have zero := zeros v hv
        cases v <;> simp [FV.isZero] at zero ⊢
      rw [blockScale, real, if_neg Bool.false_ne_true, if_pos (List.all_eq_true.2 zeros)]
    · obtain ⟨v, hv, infinite⟩ := inf
      have nans : l.any FV.isNan = false := List.any_eq_false.2 fun v hv => by simp [real v hv]
      have zeros : l.all FV.isZero = false := List.all_eq_false.2 ⟨v, hv, by
        obtain ⟨neg, rfl⟩ := isInf_iff.1 infinite
        simp⟩
      rw [blockScale, nans, if_neg Bool.false_ne_true, zeros, if_neg Bool.false_ne_true, if_pos (List.any_eq_true.2 ⟨v, hv, infinite⟩)]
  case element => exact fun c e k v hc _ _ _ nonzero => roundedOnce_quantElem hc e k nonzero
  case value =>
    rintro fs e a x he rfl - -
    rw [dequantElem, if_neg (by omega)]
    exact valueQ_scaleFV _ _

end Sys2Proof.Proofs
end

section
/-! PROOF. Square roots and their reciprocals (07_numbers.md R177, 10_vector.md R290): the integer root found bit by bit, and a root rounded to a
format, which is never outside the normal numbers. -/

namespace Sys2Proof.Proofs
open Sys2Proof Sys2Proof.Machine Sys2Proof.Laws

/-! The integer square root. -/

theorem isqrtGo_spec {x : Nat} (k : Nat) {r : Nat} (low : r * r ≤ x) (up : x < (r + 2 ^ k) * (r + 2 ^ k)) :
    isqrtGo x k r * isqrtGo x k r ≤ x ∧ x < (isqrtGo x k r + 1) * (isqrtGo x k r + 1) := by
  induction k generalizing r with
  | zero => exact ⟨low, up⟩
  | succ k ih =>
    have step : isqrtGo x (k + 1) r = isqrtGo x k (if (r + 2 ^ k) * (r + 2 ^ k) ≤ x then r + 2 ^ k else r) := by
      rw [isqrtGo, Nat.one_shiftLeft]
    rw [step]
    split
    · next more => exact ih more (by rwa [Nat.add_assoc, ← Nat.two_mul, ← Nat.pow_succ'])
    · next less => exact ih low (not_le.1 less)

theorem isqrt_spec (x : Nat) : isqrt x * isqrt x ≤ x ∧ x < (isqrt x + 1) * (isqrt x + 1) := by
  refine isqrtGo_spec _ (Nat.zero_le _) ?_
  rw [Nat.zero_add, ← Nat.pow_add]
  exact Nat.lt_log2_self.trans_le (Nat.pow_le_pow_right two_pos (by omega))

/-- The integer root of the integer part of `z` is that of `z`. -/
theorem stands_isqrt {x : Nat} {z : ℝ} (low : (x : ℝ) ≤ z) (up : z < x + 1) {st : Bool} (exact : ((isqrt x * isqrt x : ℕ) : ℝ) = z ↔ st = false) :
    Stands (isqrt x) st √z := by
  obtain ⟨below, above⟩ := isqrt_spec x
  have below' : ((isqrt x * isqrt x : ℕ) : ℝ) ≤ z := (Nat.cast_le.2 below).trans low
  have above' : z < (((isqrt x + 1) * (isqrt x + 1) : ℕ) : ℝ) := lt_of_lt_of_le up (by exact_mod_cast above)
  refine ⟨Real.le_sqrt_of_sq_le ?_, (Real.sqrt_lt' (by positivity)).2 ?_, ?_⟩
  · rw [pow_two]; exact_mod_cast below'
  · rw [pow_two]; exact_mod_cast above'
  · rw [← exact, Real.sqrt_eq_iff_mul_self_eq ((Nat.cast_nonneg x).trans low) (Nat.cast_nonneg _)]
    push_cast
    exact eq_comm

/-! A result among the normal numbers. -/

section normal
variable {f : Fmt} (hf : f ∈ wideFormats) {m : Nat} {st : Bool} {a : ℝ} (h : Stands m st a) (nonzero : m ≠ 0) {e : Int}
  (sticky : st = true → f.fw < m.log2) (atLeast : 1 - (f.bias : Int) ≤ Nat.log2 m + e) (atMost : Nat.log2 m + e + 1 ≤ (f.bias : Int))

theorem two_pow_bias_le {f : Fmt} (hf : f ∈ wideFormats) : (2 : ℚ) ^ (f.bias : Int) ≤ largestQ f := by
  simp only [wideFormats, List.mem_cons, List.not_mem_nil, or_false] at hf
  obtain rfl | rfl | rfl := hf <;> norm_num [largestQ, Fmt.isF8a, fmtF32, fmtF16, fmtB16]

include hf h nonzero sticky atLeast atMost

/-- The pattern of a result among the normal numbers, below the greatest. -/
theorem roundPat_normal (k : Rnd) (neg : Bool) : ∃ s : Nat, (s : Int) = unitExp f m e - (1 - (f.bias : Int)) + f.fw ∧
    roundPat f k neg m e st = s * 2 ^ f.fw + (roundTo k neg m e (unitExp f m e) st).1 ∧ roundPat f k neg m e st ≤ maxPat f := by
  have le := (roundTo_unitExp (f := f) h nonzero sticky (e := e) k neg).1
  have value := patQ_roundPat (f := f) h nonzero sticky (e := e) k neg
  have unit : unitExp f m e = Nat.log2 m + e - f.fw := by rw [unitExp, max_eq_left atLeast]
  obtain ⟨s, hs⟩ : ∃ s : Nat, (s : Int) = unitExp f m e - (1 - (f.bias : Int)) + f.fw :=
    Int.eq_ofNat_of_zero_le (by omega) |>.imp fun _ eq => eq.symm
  refine ⟨s, hs, by rw [roundPat, ← hs, Int.toNat_natCast], ?_⟩
  have le' : (((roundTo k neg m e (unitExp f m e) st).1 : ℕ) : ℚ) ≤ 2 ^ (f.fw + 1) := by exact_mod_cast le
  rw [← patQ_le, value, patQ_maxPat (formats_of_wide hf)]
  calc _ ≤ (2 : ℚ) ^ (f.fw + 1) * 2 ^ unitExp f m e := mul_le_mul_of_nonneg_right le' (by positivity)
    _ = 2 ^ (Nat.log2 m + e + 1) := by
      rw [← zpow_natCast, ← zpow_add₀ two_ne_zero, unit]
      congr 1
      push_cast
      ring
    _ ≤ 2 ^ (f.bias : Int) := zpow_le_zpow_right₀ one_le_two atMost
    _ ≤ largestQ f := two_pow_bias_le hf

/-- What a result among the normal numbers decodes to: its units, or with a carry out of the fraction half as many of twice the unit. -/
theorem roundF_normal (k : Rnd) (neg : Bool) : ∃ m' e', decF f false (roundF f k neg m e st).1 = .num neg m' e' ∧ 2 ^ f.fw ≤ m' ∧
    (roundF f k neg m e st).2 = (if (roundTo k neg m e (unitExp f m e) st).2 then 1 else 0) ∧
    ((m' = (roundTo k neg m e (unitExp f m e) st).1 ∧ e' = unitExp f m e) ∨
      (2 * m' = (roundTo k neg m e (unitExp f m e) st).1 ∧ m' = 2 ^ f.fw ∧ e' = unitExp f m e + 1)) := by
  obtain ⟨le, normal⟩ := roundTo_unitExp (f := f) h nonzero sticky (e := e) k neg
  have ge := normal atLeast
  have notTiny : tiny f k neg m e st = false := by rw [tiny, decide_eq_false (not_lt.2 atLeast), Bool.false_and]
  have flags : roundFlags f k neg m e st = if (roundTo k neg m e (unitExp f m e) st).2 then 1 else 0 := by
    rw [roundFlags, notTiny, Bool.false_and, if_neg Bool.false_ne_true, Nat.add_zero]
  obtain ⟨s, hs, pattern, inside⟩ := roundPat_normal hf h nonzero sticky atLeast atMost k neg
  have run : roundF f k neg m e st = (signBit f neg + roundPat f k neg m e st, roundFlags f k neg m e st) := by
    rw [roundF_eq, if_neg (not_lt.2 inside), if_neg (fun small => absurd small.1 (not_lt.2 ge))]
  have decoded := decF_signed (formats_of_wide hf) inside neg false
  rw [run, flags]
  rw [if_neg (by rw [pattern]; omega)] at decoded
  refine ⟨_, _, decoded, Nat.le_add_right _ _, rfl, ?_⟩
  rw [pattern]
  obtain ⟨field, fraction⟩ | ⟨carry, field, fraction⟩ := grid_fields (s := s) ge le
  · rw [field, fraction]
    exact .inl ⟨by omega, by push_cast; omega⟩
  · rw [field, fraction]
    exact .inr ⟨by omega, by omega, by push_cast; omega⟩

end normal

/-! Roots. -/

theorem wide_facts {f : Fmt} (hf : f ∈ wideFormats) : f.fw + 2 ≤ f.bias ∧ 2 ≤ f.fw ∧ f.fw < 200 := by
  simp only [wideFormats, List.mem_cons, List.not_mem_nil, or_false] at hf
  obtain rfl | rfl | rfl := hf <;> decide

/-- A result after a carry out of the fraction: the same value, and its neighbours are not nearer than those in the units before. -/
theorem carry_units {m i n : ℕ} {e u : ℤ} (units : (m = i ∧ e = u) ∨ (2 * m = i ∧ m = n ∧ e = u + 1)) :
    (m : ℝ) * 2 ^ e = i * 2 ^ u ∧ (2 * (m : ℝ) - 1) * 2 ^ e ≤ (2 * i - 1) * 2 ^ u ∧ (2 * (i : ℝ) + 1) * 2 ^ u ≤ (2 * m + 1) * 2 ^ e ∧
      ((m : ℝ) - 1) * 2 ^ e ≤ (i - 1) * 2 ^ u ∧ ((i : ℝ) + 1) * 2 ^ u ≤ (m + 1) * 2 ^ e := by
  obtain ⟨rfl, rfl⟩ | ⟨rfl, -, rfl⟩ := units
  · exact ⟨rfl, le_refl _, le_refl _, le_refl _, le_refl _⟩
  · have positive : (0 : ℝ) < 2 ^ u := by positivity
    rw [zpow_add_one₀ two_ne_zero]
    push_cast
    refine ⟨by ring, ?_, ?_, ?_, ?_⟩ <;> linarith

section root
variable {f : Fmt} (hf : f ∈ wideFormats) {m : Nat} {st : Bool} {a : ℝ} (h : Stands m st a) (nonzero : m ≠ 0) {e : Int}
  (sticky : st = true → f.fw < m.log2) {V : ℚ} (square : (a * 2 ^ e) ^ 2 = (V : ℝ)) (low : 2 ^ (1 - (f.bias : Int) - f.fw) ≤ V)
  (high : V < 2 ^ ((f.bias : Int) + f.fw))
include hf h nonzero square low high

/-- The root of a finite value or of its reciprocal lies among the normal numbers. -/
theorem root_normal : 1 - (f.bias : Int) ≤ Nat.log2 m + e ∧ Nat.log2 m + e + 1 ≤ (f.bias : Int) := by
  obtain ⟨below, above⟩ := h.binade nonzero e
  obtain ⟨wide, -, -⟩ := wide_facts hf
  generalize (Nat.log2 m : Int) + e = T at below above
  have double (T : Int) : ((2 : ℝ) ^ T) ^ 2 = 2 ^ (2 * T) := by rw [← zpow_natCast, ← zpow_mul, mul_comm]; rfl
  have low' : (2 : ℝ) ^ (1 - (f.bias : Int) - f.fw) ≤ (a * 2 ^ e) ^ 2 := by rw [square]; simpa using (Rat.cast_le (K := ℝ)).2 low
  have high' : (a * 2 ^ e) ^ 2 < (2 : ℝ) ^ ((f.bias : Int) + f.fw) := by rw [square]; simpa using (Rat.cast_lt (K := ℝ)).2 high
  have positive : (0 : ℝ) < 2 ^ T := by positivity
  have first := low'.trans_lt (pow_lt_pow_left₀ above (positive.le.trans below) two_ne_zero)
  have second := (pow_le_pow_left₀ positive.le below 2).trans_lt high'
  rw [double, zpow_lt_zpow_iff_right₀ one_lt_two] at first second
  omega

include sticky

/-- Rounding a root to nearest (R290). -/
theorem root_nearest {k : Rnd} (mode : k.mode = 0) : ∃ m' e', decF f false (roundF f k false m e st).1 = .num false m' e' ∧ 2 ^ f.fw ≤ m' ∧
    ((2 * m' - 1) * 2 ^ e') ^ 2 ≤ 4 * V ∧ 4 * V ≤ ((2 * m' + 1) * 2 ^ e') ^ 2 ∧
    (roundF f k false m e st).2 = if (m' * 2 ^ e') ^ 2 = V then 0 else 1 := by
  obtain ⟨atLeast, atMost⟩ := root_normal hf h nonzero square low high
  obtain ⟨m', e', decoded, bits, flags, units⟩ := roundF_normal hf h nonzero sticky atLeast atMost k false
  have fine := fine_unitExp sticky (e := e)
  obtain ⟨nearest, -⟩ := roundTo_nearest h fine mode false
  have exact := roundTo_eq_iff h fine k false
  have value := inUnits_mul a e (unitExp f m e)
  obtain ⟨same, below, above, -⟩ := carry_units units
  have one : (1 : ℝ) ≤ m' := by exact_mod_cast (Nat.one_le_two_pow.trans bits)
  have root : 0 ≤ a * 2 ^ e := mul_nonneg ((Nat.cast_nonneg m).trans h.lower) (by positivity)
  have positive : (0 : ℝ) < 2 ^ unitExp f m e := by positivity
  rw [← inUnits_mul a e (unitExp f m e)] at square root
  generalize roundTo k false m e (unitExp f m e) st = result at *
  generalize inUnits a e (unitExp f m e) = t at *
  generalize (2 : ℝ) ^ unitExp f m e = u at *
  obtain ⟨less, greater⟩ := abs_le.1 ((le_div_iff₀ two_pos).2 nearest)
  have lower : (2 * (m' : ℝ) - 1) * 2 ^ e' ≤ 2 * (t * u) := below.trans (by nlinarith)
  have upper : 2 * (t * u) ≤ (2 * (m' : ℝ) + 1) * 2 ^ e' := le_trans (by nlinarith) above
  have double : (2 * (t * u)) ^ 2 = ((4 * V : ℚ) : ℝ) := by
    rw [mul_pow, square]
    push_cast
    ring
  have exact' : ((m' : ℚ) * 2 ^ e') ^ 2 = V ↔ result.2 = false := by
    rw [← exact, ← mul_left_inj' positive.ne', ← same, ← pow_left_inj₀ (by positivity) root two_ne_zero, square, ← Rat.cast_inj (α := ℝ)]
    push_cast
    exact Iff.rfl
  refine ⟨m', e', decoded, bits, ?_, ?_, ?_⟩
  · have squares := pow_le_pow_left₀ (mul_nonneg (by linarith) (by positivity)) lower 2
    rw [double] at squares
    rw [← Rat.cast_le (K := ℝ)]
    push_cast at squares ⊢
    exact squares
  · have squares := pow_le_pow_left₀ (mul_nonneg two_pos.le root) upper 2
    rw [double] at squares
    rw [← Rat.cast_le (K := ℝ)]
    push_cast at squares ⊢
    exact squares
  · rw [flags]
    simp only [exact']
    cases result.2 <;> rfl

/-- Rounding a root down or up: the result is a neighbour of the root, or the root. -/
theorem root_faithful {k : Rnd} (mode : k.mode = 1 ∨ k.mode = 5) : ∃ m' e', decF f false (roundF f k false m e st).1 = .num false m' e' ∧
    2 ^ f.fw ≤ m' ∧ ((m' - 1) * 2 ^ e') ^ 2 < V ∧ V < ((m' + 1) * 2 ^ e') ^ 2 ∧ (roundF f k false m e st).2 ≤ 1 := by
  obtain ⟨atLeast, atMost⟩ := root_normal hf h nonzero square low high
  obtain ⟨m', e', decoded, bits, flags, units⟩ := roundF_normal hf h nonzero sticky atLeast atMost k false
  have fine := fine_unitExp sticky (e := e)
  have near : ((roundTo k false m e (unitExp f m e) st).1 : ℝ) - 1 < inUnits a e (unitExp f m e) ∧
      inUnits a e (unitExp f m e) < (roundTo k false m e (unitExp f m e) st).1 + 1 := by
    obtain down | up := mode
    · obtain ⟨lower, upper⟩ := roundTo_down h fine (neg := false) (.inl down)
      exact ⟨by linarith, upper⟩
    · obtain ⟨lower, upper⟩ := roundTo_up h fine (neg := false) (.inr (.inr up))
      exact ⟨by linarith, by linarith⟩
  obtain ⟨-, -, -, below, above⟩ := carry_units units
  have one : (1 : ℝ) ≤ m' := by exact_mod_cast (Nat.one_le_two_pow.trans bits)
  have root : 0 ≤ a * 2 ^ e := mul_nonneg ((Nat.cast_nonneg m).trans h.lower) (by positivity)
  have positive : (0 : ℝ) < 2 ^ unitExp f m e := by positivity
  rw [← inUnits_mul a e (unitExp f m e)] at square root
  have lower := below.trans_lt (mul_lt_mul_of_pos_right near.1 positive)
  have upper := (mul_lt_mul_of_pos_right near.2 positive).trans_le above
  refine ⟨m', e', decoded, bits, ?_, ?_, ?_⟩
  · have squares := pow_lt_pow_left₀ lower (mul_nonneg (by linarith) (by positivity)) two_ne_zero
    rw [square] at squares
    rw [← Rat.cast_lt (K := ℝ)]
    push_cast at squares ⊢
    exact squares
  · have squares := pow_lt_pow_left₀ upper root two_ne_zero
    rw [square] at squares
    rw [← Rat.cast_lt (K := ℝ)]
    push_cast at squares ⊢
    exact squares
  · rw [flags]
    split <;> decide

end root

end Sys2Proof.Proofs
end

section
/-! PROOF. The values of the special functions that the statement fixes: reciprocal, square root and its reciprocal, relu and htanh (07_numbers.md
R177, 10_vector.md R290, R291). -/

namespace Sys2Proof.Proofs
open Sys2Proof Sys2Proof.Machine Sys2Proof.Laws

/-! Finite operands of the wide formats. -/

theorem patQ_one {f : Fmt} (hf : f ∈ wideFormats) : patQ f 1 = 2 ^ (1 - (f.bias : ℤ) - f.fw) := by
  obtain ⟨-, bits, -⟩ := wide_facts hf
  rw [patQ, mag, if_pos (Nat.one_lt_two_pow (by omega)), Nat.cast_one, one_mul]

theorem largestQ_lt {f : Fmt} (hf : f ∈ wideFormats) : largestQ f < 2 ^ ((f.bias : ℤ) + f.fw - 1) := by
  simp only [wideFormats, List.mem_cons, List.not_mem_nil, or_false] at hf
  obtain rfl | rfl | rfl := hf <;> norm_num [largestQ, Fmt.isF8a, fmtF32, fmtF16, fmtB16]

section operand
variable {f : Fmt} (hf : f ∈ wideFormats) {a m : Nat} {e : Int} {neg ftz : Bool} (ha : a < 2 ^ f.w) (decoded : decF f ftz a = .num neg m e)
  (nonzero : m ≠ 0)
include hf ha decoded nonzero

theorem range_of_num : (2 : ℚ) ^ (1 - (f.bias : ℤ) - f.fw) ≤ m * 2 ^ e ∧ (m : ℚ) * 2 ^ e < 2 ^ ((f.bias : ℤ) + f.fw - 1) := by
  obtain ⟨p, hp, -, value, -⟩ := patQ_of_num (formats_of_wide hf) ha decoded nonzero
  have positive : p ≠ 0 := by
    rintro rfl
    have zero : patQ f 0 = 0 := by simp [patQ, mag]
    exact (positive_num nonzero e).ne' (value.trans zero)
  rw [value, ← patQ_one hf, patQ_le]
  refine ⟨Nat.pos_of_ne_zero positive, lt_of_le_of_lt ?_ (largestQ_lt hf)⟩
  rw [← patQ_maxPat (formats_of_wide hf), patQ_le]
  exact hp

theorem significand_lt : m < 2 ^ 200 := by
  obtain ⟨-, -, -, -, bound⟩ := patQ_of_num (formats_of_wide hf) ha decoded nonzero
  obtain ⟨-, -, bits⟩ := wide_facts hf
  exact bound.trans_le (Nat.pow_le_pow_right two_pos bits)

end operand

/-! Reciprocals. -/

theorem stands_div {K : Type} [Field K] [LinearOrder K] [IsStrictOrderedRing K] (n : Nat) {m : Nat} (positive : 0 < m) :
    Stands (n / m) (decide (n % m ≠ 0)) ((n : K) / m) := by
  have positive' : (0 : K) < m := Nat.cast_pos.2 positive
  have split : ((n / m * m + n % m : ℕ) : K) = n := congrArg _ (Nat.div_add_mod' n m)
  have rest : ((n % m : ℕ) : K) < m := Nat.cast_lt.2 (Nat.mod_lt n positive)
  push_cast at split
  refine ⟨(le_div_iff₀ positive').2 ?_, (div_lt_iff₀ positive').2 ?_, ?_⟩
  · linarith [(Nat.cast_nonneg (n % m) : (0 : K) ≤ _)]
  · linarith
  · rw [div_eq_iff positive'.ne', decide_eq_false_iff_not, not_not, ← split, add_eq_left, Nat.cast_eq_zero]

theorem le_log2_div {k m n : Nat} (positive : 0 < m) (hm : m < 2 ^ n) : k ≤ (2 ^ (k + n) / m).log2 := by
  have le : 2 ^ k ≤ 2 ^ (k + n) / m := (Nat.le_div_iff_mul_le positive).2 (by
    rw [Nat.pow_add]
    exact Nat.mul_le_mul_left _ hm.le)
  rw [Nat.le_log2 (by have := Nat.two_pow_pos k; omega)]
  exact le

/-- A reciprocal, scaled by a power of two. -/
theorem one_div_signed {m : Nat} (nonzero : m ≠ 0) (neg : Bool) (e : Int) (k : Nat) :
    1 / signed neg (m * 2 ^ e) = signed neg (((2 ^ k : ℕ) : ℚ) / m * 2 ^ (-(k : Int) - e)) := by
  have power : (2 : ℚ) ^ (-(k : Int) - e) = (2 ^ k * 2 ^ e)⁻¹ := by
    rw [← zpow_natCast, ← zpow_add₀ two_ne_zero, ← zpow_neg]
    congr 1
    ring
  have hm : (m : ℚ) ≠ 0 := Nat.cast_ne_zero.2 nonzero
  rw [power]
  cases neg <;> simp only [signed, Bool.false_eq_true, if_false, if_true] <;> push_cast <;> field_simp

theorem roundedOnce_rcp {f : Fmt} (hf : f ∈ wideFormats) {m : Nat} (nonzero : m ≠ 0) (few : m < 2 ^ 200) (neg ftz : Bool) (e : Int) :
    RoundedOnce f { ftz := ftz } (1 / signed neg (m * 2 ^ e)) (correctF f ftz (rcpR neg m e)) := by
  have bits := le_log2_div (k := 200) (Nat.pos_of_ne_zero nonzero) few
  have stands := stands_div (K := ℚ) (2 ^ (200 + 200)) (Nat.pos_of_ne_zero nonzero)
  obtain ⟨-, -, wide⟩ := wide_facts hf
  have run : correctF f ftz (rcpR neg m e) =
      roundF f { ftz := ftz } neg (2 ^ (200 + 200) / m) (-400 - e) (decide (2 ^ (200 + 200) % m ≠ 0)) := by
    rw [correctF, rcpR, Nat.one_shiftLeft]
  rw [one_div_signed nonzero neg e (200 + 200), run]
  refine roundedOnce_roundF stands ?_ (fun _ => wide.trans_le bits) _ neg (formats_of_wide hf)
  intro zero
  rw [zero] at bits
  exact absurd bits (by decide)

/-! Square roots. -/

theorem two_pow_le_isqrt {k x : Nat} (le : 2 ^ (2 * k) ≤ x) : 2 ^ k ≤ isqrt x := by
  obtain ⟨-, above⟩ := isqrt_spec x
  by_contra less
  have small := Nat.mul_self_le_mul_self (show isqrt x + 1 ≤ 2 ^ k from not_le.1 less)
  rw [← Nat.pow_add, ← Nat.two_mul] at small
  omega

/-- `r` is the root of `V`: its magnitude stands for a value whose square is `V`, and keeps two hundred bits unless it is exact. -/
structure IsRoot (r : Real0) (V : ℚ) : Prop where
  positive : r.neg = false
  nonzero : r.m ≠ 0
  bits : r.st = true → 200 ≤ r.m.log2
  root : ∃ a : ℝ, Stands r.m r.st a ∧ (a * 2 ^ r.e) ^ 2 = (V : ℝ)

theorem sq_sqrt_mul {z : ℝ} (nonneg : 0 ≤ z) (E : Int) : (√z * 2 ^ E) ^ 2 = z * 2 ^ (2 * E) := by
  have double : ((2 : ℝ) ^ E) ^ 2 = 2 ^ (2 * E) := by rw [← zpow_natCast, ← zpow_mul, mul_comm]; rfl
  rw [mul_pow, Real.sq_sqrt nonneg, double]

/-- A magnitude with an even exponent: the significand is doubled where the exponent is odd. -/
theorem even_exponent (m : Nat) (e : Int) : ((if e % 2 = 0 then m else 2 * m : ℕ) : ℝ) * 2 ^ (if e % 2 = 0 then e else e - 1) = m * 2 ^ e := by
  split
  · rfl
  · rw [zpow_sub_one₀ two_ne_zero]
    push_cast
    ring

theorem sqrtR_eq (m : Nat) (e : Int) : sqrtR m e = let x := (if e % 2 = 0 then m else 2 * m) * 2 ^ (2 * 200)
    ⟨false, isqrt x, (if e % 2 = 0 then e else e - 1) / 2 - 200, decide (isqrt x * isqrt x ≠ x)⟩ := by
  have operand : (if e % 2 = 0 then m <<< 400 else 2 * m <<< 400) = (if e % 2 = 0 then m else 2 * m) * 2 ^ (2 * 200) := by
    rw [Nat.shiftLeft_eq]
    split
    · rfl
    · exact (Nat.mul_assoc _ _ _).symm
  rw [sqrtR, operand]

theorem isRoot_sqrtR {m : Nat} (nonzero : m ≠ 0) (e : Int) : IsRoot (sqrtR m e) (m * 2 ^ e) := by
  have even := even_exponent m e
  have parity : (if e % 2 = 0 then e else e - 1) % 2 = 0 := by split <;> omega
  have positive : 0 < if e % 2 = 0 then m else 2 * m := by split <;> omega
  rw [sqrtR_eq]
  generalize (if e % 2 = 0 then m else 2 * m) = m1 at *
  generalize (if e % 2 = 0 then e else e - 1) = e1 at *
  have large := two_pow_le_isqrt (x := m1 * 2 ^ (2 * 200)) (Nat.le_mul_of_pos_left _ positive)
  have root := (lt_of_lt_of_le (Nat.two_pow_pos 200) large).ne'
  refine ⟨rfl, root, fun _ => (Nat.le_log2 root).2 large, _, stands_isqrt (le_refl _) (lt_add_one _) ?_, ?_⟩
  · rw [decide_eq_false_iff_not, not_not, Nat.cast_inj]
  · have power : (2 : ℝ) ^ (2 * 200) * 2 ^ (2 * (e1 / 2 - 200)) = 2 ^ e1 := by
      rw [← zpow_natCast, ← zpow_add₀ two_ne_zero]
      congr 1
      omega
    rw [sq_sqrt_mul (Nat.cast_nonneg _), Nat.cast_mul, Nat.cast_pow, Nat.cast_ofNat, mul_assoc, power, even]
    push_cast
    rfl

theorem isPow2_two_pow (n : Nat) : isPow2 (2 ^ n) = true := by rw [isPow2, Nat.log2_two_pow, decide_eq_true rfl]

/-- A square that divides a power of two leaves an even power of two. -/
theorem even_of_mul_sq {m r k : Nat} (eq : r * r * m = 2 ^ (2 * k)) : ∃ j, m = 2 ^ (2 * j) := by
  obtain ⟨j, -, rfl⟩ := (Nat.dvd_prime_pow Nat.prime_two).1 (Dvd.intro_left (r * r) eq)
  obtain ⟨i, -, rfl⟩ := (Nat.dvd_prime_pow Nat.prime_two).1 (Dvd.intro (r * 2 ^ j) ((Nat.mul_assoc _ _ _).symm.trans eq))
  rw [← Nat.pow_add, ← Nat.pow_add] at eq
  have exponents := Nat.pow_right_injective (le_refl 2) eq
  exact ⟨j / 2, congrArg _ (by omega)⟩

theorem isRoot_rsqR {m : Nat} (nonzero : m ≠ 0) (few : m < 2 ^ 200) (e : Int) : IsRoot (rsqR m e) (1 / (m * 2 ^ e)) := by
  by_cases dyadic : isPow2 m = true ∧ ((Nat.log2 m : Int) + e) % 2 = 0
  · obtain ⟨power, parity⟩ := dyadic
    have run : rsqR m e = ⟨false, 1, -(((Nat.log2 m : Int) + e) / 2), false⟩ := if_pos ⟨power, parity⟩
    rw [run]
    refine ⟨rfl, Nat.one_ne_zero, fun no => (nomatch no), ((1 : ℕ) : ℝ), Stands.natCast 1, ?_⟩
    have double : ((2 : ℝ) ^ (-(((Nat.log2 m : Int) + e) / 2))) ^ 2 = 2 ^ (-((Nat.log2 m : Int) + e)) := by
      rw [← zpow_natCast, ← zpow_mul]
      congr 1
      push_cast
      omega
    have significand : (m : ℝ) = 2 ^ (Nat.log2 m : Int) := by
      rw [zpow_natCast]
      exact_mod_cast of_decide_eq_true power
    rw [Nat.cast_one, one_mul, double, zpow_neg, zpow_add₀ two_ne_zero, ← significand, one_div]
    push_cast
    rfl
  · have even := even_exponent m e
    have parity : (if e % 2 = 0 then e else e - 1) % 2 = 0 := by split <;> omega
    have positive : 0 < if e % 2 = 0 then m else 2 * m := by split <;> omega
    have small : (if e % 2 = 0 then m else 2 * m) < 2 ^ 201 := by split <;> omega
    have run : rsqR m e = ⟨false, isqrt (2 ^ (2 * 400) / (if e % 2 = 0 then m else 2 * m)), -400 - (if e % 2 = 0 then e else e - 1) / 2, true⟩ := by
      simp only [rsqR, if_neg dyadic, Nat.one_shiftLeft]
      split <;> rfl
    have irrational : ∀ r, r * r * (if e % 2 = 0 then m else 2 * m) ≠ 2 ^ (2 * 400) := by
      intro r eq
      obtain ⟨j, hj⟩ := even_of_mul_sq eq
      split at hj
      · next even =>
        subst hj
        exact dyadic ⟨isPow2_two_pow _, by rw [Nat.log2_two_pow]; push_cast; omega⟩
      · next odd =>
        obtain ⟨i, rfl⟩ : ∃ i, j = i + 1 := Nat.exists_eq_succ_of_ne_zero (by rintro rfl; simp at hj)
        obtain rfl : m = 2 ^ (2 * i + 1) := by
          rw [Nat.mul_succ, Nat.pow_succ] at hj
          omega
        exact dyadic ⟨isPow2_two_pow _, by rw [Nat.log2_two_pow]; push_cast; omega⟩
    rw [run]
    generalize (if e % 2 = 0 then m else 2 * m) = m1 at *
    generalize (if e % 2 = 0 then e else e - 1) = e1 at *
    have large := two_pow_le_isqrt (k := 200) (x := 2 ^ (2 * 400) / m1) ((Nat.le_div_iff_mul_le positive).2 (calc
      2 ^ (2 * 200) * m1 ≤ 2 ^ (2 * 200) * 2 ^ 201 := Nat.mul_le_mul_left _ small.le
      _ = 2 ^ (2 * 200 + 201) := (Nat.pow_add _ _ _).symm
      _ ≤ 2 ^ (2 * 400) := Nat.pow_le_pow_right two_pos (by decide)))
    have root := (lt_of_lt_of_le (Nat.two_pow_pos 200) large).ne'
    have stands := stands_div (K := ℝ) (2 ^ (2 * 400)) positive
    refine ⟨rfl, root, fun _ => (Nat.le_log2 root).2 large, √(((2 ^ (2 * 400) : ℕ) : ℝ) / m1), stands_isqrt ?_ ?_ ?_, ?_⟩
    · exact stands.lower
    · exact stands.upper
    · refine ⟨fun eq => absurd ?_ (irrational (isqrt (2 ^ (2 * 400) / m1))), fun no => nomatch no⟩
      rw [eq_div_iff (Nat.cast_ne_zero.2 positive.ne')] at eq
      exact_mod_cast eq
    · have power : (2 : ℝ) ^ (2 * 400) * 2 ^ (2 * (-400 - e1 / 2)) = (2 ^ e1)⁻¹ := by
        rw [← zpow_natCast, ← zpow_add₀ two_ne_zero, ← zpow_neg]
        congr 1
        omega
      rw [sq_sqrt_mul (by positivity), Nat.cast_pow, Nat.cast_ofNat, div_mul_eq_mul_div, power, div_eq_mul_inv, ← mul_inv_rev, even, one_div]
      push_cast
      rfl

section rounded
variable {f : Fmt} (hf : f ∈ wideFormats) {r : Real0} {V : ℚ} (h : IsRoot r V) (low : 2 ^ (1 - (f.bias : Int) - f.fw) ≤ V)
  (high : V < 2 ^ ((f.bias : Int) + f.fw)) (ftz : Bool)
include hf h low high

theorem correctF_root : ∃ m' e', decF f false (correctF f ftz r).1 = .num false m' e' ∧ 2 ^ f.fw ≤ m' ∧
    ((2 * m' - 1) * 2 ^ e') ^ 2 ≤ 4 * V ∧ 4 * V ≤ ((2 * m' + 1) * 2 ^ e') ^ 2 ∧
    (correctF f ftz r).2 = if (m' * 2 ^ e') ^ 2 = V then 0 else 1 := by
  obtain ⟨positive, nonzero, bits, a, stands, square⟩ := h
  obtain ⟨-, -, wide⟩ := wide_facts hf
  rw [correctF, positive]
  exact root_nearest hf stands nonzero (fun s => wide.trans_le (bits s)) square low high rfl

theorem faithfulF_root (op fmt operand : Nat) : ∃ m' e', decF f false (faithfulF f ftz op fmt operand r).1 = .num false m' e' ∧ 2 ^ f.fw ≤ m' ∧
    ((m' - 1) * 2 ^ e') ^ 2 < V ∧ V < ((m' + 1) * 2 ^ e') ^ 2 := by
  obtain ⟨positive, nonzero, bits, a, stands, square⟩ := h
  obtain ⟨-, -, wide⟩ := wide_facts hf
  have neighbour {k : Rnd} (mode : k.mode = 1 ∨ k.mode = 5) := root_faithful hf stands nonzero (fun s => wide.trans_le (bits s)) square low high mode
  obtain ⟨k, mode, run⟩ : ∃ k : Rnd, (k.mode = 1 ∨ k.mode = 5) ∧ faithfulF f ftz op fmt operand r = roundF f k false r.m r.e r.st := by
    obtain ⟨-, -, -, -, -, -, flags⟩ := neighbour (k := { mode := 1, ftz := ftz }) (.inl rfl)
    obtain ⟨-, -, -, -, -, -, flags'⟩ := neighbour (k := { mode := 5, ftz := ftz }) (.inr rfl)
    simp only [faithfulF, nonzero, positive, false_and, if_false]
    split
    · exact ⟨_, .inl rfl, rfl⟩
    · split
      · rw [if_neg (by omega)]
        exact ⟨_, .inr rfl, rfl⟩
      · rw [if_neg (by omega)]
        exact ⟨_, .inl rfl, rfl⟩
  obtain ⟨m', e', decoded, normal, below, above, -⟩ := neighbour mode
  exact ⟨m', e', run ▸ decoded, normal, below, above⟩

end rounded

end Sys2Proof.Proofs
end

section
/-! PROOF. The special-function words queue their blocks, and the results come back in issue order (10_vector.md R289 to R291). -/

namespace Sys2Proof.Proofs
open Sys2Proof Sys2Proof.Machine Sys2Proof.Laws

/-! A queued block (R289). -/

/-- The writes of a block under the register keys of an operation in flight. -/
def keyed (l : List (Nat × Nat × W64)) : List (Nat × W64) := l.map fun p => (p.1 * 64 + p.2.1, p.2.2)

/-- The registers that a queued block names are the vector registers of its writes. -/
theorem applyRegs_keyed {l : List (Nat × Nat × W64)} (lanes : ∀ p ∈ l, p.2.1 < 64) (regs : ∀ p ∈ l, p.1 < 2 ^ 14) (g : Group) :
    applyRegs g (keyed l) = wvs g l := by
  induction l generalizing g with
  | nil => rfl
  | cons p l ih =>
    have lane := lanes p List.mem_cons_self
    have reg := regs p List.mem_cons_self
    have vector : ¬2 ^ 20 ≤ p.1 * 64 + p.2.1 := by omega
    have first : applyRegs g (keyed (p :: l)) = applyRegs (wv g p.1 p.2.1 p.2.2) (keyed l) := by
      simp only [applyRegs, keyed, List.map_cons, List.foldl_cons, if_neg vector]
      rw [show (p.1 * 64 + p.2.1) / 64 = p.1 by omega, show (p.1 * 64 + p.2.1) % 64 = p.2.1 by omega]
    rw [first, ih (fun q hq => lanes q (List.mem_cons_of_mem p hq)) (fun q hq => regs q (List.mem_cons_of_mem p hq))]
    rfl

theorem reg_lt_of_mem_blockWrites (w : VWord) {act : W64} {val : Nat → Nat → Nat → W64} :
    ∀ p ∈ blockWrites w.d.toNat (rowsV w) (colsV w) act val, p.1 < 2 ^ 14 := by
  intro p hp
  obtain ⟨r, c, l, hr, hc, -, -, rfl⟩ := mem_blockWrites.1 hp
  have d := w.d.isLt
  have rows : rowsV w ≤ 16 := by
    have := w.rows.isLt
    unfold rowsV
    omega
  have cols := colsV_le w
  dsimp only
  omega

section queue
variable {s : State} {x : Issue} {i : Instr} {w : VWord} {f : Nat → Nat × Nat}

/-- A special-function word's result in one register and lane. -/
def sfuLane (x : Issue) (w : VWord) (f : Nat → Nat × Nat) (r c l : Nat) : W64 × Nat := each1F (widV w) f (srcV x w w.a r c l)

theorem exec_sfuWord (h : Issues s i x) (hm : w.msel.toNat = mselOf i) (hp : false = perLaneOf i) (clear : tileHold s x w true false = none)
    (run : exec i s = sfuWord i w s f) : exec i s = .next (performed x (launchOp s x.g.gid x.g.ctx x.g.core .sfu (.sfu x.g.core x.g.part
      (keyed (blockWrites w.d.toNat (rowsV w) (colsV w) x.active fun r c l => (sfuLane x w f r c l).1))
      (blockFlags w.d.toNat (rowsV w) (colsV w) x.active (sfuLane x w f))))) := by
  have flags : ((flaggedWrites w.d.toNat (rowsV w) (colsV w) x.active (sfuLane x w f)).map fun p => (p.1 * 64 + p.2.1, p.2.2)).foldl
      (fun a r => a ||| r.2.2) 0 = (flaggedWrites w.d.toNat (rowsV w) (colsV w) x.active (sfuLane x w f)).foldl (fun a p => a ||| p.2.2.2) 0 :=
    List.foldl_map
  rw [run, sfuWord, runWord_normal h hm hp, keyed, blockFlags, ← flags, ← map_flaggedWrites]
  simp only [clear, flaggedWrites, List.map_flatMap, List.map_map]
  rfl

theorem queuedResult_sfuWord (h : Issues s i x) (hm : w.msel.toNat = mselOf i) (hp : false = perLaneOf i)
    (clear : tileHold s x w true false = none) (run : exec i s = sfuWord i w s f) :
    QueuedResult s x i w.d.toNat (rowsV w) (colsV w) (widV w) x.active (fun r c l k => f (elem (widV w) k (srcV x w w.a r c l))) := by
  refine ⟨_, _, exec_sfuWord h hm hp clear run, fun g => ?_, ?_⟩
  · rw [applyRegs_keyed lane_lt_of_mem_blockWrites (reg_lt_of_mem_blockWrites w)]
    exact ⟨_, wvs_eq _ _, blockIn_wvs (colsV_le w) fun r c l k hk => elem_packF_range hk _⟩
  · rw [← BitVec.zero_or (x := blockFlags _ _ _ _ _)]
    exact flagsOf_blockFlags fun r c l b _ => testBit_packF_range _ _ b

end queue

/-- The oldest word of a unit is the one whose results return (R289). -/
theorem exec_sfuResultWrite_oldest {s : State} {id core part : Nat} {f : Flight} {g : Group} {regs : List (Nat × W64)} {fl : BitVec 5}
    (found : getF s id = some f) (op : f.op = .sfu core part regs fl) (group : getG s f.gid = some g)
    (oldest : ∀ o ∈ s.pend, ∀ r b, o.op = .sfu core part r b → id ≤ o.id) :
    exec (.sfuResultWrite id) s = .next (dropF (putG s (raiseFlags (applyRegs g regs) fl)) id) := by
  have first : sfuFirst s core part id = true := List.all_eq_true.2 fun o ho => by
    split
    · next c p r b queued =>
      by_contra younger
      simp only [Bool.not_eq_true', Bool.not_eq_false, Bool.and_eq_true, beq_iff_eq, decide_eq_true_eq] at younger
      obtain ⟨⟨rfl, rfl⟩, lt⟩ := younger
      exact absurd (oldest o ho r b queued) (not_le.2 lt)
    · rfl
  rw [exec_sfuResultWrite, execSfuResultWrite, found]
  simp only [op, first, group, if_true]

/-! The functions on a finite pattern that is not zero (R290, R291). -/

section values
variable {t a m : Nat} {ftz neg : Bool} {e : Int} (decoded : decF (fmtTy t) ftz a = .num neg m e) (nonzero : m ≠ 0)
include decoded nonzero

theorem sfuF_rcp : sfuF t 0x58 ftz a = correctF (fmtTy t) ftz (rcpR neg m e) := by
  obtain ⟨m, rfl⟩ := Nat.exists_eq_succ_of_ne_zero nonzero
  rw [sfuF, decoded]
  rfl

theorem sfuF_rsq : sfuF t 0x59 ftz a = if neg then (defNan (fmtTy t), 16) else faithfulF (fmtTy t) ftz 0x59 t a (rsqR m e) := by
  obtain ⟨m, rfl⟩ := Nat.exists_eq_succ_of_ne_zero nonzero
  rw [sfuF, decoded]
  rfl

theorem sfuF_sqrt : sfuF t 0x5A ftz a = if neg then (defNan (fmtTy t), 16) else correctF (fmtTy t) ftz (sqrtR m e) := by
  obtain ⟨m, rfl⟩ := Nat.exists_eq_succ_of_ne_zero nonzero
  rw [sfuF, decoded]
  rfl

theorem sfuF_log2 : sfuF t 0x5C ftz a = if neg then (defNan (fmtTy t), 16) else faithfulF (fmtTy t) ftz 0x5C t a (log2R m e) := by
  obtain ⟨m, rfl⟩ := Nat.exists_eq_succ_of_ne_zero nonzero
  rw [sfuF, decoded]
  rfl

theorem actF_relu : actF t 0 false ftz a = if neg then (0, 0) else encF (fmtTy t) { ftz := ftz } (.num neg m e) := by
  obtain ⟨m, rfl⟩ := Nat.exists_eq_succ_of_ne_zero nonzero
  rw [actF, decoded]
  rfl

theorem actF_relu_derivative : actF t 0 true ftz a = if neg then (0, 0) else ((encF (fmtTy t) {} (.num false 1 0)).1, 0) := by
  obtain ⟨m, rfl⟩ := Nat.exists_eq_succ_of_ne_zero nonzero
  rw [actF, decoded]
  rfl

theorem actF_htanh : actF t 1 false ftz a =
    if bigR m e 0 then ((encF (fmtTy t) {} (.num neg 1 0)).1, 0) else encF (fmtTy t) { ftz := ftz } (.num neg m e) := by
  obtain ⟨m, rfl⟩ := Nat.exists_eq_succ_of_ne_zero nonzero
  rw [actF, decoded]
  rfl

theorem actF_htanh_derivative : actF t 1 true ftz a = if bigR m e 0 then (0, 0) else ((encF (fmtTy t) {} (.num false 1 0)).1, 0) := by
  obtain ⟨m, rfl⟩ := Nat.exists_eq_succ_of_ne_zero nonzero
  rw [actF, decoded]
  rfl

end values

/-- The pattern of one. -/
theorem encF_one {f : Fmt} (hf : f ∈ wideFormats) (neg : Bool) : encF f {} (.num neg 1 0) = (signBit f neg + f.bias * 2 ^ f.fw, 0) := by
  simp only [wideFormats, List.mem_cons, List.not_mem_nil, or_false] at hf
  obtain rfl | rfl | rfl := hf <;> cases neg <;> decide

theorem bigR_iff {m : Nat} (nonzero : m ≠ 0) (e : Int) : bigR m e 0 = true ↔ (1 : ℚ) ≤ m * 2 ^ e := by
  obtain ⟨low, up⟩ := (Stands.natCast (K := ℚ) m).binade nonzero e
  rw [bigR, decide_eq_true_eq]
  constructor
  · intro large
    exact (one_le_zpow₀ one_le_two large).trans low
  · intro one
    have := (zpow_lt_zpow_iff_right₀ (one_lt_two (α := ℚ))).1 ((zpow_zero (2 : ℚ)).le.trans_lt (one.trans_lt up))
    omega

/-- The reciprocal square root is a neighbour of the exact value. -/
theorem rsq_neighbour {f : Fmt} (hf : f ∈ wideFormats) {m : Nat} (nonzero : m ≠ 0) (few : m < 2 ^ 200) {e : Int}
    (low : (2 : ℚ) ^ (1 - (f.bias : ℤ) - f.fw) ≤ m * 2 ^ e) (high : (m : ℚ) * 2 ^ e < 2 ^ ((f.bias : ℤ) + f.fw - 1)) (ftz : Bool)
    (op fmt operand : Nat) : ∃ m' e', decF f false (faithfulF f ftz op fmt operand (rsqR m e)).1 = .num false m' e' ∧ 2 ^ f.fw ≤ m' ∧
      ((m' * 2 ^ e') ^ 2 * (m * 2 ^ e) = (1 : ℚ) ∨
        (((m' - 1) * 2 ^ e') ^ 2 * (m * 2 ^ e) < (1 : ℚ) ∧ (1 : ℚ) < ((m' + 1) * 2 ^ e') ^ 2 * (m * 2 ^ e))) := by
  have positive := positive_num nonzero e
  have low' : (2 : ℚ) ^ (1 - (f.bias : ℤ) - f.fw) ≤ 1 / (m * 2 ^ e) := by
    rw [le_div_iff₀ positive]
    calc (2 : ℚ) ^ (1 - (f.bias : ℤ) - f.fw) * (m * 2 ^ e) ≤ 2 ^ (1 - (f.bias : ℤ) - f.fw) * 2 ^ ((f.bias : ℤ) + f.fw - 1) :=
        mul_le_mul_of_nonneg_left high.le (by positivity)
      _ = 1 := by rw [← zpow_add₀ two_ne_zero]; ring_nf; rfl
  have high' : 1 / ((m : ℚ) * 2 ^ e) < 2 ^ ((f.bias : ℤ) + f.fw) := by
    rw [div_lt_iff₀ positive]
    calc (1 : ℚ) < 2 ^ (1 : ℤ) := by norm_num
      _ = 2 ^ ((f.bias : ℤ) + f.fw) * 2 ^ (1 - (f.bias : ℤ) - f.fw) := by rw [← zpow_add₀ two_ne_zero]; congr 1; ring
      _ ≤ 2 ^ ((f.bias : ℤ) + f.fw) * (m * 2 ^ e) := mul_le_mul_of_nonneg_left low (by positivity)
  obtain ⟨m', e', decoded, bits, below, above⟩ := faithfulF_root hf (isRoot_rsqR nonzero few e) low' high' ftz op fmt operand
  exact ⟨m', e', decoded, bits, .inr ⟨(lt_div_iff₀ positive).1 below, (div_lt_iff₀ positive).1 above⟩⟩

theorem fmtTy_wide : ∀ t ∈ [6, 9, 10], fmtTy t ∈ wideFormats := by decide

/-- Settles O27: a word's block waits as an operation in flight that holds its registers and flags; the values are one rounding of an exact quotient or
root. -/
theorem specialFunctionWords : Obligations.SpecialFunctionWords := by
  refine ⟨?_, fun s x w h clear => queuedResult_sfuWord h rfl rfl clear (exec_vAct w s), ?values,
    fun s id core part f g regs fl found op group oldest => exec_sfuResultWrite_oldest found op group oldest⟩
  · intro s x w i op member h clear
    simp only [List.mem_cons, List.not_mem_nil, or_false, Prod.mk.injEq] at member
    obtain ⟨rfl, rfl⟩ | ⟨rfl, rfl⟩ | ⟨rfl, rfl⟩ | ⟨rfl, rfl⟩ | ⟨rfl, rfl⟩ | ⟨rfl, rfl⟩ | ⟨rfl, rfl⟩ := member
    · exact queuedResult_sfuWord h rfl rfl clear (exec_vRcp w s)
    · exact queuedResult_sfuWord h rfl rfl clear (exec_vRsq w s)
    · exact queuedResult_sfuWord h rfl rfl clear (exec_vSqrt w s)
    · exact queuedResult_sfuWord h rfl rfl clear (exec_vExp2 w s)
    · exact queuedResult_sfuWord h rfl rfl clear (exec_vLog2 w s)
    · exact queuedResult_sfuWord h rfl rfl clear (exec_vSin w s)
    · exact queuedResult_sfuWord h rfl rfl clear (exec_vCos w s)
  case values =>
    rintro t a ftz f x ht ha rfl rfl real finite other
    obtain ⟨neg, m, e, decoded, nonzero⟩ := IsFinite.exists_nonzero ⟨real, finite⟩ other
    have hf := fmtTy_wide t ht
    have positive := positive_num nonzero e
    have few := significand_lt hf ha decoded nonzero
    obtain ⟨low, high⟩ := range_of_num hf ha decoded nonzero
    rw [decoded, valueQ_num, abs_signed positive, sfuF_rcp decoded nonzero, sfuF_rsq decoded nonzero, sfuF_sqrt decoded nonzero,
      sfuF_log2 decoded nonzero]
    simp only [signed_neg_iff positive, signed_pos_iff positive, neg_num]
    refine ⟨roundedOnce_rcp hf nonzero few neg ftz e, ?below, ?above, ?relu, ?htanh, ?relu', ?htanh'⟩
    case below =>
      rintro rfl
      exact ⟨rfl, rfl, rfl⟩
    case above =>
      rintro rfl
      rw [if_neg Bool.false_ne_true, if_neg Bool.false_ne_true, signed, if_neg Bool.false_ne_true, one_mul]
      have high' : (m : ℚ) * 2 ^ e < 2 ^ (((fmtTy t).bias : ℤ) + (fmtTy t).fw) := high.trans (zpow_lt_zpow_right₀ one_lt_two (by omega))
      exact ⟨correctF_root hf (isRoot_sqrtR nonzero e) low high' ftz, rsq_neighbour hf nonzero few low high ftz _ _ _⟩
    case relu =>
      rintro rfl
      rw [actF_relu decoded nonzero, ← decoded, encF_decF (formats_of_wide hf) ha rfl real finite]
      cases neg <;> rfl
    case htanh =>
      rintro rfl
      rw [actF_htanh decoded nonzero, ← decoded, encF_decF (formats_of_wide hf) ha rfl real finite, encF_one hf]
      simp only [bigR_iff nonzero]
    case relu' =>
      rw [actF_relu_derivative decoded nonzero, encF_one hf, signBit, if_neg Bool.false_ne_true, Nat.zero_add]
      cases neg <;> rfl
    case htanh' =>
      rw [actF_htanh_derivative decoded nonzero, encF_one hf, signBit, if_neg Bool.false_ne_true, Nat.zero_add]
      simp only [bigR_iff nonzero]
      split <;> rfl

end Sys2Proof.Proofs
end

section
/-! PROOF. Cache-control words (11_memory_sync.md R330): what they do to the lines of their range that translate, and that no byte of memory
changes. -/

namespace Sys2Proof.Proofs
open Sys2Proof Sys2Proof.Machine Sys2Proof.Laws

/-! Prefetched lines. -/

theorem physLines_zero (s : State) (g : Group) (a : Nat) : physLines s g a 0 = [] := by
  rw [physLines, linesOf, if_pos rfl, List.filterMap_nil]

theorem homeTouch_groups (s : State) (ctx hint pa : Nat) : (homeTouch s ctx hint pa).groups = s.groups :=
  (congrArg State.groups (besideTags_homeTouch s ctx hint pa) :)

theorem l1Install_groups (s : State) (core line : Nat) (rmost : Bool) : (l1Install s core line rmost).groups = s.groups := by
  simp only [l1Install, grant, setHome_groups]
  split_ifs <;> rfl

/-- What `cc.prf` does with one line of its range: nothing where its home is not ready, the access is not allowed or data is in error. -/
def prefetchLine (x : Issue) (w : SWord) (s : State) (p : Nat × Bool) : State :=
  if !homeReady s (p.1 * 128) ∨ (accessCheck s x.g.ctx 0 (p.1 * 128) 128 1).isSome ∨
    (badAt s ((List.range 128).map (fun k => p.1 * 128 + k))).isSome then s
  else if w.f7.getLsbD 0 ∧ !isCxl (p.1 * 128) then l1Install (homeTouch s x.g.ctx (fld w.f7.toNat 1 2) (p.1 * 128)) x.g.core p.1 p.2
  else homeTouch s x.g.ctx (fld w.f7.toNat 1 2) (p.1 * 128)

theorem prefetchLine_mem (x : Issue) (w : SWord) (s : State) (p : Nat × Bool) : (prefetchLine x w s p).mem = s.mem := by
  unfold prefetchLine
  split_ifs
  · rfl
  · rw [l1Install_mem, homeTouch_mem]
  · rw [homeTouch_mem]

theorem prefetchLine_groups (x : Issue) (w : SWord) (s : State) (p : Nat × Bool) : (prefetchLine x w s p).groups = s.groups := by
  unfold prefetchLine
  split_ifs
  · rfl
  · rw [l1Install_groups, homeTouch_groups]
  · rw [homeTouch_groups]

section prefetch
variable {s : State} {x : Issue} {w : SWord} {a n : Nat} (h : Issues s (.ccPrf w) x) (ha : a = (rs x.g w.a.toNat).toNat)
  (hn : n = (srcB x.g w).toNat)
include h ha hn

theorem exec_ccPrf_walks {p : Nat} (miss : rangeMiss s x.g a n 1 = some p) :
    exec (.ccPrf w) s = .next (parked x (startWalk s x.g p) (.walk p)) := by
  rw [exec_ccPrf, execCcPrf, runWord_unmasked h rfl rfl]
  simp only [← ha, ← hn, miss, settle_park]

theorem exec_ccPrf_walked (walked : rangeMiss s x.g a n 1 = none) :
    exec (.ccPrf w) s = .next (performed x (clearWalks ((physLines s x.g a n).foldl (prefetchLine x w) s) x.g.gid)) := by
  rw [exec_ccPrf, execCcPrf, runWord_unmasked h rfl rfl]
  simp only [← ha, ← hn, walked, settle_ok]
  rfl

end prefetch

/-! Write-back and invalidation. -/

/-- What `cc.wb` does to the lines of its range. -/
def writeBackLines (w : SWord) (s : State) (x : Issue) (l : List (Nat × Bool)) : State :=
  l.foldl (fun s p => writeBackLine s x (w.f7.getLsbD 0) (p.1 / 8) (p.1 % 8)) s

/-- What `cc.inv` does to them. -/
def invalidateLines (s : State) (x : Issue) (l : List (Nat × Bool)) : State :=
  l.foldl (fun s p => l1Drop s x.g.core p.1) (drainWcb s x.g.gid)

theorem writeBackLines_mem (w : SWord) (s : State) (x : Issue) (l : List (Nat × Bool)) : (writeBackLines w s x l).mem = s.mem :=
  foldl_mem _ (fun _ _ => writeBackLine_mem _ _ _ _ _) _ _

theorem invalidateLines_mem (s : State) (x : Issue) (l : List (Nat × Bool)) : (invalidateLines s x l).mem = s.mem :=
  (foldl_mem _ (fun _ _ => l1Drop_mem _ _ _) _ _).trans (drainWcb_mem _ _)

/-- The two range words, each with what it does to the lines of its range. -/
def rangeWords (w : SWord) : List (Instr × (State → Issue → List (Nat × Bool) → State)) :=
  [(.ccWb w, writeBackLines w), (.ccInv w, invalidateLines)]

theorem writeBack_mem_rangeWords (w : SWord) : (.ccWb w, writeBackLines w) ∈ rangeWords w := List.mem_cons_self
theorem invalidate_mem_rangeWords (w : SWord) : (.ccInv w, invalidateLines) ∈ rangeWords w := List.mem_cons_of_mem _ List.mem_cons_self

section range
variable {s : State} {x : Issue} {w : SWord} {a n : Nat} {i : Instr} {act : State → Issue → List (Nat × Bool) → State}
  (word : (i, act) ∈ rangeWords w)
include word

theorem exec_rangeWord : exec i s = ccWord i w s act ∧ mselOf i = 0 ∧ perLaneOf i = false := by
  simp only [rangeWords, List.mem_cons, List.not_mem_nil, or_false, Prod.mk.injEq] at word
  rcases word with ⟨rfl, rfl⟩ | ⟨rfl, rfl⟩
  · exact ⟨exec_ccWb w s, rfl, rfl⟩
  · exact ⟨exec_ccInv w s, rfl, rfl⟩

variable (h : Issues s i x) (ha : a = (rs x.g w.a.toNat).toNat) (hn : n = (srcB x.g w).toNat)
include h hn

theorem exec_rangeWord_empty (empty : n = 0) : exec i s = .next (performed x s) := by
  obtain ⟨run, unselected, whole⟩ := exec_rangeWord (s := s) word
  rw [run, ccWord, runWord_unmasked h unselected whole]
  simp only [← hn, if_pos empty, settle_ok]

variable (some_ : n ≠ 0)
include ha some_

theorem exec_rangeWord_faults {f : FInfo} (fate : ccCheck s x a n = some (.inl f)) :
    exec i s = .next (raised x (clearWalks s x.g.gid) f) := by
  obtain ⟨run, unselected, whole⟩ := exec_rangeWord (s := s) word
  rw [run, ccWord, runWord_unmasked h unselected whole]
  simp only [← ha, ← hn, if_neg some_, fate, settle_bad]

theorem exec_rangeWord_walks {p : Nat} (fate : ccCheck s x a n = some (.inr p)) :
    exec i s = .next (parked x (startWalk s x.g p) (.walk p)) := by
  obtain ⟨run, unselected, whole⟩ := exec_rangeWord (s := s) word
  rw [run, ccWord, runWord_unmasked h unselected whole]
  simp only [← ha, ← hn, if_neg some_, fate, settle_park]

theorem exec_rangeWord_acts (fate : ccCheck s x a n = none) :
    exec i s = .next (performed x (act (clearWalks s x.g.gid) x (physLines s x.g a n))) := by
  obtain ⟨run, unselected, whole⟩ := exec_rangeWord (s := s) word
  rw [run, ccWord, runWord_unmasked h unselected whole]
  simp only [← ha, ← hn, if_neg some_, fate, settle_ok]

end range

/-- A range beyond 2^57 faults before its pages are walked (log entry 24). -/
theorem ccCheck_beyond (s : State) (x : Issue) {a n : Nat} (beyond : 2 ^ 57 < a + n) :
    ccCheck s x a n = some (.inl { cls := 6, code := 1, addr := a }) := by
  rw [ccCheck, if_pos beyond]

theorem clearWalks_l1 (s : State) (gid : Nat) : (clearWalks s gid).l1 = s.l1 := by
  unfold clearWalks
  split <;> rfl

theorem drainWcb_l1 (s : State) (gid : Nat) : (drainWcb s gid).l1 = s.l1 := by
  unfold drainWcb
  split <;> rfl

/-- A copy is left exactly when no line of the range is its line at the group's core. -/
theorem mem_invalidateLines {s : State} {x : Issue} {l : List (Nat × Bool)} {k : L1Line} :
    k ∈ (invalidateLines s x l).l1 ↔ k ∈ s.l1 ∧ ∀ p ∈ l, ¬ (k.core = x.g.core ∧ k.line = p.1) := by
  rw [invalidateLines, ← drainWcb_l1 s x.g.gid]
  generalize drainWcb s x.g.gid = s1
  induction l generalizing s1 with
  | nil => simp
  | cons p r ih =>
    rw [List.foldl_cons, ih, List.forall_mem_cons, l1Drop, List.mem_filter, and_assoc]
    simp only [Bool.not_eq_true', Bool.and_eq_false_iff, beq_eq_false_iff_ne, not_and_or]

theorem exec_ccWays_issues {s : State} {x : Issue} {w : SWord} {c : Context} (h : Issues s (.ccWays w) x) (hc : getC s x.g.ctx = some c) :
    exec (.ccWays w) s = .next (settle x false (if 2 ^ 16 ≤ (rs x.g w.a.toNat).toNat then badW s 0x0F 8 0 0
      else .ok (putC s { c with ways := fput 0xF000 (dieOfCore x.g.core) (rs x.g w.a.toNat).toNat c.ways }))) := by
  rw [exec_ccWays, execCcWays, runWord_unmasked h rfl rfl]
  simp only [hc]

/-- Settles O39: each word by its count and by the fate of its range. -/
theorem cacheControlWords : Obligations.CacheControlWords := by
  intro s x w a n ha hn
  refine ⟨fun h => ⟨fun p => exec_ccPrf_walks h ha hn, fun walked => ?prefetch⟩, ?fates, fun empty => ⟨?emptyWb, ?emptyInv⟩, ?writeBack, ?invalidate,
    fun some_ beyond => ⟨?beyondWb, ?beyondInv⟩, fun c h hc => ⟨fun small => ?ways, fun large => ?wide⟩⟩
  case prefetch =>
    refine ⟨_, exec_ccPrf_walked h ha hn walked, foldl_mem _ (prefetchLine_mem x w) _ _, foldl_groups (prefetchLine_groups x w) _ _, ?_⟩
    rintro rfl
    rw [physLines_zero, List.foldl_nil]
  case fates =>
    intro i hi h some_
    obtain ⟨act, word⟩ : ∃ act, (i, act) ∈ rangeWords w := by
      simp only [List.mem_cons, List.not_mem_nil, or_false] at hi
      rcases hi with rfl | rfl
      · exact ⟨_, writeBack_mem_rangeWords w⟩
      · exact ⟨_, invalidate_mem_rangeWords w⟩
    exact ⟨fun f => exec_rangeWord_faults word h ha hn some_, fun p => exec_rangeWord_walks word h ha hn some_⟩
  case emptyWb => exact fun h => exec_rangeWord_empty (writeBack_mem_rangeWords w) h hn empty
  case emptyInv => exact fun h => exec_rangeWord_empty (invalidate_mem_rangeWords w) h hn empty
  case writeBack =>
    intro h some_ fate
    refine ⟨_, exec_rangeWord_acts (writeBack_mem_rangeWords w) h ha hn some_ fate, ?_, rfl⟩
    rw [writeBackLines_mem, clearWalks_mem]
  case invalidate =>
    intro h some_ fate
    refine ⟨_, exec_rangeWord_acts (invalidate_mem_rangeWords w) h ha hn some_ fate, ?_, fun p hp k hk => ?_, fun k hk => ?_⟩
    · rw [invalidateLines_mem, clearWalks_mem]
    · exact (mem_invalidateLines.1 hk).2 p hp
    · exact clearWalks_l1 s x.g.gid ▸ (mem_invalidateLines.1 hk).1
  case beyondWb => exact fun h => exec_rangeWord_faults (writeBack_mem_rangeWords w) h ha hn some_ (ccCheck_beyond s x beyond)
  case beyondInv => exact fun h => exec_rangeWord_faults (invalidate_mem_rangeWords w) h ha hn some_ (ccCheck_beyond s x beyond)
  case ways =>
    subst ha
    rw [exec_ccWays_issues h hc, if_neg (Nat.not_le_of_lt small), settle_ok]
  case wide =>
    subst ha
    rw [exec_ccWays_issues h hc, if_pos large]
    rfl

end Sys2Proof.Proofs
end

section
/-! PROOF. Team and cluster barriers: initialising, arriving, waiting and misuse (11_memory_sync.md R312 to R316). -/

namespace Sys2Proof.Proofs
open Sys2Proof Sys2Proof.Machine Sys2Proof.Laws

/-! A barrier's phase (R312). -/

theorem barPhase_over {n a p : Nat} (some_ : 0 < n) (reached : n ≤ a) : barPhase (n, a, p) = (n, 0, p + 1) := if_pos ⟨some_, reached⟩

theorem barPhase_open {n a : Nat} (p : Nat) (fewer : a < n) : barPhase (n, a, p) = (n, a, p) := if_neg fun h => Nat.not_le_of_lt fewer h.2

/-- An arrival is counted, and its phase is noted for its group. -/
theorem barArriveNow_counts {s : State} {tid n a p : Nat} {t : Team} (b num : Nat) (ht : getT s tid = some t)
    (bar : fget (0, 0, 0) b t.bars = (n, a, p)) : ∃ t', getT (barArriveNow s tid b num) tid = some t' ∧ barLastOf t' b num = p + 1 ∧
      fget (0, 0, 0) b t'.bars = barPhase (n, a + 1, p) := by
  obtain rfl := getT_tid ht
  refine ⟨setBar { t with barLast := fput 0 (b * 32 + num) (p + 1) t.barLast } b (barPhase (n, a + 1, p)), ?_, ?_, ?_⟩
  · simp only [barArriveNow, ht, barOf, bar]
    exact getT_putT_same (t := setBar _ b _) ht
  · rw [barLastOf, setBar, fget_fput_same]
  · rw [setBar, fget_fput_same]

/-! Arrivals at a team barrier (R313). -/

/-- A group's arrival is registered at once when nothing precedes it: no access that a release at team scope waits for, and no arrival of the
group that waits for its own release. -/
def arrivesAtOnce (s : State) (g : Group) : Prop :=
  releaseWait s g .tm = none ∧ ∀ f ∈ s.pend, f.gid = g.gid → ∀ u k, f.op ≠ .barArrive u k

theorem not_arrivesAtOnce {s : State} {g : Group} :
    ¬ arrivesAtOnce s g ↔ releaseWait s g .tm ≠ none ∨ ∃ f ∈ s.pend, f.gid = g.gid ∧ ∃ u k, f.op = .barArrive u k := by
  simp only [arrivesAtOnce, not_and_or, not_forall, ne_eq, not_not, exists_prop]

theorem not_barPending_of_alone {s : State} {gid : Nat} (b : Nat) (alone : ∀ f ∈ s.pend, f.gid = gid → ∀ u k, f.op ≠ .barArrive u k) :
    barPending s gid b = false := by
  refine List.any_eq_false.2 fun f hf pending => ?_
  obtain ⟨own, arrives⟩ := Bool.and_eq_true_iff.1 pending
  split at arrives
  · next u k hop => exact alone f hf (beq_iff_eq.1 own) u k hop
  · cases arrives

theorem releaseWait_none_iff_ready {s : State} {g : Group} (hg : getG s g.gid = some g) (sc : Scope) : releaseWait s g sc = none ↔
    releaseReady (drainWcb s g.gid) { g with wcb := [] } sc (drainWcb s g.gid).nextId = true := by
  simp only [releaseWait, getG_drainWcb_same hg]
  split_ifs with ready <;> simp [ready]

section arrive
variable {s : State} {x : Issue} {t : Team} {b : Nat} (hg : getG s x.g.gid = some x.g) (fresh : arriveBad s x.g.gid t b x.g.num = none)
include hg fresh

theorem arriveBar_eq [Decidable (arrivesAtOnce s x.g)] : arriveBar s x t b = .inl (if arrivesAtOnce s x.g
    then barArriveNow (drainWcb s x.g.gid) x.g.team b x.g.num
    else launchOp (drainWcb s x.g.gid) x.g.gid x.g.ctx x.g.core .bar (.barArrive x.g.team b)) := by
  simp only [arriveBar, fresh, getG_drainWcb_same hg]
  refine congrArg Sum.inl (if_congr ?_ rfl rfl)
  rw [Bool.and_eq_true, ← releaseWait_none_iff_ready hg, drainWcb_pend hg, List.any_append, Bool.not_eq_true', Bool.or_eq_false_iff]
  refine and_congr_right' ⟨fun quiet f hf own u k hop => ?_, fun quiet => ⟨List.any_eq_false.2 fun f hf busy => ?_, ?_⟩⟩
  · exact List.any_eq_false.1 quiet.1 f hf (by simp [own, hop])
  · obtain ⟨own, arrives⟩ := Bool.and_eq_true_iff.1 busy
    split at arrives
    · next u k hop => exact quiet f hf (beq_iff_eq.1 own) u k hop
    · cases arrives
  · simp [wcbStore]

end arrive

/-! Words of a team barrier. -/

section bars
variable {s : State} {x : Issue} {w : SWord} {t : Team} {b n a p : Nat} (ht : teamOf s x.g = some t) (hb : b = barNum w)
  (bar : fget (0, 0, 0) b t.bars = (n, a, p))

section init
variable (h : Issues s (.barInit w) x) {k : Nat} (hk : k = (rs x.g w.a.toNat).toNat)
include ht hb h hk

theorem exec_barInit_badCount (bad : k = 0 ∨ 32 < k) : exec (.barInit w) s = .next (raised x s { cls := 0x0D, code := 1, index := b }) := by
  rw [exec_barInit, execBarInit, runWord_unmasked h rfl rfl]
  simp only [ht, ← hb, ← hk, if_pos bad, badW, settle_bad]

variable (pos : 1 ≤ k) (few : k ≤ 32)
include bar pos few

theorem exec_barInit_sets (idle : a = 0) :
    exec (.barInit w) s = .next (performed x (putT s { t with bars := fput (0, 0, 0) b (k, 0, p) t.bars })) := by
  have sound : ¬ (k = 0 ∨ 32 < k) := by omega
  rw [exec_barInit, execBarInit, runWord_unmasked h rfl rfl]
  simp only [ht, ← hb, ← hk, if_neg sound, barOf, bar, idle, Nat.lt_irrefl, if_false, barPhase_open p pos, setBar, settle_ok]

theorem exec_barInit_busy (busy : a ≠ 0) : exec (.barInit w) s = .next (raised x s { cls := 0x0D, code := 2, index := b }) := by
  have sound : ¬ (k = 0 ∨ 32 < k) := by omega
  rw [exec_barInit, execBarInit, runWord_unmasked h rfl rfl]
  simp only [ht, ← hb, ← hk, if_neg sound, barOf, bar, if_pos (Nat.pos_of_ne_zero busy), badW, settle_bad]

end init

/-! Whether an arrival is refused. -/

section refused
include bar

theorem arriveBad_uncounted (gid num : Nat) (uncounted : n = 0) : arriveBad s gid t b num = some { cls := 0x0D, code := 3, index := b } := by
  simp only [arriveBad, barOf, bar, uncounted, if_true]

variable (counted : n ≠ 0)
include counted

theorem arriveBad_again {gid num : Nat} (again : barArrived t b num = true ∨ barPending s gid b = true) :
    arriveBad s gid t b num = some { cls := 0x0D, code := 4, index := b } := by
  simp only [arriveBad, barOf, bar, if_neg counted, if_pos again]

theorem arriveBad_fresh {gid num : Nat} (absent : barArrived t b num = false) (idle : barPending s gid b = false) :
    arriveBad s gid t b num = none := by
  simp only [arriveBad, barOf, bar, if_neg counted, absent, idle, Bool.false_eq_true, or_self, if_false]

end refused

section words
variable (fresh : x.slot.park = none)
include ht hb

theorem exec_barArv_issues (h : Issues s (.barArv w) x) :
    exec (.barArv w) s = .next (settle x false ((arriveBar s x t b).elim .ok (.bad s))) := by
  rw [exec_barArv, execBarArv, runWord_unmasked h rfl rfl]
  simp only [ht, ← hb]
  cases arriveBar s x t b <;> rfl

/-- A group at a `bar.sync` that has arrived goes on or parks, by whether the phase is over. -/
theorem exec_barSync_issues (h : Issues s (.barSync w) x) (fresh : x.slot.park = none) :
    exec (.barSync w) s = .next (settle x false ((arriveBar s x t b).elim (fun s1 => if barDone s1 x.g b then .ok s1 else parkBar s1 x b)
      (.bad s))) := by
  rw [exec_barSync, execBarSync, runWord_unmasked h rfl rfl]
  simp only [ht, ← hb, fresh, Bool.false_eq_true, if_false]
  cases arriveBar s x t b <;> rfl

theorem exec_arrival_refused {i : Instr} (hi : i ∈ [Instr.barArv w, .barSync w]) (h : Issues s i x) (fresh : x.slot.park = none) {f : FInfo}
    (refused : arriveBad s x.g.gid t b x.g.num = some f) : exec i s = .next (raised x s f) := by
  have refuse : arriveBar s x t b = .inr f := by simp only [arriveBar, refused]
  simp only [List.mem_cons, List.not_mem_nil, or_false] at hi
  rcases hi with rfl | rfl
  · rw [exec_barArv_issues ht hb h, refuse, Sum.elim_inr, settle_bad]
  · rw [exec_barSync_issues ht hb h fresh, refuse, Sum.elim_inr, settle_bad]

section arrives
variable (accepted : arriveBad s x.g.gid t b x.g.num = none)
include accepted

theorem exec_barArv_once (h : Issues s (.barArv w) x) (once : arrivesAtOnce s x.g) :
    exec (.barArv w) s = .next (performed x (barArriveNow (drainWcb s x.g.gid) x.g.team b x.g.num)) := by
  classical
  rw [exec_barArv_issues ht hb h, arriveBar_eq (issuer_some h.1).2.1 accepted, if_pos once, Sum.elim_inl, settle_ok]

theorem exec_barArv_later (h : Issues s (.barArv w) x) (later : ¬ arrivesAtOnce s x.g) : exec (.barArv w) s = .next (performed x
    (launchOp (drainWcb s x.g.gid) x.g.gid x.g.ctx x.g.core .bar (.barArrive x.g.team b))) := by
  classical
  rw [exec_barArv_issues ht hb h, arriveBar_eq (issuer_some h.1).2.1 accepted, if_neg later, Sum.elim_inl, settle_ok]

/-- A group whose arrival at a `bar.sync` is registered at once goes on or parks, by whether that arrival ends the phase. -/
theorem exec_barSync_once (h : Issues s (.barSync w) x) (fresh : x.slot.park = none) (once : arrivesAtOnce s x.g) {s1 : State}
    (arrived : s1 = barArriveNow (drainWcb s x.g.gid) x.g.team b x.g.num) :
    exec (.barSync w) s = .next (settle x false (if barDone s1 x.g b then .ok s1 else parkBar s1 x b)) := by
  classical
  rw [exec_barSync_issues ht hb h fresh, arriveBar_eq (issuer_some h.1).2.1 accepted, if_pos once, Sum.elim_inl, arrived]

end arrives

/-! Waiting. -/

section wait
variable (h : Issues s (.barWait w) x)
include h

theorem exec_barWait_never (never : barLastOf t b x.g.num = 0) (idle : barPending s x.g.gid b = false) :
    exec (.barWait w) s = .next (raised x s { cls := 0x0D, code := 5, index := b }) := by
  rw [exec_barWait, execBarWait, runWord_unmasked h rfl rfl]
  simp [ht, ← hb, never, idle, badW]

theorem exec_barWait_over (once : barLastOf t b x.g.num ≠ 0) (idle : barPending s x.g.gid b = false) (absent : barArrived t b x.g.num = false) :
    exec (.barWait w) s = .next (performed x s) := by
  rw [exec_barWait, execBarWait, runWord_unmasked h rfl rfl]
  simp [ht, ← hb, once, barDone, idle, absent]

include bar in
theorem exec_barWait_parks (waits : barArrived t b x.g.num = true ∨ barPending s x.g.gid b = true) :
    exec (.barWait w) s = .next (regroupRelease (parked x s (.barrier b p)) x.g.team) := by
  have awaited : ¬ (barLastOf t b x.g.num = 0 ∧ (!barPending s x.g.gid b) = true) := by
    rintro ⟨never, idle⟩
    rcases waits with arrived | pending
    · exact Nat.succ_ne_zero _ ((of_decide_eq_true arrived).symm.trans never)
    · simp [pending] at idle
  have under : barDone s x.g b = false := by
    simp only [barDone, ht, Bool.and_eq_false_iff, Bool.not_eq_false']
    exact waits.symm
  rw [exec_barWait, execBarWait, runWord_unmasked h rfl rfl]
  simp only [ht, ← hb, if_neg awaited, under, Bool.false_eq_true, if_false, parkBar, barOf, bar, settle_done, parked]

end wait
end words
end bars

/-! Cluster barriers (R315). -/

section cbar
variable {s : State} {x : Issue} {w : SWord} {k : Cluster} {b n a p : Nat} (h : Issues s (.cbar w) x) (hk : clusterOf s x.g = some k)
  (hb : b = imm20 w % 4) (fresh : x.slot.park = none) (absent : cbarArrived k b x.g = false)
include h hk hb fresh absent

theorem exec_cbar_waits {s1 : State} {q : Park} (wait : releaseWait s x.g .cl = some (s1, q)) : exec (.cbar w) s = .next (parked x s1 q) := by
  rw [exec_cbar, execCbar, runWord_unmasked h rfl rfl]
  simp only [hk, ← hb, fresh, absent, Bool.false_eq_true, or_self, if_false, wait, settle_park]

variable (ready : releaseWait s x.g .cl = none) (bar : fget (0, 0, 0) b k.bars = (n, a, p)) {s1 : State}
  (arrived : s1 = putCl s { k with bars := fput (0, 0, 0) b (barPhase (n, a + 1, p)) k.bars,
                                   barLast := fput 0 (cbarKey b x.g.tidx x.g.num) (p + 1) k.barLast })
include ready bar arrived

theorem exec_cbar_last (some_ : 0 < n) (reached : n ≤ a + 1) : exec (.cbar w) s = .next (performed x s1) := by
  rw [exec_cbar, execCbar, runWord_unmasked h rfl rfl]
  rw [barPhase_over some_ reached] at arrived
  simp only [hk, ← hb, fresh, absent, Bool.false_eq_true, or_self, if_false, ready, cbarOf, bar, barPhase_over some_ reached,
    Nat.succ_ne_self, ← arrived, settle_ok]

theorem exec_cbar_parks (fewer : a + 1 < n) :
    exec (.cbar w) s = .next (regroupRelease (parked x s1 (.cbarrier b p)) x.g.team) := by
  rw [exec_cbar, execCbar, runWord_unmasked h rfl rfl]
  rw [barPhase_open p fewer] at arrived
  simp only [hk, ← hb, fresh, absent, Bool.false_eq_true, or_self, if_false, ready, cbarOf, bar, barPhase_open p fewer, if_true, ← arrived,
    settle_done, parked]

end cbar

/-- Settles O36: each word by the barrier's count and by what precedes the arrival. -/
theorem barrierWords : Obligations.BarrierWords := by
  refine ⟨⟨fun s x w t b n a p ht hb bar => ⟨fun k hk h => ⟨?sets, ?badCount, ?busy⟩, fun i hi h fresh => ⟨?uncounted, ?again⟩, ?arrive,
    fun h => ⟨?never, ?past, ?waits⟩, ?sync⟩, ?counts⟩, ?cluster⟩
  case sets => exact exec_barInit_sets ht hb bar h hk
  case badCount => exact exec_barInit_badCount ht hb h hk
  case busy => exact exec_barInit_busy ht hb bar h hk
  case uncounted => exact fun none_ => exec_arrival_refused ht hb hi h fresh (arriveBad_uncounted bar _ _ none_)
  case again => exact fun counted twice => exec_arrival_refused ht hb hi h fresh (arriveBad_again bar counted twice)
  case arrive =>
    intro h counted absent idle
    have accepted := arriveBad_fresh bar counted absent idle
    exact ⟨exec_barArv_once ht hb accepted h, fun later => exec_barArv_later ht hb accepted h (not_arrivesAtOnce.2 later)⟩
  case never => exact exec_barWait_never ht hb h
  case past => exact exec_barWait_over ht hb h
  case waits => exact exec_barWait_parks ht hb bar h
  case sync =>
    intro s1 arrived h fresh counted absent ready alone
    have idle := not_barPending_of_alone b alone
    have run := exec_barSync_once ht hb (arriveBad_fresh bar counted absent idle) h fresh ⟨ready, alone⟩ arrived
    refine ⟨fun past => ?_, fun under => ?_⟩
    · rw [run, if_pos past, settle_ok]
    · rw [run, under, if_neg Bool.false_ne_true]
      exact ⟨_, rfl⟩
  case counts =>
    intro s tid b num n a p t ht bar counted
    obtain ⟨t', found, last, count⟩ := barArriveNow_counts b num ht bar
    refine ⟨t', found, last, count.trans ?_⟩
    split_ifs with reached
    · exact barPhase_over (Nat.pos_of_ne_zero counted) reached
    · exact barPhase_open p (Nat.lt_of_not_le reached)
  case cluster =>
    intro s x w k b n a p h hk hb bar fresh absent
    exact ⟨fun s1 q => exec_cbar_waits h hk hb fresh absent, fun s1 ready arrived =>
      ⟨exec_cbar_last h hk hb fresh absent ready bar arrived, exec_cbar_parks h hk hb fresh absent ready bar arrived⟩⟩

end Sys2Proof.Proofs
end

section
/-! PROOF. Lehr headers in local memory and the lehr words (11_memory_sync.md R317 to R322). -/

namespace Sys2Proof.Proofs
open Sys2Proof Sys2Proof.Machine Sys2Proof.Laws

/-! A header in local memory (R317). -/

/-- A part of a row written to local memory is read as that part. -/
theorem lrd_lwr_at_ (t : Team) (off : Nat) (l : List Byte) {k n : Nat} (hn : k + n ≤ l.length) :
    lrd (lwr t (at_ off l)) (off + k) n = (l.drop k).take n := by
  refine List.ext_getElem (by simp [lrd]; omega) fun i hi _ => ?_
  have hin : i < n := by simpa [lrd] using hi
  simp only [lrd, List.getElem_map, List.getElem_range, List.getElem_take, List.getElem_drop, Nat.add_assoc, lwr]
  exact fget_fputs_at_ (fun _ => Iff.rfl) t.mem _

/-- A doubleword in a row written to local memory is read back. -/
theorem lrdN_lwr_doubleword (t : Team) (off x : Nat) {k : Nat} {before : List Byte} (hk : before.length = k) (after : List Byte) :
    lrdN (lwr t (at_ off (before ++ (toBytes 8 x ++ after)))) (off + k) 8 = x % 2 ^ 64 := by
  have read : lrd (lwr t (at_ off (before ++ (toBytes 8 x ++ after)))) (off + k) 8 = toBytes 8 x := by
    rw [lrd_lwr_at_ _ _ _ (by simp [hk]), List.drop_left' hk, List.take_left' (length_toBytes 8 x)]
  rw [lrdN, read, ofBytes_toBytes]

/-- Four doublewords in a row of local memory. -/
theorem lrdN_doublewords {t u : Team} {h : Nat} (a b c d : Nat) (hu : u = lwr t (at_ h (toBytes 8 a ++ toBytes 8 b ++ toBytes 8 c ++ toBytes 8 d))) :
    lrdN u h 8 = a % 2 ^ 64 ∧ lrdN u (h + 8) 8 = b % 2 ^ 64 ∧ lrdN u (h + 16) 8 = c % 2 ^ 64 ∧ lrdN u (h + 24) 8 = d % 2 ^ 64 := by
  have first := lrdN_lwr_doubleword t h a (before := []) rfl (toBytes 8 b ++ (toBytes 8 c ++ toBytes 8 d))
  have second := lrdN_lwr_doubleword t h b (length_toBytes 8 a) (toBytes 8 c ++ toBytes 8 d)
  have third := lrdN_lwr_doubleword t h c (k := 16) (before := toBytes 8 a ++ toBytes 8 b) (by simp) (toBytes 8 d)
  have fourth := lrdN_lwr_doubleword t h d (k := 24) (before := toBytes 8 a ++ (toBytes 8 b ++ toBytes 8 c)) (by simp) []
  simp only [hu, List.append_assoc, List.append_nil, List.nil_append] at first third fourth ⊢
  exact ⟨first, second, third, fourth⟩

/-- The fields of a header's first doubleword, each in its place. -/
theorem fld_lehrHead {l : Lehr} {q : Nat} (hq : q = (l.lines - 1) * 2 ^ 32 + (l.cnt - 1) * 2 ^ 24 + l.held * 2 ^ 16 + l.aw * 2 ^ 8 + l.wr)
    (some_ : 1 ≤ l.lines) (lines : l.lines ≤ 8192) (slots : 1 ≤ l.cnt) (cnt : l.cnt ≤ 64) (held : l.held ≤ 64) (aw : l.aw ≤ 64)
    (wr : l.wr < 64) : q % 2 ^ 64 = q ∧ fld q 32 13 + 1 = l.lines ∧ fld q 24 6 + 1 = l.cnt ∧ fld q 16 7 = l.held ∧ fld q 8 7 = l.aw ∧
      fld q 0 6 = l.wr := by
  simp only [fld_eq_div_mod]
  omega

theorem lehrRead_lehrWrite (t : Team) (h : Nat) {l : Lehr} (some_ : 1 ≤ l.lines) (lines : l.lines ≤ 8192) (slots : 1 ≤ l.cnt) (cnt : l.cnt ≤ 64)
    (held : l.held ≤ 64) (aw : l.aw ≤ 64) (wr : l.wr < 64) (filled : l.filled < 2 ^ 64) (fault : l.fault < 2 ^ 64) (time : l.time < 2 ^ 64) :
    lehrRead (lehrWrite t h l) h = l := by
  obtain ⟨q0, q1, q2, q3⟩ := lrdN_doublewords _ _ _ _ (lehrWrite.eq_1 t h l)
  obtain ⟨small, flines, fcnt, fheld, faw, fwr⟩ := fld_lehrHead rfl some_ lines slots cnt held aw wr
  simp only [lehrRead, q0, q1, q2, q3, small, Nat.mod_eq_of_lt filled, Nat.mod_eq_of_lt fault, Nat.mod_eq_of_lt time, flines, fcnt, fheld, faw,
    fwr]

/-! The slots of a lehr (R318). -/

theorem slotAddr_eq (h : Nat) (l : Lehr) (k : Nat) : slotAddr h l k = 128 * ((h + 159) / 128) + 128 * l.lines * k := by simp [slotAddr, cdiv]

theorem slotAddr_zero (h : Nat) (l : Lehr) : slotAddr h l 0 = 128 * ((h + 159) / 128) := by simp [slotAddr_eq]

theorem mcReturn_unowned (s : State) (gid h : Nat) {t : Team} {k : Nat} (unowned : fget 0 (h * 64 + k) t.mcOwner = 0) :
    mcReturn s gid t h k = putLehr s gid { t with mcOwner := fput 0 (h * 64 + k) 0 t.mcOwner } h := by
  rw [mcReturn, unowned]

/-! The words (R319 to R322). -/

section words
variable {s : State} {x : Issue} {w : SWord} {t : Team} {h : Nat} {l : Lehr} (ht : teamOf s x.g = some t)
  (hh : h = (rs x.g w.a.toNat).toNat) (sound : headerCheck t h = none)
include ht hh

section word
variable {i : Instr} (issues : Issues s i x) (hm : mselOf i = 0) (hp : perLaneOf i = false) {f : State → Issue → Team → Nat → Res}
include sound issues hm hp

/-- A lehr word at a sound header that performs is progress (R453). -/
theorem lehrWord_performs {s1 : State} (hf : f s x t h = .ok s1) : lehrWord i w s f = .next (performed x (progressed s1 x.g.ctx)) := by
  rw [lehrWord, runWord_unmasked issues hm hp]
  simp only [ht, ← hh, sound, hf, settle_ok]

theorem lehrWord_parks {s1 : State} {p : Park} (hf : f s x t h = .park s1 p) : lehrWord i w s f = .next (parked x s1 p) := by
  rw [lehrWord, runWord_unmasked issues hm hp]
  simp only [ht, ← hh, sound, hf, settle_park]

theorem lehrWord_faults {s1 : State} {e : FInfo} (hf : f s x t h = .bad s1 e) : lehrWord i w s f = .next (raised x s1 e) := by
  rw [lehrWord, runWord_unmasked issues hm hp]
  simp only [ht, ← hh, sound, hf, settle_bad]

end word

section init
variable {n z : Nat} (hn : n = (srcB x.g w).toNat) (hz : z = (srcC x.g w).toNat) (issues : Issues s (.lrInit w) x)
include hn hz issues

theorem exec_lrInit_writes (sound : headerCheck t h = none) (hl : l = lehrRead t h) (some_ : 1 ≤ n) (slots : n ≤ 64) (pos : 1 ≤ z)
    (lines : z ≤ 8192) (room : localBad t (128 * ((h + 159) / 128)) (128 * n * z) = none) (free : l.held = 0) :
    exec (.lrInit w) s = .next (performed x (progressed (putLehr s x.g.gid (lehrWrite { t with rel := fput 0 h 0 t.rel } h
      { lines := z, cnt := n, held := 0, aw := 0, wr := 0, filled := 0, fault := 0, time := 0 }) h) x.g.ctx)) := by
  have counts : ¬ (n = 0 ∨ 64 < n ∨ z = 0 ∨ 8192 < z) := by omega
  rw [exec_lrInit, execLrInit, runWord_unmasked issues rfl rfl]
  simp only [ht, ← hh, ← hn, ← hz, if_neg counts, slotAddr_zero, room, Option.isSome_none, Bool.false_eq_true, sound, ← hl, free, ne_eq,
    not_true_eq_false, if_false, settle_ok]

theorem exec_lrInit_badCounts (counts : n = 0 ∨ 64 < n ∨ z = 0 ∨ 8192 < z) :
    exec (.lrInit w) s = .next (raised x s { cls := 0x0E, code := 1, addr := h }) := by
  rw [exec_lrInit, execLrInit, runWord_unmasked issues rfl rfl]
  simp only [ht, ← hh, ← hn, ← hz, if_pos counts, badW, settle_bad]

end init

variable (hl : l = lehrRead t h)
include sound hl

section await
variable {r : Nat} (hr : r = (lehrRel t h + l.aw) % l.cnt)
include hr
omit ht hh sound

theorem awaitReady_eq (time : Nat) (htime : time = s.time) :
    awaitReady s t h = (decide (l.aw < l.held) && (l.fault.testBit r || (l.filled.testBit r && decide (l.time < time)))) := by
  rw [htime, hr, hl, awaitReady]

include ht hh sound
variable (issues : Issues s (.lrAwait w) x)
include issues

omit hl hr in
theorem exec_lrAwait_waits (early : awaitReady s t h = false) : exec (.lrAwait w) s = .next (parked x s (.await h)) := by
  rw [exec_lrAwait, execLrAwait]
  refine lehrWord_parks ht hh sound issues rfl rfl ?_
  rw [if_pos (.inr (by rw [early]; rfl))]

variable (first : awaitBefore s x.g x.b h = false) (ready : awaitReady s t h = true)
include first ready

theorem exec_lrAwait_filled (fine : l.fault.testBit r = false) :
    exec (.lrAwait w) s = .next (performed x (progressed (putLehr (putG s
      (ws x.g w.d.toNat (BitVec.ofNat 64 (128 * ((h + 159) / 128) + 128 * l.lines * r)))) x.g.gid (lehrSet t h { l with aw := l.aw + 1 }) h) x.g.ctx)) := by
  rw [exec_lrAwait, execLrAwait]
  refine lehrWord_performs ht hh sound issues rfl rfl ?_
  simp only [first, ready, Bool.not_true, Bool.false_eq_true, or_self, if_false, ← hl, ← hr, fine, slotAddr_eq, r64]

theorem exec_lrAwait_faulted {f : FInfo} (bad : l.fault.testBit r = true)
    (kept : t.slotFault.find? (fun e => e.1 == h && e.2.1 == r) = some (h, r, f)) : exec (.lrAwait w) s = .next (raised x s f) := by
  rw [exec_lrAwait, execLrAwait]
  refine lehrWord_faults ht hh sound issues rfl rfl ?_
  simp only [first, ready, Bool.not_true, Bool.false_eq_true, or_self, if_false, ← hl, ← hr, bad, if_true, kept]

end await

section rel
variable {r : Nat} (hr : r = lehrRel t h) (issues : Issues s (.lrRel w) x)
include hr issues

theorem exec_lrRel_releases (held : 1 ≤ l.held) (awaited : 1 ≤ l.aw) (fine : l.fault.testBit r = false)
    (unowned : fget 0 (h * 64 + r) t.mcOwner = 0) {t' : Team} (ht' : t' = lehrSet
      { t with rel := fput 0 h ((r + 1) % l.cnt) t.rel, slotFault := t.slotFault.filter (fun e => !(e.1 == h && e.2.1 == r)) } h
      { l with filled := setFld l.filled r 1 0, fault := setFld l.fault r 1 0, aw := l.aw - 1, held := l.held - 1 }) :
    exec (.lrRel w) s = .next (performed x (progressed (putLehr s x.g.gid { t' with mcOwner := fput 0 (h * 64 + r) 0 t'.mcOwner } h) x.g.ctx)) := by
  subst ht'
  have some_ : ¬ (l.held = 0 ∨ l.aw = 0) := by omega
  rw [exec_lrRel, execLrRel]
  refine lehrWord_performs ht hh sound issues rfl rfl ?_
  simp only [← hl, ← hr, fine, Bool.not_false, and_true, if_neg some_, Bool.false_eq_true, if_false]
  exact congrArg Res.ok (mcReturn_unowned s x.g.gid h unowned)

theorem exec_lrRel_none (none_ : l.held = 0 ∨ (l.aw = 0 ∧ l.fault.testBit r = false)) :
    exec (.lrRel w) s = .next (raised x s { cls := 0x0E, code := 4, addr := h, index := r }) := by
  rw [exec_lrRel, execLrRel]
  refine lehrWord_faults ht hh sound issues rfl rfl ?_
  simp only [← hl, ← hr, Bool.not_eq_true', if_pos none_, badW]

end rel

section fill
variable (issues : Issues s (.lrFill w) x)
include issues

theorem exec_lrFill_reserves (room : l.held < l.cnt) :
    exec (.lrFill w) s = .next (performed x (progressed (putLehr (putG s
      (ws x.g w.d.toNat (BitVec.ofNat 64 (128 * ((h + 159) / 128) + 128 * l.lines * ((lehrRel t h + l.held) % l.cnt))))) x.g.gid
      (lehrReserve t h).1 h) x.g.ctx)) := by
  rw [exec_lrFill, execLrFill]
  refine lehrWord_performs ht hh sound issues rfl rfl ?_
  simp only [lehrFull, ← hl, decide_eq_true_eq, if_neg (Nat.not_le_of_lt room), slotAddr_eq, r64, lehrReserve]

theorem exec_lrFill_full (full : l.cnt ≤ l.held) : exec (.lrFill w) s = .next (parked x s (.lehrFull t.tid h)) := by
  rw [exec_lrFill, execLrFill]
  refine lehrWord_parks ht hh sound issues rfl rfl ?_
  simp only [lehrFull, ← hl, decide_eq_true_eq, if_pos full]

end fill

omit hl

section put
variable (issues : Issues s (.lrFillPut w) x) (ordered : releaseWait s x.g .tm = none)
include issues ordered

theorem exec_lrFillPut_marks {k : Nat} (slot : slotAt t h (srcB x.g w).toNat = some k) :
    exec (.lrFillPut w) s = .next (performed x (progressed (putLehr s x.g.gid (lehrFill t h k 0) h) x.g.ctx)) := by
  rw [exec_lrFillPut, execLrFillPut]
  refine lehrWord_performs ht hh sound issues rfl rfl ?_
  simp only [ordered, slot]

theorem exec_lrFillPut_noSlot (slot : slotAt t h (srcB x.g w).toNat = none) :
    exec (.lrFillPut w) s = .next (raised x s { cls := 0x0E, code := 5, addr := h }) := by
  rw [exec_lrFillPut, execLrFillPut]
  refine lehrWord_faults ht hh sound issues rfl rfl ?_
  simp only [ordered, slot, badW]

end put

end words

/-- Settles O37: a header's doublewords are read back each by itself; a lehr word at a sound header does what its body does. -/
theorem lehrStatements : Obligations.LehrStatements := by
  unfold Obligations.LehrStatements
  refine ⟨fun t h l some_ lines slots cnt held aw wr filled fault time =>
    lehrRead_lehrWrite t h some_ lines slots cnt held aw wr filled fault time, fun s x w t h l ht hh sound hl =>
    ⟨fun n z hn hz issues => ⟨fun some_ slots pos lines room free => ?_, exec_lrInit_badCounts ht hh hn hz issues⟩,
      fun r hr issues first => ⟨fun held fine filled past => ?_, fun early => ?_, fun f held bad kept => ?_⟩,
      fun r hr issues => ⟨fun held awaited fine unowned => ⟨_, rfl, ?_⟩, exec_lrRel_none ht hh sound hl hr issues⟩,
      fun issues => ⟨exec_lrFill_reserves ht hh sound hl issues, exec_lrFill_full ht hh sound hl issues⟩,
      fun issues ordered => ⟨fun k => exec_lrFillPut_marks ht hh sound issues ordered, exec_lrFillPut_noSlot ht hh sound issues ordered⟩⟩⟩
  · exact exec_lrInit_writes ht hh hn hz issues sound hl some_ slots pos lines room free
  · exact exec_lrAwait_filled ht hh sound hl hr issues first (by simp [awaitReady_eq hl hr s.time rfl, held, filled, past]) fine
  · refine exec_lrAwait_waits ht hh sound issues ?_
    rw [awaitReady_eq hl hr s.time rfl]
    rcases early with none_ | ⟨fine, empty | later⟩
    · simp [none_]
    · simp [fine, empty]
    · simp [fine, later]
  · exact exec_lrAwait_faulted ht hh sound hl hr issues first (by simp [awaitReady_eq hl hr s.time rfl, held, bad]) bad kept
  · exact exec_lrRel_releases ht hh sound hl hr issues held awaited fine unowned rfl

end Sys2Proof.Proofs
end

section
/-! PROOF. Copy, halo and multicast words (11_memory_sync.md R323 to R328). -/

namespace Sys2Proof.Proofs
open Sys2Proof Sys2Proof.Machine Sys2Proof.Laws

/-! The operands' checks (R468 class 0x0F). -/

@[simp] theorem firstFault_nil : firstFault [] = none := rfl
@[simp] theorem firstFault_none (l : List (Option FInfo)) : firstFault (none :: l) = firstFault l := rfl
@[simp] theorem firstFault_some (e : FInfo) (l : List (Option FInfo)) : firstFault (some e :: l) = some e := rfl

theorem countBad_bad {n : Nat} (bad : n < 8 ∨ 2 ^ 30 < n ∨ n % 8 ≠ 0) : countBad n = some { cls := 0x0F, code := 1, index := n % 2 ^ 32 } :=
  if_pos bad

theorem countBad_good {n : Nat} (least : 8 ≤ n) (most : n ≤ 2 ^ 30) (whole : n % 8 = 0) : countBad n = none := if_neg (by omega)

theorem globalBad_good {a : Nat} (aligned : a % 8 = 0) (low : a < 2 ^ 57) : globalBad a = none := if_neg (by omega)

theorem offsetBad_good {a : Nat} (aligned : a % 8 = 0) : offsetBad a = none := if_neg fun h => h aligned

theorem rangeBad_good {t : Team} {a n : Nat} (inside : localBad t a n = none) : rangeBad t a n = none := by simp [rangeBad, inside]

/-! The lehr slot of a copy with .lr. -/

section slot
variable {s : State} {gid h n : Nat} {t : Team} (place : headerCheck t h = none) (room : lehrFull t h = false) (f : State → Team → Nat → Res)
include place room

theorem withSlot_reserves {fit : Bool} (fits : fit = true → n ≤ (lehrRead t h).lines * 128 ∧
    localBad t (slotAddr h (lehrRead t h) ((lehrRel t h + (lehrRead t h).held) % (lehrRead t h).cnt)) n = none) :
    withSlot s gid t h n fit f = f (wakeLocal s t.tid gid [h]) (lehrReserve t h).1 (lehrReserve t h).2 := by
  cases fit with
  | false => simp [withSlot, place, room]
  | true =>
    obtain ⟨small, inside⟩ := fits rfl
    simp [withSlot, place, room, inside, Nat.not_lt_of_le small]

end slot

/-! `cp.in`, `cp.out` and `cp.g` (R323 to R325). -/

section copies
variable {s : State} {x : Issue} {w : SWord} {t : Team} {a b n : Nat} (ht : teamOf s x.g = some t) (ha : a = (rs x.g w.a.toNat).toNat)
  (hb : b = (srcB x.g w).toNat) (hn : n = (srcC x.g w).toNat)
include ht hn

theorem exec_copy_badCount (bad : n < 8 ∨ 2 ^ 30 < n ∨ n % 8 ≠ 0) {i : Instr} (copies : i ∈ [Instr.cpIn w, .cpOut w, .cpG w]) (issues : Issues s i x) :
    exec i s = .next (raised x s { cls := 0x0F, code := 1, index := n % 2 ^ 32 }) := by
  simp only [List.mem_cons, List.not_mem_nil, or_false] at copies
  rcases copies with rfl | rfl | rfl
  · rw [exec_cpIn, execCpIn, runWord_unmasked issues rfl rfl]
    simp only [ht, ← hn, countBad_bad bad, firstFault_some, ite_self, settle_bad]
  · rw [exec_cpOut, execCpOut, runWord_unmasked issues rfl rfl]
    simp only [ht, ← hn, countBad_bad bad, firstFault_some, settle_bad]
  · rw [exec_cpG, execCpG, runWord_unmasked issues rfl rfl]
    simp only [ht, ← hn, countBad_bad bad, firstFault_some, settle_bad]

variable (least : 8 ≤ n) (most : n ≤ 2 ^ 30) (whole : n % 8 = 0) (evenB : b % 8 = 0) (lowB : b < 2 ^ 57) (evenA : a % 8 = 0)
include ha hb least most whole evenB lowB

section cin
variable (issues : Issues s (.cpIn w) x)
include issues

include evenA in
theorem exec_cpIn_issues (plain : lrS w = false) (inside : localBad t a n = none) :
    exec (.cpIn w) s = .next (performed x (issueCopy (putT s (clearLines t a n)) x
      { kind := .cin, team := t.tid, src := b, srcLocal := false, dst := a, bytes := n, slot := none, marks := [], hint := hintS w })) := by
  rw [exec_cpIn, execCpIn, runWord_unmasked issues rfl rfl]
  simp only [ht, ← ha, ← hb, ← hn, plain, Bool.false_eq_true, if_false, countBad_good least most whole, globalBad_good evenB lowB,
    offsetBad_good evenA, rangeBad_good inside, firstFault_none, firstFault_nil, settle_ok]

theorem exec_cpIn_reserves (lr : lrS w = true) (place : headerCheck t a = none) (fits : n ≤ (lehrRead t a).lines * 128)
    (inside : localBad t (slotAddr a (lehrRead t a) ((lehrRel t a + (lehrRead t a).held) % (lehrRead t a).cnt)) n = none)
    (room : lehrFull t a = false) {d : Nat} {s1 : State} (hd : d = slotAddr a (lehrRead (lehrReserve t a).1 a) (lehrReserve t a).2)
    (hs1 : s1 = issueCopy (putT (wakeLocal s t.tid x.g.gid [a]) (clearLines (lehrReserve t a).1 d n)) x
      { kind := .cin, team := t.tid, src := b, srcLocal := false, dst := d, bytes := n, slot := some (t.tid, a, (lehrReserve t a).2), marks := [],
        hint := hintS w }) :
    exec (.cpIn w) s = .next (performed x (putG s1 (ws ((getG s1 x.g.gid).getD x.g) w.d.toNat (BitVec.ofNat 64 d)))) := by
  rw [exec_cpIn, execCpIn, runWord_unmasked issues rfl rfl]
  simp only [ht, ← ha, ← hb, ← hn, lr, if_true, countBad_good least most whole, globalBad_good evenB lowB, firstFault_none, firstFault_nil,
    withSlot_reserves place room _ (fit := true) fun _ => ⟨fits, inside⟩, ← hd, ← hs1, okG, r64, settle_ok]

end cin

variable {h : Nat} (hh : h = (rs x.g w.d.toNat).toNat)

section cout
variable (issues : Issues s (.cpOut w) x) (inside : localBad t a n = none)
include issues inside evenA

theorem exec_cpOut_walks {p : Nat} (miss : rangeMiss s x.g b n 2 = some p) :
    exec (.cpOut w) s = .next (parked x (startWalk s x.g p) (.walk p)) := by
  rw [exec_cpOut, execCpOut, runWord_unmasked issues rfl rfl]
  simp only [ht, ← ha, ← hb, ← hn, countBad_good least most whole, globalBad_good evenB lowB, offsetBad_good evenA, rangeBad_good inside,
    firstFault_none, firstFault_nil, miss, settle_park]

variable (walked : rangeMiss s x.g b n 2 = none)
include walked

theorem exec_cpOut_issues (plain : lrS w = false) :
    exec (.cpOut w) s = .next (performed x (issueMarked s x
      { kind := .cout, team := t.tid, src := a, srcLocal := true, dst := b, bytes := n, slot := none, marks := [], hint := hintS w })) := by
  rw [exec_cpOut, execCpOut, runWord_unmasked issues rfl rfl]
  simp only [ht, ← ha, ← hb, ← hn, plain, Bool.false_eq_true, if_false, countBad_good least most whole, globalBad_good evenB lowB,
    offsetBad_good evenA, rangeBad_good inside, firstFault_none, firstFault_nil, walked, settle_ok]

include hh in
theorem exec_cpOut_reserves (lr : lrS w = true) (place : headerCheck t h = none) (room : lehrFull t h = false) :
    exec (.cpOut w) s = .next (performed x (issueMarked (putT (wakeLocal s t.tid x.g.gid [h]) (lehrReserve t h).1) x
      { kind := .cout, team := t.tid, src := a, srcLocal := true, dst := b, bytes := n, slot := some (t.tid, h, (lehrReserve t h).2), marks := [],
        hint := hintS w })) := by
  rw [exec_cpOut, execCpOut, runWord_unmasked issues rfl rfl]
  simp only [ht, ← ha, ← hb, ← hn, ← hh, lr, if_true, countBad_good least most whole, globalBad_good evenB lowB,
    offsetBad_good evenA, rangeBad_good inside, firstFault_none, firstFault_nil, walked,
    withSlot_reserves place room _ (fit := false) (fun fit => nomatch fit), settle_ok]

end cout

section cg
variable (issues : Issues s (.cpG w) x) (lowA : a < 2 ^ 57)
include issues lowA evenA

theorem exec_cpG_meets (before : a < b + n) (behind : b < a + n) : exec (.cpG w) s = .next (raised x s { cls := 0x0F, code := 4, addr := a }) := by
  rw [exec_cpG, execCpG, runWord_unmasked issues rfl rfl]
  simp only [ht, ← ha, ← hb, ← hn, countBad_good least most whole, globalBad_good evenB lowB, globalBad_good evenA lowA,
    if_pos (And.intro before behind), firstFault_none, firstFault_some, settle_bad]

variable (apart : a + n ≤ b ∨ b + n ≤ a)
include apart

theorem exec_cpG_walks {p : Nat} (miss : rangeMiss s x.g b n 2 = some p) :
    exec (.cpG w) s = .next (parked x (startWalk s x.g p) (.walk p)) := by
  have clear : ¬ (a < b + n ∧ b < a + n) := by omega
  rw [exec_cpG, execCpG, runWord_unmasked issues rfl rfl]
  simp only [ht, ← ha, ← hb, ← hn, countBad_good least most whole, globalBad_good evenB lowB, globalBad_good evenA lowA, if_neg clear,
    firstFault_none, firstFault_nil, miss, settle_park]

variable (walked : rangeMiss s x.g b n 2 = none)
include walked

theorem exec_cpG_issues (plain : lrS w = false) :
    exec (.cpG w) s = .next (performed x (issueMarked s x
      { kind := .cg, team := t.tid, src := a, srcLocal := false, dst := b, bytes := n, slot := none, marks := [], hint := hintS w })) := by
  have clear : ¬ (a < b + n ∧ b < a + n) := by omega
  rw [exec_cpG, execCpG, runWord_unmasked issues rfl rfl]
  simp only [ht, ← ha, ← hb, ← hn, plain, Bool.false_eq_true, if_false, countBad_good least most whole, globalBad_good evenB lowB,
    globalBad_good evenA lowA, if_neg clear, firstFault_none, firstFault_nil, walked, settle_ok]

include hh in
theorem exec_cpG_reserves (lr : lrS w = true) (place : headerCheck t h = none) (room : lehrFull t h = false) :
    exec (.cpG w) s = .next (performed x (issueMarked (putT (wakeLocal s t.tid x.g.gid [h]) (lehrReserve t h).1) x
      { kind := .cg, team := t.tid, src := a, srcLocal := false, dst := b, bytes := n, slot := some (t.tid, h, (lehrReserve t h).2), marks := [],
        hint := hintS w })) := by
  have clear : ¬ (a < b + n ∧ b < a + n) := by omega
  rw [exec_cpG, execCpG, runWord_unmasked issues rfl rfl]
  simp only [ht, ← ha, ← hb, ← hn, ← hh, lr, if_true, countBad_good least most whole, globalBad_good evenB lowB,
    globalBad_good evenA lowA, if_neg clear, firstFault_none, firstFault_nil, walked,
    withSlot_reserves place room _ (fit := false) (fun fit => nomatch fit), settle_ok]

end cg

end copies

/-! `cp.halo` (R326, R327). -/

section halo
variable {s : State} {x : Issue} {w : SWord} {t : Team} {cl : Cluster} {a : Nat} (issues : Issues s (.cpHalo w) x) (ht : teamOf s x.g = some t)
  (ha : a = (rs x.g w.a.toNat).toNat) (aligned : a % 32 = 0) (inside : localBad t a 32 = none) (present : absentLine t a 32 = none)
  (hcl : clusterOf s x.g = some cl)
include issues ht ha aligned inside present hcl

theorem exec_cpHalo_badDescriptor (bad : (haloDec (lrd t a 32)).good = false ∨ cl.w * cl.h ≤ (haloDec (lrd t a 32)).team) :
    exec (.cpHalo w) s = .next (raised x s { cls := 0x0F, code := 5, addr := a }) := by
  have even : a % 8 = 0 := by omega
  rw [exec_cpHalo, execCpHalo, runWord_unmasked issues rfl rfl]
  simp only [ht, ← ha, offsetBad_good even, rangeBad_good inside, aligned, ne_eq, not_true_eq_false, if_false, firstFault_none, firstFault_nil,
    present, hcl, Bool.not_eq_true', if_pos bad, badW, settle_bad]

variable {u : Team} {h : Halo} (hh : h = haloDec (lrd t a 32)) (hu : clusterTeamAny s x.g h.team = some u) (good : h.good = true)
  (named : h.team < cl.w * cl.h)
include hh hu good named

theorem exec_cpHalo_badRow {r : Nat} (row : haloRowBad t u h = some r) :
    exec (.cpHalo w) s = .next (raised x s { cls := 0x0F, code := 5, addr := a, index := r }) := by
  have even : a % 8 = 0 := by omega
  rw [exec_cpHalo, execCpHalo, runWord_unmasked issues rfl rfl]
  simp only [ht, ← ha, offsetBad_good even, rangeBad_good inside, aligned, ne_eq, not_true_eq_false, if_false, firstFault_none, firstFault_nil,
    present, hcl, ← hh, good, Bool.not_true, Bool.false_eq_true, false_or, if_neg (Nat.not_le_of_lt named), hu, Option.getD_some, row, badW,
    settle_bad]

theorem exec_cpHalo_issues (rows : haloRowBad t u h = none) :
    exec (.cpHalo w) s = .next (performed x (issueCopy (putT s ((haloLines h).foldl (fun t l => clearLines t (l * 128) 128) t)) x
      { kind := .halo, team := t.tid, src := a, srcLocal := true, dst := 0, bytes := h.rows * h.len, slot := none, marks := [], hint := hintS w,
        k := imm20 w % 4, phase := nextPhase cl (imm20 w % 4) x.g, desc := lrd t a 32 })) := by
  have even : a % 8 = 0 := by omega
  rw [exec_cpHalo, execCpHalo, runWord_unmasked issues rfl rfl]
  simp only [ht, ← ha, offsetBad_good even, rangeBad_good inside, aligned, ne_eq, not_true_eq_false, if_false, firstFault_none, firstFault_nil,
    present, hcl, ← hh, good, Bool.not_true, Bool.false_eq_true, false_or, if_neg (Nat.not_le_of_lt named), hu, Option.getD_some, rows,
    settle_ok]

end halo

/-! `cp.mc` (R328). -/

/-- A multicast has a receiver for each team of its mask, in order. -/
theorem mcIssue_teams (s : State) (g : Group) (h bytes sender : Nat) (ms : List Nat) :
    (mcIssue s g h bytes sender ms).2.map (fun r => r.team) = ms := by
  induction ms using List.reverseRecOn with
  | nil => rfl
  | append_singleton ms m ih =>
    rw [mcIssue, List.foldl_append, List.foldl_cons, List.foldl_nil, ← mcIssue]
    split
    · rw [List.map_append, ih, List.map_singleton]
    · dsimp only
      split <;> rw [List.map_append, ih, List.map_singleton]

section mc
variable {s : State} {x : Issue} {w : SWord} {t : Team} {cl : Cluster} {h b n mask : Nat} {ms live : List Nat} {c : McChan}
  (issues : Issues s (.cpMc w) x) (ht : teamOf s x.g = some t) (hcl : clusterOf s x.g = some cl) (hh : h = (rs x.g w.a.toNat).toNat)
  (hb : b = (srcB x.g w).toNat) (hn : n = (srcC x.g w).toNat) (hmask : mask = imm20 w % 4096)
  (hms : ms = (List.range 12).filter (fun m => mask.testBit m)) (hlive : live = ms.filter (fun m => (clusterTeam s x.g m).isSome))
  (least : 8 ≤ n) (most : n ≤ 2 ^ 30) (whole : n % 8 = 0) (evenB : b % 8 = 0) (lowB : w.f7.getLsbD 3 = false → b < 2 ^ 57)
  (inside : w.f7.getLsbD 3 = true → localBad t b n = none) (aligned : h % 32 = 0) (named : mask ≠ 0) (there : ∀ m ∈ ms, m < cl.w * cl.h)
  (channel : t.mc.length < 4 ∨ ∃ c ∈ t.mc, c.off = h)
  (fits : ∀ m ∈ live, ∀ u, clusterTeam s x.g m = some u → localBad u h 32 = none ∧ n ≤ (lehrRead u h).lines * 128)
  (hc : c = mcChannel s x.g t h ms)

include evenB lowB in
theorem mcSource_good : (if w.f7.getLsbD 3 then offsetBad b else globalBad b) = none := by
  split_ifs with loc
  · exact offsetBad_good evenB
  · exact globalBad_good evenB (lowB (Bool.eq_false_iff.2 loc))

include inside in
theorem mcRange_good : (if w.f7.getLsbD 3 then rangeBad t b n else none) = none :=
  ite_eq_right_iff.2 fun loc => rangeBad_good (inside loc)

include issues ht hcl hh hb hn hmask hms hlive least most whole evenB lowB inside aligned named there channel fits hc

/-- What a multicast whose operands pass their checks does. -/
theorem exec_cpMc_checked : exec (.cpMc w) s = .next (settle x false
    (if live.any (fun m => decide (fget 0 m c.free = 0)) then .park (putT s (putChannel t c)) (.mcZero h mask)
    else .ok (issueCopy
      (mcIssue (putT s (putChannel t { c with free := live.foldl (fun f m => fput 0 m (fget 0 m f - 1) f) c.free })) x.g h n t.tid ms).1 x
      { kind := .mc, team := t.tid, src := b, srcLocal := w.f7.getLsbD 3, dst := h, bytes := n, slot := none, marks := [], hint := hintS w,
        recv := (mcIssue (putT s (putChannel t { c with free := live.foldl (fun f m => fput 0 m (fget 0 m f - 1) f) c.free })) x.g h n t.tid ms).2 }))) := by
  have living : ms.filter (fun m => !mcGone s x.g m) = live := by
    simp only [hlive, mcGone, Option.not_isNone]
  have roomy {f : Nat → Bool} (hf : ∀ m ∈ live, f m = false) : ¬ ((decide True && live.any f) = true) := by
    simpa using hf
  have sound : ¬ (mask = 0 ∨ ms.any (fun m => decide (cl.w * cl.h ≤ m)) = true) := by
    simpa [named] using there
  have free : ¬ (4 ≤ t.mc.length ∧ t.mc.all (fun c => c.off != h) = true) := by
    rintro ⟨four, others⟩
    rcases channel with few | ⟨c, hc, own⟩
    · omega
    · simpa [own] using List.all_eq_true.1 others c hc
  rw [exec_cpMc, execCpMc, runWord_unmasked issues rfl rfl]
  simp only [ht, hcl, ← hh, ← hb, ← hn, ← hmask, mcTeams, ← hms, living, countBad_good least most whole, mcSource_good evenB lowB,
    mcRange_good inside, if_neg sound, firstFault_none, aligned, ne_eq, not_true_eq_false, if_false, if_neg free, ← hc]
  rw [if_neg (roomy fun m hm => ?_), firstFault_none, firstFault_none, firstFault_nil]
  split
  · next u hu =>
    obtain ⟨whole, big⟩ := fits m hm u hu
    simp [whole, Nat.not_lt_of_le big]
  · rfl

theorem exec_cpMc_waits (empty : ∃ m ∈ live, fget 0 m c.free = 0) :
    exec (.cpMc w) s = .next (parked x (putT s (putChannel t c)) (.mcZero h mask)) := by
  rw [exec_cpMc_checked issues ht hcl hh hb hn hmask hms hlive least most whole evenB lowB inside aligned named there channel fits hc,
    if_pos (by simpa using empty), settle_park]

theorem exec_cpMc_issues (counts : ∀ m ∈ live, fget 0 m c.free ≠ 0) {q : State × List McRecv}
    (hq : q = mcIssue (putT s (putChannel t { c with free := live.foldl (fun f m => fput 0 m (fget 0 m f - 1) f) c.free })) x.g h n t.tid ms) :
    exec (.cpMc w) s = .next (performed x (issueCopy q.1 x
      { kind := .mc, team := t.tid, src := b, srcLocal := w.f7.getLsbD 3, dst := h, bytes := n, slot := none, marks := [], hint := hintS w,
        recv := q.2 })) := by
  rw [exec_cpMc_checked issues ht hcl hh hb hn hmask hms hlive least most whole evenB lowB inside aligned named there channel fits hc,
    if_neg (by simpa using counts), settle_ok, hq]

end mc

/-- Settles O38: what each copy word does once its operands pass their checks. -/
theorem copyAndHaloWords : Obligations.CopyAndHaloWords := by
  unfold Obligations.CopyAndHaloWords
  refine ⟨fun s x w t a b n h hint ht ha hb hn hh hhint => ⟨fun bad i copies issues => exec_copy_badCount ht hn bad copies issues,
      fun least most whole evenB lowB evenA => ⟨fun issues plain inside => ?_, fun d s1 issues lr place fits inside room hd hs1 => ?_,
        fun p miss => ⟨fun issues inside => ?_, fun issues lowA apart => ?_⟩,
        fun walked => ⟨fun issues plain inside => ?_, fun lowA apart issues plain => ?_, fun s2 hs2 lr place room =>
          ⟨fun issues inside => ?_, fun lowA apart issues => ?_⟩⟩,
        fun lowA before behind issues => ?_⟩⟩,
    fun s x w t u cl a k h issues ht ha hk aligned inside present hh hu hcl good named => ⟨fun rows => ?_, fun r row => ?_⟩,
    fun s x w t cl a issues ht ha aligned inside present hcl bad => exec_cpHalo_badDescriptor issues ht ha aligned inside present hcl bad,
    fun s x w t cl h b n mask ms live c issues ht hcl hh hb hn hmask hms hlive least most whole evenB lowB inside aligned named there channel
      fits hc => ⟨fun empty => ?_, fun q hq counts => ⟨?_, ?_⟩⟩⟩
  · exact hhint ▸ exec_cpIn_issues ht ha hb hn least most whole evenB lowB evenA issues plain inside
  · exact exec_cpIn_reserves ht ha hb hn least most whole evenB lowB issues lr place fits inside room hd (by rw [hs1, hhint]; rfl)
  · exact exec_cpOut_walks ht ha hb hn least most whole evenB lowB evenA issues inside miss
  · exact exec_cpG_walks ht ha hb hn least most whole evenB lowB evenA issues lowA apart miss
  · exact hhint ▸ exec_cpOut_issues ht ha hb hn least most whole evenB lowB evenA issues inside walked plain
  · exact hhint ▸ exec_cpG_issues ht ha hb hn least most whole evenB lowB evenA issues lowA apart walked plain
  · exact hhint ▸ hs2 ▸ exec_cpOut_reserves ht ha hb hn least most whole evenB lowB evenA hh issues inside walked lr place room
  · exact hhint ▸ hs2 ▸ exec_cpG_reserves ht ha hb hn least most whole evenB lowB evenA hh issues lowA apart walked lr place room
  · exact exec_cpG_meets ht ha hb hn least most whole evenB lowB evenA issues lowA before behind
  · exact hk ▸ exec_cpHalo_issues issues ht ha aligned inside present hcl hh hu good named rows
  · exact exec_cpHalo_badRow issues ht ha aligned inside present hcl hh hu good named row
  · exact exec_cpMc_waits issues ht hcl hh hb hn hmask hms hlive least most whole evenB lowB inside aligned named there channel fits hc empty
  · rw [hq, mcIssue_teams]
  · exact exec_cpMc_issues issues ht hcl hh hb hn hmask hms hlive least most whole evenB lowB inside aligned named there channel fits hc counts hq

end Sys2Proof.Proofs
end

section
/-! PROOF. Copies, halos, multicasts and tower shares as they come about (11_memory_sync.md R323 to R328, 13_tower_network.md R361 to R371). -/

namespace Sys2Proof.Proofs
open Sys2Proof Sys2Proof.Machine Sys2Proof.Laws

/-! A copy with one source and one destination range (R324, R325, R480). -/

theorem landLines_cin {s : State} {c : Copy} {t : Team} (kind : c.kind = .cin) (ht : getT s c.team = some t) (done : Nat) :
    landLines s c done = putT s (setLines t (linesBetween c.dst c.bytes c.at_ done)) := by
  rw [landLines, kind, ht]

theorem landLines_global {s : State} {c : Copy} (kind : c.kind ≠ .cin) (done : Nat) : landLines s c done = s := by
  rw [landLines]
  split
  · next hk _ => exact absurd hk kind
  · rfl

theorem fillSlot_some {s : State} {c : Copy} {tid h k : Nat} {t : Team} (slot : c.slot = some (tid, h, k)) (ht : getT s tid = some t) (time : Nat) :
    fillSlot s c time = putLehr s 0 (lehrFill t h k time) h := by
  rw [fillSlot, slot]
  simp only [ht]

theorem faultSlot_some {s : State} {c : Copy} {tid h k : Nat} {t : Team} (slot : c.slot = some (tid, h, k)) (ht : getT s tid = some t) (time : Nat)
    (e : FInfo) : faultSlot s c time e = putLehr s 0 (lehrFaultSlot t h k time e) h := by
  rw [faultSlot, slot]
  simp only [ht]

theorem faultSlot_none {s : State} {c : Copy} (slot : c.slot = none) (time : Nat) (e : FInfo) : faultSlot s c time e = s := by
  rw [faultSlot, slot]

theorem copyFailed_kept (s : State) (f : Flight) {e : FInfo} (sound : e.cls ≠ 0x19) :
    copyFailed s f e = addDue s f { cls := .copy, info := e } 5 := if_neg sound

section copies
variable {s : State} {id : Nat} {f : Flight} {c : Copy} (hf : getF s id = some f) (hop : f.op = .copy c) (turn : engineTurn s f = true)
include hf hop turn

section range
variable (kind : c.kind = .cin ∨ c.kind = .cout ∨ c.kind = .cg)
include kind

section run
variable {n : Nat} {p : Prog} (hp : p = runCopy s f c n)
include hp

theorem exec_copyComplete_ends (wait : p.wait = false) (good : p.bad = none) (whole : p.done = c.bytes) :
    exec (.copyComplete ⟨id, n⟩) s = .next (dropF (fillSlot (if c.kind = .cin then landLines p.s c c.bytes
      else feedWct (landLines p.s c c.bytes) f.gid p.wct) c p.wct) id) := by
  have done : ¬ (p.wait = true ∨ p.bad.isSome = true ∨ p.done ≠ c.bytes) := by simp [wait, good, whole]
  rw [exec_copyComplete, execCopyComplete]
  simp only [hf, hop, if_pos (And.intro kind turn), ← hp, if_neg done]
  rw [whole]

theorem exec_copyComplete_pauses (stops : p.wait = true ∨ p.bad ≠ none ∨ p.done ≠ c.bytes) :
    exec (.copyComplete ⟨id, n⟩) s = .next (pauseCopy p f c) := by
  rw [← Option.isSome_iff_ne_none] at stops
  rw [exec_copyComplete, execCopyComplete]
  simp only [hf, hop, if_pos (And.intro kind turn), ← hp, if_pos stops]

end run

theorem exec_copyFault_stops {q : Prog} {e : FInfo} (hq : q = runCopy s f c 0) (bad : q.bad = some e) :
    exec (.copyFault id) s = .next (copyFailed (dropF (faultSlot (if c.kind = .cin then
        faultLines (landLines q.s c q.done) c.team (splitLines c.dst c.bytes q.done).2 q.done
      else feedWct (landLines q.s c q.done) f.gid q.wct) c q.wct { e with unit := c.slot.elim 0 (fun r => r.2.2) }) id) f
        { e with unit := c.slot.elim 0 (fun r => r.2.2) }) := by
  have one : c.kind ≠ .halo ∧ c.kind ≠ .mc := by rcases kind with k | k | k <;> simp [k]
  rw [exec_copyFault, execCopyFault]
  simp only [hf, hop, if_neg one.1, if_pos (And.intro one.2 turn), ← hq, bad]
  cases c.slot <;> rfl

end range

/-! A halo's rows (R326, R327). -/

section halo
variable {n done : Nat} {u t t1 : Team} {units : List (Nat × Nat)} (kind : c.kind = .halo) (phase : haloPhase s c = true)
  (hu : haloSource s f c = some u) (ht : getT s c.team = some t) (hunits : units = haloNext u (haloDec c.desc) c.at_ n)
  (moved : haloMove t u (haloDec c.desc) c.at_ units = (t1, done))
include kind phase hu ht hunits moved

theorem exec_haloSourceRead_ends (whole : done = c.bytes) : exec (.haloSourceRead ⟨id, n⟩) s =
    .next (dropF (wakeLocal (putT s t1) t.tid 0 (units.map (fun p => p.2))) id) := by
  rw [exec_haloSourceRead, execHaloSourceRead]
  simp only [hf, hop, if_pos (And.intro kind (And.intro turn phase)), hu, ht, ← hunits, moved, if_pos whole]

theorem exec_haloSourceRead_goesOn (more : done ≠ c.bytes) : exec (.haloSourceRead ⟨id, n⟩) s =
    .next (putF (wakeLocal (putT s t1) t.tid 0 (units.map (fun p => p.2))) { f with op := .copy { c with at_ := done } }) := by
  rw [exec_haloSourceRead, execHaloSourceRead]
  simp only [hf, hop, if_pos (And.intro kind (And.intro turn phase)), hu, ht, ← hunits, moved, if_neg more]

end halo

/-! A multicast's receivers (R328, R482, R484). -/

section mc
variable {m n : Nat} {t u : Team} {r : McRecv} (kind : c.kind = .mc) (ht : getT s c.team = some t)
  (hr : c.recv.find? (fun r => r.team == m) = some r)
  (hu : s.teams.find? (fun u => u.ctx == f.ctx && u.grid == t.grid && u.cluster == t.cluster && u.tidx == m && !u.task) = some u)
include kind ht hr hu

theorem exec_cpMcDelivery_gone (gone : u.retired = true) : exec (.cpMcDelivery ⟨id, n⟩ m) s =
    .next (endMc (serviceRecord (putT s { u with inbound := u.inbound - (if r.counted then 1 else 0) }) f.ctx
      { cls := 0x1D, code := 1, eng := 1, unit := m, index := r.at_ } 0) f (mcServed c m)) := by
  rw [exec_cpMcDelivery, execCpMcDelivery]
  simp only [hf, hop, ht, hr, if_pos (And.intro kind turn), hu, if_pos gone]

theorem exec_cpMcDelivery_serves (here : u.retired = false) {s1 : State} {c1 : Copy} {u1 : Team} (read : mcRead s f c n = (s1, c1, none))
    (hu1 : getT s1 u.tid = some u1) : exec (.cpMcDelivery ⟨id, n⟩ m) s =
    .next (endMc (progressed (mcServe s1 c1 u1 r).1 f.ctx) f (mcServe s1 c1 u1 r).2) := by
  rw [exec_cpMcDelivery, execCpMcDelivery]
  simp only [hf, hop, ht, hr, if_pos (And.intro kind turn), hu, here, Bool.false_eq_true, if_false, read, hu1, Option.getD_some]

end mc

end copies

section receiver
variable {s : State} {c : Copy} {u : Team} {r : McRecv} {k : Nat} (slot : r.slot = some k)
include slot

theorem mcServe_whole (whole : c.data.length = c.bytes) (fits : mcSlotBad u c.dst k c.bytes = false) :
    (mcServe s c u r).2 = mcServed c r.team := by
  simp only [mcServe, slot, mcLand, fits, Bool.false_eq_true, if_false, if_pos whole]

theorem mcServe_refuses (bad : mcSlotBad u c.dst k c.bytes = true) : mcServe s c u r =
    mcRefuse s c u r k (copyInfo 2 (slotAddr c.dst (lehrRead u c.dst) k) 0) := by
  simp only [mcServe, slot, mcLand, bad, if_true]

end receiver

theorem mcSlotBad_iff {u : Team} {h k bytes : Nat} : mcSlotBad u h k bytes = true ↔
    (lehrRead u h).lines * 128 < bytes ∨ (localBad u (slotAddr h (lehrRead u h) k) bytes).isSome = true := by
  simp only [mcSlotBad, Bool.or_eq_true, decide_eq_true_eq]

theorem endMc_served (s : State) (f : Flight) {c : Copy} (none_ : c.recv = []) (fine : c.failed = []) : endMc s f c = dropF s f.id := by
  simp only [endMc, none_, List.isEmpty_nil, if_true, fine, lowestFailed, List.foldl_nil]

/-! Tower shares (R361, R371, R488). -/

section shares
variable {s : State} {id : Nat} {f : Flight} {sh : Share} (hf : getF s id = some f) (hop : f.op = .share sh) (turn : shareTurn s f sh = true)
include hf hop turn

theorem exec_towerBlockComplete_run (kind : sh.kind = .run) (begun : sh.begun = true) (last : sh.block.length ≤ sh.idx) :
    exec (.towerBlockComplete id) s = .next (finishShare s f sh sh.status.toNat 0) := by
  rw [exec_towerBlockComplete, execTowerBlockComplete]
  simp only [hf, hop, turn, Bool.not_true, Bool.false_eq_true, if_false, kind, if_pos (And.intro begun last)]

theorem exec_towerBlockComplete_xin (kind : sh.kind = .xin) : exec (.towerBlockComplete id) s = .next (shareIn s f sh) := by
  rw [exec_towerBlockComplete, execTowerBlockComplete]
  simp only [hf, hop, turn, Bool.not_true, Bool.false_eq_true, if_false, kind]

theorem exec_towerBlockComplete_xout (kind : sh.kind = .xout) : exec (.towerBlockComplete id) s = .next (shareOut s f sh) := by
  rw [exec_towerBlockComplete, execTowerBlockComplete]
  simp only [hf, hop, turn, Bool.not_true, Bool.false_eq_true, if_false, kind]

end shares

section share
variable {s : State} {f : Flight} {sh : Share} {rows : Nat × Nat} (hrows : rows = (sh.row, sh.w))
include hrows

theorem shareIn_moves {pas : List Nat} {s1 : State} {data : List Byte} (bc : sh.bc = none)
    (pages : towerPages s f sh.tower (shareRange sh).1 (shareRange sh).2 1 = .ok pas) (read : towerRead s f sh.hint pas = some (.inr (s1, data)))
    (clean : caneErrors s1 sh.canes [] rows = []) :
    shareIn s f sh = finishShare (caneMend (moveIn s1 sh data).1 sh.canes rows) f sh (moveIn s1 sh data).2 0 := by
  rw [shareIn]
  simp only [bc, pages, read, ← hrows, clean]

section broadcast
variable {v : W64} (bc : sh.bc = some v)
include bc

theorem shareIn_broadcast (clean : caneErrors s sh.canes [] rows = []) :
    shareIn s f sh = finishShare (caneMend (moveIn s sh []).1 sh.canes rows) f sh (moveIn s sh []).2 0 := by
  rw [shareIn]
  simp only [bc, ← hrows, clean]

theorem shareIn_broadcast_error {g : Nat} {r : List Nat} (bad : caneErrors s sh.canes [] rows = g :: r) :
    shareIn s f sh = checkShare s f sh 8 (g / 16) := by
  rw [shareIn]
  simp only [bc, ← hrows, bad]

end broadcast

section out
variable {pas : List Nat} (pages : towerPages s f sh.tower (shareRange sh).1 (shareRange sh).2 2 = .ok pas)
include pages

theorem shareOut_writes (clean : caneErrors s sh.canes [rows] (0, 0) = []) (free : engineFree s f.ctx sh.hint (pas.zip (moveOut s sh)) = true) :
    shareOut s f sh = finishShare (engineWrite s f.ctx sh.hint (pas.zip (moveOut s sh))).1 f sh 0
      (engineWrite s f.ctx sh.hint (pas.zip (moveOut s sh))).2 := by
  rw [shareOut]
  simp only [pages, ← hrows, clean, free, Bool.not_true, Bool.false_eq_true, if_false]

theorem shareOut_error {g : Nat} {r : List Nat} (bad : caneErrors s sh.canes [rows] (0, 0) = g :: r) :
    shareOut s f sh = checkShare s f sh 8 (g / 16) := by
  rw [shareOut]
  simp only [pages, ← hrows, bad]

end out

end share

theorem shareOut_stops {s : State} {f : Flight} {sh : Share} {e : FInfo}
    (pages : towerPages s f sh.tower (shareRange sh).1 (shareRange sh).2 2 = .bad e) : shareOut s f sh = stopShare s f sh e := by
  rw [shareOut]
  simp only [pages]

theorem shareOut_walks {s : State} {f : Flight} {sh : Share} {p : Nat}
    (pages : towerPages s f sh.tower (shareRange sh).1 (shareRange sh).2 2 = .walk p) :
    shareOut s f sh = flightWalk s f (128 + sh.tower) p := by
  rw [shareOut]
  simp only [pages]

/-! What a share leaves of status (R371). -/

/-- Is an operation a share of this word? -/
def shareOfWord (gid word : Nat) (o : Flight) : Bool := o.gid == gid && (match o.op with | .share t => t.word == word | _ => false)

theorem wordStatus_counts {s : State} {gid word : Nat} {g : Group} (last : s.pend.find? (shareOfWord gid word) = none)
    (hg : getG s gid = some g) (st : BitVec 2) : wordStatus s gid word st = putG s { g with tstat := g.tstat ||| st } := by
  unfold wordStatus
  dsimp only
  split
  · next o ho => exact absurd (last.symm.trans ho) nofun
  · simp only [hg]

theorem wordStatus_passes {s : State} {gid word : Nat} {o : Flight} {t : Share} (next_ : s.pend.find? (shareOfWord gid word) = some o)
    (hop : o.op = .share t) (st : BitVec 2) : wordStatus s gid word st = putF s { o with op := .share { t with carry := t.carry ||| st } } := by
  unfold wordStatus
  dsimp only
  split
  · next q hq =>
    obtain rfl : o = q := Option.some.inj (next_.symm.trans hq)
    simp only [hop]
  · next none_ => exact absurd (next_.symm.trans none_) nofun

theorem shareOfWord_share {gid word : Nat} {o : Flight} (share : shareOfWord gid word o = true) : ∃ t, o.op = .share t := by
  obtain ⟨-, isShare⟩ := Bool.and_eq_true_iff.1 share
  split at isShare
  · next t hop => exact ⟨t, hop⟩
  · cases isShare

/-- A group whose tower words and completion times reach up to a time. -/
def towerTimed (g : Group) (wct : Nat) : Group := { g with twTime := max g.twTime wct, wct := max g.wct wct }

section finish
variable {s : State} {f : Flight} {sh : Share} {g : Group} (hg : getG s f.gid = some g) (st wct : Nat)
include hg

theorem finishShare_found : finishShare s f sh st wct =
    wordStatus (putG (dropF s f.id) (towerTimed g wct)) f.gid sh.word (sh.carry ||| BitVec.ofNat 2 st) := by
  have here : getG (dropF s f.id) f.gid = some g := hg
  rw [finishShare]
  simp only [here, towerTimed]

theorem getG_putG_towerTimed : getG (putG (dropF s f.id) (towerTimed g wct)) f.gid = some (towerTimed g wct) := by
  have hid := getG_gid hg
  rw [← hid] at hg ⊢
  exact getG_putG_same (g := towerTimed g wct) (s := dropF s f.id) hg

variable {mate : Flight → Bool} (hmate : ∀ o, mate o = (o.id != f.id && shareOfWord f.gid sh.word o))
include hmate

omit hg in
theorem find?_mate : (putG (dropF s f.id) (towerTimed g wct)).pend.find? (shareOfWord f.gid sh.word) = s.pend.find? mate := by
  rw [putG_pend, dropF, List.find?_filter]
  congr 1
  funext o
  rw [hmate, Bool.decide_and, Bool.decide_eq_true, Bool.decide_eq_true]

/-- The last share of a word leaves its group the word's status. -/
theorem finishShare_last (last : s.pend.find? mate = none) : finishShare s f sh st wct =
    putG (putG (dropF s f.id) (towerTimed g wct)) { towerTimed g wct with tstat := g.tstat ||| (sh.carry ||| BitVec.ofNat 2 st) } := by
  rw [finishShare_found hg]
  exact wordStatus_counts ((find?_mate wct hmate).trans last) (getG_putG_towerTimed hg wct) _

/-- A share that is not the last of its word leaves another one its status. -/
theorem finishShare_more {o : Flight} {t : Share} (next_ : s.pend.find? mate = some o) (hop : o.op = .share t) :
    finishShare s f sh st wct = putF (putG (dropF s f.id) (towerTimed g wct))
      { o with op := .share { t with carry := t.carry ||| (sh.carry ||| BitVec.ofNat 2 st) } } := by
  rw [finishShare_found hg]
  exact wordStatus_passes ((find?_mate wct hmate).trans next_) hop _

theorem finishShare_status : ∃ g', getG (finishShare s f sh st wct) f.gid = some g' ∧ g'.twTime = max g.twTime wct ∧ g'.wct = max g.wct wct ∧
    (finishShare s f sh st wct).mem = s.mem ∧
    ((∀ o ∈ s.pend, mate o = false) → g'.tstat = g.tstat ||| (sh.carry ||| BitVec.ofNat 2 st)) ∧
    (∀ o t, s.pend.find? mate = some o → o.op = .share t → g'.tstat = g.tstat ∧
      getF (finishShare s f sh st wct) o.id = some { o with op := .share { t with carry := t.carry ||| (sh.carry ||| BitVec.ofNat 2 st) } }) := by
  have here := getG_putG_towerTimed hg wct
  cases found : s.pend.find? mate with
  | none =>
    rw [finishShare_last hg st wct hmate found]
    refine ⟨{ towerTimed g wct with tstat := g.tstat ||| (sh.carry ||| BitVec.ofNat 2 st) }, ?_, rfl, rfl, rfl, fun _ => rfl, fun o t next_ _ => nomatch next_⟩
    have hid : (towerTimed g wct).gid = f.gid := getG_gid here
    rw [← hid] at here ⊢
    exact getG_putG_same (g := { towerTimed g wct with tstat := g.tstat ||| (sh.carry ||| BitVec.ofNat 2 st) }) here
  | some o =>
    have left : o ∈ (putG (dropF s f.id) (towerTimed g wct)).pend := List.mem_of_find?_eq_some ((find?_mate wct hmate).trans found)
    have isMate : mate o = true := List.find?_some found
    obtain ⟨t, hop⟩ := shareOfWord_share (Bool.and_eq_true_iff.1 ((hmate o).symm.trans isMate)).2
    rw [finishShare_more hg st wct hmate found hop]
    refine ⟨towerTimed g wct, here, rfl, rfl, rfl, fun none_ => ?_, fun o' t' ho hop' => ⟨rfl, ?_⟩⟩
    · exact absurd ((none_ o (List.mem_of_find?_eq_some found)).symm.trans isMate) Bool.false_ne_true
    · obtain rfl := Option.some.inj ho
      obtain rfl := Op.share.inj (hop.symm.trans hop')
      obtain ⟨q, hq⟩ := Option.isSome_iff_exists.1 ((List.find?_isSome (p := fun q => q.id == o.id)).2 ⟨o, left, beq_self_eq_true o.id⟩)
      exact getF_putF_same (f := { o with op := .share { t with carry := t.carry ||| (sh.carry ||| BitVec.ofNat 2 st) } }) (f0 := q) hq

end finish

/-! Scrubs and way-pair switches (R112, R113, R489). -/

section scrub
variable {s : State} {tower arr row : Nat} {c : Context} (owner : pairOwner s (arr / 384) = some c) (there : tower < 16) (inside : row < 1024)
include owner

include there inside in
theorem exec_towerScrub_bad (bad : rowBad s tower arr row = true) : exec (.towerScrub tower (some (arr, row))) s =
    .next (stopCtx (serviceRecord s c.ctx { cls := 0x19, code := 8, addr := arr * 1024 + row, unit := tower, eng := 9 } 0) c.ctx 0x19) := by
  have found : ¬ (16 ≤ tower ∨ 1024 ≤ row ∨ (!rowBad s tower arr row) = true) := by simp [bad, there, inside]
  rw [exec_towerScrub, execTowerScrub]
  simp only [owner, if_neg found]

theorem exec_towerScrub_good (good : rowBad s tower arr row = false) : exec (.towerScrub tower (some (arr, row))) s = .next s := by
  rw [exec_towerScrub, execTowerScrub]
  simp only [owner, good, Bool.not_false, or_true, if_true]

end scrub

/-- A switch zeroes the pair's arrays with their check bits, drops the lines of its ways and is noted (R112). -/
theorem exec_towerCaneSwitch_zeroes {s : State} {tower pair : Nat} {w : Wait} (hw : s.waits = [w]) (code : w.code = 4)
    (named : w.pairs.testBit pair = true) (open_ : (tower, pair) ∉ w.done) (there : tower < 16) :
    exec (.towerCaneSwitch tower pair) s = .next { zeroPair
      { s with llc := s.llc.filter (fun c => !(towerOf (c.line * 1024) == tower && c.way / 2 == pair)) } tower pair with
      waits := [{ w with done := w.done ++ [(tower, pair)] }] } := by
  have there' : ¬ 16 ≤ tower := Nat.not_le_of_lt there
  rw [exec_towerCaneSwitch, execTowerCaneSwitch]
  simp [hw, code, named, open_, there', zeroPair, replaceFirst]

/-- Settles O52: copies and tower shares end, pause and stop as their events say; a share's status passes on until its word is over. -/
theorem copyAndTowerEvents : Obligations.CopyAndTowerEvents := by
  unfold Obligations.CopyAndTowerEvents
  refine ⟨⟨fun s id n f c p hf hop turn hp kind => ⟨fun wait good whole => ⟨fun cin t ht => ?_, fun other => ?_⟩, fun stops walk => ?_,
        fun g f1 walk hf1 wait => ?_, fun q e hq bad sound => ⟨fun other slot => ?_, fun t tid h k cin slot ht => ?_⟩⟩,
      fun s c time tid h k t slot ht => ⟨fillSlot_some slot ht time, faultSlot_some slot ht time⟩,
      fun s id n done f c u t t1 units hf hop kind turn phase hu ht hunits moved =>
        ⟨exec_haloSourceRead_ends hf hop turn kind phase hu ht hunits moved, exec_haloSourceRead_goesOn hf hop turn kind phase hu ht hunits moved⟩,
      fun s id m n f c t u r hf hop kind turn ht hr hu => ⟨exec_cpMcDelivery_gone hf hop turn kind ht hr hu,
        fun s1 c1 u1 here read hu1 => exec_cpMcDelivery_serves hf hop turn kind ht hr hu here read hu1⟩,
      fun s f c u r k slot => ⟨mcServe_whole slot, mcServe_refuses slot, mcSlotBad_iff, endMc_served s f⟩⟩,
    fun s id f sh rows hf hop turn hrows => ⟨exec_towerBlockComplete_run hf hop turn, fun pas s1 data kind bc pages read clean => ?_,
      fun v kind bc => ⟨fun clean => ?_, fun g r bad => ?_⟩, fun pas kind pages => ⟨fun clean free => ?_, fun g r bad => ?_⟩,
      fun e kind pages => ?_, fun p kind pages => ?_⟩,
    fun s f sh g st wct mate hg hmate => finishShare_status hg st wct fun o => by rw [hmate]; exact Bool.and_assoc _ _ _,
    fun s tower arr row c owner there inside => ⟨exec_towerScrub_bad owner there inside, exec_towerScrub_good owner⟩, fun s tower => rfl,
    fun s tower pair w hw code named open_ there => ⟨_, exec_towerCaneSwitch_zeroes hw code named open_ there, fun p hp => ?_, fun p hp other => ?_,
      fun p hp => ?_, fun c hc => ?_, rfl, rfl, rfl⟩⟩
  · rw [exec_copyComplete_ends hf hop turn kind hp wait good whole, if_pos cin, landLines_cin cin ht]
  · rw [exec_copyComplete_ends hf hop turn kind hp wait good whole, if_neg other, landLines_global other]
  · rw [exec_copyComplete_pauses hf hop turn kind hp stops, pauseCopy]
    simp only [walk]
  · rw [exec_copyComplete_pauses hf hop turn kind hp (.inl wait), pauseCopy]
    simp only [walk, hf1]
  · rw [exec_copyFault_stops hf hop turn kind hq bad, if_neg other, landLines_global other, faultSlot_none slot, slot, Option.elim_none]
    exact congrArg Host.Outcome.next (copyFailed_kept (e := { e with unit := 0 }) _ _ sound)
  · rw [exec_copyFault_stops hf hop turn kind hq bad, if_pos cin, landLines_cin cin ht, slot, Option.elim_some]
    exact congrArg Host.Outcome.next (copyFailed_kept (e := { e with unit := k }) _ _ sound)
  · rw [exec_towerBlockComplete_xin hf hop turn kind, shareIn_moves hrows bc pages read clean]
  · rw [exec_towerBlockComplete_xin hf hop turn kind, shareIn_broadcast hrows bc clean]
  · rw [exec_towerBlockComplete_xin hf hop turn kind, shareIn_broadcast_error hrows bc bad]
  · rw [exec_towerBlockComplete_xout hf hop turn kind, shareOut_writes hrows pages clean free]
  · rw [exec_towerBlockComplete_xout hf hop turn kind, shareOut_error hrows pages bad]
  · rw [exec_towerBlockComplete_xout hf hop turn kind, shareOut_stops pages]
  · rw [exec_towerBlockComplete_xout hf hop turn kind, shareOut_walks pages]
  · simpa using (List.mem_filter.1 hp).2
  · exact List.mem_filter.2 ⟨hp, by simpa using other⟩
  · simpa using (List.mem_filter.1 hp).2
  · exact fun ⟨here, way⟩ => absurd (List.mem_filter.1 hc).2 (by simp [here, way])

end Sys2Proof.Proofs
end

section
/-! PROOF. Bytes of a group's stores on their way to the homes (04_memory.md R103, 05_ordering.md R134): the buffer as it fills, and the last
byte issued for an address. -/

namespace Sys2Proof.Proofs
open Sys2Proof Sys2Proof.Machine Sys2Proof.Laws

/-! The last byte at an address. -/

theorem lastAt_eq_getLast? {β : Type} (p : Nat) (l : List (Nat × β)) : lastAt p l = ((l.filter (fun q => q.1 == p)).getLast?).map Prod.snd := by
  induction l using List.reverseRecOn with
  | nil => rfl
  | append_singleton l q ih =>
    rw [lastAt_concat, List.filter_append]
    by_cases here : q.1 = p
    · rw [if_pos here, List.filter_singleton, beq_iff_eq.2 here, cond_true, List.getLast?_concat, Option.map_some]
    · rw [if_neg here, List.filter_singleton, beq_false_of_ne here, cond_false, List.append_nil, ih]

theorem lastAt_of_unique {β : Type} {p : Nat} {b : β} {l : List (Nat × β)} (here : (p, b) ∈ l) (same : ∀ q ∈ l, q.1 = p → q.2 = b) :
    lastAt p l = some b := by
  have kept : (p, b) ∈ l.filter (fun q => q.1 == p) := List.mem_filter.2 ⟨here, beq_self_eq_true p⟩
  rw [lastAt_eq_getLast?, List.getLast?_eq_some_getLast (List.ne_nil_of_mem kept), Option.map_some]
  obtain ⟨there, at_p⟩ := List.mem_filter.1 (List.getLast_mem (List.ne_nil_of_mem kept))
  exact congrArg some (same _ there (beq_iff_eq.1 at_p))

/-- Of bytes at an address whose serial numbers rise, the newest is the last. -/
theorem newestAt_of_rising {p : Nat} {l : List (Nat × Byte × Nat)} (rises : (l.filter (fun q => q.1 == p)).Pairwise (fun a b => a.2.2 ≤ b.2.2)) :
    newestAt p l = ((l.filter (fun q => q.1 == p)).getLast?).map Prod.snd := by
  induction l using List.reverseRecOn with
  | nil => rfl
  | append_singleton l q ih =>
    have step : newestAt p (l ++ [q]) = if q.1 ≠ p then newestAt p l else (newestAt p l).elim (some q.2) (fun b =>
        if b.2 ≤ q.2.2 then some q.2 else some b) := by
      rw [newestAt, List.foldl_append, List.foldl_cons, List.foldl_nil, ← newestAt]
      cases newestAt p l <;> rfl
    rw [List.filter_append] at rises ⊢
    obtain ⟨before, -, upTo⟩ := List.pairwise_append.1 rises
    rw [step, ih before]
    by_cases here : q.1 = p
    · rw [if_neg (not_not.2 here), List.filter_singleton, beq_iff_eq.2 here, cond_true, List.getLast?_concat, Option.map_some]
      cases last : (l.filter (fun q => q.1 == p)).getLast? with
      | none => rfl
      | some b => exact if_pos (upTo b (List.mem_of_getLast? last) q (by simp [here]))
    · rw [if_pos here, List.filter_singleton, beq_false_of_ne here, cond_false, List.append_nil]

/-! The bytes of a waiting line. -/

theorem byteMap_at {lo : Nat} {m : FMap (Option Byte)} (formed : fwfFrom none lo m = true) (p : Nat) :
    (m.filterMap (fun q => q.2.map (fun b => (q.1, b)))).filter (fun q => q.1 == p) = ((fget none p m).map (fun b => (p, b))).toList := by
  induction m generalizing lo with
  | nil => rfl
  | cons q r ih =>
    obtain ⟨k, v⟩ := q
    simp only [fwfFrom, Bool.and_eq_true, decide_eq_true_eq] at formed
    obtain ⟨⟨-, some_⟩, rest⟩ := formed
    obtain ⟨b, rfl⟩ := Option.ne_none_iff_exists'.1 some_
    rw [show ((k, some b) :: r).filterMap (fun q => q.2.map (fun b => (q.1, b))) = (k, b) :: r.filterMap (fun q => q.2.map (fun b => (q.1, b)))
      from rfl, fget]
    by_cases here : p = k
    · rw [List.filter_cons_of_pos (by simp [here]), ih rest, fget_lt_of_fwfFrom none (by omega) rest, if_pos here, here]
      rfl
    · rw [List.filter_cons_of_neg (by simpa using Ne.symm here), ih rest, if_neg here]

/-- The bytes at an address that a buffer holds, with the serial numbers of their lines. -/
def heldAt (p : Nat) (wcb : List Wcb) : List (Nat × Byte × Nat) := wcb.flatMap (fun e => ((fget none p e.bytes).map (fun b => (p, b, e.id))).toList)

/-- The bytes of a waiting line, with its serial number. -/
def lineBytes (e : Wcb) : List (Nat × Byte × Nat) := (wcbBytes e).map (fun x => (x.1, x.2, e.id))

theorem lineBytes_at {e : Wcb} (formed : fwf none e.bytes = true) (p : Nat) :
    (lineBytes e).filter (fun q => q.1 == p) = ((fget none p e.bytes).map (fun b => (p, b, e.id))).toList := by
  have line := byteMap_at formed p
  rw [lineBytes, List.filter_map]
  refine (congrArg (List.map _) line).trans ?_
  cases fget none p e.bytes <;> rfl

theorem heldAt_append (p : Nat) (l r : List Wcb) : heldAt p (l ++ r) = heldAt p l ++ heldAt p r := List.flatMap_append

theorem heldAt_cons (p : Nat) (e : Wcb) (l : List Wcb) : heldAt p (e :: l) = ((fget none p e.bytes).map (fun b => (p, b, e.id))).toList ++ heldAt p l :=
  List.flatMap_cons

theorem flatMap_lineBytes_at {wcb : List Wcb} (formed : ∀ e ∈ wcb, fwf none e.bytes = true) (p : Nat) :
    (wcb.flatMap lineBytes).filter (fun q => q.1 == p) = heldAt p wcb := by
  rw [List.filter_flatMap, heldAt, List.flatMap_def, List.flatMap_def]
  exact congrArg List.flatten (List.map_congr_left fun e he => lineBytes_at (formed e he) p)

/-! The buffer while bytes are merged into it. -/

/-- What holds of the bytes at an address while a group's bytes are merged: `sent` are those that have left the buffer, `v` is the last. A line
of the address has a serial number not below those of the bytes sent before it opened. -/
structure Waiting (p : Nat) (sent : List (Nat × Byte × Nat)) (wcb : List Wcb) (next : Nat) (v : Option Byte) : Prop where
  ids : wcb.Pairwise (fun a b => a.id < b.id)
  below : ∀ e ∈ wcb, e.id < next
  lines : wcb.Pairwise (fun a b => a.line ≠ b.line)
  formed : ∀ e ∈ wcb, fwf none e.bytes = true
  elsewhere : ∀ e ∈ wcb, e.line ≠ p / 128 → fget none p e.bytes = none
  old : ∀ q ∈ sent, q.2.2 ≤ next
  before : ∀ e ∈ wcb, e.line = p / 128 → ∀ q ∈ sent, q.2.2 ≤ e.id
  rises : sent.Pairwise (fun a b => a.2.2 ≤ b.2.2)
  last : ((sent ++ heldAt p wcb).getLast?).map (fun q => q.2.1) = v

section waiting
variable {p next : Nat} {sent : List (Nat × Byte × Nat)} {wcb before after : List Wcb} {v : Option Byte} {e : Wcb}

theorem heldAt_elsewhere (elsewhere : ∀ y ∈ wcb, y.line ≠ p / 128 → fget none p y.bytes = none) (others : ∀ y ∈ wcb, y.line ≠ p / 128) :
    heldAt p wcb = [] :=
  List.flatMap_eq_nil_iff.2 fun y hy => by rw [elsewhere y hy (others y hy)]; rfl

theorem mem_heldAt {q : Nat × Byte × Nat} (hq : q ∈ heldAt p wcb) : ∃ y ∈ wcb, q.2.2 = y.id ∧ fget none p y.bytes ≠ none := by
  obtain ⟨y, hy, here⟩ := List.mem_flatMap.1 hq
  obtain ⟨b, hb, rfl⟩ := Option.map_eq_some_iff.1 (Option.mem_toList.1 here)
  exact ⟨y, hy, rfl, by simp [hb]⟩

theorem Waiting.pairwise (h : Waiting p sent wcb next v) : (sent ++ heldAt p wcb).Pairwise (fun a b => a.2.2 ≤ b.2.2) := by
  refine List.pairwise_append.2 ⟨h.rises, ?_, fun q hq y hy => ?_⟩
  · refine List.pairwise_flatMap.2 ⟨fun e _ => by cases fget none p e.bytes <;> simp, h.ids.imp fun {a b} less x hx y hy => ?_⟩
    obtain ⟨c, -, rfl⟩ := Option.map_eq_some_iff.1 (Option.mem_toList.1 hx)
    obtain ⟨d, -, rfl⟩ := Option.map_eq_some_iff.1 (Option.mem_toList.1 hy)
    exact less.le
  · obtain ⟨e, he, hid, holds⟩ := mem_heldAt hy
    exact hid ▸ h.before e he (by_contra fun other => holds (h.elsewhere e he other)) q hq

/-- Of a line and those beside it, only one can be the line of an address. -/
theorem Waiting.alone (h : Waiting p sent (before ++ e :: after) next v) (line : e.line = p / 128) : heldAt p before = [] ∧ heldAt p after = [] := by
  obtain ⟨-, later, earlier⟩ := List.pairwise_append.1 h.lines
  obtain ⟨later, -⟩ := List.pairwise_cons.1 later
  exact ⟨heldAt_elsewhere (fun y hy => h.elsewhere y (by simp [hy])) fun y hy => line ▸ earlier y hy e (by simp),
    heldAt_elsewhere (fun y hy => h.elsewhere y (by simp [hy])) fun y hy => line ▸ (later y hy).symm⟩

variable {a : Nat} {b : Byte}

theorem fput_elsewhere {m : FMap (Option Byte)} (other : a / 128 ≠ p / 128) (none_ : fget none p m = none) : fget none p (fput none a (some b) m) = none := by
  rw [fget_fput_other none (by rintro rfl; exact other rfl), none_]

theorem Waiting.opens (h : Waiting p sent wcb next v) (fresh : ∀ y ∈ wcb, y.line ≠ a / 128) (id : e.id = next) (line : e.line = a / 128)
    (bytes : e.bytes = fput none a (some b) []) : Waiting p sent (wcb ++ [e]) (next + 1) (if a = p then some b else v) where
  ids := List.pairwise_append.2 ⟨h.ids, List.pairwise_singleton _ _, fun y hy z hz => by
    rw [List.mem_singleton.1 hz, id]; exact h.below y hy⟩
  below := List.forall_mem_append.2 ⟨fun y hy => Nat.lt_succ_of_lt (h.below y hy), by simp [id]⟩
  lines := List.pairwise_append.2 ⟨h.lines, List.pairwise_singleton _ _, fun y hy z hz => by
    rw [List.mem_singleton.1 hz, line]; exact fresh y hy⟩
  formed := List.forall_mem_append.2 ⟨h.formed, by simpa [bytes] using fwf_fput none a (some b) (m := []) rfl⟩
  elsewhere := List.forall_mem_append.2 ⟨h.elsewhere, by
    simpa [bytes, line] using fun other => fput_elsewhere (b := b) other (m := []) rfl⟩
  old := fun q hq => Nat.le_succ_of_le (h.old q hq)
  before := List.forall_mem_append.2 ⟨h.before, by simpa [id] using fun _ a b c => h.old (a, b, c)⟩
  rises := h.rises
  last := by
    rw [heldAt_append, ← List.append_assoc, heldAt_cons, bytes, fget_fput, id]
    split_ifs with here other other
    · simp [heldAt]
    · exact absurd here.symm other
    · exact absurd other.symm here
    · simpa [heldAt, fget] using h.last

theorem Waiting.joins {e1 : Wcb} (h : Waiting p sent (before ++ e :: after) next v) (id : e1.id = e.id) (line : e1.line = e.line)
    (there : e.line = a / 128) (bytes : e1.bytes = fput none a (some b) e.bytes) :
    Waiting p sent (before ++ e1 :: after) next (if a = p then some b else v) where
  ids := by simpa [List.pairwise_append, List.pairwise_cons, id] using h.ids
  below := by simpa only [List.forall_mem_append, List.forall_mem_cons, id] using h.below
  lines := by simpa [List.pairwise_append, List.pairwise_cons, line] using h.lines
  formed := by
    have formed := h.formed
    simp only [List.forall_mem_append, List.forall_mem_cons, bytes] at formed ⊢
    exact ⟨formed.1, fwf_fput none a (some b) formed.2.1, formed.2.2⟩
  elsewhere := by
    have elsewhere := h.elsewhere
    simp only [List.forall_mem_append, List.forall_mem_cons, bytes, line] at elsewhere ⊢
    exact ⟨elsewhere.1, fun other => fput_elsewhere (there ▸ other) (elsewhere.2.1 other), elsewhere.2.2⟩
  old := h.old
  before := by simpa only [List.forall_mem_append, List.forall_mem_cons, id, line] using h.before
  rises := h.rises
  last := by
    rw [heldAt_append, heldAt_cons, bytes, fget_fput, id]
    split_ifs with here other other
    · obtain ⟨none1, none2⟩ := h.alone (there.trans (congrArg (· / 128) other))
      simp [none1, none2]
    · exact absurd here.symm other
    · exact absurd other.symm here
    · rw [← heldAt_cons, ← heldAt_append]
      exact h.last

/-- A line that leaves the buffer takes its bytes with it. -/
theorem Waiting.sends (h : Waiting p sent (before ++ e :: after) next v) :
    Waiting p (sent ++ ((fget none p e.bytes).map (fun b => (p, b, e.id))).toList) (before ++ after) next v := by
  have part : (before ++ after).Sublist (before ++ e :: after) := List.Sublist.append_left (List.sublist_cons_self e after) before
  have sub := part.subset
  have here : e ∈ before ++ e :: after := by simp
  have kept : ∀ q ∈ ((fget none p e.bytes).map (fun b => (p, b, e.id))).toList, q.2.2 = e.id ∧ e.line = p / 128 := by
    intro q hq
    obtain ⟨b, hb, rfl⟩ := Option.map_eq_some_iff.1 (Option.mem_toList.1 hq)
    exact ⟨rfl, by_contra fun other => by simp [h.elsewhere e here other] at hb⟩
  refine ⟨h.ids.sublist part, fun y hy => h.below y (sub hy), h.lines.sublist part, fun y hy => h.formed y (sub hy),
    fun y hy => h.elsewhere y (sub hy), List.forall_mem_append.2 ⟨h.old, fun q hq => ?_⟩, fun y hy line =>
      List.forall_mem_append.2 ⟨h.before y (sub hy) line, fun q hq => ?_⟩, List.pairwise_append.2 ⟨h.rises, ?_, fun q hq z hz => ?_⟩, ?_⟩
  · exact (kept q hq).1 ▸ (h.below e here).le
  · have elsewhere : y.line ≠ e.line := by
      obtain ⟨-, later, earlier⟩ := List.pairwise_append.1 h.lines
      obtain ⟨later, -⟩ := List.pairwise_cons.1 later
      rcases List.mem_append.1 hy with hy | hy
      · exact earlier y hy e (by simp)
      · exact (later y hy).symm
    exact absurd (line.trans (kept q hq).2.symm) elsewhere
  · cases fget none p e.bytes <;> simp
  · rw [(kept z hz).1]
    exact h.before e here (kept z hz).2 q hq
  · rw [← h.last]
    by_cases line : e.line = p / 128
    · obtain ⟨none1, none2⟩ := h.alone line
      simp [heldAt_append, heldAt_cons, none1, none2]
    · simp [heldAt_append, heldAt_cons, h.elsewhere e here line]

end waiting

/-! The group's buffer in the state. -/

/-- A line that a byte opens. -/
def openedLine (s : State) (gid hint : Nat) (loose : List Nat) (a : Nat) (b : Byte) : Wcb :=
  { id := s.nextId, line := a / 128, since := s.time, bytes := fput none a (some b) [], hint := hint, by_ := slotBit s gid, pc := wordAt s gid,
    lanes := lanesAt s gid, loose := wcbLoose [] a (loose.contains a) }

/-- A waiting line that a byte has joined. -/
def joinedLine (s : State) (gid hint : Nat) (loose : List Nat) (a : Nat) (b : Byte) (e : Wcb) : Wcb :=
  { e with bytes := fput none a (some b) e.bytes, hint := hint, by_ := e.by_ ||| slotBit s gid, loose := wcbLoose e.loose a (loose.contains a) }

/-- A line on its way to its home. -/
def lineFlight (g : Group) (gid hint : Nat) (e : Wcb) : Flight :=
  { id := e.id, word := e.id, gid := gid, ctx := g.ctx, core := g.core, cls := .stcomp, op := .store (wcbBytes e) none hint false, by_ := e.by_,
    pc := e.pc, lanes := e.lanes, loose := e.loose }

section put
variable {s : State} {gid hint a : Nat} {g : Group} {loose : List Nat} {b : Byte}

theorem wcbPut_cons (s : State) (gid hint : Nat) (loose : List Nat) (q : Nat × Byte) (rest : List (Nat × Byte)) :
    wcbPut s gid hint loose (q :: rest) = wcbPut (wcbPut s gid hint loose [q]) gid hint loose rest := rfl

variable (hg : getG s gid = some g)
include hg

theorem wcbPut_opens (new : g.wcb.find? (fun e => e.line == a / 128) = none) : wcbPut s gid hint loose [(a, b)] =
    { putG s { g with wcb := g.wcb ++ [openedLine s gid hint loose a b] } with nextId := s.nextId + 1 } := by
  simp only [wcbPut, List.foldl_cons, List.foldl_nil, hg, new, openedLine]

variable {e : Wcb} (found : g.wcb.find? (fun e => e.line == a / 128) = some e)
include found

theorem wcbPut_joins (room : (fput none a (some b) e.bytes).length < 128) : wcbPut s gid hint loose [(a, b)] =
    putG s { g with wcb := replaceFirst (fun y => y.id == e.id) (fun _ => joinedLine s gid hint loose a b e) g.wcb } := by
  simp only [wcbPut, List.foldl_cons, List.foldl_nil, hg, found, if_neg (Nat.not_le_of_lt room), joinedLine]

theorem wcbPut_fills (full : 128 ≤ (fput none a (some b) e.bytes).length) : wcbPut s gid hint loose [(a, b)] =
    { putG s { g with wcb := g.wcb.filter (fun y => y.id != e.id) } with
      pend := s.pend ++ [lineFlight g gid hint (joinedLine s gid hint loose a b e)] } := by
  simp only [wcbPut, List.foldl_cons, List.foldl_nil, hg, found, if_pos full, joinedLine, lineFlight, putG_pend]

end put

/-! What a group has on its way. -/

/-- The bytes of a group's store in flight, with its serial number. -/
def flightBytes (gid : Nat) (f : Flight) : List (Nat × Byte × Nat) :=
  match f.op with
  | .store b _ _ _ => if f.gid = gid then b.map (fun x => (x.1, x.2, f.id)) else []
  | _ => []

/-- The bytes at an address that a group's stores in flight write. -/
def sentAt (s : State) (gid p : Nat) : List (Nat × Byte × Nat) := (s.pend.flatMap (flightBytes gid)).filter (fun q => q.1 == p)

theorem ownPending_eq (s : State) (gid : Nat) : ownPending s gid =
    s.pend.flatMap (flightBytes gid) ++ s.groups.flatMap (fun g => if g.gid = gid then g.wcb.flatMap lineBytes else []) := by
  refine congrArg₂ (· ++ ·) (congrArg (fun f => s.pend.flatMap f) (funext fun f => ?_)) (congrArg (fun f => s.groups.flatMap f) (funext fun g => ?_))
  · rw [flightBytes]
    cases f.op <;> simp
  · simp only [beq_iff_eq]
    rfl

theorem sentAt_append {s t : State} {l : List Flight} (pend : t.pend = s.pend ++ l) (gid p : Nat) :
    sentAt t gid p = sentAt s gid p ++ (l.flatMap (flightBytes gid)).filter (fun q => q.1 == p) := by
  rw [sentAt, pend, List.flatMap_append, List.filter_append, ← sentAt]

theorem replaceFirst_append_cons {α : Type} {q : α → Bool} {before : List α} {y : α} (none_ : ∀ x ∈ before, q x = false) (here : q y = true)
    (f : α → α) (after : List α) : replaceFirst q f (before ++ y :: after) = before ++ f y :: after := by
  induction before with
  | nil => simp [replaceFirst, here]
  | cons x l ih =>
    rw [List.forall_mem_cons] at none_
    simp [replaceFirst, none_.1, ih none_.2]

/-- While a group's bytes are merged its other holders of the number stay as they are, and `v` is the last byte at the address. -/
structure Merging (p : Nat) (before after : List Group) (gid : Nat) (v : Option Byte) (s : State) (g : Group) : Prop where
  groups : s.groups = before ++ g :: after
  gid_eq : g.gid = gid
  first : ∀ h ∈ before, h.gid ≠ gid
  others : ∀ h ∈ after, h.gid = gid → (h.wcb.flatMap lineBytes).filter (fun q => q.1 == p) = []
  waiting : Waiting p (sentAt s gid p) g.wcb s.nextId v

section merging
variable {p gid : Nat} {before after : List Group} {v : Option Byte} {s : State} {g : Group} (h : Merging p before after gid v s g)
include h

theorem Merging.getG : getG s gid = some g := by
  rw [Machine.getG, h.groups]
  exact List.find?_eq_some_iff_append.2 ⟨beq_iff_eq.2 h.gid_eq, before, after, rfl, fun x hx => by simpa using h.first x hx⟩

theorem Merging.putG {g1 : Group} (same : g1.gid = gid) : (putG s g1).groups = before ++ g1 :: after := by
  rw [putG_groups, h.groups]
  exact replaceFirst_append_cons (fun x hx => by simpa [same] using h.first x hx) (by simp [same, h.gid_eq]) _ _

/-- What the group has on its way to the address. -/
theorem Merging.pending : (ownPending s gid).filter (fun q => q.1 == p) = sentAt s gid p ++ heldAt p g.wcb := by
  have quiet : (before.flatMap (fun g => if g.gid = gid then g.wcb.flatMap lineBytes else [])) = [] :=
    List.flatMap_eq_nil_iff.2 fun x hx => if_neg (h.first x hx)
  have others : (after.flatMap (fun g => if g.gid = gid then g.wcb.flatMap lineBytes else [])).filter (fun q => q.1 == p) = [] := by
    rw [List.filter_flatMap]
    refine List.flatMap_eq_nil_iff.2 fun x hx => ?_
    split_ifs with own
    · exact h.others x hx own
    · rfl
  rw [ownPending_eq, List.filter_append, ← sentAt, h.groups, List.flatMap_append, List.flatMap_cons, quiet, List.nil_append, List.filter_append,
    others, List.append_nil, if_pos h.gid_eq, flatMap_lineBytes_at h.waiting.formed]

theorem Merging.newest : (newestAt p (ownPending s gid)).map Prod.fst = v := by
  rw [newestAt_of_rising (by rw [h.pending]; exact h.waiting.pairwise), h.pending, ← h.waiting.last, Option.map_map]
  rfl

/-- A byte that is merged is the last at its address. -/
theorem Merging.put (hint : Nat) (loose : List Nat) (a : Nat) (b : Byte) :
    ∃ g1, Merging p before after gid (if a = p then some b else v) (wcbPut s gid hint loose [(a, b)]) g1 := by
  cases found : g.wcb.find? (fun e => e.line == a / 128) with
  | none =>
    have fresh : ∀ y ∈ g.wcb, y.line ≠ a / 128 := fun y hy line => List.find?_eq_none.1 found y hy (beq_iff_eq.2 line)
    rw [wcbPut_opens h.getG found]
    exact ⟨_, h.putG (g1 := { g with wcb := g.wcb ++ [openedLine s gid hint loose a b] }) h.gid_eq, h.gid_eq, h.first, h.others,
      h.waiting.opens (e := openedLine s gid hint loose a b) fresh rfl rfl rfl⟩
  | some e =>
    obtain ⟨line, left, right, split, -⟩ := List.find?_eq_some_iff_append.1 found
    have waiting := h.waiting
    rw [split] at waiting
    have joined := waiting.joins (e1 := joinedLine s gid hint loose a b e) rfl rfl (beq_iff_eq.1 line) rfl
    obtain ⟨-, later, earlier⟩ := List.pairwise_append.1 waiting.ids
    obtain ⟨later, -⟩ := List.pairwise_cons.1 later
    have earlier : ∀ y ∈ left, y.id ≠ e.id := fun y hy => (earlier y hy e (by simp)).ne
    rcases Nat.lt_or_ge (fput none a (some b) e.bytes).length 128 with room | full
    · have wcb : replaceFirst (fun y => y.id == e.id) (fun _ => joinedLine s gid hint loose a b e) g.wcb =
          left ++ joinedLine s gid hint loose a b e :: right := by
        rw [split]
        exact replaceFirst_append_cons (y := e) (fun y hy => by simpa using earlier y hy) (beq_self_eq_true e.id) _ _
      rw [wcbPut_joins h.getG found room, wcb]
      exact ⟨_, h.putG (g1 := { g with wcb := left ++ joinedLine s gid hint loose a b e :: right }) h.gid_eq, h.gid_eq, h.first, h.others, joined⟩
    · have wcb : g.wcb.filter (fun y => y.id != e.id) = left ++ right := by
        have keptLeft : left.filter (fun y => y.id != e.id) = left := List.filter_eq_self.2 fun y hy => bne_iff_ne.2 (earlier y hy)
        have keptRight : right.filter (fun y => y.id != e.id) = right := List.filter_eq_self.2 fun y hy => bne_iff_ne.2 (later y hy).ne'
        rw [split, List.filter_append, List.filter_cons_of_neg (by simp), keptLeft, keptRight]
      have sent : ([lineFlight g gid hint (joinedLine s gid hint loose a b e)].flatMap (flightBytes gid)).filter (fun q => q.1 == p) =
          ((fget none p (joinedLine s gid hint loose a b e).bytes).map (fun b => (p, b, (joinedLine s gid hint loose a b e).id))).toList := by
        refine .trans (congrArg (List.filter _) ?_) (lineBytes_at (joined.formed (joinedLine s gid hint loose a b e) (by simp)) p)
        rw [List.flatMap_singleton]
        exact if_pos rfl
      rw [wcbPut_fills h.getG found full, wcb]
      refine ⟨_, h.putG (g1 := { g with wcb := left ++ right }) h.gid_eq, h.gid_eq, h.first, h.others, ?_⟩
      rw [sentAt_append (s := s) rfl, sent]
      exact joined.sends

omit h in
theorem Merging.puts (hint : Nat) (loose : List Nat) (bytes : List (Nat × Byte)) : ∀ {v s g}, Merging p before after gid v s g →
    ∃ g1, Merging p before after gid ((lastAt p bytes).or v) (wcbPut s gid hint loose bytes) g1 := by
  induction bytes with
  | nil => exact fun h => ⟨_, h⟩
  | cons q rest ih =>
    intro v s g h
    obtain ⟨g1, put⟩ := h.put hint loose q.1 q.2
    obtain ⟨g2, puts⟩ := ih put
    refine ⟨g2, ?_⟩
    have last : (lastAt p (q :: rest)).or v = (lastAt p rest).or (if q.1 = p then some q.2 else v) := by
      rw [← List.singleton_append, lastAt_append, Option.or_assoc]
      exact congrArg _ (by rw [lastAt, List.foldl_cons, List.foldl_nil]; split <;> rfl)
    rw [last]
    exact puts

end merging

section quiet
variable {s : State} {gid p : Nat} {g : Group} (hg : getG s gid = some g) (quiet : ∀ q ∈ ownPending s gid, q.1 ≠ p)
include quiet

theorem ownPending_quiet : (ownPending s gid).filter (fun q => q.1 == p) = [] := List.filter_eq_nil_iff.2 fun q hq => by simpa using quiet q hq

theorem sentAt_quiet : sentAt s gid p = [] :=
  (List.append_eq_nil_iff.1 (by rw [sentAt, ← List.filter_append, ← ownPending_eq]; exact ownPending_quiet quiet)).1

include hg

/-- A group with nothing on its way to an address and an empty buffer begins to merge. -/
theorem merging_start (empty : g.wcb = []) : ∃ before after, Merging p before after gid none s g := by
  obtain ⟨own, before, after, groups, first⟩ := List.find?_eq_some_iff_append.1 hg
  refine ⟨before, after, groups, beq_iff_eq.1 own, fun h hh => by simpa using first h hh, fun h hh same => ?_, ?_⟩
  · refine List.filter_eq_nil_iff.2 fun q hq => by
      simpa using quiet q (by
        rw [ownPending_eq, List.mem_append]
        exact .inr (List.mem_flatMap.2 ⟨h, by simp [groups, hh], by rwa [if_pos same]⟩))
  · rw [empty, sentAt_quiet quiet]
    exact ⟨.nil, nofun, .nil, nofun, nofun, nofun, nofun, .nil, rfl⟩

theorem newestAt_wcbPut (empty : g.wcb = []) (hint : Nat) (loose : List Nat) (bytes : List (Nat × Byte)) :
    (newestAt p (ownPending (wcbPut s gid hint loose bytes) gid)).map Prod.fst = lastAt p bytes := by
  obtain ⟨before, after, start⟩ := merging_start hg quiet empty
  obtain ⟨g1, merged⟩ := start.puts hint loose bytes
  rw [merged.newest, Option.or_none]

end quiet

/-! Bytes that are sent at once (R136). -/

/-- While the bytes of a release store are sent line by line, `v` is the last of them at an address. -/
structure Sending (p gid : Nat) (v : Option Byte) (s : State) : Prop where
  rises : (sentAt s gid p).Pairwise (fun a b => a.2.2 ≤ b.2.2)
  old : ∀ q ∈ sentAt s gid p, q.2.2 ≤ s.nextId
  last : ((sentAt s gid p).getLast?).map (fun q => q.2.1) = v

section send
variable {p gid : Nat} {v : Option Byte} {s : State} {g : Group}

theorem sentAt_launchPart (own : g.gid = gid) (word : Nat) (rel : Option Scope) (hint : Nat) (u : Bool) (part : List (Nat × Byte)) :
    sentAt (launchPart s word g.gid g.ctx g.core .stcomp (.store part rel hint u)) gid p =
      sentAt s gid p ++ (part.filter (fun q => q.1 == p)).map (fun x => (x.1, x.2, s.nextId)) := by
  rw [sentAt_append (s := s) rfl, List.flatMap_singleton]
  refine congrArg (sentAt s gid p ++ ·) ((congrArg (List.filter _) (if_pos own)).trans ?_)
  rw [List.filter_map]
  rfl

theorem Sending.launch (h : Sending p gid v s) (own : g.gid = gid) (word : Nat) (rel : Option Scope) (hint : Nat) (u : Bool)
    (part : List (Nat × Byte)) : Sending p gid ((lastAt p part).or v)
      (launchPart s word g.gid g.ctx g.core .stcomp (.store part rel hint u)) := by
  have new : ∀ q ∈ (part.filter (fun q => q.1 == p)).map (fun x => (x.1, x.2, s.nextId)), q.2.2 = s.nextId := by
    intro q hq
    obtain ⟨x, -, rfl⟩ := List.mem_map.1 hq
    rfl
  refine ⟨?_, ?_, ?_⟩ <;> rw [sentAt_launchPart own]
  · refine List.pairwise_append.2 ⟨h.rises, List.pairwise_map.2 (List.pairwise_of_forall fun _ _ => Nat.le_refl _), fun a ha b hb => ?_⟩
    rw [new b hb]
    exact h.old a ha
  · refine List.forall_mem_append.2 ⟨fun q hq => Nat.le_succ_of_le (h.old q hq), fun q hq => ?_⟩
    rw [new q hq]
    exact Nat.le_succ _
  · rw [List.getLast?_append, Option.map_or, h.last, lastAt_eq_getLast?, List.getLast?_map, Option.map_map]
    rfl

theorem Sending.launches (own : g.gid = gid) (word : Nat) (rel : Option Scope) (hint : Nat) (u : Bool) (part : Nat → List (Nat × Byte))
    (ks : List Nat) : ∀ {v s}, Sending p gid v s → Sending p gid ((lastAt p (ks.flatMap part)).or v)
      (ks.foldl (fun s k => launchPart s word g.gid g.ctx g.core .stcomp (.store (part k) rel hint u)) s) := by
  induction ks with
  | nil => exact fun h => h
  | cons k ks ih =>
    intro v s h
    rw [List.flatMap_cons, lastAt_append, Option.or_assoc]
    exact ih (h.launch own word rel hint u (part k))

theorem sendStores_groups (s : State) (g : Group) (rel : Option Scope) (hint : Nat) (u : Bool) (bytes : List (Nat × Byte)) :
    (sendStores s g rel hint u bytes).groups = s.groups := by
  unfold sendStores
  exact foldl_groups (fun s k => launchPart_groups s _ _ _ _ _ _) _ _

theorem newestAt_sendStores (hg : getG s gid = some g) (quiet : ∀ q ∈ ownPending s gid, q.1 ≠ p) (rel : Option Scope) (hint : Nat)
    (bytes : List (Nat × Byte)) : (newestAt p (ownPending (sendStores s g rel hint false bytes) gid)).map Prod.fst = lastAt p bytes := by
  have start : Sending p gid none s := by
    have none_ := sentAt_quiet quiet
    refine ⟨?_, ?_, ?_⟩ <;> rw [none_]
    · exact .nil
    · exact nofun
    · rfl
  have sent : Sending p gid ((lastAt p ((sectorsOf bytes).flatMap (sectorPart bytes))).or none) (sendStores s g rel hint false bytes) :=
    start.launches (getG_gid hg) s.nextId rel hint false (sectorPart bytes) (sectorsOf bytes)
  rw [lastAt_flatMap_sectorPart, Option.or_none] at sent
  have buffered := ownPending_quiet quiet
  rw [ownPending_eq, List.filter_append, ← sentAt, List.append_eq_nil_iff] at buffered
  have pending : (ownPending (sendStores s g rel hint false bytes) gid).filter (fun q => q.1 == p) = sentAt (sendStores s g rel hint false bytes) gid p := by
    rw [ownPending_eq, List.filter_append, ← sentAt, sendStores_groups, buffered.2, List.append_nil]
  rw [newestAt_of_rising (by rw [pending]; exact sent.rises), pending, ← sent.last, Option.map_map]
  rfl

end send

end Sys2Proof.Proofs
end

section
/-! PROOF. Global load and store words whose lanes all pass (11_memory_sync.md R303, R304). -/

namespace Sys2Proof.Proofs
open Sys2Proof Sys2Proof.Machine Sys2Proof.Laws

/-! The bytes that lanes write (R304). -/

section lanes
variable {p z : Nat} {val : Nat → W64}

theorem lastAt_laneBytes_none {ls : List Lane} (outside : ∀ y ∈ ls, p ∉ y.pas) : lastAt p (laneBytes ls z val) = none := by
  refine lastAt_eq_none fun q hq here => ?_
  obtain ⟨y, hy, mem⟩ := List.mem_flatMap.1 hq
  exact outside y hy (here ▸ (List.of_mem_zip mem).1)

theorem lastAt_lane {l : Lane} {k : Nat} (size : l.pas.length = z) (distinct : l.pas.Nodup) (here : l.pas[k]? = some p) (v : Nat) :
    lastAt p (l.pas.zip (toBytes z v)) = some (BitVec.ofNat 8 (v / 2 ^ (8 * k))) := by
  have inside : k < l.pas.length := (List.getElem?_eq_some_iff.1 here).1
  have byte : (toBytes z v)[k]? = some (BitVec.ofNat 8 (v / 2 ^ (8 * k))) := by
    rw [List.getElem?_eq_getElem (by rw [length_toBytes]; omega), getElem_toBytes]
  refine lastAt_of_unique (List.mem_of_getElem? (List.getElem?_zip_eq_some.2 ⟨here, byte⟩)) fun q hq at_p => ?_
  obtain ⟨j, hj⟩ := List.mem_iff_getElem?.1 hq
  obtain ⟨hj, hb⟩ := List.getElem?_zip_eq_some.1 hj
  obtain rfl : k = j := (List.getElem?_inj inside distinct).1 (by rw [here, hj, at_p])
  exact Option.some.inj (hb.symm.trans byte)

/-- Of the lanes that write a byte the highest stands. -/
theorem lastAt_laneBytes {ls before after : List Lane} {l : Lane} {k : Nat} (split : ls = before ++ l :: after) (size : l.pas.length = z)
    (distinct : l.pas.Nodup) (here : l.pas[k]? = some p) (higher : ∀ y ∈ after, p ∉ y.pas) :
    lastAt p (laneBytes ls z val) = some (BitVec.ofNat 8 ((val l.lane).toNat / 2 ^ (8 * k))) := by
  rw [split, laneBytes, List.flatMap_append, List.flatMap_cons, lastAt_append, lastAt_append, ← laneBytes, lastAt_laneBytes_none higher,
    lastAt_lane size distinct here, Option.none_or, Option.some_or]

end lanes

/-! The words. -/

theorem finishLanes_good (s : State) (x : Issue) (good : List Nat) : finishLanes s x good [] = .ok (clearWalks s x.g.gid) := rfl

theorem scalarAddr_eq (x : Issue) (w : MWord) : scalarAddr x w = (rs x.g w.base.toNat + w.off.signExtend 64).toNat := by
  have sext : BitVec.ofInt 64 w.off.toInt = w.off.signExtend 64 := rfl
  rw [scalarAddr, wrap_eq_toNat_ofInt, BitVec.ofInt_add, ofInt_toNat_W64, sext]

section words
variable {s : State} {x : Issue} {w : MWord} {ls : List Lane} {z : Nat} {lanes : List (Nat × Nat)}

theorem globalLoad_oks {pair : Bool} (dst : Nat) (perLane : Bool)
    (passed : checkLanes s x lanes z 1 1 ((orderScope w).isSome || pair) 1 = ls.map LaneRes.ok) : globalLoad s x w z dst pair lanes perLane =
    .ok (clearWalks (issueLoad (if (orderScope w).isSome then drainWcb s x.g.gid else s) x ls dst pair (orderScope w) w.hint.toNat) x.g.gid) := by
  simp only [globalLoad, passed, missPage_oks, goodLanes_oks, badLanes_oks, List.map_nil, finishLanes_good, ite_self]

section store
variable {val : Nat → W64} {bytes : List (Nat × Byte)} (hbytes : bytes = laneBytes ls z val) (perLane : Bool)
  (passed : checkLanes s x lanes z 2 2 (orderScope w).isSome 1 = ls.map LaneRes.ok)
include hbytes passed

theorem globalStore_plain (plain : orderScope w = none) : globalStore s x w z lanes val perLane =
    .ok (clearWalks (wcbPut (l1Store s x.g.core bytes) x.g.gid w.hint.toNat (looseBytes ls) bytes) x.g.gid) := by
  rw [plain] at passed
  simp only [globalStore, passed, missPage_oks, goodLanes_oks, badLanes_oks, List.map_nil, finishLanes_good, ite_self, ← hbytes, plain,
    Option.bind_none]

theorem globalStore_release {sc : Scope} (order : orderScope w = some sc) (ready : releaseWait s x.g sc = none) :
    globalStore s x w z lanes val perLane = .ok (clearWalks
      (sendStores (drainWcb (l1Store s x.g.core bytes) x.g.gid) x.g (some sc) w.hint.toNat false bytes) x.g.gid) := by
  rw [order] at passed
  simp only [globalStore, passed, missPage_oks, goodLanes_oks, badLanes_oks, List.map_nil, finishLanes_good, ite_self, ← hbytes, order,
    Option.bind_some, ready]

omit hbytes in
theorem globalStore_waits {sc : Scope} (order : orderScope w = some sc) {s1 : State} {p : Park} (early : releaseWait s x.g sc = some (s1, p)) :
    globalStore s x w z lanes val perLane = .park s1 p := by
  rw [order] at passed
  simp only [globalStore, passed, missPage_oks, order, Option.bind_some, early]

end store

theorem exec_store_issues {i : Instr} {val : Nat → W64}
    (store : (i, lanes) ∈ [(Instr.stG w, lanesM x w (2 ^ w.width.toNat)), (.stS w, [(0, (rs x.g w.base.toNat + w.off.signExtend 64).toNat)])])
    (vector : i = .stG w → ∀ l, val l = rv x.g w.data.toNat l) (scalar : i = .stS w → ∀ l, val l = rs x.g (w.data.toNat - 352))
    (h : Issues s i x) : ∃ perLane, exec i s = .next (settle x false (globalStore s x w (2 ^ w.width.toNat) lanes val perLane)) := by
  simp only [List.mem_cons, List.not_mem_nil, or_false, Prod.mk.injEq] at store
  rcases store with ⟨rfl, rfl⟩ | ⟨rfl, rfl⟩
  · obtain rfl := funext (vector rfl)
    exact ⟨true, exec_stG_issues h⟩
  · obtain rfl := funext (scalar rfl)
    refine ⟨false, ?_⟩
    rw [exec_stS, execStS, runWord_unmasked h rfl rfl, scalarAddr_eq, widthM]

end words

/-- A byte opens a line of its own where none of its line waits, and joins the one that does (R103). -/
theorem wcbPut_one {s : State} {gid : Nat} {g : Group} (hg : getG s gid = some g) (hint a : Nat) (loose : List Nat) (b : Byte) :
    (g.wcb.find? (fun e => e.line == a / 128) = none → ∃ e, e.id = s.nextId ∧ e.line = a / 128 ∧ e.since = s.time ∧ e.hint = hint ∧
      wcbBytes e = [(a, b)] ∧ wcbPut s gid hint loose [(a, b)] = { putG s { g with wcb := g.wcb ++ [e] } with nextId := s.nextId + 1 }) ∧
    (∀ e, g.wcb.find? (fun e => e.line == a / 128) = some e → ∃ e1, e1.id = e.id ∧ e1.line = e.line ∧ e1.since = e.since ∧ e1.hint = hint ∧
      e1.bytes = fput none a (some b) e.bytes ∧
      (e1.bytes.length < 128 →
        wcbPut s gid hint loose [(a, b)] = putG s { g with wcb := replaceFirst (fun y => y.id == e.id) (fun _ => e1) g.wcb }) ∧
      (128 ≤ e1.bytes.length → ∃ f, f.id = e.id ∧ f.gid = gid ∧ f.op = .store (wcbBytes e1) none hint false ∧
        (wcbPut s gid hint loose [(a, b)]).pend = s.pend ++ [f] ∧
        (wcbPut s gid hint loose [(a, b)]).groups = (putG s { g with wcb := g.wcb.filter (fun y => y.id != e.id) }).groups)) := by
  refine ⟨fun new => ⟨openedLine s gid hint loose a b, rfl, rfl, rfl, rfl, rfl, wcbPut_opens hg new⟩, fun e found =>
    ⟨joinedLine s gid hint loose a b e, rfl, rfl, rfl, rfl, rfl, wcbPut_joins hg found, fun full =>
      ⟨lineFlight g gid hint (joinedLine s gid hint loose a b e), rfl, rfl, rfl, ?_, ?_⟩⟩⟩
  · rw [wcbPut_fills hg found full]
  · rw [wcbPut_fills hg found full]

/-- Settles O31: the words of checked lanes, the bytes their lanes write, and those bytes on their way, the last of an address being the newest. -/
theorem globalLoadAndStoreWords : Obligations.GlobalLoadAndStoreWords := by
  unfold Obligations.GlobalLoadAndStoreWords
  refine ⟨fun s x w ls => ⟨fun h passed => ?_, fun h passed => ?_, fun h passed => ?_⟩,
    fun s x w ls i lanes val bytes store vector scalar hbytes h passed => ?_,
    fun ls before after l z k p val => ⟨fun split size _ distinct here higher => lastAt_laneBytes split size distinct here higher, lastAt_laneBytes_none⟩,
    fun s gid hint p g loose bytes sc hg empty quiet => ⟨newestAt_wcbPut hg quiet empty hint loose bytes, newestAt_sendStores hg quiet (some sc) hint bytes⟩,
    fun s gid hint a g loose b rest hg => ⟨wcbPut_cons s gid hint loose (a, b) rest, wcbPut_one hg hint a loose b⟩⟩
  · rw [exec_ldG_issues h, widthM, globalLoad_oks _ _ (by rw [Bool.or_false]; exact passed), settle_ok]
  · rw [exec_ldX, execLdX, runWord_normal h (m := w.msel.toNat) (p := true) rfl rfl, globalLoad_oks _ _ (by rw [Bool.or_true]; exact passed), settle_ok]
  · rw [exec_ldS, execLdS, runWord_unmasked h rfl rfl, scalarAddr_eq, widthM, globalLoad_oks _ _ (by rw [Bool.or_false]; exact passed), settle_ok]
  · obtain ⟨perLane, run⟩ := exec_store_issues store vector scalar h
    refine ⟨fun plain => ?_, fun sc order ready => ?_, fun sc s1 p order early => ?_⟩
    · rw [run, globalStore_plain hbytes perLane passed plain, settle_ok]
    · rw [run, globalStore_release hbytes perLane passed order ready, settle_ok]
    · rw [run, globalStore_waits perLane passed order early, settle_park]

end Sys2Proof.Proofs
end

section
/-! PROOF. Atomic words and the operation at the home (11_memory_sync.md R305 to R310, 05_ordering.md R141). -/

namespace Sys2Proof.Proofs
open Sys2Proof Sys2Proof.Machine Sys2Proof.Laws

/-! The words (R306 to R309). -/

/-- The atomic words, with their operations, and whether they take a third operand. -/
def atomicForms (w : VWord) : List (Instr × AtOp × Bool) :=
  [(.atAdd w, .add, false), (.atSub w, .sub, false), (.atMin w, .min, false), (.atMax w, .max, false), (.atAnd w, .and, false),
    (.atOr w, .or, false), (.atXor w, .xor, false), (.atXchg w, .xchg, false), (.atCas w, .cas, true), (.atCas2 w, .cas, true),
    (.atFadd w, .fadd, false)]

theorem exec_atomicForms {w : VWord} {i : Instr} {op : AtOp} {useC : Bool} (word : (i, op, useC) ∈ atomicForms w) (s : State) :
    exec i s = atomicWord i w s op useC ∧ w.msel.toNat = mselOf i ∧ true = perLaneOf i := by
  simp only [atomicForms, List.mem_cons, List.not_mem_nil, or_false, Prod.mk.injEq] at word
  rcases word with ⟨rfl, rfl, rfl⟩ | ⟨rfl, rfl, rfl⟩ | ⟨rfl, rfl, rfl⟩ | ⟨rfl, rfl, rfl⟩ | ⟨rfl, rfl, rfl⟩ | ⟨rfl, rfl, rfl⟩ | ⟨rfl, rfl, rfl⟩ |
    ⟨rfl, rfl, rfl⟩ | ⟨rfl, rfl, rfl⟩ | ⟨rfl, rfl, rfl⟩ | ⟨rfl, rfl, rfl⟩ <;> exact ⟨rfl, rfl, rfl⟩

theorem atOrder_eq (w : VWord) : (w.fn.extractLsb' 5 2).toNat = atOrder w := BitVec.extractLsb'_toNat 5 2 w.fn

theorem exec_atomic_issues {s : State} {x : Issue} {w : VWord} {i : Instr} {op : AtOp} {useC : Bool} {z : Nat} {ls : List Lane}
    (word : (i, op, useC) ∈ atomicForms w) (hz : z = widthA w) (h : Issues s i x)
    (passed : checkLanes s x ((lanesOf x.active).map (fun l => (l, (rv x.g w.a.toNat l).toNat))) z 3 4 true 2 = ls.map LaneRes.ok)
    (ready : 2 ≤ atOrder w → releaseWait s x.g (atScope w) = none) :
    exec i s = .next (performed x (clearWalks (noteLines (((ls.map (fun l => l.pas.headD 0 / 128)).eraseDups).foldl (fun u k =>
      launchPart u (drainWcb s x.g.gid).nextId x.g.gid x.g.ctx x.g.core .stcomp (.atomic op (tySigned w.ty.toNat)
        ((ls.map (fun l => (l, atOperand x.g w.b.toNat l.lane z, if useC then atOperand x.g w.c.toNat l.lane z else 0))).filter
          (fun l => l.1.pas.headD 0 / 128 == k)) w.d.toNat (decide (atOrder w % 2 = 1)) (decide (2 ≤ atOrder w)) (atScope w)))
      (drainWcb s x.g.gid)) x.g.gid x.b (ls.flatMap (fun l => l.pas.map (fun p => p / 128)))) x.g.gid)) := by
  obtain ⟨run, msel, perLane⟩ := exec_atomicForms word s
  have ordered : (if decide (2 ≤ atOrder w) then releaseWait s x.g (atScope w) else none) = none := by
    split_ifs with release
    · exact ready (of_decide_eq_true release)
    · rfl
  rw [run, atomicWord, runWord_normal h msel perLane]
  simp only [← hz, passed, missPage_oks, ordered, goodLanes_oks, badLanes_oks, finishLanes_good, settle_ok, List.map_map, Function.comp_def]

/-! What the operations make of a location (R306, R310). -/

theorem wrap_sub {w m b : Nat} (hb : b < 2 ^ w) : wrap w ((m : Int) - b) = (m + (2 ^ w - b)) % 2 ^ w := by
  have less : (m : Int) - b = ((m + (2 ^ w - b) : Nat) : Int) - (2 ^ w : Nat) := by omega
  rw [wrap, less, Int.sub_emod_right, ← Int.natCast_mod, Int.toNat_natCast]

theorem atResult_eq {z m b : Nat} (c : Nat) (sg : Bool) (hb : b < 2 ^ (8 * z)) :
    atResult .add sg z m b c = some ((m + b) % 2 ^ (8 * z)) ∧ atResult .sub sg z m b c = some ((m + (2 ^ (8 * z) - b)) % 2 ^ (8 * z)) ∧
    atResult .and sg z m b c = some (m &&& b) ∧ atResult .or sg z m b c = some (m ||| b) ∧ atResult .xor sg z m b c = some (m ^^^ b) ∧
    atResult .xchg sg z m b c = some b ∧ atResult .cas sg z m b c = (if m = b then some c else none) ∧
    atResult .min false z m b c = some (min m b) ∧ atResult .max false z m b c = some (max m b) ∧
    atResult .min true z m b c = some (if toS (8 * z) m ≤ toS (8 * z) b then m else b) ∧
    atResult .max true z m b c = some (if toS (8 * z) m ≤ toS (8 * z) b then b else m) ∧
    atResult .fadd sg z m b c = some (addF fmtF32 {} false m b).1 := by
  refine ⟨rfl, congrArg some (wrap_sub hb), rfl, rfl, rfl, rfl, rfl, ?_, ?_, rfl, rfl, rfl⟩
  · simp [atResult, Nat.min_def]
  · simp [atResult, Nat.max_def]

/-! Lane after lane (R308). -/

section lanes
variable (op : AtOp) (sg : Bool) (rd : List Nat → List Byte) (ls : List (Lane × Nat × Nat)) (l : Lane) (b c : Nat)

/-- What a lane finds once those before it have written. -/
def laneOld (rd : List Nat → List Byte) (wr : List (Nat × Byte)) (l : Lane) : List Byte :=
  (l.pas.zip (rd l.pas)).map (fun p => (lastAt p.1 wr).getD p.2)

/-- What a lane writes to what it found. -/
def laneWrites (op : AtOp) (sg : Bool) (l : Lane) (old : List Byte) (b c : Nat) : List (Nat × Byte) :=
  (atResult op sg l.pas.length (ofBytes old) b c).elim [] (fun v => l.pas.zip (toBytes l.pas.length v))

theorem atLanes_concat : atLanes op sg rd (ls ++ [(l, b, c)]) =
    ((atLanes op sg rd ls).1 ++ laneWrites op sg l (laneOld rd (atLanes op sg rd ls).1 l) b c,
      (atLanes op sg rd ls).2 ++ [(l.lane, laneOld rd (atLanes op sg rd ls).1 l)]) := by
  rw [atLanes, List.foldl_append, List.foldl_cons, List.foldl_nil, ← atLanes]
  simp only [laneWrites, laneOld]
  cases atResult op sg l.pas.length (ofBytes ((l.pas.zip (rd l.pas)).map fun p => (lastAt p.1 (atLanes op sg rd ls).1).getD p.2)) b c <;> rfl

theorem laneOld_map (m : Nat → Byte) (wr : List (Nat × Byte)) : laneOld (fun q => q.map m) wr l = l.pas.map (fun p => (lastAt p wr).getD (m p)) := by
  rw [laneOld, ← List.map_prod_left_eq_zip, List.map_map]
  rfl

theorem atLanes_lanes : (atLanes op sg rd ls).2.map Prod.fst = ls.map (fun l => l.1.lane) := by
  induction ls using List.reverseRecOn with
  | nil => rfl
  | append_singleton ls q ih =>
    obtain ⟨l, b, c⟩ := q
    rw [atLanes_concat, List.map_append, List.map_append, ih]
    rfl

end lanes

/-! The old values' registers (R303, R308). -/

/-- The registers that the old values are written to. -/
def oldWrites (dst : Nat) (vs : List (Nat × List Byte)) : List (Nat × Nat × W64) :=
  vs.flatMap (fun q => if q.2.length = 16 then [(dst, q.1, r64 (ofBytes (q.2.take 8))), (dst + 1, q.1, r64 (ofBytes (q.2.drop 8)))]
    else [(dst, q.1, r64 (ofBytes q.2))])

/-- A group that has received the old values of an atomic operation. -/
def withOld (dst : Nat) (vs : List (Nat × List Byte)) (g : Group) : Group :=
  if dst = 352 then g else applyRegs g (vs.flatMap (fun q => loadRegs dst q.1 q.2 (decide (q.2.length = 16))))

section old
variable {dst : Nat} {vs : List (Nat × List Byte)}

theorem mem_oldWrites {p : Nat × Nat × W64} (hp : p ∈ oldWrites dst vs) : ∃ q ∈ vs, p.2.1 = q.1 ∧ (p.1 = dst ∨ p.1 = dst + 1) := by
  obtain ⟨q, hq, mem⟩ := List.mem_flatMap.1 hp
  refine ⟨q, hq, ?_⟩
  split_ifs at mem
  · simp only [List.mem_cons, List.not_mem_nil, or_false] at mem
    rcases mem with rfl | rfl
    · exact ⟨rfl, .inl rfl⟩
    · exact ⟨rfl, .inr rfl⟩
  · obtain rfl := List.mem_singleton.1 mem
    exact ⟨rfl, .inl rfl⟩

section vector
variable (small : dst < 256)
include small

theorem withOld_vector (lanes : ∀ q ∈ vs, q.1 < 64) (g : Group) : withOld dst vs g = wvs g (oldWrites dst vs) := by
  have low : ¬ 512 ≤ dst := by omega
  have regs : vs.flatMap (fun q => loadRegs dst q.1 q.2 (decide (q.2.length = 16))) = keyed (oldWrites dst vs) := by
    rw [keyed, oldWrites, List.map_flatMap]
    refine congrArg (fun f => vs.flatMap f) (funext fun q => ?_)
    rw [loadRegs, if_neg low]
    split_ifs <;> simp_all
  rw [withOld, if_neg (by omega), regs, applyRegs_keyed]
  · intro p hp
    obtain ⟨q, hq, lane, -⟩ := mem_oldWrites hp
    exact lane ▸ lanes q hq
  · intro p hp
    obtain ⟨q, hq, -, reg⟩ := mem_oldWrites hp
    omega

variable (lanes : ∀ q ∈ vs, q.1 < 64)
include lanes

theorem rv_withOld (distinct : (vs.map Prod.fst).Nodup) (g : Group) {q : Nat × List Byte} (hq : q ∈ vs) :
    if q.2.length = 16 then rv (withOld dst vs g) dst q.1 = BitVec.ofNat 64 (ofBytes (q.2.take 8)) ∧
        rv (withOld dst vs g) (dst + 1) q.1 = BitVec.ofNat 64 (ofBytes (q.2.drop 8))
      else rv (withOld dst vs g) dst q.1 = BitVec.ofNat 64 (ofBytes q.2) := by
  have within : ∀ p ∈ oldWrites dst vs, p.2.1 < 64 := fun p hp => by
    obtain ⟨q, hq, lane, -⟩ := mem_oldWrites hp
    exact lane ▸ lanes q hq
  have places : ((oldWrites dst vs).map fun p => (p.1, p.2.1)).Nodup := by
    rw [oldWrites, List.map_flatMap]
    refine List.nodup_flatMap.2 ⟨fun q _ => ?_, (List.pairwise_map.1 distinct).imp fun {a b} apart => ?_⟩
    · split_ifs <;> simp
    · refine List.disjoint_left.2 fun p ha hb => apart ?_
      have lane (q : Nat × List Byte) (hp : p ∈ (if q.2.length = 16 then [(dst, q.1, r64 (ofBytes (q.2.take 8))),
          (dst + 1, q.1, r64 (ofBytes (q.2.drop 8)))] else [(dst, q.1, r64 (ofBytes q.2))]).map fun p => (p.1, p.2.1)) : p.2 = q.1 := by
        split_ifs at hp
        · simp only [List.map_cons, List.map_nil, List.mem_cons, List.not_mem_nil, or_false] at hp
          rcases hp with rfl | rfl <;> rfl
        · simp only [List.map_cons, List.map_nil, List.mem_singleton] at hp
          rw [hp]
      exact (lane a ha).symm.trans (lane b hb)
  rw [withOld_vector small lanes]
  split_ifs with wide
  · exact ⟨rv_wvs_of_mem within places (List.mem_flatMap.2 ⟨q, hq, by simp [wide, r64]⟩) g,
      rv_wvs_of_mem within places (List.mem_flatMap.2 ⟨q, hq, by simp [wide, r64]⟩) g⟩
  · exact rv_wvs_of_mem within places (List.mem_flatMap.2 ⟨q, hq, by simp [wide, r64]⟩) g

theorem rv_withOld_other {reg l : Nat} (hl : l < 64) (other : ∀ q ∈ vs, q.1 = l → reg ≠ dst ∧ reg ≠ dst + 1) (g : Group) :
    rv (withOld dst vs g) reg l = rv g reg l := by
  rw [withOld_vector small lanes]
  refine rv_wvs_of_forall_ne (fun p hp => ?_) hl (fun p hp here => ?_) g
  · obtain ⟨q, hq, lane, -⟩ := mem_oldWrites hp
    exact lane ▸ lanes q hq
  · obtain ⟨q, hq, lane, reg⟩ := mem_oldWrites hp
    obtain ⟨own, rfl⟩ := here
    have apart := other q hq lane.symm
    omega

end vector

theorem withOld_none (g : Group) (none_ : dst = 352) : withOld dst vs g = g := if_pos none_

theorem applyRegs_frame (g : Group) (l : List (Nat × W64)) : (applyRegs g l).gid = g.gid ∧ (applyRegs g l).wct = g.wct := by
  refine List.foldlRecOn l _ (motive := fun h : Group => h.gid = g.gid ∧ h.wct = g.wct) ⟨rfl, rfl⟩ fun h kept p _ => ?_
  split_ifs
  · rw [ws]
    split_ifs <;> exact kept
  · exact kept

theorem withOld_frame (g : Group) : (withOld dst vs g).gid = g.gid ∧ (withOld dst vs g).wct = g.wct := by
  rw [withOld]
  split_ifs
  · exact ⟨rfl, rfl⟩
  · exact applyRegs_frame g _

theorem atWriteBack_time (s : State) (gid dst : Nat) (vs : List (Nat × List Byte)) : (atWriteBack s gid dst vs).time = s.time := by
  unfold atWriteBack
  split_ifs
  · rfl
  · split <;> rfl

theorem atL1_time (s : State) (core : Nat) (lanes : List (Lane × Nat × Nat)) (r : List (Nat × Byte) × List (Nat × List Byte)) :
    (atL1 s core lanes r).time = s.time := rfl

theorem performBy_time (s : State) (gid by_ : Nat) (bytes : List (Nat × Byte)) : (performBy s gid by_ bytes).time = s.time := rfl

theorem getG_atWriteBack {s : State} {gid : Nat} {g : Group} (hg : getG s gid = some g) :
    getG (atWriteBack s gid dst vs) gid = some (withOld dst vs g) := by
  rw [atWriteBack, withOld]
  split_ifs
  · exact hg
  · simp only [hg]
    have own := (applyRegs_frame g (vs.flatMap fun q => loadRegs dst q.1 q.2 (decide (q.2.length = 16)))).1
    obtain rfl := getG_gid hg
    rw [← own] at hg ⊢
    exact getG_putG_same hg

end old

/-! What an atomic operation leaves of the groups. -/

/-- A slot that watches a line that has been written is woken: what a group becomes. -/
def wokenBy (s : State) (gid by_ : Nat) (g : Group) (k : Nat) : Group :=
  { g with slotA := wakeSlot s.time k (g.gid != gid || by_.testBit 1) (g.gid != gid) g.slotA,
           slotB := wakeSlot s.time k (g.gid != gid || by_.testBit 0) (g.gid != gid) g.slotB }

theorem wakeKeys_groups (s : State) (gid by_ : Nat) (keys : List Nat) :
    (wakeKeys s gid by_ keys).groups = s.groups.map (fun g => keys.eraseDups.foldl (wokenBy s gid by_) g) := rfl

/-- Waking changes slots alone. -/
theorem wokenBy_slots (s : State) (gid by_ : Nat) (keys : List Nat) (g : Group) :
    ∃ a b, keys.foldl (wokenBy s gid by_) g = { g with slotA := a, slotB := b } := by
  refine List.foldlRecOn keys _ (motive := fun h => ∃ a b, h = { g with slotA := a, slotB := b }) ⟨g.slotA, g.slotB, rfl⟩ ?_
  rintro h ⟨a, b, rfl⟩ k -
  exact ⟨_, _, rfl⟩

theorem getG_wakeKeys {s : State} {n : Nat} {g : Group} (hg : getG s n = some g) (gid by_ : Nat) (keys : List Nat) :
    ∃ a b, getG (wakeKeys s gid by_ keys) n = some { g with slotA := a, slotB := b } := by
  obtain ⟨a, b, woken⟩ := wokenBy_slots s gid by_ keys.eraseDups g
  refine ⟨a, b, ?_⟩
  have same : ((fun h : Group => h.gid == n) ∘ fun h => keys.eraseDups.foldl (wokenBy s gid by_) h) = fun h => h.gid == n := by
    funext h
    obtain ⟨c, d, woken⟩ := wokenBy_slots s gid by_ keys.eraseDups h
    simp only [Function.comp, woken]
  rw [getG, wakeKeys_groups, List.find?_map, same, ← getG, hg, Option.map_some, woken]

theorem promote_groups (s : State) (line : Nat) : (promote s line).groups = s.groups := (congrArg State.groups (besideTags_promote s line) :)

theorem homeStoreTags_groups (s : State) (gid ctx hint pa : Nat) : (homeStoreTags s gid ctx hint pa).groups = s.groups := by
  have towerOut_groups (s : State) (line : Nat) (sectors : BitVec 8) : (towerOut s gid line sectors).groups = s.groups := by
    unfold towerOut
    split_ifs
    · exact rfl
    · exact (congrArg State.groups (besideTags_llcPut s line sectors sectors) :)
    · exact rfl
  unfold homeStoreTags
  dsimp only
  split_ifs
  · exact towerOut_groups _ _ _
  · exact promote_groups _ _
  · exact towerOut_groups _ _ _
  · exact (promote_groups _ _).trans (congrArg State.groups (besideTags_l2Put s _ _ _ _) :)

theorem getG_feedWct {s : State} {gid : Nat} {g : Group} (hg : getG s gid = some g) (t : Nat) :
    getG (feedWct s gid t) gid = some { g with wct := max g.wct t } := by
  obtain rfl := getG_gid hg
  rw [feedWct, hg]
  exact getG_putG_same (g := { g with wct := max g.wct t }) hg

theorem getG_feedStore {s : State} {f : Flight} {g : Group} (hg : getG s f.gid = some g) (t : Nat) :
    getG (feedStore s f t) f.gid = some { g with wct := max g.wct t } := by
  unfold feedStore
  refine getG_feedWct ?_ t
  exact hg

/-! What remains in flight while the group's arrivals are settled (R313). -/

/-- One of a group's arrivals is registered once its release is complete. -/
def settleArrival (gid : Nat) (s : State) (f : Flight) : State :=
  match f.op, getG s gid with
  | .barArrive tid b, some g => if releaseReady s g .tm f.id then barArriveNow (dropF s f.id) tid b g.num else s
  | _, _ => s

theorem settleArrivals_eq (s : State) (gid : Nat) : settleArrivals s gid = (s.pend.filter (fun f => f.gid == gid)).foldl (settleArrival gid) s := rfl

theorem settleArrival_cases (gid : Nat) (s : State) (f : Flight) : settleArrival gid s f = s ∨
    ∃ tid b num, f.op = .barArrive tid b ∧ settleArrival gid s f = barArriveNow (dropF s f.id) tid b num := by
  unfold settleArrival
  split
  · next tid b g hop _ =>
    split_ifs
    · exact .inr ⟨tid, b, g.num, hop, rfl⟩
    · exact .inl rfl
  · exact .inl rfl

theorem barArriveNow_frame (s : State) (tid b num : Nat) : (barArriveNow s tid b num).groups = s.groups ∧ (barArriveNow s tid b num).pend = s.pend := by
  unfold barArriveNow
  split <;> exact ⟨rfl, rfl⟩

theorem settleArrivals_groups (s : State) (gid : Nat) : (settleArrivals s gid).groups = s.groups := by
  rw [settleArrivals_eq]
  refine foldl_groups (fun s f => ?_) _ _
  rcases settleArrival_cases gid s f with same | ⟨tid, b, num, -, registers⟩
  · rw [same]
  · rw [registers, (barArriveNow_frame _ tid b num).1, dropF_groups]

/-- An operation whose number no arrival has stays in flight. -/
theorem mem_settleArrivals {s : State} {f : Flight} (hf : f ∈ s.pend) (gid : Nat)
    (alone : ∀ o ∈ s.pend, ∀ tid b, o.op = .barArrive tid b → o.id ≠ f.id) : f ∈ (settleArrivals s gid).pend := by
  rw [settleArrivals_eq]
  refine List.foldlRecOn _ _ (motive := fun t : State => f ∈ t.pend) hf fun t ht o ho => ?_
  rcases settleArrival_cases gid t o with same | ⟨tid, b, num, hop, registers⟩
  · rwa [same]
  · rw [registers, (barArriveNow_frame _ tid b num).2]
    exact List.mem_filter.2 ⟨ht, bne_iff_ne.2 (alone o (List.mem_filter.1 ho).1 tid b hop).symm⟩

theorem getG_settleArrivals (s : State) (gid n : Nat) : getG (settleArrivals s gid) n = getG s n := by
  rw [getG, settleArrivals_groups, ← getG]

/-! HOME_ATOMIC_PERFORM (R127, R141, R308). -/

/-- The state once the core's unit has what it reads: a part that its live L1 copies don't serve is read at the homes. -/
def unitRead (s : State) (f : Flight) (pas : List Nat) : State :=
  if pas.all (fun p => (l1Live s f.core (p / 128)).isSome) then s else engineRead s f.ctx 0 pas

/-- The unit's write goes on to the home. -/
def unitStore (s : State) (f : Flight) (wr : List (Nat × Byte)) : State :=
  if wr.isEmpty then s else { s with pend := s.pend ++ [{ f with cls := .stcomp, op := .store wr none 0 true }] }

/-- A write at the home has its completion time. -/
def homeComplete (s : State) (f : Flight) (pa : Nat) (wr : List (Nat × Byte)) : State :=
  if wr.isEmpty then s
  else feedStore (completion (homeStoreTags s f.gid f.ctx 0 pa) (pa / 1024)).1 f (completion (homeStoreTags s f.gid f.ctx 0 pa) (pa / 1024)).2

theorem unitRead_frame (s : State) (f : Flight) (pas : List Nat) (gid : Nat) :
    getG (unitRead s f pas) gid = getG s gid ∧ (unitRead s f pas).mem = s.mem := by
  unfold unitRead
  split_ifs
  · exact ⟨rfl, rfl⟩
  · exact ⟨getG_engineRead s f.ctx 0 pas gid, engineRead_mem s f.ctx 0 pas⟩

theorem unitStore_frame (s : State) (f : Flight) (wr : List (Nat × Byte)) (gid : Nat) :
    getG (unitStore s f wr) gid = getG s gid ∧ (unitStore s f wr).mem = s.mem := by
  unfold unitStore
  split_ifs <;> exact ⟨rfl, rfl⟩

theorem unitStore_pend {s : State} {f : Flight} {wr : List (Nat × Byte)} (some_ : wr ≠ []) :
    (unitStore s f wr).pend = s.pend ++ [{ f with cls := .stcomp, op := .store wr none 0 true }] := by
  rw [unitStore, if_neg (by rwa [List.isEmpty_iff])]

theorem homeComplete_mem (s : State) (f : Flight) (pa : Nat) (wr : List (Nat × Byte)) : (homeComplete s f pa wr).mem = s.mem := by
  unfold homeComplete
  split_ifs
  · rfl
  · rw [feedStore_mem, completion_mem, homeStoreTags_mem]

theorem getG_homeComplete {s : State} {f : Flight} {g : Group} (hg : getG s f.gid = some g) (pa : Nat) (wr : List (Nat × Byte)) :
    ∃ t, getG (homeComplete s f pa wr) f.gid = some { g with wct := t } ∧ (wr ≠ [] → s.time ≤ t ∧ g.wct ≤ t) := by
  unfold homeComplete
  split_ifs with none_
  · exact ⟨g.wct, hg, fun some_ => absurd (List.isEmpty_iff.1 none_) some_⟩
  · have time : (homeStoreTags s f.gid f.ctx 0 pa).time = s.time := (MemoryWork.homeStoreTags s f.gid f.ctx 0 pa).time
    refine ⟨_, getG_feedStore ?_ _, fun _ => ⟨le_max_of_le_right (time ▸ completion_time_le _ _), le_max_left _ _⟩⟩
    rw [getG, completion_groups, homeStoreTags_groups, ← getG, hg]

section perform
variable {s : State} {id dst : Nat} {f : Flight} {g : Group} {op : AtOp} {sg a r : Bool} {ls : List (Lane × Nat × Nat)} {sc : Scope} {pas : List Nat}
  {wr : List (Nat × Byte)} {vs : List (Nat × List Byte)} (hf : getF s id = some f) (hop : f.op = .atomic op sg ls dst a r sc)
  (hg : getG s f.gid = some g) (hpas : pas = ls.flatMap (fun l => l.1.pas)) (turn : accessTurn s f pas false = true) (good : badAt s pas = none)
include hf hop hpas turn good

theorem exec_homeAtomicPerform_unit (near : sc = .gr ∨ sc = .tm) (ready : pas.all (homeReady s) = true)
    (hr : atLanes op sg (unitBytes s f.core) ls = (wr, vs)) : exec (.homeAtomicPerform id) s = .next (settleArrivals (unitStore
      (dropF (atWriteBack (atL1 (unitRead s f pas) f.core ls (wr, vs)) f.gid dst vs) id) f wr) f.gid) := by
  rw [exec_homeAtomicPerform, execHomeAtomicPerform]
  simp only [hf, hop, if_pos near, ← hpas, turn, ready, Bool.and_self, if_true, good, hr, unitRead, unitStore]

theorem exec_homeAtomicPerform_home (far : ¬ (sc = .gr ∨ sc = .tm)) (alone : unitPending s f pas = false) (ready : atomicReady s pas = true)
    (hr : atLanes op sg (fun q => q.map (rdByte s)) ls = (wr, vs)) : exec (.homeAtomicPerform id) s = .next (settleArrivals (homeComplete
      (dropF (atWriteBack (atL1 (performBy (homeTouch s f.ctx 0 (pas.headD 0)) f.gid f.by_ wr) f.core ls (wr, vs)) f.gid dst vs) id)
        f (pas.headD 0) wr) f.gid) := by
  rw [exec_homeAtomicPerform, execHomeAtomicPerform]
  simp only [hf, hop, if_neg far, ← hpas, turn, alone, ready, Bool.not_false, Bool.and_self, if_true, good, hr, homeComplete]

include hg

theorem homeAtomicPerform_unit (near : sc = .gr ∨ sc = .tm) (ready : pas.all (homeReady s) = true)
    (hr : atLanes op sg (unitBytes s f.core) ls = (wr, vs)) : ∃ t, exec (.homeAtomicPerform id) s = .next t ∧
      getG t f.gid = some (withOld dst vs g) ∧ (∀ p, rdByte t p = rdByte s p) ∧
      (wr ≠ [] → ∃ f' ∈ t.pend, f'.id = id ∧ f'.gid = f.gid ∧ f'.op = .store wr none 0 true) := by
  refine ⟨_, exec_homeAtomicPerform_unit hf hop hpas turn good near ready hr, ?_, fun p => ?_, fun some_ => ?_⟩
  · rw [getG_settleArrivals, (unitStore_frame _ f wr f.gid).1]
    exact getG_atWriteBack ((unitRead_frame s f pas f.gid).1.trans hg)
  · rw [rdByte, settleArrivals_mem, (unitStore_frame _ f wr f.gid).2, dropF_mem, atWriteBack_mem, atL1_mem, (unitRead_frame s f pas f.gid).2,
      ← rdByte]
  · have hid := getF_id hf
    refine ⟨{ f with cls := .stcomp, op := .store wr none 0 true }, mem_settleArrivals ?_ f.gid fun o ho tid b arrives => ?_, hid, rfl, rfl⟩
    · rw [unitStore_pend some_]
      exact List.mem_append_right _ (List.mem_singleton_self _)
    · rw [unitStore_pend some_, List.mem_append, List.mem_singleton] at ho
      rcases ho with ho | rfl
      · exact hid.symm ▸ bne_iff_ne.1 (List.mem_filter.1 ho).2
      · cases arrives

theorem homeAtomicPerform_home (far : ¬ (sc = .gr ∨ sc = .tm)) (alone : unitPending s f pas = false) (ready : atomicReady s pas = true)
    (hr : atLanes op sg (fun q => q.map (rdByte s)) ls = (wr, vs)) : ∃ t g0 time, exec (.homeAtomicPerform id) s = .next t ∧
      getG t f.gid = some { withOld dst vs g0 with wct := time } ∧ g0.v = g.v ∧ g0.s = g.s ∧
      (∀ p, rdByte t p = (lastAt p wr).getD (rdByte s p)) ∧ (wr ≠ [] → s.time ≤ time ∧ g.wct ≤ time) := by
  have touched : getG (homeTouch s f.ctx 0 (pas.headD 0)) f.gid = some g := by rw [getG, homeTouch_groups, ← getG, hg]
  obtain ⟨sa, sb, woken⟩ := getG_wakeKeys (s := wrBytes (homeTouch s f.ctx 0 (pas.headD 0)) wr) touched f.gid f.by_ ((wr.map Prod.fst).map (fun p => p / 128))
  have received : getG (dropF (atWriteBack (atL1 (performBy (homeTouch s f.ctx 0 (pas.headD 0)) f.gid f.by_ wr) f.core ls (wr, vs)) f.gid dst vs) id)
      f.gid = some (withOld dst vs { g with slotA := sa, slotB := sb }) := getG_atWriteBack woken
  obtain ⟨time, complete, later⟩ := getG_homeComplete received (pas.headD 0) wr
  refine ⟨_, { g with slotA := sa, slotB := sb }, time, exec_homeAtomicPerform_home hf hop hpas turn good far alone ready hr, ?_, rfl, rfl,
    fun p => ?_, fun some_ => ?_⟩
  · rw [getG_settleArrivals]
    exact complete
  · rw [rdByte, settleArrivals_mem, homeComplete_mem, dropF_mem, atWriteBack_mem, atL1_mem]
    exact (fget_fputs memDefault p wr _).trans (by rw [homeTouch_mem]; rfl)
  · have clock : (dropF (atWriteBack (atL1 (performBy (homeTouch s f.ctx 0 (pas.headD 0)) f.gid f.by_ wr) f.core ls (wr, vs)) f.gid dst vs) id).time =
        s.time := by
      rw [dropF_time, atWriteBack_time, atL1_time, performBy_time]
      exact (MemoryWork.homeTouch s f.ctx 0 (pas.headD 0)).time
    have kept : (withOld dst vs { g with slotA := sa, slotB := sb }).wct = g.wct := (withOld_frame _).2
    obtain ⟨now, before⟩ := later some_
    exact ⟨clock ▸ now, kept ▸ before⟩

end perform

theorem rv_eq_of_v_eq {g h : Group} (same : g.v = h.v) : rv g = rv h := by
  unfold rv
  rw [same]

/-- The registers that the old values are in. -/
theorem oldRegisters {dst : Nat} {vs : List (Nat × List Byte)} {g g0 g' : Group} (v0 : g0.v = g.v) (s0 : g0.s = g.s)
    (hv : g'.v = (withOld dst vs g0).v) (hs : g'.s = (withOld dst vs g0).s) : (dst = 352 → g'.v = g.v ∧ g'.s = g.s) ∧
      (dst < 256 → (vs.map Prod.fst).Nodup → (∀ q ∈ vs, q.1 < 64) →
        (∀ q ∈ vs, if q.2.length = 16 then rv g' dst q.1 = BitVec.ofNat 64 (ofBytes (q.2.take 8)) ∧
            rv g' (dst + 1) q.1 = BitVec.ofNat 64 (ofBytes (q.2.drop 8)) else rv g' dst q.1 = BitVec.ofNat 64 (ofBytes q.2)) ∧
        (∀ reg l, l < 64 → (∀ q ∈ vs, q.1 = l → reg ≠ dst ∧ reg ≠ dst + 1) → rv g' reg l = rv g reg l)) := by
  refine ⟨fun none_ => ?_, fun small distinct lanes => ?_⟩
  · rw [hv, hs, withOld_none g0 none_]
    exact ⟨v0, s0⟩
  · rw [rv_eq_of_v_eq hv, ← rv_eq_of_v_eq v0]
    exact ⟨fun q hq => rv_withOld small lanes distinct g0 hq, fun reg l hl other => rv_withOld_other small lanes hl other g0⟩

/-- Settles O34: a word sends an operation for each line, and the operation's lanes act one after the other at the home or at the core's unit. -/
theorem atomicWords : Obligations.AtomicWords := by
  unfold Obligations.AtomicWords
  refine ⟨fun s x w i op useC z ls word hz h passed ready => exec_atomic_issues word hz h passed (atOrder_eq w ▸ ready),
    fun z m b c sg _ hb => atResult_eq c sg hb, fun g code lane z => rfl, fun op sg m ls l b c wr vs old before hold => ?_,
    fun s core pas => rfl, fun s id dst f g op sg a r ls sc pas wr vs hf hop hg hpas hr turn good ready => ?_⟩
  · rw [atLanes_concat, before, laneOld_map, ← hold, laneWrites]
    cases atResult op sg l.pas.length (ofBytes old) b c <;> rfl
  · have lanes : vs.map Prod.fst = ls.map (fun l => l.1.lane) := by
      rw [← atLanes_lanes op sg (if sc = .gr ∨ sc = .tm then unitBytes s f.core else fun q => q.map (rdByte s)) ls, ← hr]
    have within (inside : ∀ l ∈ ls, l.1.lane < 64 ∧ (l.1.pas.length ≤ 8 ∨ l.1.pas.length = 16)) : ∀ q ∈ vs, q.1 < 64 := by
      intro q hq
      obtain ⟨l, hl, lane⟩ := List.mem_map.1 (lanes ▸ List.mem_map_of_mem hq)
      exact lane ▸ (inside l hl).1
    by_cases near : sc = .gr ∨ sc = .tm
    · rw [if_pos near] at hr ready
      obtain ⟨t, run, received, bytes, sent⟩ := homeAtomicPerform_unit hf hop hg hpas turn good near ready hr.symm
      obtain ⟨none_, vector⟩ := oldRegisters (dst := dst) (vs := vs) (g := g) rfl rfl rfl rfl
      exact ⟨t, _, run, received, by rw [if_pos near]; exact ⟨bytes, sent⟩, none_, fun small distinct inside =>
        vector small (lanes ▸ distinct) (within inside)⟩
    · rw [if_neg near] at hr ready
      obtain ⟨t, g0, time, run, received, hv, hs, bytes, later⟩ := homeAtomicPerform_home hf hop hg hpas turn good near ready.1 ready.2 hr.symm
      obtain ⟨none_, vector⟩ := oldRegisters (dst := dst) (vs := vs) (g' := { withOld dst vs g0 with wct := time }) hv hs rfl rfl
      exact ⟨t, _, run, received, by rw [if_neg near]; exact ⟨bytes, later⟩, none_, fun small distinct inside =>
        vector small (lanes ▸ distinct) (within inside)⟩

end Sys2Proof.Proofs
end


section
/-! PROOF. Taking an exception with a handler, and the fault record (20_fault_model.md R443 to R446). -/

namespace Sys2Proof.Proofs
open Sys2Proof Sys2Proof.Machine Sys2Proof.Laws

/-! Entering a handler (R446, R267). -/

theorem parkOther_eq (g : Group) (b : Bool) : parkOther g b = setSlot g (!b) (slotOf (parkOther g b) (!b)) := by
  cases b <;> (unfold parkOther; dsimp only; split <;> try split_ifs) <;> rfl

theorem slotOf_parkOther (g : Group) (b : Bool) : slotOf (parkOther g b) b = slotOf g b := by
  rw [parkOther_eq]
  cases b <;> rfl

/-- The other slot parks unless it is free or within a clause (R267). -/
theorem slotOf_parkOther_not {g : Group} {b : Bool} (taken : (slotOf g (!b)).st ≠ .free) (outside : (slotOf g (!b)).started = false) :
    slotOf (parkOther g b) (!b) = { slotOf g (!b) with park := some .handler } := by
  unfold parkOther
  dsimp only
  split
  · next free => exact absurd free taken
  · rw [if_neg (by rw [outside]; exact Bool.false_ne_true), slotOf_setSlot_same]

theorem setSlot_eq (g : Group) (b : Bool) (x : Slot) : ∃ sa sb, setSlot g b x = { g with slotA := sa, slotB := sb } := by
  cases b
  · exact ⟨x, g.slotB, rfl⟩
  · exact ⟨g.slotA, x, rfl⟩

/-- At a handler's entry the group differs in its slots, its handler, its replays and its hold alone (R446). -/
theorem entryGroup_eq (s : State) (g : Group) (b hdr : Bool) (f : FInfo) (epc eidx : Nat) : ∃ sa sb r,
    entryGroup s g b hdr f epc eidx =
      { g with slotA := sa, slotB := sb, replay := r, hold := false, handler := some (newHandler s g b hdr f epc eidx) } := by
  rw [entryGroup, parkOther_eq]
  generalize slotOf (parkOther _ _) _ = other
  obtain ⟨sa, sb, entered⟩ := setSlot_eq { setHandler (setReplay g b none) (some (newHandler s g b hdr f epc eidx)) with hold := false } b
    (entrySlot (slotOf g b) (trapOf s g))
  obtain ⟨sa', sb', parked⟩ := setSlot_eq (setSlot _ b (entrySlot (slotOf g b) (trapOf s g))) (!b) other
  refine ⟨sa', sb', (setReplay g b none).replay, ?_⟩
  rw [parked, entered]
  rfl

theorem slotOf_entryGroup (s : State) (g : Group) (b hdr : Bool) (f : FInfo) (epc eidx : Nat) :
    slotOf (entryGroup s g b hdr f epc eidx) b = entrySlot (slotOf g b) (trapOf s g) := by
  rw [entryGroup, slotOf_parkOther, slotOf_setSlot_same]

theorem slotOf_entryGroup_not (s : State) {g : Group} {b : Bool} (hdr : Bool) (f : FInfo) (epc eidx : Nat) (taken : (slotOf g (!b)).st ≠ .free)
    (outside : (slotOf g (!b)).started = false) :
    slotOf (entryGroup s g b hdr f epc eidx) (!b) = { slotOf g (!b) with park := some .handler } := by
  have same : slotOf (setSlot { setHandler (setReplay g b none) (some (newHandler s g b hdr f epc eidx)) with hold := false } b
      (entrySlot (slotOf g b) (trapOf s g))) (!b) = slotOf g (!b) := by cases b <;> rfl
  rw [entryGroup, slotOf_parkOther_not (by rwa [same]) (by rwa [same]), same]

/-- Settles O13: the group is the one at the handler's entry, with its waiting stores on their way. -/
theorem takingAnException : Obligations.TakingAnException := by
  unfold Obligations.TakingAnException
  intro s g b hdr f epc eidx hg trap noHandler delivered
  obtain ⟨sa, sb, r, entry⟩ := entryGroup_eq s g b hdr f epc eidx
  have mine := slotOf_entryGroup s g b hdr f epc eidx
  have other := slotOf_entryGroup_not s (b := b) hdr f epc eidx (g := g)
  have taken : takeException s g b hdr f epc eidx = drainWcb (putG s (entryGroup s g b hdr f epc eidx)) g.gid :=
    if_pos ⟨trap, by rw [noHandler]; rfl, delivered⟩
  have gid : (entryGroup s g b hdr f epc eidx).gid = g.gid := by rw [entry]
  rw [taken, ← gid]
  rw [← gid] at hg
  generalize entryGroup s g b hdr f epc eidx = h at *
  have found : getG (putG s h) h.gid = some h := getG_putG_same hg
  have teams : (drainWcb (putG s h) h.gid).teams = s.teams := by rw [drainWcb_found found]; rfl
  have slots (c : Bool) : slotOf { h with wcb := [] } c = slotOf h c := by cases c <;> rfl
  refine ⟨{ h with wcb := [] }, newHandler s g b hdr f epc eidx, getG_drainWcb_same found, ?_⟩
  rw [slots, slots, mine, teams, drainWcb_mem, putG_mem]
  subst entry
  exact ⟨rfl, rfl, rfl, rfl, rfl, rfl, rfl, rfl, rfl, rfl, rfl, rfl, rfl, fun taken outside => by rw [other taken outside], rfl, rfl, rfl,
    rfl, rfl, rfl, rfl, rfl, rfl, rfl⟩

/-! The fault record (R444). -/

/-- A fault that names lane 64, which no group has. -/
def faultOfLane64 : FInfo := { cls := 0, code := 0, lane := some 64 }

/-- A group of 64 lanes with nothing in it. -/
def emptyGroup : Group :=
  { gid := 1, ctx := 0, grid := 0, cluster := 0, team := 0, tidx := 0, num := 0, width := 64, core := 0, part := 0, rows := 0, accN := 0, parN := 0,
    depthD := 0 }

/-- Lane 64 carries into bit 64, which a doubleword does not have, so bit 63 reads as if no lane were named. -/
theorem mkRecord_faultOfLane64 : ((mkRecord State.reset emptyGroup false false faultOfLane64 0#64).getD 6 0#64).getLsbD 63 = false := by decide

/-- Refutes O14: the statement puts no bound on the lane that a fault names, and with lane 64 the bit that says whether a lane is named
is 0. -/
theorem not_faultRecords : ¬ Obligations.FaultRecords := by
  unfold Obligations.FaultRecords
  rintro ⟨fields, -⟩
  obtain ⟨q0, q1, q2, q6, words, fields⟩ := fields State.reset emptyGroup false faultOfLane64 0#64 (by decide) (by decide) (by decide) (by decide)
    (by decide) (by decide) (by decide) rfl (by decide) (by decide) (by decide) (by decide) (by decide) (by decide) (by decide) (by decide)
    (by decide)
  obtain ⟨-, -, -, -, -, -, -, -, -, -, -, -, -, -, -, -, named, -⟩ := fields
  have unnamed := mkRecord_faultOfLane64
  rw [words] at unnamed
  exact Bool.false_ne_true (unnamed.symm.trans named)

end Sys2Proof.Proofs
end

section
/-! PROOF. The feedback words: seed and table of a group's punty context (12_matrix_training.md R350 to R352, 06_training_flow.md R166). -/

namespace Sys2Proof.Proofs
open Sys2Proof Sys2Proof.Machine Sys2Proof.Laws

/-! A feedback record (R350). -/

theorem fget_foldl_fput_range {β : Type} [DecidableEq β] (d : β) (f : Nat → β) (n k : Nat) (m : FMap β) :
    fget d k ((List.range n).foldl (fun m k => fput d k (f k) m) m) = if k < n then f k else fget d k m := by
  induction n with
  | zero => rfl
  | succ n ih =>
    rw [List.range_succ, List.foldl_append, List.foldl_cons, List.foldl_nil, fget_fput, ih]
    by_cases last : k = n
    · rw [if_pos last, if_pos (by omega), last]
    · rw [if_neg last]
      exact if_congr (by omega) rfl rfl

/-- The table that a feedback record holds (R166). -/
def recordTable (b : List Byte) : FMap (BitVec 16) :=
  (List.range 16).foldl (fun m k => fput 0#16 k (BitVec.ofNat 16 (le b (8 + 2 * k) 2)) m) []

theorem feedbackBad_none {b : List Byte} (reserved : ∀ i, 4 ≤ i → i < 64 → ¬ (8 ≤ i ∧ i < 40) → b.getD i 0#8 = 0#8) :
    feedbackBad b = none := by
  refine List.find?_eq_none.2 fun i hi => ?_
  have place : 4 ≤ i ∧ i < 64 ∧ ¬ (8 ≤ i ∧ i < 40) := by
    rcases List.mem_append.1 hi with hi | hi
    · revert i
      decide
    · obtain ⟨k, hk, rfl⟩ := List.mem_map.1 hi
      have := List.mem_range.1 hk
      omega
  obtain ⟨low, high, outside⟩ := place
  simpa using reserved i low high outside

theorem exec_fbSet_loads {s s1 : State} {x : Issue} {w : SWord} {l : Lane} {b : List Byte} (h : Issues s (.fbSet w) x)
    (passed : laneCheck s x.g 0 (rs x.g w.a.toNat).toNat 64 1 1 true 4 = .ok l) (read : readNow s x.g l.pas = some (.inr (s1, b)))
    (sound : feedbackBad b = none) : exec (.fbSet w) s = .next (performed x (putG (clearWalks s1 x.g.gid)
      { walkDone x.g x.b with seed := BitVec.ofNat 32 (le b 0 4), table := recordTable b })) := by
  rw [exec_fbSet, execFbSet, runWord_unmasked h rfl rfl]
  simp only [passed, read, sound]
  rfl

/-! Entries of the table (R351, R352). -/

section table
variable (x : Issue) (w : VWord) (set : Bool)

/-- What entry `k` of the table becomes, with the flags it raises. -/
def tabEntry (k : Nat) : Nat × Nat :=
  if set then (elem 16 (k % 4) (rv x.g w.a.toNat (k / 4)), 0)
  else addF fmtB16 {} false (fget 0#16 k x.g.table).toNat (elem 16 (k % 4) (rv x.g w.a.toNat (k / 4)))

/-- The group once entry `k` has been dealt with. -/
def tabStep (g : Group) (k : Nat) : Group :=
  if !x.active.getLsbD (k / 4) then g
  else
    let e := elem 16 (k % 4) (rv x.g w.a.toNat (k / 4))
    let r := if set then (e, 0) else addF fmtB16 {} false (fget 0#16 k g.table).toNat e
    raiseFlags { g with table := fput 0#16 k (BitVec.ofNat 16 r.1) g.table } (BitVec.ofNat 5 r.2)

theorem tabStep_inactive {k : Nat} (inactive : x.active.getLsbD (k / 4) = false) (g : Group) : tabStep x w set g k = g := by
  rw [tabStep, inactive]
  rfl

theorem tabStep_active {g : Group} {k : Nat} (active : x.active.getLsbD (k / 4) = true) (entry : fget 0#16 k g.table = fget 0#16 k x.g.table) :
    tabStep x w set g k = { g with table := fput 0#16 k (BitVec.ofNat 16 (tabEntry x w set k).1) g.table,
                                   flags := g.flags ||| BitVec.ofNat 5 (tabEntry x w set k).2 } := by
  rw [tabStep, active, entry]
  rfl

/-- The first `n` entries once they have been dealt with, each from the table as it was. -/
theorem tabStep_range (n : Nat) : ∃ tab fl, (List.range n).foldl (tabStep x w set) x.g = { x.g with table := tab, flags := fl } ∧
    (∀ k, fget 0#16 k tab = if k < n ∧ x.active.getLsbD (k / 4) = true then BitVec.ofNat 16 (tabEntry x w set k).1 else fget 0#16 k x.g.table) ∧
    ∀ i < 5, (fl.getLsbD i = true ↔ x.g.flags.getLsbD i = true ∨
      ∃ k < n, x.active.getLsbD (k / 4) = true ∧ (tabEntry x w set k).2.testBit i = true) := by
  induction n with
  | zero => exact ⟨x.g.table, x.g.flags, rfl, fun k => by simp, fun i _ => by simp⟩
  | succ n ih =>
    obtain ⟨tab, fl, group, entries, flags⟩ := ih
    rw [List.range_succ, List.foldl_append, group]
    cases active : x.active.getLsbD (n / 4) with
    | false =>
      refine ⟨tab, fl, tabStep_inactive x w set active _, fun k => ?_, fun i hi => ?_⟩
      · rw [entries]
        refine if_congr ⟨fun ⟨hk, on⟩ => ⟨by omega, on⟩, fun ⟨hk, on⟩ => ⟨?_, on⟩⟩ rfl rfl
        rcases Nat.lt_succ_iff_lt_or_eq.1 hk with hk | rfl
        · exact hk
        · rw [active] at on
          cases on
      · rw [flags i hi, Nat.exists_lt_succ_right, active]
        simp only [Bool.false_eq_true, false_and, or_false]
    | true =>
      have untouched : fget 0#16 n tab = fget 0#16 n x.g.table := by rw [entries, if_neg (by simp)]
      refine ⟨_, _, tabStep_active x w set active untouched, fun k => ?_, fun i hi => ?_⟩
      · rw [fget_fput, entries]
        by_cases last : k = n
        · rw [if_pos last, last, if_pos ⟨Nat.lt_succ_self n, active⟩]
        · rw [if_neg last]
          exact if_congr (and_congr_left' (by omega)) rfl rfl
      · rw [BitVec.getLsbD_or, BitVec.getLsbD_ofNat, Bool.or_eq_true, flags i hi, Nat.exists_lt_succ_right, active, decide_eq_true hi, or_assoc]
        simp only [Bool.true_and, true_and]

theorem exec_tabWord {s : State} {i : Instr} (h : Issues s i x) (hm : w.msel.toNat = mselOf i) (hp : false = perLaneOf i) :
    tabWord i w set s = .next (performed x (putG s ((List.range 16).foldl (tabStep x w set) x.g))) := by
  rw [tabWord, runWord_normal h hm hp]
  exact congrArg _ (settle_ok x _)

end table

/-- Settles O42: the record's fields, and the table entry by entry. -/
theorem feedbackWords : Obligations.FeedbackWords := by
  unfold Obligations.FeedbackWords
  refine ⟨fun s x w a l s1 b ha h passed read _ reserved => ?record, fun s x w => ⟨fun h => ?set, fun h => ?add⟩⟩
  case record =>
    refine ⟨recordTable b, exec_fbSet_loads h (ha ▸ passed) read (feedbackBad_none reserved), fun k hk => ?_⟩
    rw [recordTable, fget_foldl_fput_range, if_pos hk]
  case set =>
    obtain ⟨tab, fl, group, entries, flags⟩ := tabStep_range x w true 16
    have quiet : fl = x.g.flags := by
      refine BitVec.eq_of_getLsbD_eq fun i hi => Bool.eq_iff_iff.2 ((flags i hi).trans (or_iff_left ?_))
      rintro ⟨k, -, -, raised⟩
      exact Bool.false_ne_true ((Nat.zero_testBit i).symm.trans raised)
    refine ⟨tab, ?_, fun k hk => ?_⟩
    · rw [exec_fbTabSet, execFbTabSet, exec_tabWord x w true h rfl rfl, group, quiet]
    · rw [entries]
      exact if_congr (and_iff_right hk) rfl rfl
  case add =>
    obtain ⟨tab, fl, group, entries, flags⟩ := tabStep_range x w false 16
    refine ⟨tab, fl, ?_, fun k hk => ?_, fun i hi => flags i hi⟩
    · rw [exec_fbTab, execFbTab, exec_tabWord x w false h rfl rfl, group]
    · rw [entries]
      exact if_congr (and_iff_right hk) rfl rfl

end Sys2Proof.Proofs
end

section
/-! PROOF. Tile words, the pontil and speculation (12_matrix_training.md R345 to R349, 03_scheduling.md R86). -/

namespace Sys2Proof.Proofs
open Sys2Proof Sys2Proof.Machine Sys2Proof.Laws

/-! Words on a tile (R345, R346). -/

theorem lanesOf_eq_nil {m : W64} : lanesOf m = [] ↔ m = 0#64 := by
  refine ⟨fun none_ => BitVec.eq_of_getLsbD_eq fun i hi => ?_, fun zero => by rw [zero]; rfl⟩
  rw [BitVec.getLsbD_zero, ← Bool.not_eq_true]
  exact fun set => List.not_mem_nil (none_ ▸ mem_lanesOf.2 ⟨hi, set⟩)

theorem tileBad_inside {g : Group} {n : Nat} (inside : n < g.accN) : tileBad g n = none := if_neg (Nat.not_le_of_lt inside)

theorem tileBad_beyond {g : Group} {n : Nat} (beyond : g.accN ≤ n) : tileBad g n = some { cls := 0x12, code := 1, index := n } := if_pos beyond

theorem firstFault_eq_none {l : List (Option FInfo)} (sound : ∀ e ∈ l, e = none) : firstFault l = none := by
  induction l with
  | nil => rfl
  | cons e l ih =>
    obtain ⟨rfl, rest⟩ := List.forall_mem_cons.1 sound
    rw [firstFault_none, ih rest]

theorem waitTiles_clear {s : State} {x : Issue} {locs : Option (List Nat)} (idle : tileBusy s x.g.gid locs (tileMark s x) = false)
    (good : tileDue x.g locs = none) (wait : Nat → Res) : waitTiles s x locs wait = none := by
  simp only [waitTiles, idle, good, Bool.false_eq_true, if_false, Option.map_none]

section tiles
variable {s : State} {x : Issue} {w : XWord}

theorem exec_mxZero_issues (h : Issues s (.mxZero w) x) (inside : w.tile.toNat < x.g.accN) : exec (.mxZero w) s = .next (performed x
    (if x.active = 0#64 then s else settleTiles
      (launchOp s x.g.gid x.g.ctx x.g.core .tiles (.tileSet [(tileLoc x.g w.tile.toNat, none)] (lanesOf x.active))) x.g.gid)) := by
  rw [exec_mxZero, execMxZero, runWord_normal (m := w.msel.toNat) (p := false) h rfl rfl]
  simp only [tileBad_inside inside, List.isEmpty_iff, lanesOf_eq_nil]
  split_ifs <;> rw [settle_ok]

theorem exec_eq_xferWord {store : Bool} {i : Instr} (hi : i = if store then .mxSt w else .mxLd w) :
    exec i s = xferWord i w store s ∧ w.msel.toNat = mselOf i ∧ false = perLaneOf i := by
  cases store <;> subst hi <;> exact ⟨rfl, rfl, rfl⟩

section transfers
variable {store : Bool} {i : Instr} {t : Team} (hi : i = if store then .mxSt w else .mxLd w) (h : Issues s i x) (ht : teamOf s x.g = some t)
include hi h ht

theorem exec_tileTransfer_launches (inside : w.tile.toNat < x.g.accN)
    (range : mxAddrBad t (rs x.g w.base.toNat).toNat (mxAddr x.g w) 128 (256 * x.g.width) = none)
    (lines : ∀ l ∈ lanesOf x.active, mxFaulted t (mxAddr x.g w + 256 * l) 256 = none) (some_ : x.active ≠ 0#64) :
    exec i s = .next (performed x (launchOp s x.g.gid x.g.ctx x.g.core .tiles
      (.tileXfer store (tileLoc x.g w.tile.toNat) (lanesOf x.active) t.tid (mxAddr x.g w)))) := by
  obtain ⟨run, hm, hp⟩ := exec_eq_xferWord (s := s) hi
  have sound : firstFault ([tileBad x.g w.tile.toNat, mxAddrBad t (rs x.g w.base.toNat).toNat (mxAddr x.g w) 128 (256 * x.g.width)] ++
      (lanesOf x.active).map (fun l => (mxFaulted t (mxAddr x.g w + 256 * l) 256).map (fun f => { f with addr := mxAddr x.g w }))) = none := by
    refine firstFault_eq_none ?_
    simp only [List.forall_mem_append, List.forall_mem_cons, List.forall_mem_map, Option.map_eq_none_iff]
    exact ⟨⟨tileBad_inside inside, range, List.forall_mem_nil _⟩, lines⟩
  rw [run, xferWord, runWord_normal h hm hp]
  simp only [ht, sound, List.isEmpty_iff, lanesOf_eq_nil, if_neg some_, settle_ok]

theorem exec_tileTransfer_beyond (beyond : x.g.accN ≤ w.tile.toNat) :
    exec i s = .next (raised x s { cls := 0x12, code := 1, index := w.tile.toNat }) := by
  obtain ⟨run, hm, hp⟩ := exec_eq_xferWord (s := s) hi
  rw [run, xferWord, runWord_normal h hm hp]
  simp only [ht, tileBad_beyond beyond, List.cons_append, firstFault_some, settle_bad]

end transfers

theorem exec_mxWait_clear (h : Issues s (.mxWait w) x) {locs : Option (List Nat)}
    (hl : locs = if w.bit4 then none else some [w.tile.toNat, tileLoc x.g w.tile.toNat]) (sound : w.bit4 = true ∨ w.tile.toNat < x.g.accN)
    (idle : tileBusy s x.g.gid locs (tileMark s x) = false) (good : tileDue x.g locs = none) :
    exec (.mxWait w) s = .next (performed x s) := by
  have bad : (if w.bit4 = true then none else tileBad x.g w.tile.toNat) = none := by
    rcases sound with all | inside
    · exact if_pos all
    · rw [tileBad_inside inside, ite_self]
  rw [exec_mxWait, execMxWait, runWord_unmasked h rfl rfl]
  simp only [bad, ← hl, waitTiles_clear idle good, Option.getD_none, settle_ok]

end tiles

/-! The pontil (R86). -/

section pontil
variable {s : State} {x : Issue} {w : XWord}

theorem exec_plTake_issues (h : Issues s (.plTake w) x) : exec (.plTake w) s = .next (settle x false
    (if (getPart s x.g.core x.g.part).pontil = none then .ok (putPart s { getPart s x.g.core x.g.part with pontil := some x.g.gid })
      else if (getPart s x.g.core x.g.part).pontil = some x.g.gid then .ok s else .park s .pontil)) := by
  rw [exec_plTake, execPlTake, runWord_unmasked h rfl rfl]
  cases held : (getPart s x.g.core x.g.part).pontil with
  | none => simp only [held, if_true]
  | some h => simp only [held, reduceCtorEq, if_false, Option.some.injEq]

theorem exec_plPass_unheld (h : Issues s (.plPass w) x) (unheld : (getPart s x.g.core x.g.part).pontil ≠ some x.g.gid) :
    exec (.plPass w) s = .next (raised x s { cls := 0x13, code := 2 }) := by
  rw [exec_plPass, execPlPass, runWord_unmasked h rfl rfl]
  simp only [if_pos unheld]
  rfl

theorem exec_plPass_passes (h : Issues s (.plPass w) x) (held : (getPart s x.g.core x.g.part).pontil = some x.g.gid) {o : Group}
    (found : s.groups.find? (fun g => g.team == x.g.team && g.core == x.g.core && g.part == x.g.part && g.num == w.tile.toNat) = some o) :
    exec (.plPass w) s = .next (performed x (putPart s { getPart s x.g.core x.g.part with pontil := some o.gid })) := by
  rw [exec_plPass, execPlPass, runWord_unmasked h rfl rfl]
  simp only [held, ne_eq, not_true_eq_false, if_false, found, settle_ok]

theorem exec_plPass_nobody (h : Issues s (.plPass w) x) (held : (getPart s x.g.core x.g.part).pontil = some x.g.gid)
    (nobody : s.groups.find? (fun g => g.team == x.g.team && g.core == x.g.core && g.part == x.g.part && g.num == w.tile.toNat) = none) :
    exec (.plPass w) s = .next (raised x s { cls := 0x13, code := 3, index := w.tile.toNat }) := by
  rw [exec_plPass, execPlPass, runWord_unmasked h rfl rfl]
  simp only [held, ne_eq, not_true_eq_false, if_false, nobody]
  rfl

theorem exec_plPassFree_issues (h : Issues s (.plPassFree w) x) : exec (.plPassFree w) s = .next (settle x false
    (if (getPart s x.g.core x.g.part).pontil ≠ some x.g.gid then badW s 0x13 2 0 0 else .ok (pontilFree s x.g.core x.g.part))) := by
  rw [exec_plPassFree, execPlPassFree, runWord_unmasked h rfl rfl]

end pontil

/-! Speculation (R348, R349). -/

section speculation
variable {s : State} {x : Issue} {w : SWord}

theorem exec_spOpen_issues {n c : Nat} (hn : n = imm20 w % 32) (hc : c = imm20 w / 32 % 16 + 1) (h : Issues s (.spOpen w) x) :
    exec (.spOpen w) s = .next (settle x false (if x.g.accN < n + c then badW s 0x12 1 0 (n + c - 1)
      else if x.g.parN < c then badW s 0x12 2 0 c else if x.g.spec.isSome then badW s 0x12 7 0 0
      else .ok (settleTiles (launchOp (putG s { x.g with spec := some (n, c) }) x.g.gid x.g.ctx x.g.core .tiles
        (.tileSet ((List.range c).map (fun k => (32 + k, some (n + k)))) (List.range x.g.width))) x.g.gid))) := by
  rw [exec_spOpen, execSpOpen, runWord_unmasked h rfl rfl, hn, hc]
  simp only [fld_eq_div_mod, allLanes, Nat.reducePow]

theorem exec_spKeep_keeps (h : Issues s (.spKeep w) x) {n c : Nat} (opened : x.g.spec = some (n, c)) :
    exec (.spKeep w) s = .next (performed x (settleTiles (launchOp (putG s { x.g with spec := none }) x.g.gid x.g.ctx x.g.core .tiles
      (.tileSet ((List.range c).map (fun k => (n + k, some (32 + k)))) (List.range x.g.width))) x.g.gid)) := by
  rw [exec_spKeep, execSpKeep, runWord_unmasked h rfl rfl]
  simp only [opened, allLanes, settle_ok]

theorem exec_spKeep_closed (h : Issues s (.spKeep w) x) (closed : x.g.spec = none) :
    exec (.spKeep w) s = .next (raised x s { cls := 0x12, code := 8 }) := by
  rw [exec_spKeep, execSpKeep, runWord_unmasked h rfl rfl]
  simp only [closed]
  rfl

theorem exec_spDrop_issues (h : Issues s (.spDrop w) x) : exec (.spDrop w) s = .next (settle x false
    (if x.g.spec.isNone then badW s 0x12 8 0 0 else okG s { x.g with spec := none })) := by
  rw [exec_spDrop, execSpDrop, runWord_unmasked h rfl rfl]

end speculation

/-- Settles O41: each word by the state of its tile, of its partition's pontil, or of its group's speculation. -/
theorem tilePontilAndSpeculation : Obligations.TilePontilAndSpeculation := by
  unfold Obligations.TilePontilAndSpeculation
  refine ⟨fun s x w => ⟨fun inside => ⟨fun h some_ => ?zero, fun h none_ => ?zeroNone, ?transfer, fun h one idle good => ?waitOne⟩,
    fun h all idle good => ?waitAll, fun h => ?rel, fun i hi beyond h team => ?beyond⟩, fun s x w p hp => ?pontil, fun s x w n c hn hc => ?spec⟩
  case zero => rw [exec_mxZero_issues h inside, if_neg some_]
  case zeroNone => rw [exec_mxZero_issues h inside, if_pos none_]
  case transfer =>
    intro store i t a hi h ht ha range lines some_
    subst ha
    exact exec_tileTransfer_launches hi h ht inside range lines some_
  case waitOne => exact exec_mxWait_clear h (by rw [one]; rfl) (.inr inside) idle good
  case waitAll => exact exec_mxWait_clear h (by rw [all]; rfl) (.inl all) idle good
  case rel =>
    rw [exec_mxRel, execMxRel, runWord_unmasked h rfl rfl]
    exact congrArg _ (settle_ok x _)
  case beyond =>
    obtain ⟨t, ht⟩ := Option.isSome_iff_exists.1 team
    simp only [List.mem_cons, List.not_mem_nil, or_false] at hi
    rcases hi with rfl | rfl | rfl
    · rw [exec_mxZero, execMxZero, runWord_normal (m := w.msel.toNat) (p := false) h rfl rfl]
      simp only [tileBad_beyond beyond, settle_bad]
    · exact exec_tileTransfer_beyond (store := false) rfl h ht beyond
    · exact exec_tileTransfer_beyond (store := true) rfl h ht beyond
  case pontil =>
    subst hp
    refine ⟨fun h => ⟨fun free => ?_, fun mine => ?_, fun o theirs other => ?_⟩,
      fun h => ⟨exec_plPass_unheld h, fun o held found => exec_plPass_passes h held found, fun held nobody => exec_plPass_nobody h held ?_⟩,
      fun h => ⟨fun unheld => ?_, fun held => ?_⟩⟩
    · rw [exec_plTake_issues h, if_pos free, settle_ok]
    · rw [exec_plTake_issues h, mine, if_neg (Option.some_ne_none _), if_pos rfl, settle_ok]
    · rw [exec_plTake_issues h, theirs, if_neg (Option.some_ne_none _), if_neg (fun same => other (Option.some.inj same)), settle_park]
    · refine List.find?_eq_none.2 fun g hg => ?_
      simpa only [Bool.and_eq_true, beq_iff_eq, and_assoc] using nobody g hg
    · rw [exec_plPassFree_issues h, if_pos unheld]
      rfl
    · rw [exec_plPassFree_issues h, if_neg (not_not.2 held), settle_ok]
  case spec =>
    refine ⟨fun h => ⟨fun tiles parisons closed => ?_, fun tiles => ?_, fun tiles parisons => ?_, fun tiles parisons opened => ?_⟩,
      fun h => ⟨fun n c opened => exec_spKeep_keeps h opened, exec_spKeep_closed h⟩, fun h => ⟨fun opened => ?_, fun closed => ?_⟩⟩
    · rw [exec_spOpen_issues hn hc h, if_neg (Nat.not_lt.2 tiles), if_neg (Nat.not_lt.2 parisons), if_neg (by rw [closed]; exact Bool.false_ne_true), settle_ok]
    · rw [exec_spOpen_issues hn hc h, if_pos tiles]
      rfl
    · rw [exec_spOpen_issues hn hc h, if_neg (Nat.not_lt.2 tiles), if_pos parisons]
      rfl
    · rw [exec_spOpen_issues hn hc h, if_neg (Nat.not_lt.2 tiles), if_neg (Nat.not_lt.2 parisons), if_pos (Option.isSome_iff_ne_none.2 opened)]
      rfl
    · rw [exec_spDrop_issues h, if_neg (by rwa [Option.isNone_iff_eq_none])]
      exact congrArg _ (settle_ok x _)
    · rw [exec_spDrop_issues h, if_pos (Option.isNone_iff_eq_none.2 closed)]
      rfl

end Sys2Proof.Proofs
end

section
/-! PROOF. Matrix passes: the value of one cell after a pass (07_numbers.md R200), and the words (12_matrix_training.md R338 to R344). -/

namespace Sys2Proof.Proofs
open Sys2Proof Sys2Proof.Machine Sys2Proof.Laws

/-! Integer passes. -/

theorem termOf_intFV (z : Int) : (termOf (intFV z)).1 = z := by
  simp only [termOf, intFV, decide_eq_true_eq]
  split_ifs with negative <;> omega

theorem valueQ_intFV (z : Int) : valueQ (intFV z) = z := by
  rw [← termQ_termOf, termQ, termOf_intFV]
  simp [termOf, intFV]

theorem combineI_eq (sat : Bool) (old : Nat) (sum : Int) : combineI sat old sum =
    if sat then wrap 32 (max (-(2 ^ 31)) (min (2 ^ 31 - 1) (toS 32 old + sum))) else wrap 32 (toS 32 old + sum) := by
  rw [combineI, clampI_eq (by norm_num)]
  split_ifs <;> rfl

section integers
variable (p : Pass) (pr : Pairing) (b n : Nat) (a : W64)

/-- The product of the integer elements `k` of A and B, read by their signs. -/
def intProduct (k : Nat) : Int :=
  (if pr.sgA then toS pr.sa (fld a.toNat (k * pr.sa) pr.sa) else (fld a.toNat (k * pr.sa) pr.sa : Int)) *
    (if pr.sgB then toS pr.sb (bElem p pr b k n) else ((bElem p pr b k n % 2 ^ pr.sb : Nat) : Int))

/-- The exact product of the elements `k` of A and B. -/
def product (t : Slot16) (k : Nat) : FV × Bool := passProd pr t.ftz (fld a.toNat (k * pr.sa) pr.sa) (bElem p pr b k n)

variable {pr}

theorem product_int (int : pr.int = true) (t : Slot16) (k : Nat) : product p pr b n a t k = (intFV (intProduct p pr b n a k), false) := by
  have inside : fld a.toNat (k * pr.sa) pr.sa % 2 ^ pr.sa = fld a.toNat (k * pr.sa) pr.sa := Nat.mod_mod _ _
  simp only [product, passProd, int, if_true, inside, intProduct]

theorem passCell_int (t : Slot16) (old : Nat) (int : pr.int = true) (plain : t.scale = false) : passCell t p pr b a old n =
    (combineI (p.sat || decide (t.ovf = 1)) old ((List.range pr.k).map (intProduct p pr b n a)).sum, 0) := by
  have products : ((List.range pr.k).map (fun k => (fld a.toNat (k * pr.sa) pr.sa, bElem p pr b k n))).map (fun x => passProd pr t.ftz x.1 x.2) =
      (List.range pr.k).map (fun k => (intFV (intProduct p pr b n a k), false)) := by
    rw [List.map_map]
    exact List.map_congr_left fun k _ => product_int p b n a int t k
  have sum (l : List Nat) (z : Int) : (l.map (fun k => (intFV (intProduct p pr b n a k), false))).foldl (fun a v => a + (termOf v.1).1) z =
      z + (l.map (intProduct p pr b n a)).sum := by
    induction l generalizing z with
    | nil => simp
    | cons k l ih => rw [List.map_cons, List.foldl_cons, ih, termOf_intFV, List.map_cons, List.sum_cons, add_assoc]
  rw [passCell, if_pos ⟨int, by rw [plain]; rfl⟩, products, sum, zero_add]

end integers

/-! The special values of a float pass, in their order. -/

section combine
variable {ftz : Bool} {old : Nat} {terms : List (FV × Bool)} {o : FV} (ho : o = decF fmtF32 ftz old)

/-- The signs of the infinities among the old value and the terms. -/
def infinities (o : FV) (terms : List (FV × Bool)) : List Bool := ((o :: terms.map Prod.fst).filter FV.isInf).map FV.neg

theorem mem_infinities {n : Bool} : n ∈ infinities o terms ↔ .inf n ∈ o :: terms.map Prod.fst := by
  rw [infinities, List.mem_map]
  constructor
  · rintro ⟨v, hv, rfl⟩
    obtain ⟨member, infinite⟩ := List.mem_filter.1 hv
    obtain ⟨n, rfl⟩ := isInf_iff.1 infinite
    exact member
  · exact fun member => ⟨.inf n, List.mem_filter.2 ⟨member, rfl⟩, rfl⟩

theorem infinities_eq_nil (finite : ∀ v ∈ o :: terms.map Prod.fst, v.isInf = false) : infinities o terms = [] := by
  rw [infinities, List.filter_eq_nil_iff.2 fun v hv => by simp [finite v hv], List.map_nil]

/-- Is a product zero times infinity, or does the sum meet infinities of both signs? -/
def invalidPass (o : FV) (terms : List (FV × Bool)) : Bool :=
  terms.any Prod.snd || ((infinities o terms).contains true && (infinities o terms).contains false)

theorem invalidPass_iff : invalidPass o terms = true ↔
    (∃ v ∈ terms, v.2 = true) ∨ (.inf true ∈ o :: terms.map Prod.fst ∧ .inf false ∈ o :: terms.map Prod.fst) := by
  simp only [invalidPass, Bool.or_eq_true, Bool.and_eq_true, List.any_eq_true, List.contains_iff_mem, mem_infinities]

include ho

theorem combineF_oldNan (narrow : old < 2 ^ 32) (nan : o.isNan = true) : combineF ftz old terms = (old ||| 2 ^ 22, 0) := by
  obtain ⟨neg, sig, pay, value⟩ := isNan_iff.1 nan
  have quieted := encNan_decF (f := fmtF32) (by decide) narrow (ho.symm.trans value)
  simp only [combineF, ← ho, value, isNan_nan, if_true, quieted]
  rfl

variable (real : o.isNan = false)
include real

theorem combineF_invalid (invalid : invalidPass o terms = true) : combineF ftz old terms = (defNan fmtF32, 16) := by
  rw [combineF, ← ho]
  exact (if_neg (Bool.eq_false_iff.1 real)).trans (if_pos invalid)

variable (valid : invalidPass o terms = false)
include valid

theorem combineF_termNan (nan : ∃ v ∈ terms, v.1.isNan = true) : combineF ftz old terms = (defNan fmtF32, 0) := by
  rw [combineF, ← ho]
  exact (if_neg (Bool.eq_false_iff.1 real)).trans ((if_neg (Bool.eq_false_iff.1 valid)).trans (if_pos (List.any_eq_true.2 nan)))

/-- Without NaNs and invalid operations the infinities decide, and without infinities the sum. -/
theorem combineF_real (reals : ∀ v ∈ terms, v.1.isNan = false) : combineF ftz old terms = (infinities o terms).head?.elim
    ((encF fmtF32 { ftz := ftz } (sumFV 0 (o :: terms.map Prod.fst))).1, (encF fmtF32 { ftz := ftz } (sumFV 0 (o :: terms.map Prod.fst))).2 &&& 20)
    (fun n => (infPat fmtF32 n, 0)) := by
  have noNan : ¬ (terms.any fun v => v.1.isNan) = true := by
    simpa only [List.any_eq_true, not_exists, not_and, Bool.not_eq_true] using reals
  rw [combineF, ← ho]
  refine (if_neg (Bool.eq_false_iff.1 real)).trans ((if_neg (Bool.eq_false_iff.1 valid)).trans ((if_neg noNan).trans ?_))
  change (match infinities o terms with | n :: _ => _ | [] => _) = _
  cases infinities o terms <;> rfl

theorem combineF_infinite (reals : ∀ v ∈ terms, v.1.isNan = false) {n : Bool} (infinite : .inf n ∈ o :: terms.map Prod.fst) :
    combineF ftz old terms = (infPat fmtF32 n, 0) := by
  rw [combineF_real ho real valid reals]
  have member := mem_infinities.2 infinite
  have oneSign : ¬ (true ∈ infinities o terms ∧ false ∈ infinities o terms) := fun both => by
    have invalid := invalidPass_iff.2 (.inr (both.imp mem_infinities.1 mem_infinities.1))
    rw [valid] at invalid
    cases invalid
  cases signs : infinities o terms with
  | nil => exact absurd (signs ▸ member) List.not_mem_nil
  | cons m r =>
    have first : m ∈ infinities o terms := signs ▸ List.mem_cons_self
    have same : m = n := by
      cases m <;> cases n
      · rfl
      · exact absurd ⟨member, first⟩ oneSign
      · exact absurd ⟨first, member⟩ oneSign
      · rfl
    rw [same]
    rfl

theorem combineF_finite (finite : ∀ v ∈ o :: terms.map Prod.fst, v.isNan = false ∧ v.isInf = false) : combineF ftz old terms =
    ((encF fmtF32 { ftz := ftz } (sumFV 0 (o :: terms.map Prod.fst))).1, (encF fmtF32 { ftz := ftz } (sumFV 0 (o :: terms.map Prod.fst))).2 &&& 20) := by
  rw [combineF_real ho real valid fun v hv => (finite v.1 (List.mem_cons_of_mem _ (List.mem_map_of_mem hv))).1,
    infinities_eq_nil fun v hv => (finite v hv).2]
  rfl

end combine

/-! The terms of a float pass, or of a scaled one. -/

section terms
variable (t : Slot16) (p : Pass) (pr : Pairing) (b n : Nat) (a : W64)

/-- The scale of A's row, and of B's column (R197). -/
def scaleA (a : W64) : Nat := fld a.toNat 56 8
def scaleB : Nat := if p.mmaf then 127 else fld b (8 * (pr.k * 8 * pr.sb + n)) 8

/-- The term of element `k`: the exact product, scaled where the slot scales (R200). -/
def passTerm (k : Nat) : FV × Bool :=
  if t.scale then (scaleProd (scaleA a) (scaleB p pr b n) (product p pr b n a t k).1, (product p pr b n a t k).2) else product p pr b n a t k

theorem passCell_float (old : Nat) (float : pr.int = false ∨ t.scale = true) :
    passCell t p pr b a old n = combineF t.ftz old ((List.range pr.k).map (passTerm t p pr b n a)) := by
  have notInt : ¬ (pr.int = true ∧ (!t.scale) = true) := by
    rintro ⟨int, plain⟩
    rcases float with float | scaled
    · rw [int] at float
      cases float
    · rw [scaled] at plain
      cases plain
  rw [passCell]
  refine (if_neg notInt).trans (congrArg (combineF t.ftz old) ?_)
  have term (k : Nat) : passTerm t p pr b n a k = if t.scale then (scaleProd (scaleA a) (scaleB p pr b n) (product p pr b n a t k).1,
      (product p pr b n a t k).2) else product p pr b n a t k := rfl
  cases scaled : t.scale with
  | false =>
    rw [if_neg Bool.false_ne_true, List.map_map]
    exact List.map_congr_left fun k _ => by rw [term, scaled]; rfl
  | true =>
    rw [if_pos rfl, List.map_map, List.map_map]
    exact List.map_congr_left fun k _ => by rw [term, scaled]; rfl

variable {t p pr b n a}

theorem scaleProd_nan (ea eb : Nat) : scaleProd ea eb (.nan false false 0) = .nan false false 0 := by
  unfold scaleProd
  split_ifs <;> rfl

theorem scaleProd_badScale {ea eb : Nat} (bad : ea = 255 ∨ eb = 255) (v : FV) : scaleProd ea eb v = .nan false false 0 := if_pos bad

theorem valueQ_scaleProd {ea eb : Nat} (goodA : ea ≠ 255) (goodB : eb ≠ 255) {v : FV} (finite : IsFinite v) :
    IsFinite (scaleProd ea eb v) ∧ valueQ (scaleProd ea eb v) = valueQ v * 2 ^ ((ea : ℤ) + eb - 254) := by
  obtain ⟨neg, m, e, rfl⟩ := finite.exists_num
  have scaled : scaleProd ea eb (.num neg m e) = .num neg m (e + ea + eb - 254) := if_neg (not_or.2 ⟨goodA, goodB⟩)
  have power : (2 : ℚ) ^ (e + ea + eb - 254) = 2 ^ e * 2 ^ ((ea : ℤ) + eb - 254) := by
    rw [← zpow_add₀ two_ne_zero]
    congr 1
    ring
  rw [scaled]
  refine ⟨⟨rfl, rfl⟩, ?_⟩
  simp only [valueQ, power]
  ring

theorem passTerm_badScale (scaled : t.scale = true) (bad : scaleA a = 255 ∨ scaleB p pr b n = 255) (k : Nat) :
    (passTerm t p pr b n a k).1.isNan = true := by
  rw [passTerm, if_pos scaled, scaleProd_badScale bad]
  rfl

theorem isFinite_intFV (z : Int) : IsFinite (intFV z) := ⟨rfl, rfl⟩

theorem passTerm_int (scaled : t.scale = true) (int : pr.int = true) (goodA : scaleA a ≠ 255) (goodB : scaleB p pr b n ≠ 255) (k : Nat) :
    (passTerm t p pr b n a k).2 = false ∧
      valueQ (passTerm t p pr b n a k).1 = (intProduct p pr b n a k : ℚ) * 2 ^ ((scaleA a : ℤ) + scaleB p pr b n - 254) := by
  rw [passTerm, if_pos scaled, product_int p b n a int]
  exact ⟨rfl, by rw [(valueQ_scaleProd goodA goodB (isFinite_intFV _)).2, valueQ_intFV]⟩

/-! A float term, by its two elements. -/

section elements
variable (float : pr.int = false) (other : pr.el ≠ 5) {k : Nat} {x y : FV}
  (hx : x = decF (fmtTy (elTy pr.el)) t.ftz (fld a.toNat (k * pr.sa) pr.sa)) (hy : y = decF (fmtTy (elTy pr.el)) t.ftz (bElem p pr b k n))
include float other hx hy

theorem product_float : product p pr b n a t k = if x.isNan ∨ y.isNan then (.nan false false 0, false)
    else if (x.isZero ∧ y.isInf) ∨ (x.isInf ∧ y.isZero) then (.nan false false 0, true)
    else if x.isInf ∨ y.isInf then (.inf (x.neg != y.neg), false) else (mulFV x y, false) := by
  rw [product, passProd, if_neg (by rw [float]; exact Bool.false_ne_true), if_neg other, hx, hy]

theorem passTerm_nan (nan : x.isNan = true ∨ y.isNan = true) : passTerm t p pr b n a k = (.nan false false 0, false) := by
  have value := product_float float other hx hy
  rw [if_pos nan] at value
  rw [passTerm, value, scaleProd_nan, ite_self]

theorem passTerm_zeroInf (mixed : (x.isZero = true ∧ y.isInf = true) ∨ (x.isInf = true ∧ y.isZero = true)) :
    (passTerm t p pr b n a k).2 = true := by
  have real : ¬ (x.isNan = true ∨ y.isNan = true) := by
    rintro (nan | nan) <;> obtain ⟨_, _, _, rfl⟩ := isNan_iff.1 nan <;> rcases mixed with ⟨zero, inf⟩ | ⟨inf, zero⟩ <;> simp [FV.isZero] at zero inf
  have value := product_float float other hx hy
  rw [if_neg real, if_pos mixed] at value
  rw [passTerm, value]
  split_ifs <;> rfl

theorem passTerm_finite (fx : IsFinite x) (fy : IsFinite y) (good : t.scale = true → scaleA a ≠ 255 ∧ scaleB p pr b n ≠ 255) :
    (passTerm t p pr b n a k).2 = false ∧ IsFinite (passTerm t p pr b n a k).1 ∧ valueQ (passTerm t p pr b n a k).1 =
      valueQ x * valueQ y * (if t.scale then 2 ^ ((scaleA a : ℤ) + scaleB p pr b n - 254) else 1) := by
  obtain ⟨realX, boundX⟩ := fx
  obtain ⟨realY, boundY⟩ := fy
  have value := product_float float other hx hy
  simp only [realX, boundX, realY, boundY, Bool.false_eq_true, or_self, and_false, false_and, if_false] at value
  have finite : IsFinite (mulFV x y) := by
    unfold mulFV
    split <;> exact ⟨rfl, rfl⟩
  rw [passTerm, value, ← valueQ_mulFV ⟨realX, boundX⟩ ⟨realY, boundY⟩]
  cases scaled : t.scale with
  | false =>
    rw [if_neg Bool.false_ne_true, if_neg Bool.false_ne_true, mul_one]
    exact ⟨rfl, finite, rfl⟩
  | true =>
    obtain ⟨goodA, goodB⟩ := good scaled
    obtain ⟨still, scaledValue⟩ := valueQ_scaleProd goodA goodB finite
    rw [if_pos rfl, if_pos rfl]
    exact ⟨rfl, still, scaledValue⟩

end elements
end terms

/-! The words (R338 to R344). -/

section words
variable {s : State} {x : Issue} {w : XWord} {mmaf : Bool} {i : Instr}

theorem exec_eq_passWord (hi : i = if mmaf then .mxMmaf w else .mxMma w) :
    exec i s = passWord i w mmaf s ∧ w.msel.toNat = mselOf i ∧ false = perLaneOf i := by
  cases mmaf <;> subst hi <;> exact ⟨rfl, rfl, rfl⟩

theorem exec_pass_beyond (hi : i = if mmaf then .mxMmaf w else .mxMma w) (h : Issues s i x) (beyond : x.g.accN ≤ w.tile.toNat) :
    exec i s = .next (raised x s { cls := 0x12, code := 1, index := w.tile.toNat }) := by
  obtain ⟨run, hm, hp⟩ := exec_eq_passWord (s := s) hi
  have bad (t : Option Slot16) (high : Nat) : passBad x.g w mmaf t high = some { cls := 0x12, code := 1, index := w.tile.toNat } := if_pos beyond
  rw [run, passWord, runWord_normal h hm hp]
  simp only [bad, settle_bad]

/-- The registers that a pass word captures for its A rows: those of its latch where it has them (R340). -/
def passRowsOfA (g : Group) (w : XWord) : List W64 :=
  match g.latch with
  | some (c, l) => if c = w.a.toNat then l else (List.range g.width).map (rv g w.a.toNat)
  | none => (List.range g.width).map (rv g w.a.toNat)

theorem passRowsOfA_eq {g : Group} {val : List W64} (latched : ∀ l : Nat × List W64, g.latch = some l → l.1 = w.a.toNat → val = l.2)
    (read : (∀ l : Nat × List W64, g.latch = some l → l.1 ≠ w.a.toNat) → val = (List.range g.width).map (rv g w.a.toNat)) :
    passRowsOfA g w = val := by
  unfold passRowsOfA
  cases hl : g.latch with
  | none => exact (read fun l hl' => by rw [hl] at hl'; cases hl').symm
  | some l =>
    by_cases same : l.1 = w.a.toNat
    · rw [latched l hl same]
      exact if_pos same
    · refine (if_neg same).trans (read fun l' hl' => ?_).symm
      rw [hl] at hl'
      exact Option.some.inj hl' ▸ same

/-- The group with its A latch as a pass word leaves it (R340). -/
def withLatch (g : Group) (w : XWord) : Group := { g with latch := if w.bit4 then some (w.a.toNat, passRowsOfA g w) else none }

/-- The pass that a word asks for (R338 to R343). -/
def passOf (x : Issue) (w : XWord) (mmaf : Bool) (tm : Team) : Pass :=
  { mmaf := mmaf, tile := tileLoc x.g w.tile.toNat, lanes := (lanesOf x.active).map (fun l => (l, (passRowsOfA x.g w).getD l 0#64)), team := tm.tid,
    baddr := if mmaf then 0 else mxAddr x.g w, slot := w.slot.toNat, wa := w.wa.toNat, wb := w.wb.toNat, sat := w.sat, mix := w.mix,
    seed := x.g.seed, table := x.g.table, row0 := fld (rs x.g w.base.toNat).toNat 0 16, col0 := fld (rs x.g w.base.toNat).toNat 16 16, window := 0 }

/-- The fault of a word while another group holds its partition's pontil (R85). -/
def pontilHeld (s : State) (g : Group) : Option FInfo :=
  match (getPart s g.core g.part).pontil with
  | some h => if h = g.gid then none else some { cls := 0x13, code := 1, index := match getG s h with | some o => o.num | none => 0 }
  | none => none

theorem pontilHeld_free {g : Group} (free : (getPart s g.core g.part).pontil = none ∨ (getPart s g.core g.part).pontil = some g.gid) :
    pontilHeld s g = none := by
  unfold pontilHeld
  rcases free with free | mine
  · rw [free]
  · rw [mine]
    exact if_pos rfl

theorem pontilHeld_other {g o : Group} {h : Nat} (theirs : (getPart s g.core g.part).pontil = some h) (other : h ≠ g.gid)
    (found : getG s h = some o) : pontilHeld s g = some { cls := 0x13, code := 1, index := o.num } := by
  unfold pontilHeld
  rw [theirs]
  refine (if_neg other).trans ?_
  rw [found]

section sound
variable {t : Slot16} {pr : Pairing} {tm : Team} (hi : i = if mmaf then .mxMmaf w else .mxMma w) (h : Issues s i x)
  (slot : gridSlot s x.g w.slot.toNat = some t) (team : teamOf s x.g = some tm)
  (sound : passBad x.g w mmaf (some t) ((rs x.g w.base.toNat).toNat / 2 ^ 32) = none)
  (pair : pairing t.el w.wa.toNat w.wb.toNat w.mix = some pr)
  (range : mmaf = false → mxAddrBad tm (rs x.g w.base.toNat).toNat (mxAddr x.g w) 16 (bBytes pr t.scale) = none)
  (lines : 8 * octets x.active x.g.width ≠ 0 → mmaf = false → mxFaulted tm (mxAddr x.g w) (bBytes pr t.scale) = none)
include hi h slot team sound pair range lines

/-- A pass word whose operands and addresses pass: only the pontil can stop it (R85). -/
theorem exec_pass_checked : exec i s = .next (settle x false
    (if 8 * octets x.active x.g.width = 0 then .ok (putG s (withLatch x.g w))
      else (pontilHeld s x.g).elim (.ok (enterWindow (putG s (withLatch x.g w)) (withLatch x.g w) (8 * octets x.active x.g.width)
        (passOf x w mmaf tm))) (fun f => .bad s f))) := by
  obtain ⟨run, hm, hp⟩ := exec_eq_passWord (s := s) hi
  have address : (if mmaf = true then none else mxAddrBad tm (rs x.g w.base.toNat).toNat (mxAddr x.g w) 16 (bBytes pr t.scale)) = none := by
    cases mmaf
    · exact range rfl
    · rfl
  rw [run, passWord, runWord_normal h hm hp]
  simp only [slot, team, sound, pair, address, firstFault_none]
  by_cases empty : 8 * octets x.active x.g.width = 0
  · simp only [empty, or_true, if_true, firstFault_none, firstFault_nil]
    rfl
  · have present : (if mmaf = true ∨ 8 * octets x.active x.g.width = 0 then none else mxFaulted tm (mxAddr x.g w) (bBytes pr t.scale)) = none := by
      cases mmaf
      · rw [lines empty rfl, ite_self]
      · rfl
    simp only [present, firstFault_none, if_neg empty]
    change Host.Outcome.next (settle x false (match firstFault [pontilHeld s x.g] with | some f => _ | none => _)) = _
    cases pontilHeld s x.g <;> rfl

end sound
end words

/-- Settles O40: the words by their checks and the pontil, the value of a cell by the special values in their order. -/
theorem matrixPasses : Obligations.MatrixPasses := by
  unfold Obligations.MatrixPasses
  refine ⟨⟨?word, fun s x w beyond => ⟨fun h => exec_pass_beyond (mmaf := false) rfl h beyond, fun h => exec_pass_beyond (mmaf := true) rfl h beyond⟩⟩,
    ?integers, ?special, ?terms⟩
  case word =>
    intro s x w t pr tm mmaf i val g1 a rows hi h slot team sound pair ha range latched read hg1 hrows lines
    subst ha hrows
    obtain rfl := passRowsOfA_eq latched read
    obtain rfl : g1 = withLatch x.g w := hg1
    have run := exec_pass_checked hi h slot team sound pair range lines
    refine ⟨fun empty => ?_, fun some_ free => ?_, fun o g some_ theirs other found => ?_⟩
    · rw [run, if_pos empty, settle_ok]
    · rw [run, if_neg some_, pontilHeld_free free, Option.elim_none, settle_ok]
      rfl
    · rw [run, if_neg some_, pontilHeld_other theirs other found, Option.elim_some, settle_bad]
  case integers =>
    intro t p pr b old n a int plain _
    refine ⟨_, rfl, ?_⟩
    rw [passCell_int p b n a t old int plain, combineI_eq]
    refine congrArg (·, 0) (if_congr ?_ rfl rfl)
    rw [Bool.or_eq_true, decide_eq_true_eq]
  case special =>
    intro ftz old terms o narrow ho
    have valid {bad : Prop} (h : ¬ bad) (iff : invalidPass o terms = true ↔ bad) : invalidPass o terms = false := Bool.eq_false_iff.2 fun k => h (iff.1 k)
    have noBad (clean : ∀ v ∈ terms, v.2 = false) : ¬ ∃ v ∈ terms, v.2 = true := fun ⟨v, hv, bad⟩ => Bool.false_ne_true ((clean v hv).symm.trans bad)
    refine ⟨combineF_oldNan ho narrow, fun real invalid => combineF_invalid ho real (invalidPass_iff.2 invalid), fun real clean signs => ?_,
      fun clean finite sum hsum nonzero => ?_⟩
    · have sound := valid (not_or.2 ⟨noBad clean, not_and_or.2 signs⟩) invalidPass_iff
      exact ⟨combineF_termNan ho real sound, fun reals n => combineF_infinite ho real sound reals⟩
    · have noInf (n : Bool) : .inf n ∉ o :: terms.map Prod.fst := fun member => by simpa using (finite _ member).2
      have sound := valid (not_or.2 ⟨noBad clean, not_and_or.2 (.inl (noInf true))⟩) invalidPass_iff
      have value : valueQ (sumFV 0 (o :: terms.map Prod.fst)) = sum := by
        rw [valueQ_sumFV, List.map_cons, List.sum_cons, List.map_map, hsum]
        rfl
      refine ⟨_, _, ?_, combineF_finite ho (finite o List.mem_cons_self).1 sound finite⟩
      rw [← value]
      exact roundedOnce_encF (by decide) _ (value ▸ nonzero)
  case terms =>
    intro t p pr b old n ea eb a float hea heb
    obtain rfl : ea = scaleA a := hea
    obtain rfl : eb = scaleB p pr b n := heb
    refine ⟨(List.range pr.k).map (passTerm t p pr b n a), by rw [List.length_map, List.length_range], passCell_float t p pr b n a old float,
      fun k v hv => ?_⟩
    obtain ⟨k', hk', rfl⟩ := Option.map_eq_some_iff.1 (List.getElem?_map .. ▸ hv)
    obtain rfl : k = k' := by
      obtain ⟨_, eq⟩ := List.getElem?_eq_some_iff.1 hk'
      rw [← eq, List.getElem_range]
    refine ⟨fun flt el x y hx hy => ?_, fun scaled bad => passTerm_badScale scaled bad k, fun int goodA goodB => ?_⟩
    · have other : pr.el ≠ 5 := fun five => by rw [five] at el; revert el; decide
      refine ⟨passTerm_nan flt other hx hy, passTerm_zeroInf flt other hx hy, fun rx ry bx by_ good => ?_⟩
      obtain ⟨clean, ⟨real, bound⟩, value⟩ := passTerm_finite flt other hx hy ⟨rx, bx⟩ ⟨ry, by_⟩ good
      exact ⟨clean, real, bound, value⟩
    · refine passTerm_int (float.resolve_left fun flt => ?_) int goodA goodB k
      rw [int] at flt
      cases flt

end Sys2Proof.Proofs
end

section
/-! PROOF. Station words, records and error broadcasts (12_matrix_training.md R353 to R356, 06_training_flow.md R156 to R163, R169, R170). -/

namespace Sys2Proof.Proofs
open Sys2Proof Sys2Proof.Machine Sys2Proof.Laws

/-! Station words (R353 to R355, R463). -/

theorem stOperand_sound {g : Group} {w : SWord} {pass need commit : Bool} (some_ : pass = true → srcB g w ≠ 0#64)
    (aligned : (rs g w.a.toNat).toNat % 2048 = 0) (counter : need = true → (ctrOf w).isSome = true)
    (reserved : commit = true → (srcC g w).extractLsb' 16 16 = 0#16) : stOperand g w pass need commit = none := by
  have counter : ¬ (need = true ∧ (ctrOf w).isNone = true) := by
    rintro ⟨need, none_⟩
    exact absurd none_ (by rw [← Option.not_isSome, counter need]; decide)
  have reserved : ¬ (commit = true ∧ fld (srcC g w).toNat 16 16 ≠ 0) := by
    rintro ⟨commit, set⟩
    refine set ?_
    rw [fld, ← BitVec.extractLsb'_toNat, reserved commit]
    rfl
  simp only [stOperand, if_neg (fun c : _ ∧ _ => some_ c.1 c.2), if_neg (not_not_intro aligned), if_neg counter, if_neg reserved]

theorem stOperand_noPass {g : Group} {w : SWord} (zero : srcB g w = 0#64) (need commit : Bool) :
    stOperand g w true need commit = some { cls := 0x14, code := 1, addr := (rs g w.a.toNat).toNat } := if_pos ⟨rfl, zero⟩

section words
variable {s : State} {x : Issue} {w : SWord} {i : Instr} {rel : Bool} {kind : Issue → StKind} {fin : State → Issue → W64 → Res}
variable (h : Issues s i x) (hm : mselOf i = 0) (hp : perLaneOf i = false)
include h hm hp

theorem stWord_asks {l : Lane} {g : Group} {s1 : State} (fresh : x.slot.stop = none)
    (sound : stOperand x.g w true false false = none)
    (reserved : ∀ v m, kind x = .commit v m → stOperand x.g w true false true = none)
    (record : recCheck s x.g (rs x.g w.a.toNat).toNat 3 = .ok l) (release : rel = true → releaseWait s x.g .dv = none)
    (hs1 : s1 = launchOp (drainWcb s x.g.gid) x.g.gid x.g.ctx x.g.core .none
      (.station (kind x) (l.pas.headD 0) (srcB x.g w).toNat (ctrOf w) none))
    (hg : getG s1 x.g.gid = some g) :
    stWord i w s rel kind fin =
      .next (parked x (putG s1 (setSlot g x.b { slotOf g x.b with stop := some ((drainWcb s x.g.gid).nextId, none) })) .station) := by
  have ordered : (if rel = true then releaseWait s x.g .dv else none) = none := by
    split
    · exact release ‹_›
    · rfl
  rw [stWord, runWord_unmasked h hm hp]
  simp only [fresh, record, ordered, ← hs1, hg]
  cases hk : kind x with
  | commit v m => simp only [reserved v m hk, settle_park]
  | openPass r => simp only [sound, settle_park]
  | closePass => simp only [sound, settle_park]

theorem stWord_noPass (fresh : x.slot.stop = none) (zero : srcB x.g w = 0#64) :
    stWord i w s rel kind fin = .next (raised x s { cls := 0x14, code := 1, addr := (rs x.g w.a.toNat).toNat }) := by
  rw [stWord, runWord_unmasked h hm hp]
  simp only [fresh, stOperand_noPass zero, settle_bad]

variable {g : Group} {id : Nat} (hg : getG s x.g.gid = some g)
include hg

theorem stWord_answered {v : W64} (answer : x.slot.stop = some (id, some (.ok v))) :
    stWord i w s rel kind fin =
      .next (settle x false (fin (putG s (setSlot (walkDone g x.b) x.b { slotOf g x.b with stop := none })) x v)) := by
  rw [stWord, runWord_unmasked h hm hp]
  simp only [answer, hg]

theorem stWord_refused {f : FInfo} (answer : x.slot.stop = some (id, some (.bad f))) :
    stWord i w s rel kind fin =
      .next (raised x (putG s (setSlot (walkDone g x.b) x.b { slotOf g x.b with stop := none }))
        { f with addr := if f.cls = 0x19 then f.addr else (rs x.g w.a.toNat).toNat }) := by
  rw [stWord, runWord_unmasked h hm hp]
  simp only [answer, hg, settle_bad]

end words

theorem exec_stationWord {i : Instr} {w : SWord} (s : State) (hi : i ∈ [Instr.paOpen w, .paOpenRp w, .paClose w, .wvCommit w]) :
    ∃ rel kind fin, exec i s = stWord i w s rel kind fin ∧ mselOf i = 0 ∧ perLaneOf i = false := by
  simp only [List.mem_cons, List.not_mem_nil, or_false] at hi
  obtain rfl | rfl | rfl | rfl := hi
  · exact ⟨_, _, _, exec_paOpen w s, rfl, rfl⟩
  · exact ⟨_, _, _, exec_paOpenRp w s, rfl, rfl⟩
  · exact ⟨_, _, _, exec_paClose w s, rfl, rfl⟩
  · exact ⟨_, _, _, exec_wvCommit w s, rfl, rfl⟩

theorem exec_openWord {i : Instr} {w : SWord} (s : State) (hi : i ∈ [Instr.paOpen w, .paOpenRp w]) :
    ∃ rel kind, exec i s = stWord i w s rel kind (openDone w) ∧ mselOf i = 0 ∧ perLaneOf i = false := by
  simp only [List.mem_cons, List.not_mem_nil, or_false] at hi
  obtain rfl | rfl := hi
  · exact ⟨_, _, exec_paOpen w s, rfl, rfl⟩
  · exact ⟨_, _, exec_paOpenRp w s, rfl, rfl⟩

theorem getG_cleared {s : State} {n : Nat} {g : Group} (hg : getG s n = some g) (b : Bool) {sl : Slot} :
    getG (putG s (setSlot (walkDone g b) b sl)) n = some (setSlot (walkDone g b) b sl) := by
  have hgid := (setSlot_gid (walkDone g b) b sl).trans (show g.gid = n from getG_gid hg)
  rw [← hgid] at hg
  exact hgid ▸ getG_putG_same hg

/-! An answered open (R354, R355, R453). -/

theorem getG_map_slots {l : List Group} {n : Nat} {g : Group} {f : Group → Group} (slots : ∀ h, ∃ a b, f h = { h with slotA := a, slotB := b })
    (hg : l.find? (fun h => h.gid == n) = some g) : ∃ a b, (l.map f).find? (fun h => h.gid == n) = some { g with slotA := a, slotB := b } := by
  obtain ⟨a, b, changed⟩ := slots g
  refine ⟨a, b, ?_⟩
  have same : ((fun h : Group => h.gid == n) ∘ f) = fun h => h.gid == n := by
    funext h
    obtain ⟨c, d, changed⟩ := slots h
    simp only [Function.comp, changed]
  rw [List.find?_map, same, hg, Option.map_some, changed]

theorem getG_teamOpened {s : State} {n : Nat} {g : Group} (hg : getG s n = some g) (tid pa : Nat) :
    ∃ a b, getG (teamOpened s tid pa) n = some { g with slotA := a, slotB := b } := by
  unfold teamOpened
  split
  · exact ⟨_, _, hg⟩
  split
  · exact ⟨_, _, hg⟩
  refine getG_map_slots (fun h => ?_) hg
  split
  · exact ⟨_, _, rfl⟩
  · exact ⟨_, _, rfl⟩

theorem foldl_teamOpened (tid : Nat) (pas : List Nat) {s : State} {n : Nat} {g : Group} (hg : getG s n = some g) :
    ∃ a b, getG (pas.foldl (fun s p => teamOpened s tid p) s) n = some { g with slotA := a, slotB := b } ∧
      (pas.foldl (fun s p => teamOpened s tid p) s).mem = s.mem := by
  induction pas generalizing s g with
  | nil => exact ⟨_, _, hg, rfl⟩
  | cons p pas ih =>
    obtain ⟨a, b, opened⟩ := getG_teamOpened hg tid p
    obtain ⟨c, d, rest, mem⟩ := ih opened
    exact ⟨c, d, rest, mem.trans (teamOpened_mem s tid p)⟩

theorem openDone_opens {s : State} {x : Issue} {g : Group} (w : SWord) (v : W64) (hg : getG s x.g.gid = some g) :
    ∃ (s2 : State) (g2 : Group), getG s2 g.gid = some g2 ∧ g2.pass = srcB x.g w ∧ g2.s = g.s ∧ g2.v = g.v ∧ s2.mem = s.mem ∧
      openDone w s x v = .ok (launchOp s2 g.gid g.ctx g.core .loads (.value [(2 ^ 20 + w.d.toNat, v)])) := by
  have hg' : getG (putG s { g with pass := srcB x.g w }) g.gid = some { g with pass := srcB x.g w } :=
    getG_putG_same (g := { g with pass := srcB x.g w }) (by rw [getG_gid hg, hg])
  rw [openDone, hg]
  dsimp only
  obtain ⟨a, b, opened, mem⟩ := foldl_teamOpened g.team
    (match recCheck s g (rs x.g w.a.toNat).toNat 3 with | .ok l => l.pas | _ => []) hg'
  exact ⟨_, _, opened, rfl, rfl, rfl, mem, rfl⟩

/-! The counters of a record (R163, R354). -/

theorem ctrOf_num {w : SWord} {c : Nat} (counter : ctrOf w = some c) : imm20 w % 16 = c := by
  rw [ctrOf] at counter
  split at counter
  · exact Option.some.inj counter
  · cases counter

section counters
variable {s : State} {x : Issue} {w : SWord} {l : Lane} {c : Nat} (aligned : (rs x.g w.a.toNat).toNat % 2048 = 0) (counter : ctrOf w = some c)
variable (record : recCheck s x.g (rs x.g w.a.toNat).toNat 1 = .ok l)
include aligned counter record

theorem exec_acGet_record (h : Issues s (.acGet w) x) : exec (.acGet w) s = .next (performed x (clearWalks (issueLoad (drainWcb s x.g.gid) x
    [{ lane := 0, va := (rs x.g w.a.toNat).toNat, pas := (List.range 8).map (fun i => l.pas.headD 0 + 64 + 8 * c + i) }]
    (512 + w.d.toNat) false (some .dv) 0) x.g.gid)) := by
  have sound : stOperand x.g w false true false = none :=
    stOperand_sound (by simp) aligned (fun _ => by rw [counter]; rfl) (by simp)
  rw [exec_acGet, execAcGet, runWord_unmasked h rfl rfl]
  simp only [sound, record, ctrOf_num counter, settle_ok]

variable (h : Issues s (.acWait w) x) (some_ : srcB x.g w ≠ 0#64)
include h some_

theorem exec_acWait_reached (ready : acReady (clearWalks (drainWcb s x.g.gid) x.g.gid) x.g.gid (l.pas.headD 0) c (srcB x.g w).toNat = true)
    (sound : badAt (clearWalks (drainWcb s x.g.gid) x.g.gid) [l.pas.headD 0 + 64 + 8 * c] = none) :
    exec (.acWait w) s = .next (performed x (l1Drop (engineRead (clearWalks (drainWcb s x.g.gid) x.g.gid) x.g.ctx 0
      [l.pas.headD 0 + 64 + 8 * c]) x.g.core ((l.pas.headD 0 + 64 + 8 * c) / 128))) := by
  have operands : stOperand x.g w true true false = none :=
    stOperand_sound (fun _ => some_) aligned (fun _ => by rw [counter]; rfl) (by simp)
  rw [exec_acWait, execAcWait, runWord_unmasked h rfl rfl]
  simp only [operands, record, ctrOf_num counter, ready, Bool.not_true, Bool.false_eq_true, if_false, sound, settle_ok]

theorem exec_acWait_below (ready : acReady (clearWalks (drainWcb s x.g.gid) x.g.gid) x.g.gid (l.pas.headD 0) c (srcB x.g w).toNat = false) :
    exec (.acWait w) s = .next (parked x (clearWalks (drainWcb s x.g.gid) x.g.gid) (.ac (l.pas.headD 0) c (srcB x.g w).toNat)) := by
  have operands : stOperand x.g w true true false = none :=
    stOperand_sound (fun _ => some_) aligned (fun _ => by rw [counter]; rfl) (by simp)
  rw [exec_acWait, execAcWait, runWord_unmasked h rfl rfl]
  simp only [operands, record, ctrOf_num counter, ready, Bool.not_false, if_true, settle_park]

end counters

/-! Operations at a record's home (R158 to R161, R463). -/

theorem newest_lt (s : State) (pa t : Nat) : newest s pa t < 2 := Nat.mod_lt _ (by decide)

theorem recTiles_le (s : State) (pa : Nat) : recTiles s pa ≤ 16 := Nat.mod_lt _ (by decide)

/-- The binding: bit t says which buffer of tile t is newest (R158). -/
def bindOf (s : State) (pa : Nat) : Nat → Nat
  | 0 => 0
  | n + 1 => bindOf s pa n + newest s pa n * 2 ^ n

theorem foldl_newest_eq_bindOf (s : State) (pa n : Nat) : (List.range n).foldl (fun a t => a + newest s pa t * 2 ^ t) 0 = bindOf s pa n := by
  induction n with
  | zero => rfl
  | succ n ih => rw [List.range_succ, List.foldl_append, ih]; rfl

theorem bindOf_lt (s : State) (pa n : Nat) : bindOf s pa n < 2 ^ n := by
  induction n with
  | zero => exact Nat.one_pos
  | succ n ih =>
    have := Nat.mul_le_mul_right (2 ^ n) (Nat.le_of_lt_succ (newest_lt s pa n))
    rw [bindOf, Nat.pow_succ]
    omega

theorem testBit_bindOf (s : State) (pa n t : Nat) : (bindOf s pa n).testBit t = (decide (t < n) && decide (newest s pa t = 1)) := by
  induction n with
  | zero => rw [bindOf, Nat.zero_testBit]; rfl
  | succ n ih =>
    have top := bindOf_lt s pa n
    rw [bindOf, Nat.add_comm, Nat.mul_comm, Nat.testBit_two_pow_mul_add _ top]
    split
    case isTrue below => rw [ih, decide_eq_true below, decide_eq_true (Nat.lt_succ_of_lt below)]
    case isFalse above =>
      rcases Nat.lt_or_eq_of_le (Nat.not_lt.1 above) with past | rfl
      · rw [decide_eq_false (by omega : ¬ t < n + 1), Bool.false_and]
        exact Nat.testBit_lt_two_pow (Nat.lt_of_lt_of_le (newest_lt s pa n) (Nat.le_self_pow (by omega) 2))
      · rw [decide_eq_true (Nat.lt_succ_self n), Bool.true_and, Nat.sub_self]
        have := newest_lt s pa n
        interval_cases newest s pa n <;> rfl

section record
variable (s : State) (pa n : Nat) (c : Option Nat)

theorem stOpen_free {rp : Bool} (free : (recQ s pa (retOff (n % recSlots s pa) + 8)).testBit 63 = false) (good : recBad s pa = false) :
    stOpen s pa n c rp = (.ok (r64 (bindOf s pa (recTiles s pa))),
      (List.range (recTiles s pa)).map (fun t => holdChange s pa t (newest s pa t) true) ++
        [(retOff (n % recSlots s pa), n), (retOff (n % recSlots s pa) + 8, 2 ^ 63 + bindOf s pa (recTiles s pa))] ++ ctrChange s pa n c) := by
  simp only [stOpen, free, good, Bool.false_eq_true, false_and, if_false, foldl_newest_eq_bindOf]

theorem bindOf_bits : ∀ t < 64, (r64 (bindOf s pa (recTiles s pa))).getLsbD t = (decide (t < recTiles s pa) && decide (newest s pa t = 1)) := by
  intro t below
  rw [r64, BitVec.getLsbD_ofNat, decide_eq_true below, Bool.true_and, testBit_bindOf]

theorem bindOf_toNat : (r64 (bindOf s pa (recTiles s pa))).toNat = bindOf s pa (recTiles s pa) :=
  Nat.mod_eq_of_lt ((bindOf_lt s pa _).trans_le (Nat.pow_le_pow_right (by decide) ((recTiles_le s pa).trans (by decide))))

theorem stOpen_open {rp : Bool} (open_ : (recQ s pa (retOff (n % recSlots s pa) + 8)).testBit 63 = true)
    (other : rp = false ∨ recQ s pa (retOff (n % recSlots s pa)) ≠ n) : stOpen s pa n c rp = stBad 2 (n % recSlots s pa) := by
  have other : (!(rp && decide (recQ s pa (retOff (n % recSlots s pa)) = n))) = true := by
    rcases other with rfl | other
    · rfl
    · rw [decide_eq_false other, Bool.and_false]; rfl
  simp only [stOpen, open_, other, and_self, if_true]

theorem stOpen_reserved {rp : Bool} (free : (recQ s pa (retOff (n % recSlots s pa) + 8)).testBit 63 = false) (bad : recBad s pa = true) :
    stOpen s pa n c rp = stBad 10 0 := by
  simp only [stOpen, free, bad, Bool.false_eq_true, false_and, if_false, if_true]

theorem stOpen_again (open_ : (recQ s pa (retOff (n % recSlots s pa) + 8)).testBit 63 = true)
    (own : recQ s pa (retOff (n % recSlots s pa)) = n) (good : recBad s pa = false) : stOpen s pa n c true =
      (.ok (r64 (recQ s pa (retOff (n % recSlots s pa) + 8) % 65536)),
        [(retOff (n % recSlots s pa) + 8, setFld (recQ s pa (retOff (n % recSlots s pa) + 8)) 62 1 1)]) := by
  simp only [stOpen, open_, own, decide_true, Bool.and_self, Bool.not_true, Bool.false_eq_true, and_false, if_false, good, if_true]

theorem stClose_other (other : (recQ s pa (retOff (n % recSlots s pa) + 8)).testBit 63 = false ∨ recQ s pa (retOff (n % recSlots s pa)) ≠ n) :
    stClose s pa n c = stBad 3 (n % recSlots s pa) := if_pos (by simpa only [Bool.not_eq_true'] using other)

section own
variable (open_ : (recQ s pa (retOff (n % recSlots s pa) + 8)).testBit 63 = true) (own : recQ s pa (retOff (n % recSlots s pa)) = n)
include open_ own

theorem stClose_reserved (bad : recBad s pa = true) : stClose s pa n c = stBad 10 0 := by
  simp only [stClose, open_, own, Bool.not_true, Bool.false_eq_true, ne_eq, not_true_eq_false, or_self, if_false, bad, if_true]

theorem stClose_closes (good : recBad s pa = false) : stClose s pa n c = (.ok 0#64,
    (List.range (recTiles s pa)).map (fun t => holdChange s pa t (fld (recQ s pa (retOff (n % recSlots s pa) + 8)) t 1) false) ++
      [(retOff (n % recSlots s pa) + 8, setFld (recQ s pa (retOff (n % recSlots s pa) + 8)) 63 1 0)] ++ ctrChange s pa n c) := by
  simp only [stClose, open_, own, Bool.not_true, Bool.false_eq_true, ne_eq, not_true_eq_false, or_self, if_false, good]

end own

/-! The tiles of a commit, the lowest that breaks a rule named first (R161). -/

def namedTiles (mask : Nat) : List Nat := (List.range 16).filter (fun t => mask.testBit t)

theorem mem_namedTiles {mask t : Nat} : t ∈ namedTiles mask ↔ t < 16 ∧ mask.testBit t = true := by
  rw [namedTiles, List.mem_filter, List.mem_range]

theorem find_range_filter {n t : Nat} {p q : Nat → Bool} (below : t < n) (named : p t = true) (found : q t = true)
    (first : ∀ u < t, p u = true → q u = false) : ((List.range n).filter p).find? q = some t := by
  rw [List.find?_filter, List.find?_range_eq_some]
  refine ⟨by rw [named, found]; rfl, List.mem_range.2 below, fun u before => ?_⟩
  cases hp : p u with
  | false => rfl
  | true => rw [first u before hp]; rfl

theorem find_namedTiles_none {mask : Nat} {q : Nat → Bool} (none_ : ∀ u < 16, mask.testBit u = true → q u = false) :
    (namedTiles mask).find? q = none :=
  List.find?_eq_none.2 fun u hu => by rw [none_ u (mem_namedTiles.1 hu).1 (mem_namedTiles.1 hu).2]; decide

section commit
variable (v mask : Nat)

theorem stCommit_lacks {t : Nat} (below : t < 16) (named : mask.testBit t = true) (beyond : recTiles s pa ≤ t)
    (first : ∀ u < t, mask.testBit u = true → u < recTiles s pa) : stCommit s pa n c v mask = stBad 4 t := by
  have found : ((List.range 16).filter (fun t => mask.testBit t)).find? (fun t => decide (recTiles s pa ≤ t)) = some t :=
    find_range_filter below named (decide_eq_true beyond) fun u before hu => decide_eq_false (Nat.not_le_of_lt (first u before hu))
  simp only [stCommit, found]

theorem namedTiles_newer (newer : ∀ u < 16, mask.testBit u = true → verOf s pa u (newest s pa u) < v) :
    ((List.range 16).filter (fun t => mask.testBit t)).find? (fun t => decide (v ≤ verOf s pa t (newest s pa t))) = none :=
  find_namedTiles_none fun u below named => decide_eq_false (Nat.not_le_of_lt (newer u below named))

theorem namedTiles_idle
    (idle : ∀ u < 16, mask.testBit u = true → fld (recQ s pa (tileOff u + 24)) (16 * (1 - newest s pa u)) 16 = 0) :
    ((List.range 16).filter (fun t => mask.testBit t)).find?
    (fun t => decide (fld (recQ s pa (tileOff t + 24)) (16 * (1 - newest s pa t)) 16 ≠ 0)) = none :=
  find_namedTiles_none fun u below named => decide_eq_false (not_not_intro (idle u below named))

variable (present : ∀ u < 16, mask.testBit u = true → u < recTiles s pa)
include present

theorem namedTiles_present : ((List.range 16).filter (fun t => mask.testBit t)).find? (fun t => decide (recTiles s pa ≤ t)) = none ∧
    ((List.range 16).filter (fun t => mask.testBit t)).filter (fun t => decide (t < recTiles s pa)) =
      (List.range 16).filter (fun t => mask.testBit t) :=
  ⟨find_namedTiles_none fun u below named => decide_eq_false (Nat.not_le_of_lt (present u below named)),
    List.filter_eq_self.2 fun u hu => decide_eq_true (present u (mem_namedTiles.1 hu).1 (mem_namedTiles.1 hu).2)⟩

theorem stCommit_stale {t : Nat} (below : t < 16) (named : mask.testBit t = true) (stale : v ≤ verOf s pa t (newest s pa t))
    (first : ∀ u < t, mask.testBit u = true → verOf s pa u (newest s pa u) < v) : stCommit s pa n c v mask = stBad 5 t := by
  obtain ⟨all_, same⟩ := namedTiles_present s pa mask present
  have found : ((List.range 16).filter (fun t => mask.testBit t)).find? (fun t => decide (v ≤ verOf s pa t (newest s pa t))) = some t :=
    find_range_filter below named (decide_eq_true stale) fun u before hu => decide_eq_false (Nat.not_le_of_lt (first u before hu))
  simp only [stCommit, all_, same, found]

variable (newer : ∀ u < 16, mask.testBit u = true → verOf s pa u (newest s pa u) < v)
include newer

theorem stCommit_held {t : Nat} (below : t < 16) (named : mask.testBit t = true)
    (held : fld (recQ s pa (tileOff t + 24)) (16 * (1 - newest s pa t)) 16 ≠ 0)
    (first : ∀ u < t, mask.testBit u = true → fld (recQ s pa (tileOff u + 24)) (16 * (1 - newest s pa u)) 16 = 0) :
    stCommit s pa n c v mask = stBad 6 t := by
  obtain ⟨all_, same⟩ := namedTiles_present s pa mask present
  have found : ((List.range 16).filter (fun t => mask.testBit t)).find?
      (fun t => decide (fld (recQ s pa (tileOff t + 24)) (16 * (1 - newest s pa t)) 16 ≠ 0)) = some t :=
    find_range_filter below named (decide_eq_true held) fun u before hu => decide_eq_false (not_not_intro (first u before hu))
  simp only [stCommit, all_, same, namedTiles_newer s pa v mask newer, found]

variable (idle : ∀ u < 16, mask.testBit u = true → fld (recQ s pa (tileOff u + 24)) (16 * (1 - newest s pa u)) 16 = 0)
include idle

theorem stCommit_reserved (bad : recBad s pa = true) : stCommit s pa n c v mask = stBad 10 0 := by
  obtain ⟨all_, same⟩ := namedTiles_present s pa mask present
  simp only [stCommit, all_, same, namedTiles_newer s pa v mask newer, namedTiles_idle s pa mask idle, bad, if_true]

theorem stCommit_commits (good : recBad s pa = false) : stCommit s pa n c v mask =
    (.ok 0#64, ((List.range 16).filter (fun t => mask.testBit t)).flatMap (fun t =>
      [(tileOff t + 16, setFld (recQ s pa (tileOff t + 16)) (if newest s pa t = 1 then 32 else 0) 32 v),
       (tileOff t + 24, setFld (recQ s pa (tileOff t + 24)) 32 1 (1 - newest s pa t))]) ++ ctrChange s pa n c) := by
  obtain ⟨all_, same⟩ := namedTiles_present s pa mask present
  have turned (t : Nat) : (if 1 - newest s pa t = 0 then 32 else 0) = if newest s pa t = 1 then 32 else 0 := by
    have := newest_lt s pa t
    interval_cases newest s pa t <;> rfl
  simp only [stCommit, all_, same, namedTiles_newer s pa v mask newer, namedTiles_idle s pa mask idle, good,
    Bool.false_eq_true, if_false, turned]

end commit

end record

/-! Error broadcasts (R169, R170, R356). -/

section broadcast
variable {s : State} {x : Issue} {w : SWord} {t : Team} {l cnt : Nat} {hd : Lane} {ls : List Lane}
variable (h : Issues s (.ebSend w) x) (ht : teamOf s x.g = some t) (hl : l = (rs x.g w.d.toNat).toNat) (operands : ebOperand x.g t w = none)
variable (header : laneCheck s x.g 0 l 32 1 1 true 1 = .ok hd) (release : releaseWait s x.g .tm = none)
variable (ready : readReady s x.g hd.pas true = true) (sound : badAt s hd.pas = none)
variable (plain : fld (le (hd.pas.map (rdByte s)) 0 8) 6 58 = 0) (zero : ∀ b ∈ (hd.pas.map (rdByte s)).drop 8, b = 0#8)
variable (hcnt : cnt = fld (le (hd.pas.map (rdByte s)) 0 8) 0 6 + 1)
variable (checked : (List.range cnt).map (fun k => laneCheck s x.g 0 (l + 32 + 32 * k) 32 1 1 true 1) = ls.map LaneRes.ok)
variable (lines : readReady s x.g (ls.flatMap (fun y => y.pas)) true = true) (whole : badAt s (ls.flatMap (fun y => y.pas)) = none)
include h ht hl operands header release ready sound plain zero hcnt checked lines whole

theorem exec_ebSend_reads : exec (.ebSend w) s = .next (
    ((splitEntries cnt ((ls.flatMap (fun y => y.pas)).map (rdByte s))).findIdx? (entryBad s x.g.ctx)).elim
      (performed x (clearWalks (launchOp (engineRead s x.g.ctx 0 (hd.pas ++ ls.flatMap (fun y => y.pas))) x.g.gid x.g.ctx x.g.core .net
        (.ebSource (if w.f7.getLsbD 0 then some t.tid else none) (rs x.g w.a.toNat).toNat (srcB x.g w).toNat (srcC x.g w).toNat
          (splitEntries cnt ((ls.flatMap (fun y => y.pas)).map (rdByte s))))) x.g.gid))
      (fun k => raised x s { cls := 0x14, code := 9, addr := l, index := k })) := by
  have formed : ¬ (fld (le (hd.pas.map (rdByte s)) 0 8) 6 58 ≠ 0 ∨
      ((hd.pas.map (rdByte s)).drop 8).any (fun b => decide (b ≠ 0#8)) = true) := by
    rintro (set | set)
    · exact set plain
    · obtain ⟨b, hb, set⟩ := List.any_eq_true.1 set
      exact of_decide_eq_true set (zero b hb)
  have faultless : wordFaultOf [] = none := rfl
  rw [exec_ebSend, execEbSend, runWord_unmasked h rfl rfl]
  simp only [ht, ← hl, operands, header, release, ready, sound, if_neg formed, ← hcnt, checked, missPage_oks, badLanes_oks, goodLanes_oks,
    faultless, lines, whole, Bool.not_true, Bool.false_eq_true, if_false]
  cases (splitEntries cnt ((ls.flatMap (fun y => y.pas)).map (rdByte s))).findIdx? (entryBad s x.g.ctx) with
  | none => exact congrArg _ (settle_ok x _)
  | some k => rfl

end broadcast

/-- Settles O43: a station word asks the home of a sound record once, a record's home refuses in the order of the codes (the tiles of a commit
by the lowest that breaks a rule), and a broadcast goes to the network engine when no entry is malformed. -/
theorem stationsAndBroadcast : Obligations.StationsAndBroadcast := by
  unfold Obligations.StationsAndBroadcast
  refine ⟨⟨?asks, ?answers, ?noPass⟩, ?counters, ?home, ?broadcast⟩
  case asks =>
    rintro s s1 x w i k rel l g a hi rfl h fresh some_ aligned reserved record release hs1 hg
    have sound : stOperand x.g w true false false = none := stOperand_sound (fun _ => some_) aligned (by simp) (by simp)
    simp only [List.mem_cons, Prod.mk.injEq, List.not_mem_nil, or_false] at hi
    obtain ⟨rfl, rfl, rfl⟩ | ⟨rfl, rfl, rfl⟩ | ⟨rfl, rfl, rfl⟩ | ⟨rfl, rfl, rfl⟩ := hi
    · rw [exec_paOpen, execPaOpen]
      exact stWord_asks h rfl rfl fresh sound (fun _ _ => StKind.noConfusion) record release hs1 hg
    · rw [exec_paOpenRp, execPaOpenRp]
      exact stWord_asks h rfl rfl fresh sound (fun _ _ => StKind.noConfusion) record release hs1 hg
    · rw [exec_paClose, execPaClose]
      exact stWord_asks h rfl rfl fresh sound (fun _ _ => StKind.noConfusion) record release hs1 hg
    · rw [exec_wvCommit, execWvCommit]
      refine stWord_asks h rfl rfl fresh sound
        (fun _ _ _ => stOperand_sound (fun _ => some_) aligned (by simp) (fun _ => reserved rfl)) record release ?_ hg
      rw [hs1, BitVec.extractLsb'_toNat, BitVec.extractLsb'_toNat]
      rfl
  case answers =>
    rintro s s1 x w g id hg rfl
    have hg' : getG (putG s (setSlot (walkDone g x.b) x.b { slotOf g x.b with stop := none })) x.g.gid =
        some (setSlot (walkDone g x.b) x.b { slotOf g x.b with stop := none }) := getG_cleared hg x.b
    refine ⟨fun v answer => ⟨fun h => ?_, fun h => ?_, fun i hi h => ?_⟩, fun f answer i hi h => ?_⟩
    · rw [exec_paClose, execPaClose, stWord_answered h rfl rfl hg answer, settle_ok]
    · rw [exec_wvCommit, execWvCommit, stWord_answered h rfl rfl hg answer, settle_ok]
    · obtain ⟨rel, kind, run, hm, hp⟩ := exec_openWord s hi
      obtain ⟨s2, g2, hg2, pass, hs, hv, mem, opens⟩ := openDone_opens w v hg'
      rw [setSlot_gid] at hg2 opens
      rw [setSlot_ctx, setSlot_core] at opens
      refine ⟨s2, g2, hg2, pass, hs.trans (setSlot_s _ _ _), hv.trans (setSlot_v _ _ _), mem, ?_⟩
      rw [run, stWord_answered h hm hp hg answer, opens, settle_ok]
      rfl
    · obtain ⟨rel, kind, fin, run, hm, hp⟩ := exec_stationWord s hi
      rw [run, stWord_refused h hm hp hg answer]
  case noPass =>
    intro s x w i hi h fresh zero
    obtain ⟨rel, kind, fin, run, hm, hp⟩ := exec_stationWord s hi
    rw [run, stWord_noPass h hm hp fresh zero]
  case counters =>
    rintro s x w l a c pa rfl aligned counter record rfl
    refine ⟨fun h => exec_acGet_record aligned counter record h, ?_⟩
    rintro s1 rfl some_ h
    exact ⟨fun ready sound => exec_acWait_reached aligned counter record h some_ ready sound,
      fun ready => exec_acWait_below aligned counter record h some_ ready⟩
  case home =>
    intro s pa n k q c ctr refuse hold hk hq hctr hrefuse hhold
    subst hk hctr hrefuse hhold
    rw [hq]
    refine ⟨fun rp => ⟨fun open_ other => stOpen_open s pa n c open_ other, fun free bad => stOpen_reserved s pa n c free bad,
      fun free good => ⟨_, bindOf_bits s pa, ?_⟩⟩, fun open_ own good => stOpen_again s pa n c open_ own good,
      fun other => stClose_other s pa n c other, fun open_ own => ⟨fun bad => stClose_reserved s pa n c open_ own bad, fun good => ?_⟩,
      fun v mask t named below beyond first => stCommit_lacks s pa n c v mask below named beyond first, fun v mask present =>
      ⟨fun t below named stale first => stCommit_stale s pa n c v mask present below named stale first, fun newer =>
      ⟨fun t below named held first => stCommit_held s pa n c v mask present newer below named held first, fun idle =>
      ⟨fun bad => stCommit_reserved s pa n c v mask present newer idle bad, fun good => ?_⟩⟩⟩, fun _ _ => rfl⟩
    · rw [stOpen_free s pa n c free good, bindOf_toNat]
      cases c <;> rfl
    · rw [stClose_closes s pa n c open_ own good]
      cases c <;> rfl
    · rw [stCommit_commits s pa n c v mask present newer idle good]
      cases c <;> rfl
  case broadcast =>
    rintro s x w t l cnt hd ls es h ht hl operands header release ready sound plain zero hcnt checked lines whole rfl
    have reads := exec_ebSend_reads h ht hl operands header release ready sound plain zero hcnt checked lines whole
    refine ⟨fun k e hk bad first => ?_, fun good => ?_⟩
    · obtain ⟨below, he⟩ := List.getElem?_eq_some_iff.1 hk
      have found := List.findIdx?_eq_some_iff_getElem.2 ⟨below, he ▸ bad, fun j before =>
        Bool.not_eq_true _ ▸ first j before _ (List.getElem?_eq_getElem (before.trans below))⟩
      rw [reads, found]
      rfl
    · rw [reads, List.findIdx?_eq_none_iff.2 good]; rfl

end Sys2Proof.Proofs
end

section
/-! PROOF. Tower words, far atomics and their waits as they issue (13_tower_network.md R359 to R363, R371 to R374). -/

namespace Sys2Proof.Proofs
open Sys2Proof Sys2Proof.Machine Sys2Proof.Laws

/-! Tower words (R359 to R363). -/

section towers
variable {s : State} {x : Issue} {w : TWord}

/-- The share a transfer word sets out, before it is dealt to the towers. -/
def transferShare (x : Issue) (w : TWord) (out : Bool) : Share :=
  { kind := if out then .xout else .xin, word := 0, tower := 0, ctx := x.g.ctx, team := x.g.team, canes := [], first := 0, addr := sregT x.g w.sa,
    row := w.row.toNat, w := w.wm1.toNat + 1, ty := w.ty.toNat, bc := if !out && w.f8.getLsbD 0 then some (rs x.g w.sa.toNat) else none,
    sat := w.f8.getLsbD 1, hint := fld w.f8.toNat 3 2, block := [], gaddr := [], idx := 0, active := [] }

theorem exec_eq_xferT {out : Bool} {i : Instr} (hi : i = if out then .twXout w else .twXin w) :
    exec i s = xferT i w out s ∧ w.msel.toNat = mselOf i ∧ false = perLaneOf i := by
  cases out <;> subst hi <;> exact ⟨rfl, rfl, rfl⟩

section transfers
variable {out : Bool} {i : Instr} (hi : i = if out then .twXout w else .twXin w) (h : Issues s i x)
include hi h

theorem exec_transfer_sets_out {q : TwSel} (selected : twSelect s x w = .inl q) (sound : xferBad x.g w q out = none) :
    exec i s = .next (performed x (issueTower s x q (transferShare x w out))) := by
  obtain ⟨run, hm, hp⟩ := exec_eq_xferT (s := s) hi
  rw [run, xferT, runWord_normal h hm hp]
  simp only [selected, sound]
  exact congrArg _ (settle_ok x _)

theorem exec_transfer_unselected {f : FInfo} (bad : twSelect s x w = .inr f) : exec i s = .next (raised x s f) := by
  obtain ⟨run, hm, hp⟩ := exec_eq_xferT (s := s) hi
  rw [run, xferT, runWord_normal h hm hp]
  simp only [bad, settle_bad]

end transfers

section run
variable (h : Issues s (.twRun w) x)
include h

theorem exec_twRun_sets_out {q : TwSel} {t : Team} {hdr : Nat} {ga : List Nat} {cmds : List W64} (selected : twSelect s x w = .inl q)
    (ht : teamOf s x.g = some t) (block : readBlock t (sregT x.g w.sa) = .ok hdr ga cmds) (plain : hdr < 32)
    (inside : w.start.toNat < cmds.length) : exec (.twRun w) s = .next (performed x (issueTower s x q
      { kind := .run, word := 0, tower := 0, ctx := x.g.ctx, team := t.tid, canes := [], first := 0, addr := sregT x.g w.sa, row := 0, w := 0, ty := 0,
        bc := none, sat := false, hint := 0, block := cmds, gaddr := ga, idx := w.start.toNat, active := [] })) := by
  have sound : ¬ (hdr / 32 ≠ 0 ∨ cmds.length ≤ w.start.toNat) := by omega
  rw [exec_twRun, execTwRun, runWord_normal (m := w.msel.toNat) (p := false) h rfl rfl]
  simp only [selected, ht, block, if_neg sound, settle_ok]

theorem exec_twRun_unselected {f : FInfo} (bad : twSelect s x w = .inr f) : exec (.twRun w) s = .next (raised x s f) := by
  rw [exec_twRun, execTwRun, runWord_normal (m := w.msel.toNat) (p := false) h rfl rfl]
  simp only [bad, settle_bad]

end run

/-! The wait for tower words (R372). -/

section wait
variable (h : Issues s (.twWait w) x) (fresh : x.replay = false)
include h fresh

theorem exec_twWait_busy (busy : twBusy s x.g (sregT x.g w.sa) = true) :
    exec (.twWait w) s = .next (parked x s (.twWait (sregT x.g w.sa))) := by
  rw [exec_twWait, execTwWait, runWord_unmasked h rfl rfl]
  simp only [fresh, Bool.false_eq_true, if_false, busy, if_true, settle_park]

variable (idle : twBusy s x.g (sregT x.g w.sa) = false)
include idle

theorem exec_twWait_raises {d : Due} (due : x.g.due.find? (fun d => d.cls == .tower && twNamed x.g (sregT x.g w.sa) d.word) = some d) :
    exec (.twWait w) s = .next (raised x (putG s { x.g with due := x.g.due.erase d }) d.info) := by
  rw [exec_twWait, execTwWait, runWord_unmasked h rfl rfl]
  simp only [fresh, Bool.false_eq_true, if_false, idle, due, settle_bad]

theorem exec_twWait_clear (none_ : ∀ d ∈ x.g.due, ¬ (d.cls = .tower ∧ twNamed x.g (sregT x.g w.sa) d.word = true)) :
    exec (.twWait w) s = .next (if x.g.twTime < s.time
      then performed x (putG s { ws x.g w.sb.toNat (BitVec.ofNat 64 x.g.tstat.toNat) with tstat := 0#2 })
      else parked x s (.twWait (sregT x.g w.sa))) := by
  have clear : x.g.due.find? (fun d => d.cls == .tower && twNamed x.g (sregT x.g w.sa) d.word) = none :=
    List.find?_eq_none.2 fun d hd => by simpa only [Bool.and_eq_true, beq_iff_eq] using none_ d hd
  rw [exec_twWait, execTwWait, runWord_unmasked h rfl rfl]
  simp only [fresh, Bool.false_eq_true, if_false, idle, clear]
  split
  · exact congrArg _ (settle_ok x _)
  · rfl

end wait

/-! The fence of far atomics (R374). -/

section fence
variable (h : Issues s (.farFence w) x)
include h

theorem exec_farFence_busy (busy : quiet s x.g .far = false) : exec (.farFence w) s = .next (parked x s .farFence) := by
  rw [exec_farFence, execFarFence, runWord_unmasked h rfl rfl]
  simp only [busy, Bool.not_false, if_true, settle_park]

variable (answered : quiet s x.g .far = true)
include answered

theorem exec_farFence_raises {d : Due} (due : x.g.due.find? (fun d => d.cls == .far) = some d) :
    exec (.farFence w) s = .next (raised x (putG s { x.g with due := x.g.due.erase d }) d.info) := by
  rw [exec_farFence, execFarFence, runWord_unmasked h rfl rfl]
  simp only [answered, Bool.not_true, Bool.false_eq_true, if_false, due, settle_bad]

theorem exec_farFence_clear (none_ : ∀ d ∈ x.g.due, d.cls ≠ .far) :
    exec (.farFence w) s = .next (if x.g.farTime < s.time then performed x s else parked x s .farFence) := by
  have clear : x.g.due.find? (fun d => d.cls == .far) = none :=
    List.find?_eq_none.2 fun d hd => by simpa only [beq_iff_eq] using none_ d hd
  rw [exec_farFence, execFarFence, runWord_unmasked h rfl rfl]
  simp only [answered, Bool.not_true, Bool.false_eq_true, if_false, clear]
  split
  · exact congrArg _ (settle_ok x _)
  · rfl

end fence
end towers

/-! Far atomics (R373). -/

theorem exec_farAdd_asks {s : State} {x : Issue} {w : VWord} {ls : List Lane} (h : Issues s (.farAdd w) x)
    (checked : (lanesOf x.active).map (fun l => farLane s x.g l (rv x.g w.a.toNat l).toNat (farZ w)) = ls.map LaneRes.ok) :
    exec (.farAdd w) s = .next (performed x (clearWalks (ls.foldl (fun u l =>
      launchPart u (drainWcb s x.g.gid).nextId x.g.gid x.g.ctx x.g.core .far
        (.far l (decide (w.ty.toNat = 22)) (farOperand x.g w l.lane) 0 none false false)) (drainWcb s x.g.gid)) x.g.gid)) := by
  rw [exec_farAdd, execFarAdd, runWord_normal (m := w.msel.toNat) (p := true) h rfl rfl]
  simp only [checked, missPage_oks, badLanes_oks, goodLanes_oks, finishLanes_good, settle_ok]

/-- Settles O44: a transfer and a block set out where selection and operands are sound, and the two waits park, raise or go on by what is left
and by the time given. -/
theorem towerAndFarAtomicWords : Obligations.TowerAndFarAtomicWords := by
  unfold Obligations.TowerAndFarAtomicWords
  refine ⟨⟨?transfers, ?run, ?unselected, ?wait⟩, ?far, ?fence⟩
  case transfers => exact fun s x w q out i hi h selected sound => exec_transfer_sets_out hi h selected sound
  case run => exact fun s x w q t hdr ga cmds h selected ht block plain inside => exec_twRun_sets_out h selected ht block plain inside
  case unselected =>
    refine fun s x w f => ⟨fun i hi h bad => ?_, fun h bad => exec_twRun_unselected h bad⟩
    simp only [List.mem_cons, List.not_mem_nil, or_false] at hi
    obtain rfl | rfl := hi
    · exact exec_transfer_unselected (out := false) rfl h bad
    · exact exec_transfer_unselected (out := true) rfl h bad
  case wait =>
    rintro s x w keep rfl h fresh
    refine ⟨exec_twWait_busy h fresh, fun idle none_ => ⟨fun past => ?_, fun early => ?_⟩, fun d idle due => exec_twWait_raises h fresh idle due⟩
    · rw [exec_twWait_clear h fresh idle none_, if_pos past]
    · rw [exec_twWait_clear h fresh idle none_, if_neg (Nat.not_lt_of_le early)]
  case far => exact fun s x w ls h checked => exec_farAdd_asks h checked
  case fence =>
    refine fun s x w h => ⟨exec_farFence_busy h, fun answered none_ => ⟨fun past => ?_, fun early => ?_⟩,
      fun d answered due => exec_farFence_raises h answered due⟩
    · rw [exec_farFence_clear h answered none_, if_pos past]
    · rw [exec_farFence_clear h answered none_, if_neg (Nat.not_lt_of_le early)]

end Sys2Proof.Proofs
end

section
/-! PROOF. Network words, receive counters and armed sends (13_tower_network.md R375 to R378, R381, 20_fault_model.md R447). -/

namespace Sys2Proof.Proofs
open Sys2Proof Sys2Proof.Machine Sys2Proof.Laws

/-! Transfer words (R376, R377, R498). -/

theorem lostDev_congr {s t : State} (jobs : t.jobs = s.jobs) (ctxs : t.ctxs = s.ctxs) (ctx dev : Nat) :
    lostDev t ctx dev = lostDev s ctx dev := by
  rw [lostDev, lostDev, jobOf, jobOf, getC, getC, jobs, ctxs]

theorem lostDev_drainWcb (s : State) (gid ctx dev : Nat) : lostDev (drainWcb s gid) ctx dev = lostDev s ctx dev := by
  unfold drainWcb
  split <;> rfl

theorem issueXfer_leaves {s : State} {x : Issue} {y : Xfer} (known : lostDev s x.g.ctx y.dev = false) (isGet : Bool) :
    issueXfer s x y isGet = launchOp s x.g.gid x.g.ctx x.g.core .net (if isGet then .get y else .send y) := by
  simp only [issueXfer, known, Bool.false_eq_true, if_false]

theorem issueXfer_lost {s s1 : State} {x : Issue} {y : Xfer} {f : Flight} {isGet : Bool} (lost : lostDev s x.g.ctx y.dev = true)
    (hs1 : s1 = launchOp s x.g.gid x.g.ctx x.g.core .net (if isGet then .get y else .send y)) (hf : getF s1 s.nextId = some f) :
    issueXfer s x y isGet = loseXfer s1 f y isGet := by
  simp only [issueXfer, lost, if_true, ← hs1, hf]

/-- A transfer that has sent nothing fails at its first byte and names no port. -/
theorem loseXfer_xferOf (s : State) (f : Flight) (g : Group) (t : Team) (w : NWord) (arm isGet : Bool) :
    loseXfer s f (xferOf g t w arm) isGet =
      failXfer s f (xferOf g t w arm) isGet 0 { cls := 0x1E, code := 1, addr := (xferOf g t w arm).remote, unit := 0xFF, eng := 4 } := rfl

section transfers
variable {s : State} {x : Issue} {w : NWord} {t : Team} (ht : teamOf s x.g = some t)
include ht

section words
variable {i : Instr} {arm : Bool} {f : State → Issue → Team → Xfer → Res} (h : Issues s i x) (hm : mselOf i = 0) (hp : perLaneOf i = false)
include h hm hp

theorem netWord_sound (sound : netBad s x.g t w arm = none) :
    netWord i w arm s f = .next (settle x false (f s x t (xferOf x.g t w arm))) := by
  rw [netWord, runWord_unmasked h hm hp]
  simp only [ht, sound]

theorem netWord_bad {e : FInfo} (bad : netBad s x.g t w arm = some e) : netWord i w arm s f = .next (raised x s e) := by
  rw [netWord, runWord_unmasked h hm hp]
  simp only [ht, bad, settle_bad]

end words

theorem exec_netSend_sound (h : Issues s (.netSend w) x) (sound : netBad s x.g t w false = none) : exec (.netSend w) s =
    .next (performed x (issueXfer (drainWcb s x.g.gid) x (xferOf x.g t w false) false)) := by
  rw [exec_netSend, execNetSend, netWord_sound ht h rfl rfl sound, settle_ok]

/-- The state in which a get is issued (R376): a local destination's lines are absent, and its allocation's inbound count has risen. -/
def getIssued (s : State) (x : Issue) (t : Team) (w : NWord) : State :=
  if w.f12.getLsbD 10 then
    putT (drainWcb s x.g.gid) { clearLines t (xferOf x.g t w false).addr (xferOf x.g t w false).bytes with inbound := t.inbound + 1 }
  else drainWcb s x.g.gid

omit ht in
theorem lostDev_getIssued (ctx dev : Nat) : lostDev (getIssued s x t w) ctx dev = lostDev s ctx dev := by
  unfold getIssued
  split
  · exact (lostDev_congr rfl rfl ctx dev).trans (lostDev_drainWcb s x.g.gid ctx dev)
  · exact lostDev_drainWcb s x.g.gid ctx dev

theorem exec_netGet_sound (h : Issues s (.netGet w) x) (sound : netBad s x.g t w false = none) : exec (.netGet w) s =
    .next (performed x (issueXfer (getIssued s x t w) x (xferOf x.g t w false) true)) := by
  rw [exec_netGet, execNetGet, netWord_sound ht h rfl rfl sound, settle_ok]
  rfl

/-- The armed send of `net.arm` (R377): its trigger and threshold stand in the operand that names the device. -/
def armedSend (g : Group) (t : Team) (w : NWord) : Armed :=
  { loc := (xferOf g t w true).loc, src := (xferOf g t w true).addr, dst := (xferOf g t w true).remote, bytes := (xferOf g t w true).bytes,
    dev := (xferOf g t w true).dev, trig := fld (rs g w.sd.toNat).toNat 16 9, thr := fld (rs g w.sd.toNat).toNat 32 32,
    cnt := (xferOf g t w true).cnt }

section arm
variable {c : Context} (h : Issues s (.netArm w) x) (sound : netBad s x.g t w true = none) (hc : getC s x.g.ctx = some c)
include h sound hc

theorem exec_netArm_arms (room : c.armed.length < 256) : exec (.netArm w) s = .next (performed x (fireReady
    (putC s { c with armed := c.armed ++ [armedSend x.g t w] }) x.g.ctx (fld (rs x.g w.sd.toNat).toNat 16 9))) := by
  rw [exec_netArm, execNetArm, netWord_sound ht h rfl rfl sound]
  simp only [hc, if_neg (Nat.not_le_of_lt room), settle_ok]
  rfl

theorem exec_netArm_full (full : 256 ≤ c.armed.length) : exec (.netArm w) s = .next (raised x s { cls := 0x16, code := 3 }) := by
  rw [exec_netArm, execNetArm, netWord_sound ht h rfl rfl sound]
  simp only [hc, if_pos full]
  rfl

end arm
end transfers

/-! Counter words (R378, R447). -/

theorem ctrW_eq (w : NWord) : ctrW w = (w.f12.extractLsb' 0 9).toNat := (BitVec.extractLsb'_toNat 0 9 w.f12).symm

section waits
variable {s : State} {x : Issue} {w : NWord} (h : Issues s (.cntWait w) x)
include h

theorem exec_cntWait_raises {d : Due} (due : x.g.due.find? (fun d => d.cnt == some (ctrW w)) = some d) :
    exec (.cntWait w) s = .next (raised x (putG s { x.g with due := x.g.due.erase d }) d.info) := by
  rw [exec_cntWait, execCntWait, runWord_unmasked h rfl rfl]
  simp only [due, settle_bad]

theorem exec_cntWait_clear (clear : x.g.due.find? (fun d => d.cnt == some (ctrW w)) = none) :
    exec (.cntWait w) s = .next (if (rs x.g w.sa.toNat).toNat ≤ (counterOf s x.g.ctx (ctrW w)).toNat then performed x s
      else parked x s (.cnt (ctrW w) (rs x.g w.sa.toNat).toNat)) := by
  rw [exec_cntWait, execCntWait, runWord_unmasked h rfl rfl]
  simp only [clear, sregN, BitVec.le_def]
  split
  · rw [settle_ok]
  · rfl

end waits

/-! The collective step (R381). -/

section collective
variable {s : State} {x : Issue} {w : NWord} {t : Team} {c : Coll} {k va n : Nat} (h : Issues s (.collStep w) x) (ht : teamOf s x.g = some t)
variable (chunk : chunkOf s t = some (c, k, va, n))
include h ht chunk

theorem exec_collStep_stranger (stranger : x.g.task = true ∨ x.g.num ≠ c.cgroup) :
    exec (.collStep w) s = .next (raised x s { cls := 0x16, code := 4, index := x.g.num }) := by
  rw [exec_collStep, execCollStep, runWord_unmasked h rfl rfl]
  simp only [ht, chunk, if_pos stranger]
  rfl

variable (group : x.g.task = false) (number : x.g.num = c.cgroup)
include group number

theorem exec_collStep_fires (plain : w.f12.getLsbD 0 = false) : exec (.collStep w) s = .next (performed x
    (if t.chunk.fired then s else fireChunk (drainWcb s x.g.gid) x.g.gid x.g.core t false)) := by
  have own : ¬ (x.g.task = true ∨ x.g.num ≠ c.cgroup) := by simp [group, number]
  rw [exec_collStep, execCollStep, runWord_unmasked h rfl rfl]
  simp only [ht, chunk, if_neg own, plain, Bool.false_eq_true, if_false, Bool.not_false, if_true, settle_ok]

theorem exec_collStep_waits (wait : w.f12.getLsbD 0 = true) (kept : t.chunk.abort = none) (fired : t.chunk.fired = true)
    (own : getT s t.tid = some t) (many : c.members ≠ 1) (data : c.total ≠ 0) : exec (.collStep w) s =
      .next (if t.chunk.landed = true ∧ t.chunk.wct < s.time then performed x s else parked x s .coll) := by
  have group : ¬ (x.g.task = true ∨ x.g.num ≠ c.cgroup) := by simp [group, number]
  rw [exec_collStep, execCollStep, runWord_unmasked h rfl rfl]
  simp only [ht, chunk, if_neg group, wait, kept, if_true, fired, Bool.not_true, Bool.false_eq_true, if_false, own, many, data, or_false,
    Bool.and_eq_true, decide_eq_true_eq]
  split
  · rw [settle_ok]
  · rfl

end collective

/-! A counter that is set, and the armed sends it makes ready (R375, R377). -/

section counters
variable {s : State} {c : Context} (hc : getC s c.ctx = some c) (k : Nat) (v : W64)

theorem foldl_launchOp (g : Armed → Op) (gid ctx core : Nat) (cls : Cls) (l : List Armed) (s : State) :
    (l.foldl (fun s a => launchOp s gid ctx core cls (g a)) s).ctxs = s.ctxs ∧
      ∃ ops : List Flight, (l.foldl (fun s a => launchOp s gid ctx core cls (g a)) s).pend = s.pend ++ ops ∧ ops.map (fun f => f.op) = l.map g := by
  induction l generalizing s with
  | nil => exact ⟨rfl, [], (List.append_nil _).symm, rfl⟩
  | cons a l ih =>
    obtain ⟨ctxs, ops, pend, map⟩ := ih (launchOp s gid ctx core cls (g a))
    exact ⟨ctxs, _ :: ops, pend.trans (List.append_assoc _ [_] ops), congrArg (List.cons (g a)) map⟩

/-- The armed sends that a counter's value makes ready. -/
def madeReady (k : Nat) (v : W64) (a : Armed) : Bool := a.trig == k && decide (a.thr ≤ v.toNat)

/-- The context of a counter that has been set: its ready sends have left it. -/
def counted (s : State) (c : Context) (k : Nat) (v : W64) : Context :=
  { c with counters := fput 0#64 k v c.counters, progress := s.time, armed := c.armed.filter (fun a => !madeReady k v a) }

include hc

theorem counterSet_eq : counterSet s c.ctx k v = (c.armed.filter (madeReady k v)).foldl (fun s a => launchOp s 0 c.ctx 255 .none
      (.send { loc := a.loc, addr := a.src, remote := a.dst, bytes := a.bytes, dev := a.dev, cnt := a.cnt, fired := true }))
    (putC (putC s { c with counters := fput 0#64 k v c.counters, progress := s.time }) (counted s c k v)) := by
  have set_ := getC_putC_same (s := s) (c := { c with counters := fput 0#64 k v c.counters, progress := s.time }) hc
  simp only [counterSet, hc, fireReady, set_, fget_fput_same]
  rfl

theorem getC_counterSet : getC (counterSet s c.ctx k v) c.ctx = some (counted s c k v) := by
  have set_ := getC_putC_same (s := s) (c := { c with counters := fput 0#64 k v c.counters, progress := s.time }) hc
  rw [counterSet_eq hc, getC, (foldl_launchOp _ _ _ _ _ _ _).1, ← getC]
  exact getC_putC_same (c := counted s c k v) set_

theorem counterOf_counterSet (j : Nat) : counterOf (counterSet s c.ctx k v) c.ctx j = if j = k then v else counterOf s c.ctx j := by
  simp only [counterOf, getC_counterSet hc, hc, counted, fget_fput]

theorem counterSet_sets_out : ∃ ops : List Flight, (counterSet s c.ctx k v).pend = s.pend ++ ops ∧
    ops.map (fun f => f.op) = (c.armed.filter (madeReady k v)).map (fun a =>
      Op.send { loc := a.loc, addr := a.src, remote := a.dst, bytes := a.bytes, dev := a.dev, cnt := a.cnt, fired := true }) := by
  rw [counterSet_eq hc]
  exact (foldl_launchOp _ _ _ _ _ _ _).2

end counters

/-- Settles O45: a transfer leaves or fails at once, a wait looks at kept faults first, and a counter's new value sends out, in arming order,
what was armed for it. -/
theorem networkAndCounterWords : Obligations.NetworkAndCounterWords := by
  unfold Obligations.NetworkAndCounterWords
  refine ⟨⟨fun s x w t ht => ⟨?send, ?get, ?lostGet, ?badGet, ?arm, ?badSend⟩, ?counters, ?collective⟩, ?set_⟩
  case send =>
    rintro y h sound rfl
    refine ⟨fun known => ?_, fun s1 f lost hs1 hf => ?_⟩
    · rw [exec_netSend_sound ht h sound, issueXfer_leaves ((lostDev_drainWcb s x.g.gid _ _).trans known)]
      rfl
    · rw [exec_netSend_sound ht h sound, issueXfer_lost ((lostDev_drainWcb s x.g.gid _ _).trans lost) hs1 hf, loseXfer_xferOf]
  case get =>
    rintro y s1 s2 h sound rfl known rfl rfl
    rw [exec_netGet_sound ht h sound, issueXfer_leaves ((lostDev_getIssued _ _).trans known)]
    rfl
  case lostGet =>
    rintro y s1 s2 s3 f h sound rfl lost rfl rfl hs3 hf
    rw [exec_netGet_sound ht h sound, issueXfer_lost ((lostDev_getIssued _ _).trans lost) hs3 hf, loseXfer_xferOf]
  case badGet => exact fun e h bad => by rw [exec_netGet, execNetGet, netWord_bad ht h rfl rfl bad]
  case badSend => exact fun e h bad => by rw [exec_netSend, execNetSend, netWord_bad ht h rfl rfl bad]
  case arm =>
    rintro c y d h sound hc rfl rfl
    exact ⟨exec_netArm_arms ht h sound hc, exec_netArm_full ht h sound hc⟩
  case counters =>
    intro s x w k hk
    rw [← ctrW_eq] at hk
    subst hk
    refine ⟨fun h => ?_, fun h => ?_, fun d h due => exec_cntWait_raises h due, fun h clear reached => ?_, fun h clear below => ?_⟩
    · rw [exec_cntInit, execCntInit, runWord_unmasked h rfl rfl, settle_ok]
      rfl
    · rw [exec_cntGet, execCntGet, runWord_unmasked h rfl rfl, settle_ok]
    · rw [exec_cntWait_clear h clear, if_pos reached]
    · rw [exec_cntWait_clear h clear, if_neg (Nat.not_le_of_lt below)]
  case collective =>
    exact fun s x w t c k va n h ht chunk => ⟨fun group number plain => exec_collStep_fires h ht chunk group number plain,
      fun group number wait kept fired own many data => exec_collStep_waits h ht chunk group number wait kept fired own many data,
      fun stranger => exec_collStep_stranger h ht chunk stranger⟩
  case set_ =>
    exact fun s c k v hc => ⟨counterOf_counterSet hc k v, ⟨_, getC_counterSet hc k v, rfl⟩, counterSet_sets_out hc k v⟩

end Sys2Proof.Proofs
end

section
/-! PROOF. The values of cane commands (13_tower_network.md R364 to R366, R370, 22_memory_engine_faults.md R488). -/

namespace Sys2Proof.Proofs
open Sys2Proof Sys2Proof.Machine Sys2Proof.Laws

/-! Columns that take a value (R366). -/

/-- The canes once rows `d` to `d + w - 1` of each active column have taken `f` of the column's bits. -/
def writeColumns (d w : Nat) (f : Nat → Nat) (l : List (Nat × (Bool × List Bool))) (cs : FMap (BitVec 1024)) : FMap (BitVec 1024) :=
  l.foldl (fun cs p => if p.2.1 then
    fput 0#1024 p.1 (BitVec.ofNat 1024 (setFld (fget 0#1024 p.1 cs).toNat d w (f (fget 0#1024 p.1 cs).toNat))) cs else cs) cs

theorem foldl_rowPut (d w : Nat) (f : Nat → Nat) (l : List (Nat × (Bool × List Bool))) (s : State) :
    l.foldl (fun s p => if p.2.1 then rowPut s p.1 d w (f (caneGet s p.1)) else s) s = { s with canes := writeColumns d w f l s.canes } := by
  induction l generalizing s with
  | nil => rfl
  | cons p l ih =>
    obtain ⟨k, on, st⟩ := p
    cases on with
    | false => exact ih s
    | true => exact ih _

theorem caneValue_eq (d w : Nat) (f : Nat → Nat) (s : State) (fl : Flight) (sh : Share) :
    caneValue d w f s fl sh = .ok { s with canes := writeColumns d w f (sh.canes.zip sh.active) s.canes } sh := by
  rw [caneValue, foldl_rowPut]

section columns
variable {d w : Nat} {f : Nat → Nat} {k : Nat}

theorem fget_writeColumns_idle {l : List (Nat × (Bool × List Bool))} (idle : ∀ st, (k, (true, st)) ∉ l) (cs : FMap (BitVec 1024)) :
    fget 0#1024 k (writeColumns d w f l cs) = fget 0#1024 k cs := by
  induction l generalizing cs with
  | nil => rfl
  | cons p l ih =>
    obtain ⟨j, on, st⟩ := p
    have rest := ih (fun st mem => idle st (List.mem_cons_of_mem _ mem))
    cases on with
    | false => exact rest cs
    | true =>
      have other : k ≠ j := by
        rintro rfl
        exact idle st List.mem_cons_self
      exact (rest _).trans (fget_fput_other _ other _ _)

theorem fget_writeColumns_active {l : List (Nat × (Bool × List Bool))} (distinct : (l.map Prod.fst).Nodup) {st : List Bool}
    (active : (k, (true, st)) ∈ l) (cs : FMap (BitVec 1024)) : fget 0#1024 k (writeColumns d w f l cs) =
      BitVec.ofNat 1024 (setFld (fget 0#1024 k cs).toNat d w (f (fget 0#1024 k cs).toNat)) := by
  induction l generalizing cs with
  | nil => cases active
  | cons p l ih =>
    obtain ⟨j, on, st'⟩ := p
    obtain ⟨fresh, distinct_rest⟩ := List.nodup_cons.1 distinct
    rcases List.mem_cons.1 active with own | later
    · cases own
      have idle : ∀ st, (k, (true, st)) ∉ l := fun st mem => fresh (List.mem_map.2 ⟨_, mem, rfl⟩)
      exact (fget_writeColumns_idle idle _).trans (fget_fput_same _ _ _ _)
    · have other : k ≠ j := by
        rintro rfl
        exact fresh (List.mem_map.2 ⟨_, later, rfl⟩)
      cases on with
      | false => exact ih distinct_rest later cs
      | true =>
        refine (ih distinct_rest later _).trans ?_
        exact congrArg (fun x : BitVec 1024 => BitVec.ofNat 1024 (setFld x.toNat d w (f x.toNat))) (fget_fput_other _ other _ _)

theorem getLsbD_setFld {r : Nat} (hr : r < 1024) (x : BitVec 1024) (v : Nat) : (BitVec.ofNat 1024 (setFld x.toNat d w v)).getLsbD r =
    if d ≤ r ∧ r < d + w then v.testBit (r - d) else x.getLsbD r := by
  rw [BitVec.getLsbD_ofNat, decide_eq_true hr, Bool.true_and, testBit_setFld]
  rfl

end columns

theorem nodup_zip_fst {α β : Type} {l : List α} (distinct : l.Nodup) (m : List β) : ((l.zip m).map Prod.fst).Nodup := by
  rw [List.zip_eq_zip_take_min, List.map_fst_zip (by simp)]
  exact distinct.sublist (List.take_sublist _ _)

/-! A command at its sequencer (R370, R488). -/

section sequencer
variable {s : State} {id : Nat} {fl : Flight} {sh : Share} (focus : s.focus = .tower id) (hf : getF s id = some fl) (hop : fl.op = .share sh)
variable {cols : Share → List Nat} {srcs : List (Nat × Nat)} {d : Nat × Nat} {run : State → Flight → Share → CaneRes}
include focus hf hop

theorem runCane_breach : runCane s true cols srcs d run = .next (stopShare s fl sh { cls := 0x15, code := 6, addr := sh.addr }) := by
  simp only [runCane, focus, hf, hop, if_true]

section clean
variable (clean : caneErrors s (cols sh) srcs d = [])
include clean

theorem runCane_ok {s1 : State} {sh1 : Share} (ok : run s fl sh = .ok s1 sh1) : runCane s false cols srcs d run =
    .next (putF (caneMend s1 (cols sh) d) { fl with op := .share { sh1 with idx := sh.idx + 1 } }) := by
  simp only [runCane, focus, hf, hop, Bool.false_eq_true, if_false, clean, List.isEmpty_nil, if_true, ok]

theorem runCane_stops {e : FInfo} (bad : run s fl sh = .bad e) : runCane s false cols srcs d run = .next (stopShare s fl sh e) := by
  simp only [runCane, focus, hf, hop, Bool.false_eq_true, if_false, clean, List.isEmpty_nil, if_true, bad]

end clean

theorem runCane_check {g : Nat} {r : List Nat} (errors : caneErrors s (cols sh) srcs d = g :: r) {s1 : State} {sh1 : Share}
    (ok : run s fl (dropArrays sh ((g :: r).map (fun g => g / 16384))) = .ok s1 sh1) : runCane s false cols srcs d run =
      .next (checkShare (caneMend s1 (cols (dropArrays sh ((g :: r).map (fun g => g / 16384)))) d) fl sh 8 (g / 16)) := by
  simp only [runCane, focus, hf, hop, Bool.false_eq_true, if_false, errors, List.isEmpty_cons, ok]

end sequencer

/-- No column of an array in error takes part. -/
theorem dropArrays_idle {sh : Share} {l : List Nat} {k : Nat} (dropped : k / 1024 ∈ l) (st : List Bool) :
    (k, (true, st)) ∉ (dropArrays sh l).canes.zip (dropArrays sh l).active := by
  intro mem
  simp only [dropArrays, List.mem_iff_getElem?, List.getElem?_zip_eq_some, List.getElem?_map, Option.map_eq_some_iff] at mem
  obtain ⟨n, hk, ⟨k', on⟩, ⟨hk', -⟩, dropped'⟩ := mem
  obtain rfl : k = k' := Option.some.inj (hk.symm.trans hk')
  rw [if_pos (List.contains_iff_mem.2 dropped)] at dropped'
  cases dropped'

theorem caneResult_of_run {s : State} {i : Instr} {srcs : List (Nat × Nat)} {d w : Nat} {f : Nat → Nat}
    (run : exec i s = runCane s false activeCanes srcs (d, w) (caneValue d w f)) : CaneResult s i srcs d w f := by
  intro id fl sh focus hf hop distinct
  refine ⟨fun clean => ⟨writeColumns d w f (sh.canes.zip sh.active) s.canes, ?_, fun k st r active hr => ?_,
    fun k idle => fget_writeColumns_idle idle s.canes⟩, fun g r errors => ?_⟩
  · exact run.trans (runCane_ok focus hf hop clean (caneValue_eq d w f s fl sh))
  · rw [fget_writeColumns_active (nodup_zip_fst distinct _) active, getLsbD_setFld hr]
  · obtain ⟨sh0, hsh0⟩ : ∃ sh0, dropArrays sh ((g :: r).map (fun g => g / 16384)) = sh0 := ⟨_, rfl⟩
    refine ⟨writeColumns d w f (sh0.canes.zip sh0.active) s.canes, (caneMend s (activeCanes sh0) (d, w)).badCane, ?_, fun k array => ?_⟩
    · exact run.trans (hsh0 ▸ runCane_check focus hf hop errors (caneValue_eq d w f s fl _))
    · exact fget_writeColumns_idle (hsh0 ▸ dropArrays_idle (array ▸ List.mem_cons_self)) s.canes

end Sys2Proof.Proofs
end

section
/-! PROOF. The operands and results of cane commands (13_tower_network.md R365, R366). -/

namespace Sys2Proof.Proofs
open Sys2Proof Sys2Proof.Machine Sys2Proof.Laws

/-! Operands and results as the claim names them. -/

theorem colNum_eq (sg : Bool) (v r n : Nat) : colNum sg v r (n + 1) =
    if sg then (BitVec.ofNat (n + 1) (v / 2 ^ r)).toInt else ((v / 2 ^ r % 2 ^ (n + 1) : Nat) : Int) := by
  cases sg with
  | false => exact congrArg Int.ofNat (fld_eq_div_mod v r (n + 1))
  | true =>
    refine (toS_eq_toInt n _).trans (congrArg BitVec.toInt (BitVec.eq_of_toNat_eq ?_))
    rw [BitVec.toNat_ofNat, BitVec.toNat_ofNat, fld_eq_div_mod, Nat.mod_mod]

/-- An immediate is the command's field, sign extended. -/
theorem caneImm_eq (c : CaneCmd) : caneImm c = (c.b.signExtend 64).toNat % 2 ^ caneW c := by
  have narrow : caneW c ≤ 64 := by
    have := c.wm1.isLt
    rw [caneW]
    omega
  have ext : toS 10 c.b.toNat = (c.b.signExtend 64).toInt := by
    rw [toS_eq_toInt 9, BitVec.ofNat_toNat, BitVec.setWidth_eq, BitVec.toInt_signExtend_of_le (by decide)]
  have low : (2 : Int) ^ caneW c ∣ (2 : Int) ^ 64 := pow_dvd_pow 2 narrow
  rw [caneImm, wrap, ext, ← Int.toNat_natCast ((c.b.signExtend 64).toNat % 2 ^ caneW c)]
  congr 1
  push_cast
  rw [BitVec.toInt_eq_toNat_bmod, ← Int.emod_emod_of_dvd _ low, show (2 : Int) ^ 64 = ((2 ^ 64 : Nat) : Int) from rfl, Int.bmod_emod,
    show ((2 ^ 64 : Nat) : Int) = (2 : Int) ^ 64 from rfl, Int.emod_emod_of_dvd _ low]

theorem caneImm_lt (c : CaneCmd) : caneImm c < 2 ^ caneW c := wrap_lt _ _

theorem caneB_eq (c : CaneCmd) (v : Nat) : caneB c v =
    if c.i then colNum c.s (caneImm c) 0 (caneW c) else colNum c.s v c.b.toNat (caneW c) := by
  have whole : fld (caneImm c) 0 (caneW c) = caneImm c := by
    rw [fld_eq_div_mod, Nat.pow_zero, Nat.div_one, Nat.mod_eq_of_lt (caneImm_lt c)]
  rw [caneB, colNum, colNum, whole]

theorem caneTake_eq (c : CaneCmd) (x : Int) : caneTake c x = if c.sat = false then (x % (2 : Int) ^ caneW c).toNat
    else if c.s then (max (-(2 : Int) ^ (caneW c - 1)) (min ((2 : Int) ^ (caneW c - 1) - 1) x) % (2 : Int) ^ caneW c).toNat
    else (max 0 (min ((2 : Int) ^ caneW c - 1) x)).toNat := by
  have half : (1 : Int) ≤ 2 ^ (caneW c - 1) := one_le_pow₀ (by decide)
  have full : (1 : Int) ≤ 2 ^ caneW c := one_le_pow₀ (by decide)
  rw [caneTake, wrap]
  push_cast
  cases c.sat with
  | false => rfl
  | true =>
    cases c.s with
    | true => simp only [if_true, Bool.true_eq_false, if_false, clampI_eq (show -(2 : Int) ^ (caneW c - 1) ≤ 2 ^ (caneW c - 1) - 1 by omega)]
    | false =>
      simp only [if_true, Bool.true_eq_false, if_false, Bool.false_eq_true, clampI_eq (show (0 : Int) ≤ 2 ^ caneW c - 1 by omega)]
      rw [Int.emod_eq_of_lt (by omega) (by omega)]

theorem sub_and_eq_and_not {w a b : Nat} (ha : a < 2 ^ w) (hb : b < 2 ^ w) : a - (a &&& b) = a &&& (2 ^ w - 1 - b) := by
  have parts := BitVec.toNat_add_of_and_eq_zero (x := BitVec.ofNat w a &&& BitVec.ofNat w b) (y := BitVec.ofNat w a &&& ~~~BitVec.ofNat w b)
    (by ext i; simp; tauto)
  have whole : (BitVec.ofNat w a &&& BitVec.ofNat w b) + (BitVec.ofNat w a &&& ~~~BitVec.ofNat w b) = BitVec.ofNat w a := by
    rw [BitVec.add_eq_or_of_and_eq_zero _ _ (by ext i; simp; tauto)]
    ext i
    simp only [BitVec.getElem_or, BitVec.getElem_and, BitVec.getElem_not]
    cases (BitVec.ofNat w a)[i] <;> cases (BitVec.ofNat w b)[i] <;> rfl
  rw [whole, BitVec.toNat_and, BitVec.toNat_and, BitVec.toNat_not, BitVec.toNat_ofNat, BitVec.toNat_ofNat, Nat.mod_eq_of_lt ha,
    Nat.mod_eq_of_lt hb] at parts
  omega

theorem ediv_two_pow_min {w k : Nat} {x : Int} (low : -(2 : Int) ^ w ≤ x) (high : x < (2 : Int) ^ w) :
    x / (2 : Int) ^ min k w = x / (2 : Int) ^ k := by
  rcases Nat.le_total k w with le | le
  · rw [Nat.min_eq_left le]
  · have bound : (2 : Int) ^ w ≤ 2 ^ k := pow_le_pow_right₀ (by decide) le
    rw [Nat.min_eq_right le]
    rcases lt_or_ge x 0 with neg | pos
    · rw [Int.ediv_eq_neg_one_of_neg_of_le neg (by omega), Int.ediv_eq_neg_one_of_neg_of_le neg (by omega)]
    · rw [Int.ediv_eq_zero_of_lt pos high, Int.ediv_eq_zero_of_lt pos (high.trans_le bound)]

theorem wrap_shiftRight (n a k : Nat) : wrap (n + 1) (toS (n + 1) a / (2 ^ min k (n + 1) : Nat)) =
    ((BitVec.ofNat (n + 1) a).sshiftRight k).toNat := by
  have low : -(2 : Int) ^ (n + 1) ≤ (BitVec.ofNat (n + 1) a).toInt := by
    have := BitVec.two_mul_toInt_lt (x := BitVec.ofNat (n + 1) a)
    have := BitVec.le_two_mul_toInt (x := BitVec.ofNat (n + 1) a)
    omega
  have high : (BitVec.ofNat (n + 1) a).toInt < (2 : Int) ^ (n + 1) := by
    have := BitVec.two_mul_toInt_lt (x := BitVec.ofNat (n + 1) a)
    have := BitVec.le_two_mul_toInt (x := BitVec.ofNat (n + 1) a)
    omega
  rw [wrap_eq_toNat_ofInt, toS_eq_toInt, BitVec.sshiftRight, Int.shiftRight_eq_div_pow]
  push_cast
  rw [ediv_two_pow_min low high]

/-- The comparison of `v.cmp` by its condition code (R366). -/
def compares (k : Nat) (a b : Int) : Bool :=
  match k with
  | 0 => decide (a = b) | 1 => decide (a ≠ b) | 2 => decide (a < b)
  | 3 => decide (a ≤ b) | 4 => decide (a > b) | _ => decide (a ≥ b)

theorem condHolds_eq_compares {k : Nat} (hk : k ≤ 5) (a b : Int) : condHolds k a b = compares k a b := by
  interval_cases k <;> rfl

/-! The commands, each with its value (R366). -/

section commands
variable (s : State) (c : CaneCmd)

theorem caneResult_of_value {i : Instr} {im : Nat} {satOk mul cc extra : Bool} {d : Nat × Nat} {srcs : List (Nat × Nat)} {f : Nat → Nat}
    (run : exec i s = runValue c im satOk mul cc extra d srcs f s) (sound : caneBad c im satOk mul cc extra d srcs = false) :
    CaneResult s i srcs d.1 d.2 f :=
  caneResult_of_run (run.trans (by rw [runValue, sound]))

theorem caneResult_AB {i : Instr} {satOk : Bool} {f : Int → Int → Int} (run : exec i s = caneAB c satOk f s)
    (sound : caneBad c 1 satOk false false false (c.d.toNat, caneW c) (caneSrcs c) = false) :
    CaneResult s i (caneSrcs c) c.d.toNat (caneW c) (fun v => caneTake c (f (caneA c v) (caneB c v))) :=
  caneResult_of_value s c run sound

theorem caneResult_bits {i : Instr} {f : Nat → Nat → Nat} (run : exec i s = caneBits c f s)
    (sound : caneBad c 1 false false false false (c.d.toNat, caneW c) (caneSrcs c) = false) :
    CaneResult s i (caneSrcs c) c.d.toNat (caneW c)
      (fun v => f (fld v c.a.toNat (caneW c)) (if c.i then caneImm c else fld v c.b.toNat (caneW c))) :=
  caneResult_of_value s c run sound

theorem caneResult_mul {i : Instr} {acc : Bool} (run : exec i s = caneMul c acc s)
    (sound : caneBad c 0 true true false false (c.d.toNat, caneW c) [(c.a.toNat, c.wam1.toNat + 1), (c.b.toNat, c.wbm1.toNat + 1)] = false) :
    CaneResult s i ((if acc then [(c.d.toNat, caneW c)] else []) ++ [(c.a.toNat, c.wam1.toNat + 1), (c.b.toNat, c.wbm1.toNat + 1)])
      c.d.toNat (caneW c) (fun v => caneTake c (colNum c.s v c.a.toNat (c.wam1.toNat + 1) * colNum c.s v c.b.toNat (c.wbm1.toNat + 1) +
        (if acc then colNum c.s v c.d.toNat (caneW c) else 0))) := by
  refine caneResult_of_run (run.trans ?_)
  rw [caneMul]
  simp only [sound]
  cases acc <;> rfl

theorem caneResult_shift {i : Instr} {f : Nat → Nat → Nat} (run : exec i s = caneShift c f s) (count : c.b.toNat < 64)
    (sound : caneBad c 2 false false false false (c.d.toNat, caneW c) [(c.a.toNat, caneW c)] = false) :
    CaneResult s i [(c.a.toNat, caneW c)] c.d.toNat (caneW c) (fun v => f (fld v c.a.toNat (caneW c)) c.b.toNat) := by
  have low : fld c.b.toNat 0 6 = c.b.toNat := by rw [fld_eq_div_mod, Nat.pow_zero, Nat.div_one, Nat.mod_eq_of_lt (show c.b.toNat < 2 ^ 6 from count)]
  have high : decide (fld c.b.toNat 6 4 ≠ 0) = false := by
    rw [fld_eq_div_mod, Nat.div_eq_of_lt (show c.b.toNat < 2 ^ 6 from count)]
    rfl
  rw [← low]
  exact caneResult_of_value s c (run.trans (by rw [caneShift, high])) sound

theorem caneResult_congr {s : State} {i : Instr} {srcs : List (Nat × Nat)} {d w : Nat} {f g : Nat → Nat} (same : ∀ v, f v = g v)
    (h : CaneResult s i srcs d w f) : CaneResult s i srcs d w g := (funext same : f = g) ▸ h

theorem caneResult_andn (sound : caneBad c 1 false false false false (c.d.toNat, caneW c) (caneSrcs c) = false) :
    CaneResult s (.caneVAndn c) (caneSrcs c) c.d.toNat (caneW c)
      (fun v => fld v c.a.toNat (caneW c) &&& (2 ^ caneW c - 1 - (if c.i then caneImm c else fld v c.b.toNat (caneW c)))) := by
  refine caneResult_congr (fun v => ?_) (caneResult_bits s c (exec_caneVAndn c s) sound)
  refine sub_and_eq_and_not (fld_lt _ _ _) ?_
  split
  · exact caneImm_lt c
  · exact fld_lt _ _ _

section products
variable (sound : caneBad c 0 true true false false (c.d.toNat, caneW c) [(c.a.toNat, c.wam1.toNat + 1), (c.b.toNat, c.wbm1.toNat + 1)] = false)
include sound

theorem caneResult_vMul : CaneResult s (.caneVMul c) [(c.a.toNat, c.wam1.toNat + 1), (c.b.toNat, c.wbm1.toNat + 1)] c.d.toNat (caneW c)
    (fun v => caneTake c (colNum c.s v c.a.toNat (c.wam1.toNat + 1) * colNum c.s v c.b.toNat (c.wbm1.toNat + 1))) :=
  caneResult_congr (fun _ => congrArg (caneTake c) (Int.add_zero _)) (caneResult_mul s c (acc := false) (exec_caneVMul c s) sound)

theorem caneResult_vMad :
    CaneResult s (.caneVMad c) [(c.d.toNat, caneW c), (c.a.toNat, c.wam1.toNat + 1), (c.b.toNat, c.wbm1.toNat + 1)] c.d.toNat (caneW c)
      (fun v => caneTake c (colNum c.s v c.d.toNat (caneW c) +
        colNum c.s v c.a.toNat (c.wam1.toNat + 1) * colNum c.s v c.b.toNat (c.wbm1.toNat + 1))) :=
  caneResult_congr (fun _ => congrArg (caneTake c) (Int.add_comm _ _)) (caneResult_mul s c (acc := true) (exec_caneVMad c s) sound)

end products

theorem caneResult_vSar (count : c.b.toNat < 64)
    (sound : caneBad c 2 false false false false (c.d.toNat, caneW c) [(c.a.toNat, caneW c)] = false) :
    CaneResult s (.caneVSar c) [(c.a.toNat, caneW c)] c.d.toNat (caneW c)
      (fun v => ((BitVec.ofNat (caneW c) (fld v c.a.toNat (caneW c))).sshiftRight c.b.toNat).toNat) :=
  caneResult_congr (fun _ => wrap_shiftRight _ _ _) (caneResult_shift s c (exec_caneVSar c s) count sound)

theorem caneResult_vCmp (cc : c.cc.toNat ≤ 5) (sound : caneBad c 1 false false true false (c.d.toNat, 1) (caneSrcs c) = false) :
    CaneResult s (.caneVCmp c) (caneSrcs c) c.d.toNat 1 (fun v => if compares c.cc.toNat (caneA c v) (caneB c v) then 1 else 0) := by
  refine caneResult_congr (fun v => ?_)
    (caneResult_of_value s c ((exec_caneVCmp c s).trans (by rw [execCaneVCmp, decide_eq_false (Nat.not_lt_of_le cc)])) sound)
  rw [condHolds_eq_compares cc]

theorem caneResult_vMov (plain : c.b = 0#10)
    (sound : caneBad c 0 false false false false (c.d.toNat, caneW c) [(c.a.toNat, caneW c)] = false) :
    CaneResult s (.caneVMov c) [(c.a.toNat, caneW c)] c.d.toNat (caneW c) (fun v => fld v c.a.toNat (caneW c)) :=
  caneResult_of_value s c ((exec_caneVMov c s).trans (by rw [execCaneVMov, decide_eq_false (not_not_intro plain)])) sound

theorem caneResult_vLi (plain : c.a = 0#10) (sound : caneBad c 2 false false false false (c.d.toNat, caneW c) [] = false) :
    CaneResult s (.caneVLi c) [] c.d.toNat (caneW c) (fun _ => caneImm c) :=
  caneResult_of_value s c ((exec_caneVLi c s).trans (by rw [execCaneVLi, decide_eq_false (not_not_intro plain)])) sound

end commands

/-- The operands and results of the claim are the machine's. -/
theorem caneValues {c : CaneCmd} {w imm : Nat} {num : Nat → Nat → Nat → Int} {bits : Nat → Nat → Nat} {B : Nat → Int} {take : Int → Nat}
    (hw : w = c.wm1.toNat + 1)
    (hnum : num = fun v r n => if c.s then (BitVec.ofNat n (v / 2 ^ r)).toInt else ((v / 2 ^ r % 2 ^ n : Nat) : Int))
    (hbits : bits = fun v r => v / 2 ^ r % 2 ^ w) (himm : imm = (c.b.signExtend 64).toNat % 2 ^ w)
    (hB : B = fun v => if c.i then num imm 0 w else num v c.b.toNat w)
    (htake : take = fun (x : Int) => if c.sat = false then (x % (2 : Int) ^ w).toNat
      else if c.s then (max (-(2 : Int) ^ (w - 1)) (min ((2 : Int) ^ (w - 1) - 1) x) % (2 : Int) ^ w).toNat
      else (max 0 (min ((2 : Int) ^ w - 1) x)).toNat) :
    w = caneW c ∧ (∀ v r n, num v r (n + 1) = colNum c.s v r (n + 1)) ∧ (∀ v r, bits v r = fld v r (caneW c)) ∧ imm = caneImm c ∧ B = caneB c ∧
      take = caneTake c := by
  have hnum' (v r n : Nat) : num v r (n + 1) = colNum c.s v r (n + 1) := by rw [hnum, colNum_eq]
  refine ⟨hw, hnum', fun v r => ?_, himm.trans (hw ▸ (caneImm_eq c).symm), ?_, ?_⟩
  · rw [hbits, hw, fld_eq_div_mod, caneW]
  · funext v
    rw [hB, hw, caneB_eq, caneW, ← hnum', ← hnum', caneImm_eq, himm, hw, caneW]
  · funext x
    rw [htake, hw, caneTake_eq, caneW]

end Sys2Proof.Proofs
end

section
/-! PROOF. Sums of bfp blocks (07_numbers.md R205, R206, 13_tower_network.md R367). -/

namespace Sys2Proof.Proofs
open Sys2Proof Sys2Proof.Machine Sys2Proof.Laws

/-! Rounding to nearest even (R205). -/

/-- The natural number nearest to a / 2^n, the even one of two as near. -/
def roundHalf (a n : Nat) : Nat :=
  a / 2 ^ n + if (n ≠ 0 ∧ 2 ^ (n - 1) < a % 2 ^ n) ∨ (n ≠ 0 ∧ a % 2 ^ n = 2 ^ (n - 1) ∧ a / 2 ^ n % 2 = 1) then 1 else 0

theorem shiftRne_eq (x : Int) (n : Nat) : shiftRne x n = if x < 0 then -(roundHalf x.natAbs n : Int) else (roundHalf x.natAbs n : Int) := by
  simp only [shiftRne, roundHalf, Nat.shiftRight_eq_div_pow, Bool.and_eq_true, Bool.or_eq_true, decide_eq_true_eq, and_or_left]

theorem roundHalf_le (a n : Nat) : roundHalf a n ≤ a := by
  rcases n with _ | n
  · simp [roundHalf]
  · have parts := Nat.div_add_mod a (2 ^ (n + 1))
    have half : 2 ^ (n + 1) = 2 * 2 ^ n := Nat.pow_succ'
    have pos : 0 < 2 ^ n := Nat.two_pow_pos n
    have twice : 2 * (a / 2 ^ (n + 1)) ≤ 2 ^ (n + 1) * (a / 2 ^ (n + 1)) := Nat.mul_le_mul_right _ (by omega)
    rw [roundHalf, Nat.add_sub_cancel]
    split <;> omega

theorem roundHalf_nearest (a n : Nat) : NearestEven a n (roundHalf a n) := by
  rcases n with _ | n
  · simp [NearestEven, roundHalf]
  · have parts : ((2 : Int) ^ (n + 1)) * (a / 2 ^ (n + 1) : Nat) + (a % 2 ^ (n + 1) : Nat) = a := by
      exact_mod_cast Nat.div_add_mod a (2 ^ (n + 1))
    have half : (2 : Int) ^ (n + 1) = 2 * (2 ^ n : Nat) := by push_cast; exact pow_succ' 2 n
    have inside := Nat.mod_lt a (Nat.two_pow_pos (n + 1))
    have half' : 2 ^ (n + 1) = 2 * 2 ^ n := Nat.pow_succ'
    rw [NearestEven, roundHalf, Nat.add_sub_cancel]
    generalize a / 2 ^ (n + 1) = i at *
    generalize a % 2 ^ (n + 1) = r at *
    generalize 2 ^ n = h at *
    rw [half] at parts ⊢
    split
    case isTrue up =>
      have gap : ((i + 1 : Nat) : Int) * (2 * (h : Int)) - a = 2 * h - r := by push_cast; linarith
      rw [gap, abs_of_nonneg (by omega)]
      constructor <;> omega
    case isFalse down =>
      have gap : ((i + 0 : Nat) : Int) * (2 * (h : Int)) - a = -r := by push_cast; linarith
      rw [gap, abs_neg, Nat.abs_cast]
      constructor <;> omega

theorem shiftRne_nearest (x : Int) (n : Nat) : NearestEven x n (shiftRne x n) := by
  have near := roundHalf_nearest x.natAbs n
  rw [shiftRne_eq]
  split
  case isTrue neg =>
    have gap : |-(roundHalf x.natAbs n : Int) * 2 ^ n - x| = |(roundHalf x.natAbs n : Int) * 2 ^ n - x.natAbs| := by
      rw [← abs_neg]
      congr 1
      rw [Int.ofNat_natAbs_of_nonpos neg.le]
      ring
    rw [NearestEven, gap]
    exact ⟨near.1, fun tie => (by have := near.2 tie; omega)⟩
  case isFalse pos => rwa [Int.natAbs_of_nonneg (Int.not_lt.1 pos)] at near

theorem shiftRne_within {x : Int} (n : Nat) (fits : -(2 ^ 23) ≤ x ∧ x ≤ 2 ^ 23 - 1) : -(2 ^ 23) ≤ shiftRne x n ∧ shiftRne x n ≤ 2 ^ 23 - 1 := by
  have less := roundHalf_le x.natAbs n
  rw [shiftRne_eq]
  split <;> omega

/-! The sum of two blocks (R205). -/

/-- A mantissa aligned to the exponent `e`. -/
def alignedElem (e : Nat) (x : Bfp) (i : Nat) : Int := shiftRne (elemOf x i) (e - x.e)

/-- The sums of aligned mantissas, before they are brought into range. -/
def blockSums (a b : Bfp) : List Int :=
  ((a.m.map (fun m => shiftRne m (max a.e b.e - a.e))).zip (b.m.map (fun m => shiftRne m (max a.e b.e - b.e)))).map (fun p => p.1 + p.2)

theorem bfpAdd_eq (a b : Bfp) : bfpAdd a b = bfpNorm (max a.e b.e) (blockSums a b) := rfl

theorem getD_map_of_lt {α β : Type} {l : List α} {i : Nat} (below : i < l.length) (f : α → β) (x : α) (y : β) :
    (l.map f).getD i y = f (l.getD i x) := by
  simp [List.getD_eq_getElem?_getD, below]

section sum
variable {a b : Bfp} (ha : a.m.length = 32) (hb : b.m.length = 32)
include ha hb

theorem length_blockSums : (blockSums a b).length = 32 := by
  simp [blockSums, ha, hb]

theorem getD_blockSums {i : Nat} (hi : i < 32) :
    (blockSums a b).getD i 0 = alignedElem (max a.e b.e) a i + alignedElem (max a.e b.e) b i := by
  simp [blockSums, alignedElem, elemOf, List.getD_eq_getElem?_getD, ha, hb, hi]

end sum

theorem forall_mem_iff_getD {l : List Int} {n : Nat} (len : l.length = n) (p : Int → Prop) :
    (∀ x ∈ l, p x) ↔ ∀ i < n, p (l.getD i 0) := by
  subst len
  rw [List.forall_mem_iff_getElem]
  exact forall₂_congr fun i hi => by rw [List.getD_eq_getElem l 0 hi]

/-- Every mantissa is one of 24 bits. -/
def InRange (l : List Int) : Prop := ∀ x ∈ l, -(2 ^ 23) ≤ x ∧ x ≤ 2 ^ 23 - 1

section normal
variable {e : Nat} {l : List Int}

theorem all_inRange_iff : l.all (fun x => decide (-(2 ^ 23 : Int) ≤ x ∧ x ≤ bfpMax)) = true ↔ InRange l := by
  simp only [List.all_eq_true, decide_eq_true_eq]
  rfl

theorem bfpNorm_inRange (fits : InRange l) : bfpNorm e l = (⟨e, l⟩, false) := if_pos (all_inRange_iff.2 fits)

theorem bfpNorm_halves (outside : ¬ InRange l) (below : e ≠ 255) : bfpNorm e l = (⟨e + 1, l.map (fun x => shiftRne x 1)⟩, false) := by
  rw [bfpNorm, if_neg (mt all_inRange_iff.1 outside), if_neg below]

theorem bfpNorm_saturates (outside : ¬ InRange l) : bfpNorm 255 l =
    (⟨255, l.map (fun x => if bfpMax < x then bfpMax else if x < -(2 ^ 23 : Int) then -bfpMax else x)⟩, true) := by
  rw [bfpNorm, if_neg (mt all_inRange_iff.1 outside), if_pos rfl]

end normal

theorem blockSum_bfpAdd {a b : Bfp} (ha : a.m.length = 32) (hb : b.m.length = 32) :
    BlockSum a b (bfpAdd a b).1 (bfpAdd a b).2 := by
  have len := length_blockSums ha hb
  have inRange : InRange (blockSums a b) ↔ _ := forall_mem_iff_getD len _
  refine ⟨alignedElem (max a.e b.e) a, alignedElem (max a.e b.e) b,
    fun i _ => ⟨shiftRne_nearest _ _, shiftRne_nearest _ _⟩, fun fits => ?_, fun outside => ?_⟩
  · have fits : InRange (blockSums a b) := inRange.2 fun i hi => by
      rw [getD_blockSums ha hb hi]
      have := fits i hi
      omega
    rw [bfpAdd_eq, bfpNorm_inRange fits]
    exact ⟨rfl, rfl, fun i hi => getD_blockSums ha hb hi⟩
  · have outside : ¬ InRange (blockSums a b) := fun fits => by
      obtain ⟨i, hi, outside⟩ := outside
      have := inRange.1 fits i hi
      rw [getD_blockSums ha hb hi] at this
      omega
    refine ⟨fun below => ?_, fun top => ?_⟩
    · rw [bfpAdd_eq, bfpNorm_halves outside below.ne]
      refine ⟨rfl, rfl, fun i hi => ?_⟩
      rw [elemOf, getD_map_of_lt (len ▸ hi) _ 0, getD_blockSums ha hb hi]
      exact shiftRne_nearest _ _
    · rw [bfpAdd_eq, top, bfpNorm_saturates outside]
      refine ⟨rfl, rfl, fun i hi => ?_⟩
      rw [elemOf, getD_map_of_lt (len ▸ hi) _ 0, getD_blockSums ha hb hi, top, bfpMax]
      split_ifs <;> omega

/-! Blocks that fit their cane rows (R203, R206). -/

/-- A block of 32 mantissas of 24 bits and an exponent of 8. -/
def Fits (x : Bfp) : Prop := x.e < 256 ∧ x.m.length = 32 ∧ InRange x.m

theorem fits_bfpAdd {a b : Bfp} (ha : Fits a) (hb : Fits b) : Fits (bfpAdd a b).1 := by
  obtain ⟨hea, hma, ra⟩ := ha
  obtain ⟨heb, hmb, rb⟩ := hb
  have len := length_blockSums hma hmb
  have wide : ∀ x ∈ blockSums a b, -(2 ^ 24) ≤ x ∧ x ≤ 2 ^ 24 - 2 := by
    refine (forall_mem_iff_getD len _).2 fun i hi => ?_
    have hi_a := shiftRne_within (max a.e b.e - a.e) ((forall_mem_iff_getD hma _).1 ra i hi)
    have hi_b := shiftRne_within (max a.e b.e - b.e) ((forall_mem_iff_getD hmb _).1 rb i hi)
    rw [getD_blockSums hma hmb hi, alignedElem, alignedElem, elemOf, elemOf]
    omega
  by_cases fits : InRange (blockSums a b)
  · rw [bfpAdd_eq, bfpNorm_inRange fits]
    exact ⟨max_lt hea heb, len, fits⟩
  by_cases top : max a.e b.e = 255
  · rw [bfpAdd_eq, top, bfpNorm_saturates fits]
    refine ⟨show 255 < 256 by decide, (List.length_map _).trans len, List.forall_mem_map.2 fun x hx => ?_⟩
    rw [bfpMax]
    split_ifs <;> omega
  · rw [bfpAdd_eq, bfpNorm_halves fits top]
    refine ⟨?_, (List.length_map _).trans len, List.forall_mem_map.2 fun x hx => ?_⟩
    · have := max_lt hea heb
      dsimp only
      omega
    · have near := (shiftRne_nearest x 1).1
      have bounds := abs_le.1 (show |shiftRne x 1 * 2 ^ 1 - x| ≤ 1 by omega)
      have := wide x hx
      omega

theorem toS_inRange (x : Nat) : -(2 ^ 23) ≤ toS 24 x ∧ toS 24 x ≤ 2 ^ 23 - 1 := by
  have low := BitVec.le_two_mul_toInt (x := BitVec.ofNat (23 + 1) x)
  have high := BitVec.two_mul_toInt_lt (x := BitVec.ofNat (23 + 1) x)
  rw [toS_eq_toInt 23]
  omega

theorem fits_getBlock (s : State) {canes : List Nat} (len : canes.length = 32) (row : Nat) : Fits (getBlock s canes row) :=
  ⟨fld_lt _ _ _, (List.length_map _).trans len, List.forall_mem_map.2 fun _ _ => toS_inRange _⟩

theorem le_one_lt (b : List Byte) (o : Nat) : le b o 1 < 256 := by
  rw [le]
  cases b.drop o with
  | nil => decide
  | cons x r => exact x.isLt

theorem fits_bfpOfBytes (b : List Byte) : Fits (bfpOfBytes b) :=
  ⟨le_one_lt b 96, by rw [bfpOfBytes, List.length_map, List.length_range], List.forall_mem_map.2 fun _ _ => toS_inRange _⟩

/-! A block in its canes (R206, R360). -/

theorem testBit_fld (x lo len i : Nat) : (fld x lo len).testBit i = (decide (i < len) && x.testBit (lo + i)) := by
  rw [fld, Nat.testBit_mod_two_pow, Nat.testBit_shiftRight]

theorem fld_setFld {x lo len v k w : Nat} (inside : k + w ≤ len) : fld (setFld x lo len v) (lo + k) w = fld v k w := by
  refine Nat.eq_of_testBit_eq fun i => ?_
  rw [testBit_fld, testBit_fld]
  by_cases below : i < w
  · rw [testBit_setFld, if_pos (by omega), show lo + k + i - lo = k + i by omega]
  · rw [decide_eq_false below, Bool.false_and, Bool.false_and]

/-- The canes once each of these has taken its value in rows `row` to `row + 31`. -/
def writeValues (row : Nat) (l : List (Nat × Nat)) (cs : FMap (BitVec 1024)) : FMap (BitVec 1024) :=
  l.foldl (fun cs p => fput 0#1024 p.1 (BitVec.ofNat 1024 (setFld (fget 0#1024 p.1 cs).toNat row 32 p.2)) cs) cs

theorem fget_writeValues_other {row k : Nat} {l : List (Nat × Nat)} (other : k ∉ l.map Prod.fst) (cs : FMap (BitVec 1024)) :
    fget 0#1024 k (writeValues row l cs) = fget 0#1024 k cs := by
  induction l generalizing cs with
  | nil => rfl
  | cons p l ih =>
    obtain ⟨own, rest⟩ := not_or.1 (mt List.mem_cons.2 other)
    exact (ih rest _).trans (fget_fput_other _ own _ _)

theorem fget_writeValues_same {row k v : Nat} {l : List (Nat × Nat)} (distinct : (l.map Prod.fst).Nodup) (mem : (k, v) ∈ l)
    (cs : FMap (BitVec 1024)) : fget 0#1024 k (writeValues row l cs) = BitVec.ofNat 1024 (setFld (fget 0#1024 k cs).toNat row 32 v) := by
  induction l generalizing cs with
  | nil => cases mem
  | cons p l ih =>
    obtain ⟨fresh, distinct_rest⟩ := List.nodup_cons.1 distinct
    rcases List.mem_cons.1 mem with rfl | later
    · exact (fget_writeValues_other fresh _).trans (fget_fput_same _ _ _ _)
    · have other : k ≠ p.1 := fun own => fresh (own ▸ List.mem_map.2 ⟨_, later, rfl⟩)
      refine (ih distinct_rest later _).trans ?_
      exact congrArg (fun x : BitVec 1024 => BitVec.ofNat 1024 (setFld x.toNat row 32 v)) (fget_fput_other _ other _ _)

/-- What a column holds of its mantissa and the block's exponent. -/
def columnValue (e : Nat) (m : Int) : Nat := wrap 24 m + e % 256 * 2 ^ 24

theorem foldl_rowPut_values (row : Nat) (v : Int → Nat) (l : List (Nat × Int)) (s : State) : l.foldl (fun s p => rowPut s p.1 row 32 (v p.2)) s =
    { s with canes := writeValues row (l.map (fun p => (p.1, v p.2))) s.canes } := by
  induction l generalizing s with
  | nil => rfl
  | cons p l ih => exact ih _

theorem putBlock_eq (s : State) (canes : List Nat) (row : Nat) (b : Bfp) :
    putBlock s canes row b = { s with canes := writeValues row (canes.zip (b.m.map (columnValue b.e))) s.canes } := by
  rw [List.zip_map_right]
  exact foldl_rowPut_values row (columnValue b.e) (canes.zip b.m) s

theorem fld_columnValue {e : Nat} (he : e < 256) {m : Int} (hm : -(2 ^ 23) ≤ m ∧ m ≤ 2 ^ 23 - 1) :
    toS 24 (fld (columnValue e m) 0 24) = m ∧ fld (columnValue e m) 24 8 = e := by
  have small := wrap_lt 24 m
  rw [fld_eq_div_mod, fld_eq_div_mod, columnValue]
  constructor
  · have whole : (wrap 24 m + e % 256 * 2 ^ 24) / 2 ^ 0 % 2 ^ 24 = wrap 24 m := by omega
    rw [whole, toS_eq_toInt 23, wrap_eq_toNat_ofInt, BitVec.ofNat_toNat, BitVec.setWidth_eq, BitVec.toInt_ofInt]
    exact Int.bmod_eq_of_le (by omega) (by omega)
  · omega

section block
variable {s : State} {canes : List Nat} {row : Nat} {b : Bfp}

theorem getBlock_congr {t : State} (some_ : canes ≠ []) (same : ∀ k ∈ canes, fget 0#1024 k t.canes = fget 0#1024 k s.canes) (row : Nat) :
    getBlock t canes row = getBlock s canes row := by
  have head := same _ (List.head_mem some_)
  rw [getBlock, getBlock, List.headD_eq_head?_getD, List.head?_eq_some_head some_, Option.getD_some, rowGet, rowGet, caneGet, caneGet, head]
  congr 1
  exact List.map_congr_left fun k hk => by rw [rowGet, rowGet, caneGet, caneGet, same k hk]

theorem fget_putBlock_other {k : Nat} (other : k ∉ canes) : fget 0#1024 k (putBlock s canes row b).canes = fget 0#1024 k s.canes := by
  rw [putBlock_eq]
  refine fget_writeValues_other (fun mem => other ?_) s.canes
  obtain ⟨p, hp, rfl⟩ := List.mem_map.1 mem
  exact (List.of_mem_zip hp).1

variable (distinct : canes.Nodup) (len : canes.length = 32) (fits : Fits b) (inside : row + 32 ≤ 1024)
include distinct len fits inside

theorem rowGet_putBlock {i : Nat} (hi : i < 32) :
    toS 24 (rowGet (putBlock s canes row b) (canes.getD i 0) row 24) = b.m.getD i 0 ∧
      rowGet (putBlock s canes row b) (canes.getD i 0) (row + 24) 8 = b.e := by
  obtain ⟨he, hm, range⟩ := fits
  have mem : (canes.getD i 0, columnValue b.e (b.m.getD i 0)) ∈ canes.zip (b.m.map (columnValue b.e)) := by
    refine List.mem_iff_getElem?.2 ⟨i, List.getElem?_zip_eq_some.2 ⟨?_, ?_⟩⟩
    · rw [List.getD_eq_getElem _ _ (len ▸ hi), List.getElem?_eq_getElem]
    · have below : i < b.m.length := hm.symm ▸ hi
      rw [List.getElem?_map, List.getD_eq_getElem _ _ below, List.getElem?_eq_getElem below, Option.map_some]
  have value : caneGet (putBlock s canes row b) (canes.getD i 0) =
      setFld (fget 0#1024 (canes.getD i 0) s.canes).toNat row 32 (columnValue b.e (b.m.getD i 0)) := by
    rw [caneGet, putBlock_eq, fget_writeValues_same (nodup_zip_fst distinct _) mem, BitVec.toNat_ofNat]
    exact Nat.mod_eq_of_lt (setFld_lt (BitVec.isLt _) inside _)
  obtain ⟨mantissa, exponent⟩ := fld_columnValue he ((forall_mem_iff_getD hm _).1 range i hi)
  rw [rowGet, rowGet, value]
  exact ⟨(congrArg (toS 24) (fld_setFld (k := 0) (by decide))).trans mantissa, (fld_setFld (by decide)).trans exponent⟩

theorem getBlock_putBlock : getBlock (putBlock s canes row b) canes row = b := by
  obtain ⟨-, hm, -⟩ := id fits
  have head : canes.headD 0 = canes.getD 0 0 := by cases canes <;> rfl
  have exponent := (rowGet_putBlock (s := s) distinct len fits inside (i := 0) (by decide)).2
  have mantissas : canes.map (fun k => toS 24 (rowGet (putBlock s canes row b) k row 24)) = b.m := by
    refine List.ext_getElem (by rw [List.length_map, len, hm]) fun i hi hi' => ?_
    have column := (rowGet_putBlock (s := s) distinct len fits inside (i := i) (hm ▸ hi')).1
    rw [List.getD_eq_getElem _ _ (len.symm ▸ hm ▸ hi'), List.getD_eq_getElem _ _ hi'] at column
    rw [List.getElem_map]
    exact column
  rw [getBlock, head, exponent, mantissas]

theorem rowGet_putBlock_exponent {k : Nat} (hk : k ∈ canes) : rowGet (putBlock s canes row b) k (row + 24) 8 = b.e := by
  obtain ⟨i, hi, rfl⟩ := List.mem_iff_getElem.1 hk
  rw [← List.getD_eq_getElem canes 0 hi]
  exact (rowGet_putBlock distinct len fits inside (len ▸ hi)).2

end block

/-! The blocks of one command (R367). -/

/-- The columns of a block. -/
def blockCols (k : Nat) : List Nat := (List.range 32).map (fun j => k + j)

theorem mem_blockCols {k x : Nat} : x ∈ blockCols k ↔ k ≤ x ∧ x < k + 32 := by
  simp only [blockCols, List.mem_map, List.mem_range]
  constructor
  · rintro ⟨j, hj, rfl⟩
    omega
  · rintro ⟨low, high⟩
    exact ⟨x - k, by omega, by omega⟩

theorem length_blockCols (k : Nat) : (blockCols k).length = 32 := by rw [blockCols, List.length_map, List.length_range]

theorem nodup_blockCols (k : Nat) : (blockCols k).Nodup := List.nodup_range.map fun _ _ same => Nat.add_left_cancel same

theorem blockCols_ne_nil (k : Nat) : blockCols k ≠ [] := List.ne_nil_of_length_pos (by rw [length_blockCols]; decide)

theorem blockCols_disjoint {j k x : Nat} (hj : j % 32 = 0) (hk : k % 32 = 0) (other : j ≠ k) (hx : x ∈ blockCols j) : x ∉ blockCols k := by
  rw [mem_blockCols] at hx ⊢
  omega

section write
variable (c : CaneCmd) (mem : List Byte)

/-- The sum of a block with its number, in register or memory form, and its overflow. -/
def blockSum (s : State) (p : Nat × (Nat × Nat)) : Bfp × Bool :=
  bfpAdd (getBlock s (blockCols p.2.1) c.a.toNat)
    (if c.i then bfpOfBytes ((mem.drop (128 * p.1)).take 128) else getBlock s (blockCols p.2.1) c.b.toNat)

theorem blockSum_congr {s t : State} {p : Nat × (Nat × Nat)} (same : ∀ k ∈ blockCols p.2.1, fget 0#1024 k t.canes = fget 0#1024 k s.canes) :
    blockSum c mem t p = blockSum c mem s p := by
  rw [blockSum, blockSum, getBlock_congr (blockCols_ne_nil _) same, getBlock_congr (blockCols_ne_nil _) same]

theorem fits_blockSum (s : State) (p : Nat × (Nat × Nat)) : Fits (blockSum c mem s p).1 := by
  refine fits_bfpAdd (fits_getBlock s (length_blockCols _) _) ?_
  split
  · exact fits_bfpOfBytes _
  · exact fits_getBlock s (length_blockCols _) _

/-- One block's sum is written. -/
def writeBlock (a : State × Bool) (p : Nat × (Nat × Nat)) : State × Bool :=
  (putBlock a.1 (blockCols p.2.1) c.d.toNat (blockSum c mem a.1 p).1, a.2 || (blockSum c mem a.1 p).2)

theorem blockSum_writeBlock (a : State × Bool) {p q : Nat × (Nat × Nat)} (hp : p.2.1 % 32 = 0) (hq : q.2.1 % 32 = 0) (other : p.2.1 ≠ q.2.1) :
    blockSum c mem (writeBlock c mem a p).1 q = blockSum c mem a.1 q :=
  blockSum_congr c mem fun _ hk => fget_putBlock_other (blockCols_disjoint hq hp other.symm hk)

theorem bfaWrite_eq (s : State) (sh : Share) : bfaWrite c s sh mem =
    .ok (((List.range (bfaBlocks sh).length).zip (bfaBlocks sh)).foldl (writeBlock c mem) (s, false)).1
      { sh with status := if (((List.range (bfaBlocks sh).length).zip (bfaBlocks sh)).foldl (writeBlock c mem) (s, false)).2
        then sh.status ||| 2#2 else sh.status } := rfl

section fold
variable {l : List (Nat × (Nat × Nat))}

theorem fget_foldl_writeBlock_other {x : Nat} (outside : ∀ p ∈ l, x ∉ blockCols p.2.1) (a : State × Bool) :
    fget 0#1024 x (l.foldl (writeBlock c mem) a).1.canes = fget 0#1024 x a.1.canes := by
  induction l generalizing a with
  | nil => rfl
  | cons p l ih =>
    obtain ⟨own, rest⟩ := List.forall_mem_cons.1 outside
    exact (ih rest _).trans (fget_putBlock_other own)

variable (bases : ∀ p ∈ l, p.2.1 % 32 = 0) (distinct : l.Pairwise (fun p q => p.2.1 ≠ q.2.1))
include bases distinct

theorem foldl_writeBlock_overflow (a : State × Bool) :
    (l.foldl (writeBlock c mem) a).2 = (a.2 || l.any (fun p => (blockSum c mem a.1 p).2)) := by
  induction l generalizing a with
  | nil => exact (Bool.or_false _).symm
  | cons p l ih =>
    obtain ⟨base, bases⟩ := List.forall_mem_cons.1 bases
    obtain ⟨other, distinct⟩ := List.pairwise_cons.1 distinct
    have kept : l.any (fun q => (blockSum c mem (writeBlock c mem a p).1 q).2) = l.any (fun q => (blockSum c mem a.1 q).2) := by
      refine Bool.eq_iff_iff.2 ?_
      rw [List.any_eq_true, List.any_eq_true]
      exact exists_congr fun q => and_congr_right fun hq => by rw [blockSum_writeBlock c mem a base (bases q hq) (other q hq)]
    rw [List.foldl_cons, ih bases distinct, List.any_cons, ← Bool.or_assoc, kept]
    rfl

theorem foldl_writeBlock_sum (inside : c.d.toNat + 32 ≤ 1024) (a : State × Bool) {p : Nat × (Nat × Nat)} (hp : p ∈ l) :
    getBlock (l.foldl (writeBlock c mem) a).1 (blockCols p.2.1) c.d.toNat = (blockSum c mem a.1 p).1 ∧
      ∀ x ∈ blockCols p.2.1, rowGet (l.foldl (writeBlock c mem) a).1 x (c.d.toNat + 24) 8 = (blockSum c mem a.1 p).1.e := by
  induction l generalizing a with
  | nil => cases hp
  | cons q l ih =>
    obtain ⟨base, bases_rest⟩ := List.forall_mem_cons.1 bases
    obtain ⟨other, distinct_rest⟩ := List.pairwise_cons.1 distinct
    rw [List.foldl_cons]
    rcases List.mem_cons.1 hp with rfl | later
    · have kept : ∀ x ∈ blockCols p.2.1, fget 0#1024 x (l.foldl (writeBlock c mem) (writeBlock c mem a p)).1.canes =
          fget 0#1024 x (writeBlock c mem a p).1.canes := fun x hx =>
        fget_foldl_writeBlock_other (l := l) c mem (fun q hq => blockCols_disjoint base (bases_rest q hq) (other q hq) hx) _
      refine ⟨(getBlock_congr (blockCols_ne_nil _) kept _).trans ?_, fun x hx => ?_⟩
      · exact getBlock_putBlock (nodup_blockCols _) (length_blockCols _) (fits_blockSum c mem a.1 p) inside
      · rw [rowGet, caneGet, kept x hx]
        exact rowGet_putBlock_exponent (nodup_blockCols _) (length_blockCols _) (fits_blockSum c mem a.1 p) inside hx
    · have sums := ih bases_rest distinct_rest (writeBlock c mem a q) later
      rw [blockSum_writeBlock c mem a base (bases_rest p later) (other p later)] at sums
      exact sums

end fold
end write

/-! The blocks that take part. -/

theorem bfaBlocks_base {sh : Share} {p : Nat × Nat} (hp : p ∈ bfaBlocks sh) : p.1 % 32 = 0 := by
  obtain ⟨q, -, hq⟩ := List.mem_filterMap.1 hp
  split at hq
  · cases hq
    exact ‹_ ∧ _›.1
  · cases hq

theorem pairwise_snd_zip {α β : Type} {r : β → β → Prop} {l : List α} {m : List β} (pairs : m.Pairwise r) :
    (l.zip m).Pairwise (fun p q => r p.2 q.2) := by
  rw [List.zip_eq_zip_take_min, ← List.pairwise_map (f := Prod.snd) (R := r), List.map_snd_zip (by simp)]
  exact pairs.sublist (List.take_sublist _ _)

theorem bfaBlocks_distinct {sh : Share} (distinct : sh.canes.Nodup) : (bfaBlocks sh).Pairwise (fun p q => p.1 ≠ q.1) := by
  have columns : (sh.canes.zip sh.active).Pairwise (fun p q => p.1 ≠ q.1) := List.pairwise_map.1 (nodup_zip_fst distinct sh.active)
  refine List.pairwise_filterMap.2 ((pairwise_snd_zip columns).imp fun {p q} other b hb b' hb' => ?_)
  split at hb <;> split at hb'
  · cases hb
    cases hb'
    exact other
  all_goals cases hb'
  all_goals cases hb

/-- The blocks that take part, with their numbers. -/
def numbered (sh : Share) : List (Nat × (Nat × Nat)) := (List.range (bfaBlocks sh).length).zip (bfaBlocks sh)

theorem mem_numbered {sh : Share} {k : Nat} {p : Nat × Nat} (hp : (bfaBlocks sh)[k]? = some p) : (k, p) ∈ numbered sh := by
  obtain ⟨below, -⟩ := List.getElem?_eq_some_iff.1 hp
  exact List.mem_iff_getElem?.2 ⟨k, List.getElem?_zip_eq_some.2 ⟨List.getElem?_range below, hp⟩⟩

theorem mem_bfaBlocks_of_numbered {sh : Share} {p : Nat × (Nat × Nat)} (hp : p ∈ numbered sh) : p.2 ∈ bfaBlocks sh :=
  (List.of_mem_zip (a := p.1) (b := p.2) hp).2

theorem mem_bfaCanes {sh : Share} {x : Nat} : x ∈ bfaCanes sh ↔ ∃ p ∈ bfaBlocks sh, x ∈ blockCols p.1 := List.mem_flatMap

/-- What a command of block sums leaves: the sum in every block that takes part, every other cane as it was, and the status of an overflow. -/
theorem bfaWrite_sums (s : State) (c : CaneCmd) (sh : Share) (mem : List Byte) (distinct : sh.canes.Nodup) (inside : c.d.toNat + 32 ≤ 1024) :
    ∃ s1 st, bfaWrite c s sh mem = .ok s1 { sh with status := st } ∧
      (∀ k p, (bfaBlocks sh)[k]? = some p → getBlock s1 (blockCols p.1) c.d.toNat = (blockSum c mem s (k, p)).1 ∧
        ∀ x ∈ blockCols p.1, rowGet s1 x (c.d.toNat + 24) 8 = (getBlock s1 (blockCols p.1) c.d.toNat).e) ∧
      (∀ x, x ∉ bfaCanes sh → fget 0#1024 x s1.canes = fget 0#1024 x s.canes) ∧ st.getLsbD 0 = sh.status.getLsbD 0 ∧
      st.getLsbD 1 = (sh.status.getLsbD 1 || (numbered sh).any (fun p => (blockSum c mem s p).2)) := by
  have bases : ∀ p ∈ numbered sh, p.2.1 % 32 = 0 := fun p hp => bfaBlocks_base (mem_bfaBlocks_of_numbered hp)
  have distinct := pairwise_snd_zip (l := List.range (bfaBlocks sh).length) (bfaBlocks_distinct distinct)
  have overflow := foldl_writeBlock_overflow c mem bases distinct (s, false)
  refine ⟨_, _, bfaWrite_eq c mem s sh, fun k p hp => ?_, fun x outside => ?_, ?_, ?_⟩
  · obtain ⟨sum, exponent⟩ := foldl_writeBlock_sum c mem bases distinct inside (s, false) (mem_numbered hp)
    exact ⟨sum, fun x hx => (exponent x hx).trans (congrArg Bfp.e sum).symm⟩
  · exact fget_foldl_writeBlock_other c mem
      (fun p hp mem => outside (mem_bfaCanes.2 ⟨p.2, mem_bfaBlocks_of_numbered hp, mem⟩)) (s, false)
  · split
    · rw [BitVec.getLsbD_or]
      exact Bool.or_false _
    · rfl
  · rw [Bool.false_or] at overflow
    rw [← overflow, numbered]
    split
    case isTrue over_ => rw [over_, BitVec.getLsbD_or]; rfl
    case isFalse none_ => rw [eq_false_of_ne_true none_, Bool.or_false]

end Sys2Proof.Proofs
end

section
/-! PROOF. Breaches, masks and block sums of cane commands at their sequencer (13_tower_network.md R364 to R367). -/

namespace Sys2Proof.Proofs
open Sys2Proof Sys2Proof.Machine Sys2Proof.Laws
/-! Breaches of a command's fields, ranges and rows (R364, R365). -/

theorem rowsMeet_iff {mul : Bool} {d r : Nat × Nat} : rowsMeet mul d r = true ↔ (r.1 < d.1 + d.2 ∧ d.1 < r.1 + r.2) ∧ (mul = true ∨ r ≠ d) := by
  simp only [rowsMeet, Bool.and_eq_true, Bool.or_eq_true, decide_eq_true_eq, bne_iff_ne]

theorem caneBad_iff (c : CaneCmd) (im : Nat) (satOk mul cc extra : Bool) (d : Nat × Nat) (srcs : List (Nat × Nat)) :
    caneBad c im satOk mul cc extra d srcs = true ↔
      c.rsv ≠ 0#2 ∨ (im = 0 ∧ c.i = true) ∨ (im = 2 ∧ c.i = false) ∨ (c.sat = true ∧ satOk = false) ∨
      (mul = false ∧ (c.wam1 ≠ 0#6 ∨ c.wbm1 ≠ 0#6)) ∨ (cc = false ∧ c.cc ≠ 0#3) ∨ extra = true ∨ (∃ r ∈ d :: srcs, 1024 < r.1 + r.2) ∨
      (∃ r ∈ srcs, (r.1 < d.1 + d.2 ∧ d.1 < r.1 + r.2) ∧ (mul = true ∨ r ≠ d)) := by
  simp only [caneBad, Bool.or_eq_true, Bool.and_eq_true, Bool.not_eq_true', decide_eq_true_eq, List.any_eq_true, rowsMeet_iff, rowsBad,
    List.exists_mem_cons_iff, or_assoc]

theorem stackBad_iff (c : CaneCmd) (ccOk aOk : Bool) : stackBad c ccOk aOk = true ↔
    c.rsv ≠ 0#2 ∨ c.i = true ∨ c.sat = true ∨ c.wam1 ≠ 0#6 ∨ c.wbm1 ≠ 0#6 ∨ c.s = true ∨ c.wm1 ≠ 0#6 ∨ c.d ≠ 0#10 ∨ c.b ≠ 0#10 ∨
      (aOk = false ∧ c.a ≠ 0#10) ∨ (if ccOk then 2 ≤ c.cc.toNat else c.cc ≠ 0#3) := by
  have code : c.cc.toNat / (if ccOk then 2 else 1) ≠ 0 ↔ if ccOk then 2 ≤ c.cc.toNat else c.cc ≠ 0#3 := by
    cases ccOk with
    | true => simp only [if_true]; omega
    | false => simp only [Bool.false_eq_true, if_false, Nat.div_one, ne_eq, BitVec.toNat_eq, BitVec.toNat_ofNat, Nat.zero_mod]
  simp only [stackBad, caneBad_iff, Bool.or_eq_true, Bool.and_eq_true, Bool.not_eq_true', decide_eq_true_eq, code]
  simp [or_assoc]

/-- Every command whose fields, ranges or rows `b` finds in breach stops its share (R365, R370). -/
def BreachOf (s : State) (i : Instr) (b : Bool) : Prop := ∃ cols srcs d run, exec i s = runCane s b cols srcs d run

theorem fld_count {b : BitVec 10} : decide (fld b.toNat 6 4 ≠ 0) = decide (64 ≤ b.toNat) := by
  have := b.isLt
  rw [fld_eq_div_mod]
  exact decide_eq_decide.2 (by omega)

theorem fld_address {b : BitVec 10} : decide (fld b.toNat 2 8 ≠ 0) = decide (4 ≤ b.toNat) := by
  have := b.isLt
  rw [fld_eq_div_mod]
  exact decide_eq_decide.2 (by omega)

section shapes
variable {s : State} {c : CaneCmd} {i : Instr}

theorem breachOf_value {im : Nat} {satOk mul cc extra : Bool} {d : Nat × Nat} {srcs : List (Nat × Nat)} {f : Nat → Nat}
    (run : exec i s = runValue c im satOk mul cc extra d srcs f s) : BreachOf s i (caneBad c im satOk mul cc extra d srcs) :=
  ⟨_, _, _, _, run.trans (by rw [runValue])⟩

theorem breachOf_AB {satOk : Bool} {f : Int → Int → Int} (run : exec i s = caneAB c satOk f s) :
    BreachOf s i (caneBad c 1 satOk false false false (c.d.toNat, caneW c) (caneSrcs c)) := breachOf_value run

theorem breachOf_bits {f : Nat → Nat → Nat} (run : exec i s = caneBits c f s) :
    BreachOf s i (caneBad c 1 false false false false (c.d.toNat, caneW c) (caneSrcs c)) := breachOf_value run

theorem breachOf_mul {acc : Bool} (run : exec i s = caneMul c acc s) :
    BreachOf s i (caneBad c 0 true true false false (c.d.toNat, caneW c) [(c.a.toNat, c.wam1.toNat + 1), (c.b.toNat, c.wbm1.toNat + 1)]) :=
  ⟨_, _, _, _, run.trans (by rw [caneMul])⟩

theorem breachOf_shift {f : Nat → Nat → Nat} (run : exec i s = caneShift c f s) :
    BreachOf s i (caneBad c 2 false false false (decide (64 ≤ c.b.toNat)) (c.d.toNat, caneW c) [(c.a.toNat, caneW c)]) :=
  fld_count ▸ breachOf_value run

theorem breachOf_stack {ccOk aOk : Bool} {reads : List (Nat × Nat)} {bad : Nat → Bool} {f : Nat → Bool × List Bool → Bool × List Bool}
    (run : exec i s = caneStack c ccOk aOk reads bad f s) : BreachOf s i (stackBad c ccOk aOk) := ⟨_, _, _, _, run.trans (by rw [caneStack])⟩

end shapes

theorem breachOf_commands (s : State) (c : CaneCmd) {w : Nat} {d : Nat × Nat} {ab aw mul : List (Nat × Nat)} (hw : w = c.wm1.toNat + 1)
    (hd : d = (c.d.toNat, w)) (hab : ab = caneSrcs c) (haw : aw = [(c.a.toNat, w)])
    (hmul : mul = [(c.a.toNat, c.wam1.toNat + 1), (c.b.toNat, c.wbm1.toNat + 1)]) :
    ∀ p ∈ [(Instr.caneVAdd c, caneBad c 1 true false false false d ab), (.caneVSub c, caneBad c 1 true false false false d ab),
      (.caneVMin c, caneBad c 1 false false false false d ab), (.caneVMax c, caneBad c 1 false false false false d ab),
      (.caneVAnd c, caneBad c 1 false false false false d ab), (.caneVOr c, caneBad c 1 false false false false d ab),
      (.caneVXor c, caneBad c 1 false false false false d ab), (.caneVAndn c, caneBad c 1 false false false false d ab),
      (.caneVMul c, caneBad c 0 true true false false d mul), (.caneVMad c, caneBad c 0 true true false false d mul),
      (.caneVShl c, caneBad c 2 false false false (decide (64 ≤ c.b.toNat)) d aw),
      (.caneVShr c, caneBad c 2 false false false (decide (64 ≤ c.b.toNat)) d aw),
      (.caneVSar c, caneBad c 2 false false false (decide (64 ≤ c.b.toNat)) d aw),
      (.caneVCmp c, caneBad c 1 false false true (decide (5 < c.cc.toNat)) (c.d.toNat, 1) ab),
      (.caneVMov c, caneBad c 0 false false false (decide (c.b ≠ 0#10)) d aw),
      (.caneVLi c, caneBad c 2 false false false (decide (c.a ≠ 0#10)) d []),
      (.cPush c, stackBad c true true), (.cElse c, stackBad c false false), (.cPop c, stackBad c false false),
      (.cBfa c, caneBad c 1 false false false (c.s || decide (c.wm1 ≠ 31#6) || (c.i && decide (4 ≤ c.b.toNat))) (c.d.toNat, 32)
        ((c.a.toNat, 32) :: (if c.i then [] else [(c.b.toNat, 32)])))], BreachOf s p.1 p.2 := by
  subst hw hd hab haw hmul
  simp only [List.forall_mem_cons, List.not_mem_nil, false_imp_iff, implies_true, and_true]
  exact ⟨breachOf_AB (exec_caneVAdd c s), breachOf_AB (exec_caneVSub c s), breachOf_AB (exec_caneVMin c s), breachOf_AB (exec_caneVMax c s),
    breachOf_bits (exec_caneVAnd c s), breachOf_bits (exec_caneVOr c s), breachOf_bits (exec_caneVXor c s), breachOf_bits (exec_caneVAndn c s),
    breachOf_mul (exec_caneVMul c s), breachOf_mul (exec_caneVMad c s), breachOf_shift (exec_caneVShl c s), breachOf_shift (exec_caneVShr c s),
    breachOf_shift (exec_caneVSar c s), breachOf_value (exec_caneVCmp c s), breachOf_value (exec_caneVMov c s), breachOf_value (exec_caneVLi c s),
    breachOf_stack (exec_cPush c s), breachOf_stack (exec_cElse c s), breachOf_stack (exec_cPop c s),
    fld_address ▸ ⟨_, _, _, _, (exec_cBfa c s).trans (by rw [execCBfa])⟩⟩

/-! Masks (R366). -/

theorem caneErrors_noRows (s : State) (canes : List Nat) : caneErrors s canes [] (0, 0) = [] := by
  refine List.filter_eq_nil_iff.2 fun g _ => ?_
  simp [inRows]

theorem caneMend_noRows (s : State) (canes : List Nat) : caneMend s canes (0, 0) = s := by
  have kept : s.badCane.filter (fun p => !(inRows (0, 0) p.1 && decide (64 ≤ groupCols canes p.1))) = s.badCane := by
    refine List.filter_eq_self.2 fun p _ => ?_
    simp [inRows]
  rw [caneMend, kept]

section masks
variable {s : State} {c : CaneCmd} {id : Nat} {fl : Flight} {sh : Share} {ccOk aOk : Bool} {reads : List (Nat × Nat)} {bad : Nat → Bool}
variable {f : Nat → Bool × List Bool → Bool × List Bool}
variable (focus : s.focus = .tower id) (hf : getF s id = some fl) (hop : fl.op = .share sh) (sound : stackBad c ccOk aOk = false)
variable (clean : caneErrors s sh.canes reads (0, 0) = [])
include focus hf hop sound clean

theorem caneStack_masks (deep : ∀ p ∈ sh.active, bad p.2.length = false) : caneStack c ccOk aOk reads bad f s =
    .next (putF s { fl with op := .share { sh with idx := sh.idx + 1, active := (sh.canes.zip sh.active).map (fun p => f (caneGet s p.1) p.2) } }) := by
  have deep : ¬ sh.active.any (fun p => bad p.2.length) = true := by
    rw [List.any_eq_true]
    rintro ⟨p, hp, set⟩
    exact absurd set (by rw [deep p hp]; decide)
  rw [caneStack, sound, runCane_ok focus hf hop clean (if_neg deep), caneMend_noRows]

theorem caneStack_stops (breach : ∃ p ∈ sh.active, bad p.2.length = true) : caneStack c ccOk aOk reads bad f s =
    .next (stopShare s fl sh { cls := 0x15, code := 7, addr := sh.addr }) := by
  rw [caneStack, sound, runCane_stops focus hf hop clean (if_pos (List.any_eq_true.2 breach))]

end masks

theorem testBit_eq_fld (v k : Nat) : v.testBit k = decide (fld v k 1 = 1) := by
  rw [fld_eq_div_mod, Nat.testBit_eq_decide_div_mod_eq, Nat.pow_one]

/-! The sums of blocks at their sequencer (R367). -/

section sums
variable {s : State} {c : CaneCmd} {id : Nat} {fl : Flight} {sh : Share}
variable (focus : s.focus = .tower id) (hf : getF s id = some fl) (hop : fl.op = .share sh)
include focus hf hop

theorem exec_cBfa_registers {s1 : State} {sh1 : Share} (registers : c.i = false)
    (sound : caneBad c 1 false false false (c.s || decide (c.wm1 ≠ 31#6)) (c.d.toNat, 32) [(c.a.toNat, 32), (c.b.toNat, 32)] = false)
    (clean : caneErrors s (bfaCanes sh) [(c.a.toNat, 32), (c.b.toNat, 32)] (c.d.toNat, 32) = []) (write : bfaWrite c s sh [] = .ok s1 sh1) :
    exec (.cBfa c) s = .next (putF (caneMend s1 (bfaCanes sh) (c.d.toNat, 32)) { fl with op := .share { sh1 with idx := sh.idx + 1 } }) := by
  rw [exec_cBfa, execCBfa]
  simp only [registers, Bool.false_and, Bool.or_false, Bool.false_eq_true, if_false, sound]
  exact runCane_ok focus hf hop clean write

theorem exec_cBfa_memory {pas : List Nat} {s1 s2 : State} {mem : List Byte} {sh2 : Share} (memory : c.i = true)
    (sound : caneBad c 1 false false false (c.s || decide (c.wm1 ≠ 31#6) || decide (4 ≤ c.b.toNat)) (c.d.toNat, 32) [(c.a.toNat, 32)] = false)
    (clean : caneErrors s (bfaCanes sh) [(c.a.toNat, 32)] (c.d.toNat, 32) = []) (low : sh.gaddr.getD c.b.toNat 0 < 2 ^ 57)
    (pages : bfaPages s fl sh (sh.gaddr.getD c.b.toNat 0) = .ok pas) (read : towerRead s fl 0 pas = some (.inr (s1, mem)))
    (write : bfaWrite c s1 sh mem = .ok s2 sh2) :
    exec (.cBfa c) s = .next (putF (caneMend s2 (bfaCanes sh) (c.d.toNat, 32)) { fl with op := .share { sh2 with idx := sh.idx + 1 } }) := by
  have address : c.b.toNat % 4 = c.b.toNat := by
    refine Nat.mod_eq_of_lt (Nat.lt_of_not_le fun high => ?_)
    rw [(caneBad_iff ..).2 (by simp [high])] at sound
    cases sound
  rw [exec_cBfa, execCBfa, fld_address]
  simp only [memory, Bool.true_and, if_true, sound]
  refine runCane_ok focus hf hop clean ?_
  rw [bfaMemory, address]
  simp only [if_neg (Nat.not_le_of_lt low), pages, read, write]

end sums

/-- Settles O46: each command writes its value in the active columns, or stops its share for a breach; a block's sum is rounded to nearest even,
and every block of a command is summed from what the canes held before it. -/
theorem caneCommandsAndMasks : Obligations.CaneCommandsAndMasks := by
  unfold Obligations.CaneCommandsAndMasks
  refine ⟨?values, ⟨?masks, ?share, ?breach, ?stackBreach, ?sum, ?blocks⟩⟩
  case values =>
    intro s c w wa wb imm num bits B take hw hwa hwb hnum hbits himm hB htake
    obtain ⟨hw', num_eq, bits_eq, imm_eq, rfl, rfl⟩ := caneValues hw hnum hbits himm hB htake
    have numW (v r : Nat) : num v r (caneW c) = colNum c.s v r (caneW c) := num_eq v r _
    have numA (v r : Nat) : num v r (c.wam1.toNat + 1) = colNum c.s v r (c.wam1.toNat + 1) := num_eq v r _
    have numB (v r : Nat) : num v r (c.wbm1.toNat + 1) = colNum c.s v r (c.wbm1.toNat + 1) := num_eq v r _
    rw [hw', hwa, hwb, imm_eq]
    simp only [numW, numA, numB, bits_eq]
    clear hw hwa hwb hnum hbits himm hB htake num_eq numW numA numB bits_eq
    refine ⟨fun sound => ⟨caneResult_AB s c (exec_caneVAdd c s) sound, caneResult_AB s c (exec_caneVSub c s) sound⟩,
      fun sound => ⟨caneResult_AB s c (exec_caneVMin c s) sound, caneResult_AB s c (exec_caneVMax c s) sound,
        caneResult_bits s c (exec_caneVAnd c s) sound, caneResult_bits s c (exec_caneVOr c s) sound, caneResult_bits s c (exec_caneVXor c s) sound, caneResult_andn s c sound⟩,
      fun sound => ⟨caneResult_vMul s c sound, caneResult_vMad s c sound⟩, fun count sound =>
      ⟨caneResult_shift s c (exec_caneVShl c s) count sound, caneResult_shift s c (exec_caneVShr c s) count sound, caneResult_vSar s c count sound⟩,
      fun cc sound => ?cmp, fun plain sound => caneResult_vMov s c plain sound, fun plain sound => caneResult_vLi s c plain sound⟩
    exact caneResult_vCmp s c cc sound
  case masks =>
    refine fun s c sh => ⟨fun sound deep clean id fl focus hf hop => ?_, fun sound deep id fl focus hf hop => ?_,
      fun sound deep id fl focus hf hop => ?_⟩
    · rw [exec_cPush, execCPush, caneStack_masks focus hf hop sound clean (fun p hp => decide_eq_false (Nat.not_le_of_lt (deep p hp)))]
      simp only [testBit_eq_fld]
      rfl
    · rw [exec_cElse, execCElse, caneStack_masks focus hf hop sound (caneErrors_noRows s _)
        (fun p hp => decide_eq_false (fun zero => deep p hp (List.length_eq_zero_iff.1 zero)))]
    · rw [exec_cPop, execCPop, caneStack_masks focus hf hop sound (caneErrors_noRows s _)
        (fun p hp => decide_eq_false (fun zero => deep p hp (List.length_eq_zero_iff.1 zero)))]
  case share =>
    intro s c id fl sh focus hf hop
    refine ⟨fun sound clean ⟨p, hp, deep⟩ => ?_, fun i hi sound ⟨p, hp, empty⟩ => ?_, fun s1 sh1 => exec_cBfa_registers focus hf hop,
      fun pas s1 mem s2 sh2 => exec_cBfa_memory focus hf hop, fun w d ab aw mul hw hd hab haw hmul p hp breach => ?_,
      runCane_breach focus hf hop⟩
    · rw [exec_cPush, execCPush, caneStack_stops focus hf hop sound clean ⟨p, hp, decide_eq_true deep⟩]
    · have shallow : ∃ p ∈ sh.active, decide (p.2.length = 0) = true := ⟨p, hp, decide_eq_true (List.length_eq_zero_iff.2 empty)⟩
      simp only [List.mem_cons, List.not_mem_nil, or_false] at hi
      obtain rfl | rfl := hi
      · rw [exec_cElse, execCElse, caneStack_stops focus hf hop sound (caneErrors_noRows s _) shallow]
      · rw [exec_cPop, execCPop, caneStack_stops focus hf hop sound (caneErrors_noRows s _) shallow]
    · obtain ⟨cols, srcs, d, run, runs⟩ := breachOf_commands s c hw hd hab haw hmul p hp
      rw [runs, breach, runCane_breach focus hf hop]
  case breach => exact caneBad_iff
  case stackBreach => exact stackBad_iff
  case sum => exact fun a b ha hb _ _ => blockSum_bfpAdd ha hb
  case blocks =>
    intro s c sh mem other distinct sound hother
    have inside : c.d.toNat + 32 ≤ 1024 := by
      refine Nat.le_of_not_lt fun beyond => ?_
      rw [(caneBad_iff ..).2 (by simp [beyond])] at sound
      cases sound
    obtain ⟨s1, st, write, sums, outside, low, high⟩ := bfaWrite_sums s c sh mem distinct inside
    subst hother
    refine ⟨s1, st, write, fun k p canes hp hcanes => ?_, outside, low, high⟩
    subst hcanes
    exact sums k p hp

end Sys2Proof.Proofs
end

section
/-! PROOF. Transfers between devices (13_tower_network.md R376, R377, 05_ordering.md R142, R145, 23_fabric_faults.md R496 to R498). -/

namespace Sys2Proof.Proofs
open Sys2Proof Sys2Proof.Machine Sys2Proof.Laws

/-! The port a transfer leaves on (R498). -/

theorem mem_readyPorts {s : State} {p : Nat} : p ∈ readyPorts s ↔ p < 8 ∧ statusOf s p = 2 := by simp [readyPorts, statusOf]

theorem readyPorts_eq_nil {s : State} : readyPorts s = [] ↔ ∀ p < 8, statusOf s p ≠ 2 := by
  simp only [List.eq_nil_iff_forall_not_mem, mem_readyPorts, not_and, ne_eq]

theorem canLeave_iff {s : State} {f : Flight} {x : Xfer} : canLeave s f x = true ↔ lostDev s f.ctx x.dev = false ∧
    (x.dev = selfDev s f.ctx ∨ ∃ p < 8, statusOf s p = 2) := by
  have up : readyPorts s ≠ [] ↔ ∃ p < 8, statusOf s p = 2 := by
    rw [ne_eq, readyPorts_eq_nil]
    push Not
    rfl
  rw [← up, canLeave, Bool.and_eq_true, Bool.or_eq_true, Bool.not_eq_true', Bool.not_eq_true', beq_iff_eq, List.isEmpty_eq_false_iff]

theorem pickPort_none {s : State} : pickPort s = none ↔ ∀ p < 8, statusOf s p ≠ 2 := by
  rw [← readyPorts_eq_nil]
  unfold pickPort
  split
  case h_1 none_ => simp [none_]
  case h_2 some_ => exact ⟨nofun, fun none_ => absurd none_ some_⟩

theorem leavePort_none {s : State} {f : Flight} {x : Xfer} :
    leavePort s f x = none ↔ x.dev = selfDev s f.ctx ∨ ∀ p < 8, statusOf s p ≠ 2 := by
  rw [leavePort, ← pickPort_none]
  split <;> simp [*]

theorem leavePort_some {s : State} {f : Flight} {x : Xfer} {p : Nat} (h : leavePort s f x = some p) : p < 8 ∧ statusOf s p = 2 := by
  rw [leavePort] at h
  split at h
  · cases h
  · have up : ∃ p < 8, statusOf s p = 2 := by
      by_contra none_
      push Not at none_
      rw [pickPort_none.2 none_] at h
      cases h
    obtain ⟨q, hq, ready⟩ := pickPort_ready up
    rw [h] at hq
    exact Option.some.inj hq ▸ ready

/-! A transfer's command sets out (R75, R142, R376, R377). -/

theorem getF_of_prefix {s t : State} (grows : s.pend <+: t.pend) {id : Nat} {f : Flight} (hf : getF s id = some f) : getF t id = some f := by
  obtain ⟨l, hl⟩ := grows
  rw [getF, ← hl, List.find?_append, ← getF, hf, Option.some_or]

theorem progressed_eq (s : State) (ctx : Nat) : ∃ cs, progressed s ctx = { s with ctxs := cs } := by
  unfold progressed
  split
  · exact ⟨_, rfl⟩
  · exact ⟨s.ctxs, rfl⟩

section release
variable {s : State} {id : Nat} {f : Flight} {x : Xfer} (hf : getF s id = some f) (fresh : x.sent = none) (turn : engineTurn s f = true)
include hf fresh turn

theorem exec_sourceRelease_send {r : RangeRead} (hop : f.op = .send x) (can : canLeave s f x = true)
    (read : readSource s f x.loc x.addr x.bytes = r) (whole : r.stop = none) : exec (.remoteSendSourceRelease id) s =
      .next (progressed (putF { engineRead s f.ctx 0 r.pas with
          outs := (engineRead s f.ctx 0 r.pas).outs ++ [.data x.dev { job := jobOf s f.ctx, src := selfDev s f.ctx, tag := id, va := x.remote, data := r.bytes, cnt := x.cnt }],
          freeCount := (engineRead s f.ctx 0 r.pas).freeCount + r.bytes.length + 1 }
        { f with cls := .none, op := .send { x with sent := some s.time, port := leavePort s f x } }) f.ctx) := by
  have ready : ¬ (x.sent.isSome = true ∨ (!engineTurn s f) = true) := by simp [fresh, turn]
  rw [exec_remoteSendSourceRelease, execRemoteSendSourceRelease]
  simp only [hf, hop, if_neg ready, can, Bool.not_true, Bool.false_eq_true, if_false, read, whole]

theorem exec_sourceRelease_lost (hop : f.op = .send x) (stuck : canLeave s f x = false) :
    exec (.remoteSendSourceRelease id) s = .next (loseXfer s f x false) := by
  have ready : ¬ (x.sent.isSome = true ∨ (!engineTurn s f) = true) := by simp [fresh, turn]
  rw [exec_remoteSendSourceRelease, execRemoteSendSourceRelease]
  simp only [hf, hop, if_neg ready, stuck, Bool.not_false, if_true]

theorem exec_sourceRelease_get (hop : f.op = .get x) : exec (.remoteSendSourceRelease id) s = .next (
    if canLeave s f x then
      putF { tickFree s with outs := s.outs ++ [.getReq x.dev { job := jobOf s f.ctx, requester := selfDev s f.ctx, va := x.remote, bytes := x.bytes, tag := f.id }] }
        { f with op := .get { x with sent := some s.time, port := leavePort s f x } }
    else loseXfer s f x true) := by
  have ready : ¬ (x.sent.isSome = true ∨ (!engineTurn s f) = true) := by simp [fresh, turn]
  rw [exec_remoteSendSourceRelease, execRemoteSendSourceRelease]
  simp only [hf, hop, sendGet, if_neg ready]
  cases canLeave s f x <;> rfl

end release

/-! A transfer that fails (R481, R497, R498). -/

theorem failXfer_send (s : State) (f : Flight) (x : Xfer) (off : Nat) (e : FInfo) : failXfer s f x false off e = netDue (dropF s f.id) f none e := rfl

theorem failXfer_global {x : Xfer} (remote : x.loc = none) (s : State) (f : Flight) (off : Nat) (e : FInfo) :
    failXfer s f x true off e = netDue (dropF s f.id) f x.cnt e := by
  simp only [failXfer, remote, if_true]

theorem failXfer_local {s : State} {x : Xfer} {tid : Nat} {t : Team} (loc : x.loc = some tid) (ht : getT s tid = some t) (f : Flight) (off : Nat)
    (e : FInfo) : failXfer s f x true off e = netDue (faultLines (putT (dropF s f.id)
      (setLines { t with inbound := t.inbound - 1 } (linesBetween x.addr x.bytes x.acked off))) tid (splitLines x.addr x.bytes off).2 off) f x.cnt e := by
  have ht : getT (dropF s f.id) tid = some t := ht
  simp only [failXfer, loc, ht, if_true]

/-! What a device receives (R145, R376, R498). -/

section receive
variable {s : State} {m : NetMsg} (foreign : jobSelf s m.job ≠ some m.src) (up : ∃ p < 8, statusOf s p = 2)
include foreign up

section data
variable {c : Context} (plain : m.err = none) (noAck : m.ack = none) (ctx : jobCtx s m.job = some c) (aligned : m.va % 8 = 0)
variable (whole : m.data.length % 8 = 0) (free : receiveFree s c.ctx m.va m.data = true) (sound : trailBad s c.ctx m.va m.data.length = none)
include plain noAck ctx aligned whole free sound

theorem exec_netReceive_written {t : State} {w : Nat} (units : receiveUnits s c.ctx 4 m.va m.data = (t, w, none)) :
    exec (.netReceive m) s = .next (launchOp t 0 c.ctx 255 .none (.received c.ctx m.cnt w)) := by
  have own : decide (jobSelf s m.job = some m.src) = false := decide_eq_false foreign
  have up : (readyPorts s).isEmpty = false := List.isEmpty_eq_false_iff.2 (readyPorts_ne_nil up)
  rw [exec_netReceive, execNetReceive]
  simp only [own, up, plain, noAck, ctx, aligned, whole, free, sound, units, ne_eq, not_true_eq_false, Bool.not_true, Bool.false_eq_true,
    false_and, and_false, or_self, if_false]

theorem exec_netReceive_refused {t : State} {w off : Nat} {e : FInfo} (units : receiveUnits s c.ctx 4 m.va m.data = (t, w, some (off, e))) :
    exec (.netReceive m) s = .next (refuseRemote t c.ctx m.src m.tag m.va off) := by
  have own : decide (jobSelf s m.job = some m.src) = false := decide_eq_false foreign
  have up : (readyPorts s).isEmpty = false := List.isEmpty_eq_false_iff.2 (readyPorts_ne_nil up)
  rw [exec_netReceive, execNetReceive]
  simp only [own, up, plain, noAck, ctx, aligned, whole, free, sound, units, ne_eq, not_true_eq_false, Bool.not_true, Bool.false_eq_true,
    false_and, and_false, or_self, if_false]

end data

theorem exec_netReceive_ack {n : Nat} {f : Flight} {x : Xfer} (ack : m.ack = some n) (hf : getF s m.tag = some f) (job : jobOf s f.ctx = m.job)
    (hop : f.op = .send x) (dev : x.dev = m.src) (sent : x.sent ≠ none) : exec (.netReceive m) s = .next (if x.bytes ≤ n then dropF s f.id
      else putF s { f with op := .send { x with acked := max x.acked (n / 8 * 8), sent := some s.time } }) := by
  have own : decide (jobSelf s m.job = some m.src) = false := decide_eq_false foreign
  have up : (readyPorts s).isEmpty = false := List.isEmpty_eq_false_iff.2 (readyPorts_ne_nil up)
  have sent : ¬ (x.dev ≠ m.src ∨ x.sent.isNone = true) := by simp [dev, sent]
  rw [exec_netReceive, execNetReceive]
  simp only [own, up, ack, ackXfer, hf, job, hop, if_neg sent, ne_eq, not_true_eq_false, Bool.not_false, Bool.false_eq_true, false_and,
    and_false, or_self, if_false]

end receive

/-- A received word's counter rises by one and no other changes (R145, R375). -/
theorem counterAdd_unarmed {s : State} {ctx k : Nat} {c : Context} (hc : getC s ctx = some c) (unarmed : c.armed = []) :
    counterOf (counterAdd s ctx k) ctx k = counterOf s ctx k + 1#64 ∧
      (∀ j, j ≠ k → counterOf (counterAdd s ctx k) ctx j = counterOf s ctx j) ∧ (counterAdd s ctx k).groups = s.groups ∧
      (counterAdd s ctx k).pend = s.pend := by
  obtain rfl := getC_ctx hc
  have set_ := counterSet_eq hc k (counterOf s c.ctx k + 1#64)
  rw [unarmed] at set_
  rw [counterAdd]
  refine ⟨(counterOf_counterSet hc k _ k).trans (if_pos rfl), fun j other => (counterOf_counterSet hc k _ j).trans (if_neg other), ?_, ?_⟩
  · rw [set_]
    rfl
  · rw [set_]
    rfl

theorem exec_counterIncrement {s : State} {id ctx k t : Nat} {f : Flight} (hf : getF s id = some f) (hop : f.op = .received ctx (some k) t)
    (past : t < s.time) : exec (.receiveCounterIncrement id) s = .next (counterAdd (dropF s id) ctx k) := by
  have hid := getF_id hf
  rw [exec_receiveCounterIncrement, execReceiveCounterIncrement]
  simp only [hf, receiveDone, hop, if_neg (Nat.not_le_of_lt past), hid]

theorem exec_getRequest {s : State} {m : GetReq} {c : Context} {r : RangeRead} (foreign : jobSelf s m.job ≠ some m.requester)
    (up : ∃ p < 8, statusOf s p = 2) (ctx : jobCtx s m.job = some c) (free : ∀ p ∈ rangeTrail s c.ctx m.va m.bytes, homeReady s p = true)
    (sound : trailBad s c.ctx m.va m.bytes = none)
    (read : readRange s c.ctx 4 (fun a => .inl (xlate s 255 c.ctx a 1 false)) m.va m.bytes = r) (whole : r.stop = none) :
    exec (.remoteGetRequest m) s = .next { engineRead s c.ctx 0 r.pas with
      outs := (engineRead s c.ctx 0 r.pas).outs ++ [.getData m.requester m.tag r.bytes none] } := by
  have own : decide (jobSelf s m.job = some m.requester) = false := decide_eq_false foreign
  have up : (readyPorts s).isEmpty = false := List.isEmpty_eq_false_iff.2 (readyPorts_ne_nil up)
  have free : (rangeTrail s c.ctx m.va m.bytes).all (homeReady s) = true := List.all_eq_true.2 free
  rw [exec_remoteGetRequest, execRemoteGetRequest]
  simp only [own, up, ctx, free, sound, read, whole, Bool.not_true, Bool.not_false, Bool.false_eq_true, false_and, and_false, or_self, if_false]

/-! The data of a get lands (R376). -/

section lands
variable {s : State} {id : Nat} {f : Flight} {x : Xfer} {data : List Byte}
variable (hf : getF s id = some f) (hop : f.op = .get x) (foreign : x.dev ≠ selfDev s f.ctx) (up : ∃ p < 8, statusOf s p = 2)
variable (within : x.acked + data.length ≤ x.bytes) (some_ : data ≠ []) (whole : data.length % 8 = 0) (sent : x.sent ≠ none)
include hf hop foreign up within some_ whole sent

theorem exec_netGetLand_lands (free : (x.loc.isSome || receiveFree s f.ctx (x.addr + x.acked) data) = true)
    (sound : (if x.loc.isSome then none else trailBad s f.ctx (x.addr + x.acked) data.length) = none) :
    exec (.netGetLand id data) s = .next (landGet s f x data false) := by
  have own : decide (x.dev = selfDev s f.ctx) = false := decide_eq_false foreign
  have up : (readyPorts s).isEmpty = false := List.isEmpty_eq_false_iff.2 (readyPorts_ne_nil up)
  have sent : x.sent.isNone = false := by simpa [Option.isSome_iff_ne_none] using sent
  have some_ : data.isEmpty = false := List.isEmpty_eq_false_iff.2 some_
  rw [exec_netGetLand, execNetGetLand]
  simp only [hf, hop, own, up, sent, some_, free, sound, whole, ne_eq, not_true_eq_false, Nat.not_lt_of_le within, Bool.not_true, Bool.false_and,
    Bool.false_eq_true, false_and, and_false, or_self, if_false]

end lands

theorem getT_wakeLocal (s : State) (tid gid : Nat) (offs : List Nat) (n : Nat) : getT (wakeLocal s tid gid offs) n = getT s n := rfl

section land
variable {s : State} {f : Flight} {x : Xfer} {data : List Byte}

/-- A team whose lines have taken bytes of a get. -/
def landed (t : Team) (x : Xfer) (data : List Byte) : Team :=
  setLines (lwr t (at_ (x.addr + x.acked) data)) (linesBetween x.addr x.bytes x.acked (x.acked + data.length))

theorem landGet_local {tid : Nat} {t : Team} {s1 : State} (loc : x.loc = some tid) (ht : getT s tid = some t) (alive : t.retired = false)
    (hs1 : s1 = wakeLocal (putT s (landed t x data)) tid 0 (data.mapIdx (fun k _ => x.addr + x.acked + k))) : landGet s f x data false =
      if x.acked + data.length < x.bytes then putF s1 { f with op := .get { x with acked := x.acked + data.length, sent := some s.time } }
      else x.cnt.elim (dropF (putT s1 { landed t x data with inbound := t.inbound - 1 }) f.id)
        (fun k => counterAdd (dropF (putT s1 { landed t x data with inbound := t.inbound - 1 }) f.id) f.ctx k) := by
  have held : getT s1 tid = some (landed t x data) := by
    rw [hs1, getT_wakeLocal]
    have tid_eq : (landed t x data).tid = tid := show t.tid = tid from getT_tid ht
    have same := getT_putT_same (t := landed t x data) (tid_eq.symm ▸ ht)
    exact tid_eq ▸ same
  simp only [landGet, loc, ht, ← landed.eq_1, ← hs1, alive, Bool.false_eq_true, if_false, held, Option.getD_some]
  split
  · rfl
  · cases x.cnt <;> rfl

theorem landGet_global {u : State} {w : Nat} (loc : x.loc = none) (units : receiveUnits s f.ctx 4 (x.addr + x.acked) data = (u, w, none)) :
    landGet s f x data false = if x.acked + data.length < x.bytes
      then putF u { f with op := .get { x with acked := x.acked + data.length, wct := max x.wct w, sent := some s.time } }
      else putF u { f with op := .received f.ctx x.cnt (max x.wct w) } := by
  simp only [landGet, loc, units, Bool.false_eq_true, if_false]

end land

/-! A destination that is lost or silent (R497, R498). -/

section unreachable
variable {s : State} {id : Nat} {f : Flight} {x : Xfer} (hf : getF s id = some f) (hop : f.op = .send x)
include hf hop

theorem exec_unreachable_lost (lost : lostDev s f.ctx x.dev = true) : exec (.destinationUnreachable id none) s = .next (loseXfer s f x false) := by
  rw [exec_destinationUnreachable, execDestinationUnreachable]
  simp only [hf, hop, lost, true_or, if_true]

theorem exec_unreachable_late {t : Nat} (foreign : x.dev ≠ selfDev s f.ctx) (sent : x.sent = some t) (late : t + 100000000 ≤ s.time) :
    exec (.destinationUnreachable id none) s = .next (loseXfer s f x false) := by
  rw [exec_destinationUnreachable, execDestinationUnreachable]
  simp only [hf, hop, sent, decide_eq_true (And.intro foreign late), or_true, if_true]

theorem exec_unreachable_early {t : Nat} (known : lostDev s f.ctx x.dev = false) (sent : x.sent = some t) (early : s.time < t + 100000000) :
    exec (.destinationUnreachable id none) s = .next s := by
  have early : ¬ (x.dev ≠ selfDev s f.ctx ∧ t + 100000000 ≤ s.time) := fun late => Nat.not_le_of_lt early late.2
  rw [exec_destinationUnreachable, execDestinationUnreachable]
  simp only [hf, hop, known, sent, decide_eq_false early, Bool.false_eq_true, or_self, if_false]

theorem exec_unreachable_failed {off : Nat} (foreign : x.dev ≠ selfDev s f.ctx) :
    exec (.destinationUnreachable id (some off)) s = .next (failXfer s f x false off (netFault 2 x.remote off 0)) := by
  rw [exec_destinationUnreachable, execDestinationUnreachable]
  simp only [hf, hop, if_neg foreign, Bool.false_eq_true, if_false]

end unreachable

/-- Settles O53: a transfer leaves by a port that carries traffic or fails at its first byte not delivered; what is received or fetched is
written, and its counter rises once the completion times have passed. -/
theorem transferEvents : Obligations.TransferEvents := by
  unfold Obligations.TransferEvents
  refine ⟨fun s f x => ⟨canLeave_iff, leavePort_none, fun p => leavePort_some⟩, ?send, ?get, ?fail, ?receive, ?ack, ?counter, ?request, ?land,
    ?unreachable⟩
  case send =>
    intro s id f x r hf hop fresh turn
    refine ⟨fun can read whole => ⟨_, exec_sourceRelease_send hf fresh turn hop can read whole, ?_⟩, exec_sourceRelease_lost hf fresh turn hop⟩
    have work := MemoryWork.engineRead s f.ctx 0 r.pas
    have beside := besideTags_engineRead s f.ctx 0 r.pas
    have mem := engineRead_mem s f.ctx 0 r.pas
    generalize engineRead s f.ctx 0 r.pas = s1 at *
    obtain ⟨cs, eq⟩ := progressed_eq _ f.ctx
    rw [eq]
    refine ⟨congrArg (· ++ _) work.outs, mem, work.teams, (congrArg State.groups beside :), ?_⟩
    obtain rfl := getF_id hf
    exact getF_putF_same (f := { f with cls := .none, op := .send { x with sent := some s.time, port := leavePort s f x } })
      (getF_of_prefix work.pend hf)
  case get =>
    intro s id f x hf hop fresh turn
    refine ⟨fun can => ?_, fun stuck => ?_⟩
    · rw [exec_sourceRelease_get hf fresh turn hop, if_pos can]
    · rw [exec_sourceRelease_get hf fresh turn hop, if_neg (Bool.eq_false_iff.1 stuck)]
  case fail =>
    exact fun s f x => ⟨failXfer_send s f x _ _, fun remote => failXfer_global remote s f _ _, fun tid t loc ht off e => failXfer_local loc ht f off e⟩
  case receive =>
    intro s t m c plain noAck foreign up ctx aligned whole free sound
    exact ⟨fun w units => exec_netReceive_written foreign up plain noAck ctx aligned whole free sound units,
      fun w off e units => exec_netReceive_refused foreign up plain noAck ctx aligned whole free sound units⟩
  case ack =>
    intro s m n f x ack foreign up hf job hop dev sent
    have acks := exec_netReceive_ack foreign up ack hf job hop dev sent
    exact ⟨fun all_ => acks.trans (by rw [if_pos all_]), fun part => acks.trans (by rw [if_neg (Nat.not_le_of_lt part)])⟩
  case counter =>
    intro s id ctx k t f c hf hop past hc unarmed
    have hc' : getC (dropF s id) ctx = some c := hc
    obtain ⟨own, others, groups, pend⟩ := counterAdd_unarmed (k := k) hc' unarmed
    refine ⟨_, exec_counterIncrement hf hop past, own, others, counterAdd_mem _ _ _, groups, ?_⟩
    rw [getF, pend]
    exact getF_dropF_same s id
  case request =>
    rintro s s1 m c r foreign up ctx free sound read whole rfl
    exact exec_getRequest foreign up ctx free sound read whole
  case land =>
    rintro s id n f x data hf hop foreign up rfl within some_ whole sent
    have lands := exec_netGetLand_lands hf hop foreign up within some_ whole sent
    refine ⟨fun tid t t1 s1 loc ht alive ht1 hs1 => ?_, fun u w loc free sound units => ?_⟩
    · have lands := lands (by simp [loc]) (by simp [loc])
      subst ht1
      rw [landGet_local loc ht alive hs1] at lands
      refine ⟨fun part => lands.trans (by rw [if_pos part]), fun all_ none_ => ?_, fun k all_ counter => ?_⟩
      · rw [lands, if_neg (Nat.not_lt_of_le all_.ge), none_]
        rfl
      · rw [lands, if_neg (Nat.not_lt_of_le all_.ge), counter]
        rfl
    · have lands := lands (by simp [free]) (by simp [loc, sound])
      rw [landGet_global loc units] at lands
      exact ⟨fun part => lands.trans (by rw [if_pos part]), fun all_ => lands.trans (by rw [if_neg (Nat.not_lt_of_le all_.ge)])⟩
  case unreachable =>
    exact fun s id f x hf hop => ⟨exec_unreachable_lost hf hop, fun t foreign sent late => exec_unreachable_late hf hop foreign sent late,
      fun t known sent early => exec_unreachable_early hf hop known sent early, fun off foreign => exec_unreachable_failed hf hop foreign⟩

end Sys2Proof.Proofs
end

section
/-! PROOF. Requests to the resident service and those that name no context (19_system.md R426, R430 to R433, R437, R440, R442, R515,
20_fault_model.md R454, 23_fabric_faults.md R499, R501, R503). -/

namespace Sys2Proof.Proofs
open Sys2Proof Sys2Proof.Machine Sys2Proof.Laws

/-! The jobs' table (R430, R432). -/

theorem getJob_job {s : State} {n : Nat} {j : Job} (hj : getJob s n = some j) : j.job = n := by
  have := List.find?_some hj
  simpa using this

theorem putJob_eq (s : State) (j : Job) : ∃ js, putJob s j = { s with jobs := js } := by
  unfold putJob
  split
  · exact ⟨_, rfl⟩
  · exact ⟨_, rfl⟩

theorem getJob_putJob_known {s : State} {j k : Job} (hj : getJob s k.job = some j) : getJob (putJob s k) k.job = some k := by
  have known : s.jobs.any (fun i => i.job == k.job) = true := by
    rw [List.any_eq_true]
    exact ⟨j, List.mem_of_find?_eq_some hj, by simpa using List.find?_some (p := fun i : Job => i.job == k.job) hj⟩
  rw [putJob, if_pos known]
  exact find_replaceFirst_same _ k (by simp) _ (congrArg Option.isSome hj)

theorem putJob_new {s : State} {k : Job} (fresh : getJob s k.job = none) : putJob s k = { s with jobs := s.jobs ++ [k] } := by
  have unknown : ¬ s.jobs.any (fun i => i.job == k.job) = true := by
    rw [List.any_eq_true]
    rintro ⟨i, hi, same⟩
    exact List.find?_eq_none.1 fresh i hi same
  rw [putJob, if_neg unknown]

theorem getJob_putJob_new {s : State} {k : Job} (fresh : getJob s k.job = none) : getJob (putJob s k) k.job = some k := by
  rw [putJob_new fresh, getJob, List.find?_append, ← getJob, fresh, Option.none_or, List.find?_singleton, if_pos (beq_self_eq_true _)]

/-! Requests in general (R431 to R433). -/

section requests
variable {s : State} {m : List Byte} {code : Nat} {body : State → List Byte → State}
variable (up : statusOf s 129 = 2) (sound : msgBad m = false) (hcode : mCode m = code)
include up sound hcode

theorem request_unknown (unknown : getJob s (mJob m) = none) : request s m code body = reply s m 2 [] := by
  simp only [request, serviceUp, up, sound, hcode, unknown, beq_self_eq_true, bne_self_eq_false, Bool.not_true, Bool.or_self, Bool.false_eq_true,
    if_false]

theorem request_taken {j : Job} (hj : getJob s (mJob m) = some j) : request s m code body = if Machine.signed m j.key = true ∧ j.seq < mSeq m
    then (if mustWait (putJob s { j with seq := mSeq m }) (putJob s { j with seq := mSeq m }).queued m = true
      then { putJob s { j with seq := mSeq m } with queued := (putJob s { j with seq := mSeq m }).queued ++ [m] }
      else body (putJob s { j with seq := mSeq m }) m) else reply s m 2 [] := by
  have refused : (!Machine.signed m j.key || decide (mSeq m ≤ j.seq)) = !decide (Machine.signed m j.key = true ∧ j.seq < mSeq m) := by
    have old : decide (mSeq m ≤ j.seq) = !decide (j.seq < mSeq m) := by
      rw [← decide_not]
      exact decide_eq_decide.2 Nat.not_lt.symm
    rw [old, Bool.decide_and, Bool.decide_eq_true, Bool.not_and]
  simp only [request, serviceUp, up, sound, hcode, hj, beq_self_eq_true, bne_self_eq_false, Bool.not_true, Bool.or_self, Bool.false_eq_true,
    if_false, refused, Bool.not_eq_true', decide_eq_false_iff_not, ite_not, orQueue]

theorem request_performed {j : Job} (hj : getJob s (mJob m) = some j) (fresh : j.seq < mSeq m)
    (free : mustWait (putJob s { j with seq := mSeq m }) (putJob s { j with seq := mSeq m }).queued m = false) :
    request s m code body = if Machine.signed m j.key = true then body (putJob s { j with seq := mSeq m }) m else reply s m 2 [] := by
  simp only [request_taken up sound hcode hj, fresh, and_true, free, Bool.false_eq_true, if_false]

end requests

theorem mustWait_of_wait {s : State} {before : List (List Byte)} {m : List Byte}
    (taken : ∃ w ∈ s.waits, w.job = mJob m ∨ (mCtx m ≠ 0 ∧ w.ctx = mCtx m)) : mustWait s before m = true := by
  have held : s.waits.any (fun w => w.job == mJob m || (mCtx m != 0 && w.ctx == mCtx m)) = true := by
    rw [List.any_eq_true]
    obtain ⟨w, hw, same⟩ := taken
    exact ⟨w, hw, by simpa using same⟩
  simp only [mustWait, held, Bool.true_or]

/-! A job setup (R430, R432, R503). -/

/-- The job that a first setup sets. -/
def newJob (m : List Byte) : Job :=
  { job := mJob m, key := le64 (mPayload m) 8, mgmtKey := le64 (mPayload m) 72, self := le (mPayload m) 200 2, table := tableOf (mPayload m),
    ends := (List.range (le (mPayload m) 202 2)).map (fun k => (le (mPayload m) (204 + 20 * k) 2, le (mPayload m) (208 + 20 * k) 16)),
    seq := mSeq m, lost := [] }

/-- No device of a job that has lost none fails a transfer. -/
theorem failLost_none {s : State} {j : Job} (hj : getJob s j.job = some j) (none_ : j.lost = []) : failLost s j.job = s := by
  refine List.foldlRecOn s.pend _ (motive := fun t => t = s) rfl ?_
  rintro t rfl f -
  have known (dev : Nat) (job : jobOf t f.ctx = j.job) : lostDev t f.ctx dev = false := by
    rw [getJob] at hj
    simp only [lostDev, job, hj, none_, List.contains_nil]
  split
  · exact if_neg fun ⟨job, lost⟩ => absurd lost (by rw [known _ job]; decide)
  · exact if_neg fun ⟨job, lost⟩ => absurd lost (by rw [known _ job]; decide)
  · rfl

theorem setupReq_new {s : State} {m : List Byte} (fresh : getJob s (mJob m) = none) : setupReq s m = reply (putJob s (newJob m)) m 0 [] := by
  have keeps : failLost (putJob s (newJob m)) (mJob m) = putJob s (newJob m) := failLost_none (getJob_putJob_new (k := newJob m) fresh) rfl
  simp only [setupReq, fresh, Nat.max_zero, List.append_nil, tellLost, List.foldl_nil]
  exact congrArg (fun t => reply t m 0 []) keeps

section setup
variable {s : State} {m : List Byte} (up : statusOf s 129 = 2) (sound : msgBad m = false) (hcode : mCode m = 1)
include up sound hcode

theorem exec_jobSetup_new (fresh : getJob s (mJob m) = none) {k : Nat} (operator : s.operatorKey = some k)
    (certified : Config.sm2Verify k (Config.sm3 ((mPayload m).take 136)) (le64 (mPayload m) 136) = true) (number : le (mPayload m) 0 8 = mJob m)
    (own : Machine.signed m (le64 (mPayload m) 8) = true) : exec (.jobSetup m) s = .next (reply (putJob s (newJob m)) m 0 []) := by
  rw [exec_jobSetup, execJobSetup]
  simp only [serviceUp, up, sound, hcode, operator, certified, number, own, fresh, setupReq_new fresh, beq_self_eq_true, bne_self_eq_false,
    Bool.not_true, Bool.or_self, Bool.false_eq_true, if_false]

theorem exec_jobSetup_refused (bad : (s.operatorKey.elim false fun k =>
      Config.sm2Verify k (Config.sm3 ((mPayload m).take 136)) (le64 (mPayload m) 136)) = false ∨ le (mPayload m) 0 8 ≠ mJob m ∨
      Machine.signed m (le64 (mPayload m) 8) = false) : exec (.jobSetup m) s = .next (reply s m 2 []) := by
  have refused : (!(s.operatorKey.elim false fun k => Config.sm2Verify k (Config.sm3 ((mPayload m).take 136)) (le64 (mPayload m) 136)) ||
      le (mPayload m) 0 8 != mJob m || !Machine.signed m (le64 (mPayload m) 8)) = true := by
    simpa [or_assoc] using bad
  rw [exec_jobSetup, execJobSetup]
  simp only [serviceUp, up, sound, hcode, beq_self_eq_true, bne_self_eq_false, Bool.not_true, Bool.or_self, Bool.false_eq_true, if_false]
  cases hk : s.operatorKey with
  | none =>
    rw [hk] at refused
    exact congrArg _ (if_pos refused)
  | some k =>
    rw [hk] at refused
    exact congrArg _ (if_pos refused)

end setup

/-! The requests of a job that name no context (R426, R430, R437, R440, R442, R499). -/

section putJob
variable (s : State) (j : Job)

theorem putJob_queued : (putJob s j).queued = s.queued := by obtain ⟨js, eq⟩ := putJob_eq s j; rw [eq]
theorem putJob_ctxs : (putJob s j).ctxs = s.ctxs := by obtain ⟨js, eq⟩ := putJob_eq s j; rw [eq]
theorem putJob_trees : (putJob s j).trees = s.trees := by obtain ⟨js, eq⟩ := putJob_eq s j; rw [eq]
theorem putJob_atTable : (putJob s j).atTable = s.atTable := by obtain ⟨js, eq⟩ := putJob_eq s j; rw [eq]
theorem putJob_msgs : (putJob s j).msgs = s.msgs := by obtain ⟨js, eq⟩ := putJob_eq s j; rw [eq]
theorem memoryReady_putJob : memoryReady (putJob s j) = memoryReady s := by obtain ⟨js, eq⟩ := putJob_eq s j; rw [eq]; rfl
theorem moduleBusy_putJob : moduleBusy (putJob s j) = moduleBusy s := by obtain ⟨js, eq⟩ := putJob_eq s j; rw [eq]; rfl
theorem getC_putJob (n : Nat) : getC (putJob s j) n = getC s n := by rw [getC, getC, putJob_ctxs]

end putJob

section named
variable {s : State} {m : List Byte}

theorem createCtx_creates {k wd : Nat} (aligned : le (mPayload m) 0 8 % 4096 = 0) (low : le (mPayload m) 0 8 < 2 ^ 52)
    (prio : le (mPayload m) 8 8 < 2 ^ 48) (hwd : wd = watchdogOf (le (mPayload m) 24 4)) (long : 1000 ≤ wd) (short : wd ≤ 600000000)
    (ext : le (mPayload m) 28 4 ≤ 3600000) (ready : memoryReady s = true)
    (free : (List.range 4096).find? (fun k => decide (k ≠ 0) && (getC s k).isNone) = some k) : ∃ c,
      (createCtx s m).ctxs = s.ctxs ++ [c] ∧ c.ctx = k ∧ c.job = mJob m ∧ c.root = le (mPayload m) 0 8 ∧ c.qprio = le (mPayload m) 8 8 ∧
      c.watchdog = wd * 1000 ∧ c.extTimeout = le (mPayload m) 28 4 * 1000000 ∧ c.run = .running ∧ c.queues = [] ∧ c.pairs = 0 ∧
      (createCtx s m).atTable = s.atTable ++ atEntries k := by
  subst hwd
  have bounds : ¬ (le (mPayload m) 0 8 % 4096 ≠ 0 ∨ 2 ^ 52 ≤ le (mPayload m) 0 8 ∨ 2 ^ 48 ≤ le (mPayload m) 8 8 ∨
      watchdogOf (le (mPayload m) 24 4) < 1000 ∨ 600000000 < watchdogOf (le (mPayload m) 24 4) ∨ 3600000 < le (mPayload m) 28 4) := by omega
  simp only [createCtx, if_neg bounds, ready, free, Bool.not_true, Bool.false_eq_true, if_false]
  exact ⟨_, rfl, rfl, rfl, rfl, rfl, rfl, rfl, rfl, rfl, rfl, rfl⟩

theorem treeReq_new (fresh : ∀ u ∈ s.trees, u.tree ≠ le (mPayload m) 0 4) :
    ((treeReq s m).trees = s.trees ∨ ∃ u, (treeReq s m).trees = s.trees ++ [u] ∧ u.tree = le (mPayload m) 0 4) ∧ (treeReq s m).mem = s.mem := by
  have unused : ¬ s.trees.any (fun u => u.tree == le (mPayload m) 0 4 && !u.freed) = true := by
    rw [List.any_eq_true]
    rintro ⟨u, hu, same⟩
    exact fresh u hu (beq_iff_eq.1 (Bool.and_eq_true_iff.1 same).1)
  have kept : s.trees.filter (fun u => u.tree != le (mPayload m) 0 4) = s.trees :=
    List.filter_eq_self.2 fun u hu => bne_iff_ne.2 (fresh u hu)
  simp only [treeReq, if_neg unused, kept]
  split
  · exact ⟨.inl rfl, rfl⟩
  · exact ⟨.inr ⟨_, rfl, rfl⟩, rfl⟩

theorem attestReq_reports {j : Job} (hj : getJob s (mJob m) = some j)
    (own : mCtx m = 0 ∨ ∃ c, getC s (mCtx m) = some c ∧ c.job = mJob m ∧ deadCtx c = false) : ∃ r, (attestReq s m).msgs = s.msgs ++ [r] ∧
      r.status = 0 ∧ r.payload = reportBytes s (mPayload m) (mCtx m) j.self ++
        toBytes 64 (Config.sm2Sign (Config.sm3 (reportBytes s (mPayload m) (mCtx m) j.self))) := by
  rcases own with none_ | ⟨c, hc, job, alive⟩
  · simp only [attestReq, if_pos none_, hj]
    exact ⟨_, rfl, rfl, rfl⟩
  · have good : ¬ (c.job ≠ mJob m ∨ deadCtx c = true) := by simp [job, alive]
    simp only [attestReq, hc, if_neg good, hj, ite_self]
    exact ⟨_, rfl, rfl, rfl⟩

theorem attestReq_unknown (named : mCtx m ≠ 0) (unknown : getC s (mCtx m) = none) : attestReq s m = reply s m 1 [] := by
  simp only [attestReq, if_neg named, unknown]

theorem powerReq_standby_refused (standby : le (mPayload m) 0 1 = 2) (some_ : ∃ c ∈ s.ctxs, c.ctx ≠ 0) : powerReq s m = reply s m 2 [] := by
  obtain ⟨c, hc, named⟩ := some_
  exact if_pos ⟨standby, List.any_eq_true.2 ⟨c, hc, bne_iff_ne.2 named⟩⟩

theorem powerReq_power (free : ¬ (le (mPayload m) 0 1 = 2 ∧ ∃ c ∈ s.ctxs, c.ctx ≠ 0)) : (powerReq s m).cap = le (mPayload m) 4 4 ∧
    (powerReq s m).power = if le (mPayload m) 0 1 = 0 then .active
      else if le (mPayload m) 0 1 = 1 then (if moduleBusy s then .active else .idle) else .standby := by
  have free : ¬ (le (mPayload m) 0 1 = 2 ∧ s.ctxs.any (fun c => c.ctx != 0) = true) := by
    rintro ⟨standby, named⟩
    obtain ⟨c, hc, named⟩ := List.any_eq_true.1 named
    exact free ⟨standby, c, hc, bne_iff_ne.1 named⟩
  simp only [powerReq, if_neg free]
  exact ⟨rfl, rfl⟩

end named

/-- Settles O58: a sound request of a known job, signed and in sequence, is performed or waits, and the job's own requests do what the claim
says of each. -/
theorem requestsOfJobs : Obligations.RequestsOfJobs := by
  unfold Obligations.RequestsOfJobs
  refine ⟨⟨?malformed, ?setup, ?general, fun s before m => mustWait_of_wait, ?replies⟩, ?named⟩
  case malformed =>
    intro s m up bad
    rw [exec_malformedServiceMessage, execMalformedServiceMessage, if_pos (by rw [serviceUp, up, bad]; rfl)]
  case setup =>
    rintro s m p up sound hcode rfl fresh
    by_cases good : ∃ k, s.operatorKey = some k ∧ Config.sm2Verify k (Config.sm3 ((mPayload m).take 136)) (le64 (mPayload m) 136) = true ∧
      le (mPayload m) 0 8 = mJob m ∧ Machine.signed m (le64 (mPayload m) 8) = true
    · obtain ⟨k, operator, certified, number, own⟩ := good
      refine ⟨_, exec_jobSetup_new up sound hcode fresh operator certified number own, ?_, ?_, fun _ => getJob_putJob_new (k := newJob m) fresh,
        fun bad => ?_⟩
      · exact (reply_mem _ _ _ _).trans (putJob_mem _ _)
      · obtain ⟨js, eq⟩ := putJob_eq s (newJob m)
        rw [eq]
        rfl
      · simp [operator, number, own] at bad
    · refine ⟨_, exec_jobSetup_refused up sound hcode ?_, rfl, rfl, fun h => absurd h good, fun _ => rfl⟩
      cases operator : s.operatorKey with
      | none => exact .inl rfl
      | some k =>
        by_contra sound
        simp only [Option.elim_some, not_or, Bool.not_eq_false, ne_eq, not_not] at sound
        exact good ⟨k, operator, sound⟩
  case general =>
    intro s m code body up sound hcode
    have up : statusOf s 129 = 2 := beq_iff_eq.1 up
    refine ⟨request_unknown up sound hcode, ?_⟩
    rintro j s1 hj rfl
    exact request_taken up sound hcode hj
  case replies => exact fun s m st p => ⟨_, rfl, rfl, rfl, rfl, rfl, rfl, rfl, rfl⟩
  case named =>
    rintro s s1 m p j up sound rfl hj fresh hs1 free
    have hjob := getJob_job hj
    have hctxs : s1.ctxs = s.ctxs := hs1 ▸ putJob_ctxs _ _
    have hgetC (n : Nat) : getC s1 n = getC s n := hs1 ▸ getC_putJob _ _ n
    have hgetJob : getJob s1 (mJob m) = some { j with seq := mSeq m } := by
      rw [← hjob] at hj ⊢
      rw [hs1]
      exact getJob_putJob_known (k := { j with seq := mSeq m }) hj
    have performed {code : Nat} {body : State → List Byte → State} (hcode : mCode m = code) :
        (Host.Outcome.next (request s m code body) : Host.Outcome State Fault Refusal) =
          .next (if Machine.signed m j.key = true then body s1 m else reply s m 2 []) := by
      rw [hs1] at free ⊢
      rw [request_performed up sound hcode hj fresh free]
    have foreign {t : State} (unsigned : Machine.signed m j.key = false) : (if Machine.signed m j.key = true then t else reply s m 2 []) = reply s m 2 [] :=
      if_neg (Bool.eq_false_iff.1 unsigned)
    refine ⟨?create, ?tree, ?treeFree, ?telemetry, ?attest, ?attestUnknown, ?power⟩
    case create =>
      intro k wd hcode aligned low prio hwd long short ext ready first
      refine ⟨_, performed hcode, foreign, fun own => ?_⟩
      obtain ⟨c, ctxs, ctx, job, root, qprio, watchdog, timeout, run, queues, pairs, table⟩ := createCtx_creates (s := s1) (k := k) aligned low prio hwd
        long short ext (hs1 ▸ (memoryReady_putJob _ _).trans ready) (by simpa only [hgetC] using first)
      rw [hctxs] at ctxs
      rw [hs1, putJob_atTable, ← hs1] at table
      rw [if_pos own]
      exact ⟨c, ctxs, ctx, job.trans hjob.symm, root, qprio, watchdog, timeout, run, queues, pairs, table⟩
    case tree =>
      intro hcode fresh
      refine ⟨_, performed hcode, foreign, fun own => ?_⟩
      have htrees : s1.trees = s.trees := hs1 ▸ putJob_trees _ _
      obtain ⟨trees, mem⟩ := treeReq_new (htrees.symm ▸ fresh)
      rw [htrees] at trees
      rw [if_pos own]
      exact ⟨trees, mem.trans (hs1 ▸ putJob_mem _ _)⟩
    case treeFree =>
      intro hcode
      have htrees : s1.trees = s.trees := hs1 ▸ putJob_trees _ _
      refine (performed hcode).trans (congrArg _ ?_)
      rw [treeFreeReq, htrees]
      cases Machine.signed m j.key <;> rfl
    case telemetry => exact fun hcode => performed hcode
    case attest =>
      intro hcode own
      obtain ⟨r, msgs, status, payload⟩ := attestReq_reports hgetJob (by simpa only [hgetC, hjob] using own)
      rw [hs1, putJob_msgs, ← hs1] at msgs
      cases hsigned : Machine.signed m j.key with
      | true => exact ⟨_, r, performed hcode, by rw [if_pos hsigned, msgs], nofun, fun _ => ⟨status, payload⟩⟩
      | false => exact ⟨_, _, performed hcode, by rw [foreign hsigned]; rfl, fun _ => rfl, nofun⟩
    case attestUnknown =>
      intro hcode named unknown
      exact (performed hcode).trans (by rw [attestReq_unknown named ((hgetC _).trans unknown)])
    case power =>
      intro hcode
      refine ⟨_, performed hcode, foreign, fun own => ?_⟩
      rw [if_pos own]
      refine ⟨fun ⟨standby, some_⟩ => powerReq_standby_refused standby (hctxs.symm ▸ some_), fun free => ?_⟩
      obtain ⟨cap, power⟩ := powerReq_power (hctxs.symm ▸ free)
      have busy : moduleBusy s1 = moduleBusy s := hs1 ▸ moduleBusy_putJob _ _
      rw [busy] at power
      exact ⟨cap, fun active => power.trans (by rw [active]; rfl), fun standby => power.trans (by rw [standby]; rfl),
        fun idle => power.trans (by rw [idle]; rfl)⟩

end Sys2Proof.Proofs
end

section
/-! PROOF. What a request does for a context (19_system.md R430 to R433, R435, R516, 20_fault_model.md R448, 04_memory.md R111 to R113, R126,
09_scalar_control.md R265). -/

namespace Sys2Proof.Proofs
open Sys2Proof Sys2Proof.Machine Sys2Proof.Laws

section putJob
variable (s : State) (j : Job)

theorem putJob_grids : (putJob s j).grids = s.grids := by obtain ⟨js, eq⟩ := putJob_eq s j; rw [eq]
theorem putJob_groups : (putJob s j).groups = s.groups := by obtain ⟨js, eq⟩ := putJob_eq s j; rw [eq]
theorem putJob_waits : (putJob s j).waits = s.waits := by obtain ⟨js, eq⟩ := putJob_eq s j; rw [eq]
theorem putJob_nextId : (putJob s j).nextId = s.nextId := by obtain ⟨js, eq⟩ := putJob_eq s j; rw [eq]
theorem putJob_time : (putJob s j).time = s.time := by obtain ⟨js, eq⟩ := putJob_eq s j; rw [eq]
theorem statusOf_putJob (e : Nat) : statusOf (putJob s j) e = statusOf s e := by obtain ⟨js, eq⟩ := putJob_eq s j; rw [eq]; rfl

end putJob

theorem withCtx_dead {s : State} {m : List Byte} {c : Context} (hc : getC s (mCtx m) = some c) (dead : deadCtx c = true) (other : mCode m ≠ 3)
    (body : State → Context → State) : withCtx s m body = reply s m 2 [] := by
  simp only [withCtx, hc]
  exact if_pos (.inr (.inr ⟨dead, other⟩))

theorem attestReq_dead {s : State} {m : List Byte} {c : Context} (hc : getC s (mCtx m) = some c) (named : c.ctx ≠ 0)
    (dead : deadCtx c = true) : attestReq s m = reply s m 2 [] := by
  have hctx : mCtx m ≠ 0 := getC_ctx hc ▸ named
  simp only [attestReq, if_neg hctx, hc]
  exact if_pos (.inr dead)

/-- A window that is not in error, whose ports are up, is used as it stands. -/
theorem withWindow_sound {s : State} {m : List Byte} {c : Context} {va n : Nat} {pas : List Nat}
    {body : State → List Nat → State} (ready : memoryReady s = true)
    (sound : trailBad s c.ctx va n = none) (window : windowPas s c.ctx va n = some pas)
    (ports : ∀ a ∈ pas, isCxl a = true → statusOf s (8 + dieOf a) = 2) : withWindow s m c va n body = body s pas := by
  have up : pas.all (fun p => !isCxl p || statusOf s (8 + dieOf p) == 2) = true := by
    rw [List.all_eq_true]
    intro a ha
    cases cxl : isCxl a with
    | false => rfl
    | true => simp [ports a ha cxl]
  simp only [withWindow, ready, sound, window, up, Bool.not_true, Bool.false_eq_true, if_false, if_true]

theorem withWindow_unready {s : State} {m : List Byte} {c : Context} {va n : Nat} {body : State → List Nat → State} (down : memoryReady s = false) :
    withWindow s m c va n body = reply s m 4 [] := by
  simp only [withWindow, down, Bool.not_false, if_true]

section
variable {s : State} {m : List Byte} {c : Context} (hc : getC s (mCtx m) = some c) (job : c.job = mJob m) (named : c.ctx ≠ 0)
include hc job named

theorem withCtx_taken (taken : deadCtx c = false ∨ mCode m = 3) (body : State → Context → State) : withCtx s m body = body s c := by
  have free : ¬ (c.job ≠ mJob m ∨ c.ctx = 0 ∨ (deadCtx c = true ∧ mCode m ≠ 3)) := by
    rintro (foreign | none_ | ⟨dead, other⟩)
    · exact foreign job
    · exact named none_
    · rcases taken with alive | destroy
      · simp [alive] at dead
      · exact other destroy
  simp only [withCtx, hc]
  exact if_neg free

theorem destroyReq_waits (destroy : mCode m = 3) : (destroyReq s m).waits = s.waits ++ [waitOf m] ∧ (destroyReq s m).groups = s.groups ∧
    (destroyReq s m).mem = s.mem := by
  rw [destroyReq, withCtx_taken hc job named (.inr destroy)]
  obtain ⟨cs, stopped⟩ := stopCtx_eq s c.ctx 0x100
  dsimp only
  split
  · rw [stopped]
    exact ⟨rfl, rfl, rfl⟩
  · exact ⟨rfl, rfl, rfl⟩

section
variable (alive : deadCtx c = false)
include alive

/-! Cane partitions (R111, R113). -/

theorem grantReq_taken : grantReq s m = if c.pairs ≠ 0 then reply s m 1 [] else if (freePairs s).length < le (mPayload m) 0 1 then reply s m 3 []
    else if memoryReady s = false then reply s m 4 []
    else later s { waitOf m with pairs := ((freePairs s).take (le (mPayload m) 0 1)).foldl (fun a k => a ||| 2 ^ k) 0 } := by
  rw [grantReq, withCtx_taken hc job named (.inl alive)]
  simp only [Bool.not_eq_true']

theorem returnReq_taken : returnReq s m = if c.pairs = 0 then reply s m 0 []
    else if s.grids.any (fun g => g.ctx == c.ctx && !g.done && (lrecOf g.lrec).cane) = true then reply s m 4 []
    else later s { waitOf m with pairs := c.pairs } := by
  rw [returnReq, withCtx_taken hc job named (.inl alive)]

/-! Memory windows (R516, R126). -/

theorem mapReq_misaligned (off : le (mPayload m) 0 8 % pageSize (le (mPayload m) 16 1) ≠ 0) : mapReq s m = reply s m 1 [] := by
  rw [mapReq, withCtx_taken hc job named (.inl alive)]
  exact if_pos (.inl off)

theorem mapReq_page {pa : Nat} {s2 : State} (aligned : le (mPayload m) 0 8 % pageSize (le (mPayload m) 16 1) = 0)
    (size : le (mPayload m) 8 8 = pageSize (le (mPayload m) 16 1)) (low : le (mPayload m) 0 8 + le (mPayload m) 8 8 ≤ 2 ^ 57)
    (fresh : c.maps.any (fun r => meets (le (mPayload m) 0 8, le (mPayload m) 8 8) (r.1, r.2.2)) = false) (ready : memoryReady s = true)
    (ports : le (mPayload m) 17 1 = 1 → ∀ k < 4, statusOf s (8 + k) = 2)
    (place : findFree s (le (mPayload m) 17 1 == 1) (pageSize (le (mPayload m) 16 1)) = some pa)
    (mapped : mapPage s c.ctx (le (mPayload m) 16 1) (le (mPayload m) 0 8) pa (le (mPayload m) 18 1) = some s2) : mapReq s m = reply s2 m 0 [] := by
  have page : 0 < pageSize (le (mPayload m) 16 1) := by
    unfold pageSize
    split <;> decide
  have good : ¬ (le (mPayload m) 0 8 % pageSize (le (mPayload m) 16 1) ≠ 0 ∨ le (mPayload m) 8 8 % pageSize (le (mPayload m) 16 1) ≠ 0 ∨
      2 ^ 57 < le (mPayload m) 0 8 + le (mPayload m) 8 8 ∨
      c.maps.any (fun r => meets (le (mPayload m) 0 8, le (mPayload m) 8 8) (r.1, r.2.2)) = true) := by
    rw [fresh, size, Nat.mod_self, aligned]
    rw [size] at low
    simp only [ne_eq, not_true_eq_false, Bool.false_eq_true, or_false, false_or]
    exact Nat.not_lt.2 low
  have up : ¬ (!memoryReady s || (le (mPayload m) 17 1 == 1 && !(List.range 4).all (fun k => statusOf s (8 + k) == 2))) = true := by
    rw [ready]
    simpa using ports
  rw [mapReq, withCtx_taken hc job named (.inl alive)]
  refine (if_neg good).trans ((if_neg up).trans ?_)
  rw [size, Nat.div_self page]
  simp only [List.range_one, List.foldl_cons, List.foldl_nil, Option.bind_some, place, Nat.zero_mul, Nat.add_zero, mapped]

theorem unmapReq_unmapped (none_ : c.maps = []) (some_ : le (mPayload m) 8 8 ≠ 0) : unmapReq s m = reply s m 1 [] := by
  rw [unmapReq, withCtx_taken hc job named (.inl alive)]
  simp only [none_, List.filter_nil, List.all_nil, List.foldl_nil, Bool.true_and, decide_eq_false some_.symm, Bool.not_false, if_true]

theorem unmapReq_page {pa : Nat} (map : c.maps = [(le (mPayload m) 0 8, pa, le (mPayload m) 8 8)]) (some_ : 0 < le (mPayload m) 8 8)
    (ready : memoryReady s = true) :
    (∀ e ∈ (unmapReq s m).tlb, ¬ (e.ctx = c.ctx ∧ meets (le (mPayload m) 0 8, le (mPayload m) 8 8) (e.va, e.size) = true)) ∧
      (unmapReq s m).waits = s.waits ++ [{ waitOf m with ranges := [(pa, le (mPayload m) 8 8)], mark := s.nextId }] ∧
      ∃ c', getC (unmapReq s m) c.ctx = some c' ∧ c'.maps = [] := by
  have own : getC s c.ctx = some c := getC_ctx hc ▸ hc
  have hit : meets (le (mPayload m) 0 8, le (mPayload m) 8 8) (le (mPayload m) 0 8, le (mPayload m) 8 8) = true := by
    simp only [meets, decide_eq_true_eq]
    omega
  rw [unmapReq, withCtx_taken hc job named (.inl alive)]
  simp only [map, List.filter_cons, List.filter_nil, hit, if_true, List.all_cons, List.all_nil, List.foldl_cons, List.foldl_nil, Nat.zero_add, le_refl,
    and_self, decide_true, Bool.and_self, Bool.not_true, Bool.false_eq_true, if_false, ready, List.map_cons, List.map_nil, List.contains_cons,
    beq_self_eq_true, Bool.true_or]
  refine ⟨fun e he => ?_, rfl, _, getC_putC_same (c := { c with maps := [] }) own, rfl⟩
  have kept := (List.mem_filter.1 he).2
  simpa [Decidable.imp_iff_not_or] using kept

theorem writeReq_window {pas : List Nat} (ready : memoryReady s = true)
    (sound : trailBad s c.ctx (le (mPayload m) 0 8) (le (mPayload m) 8 4) = none)
    (window : windowPas s c.ctx (le (mPayload m) 0 8) (le (mPayload m) 8 4) = some pas)
    (ports : ∀ a ∈ pas, isCxl a = true → statusOf s (8 + dieOf a) = 2) :
    writeReq s m = reply (serviceWrote (engineWrite s c.ctx 0 (pas.zip ((mPayload m).drop 12))).1 c.ctx
      (engineWrite s c.ctx 0 (pas.zip ((mPayload m).drop 12))).2) m 0 [] := by
  rw [writeReq, withCtx_taken hc job named (.inl alive), withWindow_sound ready sound window ports]

theorem readReq_window {pas : List Nat} (ready : memoryReady s = true)
    (sound : trailBad s c.ctx (le (mPayload m) 0 8) (le (mPayload m) 8 4) = none)
    (window : windowPas s c.ctx (le (mPayload m) 0 8) (le (mPayload m) 8 4) = some pas)
    (ports : ∀ a ∈ pas, isCxl a = true → statusOf s (8 + dieOf a) = 2) (clean : badAt s pas = none) :
    readReq s m = reply (engineRead s c.ctx 0 pas) m 0 (pas.map (rdByte s)) := by
  simp only [readReq, withCtx_taken hc job named (.inl alive), withWindow_sound ready sound window ports, clean]

theorem writeReq_unready (down : memoryReady s = false) : writeReq s m = reply s m 4 [] := by
  rw [writeReq, withCtx_taken hc job named (.inl alive), withWindow_unready down]

theorem readReq_unready (down : memoryReady s = false) : readReq s m = reply s m 4 [] := by
  rw [readReq, withCtx_taken hc job named (.inl alive), withWindow_unready down]

/-! Launch queues (R65). -/

theorem queueReq_full (full : 64 ≤ (fget [] (le (mPayload m) 0 1) c.queues).length) : queueReq s m = reply s m 0 [1#8] := by
  rw [queueReq, withCtx_taken hc job named (.inl alive)]
  exact if_pos full

theorem queueReq_queues (room : (fget [] (le (mPayload m) 0 1) c.queues).length < 64) : ∃ c', getC (queueReq s m) c.ctx = some c' ∧
    fget [] (le (mPayload m) 0 1) c'.queues = fget [] (le (mPayload m) 0 1) c.queues ++ [(0, (mPayload m).drop 8)] := by
  have own : getC s c.ctx = some c := getC_ctx hc ▸ hc
  rw [queueReq, withCtx_taken hc job named (.inl alive)]
  have queued := getC_putC_same (c := { c with
    queues := fput [] (le (mPayload m) 0 1) (fget [] (le (mPayload m) 0 1) c.queues ++ [(0, (mPayload m).drop 8)]) c.queues }) own
  simp only [if_neg (Nat.not_le.2 room)]
  exact ⟨_, queued, fget_fput_same _ _ _ _⟩

/-! Stopping and going on (R87, R91, R265). -/

theorem preEmptReq_taken : preEmptReq s m =
    if setAside s c.ctx then reply s m 0 [] else later (stopCtx s c.ctx 0x100) (waitOf m) := by
  rw [preEmptReq, withCtx_taken hc job named (.inl alive)]

theorem resumeReq_taken : resumeReq s m =
    if c.run = .running then reply s m 0 [] else if memoryReady s = false then reply s m 4 [] else later s (waitOf m) := by
  rw [resumeReq, withCtx_taken hc job named (.inl alive)]
  cases c.run <;> simp

theorem bkptReq_resumes {g : Group} {imm : Nat} (group : s.groups = [g])
    (parked : (slotOf g ((le (mPayload m) 0 8).testBit 1)).park = some (.bkpt imm)) (ctx : g.ctx = c.ctx)
    (core : g.core = fld (le (mPayload m) 0 8) 13 7) (part : g.part = fld (le (mPayload m) 0 8) 11 2) (num : g.num = fld (le (mPayload m) 0 8) 6 5)
    (team : g.task = false) (tidx : g.tidx = fld (le (mPayload m) 0 8) 2 4) (cluster : g.cluster = le (mPayload m) 8 8 / 2 ^ 32)
    (grid : g.grid = le (mPayload m) 8 8 % 2 ^ 32) (code : imm % 2 ^ 24 = fld (le (mPayload m) 0 8) 32 24) (high : fld (le (mPayload m) 0 8) 56 8 = 0) :
    bkptReq s m = reply (putG s (setSlot g ((le (mPayload m) 0 8).testBit 1) { slotOf g ((le (mPayload m) 0 8).testBit 1) with
      park := if 2 ^ 24 ≤ imm ∧ allQuiet s g = false then some .marker else none, waitSince := s.time, extSince := s.time })) m 0 [] := by
  have good : ¬ (imm % 2 ^ 24 ≠ fld (le (mPayload m) 0 8) 32 24 ∨ fld (le (mPayload m) 0 8) 56 8 ≠ 0) :=
    not_or.2 ⟨not_not.2 code, not_not.2 high⟩
  rw [bkptReq, withCtx_taken hc job named (.inl alive)]
  simp only [group, List.find?_singleton, ctx, core, part, num, team, tidx, cluster, grid, beq_self_eq_true, Bool.and_self, Bool.false_eq_true,
    if_true, if_false, parked, if_neg good, Bool.not_eq_true']

end
end

/-- Settles O59: each request that names a live context of its job does to it what the claim says, and a context stopped by a machine check
or the watchdog is refused everything but its destroy. -/
theorem contextRequests : Obligations.ContextRequests := by
  unfold Obligations.ContextRequests
  rintro s s1 m p j c up sound rfl hj fresh hs1 free hc hcj named
  have job : c.job = mJob m := hcj.trans (getJob_job hj)
  have hc1 : getC s1 (mCtx m) = some c := hs1 ▸ (getC_putJob _ _ _).trans hc
  have hready : memoryReady s1 = memoryReady s := hs1 ▸ memoryReady_putJob _ _
  have hstatus (e : Nat) : statusOf s1 e = statusOf s e := hs1 ▸ statusOf_putJob _ _ e
  have hgrids : s1.grids = s.grids := hs1 ▸ putJob_grids _ _
  have hgroups : s1.groups = s.groups := hs1 ▸ putJob_groups _ _
  have hwaits : s1.waits = s.waits := hs1 ▸ putJob_waits _ _
  have hnextId : s1.nextId = s.nextId := hs1 ▸ putJob_nextId _ _
  have htime : s1.time = s.time := hs1 ▸ putJob_time _ _
  have hmem : s1.mem = s.mem := hs1 ▸ putJob_mem _ _
  have performed {code : Nat} {body : State → List Byte → State} (hcode : mCode m = code) :
      (Host.Outcome.next (request s m code body) : Host.Outcome State Fault Refusal) =
        .next (if Machine.signed m j.key = true then body s1 m else reply s m 2 []) := by
    rw [hs1] at free ⊢
    rw [request_performed up sound hcode hj fresh free]
  have performed' {code : Nat} {body : State → List Byte → State} {t : State} (hcode : mCode m = code) (does : body s1 m = t) :
      (Host.Outcome.next (request s m code body) : Host.Outcome State Fault Refusal) =
        .next (if Machine.signed m j.key = true then t else reply s m 2 []) := does ▸ performed hcode
  have refusedFirst {code : Nat} {body : State → List Byte → State} {t : State} (hcode : mCode m = code) (does : body s1 m = t) :
      (Host.Outcome.next (request s m code body) : Host.Outcome State Fault Refusal) =
        .next (if Machine.signed m j.key = false then reply s m 2 [] else t) := by
    rw [performed' hcode does]
    cases Machine.signed m j.key <;> rfl
  have foreign {t : State} (unsigned : Machine.signed m j.key = false) :
      (if Machine.signed m j.key = true then t else reply s m 2 []) = reply s m 2 [] := if_neg (Bool.eq_false_iff.1 unsigned)
  refine ⟨?dead, ?destroy, fun alive => ⟨?grant, ?return_, ?misaligned, ?map, ?unmapped, ?unmap, ?unready, ?write, ?read, ?queue, ?preEmpt, ?resume,
    ?breakpoint⟩⟩
  case dead =>
    intro dead i code listed hcode
    have refuses {k : Nat} (hk : mCode m = k) (other : k ≠ 3) (body : State → Context → State) : withCtx s1 m body = reply s1 m 2 [] :=
      withCtx_dead hc1 dead (hk ▸ other) body
    simp only [List.mem_cons, Prod.mk.injEq, List.not_mem_nil, or_false] at listed
    rcases listed with ⟨rfl, rfl⟩ | ⟨rfl, rfl⟩ | ⟨rfl, rfl⟩ | ⟨rfl, rfl⟩ | ⟨rfl, rfl⟩ | ⟨rfl, rfl⟩ | ⟨rfl, rfl⟩ | ⟨rfl, rfl⟩ |
      ⟨rfl, rfl⟩ | ⟨rfl, rfl⟩ | ⟨rfl, rfl⟩
    pick_goal 10
    · exact performed' hcode (attestReq_dead hc1 named dead)
    all_goals exact performed' hcode (refuses hcode (by decide) _)
  case destroy =>
    intro hcode
    refine ⟨_, performed hcode, foreign, fun own => ?_⟩
    obtain ⟨waits, groups, mem⟩ := destroyReq_waits hc1 job named hcode
    rw [if_pos own]
    exact ⟨waits.trans (by rw [hwaits]), groups.trans hgroups, mem.trans hmem⟩
  case grant => exact fun hcode => refusedFirst hcode (grantReq_taken hc1 job named alive)
  case return_ => exact fun hcode => refusedFirst hcode (hgrids ▸ returnReq_taken hc1 job named alive)
  case misaligned => exact fun hcode off => performed' hcode (mapReq_misaligned hc1 job named alive off)
  case map =>
    intro hcode aligned size low none_ ready ports pa s2 place mapped
    exact performed' hcode (mapReq_page hc1 job named alive aligned size low none_ (hready.trans ready)
      (fun cxl k hk => (hstatus _).trans (ports cxl k hk)) place mapped)
  case unmapped => exact fun hcode none_ some_ => performed' hcode (unmapReq_unmapped hc1 job named alive none_ some_)
  case unmap =>
    rintro va pa n hcode map rfl rfl some_ ready
    refine ⟨_, performed hcode, foreign, fun own => ?_⟩
    rw [if_pos own, ← hwaits, ← hnextId]
    exact unmapReq_page hc1 job named alive map some_ (hready.trans ready)
  case unready =>
    intro down i code listed hcode
    simp only [List.mem_cons, Prod.mk.injEq, List.not_mem_nil, or_false] at listed
    rcases listed with ⟨rfl, rfl⟩ | ⟨rfl, rfl⟩
    · exact performed' hcode (writeReq_unready hc1 job named alive (hready.trans down))
    · exact performed' hcode (readReq_unready hc1 job named alive (hready.trans down))
  case write =>
    intro pas s2 w hcode ready sound window ports wrote
    have does := writeReq_window hc1 job named alive (hready.trans ready) sound window fun a ha cxl => (hstatus _).trans (ports a ha cxl)
    rw [wrote] at does
    exact performed' hcode does
  case read =>
    intro pas hcode ready sound window ports clean
    exact performed' hcode (readReq_window hc1 job named alive (hready.trans ready) sound window
      (fun a ha cxl => (hstatus _).trans (ports a ha cxl)) clean)
  case queue =>
    intro hcode
    refine ⟨_, performed hcode, foreign, fun own => ?_⟩
    rw [if_pos own]
    exact ⟨queueReq_full hc1 job named alive, queueReq_queues hc1 job named alive⟩
  case preEmpt => exact fun hcode => refusedFirst hcode (preEmptReq_taken hc1 job named alive)
  case resume => exact fun hcode => refusedFirst hcode (resumeReq_taken hc1 job named alive)
  case breakpoint =>
    rintro g b imm hcode group rfl parked ctx core part num team tidx cluster grid code high
    rw [← htime]
    exact performed' hcode
      (bkptReq_resumes hc1 job named alive (hgroups.trans group) parked ctx core part num team tidx cluster grid code high)

end Sys2Proof.Proofs
end
